-- ==== Sys2Proof/Word.lean ====
section
/-! DEFINITION. The word types of the machine (00_scope R4, 09 R222): bytes, parcels, 64-bit words, vector words. -/
namespace Sys2Proof

/-- A byte of memory. -/
abbrev Byte := BitVec 8
/-- A 32-bit instruction parcel (R222). -/
abbrev Parcel := BitVec 32
/-- A general-register value (R234). -/
abbrev Word := BitVec 64
/-- A vector-register value, lane 0 in the low bits (R336). -/
abbrev VWord := BitVec 512
/-- A predicate: one bit for each of 32 lanes (R280). -/
abbrev PWord := BitVec 32
/-- A register field of an instruction: always 6 bits (R234). -/
abbrev Reg := BitVec 6
/-- A physical source number (R19), kept as a number. -/
abbrev Psn := Nat

end Sys2Proof
end

