-- ==== Sys2Proof/Machine/Bits.lean ====
section
/-! DEFINITION. Bit fields, byte order and sign extension (00 R4): the helpers every other file of the machine uses. -/
namespace Sys2Proof.Machine
open Sys2Proof

/-- Field high:low of a register, as a number (R4). -/
def fld {n : Nat} (w : BitVec n) (hi lo : Nat) : Nat := w.toNat / 2 ^ lo % 2 ^ (hi + 1 - lo)
/-- One bit of a register. -/
def bit {n : Nat} (w : BitVec n) (i : Nat) : Bool := w.getLsbD i
/-- The register with field high:low replaced. -/
def setFld {n : Nat} (w : BitVec n) (hi lo v : Nat) : BitVec n :=
  BitVec.ofNat n (w.toNat - w.toNat / 2 ^ lo % 2 ^ (hi + 1 - lo) * 2 ^ lo + v % 2 ^ (hi + 1 - lo) * 2 ^ lo)
/-- The register with one bit replaced. -/
def setBit {n : Nat} (w : BitVec n) (i : Nat) (b : Bool) : BitVec n := setFld w i i (if b then 1 else 0)

/-- The signed value of the low `w` bits of a number. -/
def signedOf (w v : Nat) : Int := if v % 2 ^ w < 2 ^ (w - 1) then (v % 2 ^ w : Nat) else ((v % 2 ^ w : Nat) : Int) - 2 ^ w

/-- The low `n` bytes of a number, least significant first (R4). -/
def leBytes (n v : Nat) : List Byte :=
  match n with
  | 0 => []
  | k + 1 => BitVec.ofNat 8 v :: leBytes k (v / 256)

/-- The number that bytes give, least significant first (R4). -/
def ofLe (bs : List Byte) : Nat :=
  match bs with
  | [] => 0
  | b :: rest => b.toNat + 256 * ofLe rest

/-- Bytes a to a + n − 1 of a list, zero beyond its end. -/
def slice (bs : List Byte) (a n : Nat) : List Byte :=
  let part := (bs.drop a).take n
  part ++ List.replicate (n - part.length) 0
/-- The little-endian number in bytes a to a + n − 1. -/
def numAt (bs : List Byte) (a n : Nat) : Nat := ofLe ((bs.drop a).take n)
/-- The bytes of a number over bytes a onward of a list. -/
def putBytes (bs : List Byte) (a : Nat) (v : List Byte) : List Byte := bs.take a ++ v ++ bs.drop (a + v.length)

/-- A saturating unsigned 64-bit sum (R185). -/
def satAdd (a : Word) (n : Nat) : Word := if a.toNat + n < 2 ^ 64 then BitVec.ofNat 64 (a.toNat + n) else BitVec.allOnes 64

/-- Replaces the elements of a list that satisfy `p`, or appends a new one where none does. -/
def upsert {α : Type} (l : List α) (p : α → Bool) (v : α) : List α :=
  if l.any p then l.map (fun x => if p x then v else x) else l ++ [v]

/-- The element at a place of a vector, `d` outside it. -/
def at_ {α : Type} {n : Nat} (v : Vector α n) (i : Nat) (d : α) : α := v[i]?.getD d
/-- A vector with the element at a place replaced; outside it nothing changes. -/
def put {α : Type} {n : Nat} (v : Vector α n) (i : Nat) (x : α) : Vector α n := v.setIfInBounds i x

end Sys2Proof.Machine
end

