-- ==== Sys2Proof/Syntax.lean ====
section
/-! DEFINITION. The instruction set as syntax: one constructor for each row of spec/opcode_table.json.
Rows 0 to 360 are instruction forms and carry the fields of their format (09 R224, R225, R227 to R229).
Rows 361 to 508 are steps of the machine's other agents (95_what_each_step_holds.md) and carry what names the step:
the number of an in-flight item, a unit, a register value written. -/
namespace Sys2Proof

/-- The fields of an L32A instruction (R224), its operation number apart. -/
structure ShortA where
  sub : BitVec 4
  b : Reg
  a : Reg
  d : Reg
  deriving DecidableEq, Repr

/-- The fields of an L32B instruction (R225), its short opcode apart. -/
structure ShortB where
  imm : BitVec 12
  a : Reg
  d : Reg
  deriving DecidableEq, Repr

/-- The fields of an L64 or L96 instruction (R227 to R229), its operation number apart.
`hi` is bits 31:20 of parcel 1: IMM12 or MOD12 in L64, MOD8 and HINT in L96. `lit` is parcel 2, zero in L64. -/
structure Long where
  wide : Bool
  b : Reg
  a : Reg
  d : Reg
  hi : BitVec 12
  after : BitVec 3
  emit : BitVec 3
  ginv : Bool
  guard : BitVec 3
  sub : BitVec 4
  c : Reg
  lit : BitVec 32
  deriving DecidableEq, Repr

/-- One of the eight page walkers of a region (R17, R63). -/
structure Walker where
  region : Nat
  number : Nat
  deriving DecidableEq, Repr

/-- Where bytes from another module come in: the port of a transfer engine (R19, R445), and the physical address they land at. -/
structure Inbound where
  port : Nat
  pa : BitVec 48
  deriving DecidableEq, Repr

/-- Every row of the opcode table, in the table's order. -/
inductive Instr where
  /-- R266: Integer add of two sources, wrapping or saturating, in L64 or L96 form. -/
  | add (x : Long)
  /-- R266: Integer add in the one-parcel register form, rounding RNE with no modifiers. -/
  | addL32A (x : ShortA)
  /-- R226: 64-bit add of a sign-extended 12-bit immediate. -/
  | addI64L32B (x : ShortB)
  /-- R226: 32-bit add of a sign-extended 12-bit immediate. -/
  | addI32L32B (x : ShortB)
  /-- R266: Writes the unsigned carry out of a + b. -/
  | addc (x : Long)
  /-- R266: Carry of an addition in the one-parcel form. -/
  | addcL32A (x : ShortA)
  /-- R266: Integer subtract, wrapping or saturating. -/
  | sub (x : Long)
  /-- R266: Integer subtract in the one-parcel form. -/
  | subL32A (x : ShortA)
  /-- R266: Writes the unsigned borrow of a − b. -/
  | subb (x : Long)
  /-- R266: Borrow of a subtraction in the one-parcel form. -/
  | subbL32A (x : ShortA)
  /-- R266: Integer multiply, low bits or saturated. -/
  | mul (x : Long)
  /-- R266: Integer multiply in the one-parcel form. -/
  | mulL32A (x : ShortA)
  /-- R226: 64-bit multiply by a sign-extended immediate. -/
  | mulI64L32B (x : ShortB)
  /-- R226: 32-bit multiply by a sign-extended immediate. -/
  | mulI32L32B (x : ShortB)
  /-- R266: Upper half of the signed double-width product. -/
  | mulh (x : Long)
  /-- R266: Signed high multiply in the one-parcel form. -/
  | mulhL32A (x : ShortA)
  /-- R266: Upper half of the unsigned double-width product. -/
  | mulhn (x : Long)
  /-- R266: Unsigned high multiply in the one-parcel form. -/
  | mulhnL32A (x : ShortA)
  /-- R255: Signed division toward zero with defined edge cases. -/
  | div (x : Long)
  /-- R255: Signed division in the one-parcel form. -/
  | divL32A (x : ShortA)
  /-- R255: Unsigned division with defined edge cases. -/
  | divn (x : Long)
  /-- R255: Unsigned division in the one-parcel form. -/
  | divnL32A (x : ShortA)
  /-- R255: Signed remainder with the sign of the dividend. -/
  | rem (x : Long)
  /-- R255: Signed remainder in the one-parcel form. -/
  | remL32A (x : ShortA)
  /-- R255: Unsigned remainder. -/
  | remn (x : Long)
  /-- R255: Unsigned remainder in the one-parcel form. -/
  | remnL32A (x : ShortA)
  /-- R266: Bitwise AND. -/
  | and (x : Long)
  /-- R266: Bitwise AND in the one-parcel form. -/
  | andL32A (x : ShortA)
  /-- R226: Bitwise AND with a sign-extended immediate. -/
  | andN64L32B (x : ShortB)
  /-- R266: Bitwise a AND NOT b. -/
  | andn (x : Long)
  /-- R266: AND NOT in the one-parcel form. -/
  | andnL32A (x : ShortA)
  /-- R226: AND NOT with a sign-extended immediate. -/
  | andnN64L32B (x : ShortB)
  /-- R266: Bitwise OR. -/
  | or (x : Long)
  /-- R266: Bitwise OR in the one-parcel form. -/
  | orL32A (x : ShortA)
  /-- R226: Bitwise OR with a sign-extended immediate. -/
  | orN64L32B (x : ShortB)
  /-- R266: Bitwise exclusive OR. -/
  | xor (x : Long)
  /-- R266: Exclusive OR in the one-parcel form. -/
  | xorL32A (x : ShortA)
  /-- R226: Exclusive OR with a sign-extended immediate. -/
  | xorN64L32B (x : ShortB)
  /-- R266: Shift left, wrapping or saturating. -/
  | shl (x : Long)
  /-- R266: Shift left in the one-parcel form. -/
  | shlL32A (x : ShortA)
  /-- R226: Shift left by an immediate count 0–63. -/
  | shlN64L32B (x : ShortB)
  /-- R266: Logical shift right. -/
  | shr (x : Long)
  /-- R266: Logical shift right in the one-parcel form. -/
  | shrL32A (x : ShortA)
  /-- R226: Logical shift right by an immediate count. -/
  | shrN64L32B (x : ShortB)
  /-- R266: Arithmetic shift right. -/
  | sha (x : Long)
  /-- R266: Arithmetic shift right in the one-parcel form. -/
  | shaL32A (x : ShortA)
  /-- R226: Arithmetic shift right by an immediate count. -/
  | shaI64L32B (x : ShortB)
  /-- R266: Rotate left. -/
  | rol (x : Long)
  /-- R266: Rotate left in the one-parcel form. -/
  | rolL32A (x : ShortA)
  /-- R266: Rotate right. -/
  | rotr (x : Long)
  /-- R266: Rotate right in the one-parcel form. -/
  | rotrL32A (x : ShortA)
  /-- R226: Rotate right by an immediate count. -/
  | rotrN64L32B (x : ShortB)
  /-- R266: Count leading zero bits. -/
  | clz (x : Long)
  /-- R266: Count leading zeros in the one-parcel form. -/
  | clzL32A (x : ShortA)
  /-- R266: Count trailing zero bits. -/
  | ctz (x : Long)
  /-- R266: Count trailing zeros in the one-parcel form. -/
  | ctzL32A (x : ShortA)
  /-- R266: Count set bits. -/
  | popc (x : Long)
  /-- R266: Population count in the one-parcel form. -/
  | popcL32A (x : ShortA)
  /-- R266: Reverse the bit order. -/
  | brev (x : Long)
  /-- R266: Bit reverse in the one-parcel form. -/
  | brevL32A (x : ShortA)
  /-- R266: Reverse the byte order. -/
  | bswap (x : Long)
  /-- R266: Byte swap in the one-parcel form. -/
  | bswapL32A (x : ShortA)
  /-- R266: Signed minimum. -/
  | min (x : Long)
  /-- R266: Signed minimum in the one-parcel form. -/
  | minL32A (x : ShortA)
  /-- R226: Signed minimum with a sign-extended immediate. -/
  | minI64L32B (x : ShortB)
  /-- R266: Signed maximum. -/
  | max (x : Long)
  /-- R266: Signed maximum in the one-parcel form. -/
  | maxL32A (x : ShortA)
  /-- R226: Signed maximum with a sign-extended immediate. -/
  | maxI64L32B (x : ShortB)
  /-- R266: Unsigned minimum. -/
  | minn (x : Long)
  /-- R266: Unsigned minimum in the one-parcel form. -/
  | minnL32A (x : ShortA)
  /-- R226: Unsigned minimum with an immediate. -/
  | minnN64L32B (x : ShortB)
  /-- R266: Unsigned maximum. -/
  | maxn (x : Long)
  /-- R266: Unsigned maximum in the one-parcel form. -/
  | maxnL32A (x : ShortA)
  /-- R226: Unsigned maximum with an immediate. -/
  | maxnN64L32B (x : ShortB)
  /-- R266: Signed absolute value, wrapping or saturating. -/
  | abs (x : Long)
  /-- R266: Absolute value in the one-parcel form. -/
  | absL32A (x : ShortA)
  /-- R268: Extracts a bit field, zero- or sign-extended. -/
  | bfx (x : Long)
  /-- R226: Unsigned bit-field extract with immediate position and length. -/
  | bfxN64L32B (x : ShortB)
  /-- R226: Signed bit-field extract with immediate position and length. -/
  | bfxI64L32B (x : ShortB)
  /-- R268: Inserts a bit field into gd. -/
  | bfi (x : Long)
  /-- R267: Selects ga or gb by lane 0 of a predicate. -/
  | sel (x : Long)
  /-- R267: Integer compare writing all lanes of a predicate. -/
  | cmp (x : Long)
  /-- R226: Compare equal with a sign-extended immediate. -/
  | cmpEqI64L32B (x : ShortB)
  /-- R226: Compare not equal with an immediate. -/
  | cmpNeI64L32B (x : ShortB)
  /-- R226: Signed less-than with an immediate. -/
  | cmpLtI64L32B (x : ShortB)
  /-- R226: Signed less-or-equal with an immediate. -/
  | cmpLeI64L32B (x : ShortB)
  /-- R226: Signed greater-than with an immediate. -/
  | cmpGtI64L32B (x : ShortB)
  /-- R226: Signed greater-or-equal with an immediate. -/
  | cmpGeI64L32B (x : ShortB)
  /-- R226: Unsigned less-than with an immediate. -/
  | cmpLtN64L32B (x : ShortB)
  /-- R226: Unsigned less-or-equal with an immediate. -/
  | cmpLeN64L32B (x : ShortB)
  /-- R226: Unsigned greater-than with an immediate. -/
  | cmpGtN64L32B (x : ShortB)
  /-- R226: Unsigned greater-or-equal with an immediate. -/
  | cmpGeN64L32B (x : ShortB)
  /-- R267: Copies a whole 64-bit register, direct or relative. -/
  | mov (x : Long)
  /-- R267: Register move in the one-parcel form. -/
  | movL32A (x : ShortA)
  /-- R226: Moves g[ga + k] into gd. -/
  | movRelSrcL32B (x : ShortB)
  /-- R226: Moves ga into g[gd + k]. -/
  | movRelDstL32B (x : ShortB)
  /-- R267: Loads an immediate taken to the type's width. -/
  | li (x : Long)
  /-- R226: Loads a sign-extended 12-bit immediate. -/
  | liI64L32B (x : ShortB)
  /-- R267: Shifts ga left and ORs in an immediate or gb. -/
  | lih (x : Long)
  /-- R226: Shifts ga left 12 and ORs in an unsigned immediate. -/
  | lihL32B (x : ShortB)
  /-- R269: Floating add rounded once. -/
  | fadd (x : Long)
  /-- R269: Floating add in the one-parcel form, RNE. -/
  | faddL32A (x : ShortA)
  /-- R269: Floating subtract rounded once. -/
  | fsub (x : Long)
  /-- R269: Floating subtract in the one-parcel form. -/
  | fsubL32A (x : ShortA)
  /-- R269: Floating multiply rounded once. -/
  | fmul (x : Long)
  /-- R269: Floating multiply in the one-parcel form. -/
  | fmulL32A (x : ShortA)
  /-- R269: Fused multiply-add rounded once. -/
  | ffma (x : Long)
  /-- R269: Fused multiply-subtract rounded once. -/
  | ffms (x : Long)
  /-- R269: Floating divide rounded once. -/
  | fdiv (x : Long)
  /-- R269: Floating divide in the one-parcel form. -/
  | fdivL32A (x : ShortA)
  /-- R269: Floating square root rounded once. -/
  | fsqrt (x : Long)
  /-- R269: Square root in the one-parcel form. -/
  | fsqrtL32A (x : ShortA)
  /-- R269: Floating minimum with NaN and signed-zero rules. -/
  | fmin (x : Long)
  /-- R269: Floating minimum in the one-parcel form. -/
  | fminL32A (x : ShortA)
  /-- R269: Floating maximum with NaN and signed-zero rules. -/
  | fmax (x : Long)
  /-- R269: Floating maximum in the one-parcel form. -/
  | fmaxL32A (x : ShortA)
  /-- R269: Clears the sign bit. -/
  | fabs (x : Long)
  /-- R269: Floating absolute in the one-parcel form. -/
  | fabsL32A (x : ShortA)
  /-- R269: Inverts the sign bit. -/
  | fneg (x : Long)
  /-- R269: Floating negate in the one-parcel form. -/
  | fnegL32A (x : ShortA)
  /-- R269: Copies a with the sign of b. -/
  | fcpys (x : Long)
  /-- R269: Copy sign in the one-parcel form. -/
  | fcpysL32A (x : ShortA)
  /-- R270: Floating compare writing a predicate. -/
  | fcmp (x : Long)
  /-- R270: Writes a one-hot class mask of the operand. -/
  | fclass (x : Long)
  /-- R270: Float classification in the one-parcel form. -/
  | fclassL32A (x : ShortA)
  /-- R256: Converts float to float, rounding once when narrowing. -/
  | fcvt (x : Long)
  /-- R257: Converts float to integer with rounding and clamping. -/
  | fcvti (x : Long)
  /-- R256: Converts integer to float rounding once. -/
  | icvtf (x : Long)
  /-- R269: Rounds to an integral value in the same format. -/
  | frnd (x : Long)
  /-- R269: Round to integral in the one-parcel form. -/
  | frndL32A (x : ShortA)
  /-- R272: Branches on lane 0 of a predicate, optionally inverted. -/
  | br (x : Long)
  /-- R226: Branches when lane 0 of pa is 1. -/
  | brL32B (x : ShortB)
  /-- R226: Branches when lane 0 of pa is 0. -/
  | brNotL32B (x : ShortB)
  /-- R273: Jumps to a parcel offset. -/
  | jmp (x : Long)
  /-- R272: Jumps by a signed 22-bit parcel offset. -/
  | jmpL32A (x : ShortA)
  /-- R274: Jumps to the byte offset in a register. -/
  | jmpi (x : Long)
  /-- R274: Register jump in the one-parcel form. -/
  | jmpiL32A (x : ShortA)
  /-- R273: Jumps and writes the link register. -/
  | call (x : Long)
  /-- R226: Call with a 12-bit parcel offset. -/
  | callL32B (x : ShortB)
  /-- R273: Calls the register target, writing the link register. -/
  | calli (x : Long)
  /-- R273: Register call in the one-parcel form. -/
  | calliL32A (x : ShortA)
  /-- R274: Returns to the offset in a register. -/
  | ret (x : Long)
  /-- R274: Return in the one-parcel form. -/
  | retL32A (x : ShortA)
  /-- R275: Decrements a counter and branches while nonzero. -/
  | loops (x : Long)
  /-- R276: Ends the activation, leaving outstanding accesses to the load-store unit. -/
  | endI (x : Long)
  /-- R276: End in the one-parcel form. -/
  | endL32A (x : ShortA)
  /-- R272: Does nothing; with AFTER it stalls issue. -/
  | nop (x : Long)
  /-- R272: No operation in the one-parcel form. -/
  | nopL32A (x : ShortA)
  /-- R278: Names member cores and waits until each joins or is absent. -/
  | gang (x : Long)
  /-- R279: Dissolves or leaves the gang and returns the fault word. -/
  | ungang (x : Long)
  /-- R279: UNGANG in the one-parcel form. -/
  | ungangL32A (x : ShortA)
  /-- R196: Synchronises leader and detached members at rejoin point k. -/
  | rejoin (x : Long)
  /-- R279: REJOIN with a 12-bit point number. -/
  | rejoinL32A (x : ShortA)
  /-- R280: Lane-wise AND of two optionally inverted predicates. -/
  | pand (x : Long)
  /-- R280: Predicate AND in the one-parcel form. -/
  | pandL32A (x : ShortA)
  /-- R280: Lane-wise OR of two optionally inverted predicates. -/
  | por (x : Long)
  /-- R280: Predicate OR in the one-parcel form. -/
  | porL32A (x : ShortA)
  /-- R280: Lane-wise XOR of two optionally inverted predicates. -/
  | pxor (x : Long)
  /-- R280: Predicate XOR in the one-parcel form. -/
  | pxorL32A (x : ShortA)
  /-- R280: Lane-wise NOT of a predicate. -/
  | pnot (x : Long)
  /-- R280: Predicate NOT in the one-parcel form. -/
  | pnotL32A (x : ShortA)
  /-- R280: Copies a predicate to a predicate. -/
  | pmov (x : Long)
  /-- R280: Predicate copy in the one-parcel form. -/
  | pmovL32A (x : ShortA)
  /-- R280: Sets predicate lanes from the low 32 bits of a g register. -/
  | pmovFromG (x : Long)
  /-- R280: Predicate from g in the one-parcel form. -/
  | pmovFromGL32A (x : ShortA)
  /-- R280: Writes predicate lanes into bits 31:0 of a g register. -/
  | pmovToG (x : Long)
  /-- R280: Predicate to g in the one-parcel form. -/
  | pmovToGL32A (x : ShortA)
  /-- R280: Counts set predicate lanes. -/
  | pcnt (x : Long)
  /-- R280: Predicate count in the one-parcel form. -/
  | pcntL32A (x : ShortA)
  /-- R309: Adds 1 to a local counter, saturating. -/
  | qinc (x : Long)
  /-- R309: Counter increment in the one-parcel form. -/
  | qincL32A (x : ShortA)
  /-- R309: Adds an amount to a local counter, saturating. -/
  | qadd (x : Long)
  /-- R226: Adds an immediate 1–2047 to a local counter. -/
  | qaddL32B (x : ShortB)
  /-- R309: Reads a local counter, or a home store counter as a STORE load. -/
  | qrd (x : Long)
  /-- R310: Posts an increment to a remote core counter or a store counter. -/
  | qpost (x : Long)
  /-- R187: Suspends as a continuation until counter thresholds are reached. -/
  | waitq (x : Long)
  /-- R312: Closes the open batch and waits until at most n batches are outstanding. -/
  | waitb (x : Long)
  /-- R313: Waits until q50 reaches n, ordering after predecessor accesses. -/
  | waitvis (x : Long)
  /-- R314: Lets the graph's successor become resident early. -/
  | succhint (x : Long)
  /-- R314: Successor hint in the one-parcel form. -/
  | succhintL32A (x : ShortA)
  /-- R316: Waits until the input queue's filled count reaches n or it ends. -/
  | hwaitf (x : Long)
  /-- R226: Waits for n filled slots, short form. -/
  | hwaitfL32B (x : ShortB)
  /-- R316: Waits until an output handle has n free slots. -/
  | hwaite (x : Long)
  /-- R226: Waits for n free slots, short form. -/
  | hwaiteL32B (x : ShortB)
  /-- R317: Reads bytes of an input slot in presentation order. -/
  | hld (x : Long)
  /-- R317: Writes bytes into a staging slot. -/
  | hst (x : Long)
  /-- R318: Consumes n slots and returns credits to their producers. -/
  | hadvc (x : Long)
  /-- R226: Consumes n slots, short form. -/
  | hadvcL32B (x : ShortB)
  /-- R318: Closes n staging slots for sending. -/
  | hadvp (x : Long)
  /-- R226: Closes n staging slots, short form. -/
  | hadvpL32B (x : ShortB)
  /-- R318: Sends the end-of-stream mark after closed slots. -/
  | heos (x : Long)
  /-- R319: Samples a handle's state. -/
  | hstat (x : Long)
  /-- R319: Handle status in the one-parcel form. -/
  | hstatL32A (x : ShortA)
  /-- R320: Sends one slot read from local memory. -/
  | send (x : Long)
  /-- R320: Sends one slot taken from vector registers. -/
  | sendq (x : Long)
  /-- R322: Contributes to a collective reduction round and awaits the result. -/
  | cred (x : Long)
  /-- R282: Derives a narrower child capability. -/
  | cderive (x : Long)
  /-- R282: Narrows granting permissions and may add L. -/
  | cperm (x : Long)
  /-- R283: Seals a capability with a key's seal number. -/
  | cseal (x : Long)
  /-- R283: Seal in the one-parcel form. -/
  | csealL32A (x : ShortA)
  /-- R283: Unseals a capability with the matching key. -/
  | cunseal (x : Long)
  /-- R283: Unseal in the one-parcel form. -/
  | cunsealL32A (x : ShortA)
  /-- R284: Reads a capability's base. -/
  | cbase (x : Long)
  /-- R284: Base inspector in the one-parcel form. -/
  | cbaseL32A (x : ShortA)
  /-- R284: Reads a capability's length. -/
  | clen (x : Long)
  /-- R284: Length inspector in the one-parcel form. -/
  | clenL32A (x : ShortA)
  /-- R284: Reads a capability's permissions. -/
  | cperms (x : Long)
  /-- R284: Permission inspector in the one-parcel form. -/
  | cpermsL32A (x : ShortA)
  /-- R284: Reads a capability's OTYPE. -/
  | ctype (x : Long)
  /-- R284: Type inspector in the one-parcel form. -/
  | ctypeL32A (x : ShortA)
  /-- R284: Reads a capability's tag. -/
  | ctag (x : Long)
  /-- R284: Tag inspector in the one-parcel form. -/
  | ctagL32A (x : ShortA)
  /-- R284: Clears a capability register and its tag. -/
  | cclr (x : Long)
  /-- R284: Capability clear in the one-parcel form. -/
  | cclrL32A (x : ShortA)
  /-- R284: Copies a capability with its tag. -/
  | cmov (x : Long)
  /-- R284: Capability move in the one-parcel form. -/
  | cmovL32A (x : ShortA)
  /-- R285: Loads a capability granule with its tag ANDed with C. -/
  | cldc (x : Long)
  /-- R226: Capability load with a displacement in 16-byte units. -/
  | cldcL32B (x : ShortB)
  /-- R285: Stores a capability granule and its tag as one unit. -/
  | cstc (x : Long)
  /-- R226: Capability store with a displacement in 16-byte units. -/
  | cstcL32B (x : ShortB)
  /-- R286: Checks an access against a capability without making it. -/
  | cchk (x : Long)
  /-- R288: Suspends as a faulted continuation and requests a firmware service. -/
  | trap (x : Long)
  /-- R226: Service request with a 12-bit number. -/
  | trapL32B (x : ShortB)
  /-- R289: Reloads the activation's wick counter. -/
  | wick (x : Long)
  /-- R289: Wick reload in the one-parcel form. -/
  | wickL32A (x : ShortA)
  /-- R192: Returns one field of the work identifier. -/
  | wid (x : Long)
  /-- R226: Work identifier field, short form. -/
  | widL32B (x : ShortB)
  /-- R290: Returns a selected identity value of the core. -/
  | who (x : Long)
  /-- R291: Sends a unit query to a Lantern; gd pends until the answer. -/
  | query (x : Long)
  /-- R291: Query in the one-parcel form. -/
  | queryL32A (x : ShortA)
  /-- R290: Samples the TSC. -/
  | time (x : Long)
  /-- R290: TSC sample in the one-parcel form. -/
  | timeL32A (x : ShortA)
  /-- R290: Samples ENERGY_UJ. -/
  | timeEnergy (x : Long)
  /-- R290: Energy sample in the one-parcel form. -/
  | timeEnergyL32A (x : ShortA)
  /-- R292: Reads a numbered system register. -/
  | sysrd (x : Long)
  /-- R292: Writes a numbered system register, firmware only. -/
  | syswr (x : Long)
  /-- R294: Gives up the core as a ready short continuation. -/
  | yield (x : Long)
  /-- R294: Yield in the one-parcel form. -/
  | yieldL32A (x : ShortA)
  /-- R296: Commits the second phase of power gating a cluster. -/
  | gate (x : Long)
  /-- R297: Snuffs a core by PSN. -/
  | snuff (x : Long)
  /-- R298: Gives a core a new name through the directory. -/
  | nameset (x : Long)
  /-- R299: Answers a Lamplighter lease proposal. -/
  | leaseack (x : Long)
  /-- R300: Replies RESUME to a faulted continuation. -/
  | fresume (x : Long)
  /-- R67: Replies RESUME with a 64-byte value, completing the faulted access. -/
  | fresumeValue (x : Long)
  /-- R300: Replies KILL, ending the faulted activation. -/
  | fkill (x : Long)
  /-- R304: Loads an element into a g register; pending until the value arrives. -/
  | ld (x : Long)
  /-- R226: 64-bit load, short form. -/
  | ldN64L32B (x : ShortB)
  /-- R226: Signed 32-bit load, short form. -/
  | ldI32L32B (x : ShortB)
  /-- R226: Unsigned 32-bit load, short form. -/
  | ldN32L32B (x : ShortB)
  /-- R226: Signed 16-bit load, short form. -/
  | ldI16L32B (x : ShortB)
  /-- R226: Unsigned 16-bit load, short form. -/
  | ldN16L32B (x : ShortB)
  /-- R226: Signed 8-bit load, short form. -/
  | ldI8L32B (x : ShortB)
  /-- R226: Unsigned 8-bit load, short form. -/
  | ldN8L32B (x : ShortB)
  /-- R304: Stores the low bytes of a g register. -/
  | st (x : Long)
  /-- R226: 64-bit store, short form. -/
  | stN64L32B (x : ShortB)
  /-- R226: 32-bit store, short form. -/
  | stN32L32B (x : ShortB)
  /-- R226: 16-bit store, short form. -/
  | stN16L32B (x : ShortB)
  /-- R226: 8-bit store, short form. -/
  | stN8L32B (x : ShortB)
  /-- R161: Acquire load ordering later accesses of its scope after it. -/
  | lda (x : Long)
  /-- R161: Release store ordered after earlier accesses of its scope. -/
  | stl (x : Long)
  /-- R305: Prefetches a translation and row activation; never faults. -/
  | pf (x : Long)
  /-- R226: Prefetch, short form. -/
  | pfL32B (x : ShortB)
  /-- R306: Atomic add returning the old value. -/
  | aadd (x : Long)
  /-- R306: Atomic minimum returning the old value. -/
  | amin (x : Long)
  /-- R306: Atomic maximum returning the old value. -/
  | amax (x : Long)
  /-- R306: Atomic AND returning the old value. -/
  | aand (x : Long)
  /-- R306: Atomic OR returning the old value. -/
  | aor (x : Long)
  /-- R306: Atomic XOR returning the old value. -/
  | axor (x : Long)
  /-- R306: Atomic swap returning the old value. -/
  | aswp (x : Long)
  /-- R307: Atomic compare-and-swap using gd and g(d+1). -/
  | acas (x : Long)
  /-- R307: Atomic floating add rounded once. -/
  | aaddf (x : Long)
  /-- R160: Holds later covered accesses until earlier covered ones complete. -/
  | fence (x : Long)
  /-- R153: Sets a token to the union of two tokens. -/
  | ojoin (x : Long)
  /-- R325: Queues a contiguous copy command on a copy channel. -/
  | cpy (x : Long)
  /-- R327: Copy whose destination is an output handle, cut into slot messages. -/
  | cpyHandle (x : Long)
  /-- R326: Copy with one side enumerated by an address generator. -/
  | cpy4 (x : Long)
  /-- R326: Gather copy from a list of offsets. -/
  | cpyg (x : Long)
  /-- R99: Closes the open batch of copy commands. -/
  | batch (x : Long)
  /-- R329: Reconfigures a store-tile segment's mode. -/
  | stcfg (x : Long)
  /-- R330: Waits until an OPERAND buffer's full bit equals v. -/
  | sbufw (x : Long)
  /-- R330: Sets or clears an OPERAND buffer's full bit. -/
  | sbufset (x : Long)
  /-- R331: Starts a page splice copy on the DRAM actors. -/
  | splice (x : Long)
  /-- R334: Issues a DRAM read request with a chosen reply mode. -/
  | drd (x : Long)
  /-- R334: Issues a DRAM write request of up to 64 bytes. -/
  | dwr (x : Long)
  /-- R334: Issues DRAM gather requests split per stack. -/
  | dgath (x : Long)
  /-- R334: Requests an acknowledgement once earlier requests to a stack are performed. -/
  | flush (x : Long)
  /-- R335: Opens a row line and returns its handle. -/
  | rowopen (x : Long)
  /-- R335: Keeps a row line and renews its lease. -/
  | rowhold (x : Long)
  /-- R335: Releases a row line. -/
  | rowrel (x : Long)
  /-- R335: Reads bytes of a held row with a chosen reply mode. -/
  | rowrd (x : Long)
  /-- R335: Reads 64 bytes of a held row into a vector register. -/
  | rowrdv (x : Long)
  /-- R335: Writes bytes into a held row. -/
  | rowwr (x : Long)
  /-- R335: Returns the state word of a row line. -/
  | rowstat (x : Long)
  /-- R342: Loads a stream descriptor into a stream slot. -/
  | scfg (x : Long)
  /-- R342: Binds a configured stream to a capability and starts it. -/
  | sbind (x : Long)
  /-- R346: Unbinds a stream slot and frees its generator. -/
  | sunbind (x : Long)
  /-- R345: Attaches a predicate bit stream to a configured slot. -/
  | spredAttach (x : Long)
  /-- R345: Reads the live mask of the last pop into a predicate. -/
  | spredRead (x : Long)
  /-- R342: Returns the elements popped or pushed since SBIND. -/
  | spos (x : Long)
  /-- R349: Loads one or more 64-byte vectors, optionally consuming a buffer. -/
  | vld (x : Long)
  /-- R226: Vector load with a displacement in 64-byte units. -/
  | vldL32B (x : ShortB)
  /-- R349: Stores one or more 64-byte vectors. -/
  | vst (x : Long)
  /-- R226: Vector store with a displacement in 64-byte units. -/
  | vstL32B (x : ShortB)
  /-- R350: Gathers lane elements by vector offsets. -/
  | vldg (x : Long)
  /-- R350: Scatters lane elements by vector offsets. -/
  | vsts (x : Long)
  /-- R351: Broadcasts a scalar to every governed lane. -/
  | vbcast (x : Long)
  /-- R351: Copies governed lanes of a vector. -/
  | vmov (x : Long)
  /-- R351: Moves lane i of a vector into a g register. -/
  | vmovmExtract (x : Long)
  /-- R351: Writes a g register into lane i of a vector. -/
  | vmovmInsert (x : Long)
  /-- R352: Permutes lanes by index vector. -/
  | vperm (x : Long)
  /-- R352: Slides lanes across two vectors by n. -/
  | vslide (x : Long)
  /-- R353: Lane-wise add. -/
  | vadd (x : Long)
  /-- R353: Lane-wise subtract. -/
  | vsub (x : Long)
  /-- R353: Lane-wise multiply. -/
  | vmul (x : Long)
  /-- R353: Lane-wise fused multiply-add. -/
  | vfma (x : Long)
  /-- R353: Lane-wise minimum. -/
  | vmin (x : Long)
  /-- R353: Lane-wise maximum. -/
  | vmax (x : Long)
  /-- R353: Lane-wise absolute value. -/
  | vabs (x : Long)
  /-- R353: Lane-wise negation. -/
  | vneg (x : Long)
  /-- R353: Lane-wise floating divide. -/
  | vdiv (x : Long)
  /-- R353: Lane-wise floating square root. -/
  | vsqrt (x : Long)
  /-- R354: Correctly rounded lane-wise reciprocal. -/
  | vrcp (x : Long)
  /-- R354: Correctly rounded reciprocal square root. -/
  | vrsqrt (x : Long)
  /-- R354: Correctly rounded base-2 exponential. -/
  | vexp2 (x : Long)
  /-- R354: Correctly rounded base-2 logarithm. -/
  | vlog2 (x : Long)
  /-- R354: Correctly rounded sine. -/
  | vsin (x : Long)
  /-- R354: Correctly rounded cosine. -/
  | vcos (x : Long)
  /-- R354: Correctly rounded hyperbolic tangent. -/
  | vtanh (x : Long)
  /-- R355: Lane-wise AND. -/
  | vand (x : Long)
  /-- R355: Lane-wise OR. -/
  | vor (x : Long)
  /-- R355: Lane-wise XOR. -/
  | vxor (x : Long)
  /-- R355: Lane-wise shift left. -/
  | vshl (x : Long)
  /-- R355: Lane-wise logical shift right. -/
  | vshr (x : Long)
  /-- R355: Lane-wise arithmetic shift right. -/
  | vsha (x : Long)
  /-- R356: Lane-wise compare into a predicate. -/
  | vcmp (x : Long)
  /-- R356: Lane-wise select by predicate. -/
  | vsel (x : Long)
  /-- R357: Lane-wise conversion between element types. -/
  | vcvt (x : Long)
  /-- R358: Packs 16 lanes into an SX group or Q4G slice. -/
  | vpack (x : Long)
  /-- R359: Unpacks an SX group or Q4G slice into lanes. -/
  | vunpack (x : Long)
  /-- R360: Reduces governed lanes to a scalar. -/
  | vred (x : Long)
  /-- R361: Prefix reduction over governed lanes. -/
  | vscan (x : Long)
  /-- R362: Dot product of governed lanes into a scalar. -/
  | vdot (x : Long)
  /-- R372: Zeroes an accumulator and sets its kind. -/
  | mzero (x : Long)
  /-- R373: Exact 16×16 matrix product accumulate. -/
  | mma (x : Long)
  /-- R374: Exact product with a Q4G first operand. -/
  | mmaq (x : Long)
  /-- R375: FP64 product in fixed step order with recorded progress. -/
  | mmad (x : Long)
  /-- R376: Rounds and writes an accumulator to memory or a stream. -/
  | mread (x : Long)
  /-- R377: Rounds one accumulator row into vector lanes. -/
  | mreadk (x : Long)
  /-- R378: Adds one accumulator into another. -/
  | macc (x : Long)
  /-- R378: Copies one accumulator into another with its kind. -/
  | maccMov (x : Long)
  /-- R379: Returns an accumulator's status word. -/
  | mstat (x : Long)
  /-- R380: Switches between normal and diagnostic matrix mode. -/
  | mmode (x : Long)
  /-- R389: Seals this member's arming for the ring operation. -/
  | rjoin (x : Long)
  /-- R392: Requests dissolution of the ring. -/
  | rleave (x : Long)
  /-- R386: Arms a match entry for the current operation. -/
  | rmset (x : Long)
  /-- R387: Frees one match entry. -/
  | rmclr (x : Long)
  /-- R387: Frees every match entry of the member. -/
  | rmclrAll (x : Long)
  /-- R388: Injects a tile from the home store tile onto the ring. -/
  | rinj (x : Long)
  /-- R391: Returns the ring to idle after an error. -/
  | rdrain (x : Long)
  /-- R393: Samples ring state. -/
  | rstat (x : Long)
  /-- R390: Requests relight of the missing tiles of an entry. -/
  | relight (x : Long)
  /-- R40: A firmware write to a CTRL register with no behaviour of its own updates the named bytes. -/
  | ctrlRegisterWrite (addr : BitVec 40) (data : List Byte)
  /-- R28: A write of NAME_PREFIX, if no graph or tombstone is present, renames every mapped core to its default name. -/
  | namePrefixWrite (region : Nat) (value : Word)
  /-- R28: A write of DIR_ENTRY.NAME asks the directory to rename the selected core, setting REFUSED on refusal. -/
  | dirEntryWrite (region : Nat) (name : BitVec 24)
  /-- R30: A message arriving at a router refreshes the source entry and is forwarded on the learned port or flooded. -/
  | routerArrival (id : Nat)
  /-- R31: A message reaching a core's local port is accepted in channel-sequence order, stashed, held or discarded as duplicate. -/
  | coreMessageAccept (id : Nat)
  /-- R32: The Lantern bounces a flood or agent message whose name it does not hold, with reason 0x01. -/
  | lanternFloodBounce (id : Nat)
  /-- R32: A returned bounce releases the credit, increments q52 and posts a BOUNCE fault message. -/
  | bounceReceived (id : Nat)
  /-- R33: A tombstone forwards an arrival for its name to the new core by physical route. -/
  | tombstoneForward (id : Nat)
  /-- R33: At the end of the forwarding window the tombstone sends remaining markers and leaves the directory. -/
  | tombstoneWindowEnd (core : Psn)
  /-- R63: A core TLB miss reaching the L2 is answered on a hit or queued for a walk. -/
  | l2TlbRequest (id : Nat)
  /-- R63: A free walker takes the oldest queued walk, reads the levels and fills the L2 or reports PAGE. -/
  | pageWalk (walker : Walker)
  /-- R63: A walk or L2 reply arrives and fills the TLB that missed. -/
  | tlbFillReply (id : Nat)
  /-- R65: A TLB_INVAL write with SCOPE 0 starts invalidation of one page and sets BUSY. -/
  | tlbInvalPage (region : Nat) (value : Word)
  /-- R65: A TLB_INVAL write with SCOPE 1 starts invalidation of every page of a context. -/
  | tlbInvalContext (region : Nat) (value : Word)
  /-- R65: A TLB_INVAL write with SCOPE 2 starts invalidation of every context. -/
  | tlbInvalAll (region : Nat) (value : Word)
  /-- R65: When every TLB has acknowledged and drained, BUSY falls. -/
  | tlbInvalComplete (region : Nat)
  /-- R70: When WRITE_PTR reaches 1,024 the Lantern rewrites the leaf to the new frame and starts a wafer invalidation. -/
  | spliceCopyComplete (region entry : Nat)
  /-- R70: When that invalidation completes, the leaf's SPLICE clears, the entry frees and old-frame row slots are freed. -/
  | spliceFinish (region entry : Nat)
  /-- R72: A store tile or exchange bank is copied to a spare, remapped and withdrawn. -/
  | storeTileEvacuation (source spare : Psn)
  /-- R74: A GONE reply increments q52 and suspends the activation at its next boundary, or is reissued for an ended activation. -/
  | goneReply (id : Nat)
  /-- R301: A fault found by the owner reaches the core in the reply and is delivered at the next boundary. -/
  | ownerFaultReply (id : Nat)
  /-- R79: An access arriving at a store tile segment is performed under the segment's mode. -/
  | storeAccess (id : Nat)
  /-- R82: A firmware write of SEG_CFG reconfigures the segment between accesses, clearing it. -/
  | segCfgWrite (tile : Psn) (seg : Nat) (value : Word)
  /-- R82: Once no access is in progress the segment takes the new configuration and refuses blocked accesses. -/
  | segmentReconfigure (tile : Psn) (seg : Nat)
  /-- R85: A retry returned by a full wait list makes the issuer send the access again. -/
  | fifoRetry (id : Nat)
  /-- R94: A queue message fills its producer's sub-ring slot and updates the filled count. -/
  | queueSlotArrival (id : Nat)
  /-- R95: An end-of-stream mark is counted and may set ENDED. -/
  | eosMarkArrival (id : Nat)
  /-- R93: Returned credits raise CREDITS at the producer. -/
  | creditReturn (id : Nat)
  /-- R93: A closed staging slot is sent once a credit is held and its token is satisfied. -/
  | stagingSlotSend (core : Psn) (handle : Nat)
  /-- R97: A channel starts its next command once the previous ends and its token is satisfied. -/
  | copyCommandStart (core : Psn) (chan : Nat)
  /-- R98: A copied block is performed at the destination and the write pointer advances. -/
  | copyBlockWrite (core : Psn) (chan : Nat)
  /-- R101: After 2^16 flits or 1,024 idle cycles the sender sends its SENT count. -/
  | linkAuditStart (tile : Psn) (port lane : Nat)
  /-- R101: The receiver's counts are compared and a mismatch starts resynchronisation. -/
  | linkAuditReply (id : Nat)
  /-- R102: A flit dropped for uncorrectable ECC makes the receiver request an audit. -/
  | flitEccDrop (tile : Psn) (port lane : Nat)
  /-- R110: The actor reads LEN bytes at PA and replies by RMODE. -/
  | drdRequest (id : Nat)
  /-- R110: The actor writes up to 64 bytes, clearing or setting tags. -/
  | dwrRequest (id : Nat)
  /-- R110: The actor reads each gather element and delivers it. -/
  | dgathRequest (id : Nat)
  /-- R116: The actor takes a hold slot, opens a drop line and returns a handle or refusal. -/
  | rowopenRequest (id : Nat)
  /-- R117: The actor sets KEEP and renews the deadline, or refuses. -/
  | rowholdRequest (id : Nat)
  /-- R117: The actor frees the hold slot. -/
  | rowrelRequest (id : Nat)
  /-- R118: The actor reads bytes inside a line's row. -/
  | rowrdRequest (id : Nat)
  /-- R118: The actor writes bytes inside a line's row. -/
  | rowwrRequest (id : Nat)
  /-- R117: The actor reports the state of a line. -/
  | rowstatRequest (id : Nat)
  /-- R110: The actor replies once earlier requests from the requester are performed. -/
  | flushRequest (id : Nat)
  /-- R110: The actor's atomic unit performs one read-modify-write on the channel. -/
  | atomicRequest (id : Nat)
  /-- R110: A reserved code or broken limit is answered with STATUS 0x05. -/
  | reservedOpRequest (id : Nat)
  /-- R333: A reply on handle 29 writes the destination register that its tag names. -/
  | loadStoreReply (id : Nat)
  /-- R111: A DRAM direct write lands in requester LOCAL or STORE and then posts its counter. -/
  | directWriteArrival (id : Nat)
  /-- R120: At its deadline a hold slot is freed and a kept line's owner is notified. -/
  | rowLeaseExpiry (stack lchan slot : Nat)
  /-- R121: A bank refresh is followed by re-activation of its kept rows. -/
  | bankRefresh (stack lchan bank : Nat)
  /-- R125: A channel is copied to a spare and CHAN_MAP and hold slots are switched in one step. -/
  | channelMove (stack lchan spare : Nat) (retire : Bool)
  /-- R177: A fireable handler entry enters the run queue with ACTIVE set. -/
  | entryFire (core : Psn) (entry : Nat)
  /-- R182: A core with no resident activation starts the first run-queue entry as a message activation. -/
  | activationStart (core : Psn)
  /-- R190: A core starts a ready continuation record, claims it and restores its state. -/
  | continuationResume (core tile : Psn) (record : Nat)
  /-- R183: After RUNQ_AGE ticks a run-queue entry rises one level. -/
  | runqPromotion (core : Psn) (place : Nat)
  /-- R184: A system notification is written into h19 and q51 counts capacity changes. -/
  | notificationArrival (id : Nat)
  /-- R310: A counter post is added, saturating, and acknowledged if asked. -/
  | counterPostArrival (id : Nat)
  /-- R190: When every pair is reached the home tile sets READY and offers the record to eligible cores. -/
  | continuationReady (tile : Psn) (record : Nat)
  /-- R191: When a full record frees, a waiting faulted activation is saved, q52 incremented and its fault message sent. -/
  | faultedContinuationConvert (core : Psn)
  /-- R193: A named core finishes its activation and starts a member activation. -/
  | gangMemberJoin (core : Psn)
  /-- R194: A relayed instruction from the home tile is executed by an attached member. -/
  | gangRelay (core : Psn)
  /-- R209: An arriving ring tile runs the match rules, holds, misses, fires or passes. -/
  | ringTileArrival (id : Nat)
  /-- R205: A passing tile departs when the next member grants a credit. -/
  | ringTileForward (core : Psn) (slot : Nat)
  /-- R210: A queued firing adds the exact tile product into the accumulator and posts DONE. -/
  | ringFiring (core : Psn)
  /-- R211: Once a holding slot is reserved, the member sends a relight request to the injector. -/
  | relightRequestSend (core : Psn) (entry : Nat)
  /-- R213: The injector's home tile sends a relit copy, or cancels the operation if no record matches. -/
  | relightRequestServe (id : Nat)
  /-- R213: A relit copy fires the entries whose pair it completes, or waits in its slot. -/
  | relitCopyArrival (id : Nat)
  /-- R214: A member's seal count reaches the origin and updates SEALS and EXPECT. -/
  | ringSealPost (id : Nat)
  /-- R215: A firing post reaches the origin; at SEALS = N and DONE = EXPECT it sends completion. -/
  | ringDonePost (id : Nat)
  /-- R216: A member receiving completion increments q49, advances OPNUM and frees its state. -/
  | ringCompletion (id : Nat)
  /-- R217: Every member absorbs tiles, zeroes ring accumulators and rearms under the new OPNUM. -/
  | ringCancel (region ring reason : Nat)
  /-- R217: 10 ms after a lease request on a member with the operation open, the ring is cancelled with reason 0x01. -/
  | ringLeaseTimeout (region ring : Nat)
  /-- R218: Once the ring is formed and live again, members reseal and re-inject recorded tiles. -/
  | ringRerun (region ring : Nat)
  /-- R220: After RING_IDLE ticks without opposite arrivals, budgeted holds are released. -/
  | ringIdleRelease (core : Psn) (widdershins : Bool)
  /-- R343: The stream engine fetches input elements ahead of pops. -/
  | streamElementFetch (core : Psn) (slot : Nat)
  /-- R344: The stream engine writes a pushed vector's elements. -/
  | streamPushWrite (core : Psn) (slot : Nat)
  /-- R381: A diagnostic-mode matrix entry starts once its operands and dependences allow. -/
  | scoreboardEntryStart (core : Psn) (slot : Nat)
  /-- R322: The root's result of a reduction round is written to each leaf's gd. -/
  | credResult (id : Nat)
  /-- R322: A router combines a leaf contribution exactly; the root forms the result when all arrive. -/
  | credContribution (id : Nat)
  /-- R439: The Lantern answers a query word with the unit's answer word. -/
  | queryRequest (id : Nat)
  /-- R291: The answer word arrives and writes the pending gd. -/
  | queryAnswer (id : Nat)
  /-- R400: When every region has loaded, all entries are armed at one TSC and start activations are queued. -/
  | graphArming (graph : Nat)
  /-- R401: When nothing of the graph remains active, its context, names, quota and rings are released. -/
  | graphEnd (graph : Nat)
  /-- R402: A pending successor becomes resident once its predecessors allow. -/
  | successorResident (graph : Nat)
  /-- R402: Each core of an early successor arms when no predecessor actor is active there. -/
  | successorCoreArming (graph : Nat) (core : Psn)
  /-- R313: When a predecessor has ended and drained, the Lantern posts +1 to q50 on each successor core. -/
  | visibilityPost (graph predecessor : Nat)
  /-- R406: Every 4,096 ticks the governor samples stage occupancy and adds or removes one core. -/
  | governorSample (region : Nat)
  /-- R406: The SERVING bit clears once the held stage entry is no longer ACTIVE. -/
  | stageCoreRelease (tile : Psn) (stage : Nat)
  /-- R407: The tile pops an item, writes it to a serving core and queues its firing. -/
  | stageItemDelivery (tile : Psn) (stage : Nat)
  /-- R409: A GO write starts an actor move, holding the actor's entries at FROM. -/
  | moveReq (region : Nat) (value : Word)
  /-- R409: When FROM has drained, its state is copied to TO, the name moves and HOLD is restored. -/
  | moveCopy (region : Nat)
  /-- R410: The tombstone forwards earlier messages from S and sends the forward-end marker. -/
  | markerRequest (id : Nat)
  /-- R410: The marker releases TO's held direct arrivals from that source. -/
  | forwardEndMarker (id : Nat)
  /-- R416: A fault message lands in the service core's handle-30 inbox. -/
  | faultMessageArrival (id : Nat)
  /-- R416: A core receiving SNUFFNOTE increments q52 and may raise GANGLOST. -/
  | snuffnoteArrival (id : Nat)
  /-- R420: GRAPH_CTL OP 1 warns the graph's cores and schedules the halt. -/
  | graphPreempt (region : Nat) (value : Word)
  /-- R420: At the halt time the Lanterns send the halt on the control lane. -/
  | graphPreemptHalt (graph : Nat)
  /-- R420: A halted core saves its activation, drains, stops engines; rings cancel and lines park. -/
  | graphPreemptQuiesce (graph : Nat) (core : Psn)
  /-- R422: When quiesced, the Lanterns write the save area and STATE becomes parked. -/
  | contextSave (graph : Nat)
  /-- R423: GRAPH_CTL OP 2 restores units, lines, notifications, run queues, arms and re-runs rings. -/
  | graphResume (region : Nat) (value : Word)
  /-- R423: GRAPH_CTL OP 3 halts the graph, discards its records and releases its resources. -/
  | graphKill (region : Nat) (value : Word)
  /-- R424: A wick counter reaching zero snuffs the core with WICKMISS. -/
  | wickExpiry (core : Psn)
  /-- R424: A firmware W1C of SNUFFED unfences an idle core. -/
  | coreSnuffClear (core : Psn)
  /-- R425: After HANG_WINDOW ticks with no progress and a blocked port, the region halts, writes the map, reports and is reset. -/
  | hangFreeze (region : Nat)
  /-- R430: A GO write submits a firmware lease request and reports the result. -/
  | leaseReq (region : Nat) (value : Word)
  /-- R428: A MISMATCH write adds 1,024 to the selected unit's score. -/
  | scoreCtlMismatch (region : Nat)
  /-- R436: A RETIRE write starts retirement of the selected unit with reason 0x03. -/
  | scoreCtlRetire (region : Nat)
  /-- R428: When the TSC crosses a multiple of 2^30 every score is halved. -/
  | scoreHalving
  /-- R431: The sweep proposes a lease for an untested unit at most once per 2^20 ticks. -/
  | sweepProposal (region : Nat)
  /-- R431: 2^26 ticks without a reply schedule a proposed lease. -/
  | leaseAckTimeout (region entry : Nat)
  /-- R431: 2^30 ticks after a deferral the lease is proposed again. -/
  | leaseDeferExpiry (region entry : Nat)
  /-- R435: At START, if limits and conditions allow, evacuation of the unit begins. -/
  | leaseStart (region entry : Nat)
  /-- R431: When evacuation completes, the test patterns start. -/
  | leaseEvacuationDone (region entry : Nat)
  /-- R434: When patterns finish or DURATION runs out, the unit is restored or retired. -/
  | leaseTestingEnd (region entry : Nat)
  /-- R434: The unit returns as a spare or to service and the entry frees. -/
  | leaseRestoreDone (region entry : Nat)
  /-- R437: The monitor signs and archives the record and returns it to LOG. -/
  | retirementCountersigned (region entry : Nat)
  /-- R441: A write of RQ_CTL.TAIL makes the host-service core take requests, or resumes a parked module. -/
  | rqDoorbell (host : Nat) (value : BitVec 16)
  /-- R443: Copies module memory to companion memory in strong 64-byte pieces. -/
  | read (host : Nat)
  /-- R443: Copies companion memory into module memory, clearing tags. -/
  | write (host : Nat)
  /-- R444: Orders requests across quadrants by forwarding and collecting acknowledgements. -/
  | barrier (host : Nat)
  /-- R444: A forwarded barrier is acknowledged once earlier taken requests are complete. -/
  | barrierForward (id : Nat)
  /-- R395: Checks a launch header, verifies the image, assigns a context and loads the graph. -/
  | launch (host : Nat)
  /-- R443: Writes a GRAPH_CTL value through the Lanterns. -/
  | graph (host : Nat)
  /-- R447: Returns a signed quote over a nonce. -/
  | attest (host : Nat)
  /-- R448: Unwraps and loads a key pair into a key slot. -/
  | keyload (host : Nat)
  /-- R448: Zeroes a key slot not in use. -/
  | keyclr (host : Nat)
  /-- R403: Withdraws a pending graph. -/
  | cancel (host : Nat)
  /-- R445: A Roltos or Ethernet transfer lands and posts a store counter at the receiver. -/
  | remoteTransferComplete (place : Inbound) (data : List Byte) (tile : Psn) (counter : Nat)
  /-- R451: Each 1 ms window the monitor adjusts CAP for power and temperature. -/
  | powerWindow (watts : Nat) (hot : List (Nat × Nat × Int))
  /-- R453: Setting QUIESCE starts phase 1 of gating, or is refused and recorded. -/
  | pwrQuiesce (region cluster : Nat)
  /-- R454: When nothing is running or outstanding in the cluster, QUIESCED rises. -/
  | clusterQuiesced (region cluster : Nat)
  /-- R455: A RET_SAVE write starts writing the retention image. -/
  | retSave (region cluster : Nat)
  /-- R455: When the image is written, RET_DONE rises. -/
  | retentionSaveDone (region cluster : Nat)
  /-- R456: A write of WAKE starts waking a gated cluster. -/
  | pwrWake (region cluster : Nat)
  /-- R456: An arrival for a gated cluster is held and starts the wake. -/
  | clusterWakeArrival (id : Nat)
  /-- R456: After rails, clocks and restore, fields clear and held arrivals are delivered. -/
  | clusterWakeDone (region cluster : Nat)
  /-- R456: If RAIL_GOOD does not rise within 100,000 ticks, held arrivals bounce and a rail fault is recorded. -/
  | railGoodTimeout (region cluster : Nat)
  /-- R457: Power-on verifies firmware, restores training and maps and starts region firmware. -/
  | coldBoot
  /-- R459: A PARK write puts the module into park unless a graph is running. -/
  | park
  /-- R459: An UNPARK write resumes the module from park. -/
  | unpark
  /-- R460: Every hour the monitor writes the wear counters. -/
  | wearHourlyUpdate (celsius : List (Nat × Int))
  /-- R102: A parity error in any credit counter of a link lane makes the link stop, replay from RECEIVED and reset its credits. -/
  | creditCounterParityError (tile : Psn) (port lane : Nat)
  /-- R383: A matrix instruction finishes computing or writing, satisfies its token and, in a gang, posts +1 to q48 of every gang core. -/
  | matrixCompletion (core : Psn)
  /-- R393: The origin's RING_OP word arrives at a core whose RSTAT sel 1 is pending and is written to gd. -/
  | ringOpReply (id : Nat)
  /-- R441: A companion write of CQ_CTL.HEAD frees completion-ring room, so the host-service core takes waiting requests again. -/
  | cqCtlHeadWrite (host : Nat) (value : BitVec 16)
  /-- R436: When the 1,000,000-tick notice of a retirement runs out, the unit's evacuation under R435 begins. -/
  | retirementNoticeExpiry (region : Nat) (unit : BitVec 32)
  /-- R445: A firmware write through CTRL block 2 of region 0x7F starts a Roltos or Ethernet transfer between two modules' memories. -/
  | transferEngineStart (port : Nat) (pa : BitVec 48) (length peer : Nat) (remote : BitVec 48)
  /-- R428: A lease test pattern finishes, and a mismatch adds 4,096 to the unit's score. -/
  | testPatternResult (region entry : Nat) (mismatch : Bool) (syndrome : Word)
  deriving DecidableEq, Repr

end Sys2Proof
end

