-- ==== Sys2Proof/Machine/Shape.lean ====
section
/-! DEFINITION. The encodings of every instruction as tables of rows: which formats an operation number has, what class each
register field is of, and every check that raises ILLEGAL from the encoding alone (09 R224 to R243 step 2 and the
encoding tables of chapters 11 to 14). The decoder, the encoder and the issue stage read these rows. -/
namespace Sys2Proof.Machine
open Sys2Proof

/-- The use an instruction makes of a 6-bit field (R234): which class of register it names and whether it is
read, written or both; `zero` is an unused field and `raw` one that the row's own check covers. -/
inductive Field where
  | zero | raw
  | gSrc | gDst | gBoth
  | vSrc | vDst | vBoth
  | pSrc | pDst | pCond
  | cSrc | cDst
  | q | h | hIn | hOut | acc | chan | tok | slot | dramQ | dramS
  deriving DecidableEq, Repr

/-- A field value beyond its class raises ILLEGAL (R234); `dramQ` and `dramS` are the targets of R332. -/
def Field.ok (f : Field) (r : Reg) : Bool :=
  match f with
  | .zero => r == 0
  | .raw | .gSrc | .gDst | .gBoth | .pCond | .q | .dramQ => true
  | .vSrc | .vDst | .vBoth | .h => decide (r.toNat < 32)
  | .pSrc | .pDst | .chan | .tok => decide (r.toNat < 8)
  | .cSrc | .cDst | .dramS => decide (r.toNat < 16)
  | .hIn => decide (r.toNat < 20)
  | .hOut => decide (20 ≤ r.toNat ∧ r.toNat < 32)
  | .acc | .slot => decide (r.toNat < 4)

/-- The classes of the four register fields of one encoding. -/
structure Kinds where
  d : Field := .zero
  a : Field := .zero
  b : Field := .zero
  c : Field := .zero
  deriving DecidableEq, Repr

/-! Element type codes (R128). -/

abbrev TyCode := BitVec 4

def noType (_ : TyCode) : Bool := false
def isInt (t : TyCode) : Bool := decide (t.toNat < 8)
def isSigned (t : TyCode) : Bool := decide (t.toNat < 4)
def isUnsigned (t : TyCode) : Bool := decide (4 ≤ t.toNat ∧ t.toNat < 8)
def isFloat (t : TyCode) : Bool := decide (8 ≤ t.toNat ∧ t.toNat < 12)
def isFloatNarrow (t : TyCode) : Bool := decide (8 ≤ t.toNat ∧ t.toNat < 11)
def isScalar (t : TyCode) : Bool := decide (t.toNat < 12)
def isSignedOrFloat (t : TyCode) : Bool := isSigned t || isFloat t
/-- BSWAP takes no 8-bit type (R266). -/
def isIntWide (t : TyCode) : Bool := isInt t && t != 0 && t != 4
def isBfxType (t : TyCode) : Bool := t == 3 || t == 7
def isBfiType (t : TyCode) : Bool := t == 7
def isAtomicInt (t : TyCode) : Bool := t == 2 || t == 3 || t == 6 || t == 7
/-- VDOT takes no 64-bit integer type (R362). -/
def isDotType (t : TyCode) : Bool := isScalar t && t != 3 && t != 7

/-- The width in bits of a scalar element type (R128); 0 for the others. -/
def elemBits (t : TyCode) : Nat :=
  match t.toNat with
  | 0 | 4 => 8
  | 1 | 5 | 8 | 9 => 16
  | 2 | 6 | 10 => 32
  | 3 | 7 | 11 => 64
  | _ => 0

/-- The number of lanes of a vector register for a type (R336). -/
def lanes (t : TyCode) : Nat := if elemBits t = 0 then 0 else 512 / elemBits t

/-- The system registers of R292. -/
def isSysReg (r : Nat) : Bool :=
  r ≤ 6 || (8 ≤ r && r ≤ 0x0B) || (0x10 ≤ r && r ≤ 0x12) || (0x100 ≤ r && r ≤ 0x102)

/-- The bit-field immediate of BFX and BFI: pos + len may not pass 64 (R268). -/
def fieldOk (imm : BitVec 12) : Bool := decide (imm.toNat % 64 + imm.toNat / 64 + 1 ≤ 64)

/-- Condition codes (R267): 6 (un) is for float types only and 7 is reserved. -/
def condOk (t : TyCode) (d : Reg) : Bool :=
  let cond := d.toNat / 8
  cond < 6 || (cond == 6 && isFloat t)

end Sys2Proof.Machine

namespace Sys2Proof.Long
open Sys2Proof.Machine

/-! The fields of parcel 1 by their names (R228, R233, R236). TY and RM stand at the same place in MOD12 and MOD8. -/

def form (x : Long) : Nat := x.sub.toNat / 4
def var (x : Long) : Nat := x.sub.toNat % 4
def ty (x : Long) : TyCode := x.hi.extractLsb' 8 4
def rm (x : Long) : BitVec 2 := x.hi.extractLsb' 6 2
def sc (x : Long) : BitVec 3 := if x.wide then 0 else x.hi.extractLsb' 3 3
def sat (x : Long) : Bool := if x.wide then x.hi.getLsbD 5 else x.hi.getLsbD 2
def flg (x : Long) : BitVec 2 := if x.wide then (x.hi.extractLsb' 4 1).zeroExtend 2 else x.hi.extractLsb' 0 2
def mod8 (x : Long) : BitVec 8 := x.hi.extractLsb' 4 8
def hint (x : Long) : BitVec 4 := if x.wide then x.hi.extractLsb' 0 4 else 0
/-- The vector layout's PM and ZERO (R338) stand in the SUB bits. -/
def pm (x : Long) : Nat := x.sub.toNat % 8
def zero (x : Long) : Bool := x.sub.getLsbD 3

/-- In L96 of the system layout MOD8 must be zero (R271). -/
def wideImm (x : Long) : Bool := !x.wide || x.mod8 == 0
/-- The memory layout without flags (R239): MOD8 must be zero in L96. -/
def memDisp (x : Long) : Bool := !x.wide || x.mod8 == 0
/-- The counter reference of QPOST (R310). -/
def postRef (x : Long) : Nat := if x.wide then x.c.toNat + 64 * (x.sub.toNat % 2) else x.hi.toNat
/-- The count operand of HWAITF, HWAITE, HADVC and HADVP (R315). -/
def countForm (x : Long) : Bool :=
  if x.sub == 1 then x.hi == 0 else x.sub == 0 && 1 ≤ x.hi.toNat && x.hi.toNat ≤ 256
/-- The registers of a VLD or VST run (R349). -/
def runLength (x : Long) : Nat := x.c.toNat / 8 % 4 + 1
/-- The modifiers of CRED (R321). -/
def credOk (x : Long) : Bool :=
  let op := x.c.toNat % 8
  let rm := x.c.toNat / 8 % 4
  let sat := x.c.getLsbD 5
  (isAtomicInt x.sub || x.sub == 0xA) && op < 6 && x.hi.toNat < 16 &&
    (if x.sub == 0xA then op == 0 && !sat else rm == 0 && (!sat || op == 0))
/-- The target operand's class (R332): RMODE 00 a handle, 01 a counter, 10 a store counter. -/
def targetField (x : Long) : Field :=
  if x.sub == 0 then .hIn else if x.sub == 1 then .dramQ else .dramS

/-- A literal of a 16-bit float type has zero upper bits (R236). -/
def litOkFor (x : Long) (t : TyCode) : Bool := !(t == 8 || t == 9) || decide (x.lit.toNat < 0x10000)
def litOk (x : Long) : Bool := !x.wide || x.litOkFor x.ty
/-- With an 8-bit type a predicate names a pair and must be even (R337). -/
def pairOk (x : Long) (r : Reg) : Bool := elemBits x.ty != 8 || r.toNat % 2 == 0

/-- The modifier word of a typed instruction: its type, and SAT, RM, SC and FLG only where used (R233). -/
def modOk (x : Long) (types sats rounds : TyCode → Bool) (flg : Nat) : Bool :=
  types x.ty && (!x.sat || sats x.ty) && (x.rm == 0 || rounds x.ty) && x.sc == 0 && x.flg.toNat == flg

/-- The modifiers and predicate fields of the vector layout (R338); `pm` and `zero` say whether they are used. -/
def vecOk (x : Long) (types sats rounds : TyCode → Bool) (flg : Nat) (pm zero : Bool) : Bool :=
  x.modOk types sats rounds flg && (pm || x.pm == 0) && (zero || !x.zero) &&
    (elemBits x.ty != 8 || x.pm % 2 == 0)

/-- VCVT (R357): the source type and PART of field C. -/
def vcvtOk (x : Long) : Bool :=
  let s : TyCode := x.c.extractLsb' 0 4
  let part := x.c.toNat / 16
  let ld := lanes x.ty
  let ls := lanes s
  x.vecOk isScalar (fun t => isInt t && isInt s) (fun t => !(isInt t && isInt s)) 0 true true && isScalar s &&
    (if ls > ld then part < ls / ld else if ls < ld then part < ld / ls else part == 0)

/-- The group index range of VPACK and VUNPACK (R358): by type and block form. -/
def groupLimit (t : TyCode) (blk : Bool) : Nat :=
  match t.toNat, blk with
  | 12, false => 8 | 13, false => 5 | 14, false => 3
  | 12, true => 7 | 13, true => 5 | 14, true => 3 | 15, true => 7
  | _, _ => 0

def vpackOk (x : Long) : Bool :=
  let s : TyCode := x.c.extractLsb' 0 4
  let part := x.c.toNat / 16
  let blk := x.flg == 1
  x.sub == 0 && x.sc == 0 && x.flg.toNat < 2 && x.b.toNat < groupLimit x.ty blk &&
    (if x.ty == 0xF then blk && !x.sat
     else 12 ≤ x.ty.toNat && (isFloatNarrow s || s.toNat < 3) && part < lanes s / 16)

def vunpackOk (x : Long) : Bool :=
  let s : TyCode := x.c.extractLsb' 0 4
  let part := x.c.toNat / 16
  let blk := x.flg == 1
  x.sub == 0 && x.sc == 0 && x.flg.toNat < 2 && !x.sat && isScalar x.ty && elemBits x.ty < 64 &&
    12 ≤ s.toNat && x.b.toNat < groupLimit s blk && part < lanes x.ty / 16

/-- VRED and VSCAN (R360, R361): bitwise operations take integers only, SAT is for integer .add, RM for float .add. -/
def vredOk (x : Long) (scan : Bool) : Bool :=
  let op := x.c.toNat
  x.vecOk isScalar (fun t => isInt t && op == 0) (fun t => isFloat t && op == 0) 0 true scan &&
    op < 6 && (op < 3 || isInt x.ty)

/-- MREAD and MREADK (R376, R377): a scalar type, RM, and SAT for integer types only; SC and FLG zero. -/
def readoutOk (x : Long) : Bool := x.modOk isScalar isInt isScalar 0

/-! FORM 10 (R237): the flags and K fields of the literal. -/

def relD (x : Long) : Bool := x.lit.getLsbD 24
def relA (x : Long) : Bool := x.lit.getLsbD 25
def relB (x : Long) : Bool := x.lit.getLsbD 26
def relC (x : Long) : Bool := x.lit.getLsbD 27
def kD (x : Long) : BitVec 6 := x.lit.extractLsb' 0 6
def kA (x : Long) : BitVec 6 := x.lit.extractLsb' 6 6
def kB (x : Long) : BitVec 6 := x.lit.extractLsb' 12 6
def kC (x : Long) : BitVec 6 := x.lit.extractLsb' 18 6

/-- The relative literal is well formed: reserved bits zero, a flag only on a used g operand, a K field only under its flag. -/
def relOk (x : Long) (useD useA useB useC : Bool) : Bool :=
  x.lit.toNat / 2 ^ 28 == 0 &&
  (useD || !x.relD) && (useA || !x.relA) && (useB || !x.relB) && (useC || !x.relC) &&
  (x.relD || x.kD == 0) && (x.relA || x.kA == 0) && (x.relB || x.kB == 0) && (x.relC || x.kC == 0)

end Sys2Proof.Long

namespace Sys2Proof.Machine
open Sys2Proof

/-- One row of the L64 and L96 map (R241). `sel` tells apart rows of one operation number; `ok` is what the
row demands beyond the classes of its fields. -/
structure LRow where
  on : Nat
  l96 : Bool := false
  emit : Bool := false
  kinds : Long → Kinds
  ok : Long → Bool
  sel : Long → Bool := fun _ => true

/-- R243 step 2 for an L64 or L96 encoding of the row. -/
def LRow.legal (r : LRow) (x : Long) : Bool :=
  let k := r.kinds x
  r.sel x && (r.l96 || !x.wide) && (x.wide || x.lit == 0) && !(x.guard == 0 && x.ginv) && (r.emit || x.emit == 0) &&
    k.d.ok x.d && k.a.ok x.a && k.b.ok x.b && k.c.ok x.c && r.ok x

/-- One row of the L32A map. -/
structure ARow where
  on : Nat
  d : Field
  a : Field
  b : Field
  ok : ShortA → Bool

def ARow.legal (r : ARow) (x : ShortA) : Bool := r.d.ok x.d && r.a.ok x.a && r.b.ok x.b && r.ok x

/-- One row of the short-opcode map (R226). -/
structure BRow where
  sop : Nat
  d : Field
  a : Field
  ok : ShortB → Bool

def BRow.legal (r : BRow) (x : ShortB) : Bool := r.d.ok x.d && r.a.ok x.a && r.ok x

/-! The standard operand layout (R236). A second source is a register, an immediate or relative. -/

def anyType (_ : TyCode) : Bool := true

/-- L64 FORM 01 (R236): the type in C bits 3:0, RM in C bits 5:4, B zero; integer types only. -/
def immForm (x : Long) (types : TyCode → Bool) : Bool :=
  let t : TyCode := x.c.extractLsb' 0 4
  types t && isInt t && x.c.toNat < 16

/-- The register classes of a standard instruction by FORM; `src` is its number of sources. -/
def stdKinds (src : Nat) (dst : Field) (x : Long) : Kinds :=
  let rel := x.wide && x.form == 2
  { d := if rel && x.relD then .gSrc else dst
    a := .gSrc
    b := if src < 2 || x.form == 1 then .zero else .gSrc
    c := if src == 3 then .gSrc else if !x.wide && x.form == 1 then .raw else .zero }

/-- The FORMs of a standard instruction of `src` sources with the given types. -/
def stdOk (src : Nat) (relDst : Bool) (types sats rounds : TyCode → Bool) (x : Long) : Bool :=
  x.var == 0 &&
  (if x.wide then
    if x.form == 1 then 2 ≤ src && x.modOk types sats rounds 0 && x.litOkFor x.ty
    else x.form == 2 && x.modOk types sats rounds 0 && x.relOk relDst true (2 ≤ src) (src == 3)
   else if x.form == 0 then x.modOk types sats rounds 0
   else x.form == 1 && src == 2 && immForm x types)

def std2 (on : Nat) (types sats : TyCode → Bool) (rounds : Bool) : LRow :=
  { on, l96 := true, kinds := stdKinds 2 .gDst, ok := stdOk 2 true types sats (fun _ => rounds) }
def std1 (on : Nat) (types sats : TyCode → Bool) (rounds : Bool) : LRow :=
  { on, l96 := true, kinds := stdKinds 1 .gDst, ok := stdOk 1 true types sats (fun _ => rounds) }
def std3 (on : Nat) : LRow :=
  { on, l96 := true, kinds := stdKinds 3 .gDst, ok := stdOk 3 true isFloat noType anyType }
/-- A shift immediate lies in 0 to 63 (R266). -/
def stdShift (on : Nat) (sats : TyCode → Bool) : LRow :=
  { on, l96 := true, kinds := stdKinds 2 .gDst,
    ok := fun x => stdOk 2 true isInt sats noType x && (x.form != 1 || if x.wide then x.lit.toNat < 64 else x.hi.toNat < 64) }
/-- BFX and BFI (R268): an immediate holds pos and len − 1; BFI reads its destination. -/
def stdField (on : Nat) (types : TyCode → Bool) (both : Bool) : LRow :=
  { on, l96 := true, kinds := stdKinds 2 (if both then .gBoth else .gDst),
    ok := fun x => stdOk 2 true types noType noType x &&
      (x.form != 1 || if x.wide then x.lit.toNat < 4096 && fieldOk (x.lit.extractLsb' 0 12) else fieldOk x.hi) }
/-- SEL (R267): untyped, C names a predicate. -/
def stdSel (on : Nat) : LRow :=
  { on, l96 := true,
    kinds := fun x => { stdKinds 2 .gDst x with c := .pSrc },
    ok := fun x => x.var == 0 &&
      (if x.wide then x.mod8 == 0 && (x.form == 1 || x.form == 2 && x.relOk true true true false)
       else x.form == 0 && x.hi == 0) }
/-- CMP and FCMP (R267): D holds a predicate and a condition. -/
def stdCmp (on : Nat) (types : TyCode → Bool) : LRow :=
  { on, l96 := true, kinds := stdKinds 2 .pCond,
    ok := fun x => stdOk 2 false types noType noType x &&
      condOk (if !x.wide && x.form == 1 then x.c.extractLsb' 0 4 else x.ty) x.d }
/-- MOV (R267): untyped, FORM 00 of L64 and FORM 10 of L96. -/
def stdMov (on : Nat) : LRow :=
  { on, l96 := true, kinds := stdKinds 1 .gDst,
    ok := fun x => x.var == 0 &&
      (if x.wide then x.mod8 == 0 && x.form == 2 && x.relOk true true false false else x.form == 0 && x.hi == 0) }
/-- LI (R267): FORM 01 only. -/
def stdLi (on : Nat) : LRow :=
  { on, l96 := true,
    kinds := fun x => { d := .gDst, c := if x.wide then .zero else .raw },
    ok := fun x => x.var == 0 && x.form == 1 &&
      (if x.wide then x.modOk isScalar noType noType 0 && x.litOkFor x.ty else immForm x isInt) }
/-- LIH (R267): untyped, FORM 00 and 01 of L64 and FORM 01 and 10 of L96 (R240). -/
def stdLih (on : Nat) : LRow :=
  { on, l96 := true, kinds := fun x => { stdKinds 2 .gDst x with c := .zero },
    ok := fun x => x.var == 0 &&
      (if x.wide then x.mod8 == 0 && (x.form == 1 || x.form == 2 && x.relOk true true true false)
       else x.form == 1 || x.form == 0 && x.hi == 0) }
/-- FCVT, FCVTI and ICVTF (R269): the source type in C bits 3:0; FORM 00 of L64 and FORM 10 of L96. -/
def stdCvt (on : Nat) (types source : TyCode → Bool) : LRow :=
  { on, l96 := true,
    kinds := fun x => { stdKinds 1 .gDst x with c := .raw },
    ok := fun x => stdOk 1 true types noType anyType x && x.c.toNat < 16 && source (x.c.extractLsb' 0 4) }

namespace Shape

def add : LRow := std2 0x001 isInt isInt false
def addc : LRow := std2 0x002 isInt noType false
def sub : LRow := std2 0x003 isInt isInt false
def subb : LRow := std2 0x004 isInt noType false
def mul : LRow := std2 0x005 isInt isInt false
def mulh : LRow := std2 0x006 isSigned noType false
def mulhn : LRow := std2 0x007 isUnsigned noType false
def div : LRow := std2 0x008 isSigned noType false
def divn : LRow := std2 0x009 isUnsigned noType false
def rem : LRow := std2 0x00A isSigned noType false
def remn : LRow := std2 0x00B isUnsigned noType false
def and : LRow := std2 0x010 isInt noType false
def andn : LRow := std2 0x011 isInt noType false
def or : LRow := std2 0x012 isInt noType false
def xor : LRow := std2 0x013 isInt noType false
def shl : LRow := stdShift 0x014 isInt
def shr : LRow := stdShift 0x015 noType
def sha : LRow := stdShift 0x016 noType
def rol : LRow := stdShift 0x017 noType
def rotr : LRow := stdShift 0x018 noType
def clz : LRow := std1 0x019 isInt noType false
def ctz : LRow := std1 0x01A isInt noType false
def popc : LRow := std1 0x01B isInt noType false
def brev : LRow := std1 0x01C isInt noType false
def bswap : LRow := std1 0x01D isIntWide noType false
def min : LRow := std2 0x020 isSigned noType false
def max : LRow := std2 0x021 isSigned noType false
def minn : LRow := std2 0x022 isUnsigned noType false
def maxn : LRow := std2 0x023 isUnsigned noType false
def abs : LRow := std1 0x024 isSigned isSigned false
def bfx : LRow := stdField 0x028 isBfxType false
def bfi : LRow := stdField 0x029 isBfiType true
def sel : LRow := stdSel 0x02A
def cmp : LRow := stdCmp 0x02B isInt
def mov : LRow := stdMov 0x030
def li : LRow := stdLi 0x031
def lih : LRow := stdLih 0x032
def fadd : LRow := std2 0x040 isFloat noType true
def fsub : LRow := std2 0x041 isFloat noType true
def fmul : LRow := std2 0x042 isFloat noType true
def ffma : LRow := std3 0x043
def ffms : LRow := std3 0x044
def fdiv : LRow := std2 0x045 isFloat noType true
def fsqrt : LRow := std1 0x046 isFloat noType true
def fmin : LRow := std2 0x048 isFloat noType false
def fmax : LRow := std2 0x049 isFloat noType false
def fabs : LRow := std1 0x04A isFloat noType false
def fneg : LRow := std1 0x04B isFloat noType false
def fcpys : LRow := std2 0x04C isFloat noType false
def fcmp : LRow := stdCmp 0x050 isFloat
def fclass : LRow := std1 0x051 isFloat noType false
def fcvt : LRow := stdCvt 0x058 isFloat isFloat
def fcvti : LRow := stdCvt 0x059 isInt isFloat
def icvtf : LRow := stdCvt 0x05A isFloat isInt
def frnd : LRow := std1 0x05B isFloat noType true
def br : LRow := { on := 0x060, l96 := true, emit := false, kinds := fun _ => { a := .pSrc }, ok := fun x => x.sub.toNat < 2 && x.wideImm && !(x.a == 0 && x.sub == 1) }
def jmp : LRow := { on := 0x061, l96 := true, emit := false, kinds := fun _ => { }, ok := fun x => x.sub == 0 && x.wideImm }
def jmpi : LRow := { on := 0x062, l96 := false, emit := false, kinds := fun _ => { a := .gSrc }, ok := fun x => x.sub == 0 && x.hi == 0 }
def call : LRow := { on := 0x063, l96 := true, emit := false, kinds := fun _ => { d := .gDst }, ok := fun x => x.sub == 0 && x.wideImm }
def calli : LRow := { on := 0x064, l96 := false, emit := false, kinds := fun _ => { d := .gDst, a := .gSrc }, ok := fun x => x.sub == 0 && x.hi == 0 }
def ret : LRow := { on := 0x065, l96 := false, emit := false, kinds := fun _ => { a := .gSrc }, ok := fun x => x.sub == 0 && x.hi == 0 }
def loops : LRow := { on := 0x068, l96 := true, emit := false, kinds := fun _ => { d := .gBoth }, ok := fun x => x.sub == 0 && x.wideImm }
def endI : LRow := { on := 0x069, l96 := false, emit := false, kinds := fun _ => { }, ok := fun x => x.sub == 0 && x.hi == 0 }
def gang : LRow := { on := 0x070, l96 := false, emit := false, kinds := fun _ => { d := .gDst }, ok := fun x => x.sub == 0 && x.hi.toNat < 16 && x.hi != 15 }
def ungang : LRow := { on := 0x071, l96 := false, emit := false, kinds := fun _ => { d := .gDst }, ok := fun x => x.sub == 0 && x.hi == 0 }
def rejoin : LRow := { on := 0x072, l96 := false, emit := false, kinds := fun _ => { }, ok := fun x => x.sub == 0 }
def nop : LRow := { on := 0x073, l96 := false, emit := false, kinds := fun _ => { }, ok := fun x => x.sub == 0 && x.hi == 0 }
def pand : LRow := { on := 0x078, l96 := false, emit := false, kinds := fun _ => { d := .pDst, a := .pSrc, b := .pSrc }, ok := fun x => x.sub.toNat < 4 && x.hi == 0 }
def por : LRow := { on := 0x079, l96 := false, emit := false, kinds := fun _ => { d := .pDst, a := .pSrc, b := .pSrc }, ok := fun x => x.sub.toNat < 4 && x.hi == 0 }
def pxor : LRow := { on := 0x07A, l96 := false, emit := false, kinds := fun _ => { d := .pDst, a := .pSrc, b := .pSrc }, ok := fun x => x.sub.toNat < 4 && x.hi == 0 }
def pnot : LRow := { on := 0x07B, l96 := false, emit := false, kinds := fun _ => { d := .pDst, a := .pSrc }, ok := fun x => x.sub == 0 && x.hi == 0 }
def pmov : LRow := { on := 0x07C, l96 := false, emit := false, kinds := fun _ => { d := .pDst, a := .pSrc }, ok := fun x => x.hi == 0, sel := fun x => x.sub == 0 }
def pmovFromG : LRow := { on := 0x07C, l96 := false, emit := false, kinds := fun _ => { d := .pDst, a := .gSrc }, ok := fun x => x.hi == 0, sel := fun x => x.sub == 1 }
def pmovToG : LRow := { on := 0x07C, l96 := false, emit := false, kinds := fun _ => { d := .gDst, a := .pSrc }, ok := fun x => x.hi == 0, sel := fun x => x.sub == 2 }
def pcnt : LRow := { on := 0x07D, l96 := false, emit := false, kinds := fun _ => { d := .gDst, a := .pSrc }, ok := fun x => x.sub == 0 && x.hi == 0 }
def qinc : LRow := { on := 0x080, l96 := false, emit := false, kinds := fun _ => { d := .q }, ok := fun x => x.sub == 0 && x.hi == 0 }
def qadd : LRow := { on := 0x081, l96 := true, emit := false, kinds := fun x => { d := .q, b := if x.sub == 1 then .gSrc else .zero }, ok := fun x => if x.wide then x.sub == 0 && x.mod8 == 0 && x.lit != 0 else if x.sub == 1 then x.hi == 0 else x.sub == 0 && 1 ≤ x.hi.toNat && x.hi.toNat ≤ 2047 }
def qrd : LRow := { on := 0x082, l96 := false, emit := false, kinds := fun _ => { d := .gDst }, ok := fun x => x.sub == 0 && x.hi.toNat < 80 }
def qpost : LRow := { on := 0x083, l96 := true, emit := true, kinds := fun x => { a := .gSrc, b := if x.wide then .zero else .gSrc, c := if x.wide then .raw else .zero }, ok := fun x => if x.wide then x.sub.toNat < 2 && x.mod8 == 0 && x.postRef < 80 else x.sub == 0 && x.hi.toNat < 80 }
def waitq : LRow := { on := 0x088, l96 := false, emit := false, kinds := fun x => { a := if x.sub == 1 then .gSrc else .zero, b := if x.sub == 1 then .zero else .gSrc, c := .gSrc }, ok := fun x => if x.sub == 1 then x.hi == 0 else x.sub == 0 && x.hi.toNat < 80 }
def waitb : LRow := { on := 0x089, l96 := false, emit := false, kinds := fun _ => { }, ok := fun x => x.sub == 0 && x.hi.toNat ≤ 16 }
def waitvis : LRow := { on := 0x08A, l96 := false, emit := false, kinds := fun _ => { }, ok := fun x => x.sub == 0 }
def succhint : LRow := { on := 0x08B, l96 := false, emit := false, kinds := fun _ => { }, ok := fun x => x.sub == 0 && x.hi == 0 }
def hwaitf : LRow := { on := 0x090, l96 := false, emit := false, kinds := fun x => { d := .pDst, a := .h, b := if x.sub == 1 then .gSrc else .zero }, ok := fun x => x.countForm }
def hwaite : LRow := { on := 0x091, l96 := false, emit := false, kinds := fun x => { a := .h, b := if x.sub == 1 then .gSrc else .zero }, ok := fun x => x.countForm }
def hld : LRow := { on := 0x092, l96 := false, emit := false, kinds := fun _ => { d := .gDst, a := .h, b := .gSrc }, ok := fun x => isScalar x.sub && x.hi.toNat < 256 }
def hst : LRow := { on := 0x093, l96 := false, emit := false, kinds := fun _ => { d := .gSrc, a := .h, b := .gSrc }, ok := fun x => isScalar x.sub && x.hi.toNat < 256 }
def hadvc : LRow := { on := 0x094, l96 := false, emit := false, kinds := fun x => { a := .h, b := if x.sub == 1 then .gSrc else .zero }, ok := fun x => x.countForm }
def hadvp : LRow := { on := 0x095, l96 := false, emit := false, kinds := fun x => { a := .h, b := if x.sub == 1 then .gSrc else .zero }, ok := fun x => x.countForm }
def heos : LRow := { on := 0x096, l96 := false, emit := false, kinds := fun _ => { a := .h }, ok := fun x => x.sub == 0 && x.hi == 0 }
def hstat : LRow := { on := 0x097, l96 := false, emit := false, kinds := fun _ => { d := .gDst, a := .h }, ok := fun x => x.sub == 0 && x.hi == 0 }
def send : LRow := { on := 0x098, l96 := false, emit := false, kinds := fun _ => { a := .h, b := .cSrc, c := .gSrc }, ok := fun x => x.sub == 0 }
def sendq : LRow := { on := 0x099, l96 := false, emit := false, kinds := fun _ => { a := .h, b := .vSrc }, ok := fun x => x.sub == 0 && x.hi == 0 }
def cred : LRow := { on := 0x09A, l96 := false, emit := false, kinds := fun _ => { d := .gDst, a := .gSrc, c := .raw }, ok := fun x => x.credOk }
def cderive : LRow := { on := 0x0A0, l96 := true, emit := false, kinds := fun x => { d := .cDst, a := .cSrc, b := .gSrc, c := if x.wide then .zero else .gSrc }, ok := fun x => x.sub == 0 && if x.wide then x.mod8 == 0 else x.hi == 0 }
def cperm : LRow := { on := 0x0A1, l96 := false, emit := false, kinds := fun _ => { d := .cDst, a := .cSrc }, ok := fun x => x.sub == 0 && x.hi.toNat < 128 }
def cseal : LRow := { on := 0x0A2, l96 := false, emit := false, kinds := fun _ => { d := .cDst, a := .cSrc, b := .cSrc }, ok := fun x => x.sub == 0 && x.hi == 0 }
def cunseal : LRow := { on := 0x0A3, l96 := false, emit := false, kinds := fun _ => { d := .cDst, a := .cSrc, b := .cSrc }, ok := fun x => x.sub == 0 && x.hi == 0 }
def cbase : LRow := { on := 0x0A8, l96 := false, emit := false, kinds := fun _ => { d := .gDst, a := .cSrc }, ok := fun x => x.sub == 0 && x.hi == 0 }
def clen : LRow := { on := 0x0A9, l96 := false, emit := false, kinds := fun _ => { d := .gDst, a := .cSrc }, ok := fun x => x.sub == 0 && x.hi == 0 }
def cperms : LRow := { on := 0x0AA, l96 := false, emit := false, kinds := fun _ => { d := .gDst, a := .cSrc }, ok := fun x => x.sub == 0 && x.hi == 0 }
def ctype : LRow := { on := 0x0AB, l96 := false, emit := false, kinds := fun _ => { d := .gDst, a := .cSrc }, ok := fun x => x.sub == 0 && x.hi == 0 }
def ctag : LRow := { on := 0x0AC, l96 := false, emit := false, kinds := fun _ => { d := .gDst, a := .cSrc }, ok := fun x => x.sub == 0 && x.hi == 0 }
def cclr : LRow := { on := 0x0B0, l96 := false, emit := false, kinds := fun _ => { d := .cDst }, ok := fun x => x.sub == 0 && x.hi == 0 }
def cmov : LRow := { on := 0x0B1, l96 := false, emit := false, kinds := fun _ => { d := .cDst, a := .cSrc }, ok := fun x => x.sub == 0 && x.hi == 0 }
def cldc : LRow := { on := 0x0B2, l96 := true, emit := true, kinds := fun _ => { d := .cDst, a := .cSrc, b := .gSrc }, ok := fun x => x.sub == 0 && x.memDisp }
def cstc : LRow := { on := 0x0B3, l96 := true, emit := true, kinds := fun _ => { d := .cSrc, a := .cSrc, b := .gSrc }, ok := fun x => x.sub == 0 && x.memDisp }
def cchk : LRow := { on := 0x0B4, l96 := false, emit := false, kinds := fun _ => { d := .gDst, a := .cSrc, b := .gSrc }, ok := fun x => x.sub.toNat < 6 && x.hi.toNat < 128 }
def trap : LRow := { on := 0x0C0, l96 := false, emit := false, kinds := fun _ => { }, ok := fun x => x.sub == 0 }
def wick : LRow := { on := 0x0C1, l96 := false, emit := false, kinds := fun _ => { }, ok := fun x => x.sub == 0 && x.hi == 0 }
def wid : LRow := { on := 0x0C2, l96 := false, emit := false, kinds := fun _ => { d := .gDst }, ok := fun x => x.sub == 0 && x.hi.toNat < 6 }
def who : LRow := { on := 0x0C3, l96 := false, emit := false, kinds := fun _ => { d := .gDst }, ok := fun x => x.sub == 0 && x.hi.toNat < 8 }
def query : LRow := { on := 0x0C4, l96 := false, emit := false, kinds := fun _ => { d := .gDst, a := .gSrc }, ok := fun x => x.sub == 0 && x.hi == 0 }
def time : LRow := { on := 0x0C5, l96 := false, emit := false, kinds := fun _ => { d := .gDst }, ok := fun x => x.hi == 0, sel := fun x => x.sub == 0 }
def timeEnergy : LRow := { on := 0x0C5, l96 := false, emit := false, kinds := fun _ => { d := .gDst }, ok := fun x => x.hi == 0, sel := fun x => x.sub == 1 }
def sysrd : LRow := { on := 0x0C8, l96 := false, emit := false, kinds := fun _ => { d := .gDst }, ok := fun x => x.sub == 0 && isSysReg x.hi.toNat }
def syswr : LRow := { on := 0x0C9, l96 := false, emit := false, kinds := fun _ => { a := .gSrc }, ok := fun x => x.sub == 0 && isSysReg x.hi.toNat }
def yield : LRow := { on := 0x0CA, l96 := false, emit := false, kinds := fun _ => { a := .gSrc }, ok := fun x => x.sub == 0 && x.hi == 0 }
def gate : LRow := { on := 0x0D0, l96 := false, emit := false, kinds := fun _ => { d := .pDst, a := .gSrc }, ok := fun x => x.sub == 0 && x.hi == 0 }
def snuff : LRow := { on := 0x0D1, l96 := false, emit := false, kinds := fun _ => { d := .pDst, a := .gSrc }, ok := fun x => x.sub == 0 && x.hi == 0 }
def nameset : LRow := { on := 0x0D2, l96 := false, emit := false, kinds := fun _ => { d := .pDst, a := .gSrc, b := .gSrc }, ok := fun x => x.sub == 0 && x.hi == 0 }
def leaseack : LRow := { on := 0x0D3, l96 := false, emit := false, kinds := fun _ => { d := .gDst, a := .gSrc, b := .gSrc }, ok := fun x => x.sub == 0 && x.hi == 0 }
def fresume : LRow := { on := 0x0D4, l96 := false, emit := false, kinds := fun _ => { d := .pDst, a := .gSrc }, ok := fun x => x.hi == 0, sel := fun x => x.sub == 0 }
def fresumeValue : LRow := { on := 0x0D4, l96 := false, emit := false, kinds := fun _ => { d := .pDst, a := .gSrc, b := .vSrc }, ok := fun x => x.hi == 0, sel := fun x => x.sub == 1 }
def fkill : LRow := { on := 0x0D5, l96 := false, emit := false, kinds := fun _ => { d := .pDst, a := .gSrc }, ok := fun x => x.sub == 0 && x.hi == 0 }
def ld : LRow := { on := 0x100, l96 := true, emit := true, kinds := fun _ => { d := .gDst, a := .cSrc, b := .gSrc }, ok := fun x => isScalar x.sub && x.memDisp }
def st : LRow := { on := 0x101, l96 := true, emit := true, kinds := fun _ => { d := .gSrc, a := .cSrc, b := .gSrc }, ok := fun x => isScalar x.sub && x.memDisp }
def lda : LRow := { on := 0x102, l96 := true, emit := true, kinds := fun _ => { d := .gDst, a := .cSrc, b := .gSrc, c := .raw }, ok := fun x => isScalar x.sub && x.c.toNat < 5 && x.memDisp }
def stl : LRow := { on := 0x103, l96 := true, emit := true, kinds := fun _ => { d := .gSrc, a := .cSrc, b := .gSrc, c := .raw }, ok := fun x => isScalar x.sub && x.c.toNat < 5 && x.memDisp }
def pf : LRow := { on := 0x104, l96 := true, emit := true, kinds := fun _ => { a := .cSrc, b := .gSrc, c := .raw }, ok := fun x => x.sub == 0 && (x.c == 0 || x.c == 8) && x.memDisp }
def aadd : LRow := { on := 0x108, l96 := true, emit := true, kinds := fun _ => { d := .gBoth, a := .cSrc, b := .gSrc }, ok := fun x => isAtomicInt x.sub && x.memDisp }
def amin : LRow := { on := 0x109, l96 := true, emit := true, kinds := fun _ => { d := .gBoth, a := .cSrc, b := .gSrc }, ok := fun x => isAtomicInt x.sub && x.memDisp }
def amax : LRow := { on := 0x10a, l96 := true, emit := true, kinds := fun _ => { d := .gBoth, a := .cSrc, b := .gSrc }, ok := fun x => isAtomicInt x.sub && x.memDisp }
def aand : LRow := { on := 0x10b, l96 := true, emit := true, kinds := fun _ => { d := .gBoth, a := .cSrc, b := .gSrc }, ok := fun x => isAtomicInt x.sub && x.memDisp }
def aor : LRow := { on := 0x10c, l96 := true, emit := true, kinds := fun _ => { d := .gBoth, a := .cSrc, b := .gSrc }, ok := fun x => isAtomicInt x.sub && x.memDisp }
def axor : LRow := { on := 0x10d, l96 := true, emit := true, kinds := fun _ => { d := .gBoth, a := .cSrc, b := .gSrc }, ok := fun x => isAtomicInt x.sub && x.memDisp }
def aswp : LRow := { on := 0x10e, l96 := true, emit := true, kinds := fun _ => { d := .gBoth, a := .cSrc, b := .gSrc }, ok := fun x => isAtomicInt x.sub && x.memDisp }
def acas : LRow := { on := 0x10F, l96 := true, emit := true, kinds := fun _ => { d := .gBoth, a := .cSrc, b := .gSrc }, ok := fun x => isAtomicInt x.sub && x.d != 63 && x.memDisp }
def aaddf : LRow := { on := 0x110, l96 := true, emit := true, kinds := fun _ => { d := .gBoth, a := .cSrc, b := .gSrc }, ok := fun x => (x.sub == 0xA || x.sub == 0xB) && (!x.wide || x.mod8 &&& 0xF3 == 0) }
def fence : LRow := { on := 0x120, l96 := false, emit := true, kinds := fun _ => { c := .raw }, ok := fun x => x.sub == 0 && x.hi == 0 && x.c.toNat < 5 }
def ojoin : LRow := { on := 0x121, l96 := false, emit := false, kinds := fun _ => { d := .tok, a := .tok, b := .tok }, ok := fun x => x.sub == 0 && x.hi == 0 && x.d != 0 }
def cpy : LRow := { on := 0x140, l96 := true, emit := true, kinds := fun x => { d := .chan, a := .cSrc, b := .cSrc, c := if x.wide then .zero else .gSrc }, ok := fun x => if x.wide then x.mod8.toNat < 2 else x.hi.toNat < 2, sel := fun x => x.sub == 0 }
def cpyHandle : LRow := { on := 0x140, l96 := true, emit := true, kinds := fun x => { d := .chan, a := .hOut, b := .cSrc, c := if x.wide then .zero else .gSrc }, ok := fun x => if x.wide then x.mod8.toNat < 2 else x.hi.toNat < 2, sel := fun x => x.sub == 1 }
def cpy4 : LRow := { on := 0x141, l96 := false, emit := true, kinds := fun _ => { d := .chan, a := .cSrc, b := .cSrc, c := .gSrc }, ok := fun x => x.sub.toNat < 2 && x.hi == 0 }
def cpyg : LRow := { on := 0x142, l96 := false, emit := true, kinds := fun _ => { d := .chan, a := .cSrc, b := .cSrc, c := .gSrc }, ok := fun x => x.sub == 0 && x.hi.toNat % 8 != 7 }
def batch : LRow := { on := 0x143, l96 := false, emit := false, kinds := fun _ => { }, ok := fun x => x.sub == 0 && x.hi == 0 }
def stcfg : LRow := { on := 0x148, l96 := false, emit := false, kinds := fun _ => { a := .cSrc, b := .gSrc, c := .gSrc }, ok := fun x => x.sub == 0 && x.hi == 0 }
def sbufw : LRow := { on := 0x149, l96 := false, emit := false, kinds := fun _ => { a := .cSrc, b := .gSrc }, ok := fun x => x.sub == 0 && x.hi.toNat < 2 }
def sbufset : LRow := { on := 0x14A, l96 := false, emit := false, kinds := fun _ => { a := .cSrc, b := .gSrc }, ok := fun x => x.sub == 0 && x.hi.toNat < 2 }
def splice : LRow := { on := 0x150, l96 := false, emit := false, kinds := fun _ => { d := .gDst, a := .gSrc, b := .gSrc }, ok := fun x => x.sub == 0 && x.hi.toNat < 32 }
def drd : LRow := { on := 0x160, l96 := false, emit := true, kinds := fun x => { d := x.targetField, a := .cSrc, b := .gSrc, c := if x.sub == 0 then .zero else .cSrc }, ok := fun x => x.sub.toNat < 3 && x.hi.toNat < 1024 }
def dwr : LRow := { on := 0x161, l96 := false, emit := true, kinds := fun _ => { a := .cSrc, b := .gSrc, c := .vSrc }, ok := fun x => x.sub == 0 && x.hi.toNat < 64 }
def dgath : LRow := { on := 0x162, l96 := false, emit := true, kinds := fun x => { d := x.targetField, a := .cSrc, b := .gSrc, c := .cSrc }, ok := fun x => (x.sub == 1 || x.sub == 2) && x.hi.toNat < 1024 }
def flush : LRow := { on := 0x163, l96 := false, emit := true, kinds := fun _ => { }, ok := fun x => x.sub == 0 && x.hi.toNat < 32 }
def rowopen : LRow := { on := 0x168, l96 := false, emit := true, kinds := fun _ => { d := .gDst, a := .cSrc, b := .gSrc }, ok := fun x => x.sub == 0 && x.hi == 0 }
def rowhold : LRow := { on := 0x169, l96 := false, emit := true, kinds := fun _ => { d := .gDst, a := .gSrc }, ok := fun x => x.sub == 0 && x.hi == 0 }
def rowrel : LRow := { on := 0x16A, l96 := false, emit := true, kinds := fun _ => { a := .gSrc }, ok := fun x => x.sub == 0 && x.hi == 0 }
def rowrd : LRow := { on := 0x16B, l96 := false, emit := true, kinds := fun x => { d := x.targetField, a := .gSrc, b := .gSrc, c := if x.sub == 0 then .zero else .cSrc }, ok := fun x => x.sub.toNat < 3 && x.hi.toNat < 1024 }
def rowrdv : LRow := { on := 0x16C, l96 := false, emit := true, kinds := fun _ => { d := .vDst, a := .gSrc, b := .gSrc }, ok := fun x => x.sub == 0 && x.hi == 0 }
def rowwr : LRow := { on := 0x16D, l96 := false, emit := true, kinds := fun _ => { a := .gSrc, b := .gSrc, c := .vSrc }, ok := fun x => x.sub == 0 && x.hi.toNat < 64 }
def rowstat : LRow := { on := 0x16E, l96 := false, emit := true, kinds := fun _ => { d := .gDst, a := .gSrc }, ok := fun x => x.sub == 0 && x.hi == 0 }
def sbind : LRow := { on := 0x180, l96 := false, emit := true, kinds := fun _ => { d := .slot, b := .cSrc }, ok := fun x => x.sub == 0 && x.hi == 0 }
def sunbind : LRow := { on := 0x181, l96 := false, emit := true, kinds := fun _ => { d := .slot }, ok := fun x => x.sub == 0 && x.hi == 0 }
def scfg : LRow := { on := 0x182, l96 := false, emit := false, kinds := fun _ => { d := .slot, a := .gSrc }, ok := fun x => x.sub == 0 && x.hi == 0 }
def spredAttach : LRow := { on := 0x183, l96 := false, emit := false, kinds := fun _ => { d := .slot, a := .cSrc, b := .gSrc }, ok := fun x => x.hi == 0, sel := fun x => x.sub == 0 }
def spredRead : LRow := { on := 0x183, l96 := false, emit := false, kinds := fun _ => { d := .pDst, a := .slot }, ok := fun x => x.hi == 0, sel := fun x => x.sub == 8 }
def spos : LRow := { on := 0x184, l96 := false, emit := false, kinds := fun _ => { d := .gDst, a := .slot }, ok := fun x => x.sub == 0 && x.hi == 0 }
def vld : LRow := { on := 0x188, l96 := true, emit := true, kinds := fun _ => { d := .vDst, a := .cSrc, b := .gSrc, c := .raw }, ok := fun x => x.sub == 0 && x.c.toNat % 8 == 0 && x.d.toNat + x.runLength ≤ 32 && x.memDisp }
def vst : LRow := { on := 0x189, l96 := true, emit := true, kinds := fun _ => { d := .vSrc, a := .cSrc, b := .gSrc, c := .raw }, ok := fun x => x.sub == 0 && x.c.toNat % 8 == 0 && x.c.toNat < 32 && x.d.toNat + x.runLength ≤ 32 && x.memDisp }
def vldg : LRow := { on := 0x18A, l96 := false, emit := true, kinds := fun _ => { d := .vDst, a := .cSrc, b := .vSrc }, ok := fun x => x.vecOk isScalar (noType) (noType) 0 true true }
def vsts : LRow := { on := 0x18B, l96 := false, emit := true, kinds := fun _ => { d := .vSrc, a := .cSrc, b := .vSrc }, ok := fun x => x.vecOk isScalar (noType) (noType) 0 true false }
def vbcast : LRow := { on := 0x190, l96 := true, emit := false, kinds := fun x => { d := .vDst, a := if x.wide then .zero else .gSrc }, ok := fun x => x.vecOk isScalar (noType) (noType) 0 true true && x.litOk }
def vmov : LRow := { on := 0x191, l96 := false, emit := false, kinds := fun _ => { d := .vDst, a := .vSrc }, ok := fun x => x.vecOk isScalar (noType) (noType) 0 true true }
def vmovmExtract : LRow := { on := 0x192, l96 := false, emit := false, kinds := fun _ => { d := .gDst, a := .vSrc, c := .raw }, ok := fun x => x.vecOk isScalar (noType) (noType) 0 false false && x.c.toNat < lanes x.ty, sel := fun x => x.hi.toNat % 4 == 0 }
def vmovmInsert : LRow := { on := 0x192, l96 := false, emit := false, kinds := fun _ => { d := .vBoth, a := .gSrc, c := .raw }, ok := fun x => x.vecOk isScalar (noType) (noType) 1 false false && x.c.toNat < lanes x.ty, sel := fun x => x.hi.toNat % 4 == 1 }
def vperm : LRow := { on := 0x193, l96 := false, emit := false, kinds := fun _ => { d := .vDst, a := .vSrc, b := .vSrc }, ok := fun x => x.vecOk isScalar (noType) (noType) 0 true true }
def vslide : LRow := { on := 0x194, l96 := false, emit := false, kinds := fun _ => { d := .vDst, a := .vSrc, b := .vSrc, c := .raw }, ok := fun x => x.vecOk isScalar (noType) (noType) 0 true true && x.c.toNat < lanes x.ty }
def vadd : LRow := { on := 0x198, l96 := true, emit := false, kinds := fun x => { d := .vDst, a := .vSrc, b := if x.wide then .zero else .vSrc }, ok := fun x => x.vecOk isScalar (isInt) (isFloat) 0 true true && x.litOk }
def vsub : LRow := { on := 0x199, l96 := true, emit := false, kinds := fun x => { d := .vDst, a := .vSrc, b := if x.wide then .zero else .vSrc }, ok := fun x => x.vecOk isScalar (isInt) (isFloat) 0 true true && x.litOk }
def vmul : LRow := { on := 0x19A, l96 := true, emit := false, kinds := fun x => { d := .vDst, a := .vSrc, b := if x.wide then .zero else .vSrc }, ok := fun x => x.vecOk isScalar (isInt) (isFloat) 0 true true && x.litOk }
def vfma : LRow := { on := 0x19B, l96 := true, emit := false, kinds := fun x => { d := .vDst, a := .vSrc, b := if x.wide then .zero else .vSrc, c := .vSrc }, ok := fun x => x.vecOk isScalar (isInt) (isFloat) 0 true true && x.litOk }
def vmin : LRow := { on := 0x19C, l96 := true, emit := false, kinds := fun x => { d := .vDst, a := .vSrc, b := if x.wide then .zero else .vSrc }, ok := fun x => x.vecOk isScalar (noType) (noType) 0 true true && x.litOk }
def vmax : LRow := { on := 0x19D, l96 := true, emit := false, kinds := fun x => { d := .vDst, a := .vSrc, b := if x.wide then .zero else .vSrc }, ok := fun x => x.vecOk isScalar (noType) (noType) 0 true true && x.litOk }
def vabs : LRow := { on := 0x19E, l96 := false, emit := false, kinds := fun _ => { d := .vDst, a := .vSrc }, ok := fun x => x.vecOk isSignedOrFloat (isSigned) (noType) 0 true true }
def vneg : LRow := { on := 0x19F, l96 := false, emit := false, kinds := fun _ => { d := .vDst, a := .vSrc }, ok := fun x => x.vecOk isScalar (isInt) (noType) 0 true true }
def vdiv : LRow := { on := 0x1A0, l96 := true, emit := false, kinds := fun x => { d := .vDst, a := .vSrc, b := if x.wide then .zero else .vSrc }, ok := fun x => x.vecOk isFloat (noType) (isFloat) 0 true true && x.litOk }
def vsqrt : LRow := { on := 0x1A1, l96 := false, emit := false, kinds := fun _ => { d := .vDst, a := .vSrc }, ok := fun x => x.vecOk isFloat (noType) (isFloat) 0 true true }
def vrcp : LRow := { on := 0x1a2, l96 := false, emit := false, kinds := fun _ => { d := .vDst, a := .vSrc }, ok := fun x => x.vecOk isFloatNarrow (noType) (isFloat) 0 true true }
def vrsqrt : LRow := { on := 0x1a3, l96 := false, emit := false, kinds := fun _ => { d := .vDst, a := .vSrc }, ok := fun x => x.vecOk isFloatNarrow (noType) (isFloat) 0 true true }
def vexp2 : LRow := { on := 0x1a4, l96 := false, emit := false, kinds := fun _ => { d := .vDst, a := .vSrc }, ok := fun x => x.vecOk isFloatNarrow (noType) (isFloat) 0 true true }
def vlog2 : LRow := { on := 0x1a5, l96 := false, emit := false, kinds := fun _ => { d := .vDst, a := .vSrc }, ok := fun x => x.vecOk isFloatNarrow (noType) (isFloat) 0 true true }
def vsin : LRow := { on := 0x1a6, l96 := false, emit := false, kinds := fun _ => { d := .vDst, a := .vSrc }, ok := fun x => x.vecOk isFloatNarrow (noType) (isFloat) 0 true true }
def vcos : LRow := { on := 0x1a7, l96 := false, emit := false, kinds := fun _ => { d := .vDst, a := .vSrc }, ok := fun x => x.vecOk isFloatNarrow (noType) (isFloat) 0 true true }
def vtanh : LRow := { on := 0x1a8, l96 := false, emit := false, kinds := fun _ => { d := .vDst, a := .vSrc }, ok := fun x => x.vecOk isFloatNarrow (noType) (isFloat) 0 true true }
def vand : LRow := { on := 0x1b0, l96 := true, emit := false, kinds := fun x => { d := .vDst, a := .vSrc, b := if x.wide then .zero else .vSrc }, ok := fun x => x.vecOk isInt (noType) (noType) 0 true true }
def vor : LRow := { on := 0x1b1, l96 := true, emit := false, kinds := fun x => { d := .vDst, a := .vSrc, b := if x.wide then .zero else .vSrc }, ok := fun x => x.vecOk isInt (noType) (noType) 0 true true }
def vxor : LRow := { on := 0x1b2, l96 := true, emit := false, kinds := fun x => { d := .vDst, a := .vSrc, b := if x.wide then .zero else .vSrc }, ok := fun x => x.vecOk isInt (noType) (noType) 0 true true }
def vshl : LRow := { on := 0x1B3, l96 := true, emit := false, kinds := fun x => { d := .vDst, a := .vSrc, b := if x.wide then .zero else .vSrc }, ok := fun x => x.vecOk isInt (isInt) (noType) 0 true true && (!x.wide || x.lit.toNat < 64) }
def vshr : LRow := { on := 0x1B4, l96 := true, emit := false, kinds := fun x => { d := .vDst, a := .vSrc, b := if x.wide then .zero else .vSrc }, ok := fun x => x.vecOk isInt (noType) (noType) 0 true true && (!x.wide || x.lit.toNat < 64) }
def vsha : LRow := { on := 0x1B5, l96 := true, emit := false, kinds := fun x => { d := .vDst, a := .vSrc, b := if x.wide then .zero else .vSrc }, ok := fun x => x.vecOk isInt (noType) (noType) 0 true true && (!x.wide || x.lit.toNat < 64) }
def vcmp : LRow := { on := 0x1B8, l96 := true, emit := false, kinds := fun x => { d := .pCond, a := .vSrc, b := if x.wide then .zero else .vSrc }, ok := fun x => x.vecOk isScalar (noType) (noType) 0 true true && x.litOk && condOk x.ty x.d && x.pairOk x.d }
def vsel : LRow := { on := 0x1B9, l96 := true, emit := false, kinds := fun x => { d := .vDst, a := .vSrc, b := if x.wide then .zero else .vSrc, c := .pSrc }, ok := fun x => x.vecOk isScalar (noType) (noType) 0 true true && x.litOk && x.pairOk x.c }
def vcvt : LRow := { on := 0x1C0, l96 := false, emit := false, kinds := fun _ => { d := .vDst, a := .vSrc, c := .raw }, ok := fun x => x.vcvtOk }
def vpack : LRow := { on := 0x1C1, l96 := false, emit := false, kinds := fun x => { d := .vBoth, a := .vSrc, b := .raw, c := if x.ty == 0xF then .gSrc else .raw }, ok := fun x => x.vpackOk }
def vunpack : LRow := { on := 0x1C2, l96 := false, emit := false, kinds := fun _ => { d := .vBoth, a := .vSrc, b := .raw, c := .raw }, ok := fun x => x.vunpackOk }
def vred : LRow := { on := 0x1C8, l96 := false, emit := false, kinds := fun _ => { d := .gDst, a := .vSrc, c := .raw }, ok := fun x => x.vredOk false }
def vscan : LRow := { on := 0x1C9, l96 := false, emit := false, kinds := fun _ => { d := .vDst, a := .vSrc, c := .raw }, ok := fun x => x.vredOk true }
def vdot : LRow := { on := 0x1CA, l96 := false, emit := false, kinds := fun _ => { d := .gDst, a := .vSrc, b := .vSrc }, ok := fun x => x.vecOk isDotType (isInt) (isFloat) 0 true false }
def mzero : LRow := { on := 0x200, l96 := false, emit := false, kinds := fun _ => { d := .acc }, ok := fun x => (x.sub == 0 || x.sub == 0xB) && x.hi == 0 }
def mma : LRow := { on := 0x201, l96 := false, emit := true, kinds := fun _ => { d := .acc, a := .gSrc, b := .gSrc }, ok := fun x => x.sub == 0 && x.hi.toNat < 256 }
def mmaq : LRow := { on := 0x202, l96 := false, emit := true, kinds := fun _ => { d := .acc, a := .gSrc, b := .gSrc }, ok := fun x => x.sub == 0 && x.hi.toNat < 256 }
def mmad : LRow := { on := 0x203, l96 := false, emit := true, kinds := fun _ => { d := .acc, a := .gSrc, b := .gSrc, c := .raw }, ok := fun x => x.sub == 0 && x.hi.toNat < 64 && x.c.toNat < 4 }
def mread : LRow := { on := 0x208, l96 := false, emit := true, kinds := fun _ => { a := .gSrc, b := .acc }, ok := fun x => x.sub == 0 && x.readoutOk }
def mreadk : LRow := { on := 0x209, l96 := false, emit := false, kinds := fun _ => { d := .vBoth, b := .acc, c := .raw }, ok := fun x => x.sub == 0 && x.readoutOk && x.c.toNat < 16 && !(elemBits x.ty == 64 && x.d == 31) }
def macc : LRow := { on := 0x20A, l96 := false, emit := false, kinds := fun _ => { d := .acc, b := .acc, c := .raw }, ok := fun x => x.hi == 0 && x.c.toNat < 4, sel := fun x => x.sub == 0 }
def maccMov : LRow := { on := 0x20A, l96 := false, emit := false, kinds := fun _ => { d := .acc, b := .acc }, ok := fun x => x.hi == 0, sel := fun x => x.sub == 1 }
def mstat : LRow := { on := 0x20B, l96 := false, emit := false, kinds := fun _ => { d := .gDst, b := .acc }, ok := fun x => x.sub == 0 && x.hi == 0 }
def mmode : LRow := { on := 0x20C, l96 := false, emit := false, kinds := fun _ => { d := .gDst }, ok := fun x => x.sub == 0 && x.hi.toNat < 2 }
def rjoin : LRow := { on := 0x240, l96 := false, emit := false, kinds := fun _ => { d := .gDst }, ok := fun x => x.sub == 0 && x.hi == 0 }
def rleave : LRow := { on := 0x241, l96 := false, emit := false, kinds := fun _ => { d := .gDst }, ok := fun x => x.sub == 0 && x.hi == 0 }
def rmset : LRow := { on := 0x242, l96 := false, emit := false, kinds := fun x => { a := .gSrc, b := if x.sub == 1 then .gSrc else .zero }, ok := fun x => if x.sub == 1 then x.hi == 0 else x.sub == 0 && x.hi.toNat < 64 }
def rmclr : LRow := { on := 0x243, l96 := false, emit := false, kinds := fun x => { b := if x.sub == 1 then .gSrc else .zero }, ok := fun x => if x.sub == 1 then x.hi == 0 else x.hi.toNat < 64, sel := fun x => x.sub.toNat < 2 }
def rmclrAll : LRow := { on := 0x243, l96 := false, emit := false, kinds := fun _ => { }, ok := fun x => x.hi == 0, sel := fun x => x.sub == 2 }
def rinj : LRow := { on := 0x244, l96 := false, emit := true, kinds := fun _ => { a := .cSrc, b := .gSrc, c := .gSrc }, ok := fun x => x.sub == 0 && x.hi == 0 }
def rdrain : LRow := { on := 0x245, l96 := false, emit := false, kinds := fun _ => { d := .gDst }, ok := fun x => x.sub == 0 && x.hi == 0 }
def rstat : LRow := { on := 0x246, l96 := false, emit := false, kinds := fun _ => { d := .gDst }, ok := fun x => x.sub == 0 && x.hi.toNat < 4 }
def relight : LRow := { on := 0x247, l96 := false, emit := false, kinds := fun _ => { d := .gDst }, ok := fun x => x.sub == 0 && x.hi.toNat < 64 }

def addL32A : ARow := { on := 0x001, d := .gDst, a := .gSrc, b := .gSrc, ok := fun x => isInt x.sub }
def addcL32A : ARow := { on := 0x002, d := .gDst, a := .gSrc, b := .gSrc, ok := fun x => isInt x.sub }
def subL32A : ARow := { on := 0x003, d := .gDst, a := .gSrc, b := .gSrc, ok := fun x => isInt x.sub }
def subbL32A : ARow := { on := 0x004, d := .gDst, a := .gSrc, b := .gSrc, ok := fun x => isInt x.sub }
def mulL32A : ARow := { on := 0x005, d := .gDst, a := .gSrc, b := .gSrc, ok := fun x => isInt x.sub }
def mulhL32A : ARow := { on := 0x006, d := .gDst, a := .gSrc, b := .gSrc, ok := fun x => isSigned x.sub }
def mulhnL32A : ARow := { on := 0x007, d := .gDst, a := .gSrc, b := .gSrc, ok := fun x => isUnsigned x.sub }
def divL32A : ARow := { on := 0x008, d := .gDst, a := .gSrc, b := .gSrc, ok := fun x => isSigned x.sub }
def divnL32A : ARow := { on := 0x009, d := .gDst, a := .gSrc, b := .gSrc, ok := fun x => isUnsigned x.sub }
def remL32A : ARow := { on := 0x00A, d := .gDst, a := .gSrc, b := .gSrc, ok := fun x => isSigned x.sub }
def remnL32A : ARow := { on := 0x00B, d := .gDst, a := .gSrc, b := .gSrc, ok := fun x => isUnsigned x.sub }
def andL32A : ARow := { on := 0x010, d := .gDst, a := .gSrc, b := .gSrc, ok := fun x => isInt x.sub }
def andnL32A : ARow := { on := 0x011, d := .gDst, a := .gSrc, b := .gSrc, ok := fun x => isInt x.sub }
def orL32A : ARow := { on := 0x012, d := .gDst, a := .gSrc, b := .gSrc, ok := fun x => isInt x.sub }
def xorL32A : ARow := { on := 0x013, d := .gDst, a := .gSrc, b := .gSrc, ok := fun x => isInt x.sub }
def shlL32A : ARow := { on := 0x014, d := .gDst, a := .gSrc, b := .gSrc, ok := fun x => isInt x.sub }
def shrL32A : ARow := { on := 0x015, d := .gDst, a := .gSrc, b := .gSrc, ok := fun x => isInt x.sub }
def shaL32A : ARow := { on := 0x016, d := .gDst, a := .gSrc, b := .gSrc, ok := fun x => isInt x.sub }
def rolL32A : ARow := { on := 0x017, d := .gDst, a := .gSrc, b := .gSrc, ok := fun x => isInt x.sub }
def rotrL32A : ARow := { on := 0x018, d := .gDst, a := .gSrc, b := .gSrc, ok := fun x => isInt x.sub }
def clzL32A : ARow := { on := 0x019, d := .gDst, a := .gSrc, b := .zero, ok := fun x => isInt x.sub }
def ctzL32A : ARow := { on := 0x01A, d := .gDst, a := .gSrc, b := .zero, ok := fun x => isInt x.sub }
def popcL32A : ARow := { on := 0x01B, d := .gDst, a := .gSrc, b := .zero, ok := fun x => isInt x.sub }
def brevL32A : ARow := { on := 0x01C, d := .gDst, a := .gSrc, b := .zero, ok := fun x => isInt x.sub }
def bswapL32A : ARow := { on := 0x01D, d := .gDst, a := .gSrc, b := .zero, ok := fun x => isIntWide x.sub }
def minL32A : ARow := { on := 0x020, d := .gDst, a := .gSrc, b := .gSrc, ok := fun x => isSigned x.sub }
def maxL32A : ARow := { on := 0x021, d := .gDst, a := .gSrc, b := .gSrc, ok := fun x => isSigned x.sub }
def minnL32A : ARow := { on := 0x022, d := .gDst, a := .gSrc, b := .gSrc, ok := fun x => isUnsigned x.sub }
def maxnL32A : ARow := { on := 0x023, d := .gDst, a := .gSrc, b := .gSrc, ok := fun x => isUnsigned x.sub }
def absL32A : ARow := { on := 0x024, d := .gDst, a := .gSrc, b := .zero, ok := fun x => isSigned x.sub }
def movL32A : ARow := { on := 0x030, d := .gDst, a := .gSrc, b := .zero, ok := fun x => x.sub == 0 }
def faddL32A : ARow := { on := 0x040, d := .gDst, a := .gSrc, b := .gSrc, ok := fun x => isFloat x.sub }
def fsubL32A : ARow := { on := 0x041, d := .gDst, a := .gSrc, b := .gSrc, ok := fun x => isFloat x.sub }
def fmulL32A : ARow := { on := 0x042, d := .gDst, a := .gSrc, b := .gSrc, ok := fun x => isFloat x.sub }
def fdivL32A : ARow := { on := 0x045, d := .gDst, a := .gSrc, b := .gSrc, ok := fun x => isFloat x.sub }
def fsqrtL32A : ARow := { on := 0x046, d := .gDst, a := .gSrc, b := .zero, ok := fun x => isFloat x.sub }
def fminL32A : ARow := { on := 0x048, d := .gDst, a := .gSrc, b := .gSrc, ok := fun x => isFloat x.sub }
def fmaxL32A : ARow := { on := 0x049, d := .gDst, a := .gSrc, b := .gSrc, ok := fun x => isFloat x.sub }
def fabsL32A : ARow := { on := 0x04A, d := .gDst, a := .gSrc, b := .zero, ok := fun x => isFloat x.sub }
def fnegL32A : ARow := { on := 0x04B, d := .gDst, a := .gSrc, b := .zero, ok := fun x => isFloat x.sub }
def fcpysL32A : ARow := { on := 0x04C, d := .gDst, a := .gSrc, b := .gSrc, ok := fun x => isFloat x.sub }
def fclassL32A : ARow := { on := 0x051, d := .gDst, a := .gSrc, b := .zero, ok := fun x => isFloat x.sub }
def frndL32A : ARow := { on := 0x05B, d := .gDst, a := .gSrc, b := .zero, ok := fun x => isFloat x.sub }
def jmpL32A : ARow := { on := 0x061, d := .raw, a := .raw, b := .raw, ok := fun _ => true }
def jmpiL32A : ARow := { on := 0x062, d := .zero, a := .gSrc, b := .zero, ok := fun x => x.sub == 0 }
def calliL32A : ARow := { on := 0x064, d := .gDst, a := .gSrc, b := .zero, ok := fun x => x.sub == 0 }
def retL32A : ARow := { on := 0x065, d := .zero, a := .gSrc, b := .zero, ok := fun x => x.sub == 0 }
def endL32A : ARow := { on := 0x069, d := .zero, a := .zero, b := .zero, ok := fun x => x.sub == 0 }
def nopL32A : ARow := { on := 0x073, d := .zero, a := .zero, b := .zero, ok := fun x => x.sub == 0 }
def ungangL32A : ARow := { on := 0x071, d := .gDst, a := .zero, b := .zero, ok := fun x => x.sub == 0 }
def rejoinL32A : ARow := { on := 0x072, d := .zero, a := .raw, b := .raw, ok := fun x => x.sub == 0 }
def pandL32A : ARow := { on := 0x078, d := .pDst, a := .pSrc, b := .pSrc, ok := fun x => x.sub.toNat < 4 }
def porL32A : ARow := { on := 0x079, d := .pDst, a := .pSrc, b := .pSrc, ok := fun x => x.sub.toNat < 4 }
def pxorL32A : ARow := { on := 0x07A, d := .pDst, a := .pSrc, b := .pSrc, ok := fun x => x.sub.toNat < 4 }
def pnotL32A : ARow := { on := 0x07B, d := .pDst, a := .pSrc, b := .zero, ok := fun x => x.sub == 0 }
def pmovL32A : ARow := { on := 0x07C, d := .pDst, a := .pSrc, b := .zero, ok := fun x => x.sub == 0 }
def pmovFromGL32A : ARow := { on := 0x07C, d := .pDst, a := .gSrc, b := .zero, ok := fun x => x.sub == 1 }
def pmovToGL32A : ARow := { on := 0x07C, d := .gDst, a := .pSrc, b := .zero, ok := fun x => x.sub == 2 }
def pcntL32A : ARow := { on := 0x07D, d := .gDst, a := .pSrc, b := .zero, ok := fun x => x.sub == 0 }
def qincL32A : ARow := { on := 0x080, d := .q, a := .zero, b := .zero, ok := fun x => x.sub == 0 }
def succhintL32A : ARow := { on := 0x08B, d := .zero, a := .zero, b := .zero, ok := fun x => x.sub == 0 }
def hstatL32A : ARow := { on := 0x097, d := .gDst, a := .h, b := .zero, ok := fun x => x.sub == 0 }
def csealL32A : ARow := { on := 0x0A2, d := .cDst, a := .cSrc, b := .cSrc, ok := fun x => x.sub == 0 }
def cunsealL32A : ARow := { on := 0x0A3, d := .cDst, a := .cSrc, b := .cSrc, ok := fun x => x.sub == 0 }
def cbaseL32A : ARow := { on := 0x0A8, d := .gDst, a := .cSrc, b := .zero, ok := fun x => x.sub == 0 }
def clenL32A : ARow := { on := 0x0A9, d := .gDst, a := .cSrc, b := .zero, ok := fun x => x.sub == 0 }
def cpermsL32A : ARow := { on := 0x0AA, d := .gDst, a := .cSrc, b := .zero, ok := fun x => x.sub == 0 }
def ctypeL32A : ARow := { on := 0x0AB, d := .gDst, a := .cSrc, b := .zero, ok := fun x => x.sub == 0 }
def ctagL32A : ARow := { on := 0x0AC, d := .gDst, a := .cSrc, b := .zero, ok := fun x => x.sub == 0 }
def cclrL32A : ARow := { on := 0x0B0, d := .cDst, a := .zero, b := .zero, ok := fun x => x.sub == 0 }
def cmovL32A : ARow := { on := 0x0B1, d := .cDst, a := .cSrc, b := .zero, ok := fun x => x.sub == 0 }
def wickL32A : ARow := { on := 0x0C1, d := .zero, a := .zero, b := .zero, ok := fun x => x.sub == 0 }
def queryL32A : ARow := { on := 0x0C4, d := .gDst, a := .gSrc, b := .zero, ok := fun x => x.sub == 0 }
def timeL32A : ARow := { on := 0x0C5, d := .gDst, a := .zero, b := .zero, ok := fun x => x.sub == 0 }
def timeEnergyL32A : ARow := { on := 0x0C5, d := .gDst, a := .zero, b := .zero, ok := fun x => x.sub == 1 }
def yieldL32A : ARow := { on := 0x0CA, d := .zero, a := .gSrc, b := .zero, ok := fun x => x.sub == 0 }

def addI64L32B : BRow := { sop := 0x0, d := .gDst, a := .gSrc, ok := fun _ => true }
def addI32L32B : BRow := { sop := 0x1, d := .gDst, a := .gSrc, ok := fun _ => true }
def mulI64L32B : BRow := { sop := 0x2, d := .gDst, a := .gSrc, ok := fun _ => true }
def mulI32L32B : BRow := { sop := 0x3, d := .gDst, a := .gSrc, ok := fun _ => true }
def andN64L32B : BRow := { sop := 0x4, d := .gDst, a := .gSrc, ok := fun _ => true }
def andnN64L32B : BRow := { sop := 0x7, d := .gDst, a := .gSrc, ok := fun _ => true }
def orN64L32B : BRow := { sop := 0x5, d := .gDst, a := .gSrc, ok := fun _ => true }
def xorN64L32B : BRow := { sop := 0x6, d := .gDst, a := .gSrc, ok := fun _ => true }
def shlN64L32B : BRow := { sop := 0x8, d := .gDst, a := .gSrc, ok := fun x => x.imm.toNat < 64 }
def shrN64L32B : BRow := { sop := 0x9, d := .gDst, a := .gSrc, ok := fun x => x.imm.toNat < 64 }
def shaI64L32B : BRow := { sop := 0xa, d := .gDst, a := .gSrc, ok := fun x => x.imm.toNat < 64 }
def rotrN64L32B : BRow := { sop := 0xb, d := .gDst, a := .gSrc, ok := fun x => x.imm.toNat < 64 }
def minI64L32B : BRow := { sop := 0xc, d := .gDst, a := .gSrc, ok := fun _ => true }
def maxI64L32B : BRow := { sop := 0xd, d := .gDst, a := .gSrc, ok := fun _ => true }
def minnN64L32B : BRow := { sop := 0xe, d := .gDst, a := .gSrc, ok := fun _ => true }
def maxnN64L32B : BRow := { sop := 0xf, d := .gDst, a := .gSrc, ok := fun _ => true }
def bfxN64L32B : BRow := { sop := 0x12, d := .gDst, a := .gSrc, ok := fun x => fieldOk x.imm }
def bfxI64L32B : BRow := { sop := 0x13, d := .gDst, a := .gSrc, ok := fun x => fieldOk x.imm }
def cmpEqI64L32B : BRow := { sop := 0x14, d := .pDst, a := .gSrc, ok := fun _ => true }
def cmpNeI64L32B : BRow := { sop := 0x15, d := .pDst, a := .gSrc, ok := fun _ => true }
def cmpLtI64L32B : BRow := { sop := 0x16, d := .pDst, a := .gSrc, ok := fun _ => true }
def cmpLeI64L32B : BRow := { sop := 0x17, d := .pDst, a := .gSrc, ok := fun _ => true }
def cmpGtI64L32B : BRow := { sop := 0x18, d := .pDst, a := .gSrc, ok := fun _ => true }
def cmpGeI64L32B : BRow := { sop := 0x19, d := .pDst, a := .gSrc, ok := fun _ => true }
def cmpLtN64L32B : BRow := { sop := 0x1a, d := .pDst, a := .gSrc, ok := fun _ => true }
def cmpLeN64L32B : BRow := { sop := 0x1b, d := .pDst, a := .gSrc, ok := fun _ => true }
def cmpGtN64L32B : BRow := { sop := 0x1c, d := .pDst, a := .gSrc, ok := fun _ => true }
def cmpGeN64L32B : BRow := { sop := 0x1d, d := .pDst, a := .gSrc, ok := fun _ => true }
def movRelSrcL32B : BRow := { sop := 0x33, d := .gDst, a := .gSrc, ok := fun _ => true }
def movRelDstL32B : BRow := { sop := 0x34, d := .gSrc, a := .gSrc, ok := fun _ => true }
def liI64L32B : BRow := { sop := 0x10, d := .gDst, a := .zero, ok := fun _ => true }
def lihL32B : BRow := { sop := 0x11, d := .gDst, a := .gSrc, ok := fun _ => true }
def brL32B : BRow := { sop := 0x1e, d := .zero, a := .pSrc, ok := fun _ => true }
def brNotL32B : BRow := { sop := 0x1f, d := .zero, a := .pSrc, ok := fun x => x.a != 0 }
def callL32B : BRow := { sop := 0x20, d := .gDst, a := .zero, ok := fun _ => true }
def qaddL32B : BRow := { sop := 0x21, d := .q, a := .zero, ok := fun x => 1 ≤ x.imm.toNat && x.imm.toNat ≤ 2047 }
def hwaitfL32B : BRow := { sop := 0x23, d := .zero, a := .h, ok := fun x => 1 ≤ x.imm.toNat && x.imm.toNat ≤ 256 }
def hwaiteL32B : BRow := { sop := 0x24, d := .zero, a := .h, ok := fun x => 1 ≤ x.imm.toNat && x.imm.toNat ≤ 256 }
def hadvcL32B : BRow := { sop := 0x25, d := .zero, a := .h, ok := fun x => 1 ≤ x.imm.toNat && x.imm.toNat ≤ 256 }
def hadvpL32B : BRow := { sop := 0x26, d := .zero, a := .h, ok := fun x => 1 ≤ x.imm.toNat && x.imm.toNat ≤ 256 }
def cldcL32B : BRow := { sop := 0x37, d := .cDst, a := .cSrc, ok := fun _ => true }
def cstcL32B : BRow := { sop := 0x38, d := .cSrc, a := .cSrc, ok := fun _ => true }
def trapL32B : BRow := { sop := 0x27, d := .zero, a := .zero, ok := fun _ => true }
def widL32B : BRow := { sop := 0x22, d := .gDst, a := .zero, ok := fun x => x.imm.toNat < 6 }
def ldN64L32B : BRow := { sop := 0x28, d := .gDst, a := .cSrc, ok := fun _ => true }
def ldI32L32B : BRow := { sop := 0x29, d := .gDst, a := .cSrc, ok := fun _ => true }
def ldN32L32B : BRow := { sop := 0x2a, d := .gDst, a := .cSrc, ok := fun _ => true }
def ldI16L32B : BRow := { sop := 0x2b, d := .gDst, a := .cSrc, ok := fun _ => true }
def ldN16L32B : BRow := { sop := 0x2c, d := .gDst, a := .cSrc, ok := fun _ => true }
def ldI8L32B : BRow := { sop := 0x2d, d := .gDst, a := .cSrc, ok := fun _ => true }
def ldN8L32B : BRow := { sop := 0x2e, d := .gDst, a := .cSrc, ok := fun _ => true }
def stN64L32B : BRow := { sop := 0x2f, d := .gSrc, a := .cSrc, ok := fun _ => true }
def stN32L32B : BRow := { sop := 0x30, d := .gSrc, a := .cSrc, ok := fun _ => true }
def stN16L32B : BRow := { sop := 0x31, d := .gSrc, a := .cSrc, ok := fun _ => true }
def stN8L32B : BRow := { sop := 0x32, d := .gSrc, a := .cSrc, ok := fun _ => true }
def pfL32B : BRow := { sop := 0x39, d := .zero, a := .cSrc, ok := fun _ => true }
def vldL32B : BRow := { sop := 0x35, d := .vDst, a := .cSrc, ok := fun _ => true }
def vstL32B : BRow := { sop := 0x36, d := .vSrc, a := .cSrc, ok := fun _ => true }

end Shape

/-- What an instruction is in the encoding: its row and the fields it carries; a step of another agent has no encoding. -/
inductive Enc where
  | long (r : LRow) (x : Long)
  | shortA (r : ARow) (x : ShortA)
  | shortB (r : BRow) (x : ShortB)
  | event

/-- The row and fields of every instruction form. -/
def encoding (i : Instr) : Enc :=
  match i with
  | .add x => .long Shape.add x
  | .addL32A x => .shortA Shape.addL32A x
  | .addI64L32B x => .shortB Shape.addI64L32B x
  | .addI32L32B x => .shortB Shape.addI32L32B x
  | .addc x => .long Shape.addc x
  | .addcL32A x => .shortA Shape.addcL32A x
  | .sub x => .long Shape.sub x
  | .subL32A x => .shortA Shape.subL32A x
  | .subb x => .long Shape.subb x
  | .subbL32A x => .shortA Shape.subbL32A x
  | .mul x => .long Shape.mul x
  | .mulL32A x => .shortA Shape.mulL32A x
  | .mulI64L32B x => .shortB Shape.mulI64L32B x
  | .mulI32L32B x => .shortB Shape.mulI32L32B x
  | .mulh x => .long Shape.mulh x
  | .mulhL32A x => .shortA Shape.mulhL32A x
  | .mulhn x => .long Shape.mulhn x
  | .mulhnL32A x => .shortA Shape.mulhnL32A x
  | .div x => .long Shape.div x
  | .divL32A x => .shortA Shape.divL32A x
  | .divn x => .long Shape.divn x
  | .divnL32A x => .shortA Shape.divnL32A x
  | .rem x => .long Shape.rem x
  | .remL32A x => .shortA Shape.remL32A x
  | .remn x => .long Shape.remn x
  | .remnL32A x => .shortA Shape.remnL32A x
  | .and x => .long Shape.and x
  | .andL32A x => .shortA Shape.andL32A x
  | .andN64L32B x => .shortB Shape.andN64L32B x
  | .andn x => .long Shape.andn x
  | .andnL32A x => .shortA Shape.andnL32A x
  | .andnN64L32B x => .shortB Shape.andnN64L32B x
  | .or x => .long Shape.or x
  | .orL32A x => .shortA Shape.orL32A x
  | .orN64L32B x => .shortB Shape.orN64L32B x
  | .xor x => .long Shape.xor x
  | .xorL32A x => .shortA Shape.xorL32A x
  | .xorN64L32B x => .shortB Shape.xorN64L32B x
  | .shl x => .long Shape.shl x
  | .shlL32A x => .shortA Shape.shlL32A x
  | .shlN64L32B x => .shortB Shape.shlN64L32B x
  | .shr x => .long Shape.shr x
  | .shrL32A x => .shortA Shape.shrL32A x
  | .shrN64L32B x => .shortB Shape.shrN64L32B x
  | .sha x => .long Shape.sha x
  | .shaL32A x => .shortA Shape.shaL32A x
  | .shaI64L32B x => .shortB Shape.shaI64L32B x
  | .rol x => .long Shape.rol x
  | .rolL32A x => .shortA Shape.rolL32A x
  | .rotr x => .long Shape.rotr x
  | .rotrL32A x => .shortA Shape.rotrL32A x
  | .rotrN64L32B x => .shortB Shape.rotrN64L32B x
  | .clz x => .long Shape.clz x
  | .clzL32A x => .shortA Shape.clzL32A x
  | .ctz x => .long Shape.ctz x
  | .ctzL32A x => .shortA Shape.ctzL32A x
  | .popc x => .long Shape.popc x
  | .popcL32A x => .shortA Shape.popcL32A x
  | .brev x => .long Shape.brev x
  | .brevL32A x => .shortA Shape.brevL32A x
  | .bswap x => .long Shape.bswap x
  | .bswapL32A x => .shortA Shape.bswapL32A x
  | .min x => .long Shape.min x
  | .minL32A x => .shortA Shape.minL32A x
  | .minI64L32B x => .shortB Shape.minI64L32B x
  | .max x => .long Shape.max x
  | .maxL32A x => .shortA Shape.maxL32A x
  | .maxI64L32B x => .shortB Shape.maxI64L32B x
  | .minn x => .long Shape.minn x
  | .minnL32A x => .shortA Shape.minnL32A x
  | .minnN64L32B x => .shortB Shape.minnN64L32B x
  | .maxn x => .long Shape.maxn x
  | .maxnL32A x => .shortA Shape.maxnL32A x
  | .maxnN64L32B x => .shortB Shape.maxnN64L32B x
  | .abs x => .long Shape.abs x
  | .absL32A x => .shortA Shape.absL32A x
  | .bfx x => .long Shape.bfx x
  | .bfxN64L32B x => .shortB Shape.bfxN64L32B x
  | .bfxI64L32B x => .shortB Shape.bfxI64L32B x
  | .bfi x => .long Shape.bfi x
  | .sel x => .long Shape.sel x
  | .cmp x => .long Shape.cmp x
  | .cmpEqI64L32B x => .shortB Shape.cmpEqI64L32B x
  | .cmpNeI64L32B x => .shortB Shape.cmpNeI64L32B x
  | .cmpLtI64L32B x => .shortB Shape.cmpLtI64L32B x
  | .cmpLeI64L32B x => .shortB Shape.cmpLeI64L32B x
  | .cmpGtI64L32B x => .shortB Shape.cmpGtI64L32B x
  | .cmpGeI64L32B x => .shortB Shape.cmpGeI64L32B x
  | .cmpLtN64L32B x => .shortB Shape.cmpLtN64L32B x
  | .cmpLeN64L32B x => .shortB Shape.cmpLeN64L32B x
  | .cmpGtN64L32B x => .shortB Shape.cmpGtN64L32B x
  | .cmpGeN64L32B x => .shortB Shape.cmpGeN64L32B x
  | .mov x => .long Shape.mov x
  | .movL32A x => .shortA Shape.movL32A x
  | .movRelSrcL32B x => .shortB Shape.movRelSrcL32B x
  | .movRelDstL32B x => .shortB Shape.movRelDstL32B x
  | .li x => .long Shape.li x
  | .liI64L32B x => .shortB Shape.liI64L32B x
  | .lih x => .long Shape.lih x
  | .lihL32B x => .shortB Shape.lihL32B x
  | .fadd x => .long Shape.fadd x
  | .faddL32A x => .shortA Shape.faddL32A x
  | .fsub x => .long Shape.fsub x
  | .fsubL32A x => .shortA Shape.fsubL32A x
  | .fmul x => .long Shape.fmul x
  | .fmulL32A x => .shortA Shape.fmulL32A x
  | .ffma x => .long Shape.ffma x
  | .ffms x => .long Shape.ffms x
  | .fdiv x => .long Shape.fdiv x
  | .fdivL32A x => .shortA Shape.fdivL32A x
  | .fsqrt x => .long Shape.fsqrt x
  | .fsqrtL32A x => .shortA Shape.fsqrtL32A x
  | .fmin x => .long Shape.fmin x
  | .fminL32A x => .shortA Shape.fminL32A x
  | .fmax x => .long Shape.fmax x
  | .fmaxL32A x => .shortA Shape.fmaxL32A x
  | .fabs x => .long Shape.fabs x
  | .fabsL32A x => .shortA Shape.fabsL32A x
  | .fneg x => .long Shape.fneg x
  | .fnegL32A x => .shortA Shape.fnegL32A x
  | .fcpys x => .long Shape.fcpys x
  | .fcpysL32A x => .shortA Shape.fcpysL32A x
  | .fcmp x => .long Shape.fcmp x
  | .fclass x => .long Shape.fclass x
  | .fclassL32A x => .shortA Shape.fclassL32A x
  | .fcvt x => .long Shape.fcvt x
  | .fcvti x => .long Shape.fcvti x
  | .icvtf x => .long Shape.icvtf x
  | .frnd x => .long Shape.frnd x
  | .frndL32A x => .shortA Shape.frndL32A x
  | .br x => .long Shape.br x
  | .brL32B x => .shortB Shape.brL32B x
  | .brNotL32B x => .shortB Shape.brNotL32B x
  | .jmp x => .long Shape.jmp x
  | .jmpL32A x => .shortA Shape.jmpL32A x
  | .jmpi x => .long Shape.jmpi x
  | .jmpiL32A x => .shortA Shape.jmpiL32A x
  | .call x => .long Shape.call x
  | .callL32B x => .shortB Shape.callL32B x
  | .calli x => .long Shape.calli x
  | .calliL32A x => .shortA Shape.calliL32A x
  | .ret x => .long Shape.ret x
  | .retL32A x => .shortA Shape.retL32A x
  | .loops x => .long Shape.loops x
  | .endI x => .long Shape.endI x
  | .endL32A x => .shortA Shape.endL32A x
  | .nop x => .long Shape.nop x
  | .nopL32A x => .shortA Shape.nopL32A x
  | .gang x => .long Shape.gang x
  | .ungang x => .long Shape.ungang x
  | .ungangL32A x => .shortA Shape.ungangL32A x
  | .rejoin x => .long Shape.rejoin x
  | .rejoinL32A x => .shortA Shape.rejoinL32A x
  | .pand x => .long Shape.pand x
  | .pandL32A x => .shortA Shape.pandL32A x
  | .por x => .long Shape.por x
  | .porL32A x => .shortA Shape.porL32A x
  | .pxor x => .long Shape.pxor x
  | .pxorL32A x => .shortA Shape.pxorL32A x
  | .pnot x => .long Shape.pnot x
  | .pnotL32A x => .shortA Shape.pnotL32A x
  | .pmov x => .long Shape.pmov x
  | .pmovL32A x => .shortA Shape.pmovL32A x
  | .pmovFromG x => .long Shape.pmovFromG x
  | .pmovFromGL32A x => .shortA Shape.pmovFromGL32A x
  | .pmovToG x => .long Shape.pmovToG x
  | .pmovToGL32A x => .shortA Shape.pmovToGL32A x
  | .pcnt x => .long Shape.pcnt x
  | .pcntL32A x => .shortA Shape.pcntL32A x
  | .qinc x => .long Shape.qinc x
  | .qincL32A x => .shortA Shape.qincL32A x
  | .qadd x => .long Shape.qadd x
  | .qaddL32B x => .shortB Shape.qaddL32B x
  | .qrd x => .long Shape.qrd x
  | .qpost x => .long Shape.qpost x
  | .waitq x => .long Shape.waitq x
  | .waitb x => .long Shape.waitb x
  | .waitvis x => .long Shape.waitvis x
  | .succhint x => .long Shape.succhint x
  | .succhintL32A x => .shortA Shape.succhintL32A x
  | .hwaitf x => .long Shape.hwaitf x
  | .hwaitfL32B x => .shortB Shape.hwaitfL32B x
  | .hwaite x => .long Shape.hwaite x
  | .hwaiteL32B x => .shortB Shape.hwaiteL32B x
  | .hld x => .long Shape.hld x
  | .hst x => .long Shape.hst x
  | .hadvc x => .long Shape.hadvc x
  | .hadvcL32B x => .shortB Shape.hadvcL32B x
  | .hadvp x => .long Shape.hadvp x
  | .hadvpL32B x => .shortB Shape.hadvpL32B x
  | .heos x => .long Shape.heos x
  | .hstat x => .long Shape.hstat x
  | .hstatL32A x => .shortA Shape.hstatL32A x
  | .send x => .long Shape.send x
  | .sendq x => .long Shape.sendq x
  | .cred x => .long Shape.cred x
  | .cderive x => .long Shape.cderive x
  | .cperm x => .long Shape.cperm x
  | .cseal x => .long Shape.cseal x
  | .csealL32A x => .shortA Shape.csealL32A x
  | .cunseal x => .long Shape.cunseal x
  | .cunsealL32A x => .shortA Shape.cunsealL32A x
  | .cbase x => .long Shape.cbase x
  | .cbaseL32A x => .shortA Shape.cbaseL32A x
  | .clen x => .long Shape.clen x
  | .clenL32A x => .shortA Shape.clenL32A x
  | .cperms x => .long Shape.cperms x
  | .cpermsL32A x => .shortA Shape.cpermsL32A x
  | .ctype x => .long Shape.ctype x
  | .ctypeL32A x => .shortA Shape.ctypeL32A x
  | .ctag x => .long Shape.ctag x
  | .ctagL32A x => .shortA Shape.ctagL32A x
  | .cclr x => .long Shape.cclr x
  | .cclrL32A x => .shortA Shape.cclrL32A x
  | .cmov x => .long Shape.cmov x
  | .cmovL32A x => .shortA Shape.cmovL32A x
  | .cldc x => .long Shape.cldc x
  | .cldcL32B x => .shortB Shape.cldcL32B x
  | .cstc x => .long Shape.cstc x
  | .cstcL32B x => .shortB Shape.cstcL32B x
  | .cchk x => .long Shape.cchk x
  | .trap x => .long Shape.trap x
  | .trapL32B x => .shortB Shape.trapL32B x
  | .wick x => .long Shape.wick x
  | .wickL32A x => .shortA Shape.wickL32A x
  | .wid x => .long Shape.wid x
  | .widL32B x => .shortB Shape.widL32B x
  | .who x => .long Shape.who x
  | .query x => .long Shape.query x
  | .queryL32A x => .shortA Shape.queryL32A x
  | .time x => .long Shape.time x
  | .timeL32A x => .shortA Shape.timeL32A x
  | .timeEnergy x => .long Shape.timeEnergy x
  | .timeEnergyL32A x => .shortA Shape.timeEnergyL32A x
  | .sysrd x => .long Shape.sysrd x
  | .syswr x => .long Shape.syswr x
  | .yield x => .long Shape.yield x
  | .yieldL32A x => .shortA Shape.yieldL32A x
  | .gate x => .long Shape.gate x
  | .snuff x => .long Shape.snuff x
  | .nameset x => .long Shape.nameset x
  | .leaseack x => .long Shape.leaseack x
  | .fresume x => .long Shape.fresume x
  | .fresumeValue x => .long Shape.fresumeValue x
  | .fkill x => .long Shape.fkill x
  | .ld x => .long Shape.ld x
  | .ldN64L32B x => .shortB Shape.ldN64L32B x
  | .ldI32L32B x => .shortB Shape.ldI32L32B x
  | .ldN32L32B x => .shortB Shape.ldN32L32B x
  | .ldI16L32B x => .shortB Shape.ldI16L32B x
  | .ldN16L32B x => .shortB Shape.ldN16L32B x
  | .ldI8L32B x => .shortB Shape.ldI8L32B x
  | .ldN8L32B x => .shortB Shape.ldN8L32B x
  | .st x => .long Shape.st x
  | .stN64L32B x => .shortB Shape.stN64L32B x
  | .stN32L32B x => .shortB Shape.stN32L32B x
  | .stN16L32B x => .shortB Shape.stN16L32B x
  | .stN8L32B x => .shortB Shape.stN8L32B x
  | .lda x => .long Shape.lda x
  | .stl x => .long Shape.stl x
  | .pf x => .long Shape.pf x
  | .pfL32B x => .shortB Shape.pfL32B x
  | .aadd x => .long Shape.aadd x
  | .amin x => .long Shape.amin x
  | .amax x => .long Shape.amax x
  | .aand x => .long Shape.aand x
  | .aor x => .long Shape.aor x
  | .axor x => .long Shape.axor x
  | .aswp x => .long Shape.aswp x
  | .acas x => .long Shape.acas x
  | .aaddf x => .long Shape.aaddf x
  | .fence x => .long Shape.fence x
  | .ojoin x => .long Shape.ojoin x
  | .cpy x => .long Shape.cpy x
  | .cpyHandle x => .long Shape.cpyHandle x
  | .cpy4 x => .long Shape.cpy4 x
  | .cpyg x => .long Shape.cpyg x
  | .batch x => .long Shape.batch x
  | .stcfg x => .long Shape.stcfg x
  | .sbufw x => .long Shape.sbufw x
  | .sbufset x => .long Shape.sbufset x
  | .splice x => .long Shape.splice x
  | .drd x => .long Shape.drd x
  | .dwr x => .long Shape.dwr x
  | .dgath x => .long Shape.dgath x
  | .flush x => .long Shape.flush x
  | .rowopen x => .long Shape.rowopen x
  | .rowhold x => .long Shape.rowhold x
  | .rowrel x => .long Shape.rowrel x
  | .rowrd x => .long Shape.rowrd x
  | .rowrdv x => .long Shape.rowrdv x
  | .rowwr x => .long Shape.rowwr x
  | .rowstat x => .long Shape.rowstat x
  | .scfg x => .long Shape.scfg x
  | .sbind x => .long Shape.sbind x
  | .sunbind x => .long Shape.sunbind x
  | .spredAttach x => .long Shape.spredAttach x
  | .spredRead x => .long Shape.spredRead x
  | .spos x => .long Shape.spos x
  | .vld x => .long Shape.vld x
  | .vldL32B x => .shortB Shape.vldL32B x
  | .vst x => .long Shape.vst x
  | .vstL32B x => .shortB Shape.vstL32B x
  | .vldg x => .long Shape.vldg x
  | .vsts x => .long Shape.vsts x
  | .vbcast x => .long Shape.vbcast x
  | .vmov x => .long Shape.vmov x
  | .vmovmExtract x => .long Shape.vmovmExtract x
  | .vmovmInsert x => .long Shape.vmovmInsert x
  | .vperm x => .long Shape.vperm x
  | .vslide x => .long Shape.vslide x
  | .vadd x => .long Shape.vadd x
  | .vsub x => .long Shape.vsub x
  | .vmul x => .long Shape.vmul x
  | .vfma x => .long Shape.vfma x
  | .vmin x => .long Shape.vmin x
  | .vmax x => .long Shape.vmax x
  | .vabs x => .long Shape.vabs x
  | .vneg x => .long Shape.vneg x
  | .vdiv x => .long Shape.vdiv x
  | .vsqrt x => .long Shape.vsqrt x
  | .vrcp x => .long Shape.vrcp x
  | .vrsqrt x => .long Shape.vrsqrt x
  | .vexp2 x => .long Shape.vexp2 x
  | .vlog2 x => .long Shape.vlog2 x
  | .vsin x => .long Shape.vsin x
  | .vcos x => .long Shape.vcos x
  | .vtanh x => .long Shape.vtanh x
  | .vand x => .long Shape.vand x
  | .vor x => .long Shape.vor x
  | .vxor x => .long Shape.vxor x
  | .vshl x => .long Shape.vshl x
  | .vshr x => .long Shape.vshr x
  | .vsha x => .long Shape.vsha x
  | .vcmp x => .long Shape.vcmp x
  | .vsel x => .long Shape.vsel x
  | .vcvt x => .long Shape.vcvt x
  | .vpack x => .long Shape.vpack x
  | .vunpack x => .long Shape.vunpack x
  | .vred x => .long Shape.vred x
  | .vscan x => .long Shape.vscan x
  | .vdot x => .long Shape.vdot x
  | .mzero x => .long Shape.mzero x
  | .mma x => .long Shape.mma x
  | .mmaq x => .long Shape.mmaq x
  | .mmad x => .long Shape.mmad x
  | .mread x => .long Shape.mread x
  | .mreadk x => .long Shape.mreadk x
  | .macc x => .long Shape.macc x
  | .maccMov x => .long Shape.maccMov x
  | .mstat x => .long Shape.mstat x
  | .mmode x => .long Shape.mmode x
  | .rjoin x => .long Shape.rjoin x
  | .rleave x => .long Shape.rleave x
  | .rmset x => .long Shape.rmset x
  | .rmclr x => .long Shape.rmclr x
  | .rmclrAll x => .long Shape.rmclrAll x
  | .rinj x => .long Shape.rinj x
  | .rdrain x => .long Shape.rdrain x
  | .rstat x => .long Shape.rstat x
  | .relight x => .long Shape.relight x
  | .ctrlRegisterWrite _ _ => .event
  | .namePrefixWrite _ _ => .event
  | .dirEntryWrite _ _ => .event
  | .routerArrival _ => .event
  | .coreMessageAccept _ => .event
  | .lanternFloodBounce _ => .event
  | .bounceReceived _ => .event
  | .tombstoneForward _ => .event
  | .tombstoneWindowEnd _ => .event
  | .l2TlbRequest _ => .event
  | .pageWalk _ => .event
  | .tlbFillReply _ => .event
  | .tlbInvalPage _ _ => .event
  | .tlbInvalContext _ _ => .event
  | .tlbInvalAll _ _ => .event
  | .tlbInvalComplete _ => .event
  | .spliceCopyComplete _ _ => .event
  | .spliceFinish _ _ => .event
  | .storeTileEvacuation _ _ => .event
  | .goneReply _ => .event
  | .ownerFaultReply _ => .event
  | .storeAccess _ => .event
  | .segCfgWrite _ _ _ => .event
  | .segmentReconfigure _ _ => .event
  | .fifoRetry _ => .event
  | .queueSlotArrival _ => .event
  | .eosMarkArrival _ => .event
  | .creditReturn _ => .event
  | .stagingSlotSend _ _ => .event
  | .copyCommandStart _ _ => .event
  | .copyBlockWrite _ _ => .event
  | .linkAuditStart _ _ _ => .event
  | .linkAuditReply _ => .event
  | .flitEccDrop _ _ _ => .event
  | .drdRequest _ => .event
  | .dwrRequest _ => .event
  | .dgathRequest _ => .event
  | .rowopenRequest _ => .event
  | .rowholdRequest _ => .event
  | .rowrelRequest _ => .event
  | .rowrdRequest _ => .event
  | .rowwrRequest _ => .event
  | .rowstatRequest _ => .event
  | .flushRequest _ => .event
  | .atomicRequest _ => .event
  | .reservedOpRequest _ => .event
  | .loadStoreReply _ => .event
  | .directWriteArrival _ => .event
  | .rowLeaseExpiry _ _ _ => .event
  | .bankRefresh _ _ _ => .event
  | .channelMove _ _ _ _ => .event
  | .entryFire _ _ => .event
  | .activationStart _ => .event
  | .continuationResume _ _ _ => .event
  | .runqPromotion _ _ => .event
  | .notificationArrival _ => .event
  | .counterPostArrival _ => .event
  | .continuationReady _ _ => .event
  | .faultedContinuationConvert _ => .event
  | .gangMemberJoin _ => .event
  | .gangRelay _ => .event
  | .ringTileArrival _ => .event
  | .ringTileForward _ _ => .event
  | .ringFiring _ => .event
  | .relightRequestSend _ _ => .event
  | .relightRequestServe _ => .event
  | .relitCopyArrival _ => .event
  | .ringSealPost _ => .event
  | .ringDonePost _ => .event
  | .ringCompletion _ => .event
  | .ringCancel _ _ _ => .event
  | .ringLeaseTimeout _ _ => .event
  | .ringRerun _ _ => .event
  | .ringIdleRelease _ _ => .event
  | .streamElementFetch _ _ => .event
  | .streamPushWrite _ _ => .event
  | .scoreboardEntryStart _ _ => .event
  | .credResult _ => .event
  | .credContribution _ => .event
  | .queryRequest _ => .event
  | .queryAnswer _ => .event
  | .graphArming _ => .event
  | .graphEnd _ => .event
  | .successorResident _ => .event
  | .successorCoreArming _ _ => .event
  | .visibilityPost _ _ => .event
  | .governorSample _ => .event
  | .stageCoreRelease _ _ => .event
  | .stageItemDelivery _ _ => .event
  | .moveReq _ _ => .event
  | .moveCopy _ => .event
  | .markerRequest _ => .event
  | .forwardEndMarker _ => .event
  | .faultMessageArrival _ => .event
  | .snuffnoteArrival _ => .event
  | .graphPreempt _ _ => .event
  | .graphPreemptHalt _ => .event
  | .graphPreemptQuiesce _ _ => .event
  | .contextSave _ => .event
  | .graphResume _ _ => .event
  | .graphKill _ _ => .event
  | .wickExpiry _ => .event
  | .coreSnuffClear _ => .event
  | .hangFreeze _ => .event
  | .leaseReq _ _ => .event
  | .scoreCtlMismatch _ => .event
  | .scoreCtlRetire _ => .event
  | .scoreHalving => .event
  | .sweepProposal _ => .event
  | .leaseAckTimeout _ _ => .event
  | .leaseDeferExpiry _ _ => .event
  | .leaseStart _ _ => .event
  | .leaseEvacuationDone _ _ => .event
  | .leaseTestingEnd _ _ => .event
  | .leaseRestoreDone _ _ => .event
  | .retirementCountersigned _ _ => .event
  | .rqDoorbell _ _ => .event
  | .read _ => .event
  | .write _ => .event
  | .barrier _ => .event
  | .barrierForward _ => .event
  | .launch _ => .event
  | .graph _ => .event
  | .attest _ => .event
  | .keyload _ => .event
  | .keyclr _ => .event
  | .cancel _ => .event
  | .remoteTransferComplete _ _ _ _ => .event
  | .powerWindow _ _ => .event
  | .pwrQuiesce _ _ => .event
  | .clusterQuiesced _ _ => .event
  | .retSave _ _ => .event
  | .retentionSaveDone _ _ => .event
  | .pwrWake _ _ => .event
  | .clusterWakeArrival _ => .event
  | .clusterWakeDone _ _ => .event
  | .railGoodTimeout _ _ => .event
  | .coldBoot => .event
  | .park => .event
  | .unpark => .event
  | .wearHourlyUpdate _ => .event
  | .creditCounterParityError _ _ _ => .event
  | .matrixCompletion _ => .event
  | .ringOpReply _ => .event
  | .cqCtlHeadWrite _ _ => .event
  | .retirementNoticeExpiry _ _ => .event
  | .transferEngineStart _ _ _ _ _ => .event
  | .testPatternResult _ _ _ _ => .event

/-- R243 step 2 for an instruction; a step of another agent has no encoding to break. -/
def Enc.legal (e : Enc) : Bool :=
  match e with
  | .long r x => r.legal x
  | .shortA r x => r.legal x
  | .shortB r x => r.legal x
  | .event => true

end Sys2Proof.Machine
end

