-- ==== Sys2Proof/Machine/State.lean ====
section
/-! DEFINITION. The state of the machine: everything the spec gives it (INVENTORY.md lists each piece with its rule), as plain data,
and the machine right after reset. A register that software reads and writes whole is a bit vector. Cores, tiles, regions and actors are held sparsely: a unit that is absent from its list
stands at its reset value. -/
namespace Sys2Proof.Machine
open Sys2Proof

/-- Why the machine stops. -/
inductive Fault where
  /-- Raised by a step of another agent whose numbers name a unit that does not exist (`operandsOk` false). No such step
  happens on the hardware, so stopping is safe. -/
  | noSuchUnit
  deriving DecidableEq, Repr

/-- Why an instruction has no meaning. -/
inductive Refusal where
  /-- Raised by an arm of exec for an instruction that has no meaning yet; safe. -/
  | notModelled (mnemonic : String)
  deriving DecidableEq, Repr

/-- A capability: 128 bits and the hidden tag (R43). -/
structure Cap where
  tag : Bool
  bits : BitVec 128
  deriving DecidableEq, Repr

/-- A register that a reply or a result writes later (R147). -/
inductive RegName where
  | g (n : Nat) | v (n : Nat) | p (n : Nat) | c (n : Nat) | acc (n : Nat)
  deriving DecidableEq, Repr

/-- Registers compared by their class and number. -/
def RegName.code (r : RegName) : Nat :=
  match r with
  | .g n => 8 * n | .v n => 8 * n + 1 | .p n => 8 * n + 2 | .c n => 8 * n + 3 | .acc n => 8 * n + 4

/-- The three levels of R6. -/
inductive Level where
  | graph | firmware | monitor
  deriving DecidableEq, Repr

/-- The fault codes of R414 that an instruction, an owner or a unit raises. -/
inductive Code where
  | illegal | priv | window | captag | capbound | capperm | align | page | gone | format | heldlost | ringstate | ganglost
  | wickmiss | eccfatal | hang | bounce | trap | snuffnote
  deriving DecidableEq, Repr

/-- Whether a fault was raised by an access that a RESUME with value may answer (R67): the instruction at the saved pc, or an item in
flight that its owner refused. -/
inductive Answer where
  | nothing
  | instr
  | item (id : Nat)
  deriving DecidableEq, Repr

/-- A fault with the DETAIL bytes 32 to 63 of its message (R415), as a number read little-endian, and the register
number or access code where R415 gives one. -/
structure FaultInfo where
  code : Code
  detail : BitVec 256
  /-- the address of the instruction when it is not the saved pc (R381) -/
  at_ : Option Nat := none
  /-- what a RESUME with value may answer (R67) -/
  answer : Answer := .nothing
  /-- q52 counted it when its reply came (R74) -/
  counted : Bool := false
  deriving DecidableEq, Repr

/-- An exact value (R130): NaN, an infinity, or (−1)^neg × m × 2^e. -/
inductive Fp where
  | nan
  | inf (neg : Bool)
  | fin (neg : Bool) (m : Nat) (e : Int)
  deriving DecidableEq, Repr

/-- An accumulator (R260, R364): an EXACT element is a 640-bit sum with its flags NAN, PINF and NINF; an F64 element
stands in the low 64 bits. Element (r, c) has index 16r + c. -/
structure Acc where
  f64 : Bool
  cells : Vector (BitVec 640) 256
  nan : BitVec 256
  pinf : BitVec 256
  ninf : BitVec 256
  progress : Nat
  deriving DecidableEq, Repr

/-- The registers an activation sees (R180, R234): g0 and p0 hold nothing that is read (Machine/Ops.lean). `fetch` is the
core's own copy of c0 (R175), `pc` the byte offset in it, `tok` the sets of the order tokens (R149) as numbers of
items in flight. -/
structure Regs where
  g : Vector Word 64
  v : Vector VWord 32
  p : Vector PWord 8
  c : Vector Cap 16
  pc : Word
  fetch : Cap
  tok : Vector (List Nat) 8
  deriving DecidableEq, Repr

/-- An instruction that the home tile relays (R194): its parcels, its pc, the leader's pc after it and whether it ended the gang. -/
structure Relay where
  p0 : Parcel
  p1 : Parcel
  p2 : Parcel
  pc : Word
  after : Word
  ended : Bool
  /-- whether a control transfer went its way, by its guard and its condition (R277); `alone` ends the gang with the members going on alone -/
  taken : Bool := true
  alone : Bool := false
  deriving DecidableEq, Repr

/-- What an activation of a gang is (R193 to R198): the leader holds its members; a member its leader and whether it is attached. -/
structure Gang where
  leader : Psn
  position : Nat
  attached : Bool
  /-- the leader's: the members' cores in order of their positions, 1 first -/
  members : List Psn
  /-- the leader's gang fault word (R197) -/
  faults : Word
  /-- the REJOIN number a detached member waits at, and that instruction's length (R196) -/
  rejoin : Option (Nat × Nat)
  /-- instructions at the home tile for this member, and the one it has received (R194) -/
  relayed : List Relay
  received : Option Relay
  deriving DecidableEq, Repr

/-- The activation resident on a core (R179 to R181). `serial` tells activations of the machine apart; `halted` is a fault or
a snuff that waits for a full record (R191); `owner` faults wait for the next boundary (R74); `resumed` is what a RESUME
with value supplied to the instruction at the pc (R67). -/
structure Act where
  serial : Nat
  entry : Nat
  /-- the run-queue level at its start (R293) -/
  level : Nat
  window : Nat
  wid : Word
  widShape : Word
  actor : Nat
  ctx : Nat
  claims : BitVec 4
  gang : Option Gang
  /-- the joins a waiting GANG has asked for: position code and core (R193) -/
  joining : List (Nat × Psn)
  halted : Option FaultInfo
  boundary : List FaultInfo
  /-- items to reissue after a RESUME (R74) -/
  reissue : List Nat
  /-- accesses from before the last resumption that were issued again: whatever the activation issues later is ordered after them (R164) -/
  redo : List Nat := []
  resumed : Option (List Byte)
  isResumed : Bool
  /-- the pairs of a WAITQ that waits on the core for a record (R187) -/
  waits : List (Nat × Word) := []
  /-- accesses of the activation that have been sent or are held (R143): ids -/
  fences : List (Nat × List Nat)
  acquires : List (Nat × Nat)
  deriving DecidableEq, Repr

/-- A run-queue entry (R182): a handler entry to start, or a continuation record offered by a home tile. -/
structure RunEntry where
  level : Nat
  ready : Nat
  entry : Nat
  cont : Option (Psn × Nat)
  /-- g1 of a message activation that is a stage or a start firing (R400, R407) -/
  start : Option Word
  promoted : Nat
  /-- F at the firing of a message activation, and whether it is the end firing (R177, R180) -/
  filled : Nat := 0
  ending : Bool := false
  deriving DecidableEq, Repr

/-- A channel of an input handle (R31, R94): its producer's name, the next sequence number, the slots it has filled and
whether its end of stream has been counted. -/
structure Chan where
  handle : Nat
  name : BitVec 24
  expect : BitVec 16
  filled : Nat
  eos : Bool
  deriving DecidableEq, Repr

/-- A translation held in a TLB (R62). `size` is 16 for a 64 KiB page and 29 for a 512 MiB page; `leaf` is the page-table entry. -/
structure Tlb where
  ctx : Nat
  vpage : Nat
  size : Nat
  leaf : Word
  splice : Bool
  deriving DecidableEq, Repr

/-- The memory owners of an access (R141): the core itself for LOCAL, a store tile or exchange bank, a DRAM stack, the companion, a
control unit. -/
inductive Owner where
  | local (addr : Nat)
  | tile (psn : Psn) (off : Nat)
  | dram (pa : Nat)
  | companion (off : Nat)
  | ctrl (addr : Nat)
  deriving DecidableEq, Repr

/-- How the bytes of a reply become a register value. -/
inductive Landing where
  /-- nothing to write: a store, a prefetch, a request without a register -/
  | none
  /-- bytes at byte `at_` of general register n; when every part has come the value extends by the type code (R304) -/
  | gpr (n at_ : Nat) (ty : BitVec 4)
  /-- bytes at byte `at_` of vector register n -/
  | vec (n at_ : Nat)
  /-- a granule for capability register n, its tag kept when `keep` (R47) -/
  | cap (n : Nat) (keep : Bool)
  /-- bytes at byte `at_` of the vector that a load pushes into stream `token` from element `start` on (R344, R349) -/
  | push (token start at_ : Nat)
  /-- the RESULT word of a reply descriptor (R111) -/
  | result (n : Nat)
  deriving DecidableEq, Repr

inductive AccKind where
  | load | store | atomic | capLoad | capStore
  deriving DecidableEq, Repr

/-- Where an access stands: held by its order (R152), sent to its owner, performed with its reply on the way, answered GONE
or by a fault, waiting at a full or empty FIFO (R85). -/
inductive Stage where
  | held | sent | performed | gone | refused | fifoHeld | retry
  deriving DecidableEq, Repr

/-- One memory access, or one request to a DRAM actor (R109, R149): who issued it, what it does, where, and what its reply does.
`op` is the request code of R110; `rmode`, `rhandle`, `ctr`, `dest` say how a request is answered (R111); `deps` are
the accesses it is sent after. -/
structure Access where
  core : Psn
  serial : Nat
  kind : AccKind
  owner : Owner
  space : Nat
  /-- the address in its space (virtual for GLOBAL), and the physical one it translated to -/
  addr : Nat
  phys : Nat
  size : Nat
  data : List Byte
  tagv : Bool
  aop : Nat
  operand2 : List Byte
  deps : List Nat
  pkind : BitVec 2
  key : Nat
  ctx : Nat
  landing : Landing
  stage : Stage
  reply : List Byte
  tags : Bool
  /-- the requester's full name (R109), and whether the page was translated under a splice mark (R71) -/
  name : BitVec 24
  spliced : Bool
  op : Nat
  rmode : Nat
  rhandle : Nat
  ctr : Nat
  dest : Nat
  handle : Nat
  gather : List (Nat × Nat)
  status : Nat
  result : Word
  fault : Option FaultInfo
  /-- the size of the page its address was translated by, and for a DGATH the address and page size of each element (R65) -/
  psize : Nat := 16
  elems : List (Nat × Nat) := []
  /-- whether it has ever been answered GONE, and whether its present GONE has been counted after its activation ended (R75) -/
  again : Bool := false
  noted : Bool := false
  /-- an engine operation (R166): no fence covers it -/
  engine : Bool
  /-- a stream, a copy channel or the walker it belongs to: 0 none, 1 + slot, 8 + channel -/
  unit : Nat
  deriving DecidableEq, Repr

/-- Where a message stands: at a router, at its receiver's local port, in its reorder stash, accepted in channel order, at the Lantern,
on its way back. -/
inductive MsgStage where
  | router | local | stash | accepted | lantern | bounced
  deriving DecidableEq, Repr

/-- A message (R92): its header, its payload, and where it stands. `src` is the originating unit, `tile` the router it is at,
`port` the port it came in on, `flood` its hop limit when flooded (R30), `reason` the bounce reason. `reply` marks the
reply of a DRAM actor, which takes a reserved slot (R92); `acks` is the item whose token the acknowledgement of a post satisfies, 0 for
none; `forwarded` says that a tombstone has sent it on (R33). -/
structure Msg where
  dest : BitVec 24
  eos : Bool
  handle : Nat
  seq : BitVec 16
  name : BitVec 24
  payload : List Byte
  src : Psn
  region : Nat
  tile : Psn
  port : Nat
  flood : Option Nat
  stage : MsgStage
  reason : Nat
  reply : Bool
  forwarded : Bool
  acks : Nat
  deps : List Nat
  /-- the channels of a DRAM request's reply, as stack × 32 + channel (R113) -/
  chans : List Nat := []
  /-- the lane whose buffer it stands in, where `port` is not 0 (R101) -/
  lane : Nat := 0
  deriving DecidableEq, Repr

/-- A tile of an operand ring on a channel between two members (R203), or a relit copy (R213) for slot `slot`. -/
structure RingTile where
  header : Word
  payload : List Byte
  region : Nat
  ring : Nat
  member : Nat
  deriving DecidableEq, Repr

/-- A miss of a core TLB (R63): who asks, for what kind of access (the ACCESS code of R66, 3 a fetch), for which address; `tagged` a
tagged capability store, `answers` whether a RESUME with value may answer its fault (R67). `unit` is 0 for the instruction at the pc, else the
item of the stream or matrix instruction that asks. -/
structure Miss where
  core : Psn
  serial : Nat
  ctx : Nat
  va : Nat
  access : Nat
  write : Bool
  answers : Bool
  tagged : Bool
  unit : Nat
  deriving DecidableEq, Repr

/-- What is in flight between units. -/
inductive Body where
  | access (a : Access)
  /-- stands for a command of an engine of a core while it is under way: tokens name it (R151) -/
  | command (core : Psn) (serial : Nat)
  | message (m : Msg)
  /-- data of a request written to LOCAL (RMODE 01) or STORE (RMODE 10), then its counter post (R111) -/
  | directWrite (request : Access)
  /-- freed slots returned to a producer's output handle (R93) -/
  | credit (core : Psn) (handle : Nat) (count : Nat)
  /-- a core's miss on its way to the L2 (R63) and a walk's answer on its way back -/
  | l2Request (w : Miss)
  | fill (w : Miss) (entry : Tlb)
  | fillFault (w : Miss) (level cause : Nat)
  | ringTile (t : RingTile)
  | relight (core : Psn) (family : Bool) (tag : BitVec 16) (opnum : BitVec 7) (injector : BitVec 24) (slot : Nat)
  | relit (core : Psn) (slot : Nat) (header : Word) (payload : List Byte)
  | seal (region ring member count : Nat)
  | done (region ring : Nat) (opnum : BitVec 7)
  | completion (core : Psn)
  | ringOp (core : Psn) (reg : Nat) (value : Word)
  | query (core : Psn) (reg : Nat) (word : Word)
  | answer (core : Psn) (reg : Nat) (word : Word)
  | contribution (region tree : Nat) (core : Psn) (round : Nat) (op ty rm : Nat) (sat : Bool) (value : Word) (words : List Parcel)
  | credResult (core : Psn) (reg : Nat) (value : Word) (refused : Option (List Parcel))
  | snuffnote (core lost : Psn) (attached : Bool)
  | markerRequest (core tomb : Psn) (source : BitVec 24)
  | marker (core : Psn) (source : BitVec 24) (next : List (Nat × BitVec 16))
  | audit (tile : Psn) (port lane : Nat) (received freed : Nat)
  | barrierForward (target origin : Nat) (before : List Nat)
  | arrival (tile : Psn) (src : Psn) (held : Nat)
  deriving DecidableEq, Repr

structure Item where
  id : Nat
  body : Body
  deriving DecidableEq, Repr

/-- A patterned side of a CPY4 (R87, R326): the tile's address bits above the offset, the element size exponent, the first offset, and
counts and strides from the innermost dimension outward. -/
structure Pattern where
  base : Nat
  elog : Nat
  first : Nat
  counts : List Nat
  strides : List Int
  deriving DecidableEq, Repr

/-- Where one side of a copy command stands: contiguous from an address, a pattern, or a list of element addresses (R325, R326). -/
inductive Side where
  | run (space base : Nat)
  | pattern (space : Nat) (p : Pattern)
  | listed (space : Nat) (addrs : List Nat)
  | handle (h : Nat)
  deriving DecidableEq, Repr

/-- A copy command (R324): its sides as resolved at issue with the translations obtained there, its length in bytes, the size of one
move, and how far it has come. `id` is the item that stands for it in flight. -/
structure Copy where
  id : Nat
  src : Side
  dst : Side
  length : Nat
  unit : Nat
  handle : Option Nat
  fill : Bool
  pages : List Tlb
  deps : List Nat
  done : Nat
  started : Bool
  /-- halted by GONE, a refusal or an error until the activation resumes (R100) -/
  stopped : Bool
  serial : Nat
  ctx : Nat
  /-- its access in flight to a FIFO segment (R85) -/
  access : Option Nat := none
  /-- bytes read and not yet written: they wait for the rest of a FIFO item or of a slot (R325, R327) -/
  held : List Byte := []
  /-- whether its present GONE has been counted after its activation ended (R74, R75) -/
  noted : Bool := false
  deriving DecidableEq, Repr

/-- A copy channel (R97): its issued commands, the first one running. -/
structure CopyChan where
  queue : List Copy
  deriving DecidableEq, Repr

/-- Elements of one push on their way to memory (R344, R345): the first element's index and how many, the vector, the bytes of it that a
load into the stream has not brought yet, the governed lanes, and the elements and bits written so far. -/
structure Push where
  start : Nat
  count : Nat
  data : VWord
  missing : Nat
  bits : BitVec 64
  written : Nat
  bitsDone : Bool
  /-- what the writes wait for: AFTER of the MREAD that pushed them (R151) -/
  deps : List Nat := []
  deriving DecidableEq, Repr

/-- A stream slot, configured or bound (R341 to R347). `owner` is the entry of the activation it belongs to, `position` the elements
popped or pushed, `fetched` the elements fetched ahead with their predicate bits, `head` the vector of the current
pop (of an output stream, the bits of its unfinished predicate byte) and `live` its mask, `token` its number (the item that stands for its fetching), `unbind` the item of an unbinding. -/
structure Stream where
  owner : Nat
  bound : Bool
  output : Bool
  ty : BitVec 4
  first : Nat
  counts : List Nat
  strides : List Int
  cap : Cap
  pred : Option (Cap × Nat)
  position : Nat
  fetched : List (Nat × Bool)
  deps : List Nat
  token : Nat
  unbind : Nat
  pushed : List Push
  live : BitVec 64
  head : VWord
  fault : Option FaultInfo
  tile : Option Psn
  serial : Nat
  ctx : Nat
  /-- of an output stream after its SUNBIND: the slot it still holds with its address generator, and what the unbinding waits for (R346) -/
  closing : Option (Nat × List Nat) := none
  deriving DecidableEq, Repr

/-- Where a matrix instruction stands: it waits in the diagnostic scoreboard, an MMAD is between two of its steps, it computes, its writes
are under way, or it waits to be issued again after a RESUME (R375, R381, R376). -/
inductive MatStage where
  | queued | stepping | computing | writing | stalled
  deriving DecidableEq, Repr

/-- A matrix instruction under way (R381, R383): the descriptors and capabilities it read at issue, the entry and the activation it belongs
to, its address, the leader of its gang, what its operand fetch waits for, the writes that complete it, and the operand rows of an MMAD
between two steps. `id` is the item that its token names, 0 for none; `pushed` a stream's token and the element its pushes end before. -/
structure MatOp where
  id : Nat
  instr : Long
  op : Nat
  da : BitVec 128
  db : BitVec 128
  ca : Cap
  cb : Cap
  entry : Nat
  serial : Nat
  pc : Word
  leader : Option Psn
  stage : MatStage
  deps : List Nat
  writes : List Nat
  pushed : Option (Nat × Nat)
  rows : List (List Fp)
  deriving DecidableEq, Repr

/-- One core: a grid core, a Lantern service core, or a host-service core. -/
structure Core where
  psn : Psn
  regs : Regs
  act : Option Act
  pend : List (RegName × Nat)
  /-- the instruction at the pc waits for an event (R148, R301 step 4), and the TSC since when (R426) -/
  waiting : Bool
  since : Option Nat := none
  acc : Vector Acc 4
  ringClaims : BitVec 4
  matOps : List MatOp
  matMode : Bool
  diag : Bool
  wick : Word
  wickOn : Bool
  handlers : Vector (BitVec 128) 20
  queues : Vector (BitVec 128) 32
  queueOk : BitVec 32
  /-- end firings made or owed, by entry -/
  endOwed : BitVec 20
  chans : List Chan
  /-- slots of an any-order or merged queue in presentation order: handle, producer index, place in its sub-ring -/
  arrivals : List (Nat × Nat × Nat)
  /-- the producer whose turn it is in an ordered merge, by handle (R94) -/
  turns : List (Nat × Nat)
  stash : List Nat
  /-- closed slots and end-of-stream marks not yet sent, in order (R93, R169): handle, whether a mark, what it waits for -/
  staged : List (Nat × Bool × List Nat)
  /-- sources whose forward-end marker has been asked for after a move, and whether it has come (R410) -/
  moved : List (BitVec 24 × Bool)
  q : Vector Word 64
  runq : List RunEntry
  copies : Vector CopyChan 8
  batch : List Nat
  batches : List (List Nat)
  streams : Vector (Option Stream) 4
  /-- unbound output streams whose pushed elements are still to be written (R346) -/
  drains : List Stream
  name : BitVec 24
  logical : BitVec 15
  namePrefix : BitVec 6
  homeStore : BitVec 8
  itlb : List Tlb
  dtlb : List Tlb
  /-- translations obtained by an instruction that waits at its issue (0) or by an engine's item under way, which it keeps beside the TLB until it has
  translated every page it covers (R66; log entry 30) -/
  caught : List (Nat × Tlb)
  snuff : Word
  unsent : List (List Byte × BitVec 24)
  tileClk : Word
  energy : Word
  matches_ : Vector (BitVec 128) 64
  inject : Vector Word 16
  ringMember : Word
  ringOp : Word
  ringHdr : Vector Word 8
  /-- R207 slot states: 0 free, 1 passing, 2 held, 3 relit copy (reserved or come) -/
  ringSlot : Vector (BitVec 2) 8
  ringCome : BitVec 8
  firings : List (Nat × Nat × Nat)
  sealed : Bool
  /-- injection records still to be injected again in a re-run (R218) -/
  reinject : BitVec 16
  oppositeAt : Nat × Nat
  credRound : List (Nat × Nat)
  halting : Bool
  live : Bool
  deriving DecidableEq, Repr

/-- A full record's saved state (R191). -/
structure FullRecord where
  /-- the activation's number, which it keeps -/
  serial : Nat
  regs : Regs
  fault : FaultInfo
  reissue : List Nat
  gang : Option Gang
  reply : Option (Option (List Byte))
  claims : BitVec 4
  widShape : Word
  deriving DecidableEq, Repr

/-- A continuation record of a home tile (R188): `index` 0 to 127 short, 128 to 131 full. -/
structure Record where
  index : Nat
  ready : Bool
  pinned : Bool
  entry : Nat
  actor : Nat
  ctx : Nat
  pc : BitVec 32
  wid : Word
  mask : Word
  src : Psn
  claims : BitVec 4
  window : Nat
  pairs : List (Nat × Word)
  saved : List Word
  full : Option FullRecord
  offered : List Psn
  /-- the fault of a waiter that a ring cancellation ended, until a full record frees (R191) -/
  doomed : Option FaultInfo := none
  /-- the gang that a suspended member is detached from (R196) -/
  gang : Option Gang := none
  /-- when READY was set (R190) -/
  readyAt : Nat := 0
  deriving DecidableEq, Repr

/-- One lane of a link (R101): the sender's SENT count and the credits it has spent (its credit count is the buffer depth less these), the
receiver's RECEIVED, FREED and occupancy, the flits since the last audit, the time of the last flit, and whether the idle period since has had its
audit (log entry 53). -/
structure Lane where
  port : Nat
  lane : Nat
  sent : BitVec 32
  spent : Nat
  received : BitVec 32
  freed : BitVec 32
  occupancy : Nat
  unaudited : Nat
  last : Nat
  idle : Bool
  deriving DecidableEq, Repr

/-- A router (R29, R30, R41, R103): its ageing table as port, name and refresh time, the floods it forwarded, its link audits,
and the lanes of the links it sends on (R101; log entry 53). `cut` lists withdrawn links: mesh ports, and 5 + direction for ring links. -/
structure Router where
  table : List (Nat × BitVec 24 × Nat)
  floods : List (BitVec 24 × Nat × BitVec 16)
  audit : Vector Word 5
  links : List Lane
  cut : List Nat
  deriving DecidableEq, Repr

/-- One store tile or exchange bank: its segments' configuration and counters (the bytes and tags stand in the memory), its
store counters, records, stage descriptors and router. -/
structure Tile where
  psn : Psn
  segCfg : Vector Word 8
  full : Vector Word 8
  head : Vector (BitVec 32) 8
  tail : Vector (BitVec 32) 8
  lcount : Vector (BitVec 32) 8
  /-- the LINE segments whose LCOUNT has passed 2^32 since their configuration: every line has been completed (R86) -/
  lineWrap : BitVec 8 := 0
  /-- reconfigurations that wait for accesses in progress (R82): segment, value, issuing item -/
  reconf : List (Nat × Word)
  sq : Vector Word 16
  records : List Record
  /-- short records that a core has allocated and not yet written: it drains (R187, R294) -/
  reserved : List (Psn × Nat) := []
  stages : Vector (BitVec 512) 16
  /-- a core that leaves a stage (R406): the stage, and the core's index + 16 × (1 + the stage it goes to, 0 none) -/
  stageBusy : List (Nat × Nat)
  generators : List Nat
  tileClk : Word
  live : Bool
  withdrawn : Bool
  deriving DecidableEq, Repr

/-- A walk in the Lantern's queue (R63): who waits for it, and which of the eight page walkers has taken it (R17). -/
structure Walk where
  ctx : Nat
  vpage : Nat
  waiters : List Miss
  walker : Option Nat := none
  deriving DecidableEq, Repr

/-- A tombstone (R33): the core that held the name, the name, where its arrivals go, its end and the sources it has marked. -/
structure Tomb where
  core : Psn
  name : BitVec 24
  target : Psn
  until_ : Nat
  next : List (BitVec 24 × Nat × BitVec 16)
  marked : List (BitVec 24)
  deriving DecidableEq, Repr

/-- A ring of the region (R200): the members' cores and what the Lantern knows of it. `leavers` asked to leave. -/
structure Ring where
  number : Nat
  ctx : Nat
  members : List Psn
  logical : List Nat
  leavers : List Psn
  formed : Bool
  leaseAt : Option Nat
  deriving DecidableEq, Repr

/-- A reduction tree (R404) with the contributions of its open rounds (R322). -/
structure Tree where
  number : Nat
  ctx : Nat
  leaves : List Nat
  rounds : List (Nat × List (Psn × Word × Nat))
  deriving DecidableEq, Repr

/-- A move in progress (R409). -/
structure Move where
  ctx : Nat
  from_ : Psn
  to_ : Psn
  holds : BitVec 20
  lease : Option Nat
  deriving DecidableEq, Repr

/-- A power cluster (R454): its five registers; what is saved; the items its routers hold for it. -/
structure Cluster where
  ctl : Word
  stat : Word
  retAddr : Word
  event : Word
  wake : Option Nat
  saving : Bool
  cores : List Core
  tiles : List Tile
  held : List Nat
  /-- the TSC of the last PWR_WAKE written while the cluster was not gated: a GATE of the same instant aborts (R296, R456) -/
  wakeAt : Option Nat := none
  deriving DecidableEq, Repr

/-- A lease entry: the three words of R430, the time its state began and what its test found. -/
structure Lease where
  index : Nat
  w0 : Word
  w1 : Word
  w2 : Word
  since : Nat
  passed : Bool
  failing : BitVec 16
  syndrome : Word
  started : Bool
  deriving DecidableEq, Repr

/-- The evacuation of a store tile or bank (R72): its source and its spare, the 64-byte blocks copied, and, once the map names the spare, the
accesses on their way to the source that it still waits for. -/
structure Evac where
  source : Psn
  target : Psn
  done : Nat
  waits : Option (List Nat)
  deriving DecidableEq, Repr

/-- The registers and engines of a region's Lantern. -/
structure Region where
  number : Nat
  lmapCore : Vector (BitVec 16) 256
  lmapStore : Vector (BitVec 16) 224
  exbMap : Vector (BitVec 8) 44
  tombWindow : Word
  namePrefix : BitVec 6
  dirSel : Word
  tombs : List Tomb
  /-- the last 32 floods that the Lantern has seen through its port (R32), and the channels of handle 31: source name, destination name, the next
  number to send and the next to take (R92, R31; log entry 122) -/
  floods : List (BitVec 24 × Nat × BitVec 16) := []
  posts : List (BitVec 24 × BitVec 24 × BitVec 16 × BitVec 16) := []
  graphRoot : Vector Word 32
  invalStat : Word
  /-- the invalidation in progress: the items that used a dropped entry -/
  invalWaits : List Nat
  l2 : List Tlb
  walks : List Walk
  splices : Vector (BitVec 128) 16
  spliceVa : List (Nat × Nat)
  runqAge : Word
  ringIdle : Word
  moveStat : Word
  move : Option Move
  /-- moves and stage changes (R412): 0 and an actor (context × 2^16 + number) or 1 and a core, then the time -/
  moveLog : List (Nat × Nat × Nat)
  graphStat : Word
  ctxSave : Vector Word 32
  hangCfg : Word
  hangMap : Word
  /-- the TSC of the last progress in the region (R425) -/
  progress : Nat
  rings : List Ring
  trees : List Tree
  clusters : List (Nat × Cluster)
  lpCfg : Word
  leaseStart : Word
  leaseResult : Word
  leaseSel : Word
  scoreSel : Word
  leases : List Lease
  nextLease : Nat
  lastSweep : Nat
  tested : List (BitVec 32 × Nat)
  log : List (BitVec 256)
  logCount : Nat
  inbox : List (List Byte)
  retiring : List (BitVec 32 × Nat × Nat)
  /-- the time of the governor's last sample (R406) -/
  governed : Nat
  evacs : List Evac := []
  deriving DecidableEq, Repr

/-- One DRAM actor (R104, R123). `slots` are hold slots in use: channel, slot and the two words of R124; `rows` the active rows:
channel, bank, subarray and row. -/
structure Actor where
  stack : Nat
  cfg : Word
  chanMap : Vector (BitVec 8) 32
  quota : Vector (BitVec 12) 32
  holdSel : Word
  slots : List (Nat × Nat × BitVec 128)
  rows : List (Nat × Nat × Nat × Nat)
  chanState : Vector (BitVec 3) 34
  deriving DecidableEq, Repr

/-- A host-service core's registers (R441) and the barrier it serves (R444). -/
structure HostCore where
  compWin : Word
  rqBase : Word
  rqCtl : Word
  cqBase : Word
  cqCtl : Word
  /-- the request taken and not yet complete -/
  request : Option (BitVec 512)
  acks : List Nat
  /-- the bytes of a READ or WRITE that have been copied (R443) -/
  copied : Nat := 0
  deriving DecidableEq, Repr

/-- A graph (R395 to R403). `stat` is the STATE of R419. -/
structure Graph where
  id : Nat
  ctx : Nat
  regions : BitVec 80
  header : BitVec 1024
  image : List Byte
  stat : Nat
  armed : Bool
  preds : List Nat
  /-- predecessors that have ended, and those whose visibility has been posted on each core (R313) -/
  predEnded : List Nat
  posted : List (Nat × Psn)
  hinted : Bool
  actors : List (Nat × Psn × Nat)
  unarmed : List Psn
  haltAt : Option Nat
  halted : List Psn
  pendingReplies : List (Psn × Nat × Option (List Byte) × Bool)
  heldNotes : List (Psn × List Byte)
  saved : List (Nat × Nat × Core)
  savedTiles : List (Nat × Nat × Tile)
  /-- the store tiles the image names: region and index; items in flight that a parked graph keeps -/
  stores : List (Nat × Nat) := []
  kept : List Item := []
  /-- predecessors still to be launched (R403), and the host-service core whose LAUNCH waits for the arming (R397) -/
  awaited : List Nat := []
  launcher : Option Nat := none
  deriving DecidableEq, Repr

/-- Who acts next (log entry 4): a step of another agent happens, time passes, another core is looked at; a bit error befalls a 64-bit word of
memory (log entry 114), the companion's processor stores to its own memory (log entry 120). -/
inductive Turn where
  | occur (e : Instr)
  | elapse (ticks : Nat)
  | switch (core : Psn)
  | upset (word : Nat) (fatal : Bool)
  | companion (offset : Nat) (bytes : List Byte)
  deriving DecidableEq, Repr

/-- The module's own registers and what the monitor holds. -/
structure Module where
  pwr : Word
  id : BitVec 20
  grades : Vector (BitVec 32) 4
  keySlots : List (Nat × BitVec 512)
  signers : List (List Byte)
  kek : BitVec 256
  xmssIndex : Nat
  xmssSpent : Bool
  recordSeq : Nat
  archive : List (List Byte)
  wear : List (Nat × List Nat)
  wearPeak : List (Nat × Int × Int × Bool)
  scores : List (BitVec 32 × BitVec 16)
  retired : List (BitVec 32)
  retirePending : List (BitVec 32)
  endedIds : List (Nat × Nat)
  monitorLog : List (Nat × Psn × FaultInfo)
  underWindows : Nat
  hotClusters : List (Nat × Nat)
  lowPower : Bool
  booted : Bool
  ports : List (Nat × Word × Word × Word)
  /-- halvings of the scores so far (R428) -/
  halved : Nat := 0
  /-- the archive failed beyond repair at boot: only ATTEST is answered (R458) -/
  monitorOnly : Bool := false
  /-- the logical maps as the last boot has recorded them in the archive, by region: cores, store tiles, banks (R20, R458) -/
  maps : List (Nat × List (BitVec 16) × List (BitVec 16) × List (BitVec 8)) := []
  deriving DecidableEq, Repr

/-- The machine. -/
structure State where
  /-- the core whose instruction the next step issues -/
  core : Core
  cores : List Core
  tiles : List Tile
  routers : List (Psn × Router)
  regions : List Region
  actors : List Actor
  hosts : Vector HostCore 4
  graphs : List Graph
  module : Module
  tsc : Word
  /-- memory: the cells that differ from what an unlisted address reads as, addresses strictly rising (log entries 2 and 8) -/
  mem : List Host.Cell
  /-- the granules whose tag is set, by granule number, strictly rising -/
  tags : List Nat
  /-- 64-bit words of memory whose ECC finds an error, by number, with whether it is uncorrectable (R76, R79, R114; log entry 114), and the
  errors that reads have met since scores were last added to (R428): a place and an addition -/
  upsets : List (Nat × Bool)
  eccSeen : List (Nat × Nat)
  /-- the model's own: items in flight, the next number, the free-value counter, and who acts next -/
  flight : List Item
  nextId : Nat
  nextSerial : Nat
  free : Nat
  schedule : List Turn
  /-- the default arbiter's place among the steps of other agents (log entry 4) -/
  cursor : Nat
  /-- the source of the last scheduled step at this TSC, 0 before the first (R8) -/
  lastSource : Nat
  deriving DecidableEq, Repr

/-! Reset values. -/

def Cap.null : Cap := { tag := false, bits := 0 }

/-- An accumulator at reset: EXACT zero (R364). -/
def Acc.zero : Acc :=
  { f64 := false, cells := Vector.replicate 256 0, nan := 0, pinf := 0, ninf := 0, progress := 0 }

/-- Registers at reset: the spec gives the capability registers (R43) and the tokens (R149); the others are zero (log entry 1). -/
def Regs.reset : Regs :=
  { g := Vector.replicate 64 0, v := Vector.replicate 32 0, p := Vector.replicate 8 0, c := Vector.replicate 16 Cap.null,
    pc := 0, fetch := Cap.null, tok := Vector.replicate 8 [] }

/-- A handler entry at reset (R176): WIN_M1 7, HANDLE 0x1F. -/
def handlerReset : BitVec 128 := BitVec.ofNat 128 (7 * 2 ^ 111 + 0x1F * 2 ^ 103)
/-- Entry 19 is always bound to handle 19 (R176). -/
def handlerReset19 : BitVec 128 := BitVec.ofNat 128 (7 * 2 ^ 111 + 19 * 2 ^ 103)
/-- Input and output queue descriptors at reset: DEPTH_M1 1 (R90, R91), CREDITS 2 (log entry 131). -/
def inQueueReset : BitVec 128 := BitVec.ofNat 128 (1 * 2 ^ 96)
def outQueueReset : BitVec 128 := BitVec.ofNat 128 (1 * 2 ^ 84 + 2 * 2 ^ 39)
/-- TILE_CLK (R450): BIN 15 (nominal, log entry 14), CAP 17, RUN 150, MV 750. -/
def tileClkReset : Word := BitVec.ofNat 64 (15 * 2 ^ 59 + 17 * 2 ^ 54 + 150 * 2 ^ 46 + 750 * 2 ^ 34)

/-- The boot map of log entry 5: logical core n of a region is physical core n. -/
def bootLogical (psn : Psn) : BitVec 15 :=
  if psn / 2 ^ 20 = 0 ∧ psn % 2 ^ 13 < 256 then BitVec.ofNat 15 (psn / 2 ^ 13 % 128 * 256 + psn % 2 ^ 13) else 0x7FFF
def bootName (psn : Psn) : BitVec 24 :=
  if psn / 2 ^ 20 = 0 ∧ psn % 2 ^ 13 < 256 then BitVec.ofNat 24 (psn / 2 ^ 13 % 128 * 256 + psn % 2 ^ 13) else 0xFFFFFF

def Core.reset (psn : Psn) : Core :=
  { psn, regs := Regs.reset, act := none, pend := [], waiting := false, acc := Vector.replicate 4 Acc.zero, ringClaims := 0,
    matOps := [], matMode := false, diag := false, wick := 0, wickOn := false,
    handlers := (Vector.replicate 20 handlerReset).set 19 handlerReset19,
    queues := Vector.ofFn (fun h : Fin 32 => if h.val < 20 then inQueueReset else outQueueReset),
    queueOk := 0, endOwed := 0, chans := [], arrivals := [], turns := [], stash := [], staged := [], moved := [],
    q := Vector.replicate 64 0, runq := [], copies := Vector.replicate 8 { queue := [] }, batch := [], batches := [],
    streams := Vector.replicate 4 none, drains := [], name := bootName psn, logical := bootLogical psn, namePrefix := 0,
    homeStore := 0xFF, itlb := [], dtlb := [], caught := [], snuff := 0, unsent := [], tileClk := tileClkReset, energy := 0,
    matches_ := Vector.replicate 64 0, inject := Vector.replicate 16 0, ringMember := 0, ringOp := 0,
    ringHdr := Vector.replicate 8 0, ringSlot := Vector.replicate 8 0, ringCome := 0, firings := [], sealed := false, reinject := 0,
    oppositeAt := (0, 0), credRound := [], halting := false, live := true }

def Tile.reset (psn : Psn) : Tile :=
  { psn, segCfg := Vector.replicate 8 0, full := Vector.replicate 8 0, head := Vector.replicate 8 0,
    tail := Vector.replicate 8 0, lcount := Vector.replicate 8 0, reconf := [], sq := Vector.replicate 16 0, records := [],
    stages := Vector.replicate 16 0, stageBusy := [], generators := [], tileClk := tileClkReset, live := true,
    withdrawn := false }

def Router.reset : Router :=
  { table := [], floods := [], audit := Vector.replicate 5 0, links := [], cut := [] }

/-- The physical position of a tile of kind `parity` (0 core, 1 store tile) with index i (R12). -/
def tileX (parity i : Nat) : Nat := 2 * (i % 12) + (i / 12 + parity) % 2
def tileY (i : Nat) : Nat := i / 12
/-- Whether a store tile lies inside the perimeter (R14, R15). -/
def interior (i : Nat) : Bool :=
  decide (1 ≤ tileX 1 i ∧ tileX 1 i ≤ 22 ∧ 1 ≤ tileY i ∧ tileY i ≤ 22)

/-- The interior store tiles in ascending physical index: the boot store map of log entry 5. -/
def interiorTiles : List Nat := (List.range 288).filter interior

def Region.reset (number : Nat) : Region :=
  { number
    lmapCore := Vector.ofFn (fun n : Fin 256 => BitVec.ofNat 16 (0x8000 + n.val))
    lmapStore := Vector.ofFn (fun n : Fin 224 => BitVec.ofNat 16 (0x8000 + interiorTiles.getD n.val 0))
    exbMap := Vector.ofFn (fun n : Fin 44 => BitVec.ofNat 8 (0x80 + n.val))
    tombWindow := 64000, namePrefix := 0, dirSel := 0, tombs := [], graphRoot := Vector.replicate 32 0, invalStat := 0,
    invalWaits := [], l2 := [], walks := [], splices := Vector.replicate 16 0, spliceVa := [], runqAge := 65536, ringIdle := 16384,
    moveStat := 0, move := none, moveLog := [], graphStat := 0, ctxSave := Vector.replicate 32 0,
    hangCfg := BitVec.ofNat 64 (2 ^ 63 + 24), hangMap := 0, progress := 0, rings := [], trees := [], clusters := [],
    lpCfg := BitVec.ofNat 64 (2 ^ 63 + 0x4E94914F0000), leaseStart := 0, leaseResult := 0, leaseSel := 0, scoreSel := 0,
    leases := [], nextLease := 1, lastSweep := 0, tested := [], log := [], logCount := 0, inbox := [], retiring := [], governed := 0 }

/-- A power cluster at reset: RAIL_GOOD is 1 (R454). -/
def Cluster.reset : Cluster :=
  { ctl := 0, stat := BitVec.ofNat 64 (2 ^ 59), retAddr := 0, event := 0, wake := none, saving := false, cores := [],
    tiles := [], held := [] }

def Actor.reset (stack : Nat) : Actor :=
  { stack, cfg := 31, chanMap := Vector.ofFn (fun i : Fin 32 => BitVec.ofNat 8 i.val), quota := Vector.replicate 32 0,
    holdSel := 0, slots := [], rows := [],
    chanState := Vector.ofFn (fun i : Fin 34 => if i.val < 32 then 0 else 1) }

def HostCore.reset : HostCore :=
  { compWin := 0, rqBase := 0, rqCtl := 0, cqBase := 0, cqCtl := 0, request := none, acks := [] }

/-- GRADE at reset for the boot of log entry 5: every tile live at 1,500 MHz (R23). Each half of the wafer has 40 regions of
44 banks at 64 bytes and 15 hundred-megahertz steps a cycle: 168,960 GB/s. -/
def gradesReset : Vector (BitVec 32) 4 :=
  #v[BitVec.ofNat 32 (80 * 288), BitVec.ofNat 32 168960, BitVec.ofNat 32 (80 * (288 * 512 + 288 * 112) / 1024),
     BitVec.ofNat 32 28]

def Module.reset : Module :=
  { pwr := 0, id := 0, grades := gradesReset, keySlots := [], signers := [], kek := 0, xmssIndex := 0, xmssSpent := false,
    recordSeq := 0, archive := [], wear := [], wearPeak := [], scores := [], retired := [], retirePending := [],
    endedIds := [], monitorLog := [], underWindows := 0, hotClusters := [], lowPower := false, booted := false, ports := [] }

/-- The machine right after reset: every field at the value the spec gives, or at the one log entries 1, 2, 4, 5 and 14 name. -/
def State.reset : State :=
  { core := Core.reset 0, cores := [], tiles := [], routers := [], regions := [], actors := [],
    hosts := Vector.replicate 4 HostCore.reset, graphs := [], module := Module.reset, tsc := 0, mem := [], tags := [], upsets := [],
    eccSeen := [],
    flight := [], nextId := 1, nextSerial := 1, free := 0, schedule := [], cursor := 0, lastSource := 0 }

end Sys2Proof.Machine
end

