-- ==== Sys2Proof/Machine/Num.lean ====
section
/-! DEFINITION. Arithmetic (chapters 05 and 10): integers of the element widths, and the IEEE formats through exact values, each result
the exact one rounded once. -/
namespace Sys2Proof.Machine
open Sys2Proof

/-! Integers (R129, R254, R255). -/

/-- The low n bits of a register as the type reads them: signed for .i, unsigned for .n (R254). -/
def intOf (t : TyCode) (v : Nat) : Int := if isSigned t then signedOf (elemBits t) v else ((v % 2 ^ elemBits t : Nat) : Int)
def minOf (t : TyCode) : Int := if isSigned t then -(2 ^ (elemBits t - 1) : Int) else 0
def maxOf (t : TyCode) : Int := if isSigned t then 2 ^ (elemBits t - 1) - 1 else 2 ^ elemBits t - 1
def clamp (lo hi x : Int) : Int := if x < lo then lo else if hi < x then hi else x
/-- The n bits of a result: clamped under SAT, wrapped otherwise (R254). -/
def wrapInt (t : TyCode) (sat : Bool) (x : Int) : Nat :=
  ((if sat then clamp (minOf t) (maxOf t) x else x) % (2 ^ elemBits t : Int)).toNat
/-- An n-bit result in a g register: sign-extended for .i, zero-extended otherwise (R254, R264). -/
def extend (t : TyCode) (r : Nat) : Word :=
  if isSigned t then BitVec.ofInt 64 (signedOf (elemBits t) r) else BitVec.ofNat 64 (r % 2 ^ elemBits t)

/-- Division toward zero with the corners of R255. -/
def divInt (t : TyCode) (a b : Int) : Int := if b = 0 then -1 else if a = minOf t ∧ b = -1 ∧ isSigned t then a else Int.tdiv a b
def remInt (t : TyCode) (a b : Int) : Int := if b = 0 then a else if a = minOf t ∧ b = -1 ∧ isSigned t then 0 else Int.tmod a b

/-- The number of leading and trailing zeros and of ones among n bits (R266). -/
def clzN (n v : Nat) : Nat := if v = 0 then n else n - 1 - v.log2
def ctzN (n v : Nat) : Nat :=
  match n with
  | 0 => 0
  | k + 1 => if v % 2 = 1 then 0 else 1 + ctzN k (v / 2)
def popN (n v : Nat) : Nat :=
  match n with
  | 0 => 0
  | k + 1 => v % 2 + popN k (v / 2)
/-- Bit i moves to bit n − 1 − i. -/
def revN (n v : Nat) : Nat :=
  match n with
  | 0 => 0
  | k + 1 => v % 2 * 2 ^ k + revN k (v / 2)
/-- Byte i moves to byte n − 1 − i. -/
def swapN (n v : Nat) : Nat :=
  match n with
  | 0 => 0
  | k + 1 => v % 256 * 256 ^ k + swapN k (v / 256)

/-! The IEEE formats (R130). -/

def fracBits (t : TyCode) : Nat := if t = 8 then 10 else if t = 9 then 7 else if t = 10 then 23 else 52
def expBits (t : TyCode) : Nat := if t = 8 then 5 else if t = 9 ∨ t = 10 then 8 else 11
def expBias (t : TyCode) : Nat := 2 ^ (expBits t - 1) - 1
/-- The canonical quiet NaN (R130). -/
def qnan (t : TyCode) : Nat := (2 ^ (expBits t + 1) - 1) * 2 ^ (fracBits t - 1)
def infBits (t : TyCode) (neg : Bool) : Nat := (neg.toNat * 2 ^ expBits t + (2 ^ expBits t - 1)) * 2 ^ fracBits t
def maxFinite (t : TyCode) (neg : Bool) : Nat := infBits t neg - 1
def zeroBits (t : TyCode) (neg : Bool) : Nat := neg.toNat * 2 ^ (expBits t + fracBits t)
def signOf (t : TyCode) (v : Nat) : Bool := v / 2 ^ (expBits t + fracBits t) % 2 == 1

/-- The value of an encoding (R130); every encoding is valid. -/
def fpOf (t : TyCode) (v : Nat) : Fp :=
  let fb := fracBits t
  let e := v / 2 ^ fb % 2 ^ expBits t
  let f := v % 2 ^ fb
  let neg := signOf t v
  if e = 2 ^ expBits t - 1 then (if f = 0 then .inf neg else .nan)
  else if e = 0 then .fin neg f (1 - (expBias t : Int) - fb)
  else .fin neg (2 ^ fb + f) ((e : Int) - expBias t - fb)

/-- Whether a magnitude `q` plus a part (`half`: −1 below one half, 0 exactly, 1 above; `exact`: no part) rounds up (R250). -/
def roundsUp (rm : BitVec 2) (neg : Bool) (q : Nat) (half : Int) (exact : Bool) : Bool :=
  if exact then false
  else if rm = 0 then decide (half > 0) || (decide (half = 0) && q % 2 == 1)
  else if rm = 1 then false
  else if rm = 2 then neg else !neg

/-- m × 2^−k rounded to a whole magnitude; `sticky` says that a nonzero part lies below m. -/
def roundShift (rm : BitVec 2) (neg : Bool) (m k : Nat) (sticky : Bool) : Nat :=
  let q := m / 2 ^ k
  let r := m % 2 ^ k
  let half : Int :=
    if k = 0 then -1
    else if r < 2 ^ (k - 1) then -1 else if r = 2 ^ (k - 1) ∧ !sticky then 0 else 1
  if roundsUp rm neg q half (r = 0 && !sticky) then q + 1 else q

/-- What overflows becomes (R251). -/
def overflow (t : TyCode) (rm : BitVec 2) (neg : Bool) : Nat :=
  if rm = 0 then infBits t neg
  else if rm = 1 then maxFinite t neg
  else if rm = 2 then (if neg then infBits t true else maxFinite t false)
  else (if neg then maxFinite t true else infBits t false)

/-- (−1)^neg × m × 2^e (and a part below m when `sticky`), m not zero, rounded once into the format (R250 to R252). With
`sticky`, m has more bits than the format's significand. -/
def roundTo (t : TyCode) (rm : BitVec 2) (neg : Bool) (m : Nat) (e : Int) (sticky : Bool) : Nat :=
  let fb := fracBits t
  let top : Int := e + m.log2
  let q : Int := max (top - fb) (1 - (expBias t : Int) - fb)
  let mant := if q ≤ e then m * 2 ^ (e - q).toNat else roundShift rm neg m (q - e).toNat sticky
  let field := if mant < 2 ^ fb then 0 else (q + fb + expBias t).toNat
  let body := if mant < 2 ^ fb then mant else field * 2 ^ fb + (mant - 2 ^ fb)
  if (2 ^ expBits t - 1) * 2 ^ fb ≤ body then overflow t rm neg else zeroBits t neg + body

/-- The encoding of an exact value (R250, R253). -/
def encodeFp (t : TyCode) (rm : BitVec 2) (x : Fp) : Nat :=
  match x with
  | .nan => qnan t
  | .inf neg => infBits t neg
  | .fin neg m e => if m = 0 then zeroBits t neg else roundTo t rm neg m e false

/-- The signed integer of a finite value over the exponent e, which is not above the value's own. -/
def scaled (neg : Bool) (m : Nat) (e₀ e : Int) : Int :=
  let v : Int := (m : Int) * 2 ^ (e₀ - e).toNat
  if neg then -v else v

/-- An exact sum. A zero keeps the common sign of zero operands, else it is +0, or −0 in RDN (R251). -/
def fpAdd (rm : BitVec 2) (a b : Fp) : Fp :=
  match a, b with
  | .nan, _ => .nan
  | _, .nan => .nan
  | .inf s, .inf u => if s = u then .inf s else .nan
  | .inf s, _ => .inf s
  | _, .inf u => .inf u
  | .fin s m e, .fin u n f =>
    let k := min e f
    let v := scaled s m e k + scaled u n f k
    if v = 0 then .fin (if s = u then s else rm = 2) 0 0 else .fin (decide (v < 0)) v.natAbs k

def fpNeg (a : Fp) : Fp :=
  match a with
  | .nan => .nan
  | .inf s => .inf (!s)
  | .fin s m e => .fin (!s) m e

def fpMul (a b : Fp) : Fp :=
  match a, b with
  | .nan, _ => .nan
  | _, .nan => .nan
  | .inf s, .inf u => .inf (s != u)
  | .inf s, .fin u n _ => if n = 0 then .nan else .inf (s != u)
  | .fin s m _, .inf u => if m = 0 then .nan else .inf (s != u)
  | .fin s m e, .fin u n f => .fin (s != u) (m * n) (e + f)

/-- A quotient rounded once (R269). -/
def divTo (t : TyCode) (rm : BitVec 2) (a b : Fp) : Nat :=
  match a, b with
  | .nan, _ => qnan t
  | _, .nan => qnan t
  | .inf _, .inf _ => qnan t
  | .inf s, .fin u _ _ => infBits t (s != u)
  | .fin s _ _, .inf u => zeroBits t (s != u)
  | .fin s m e, .fin u n f =>
    if n = 0 then (if m = 0 then qnan t else infBits t (s != u))
    else if m = 0 then zeroBits t (s != u)
    else
      let k := n.log2 + 70
      let q := m * 2 ^ k / n
      roundTo t rm (s != u) q (e - f - k) (decide (m * 2 ^ k % n ≠ 0))

/-- The whole square root of n, found bit by bit from bit i − 1 down, over what is found so far. -/
def sqrtBits (n i r : Nat) : Nat :=
  match i with
  | 0 => r
  | j + 1 => if (r + 2 ^ j) * (r + 2 ^ j) ≤ n then sqrtBits n j (r + 2 ^ j) else sqrtBits n j r
def isqrt (n : Nat) : Nat := sqrtBits n (n.log2 / 2 + 1) 0

/-- A square root rounded once; √−0 is −0 and a value below zero gives NaN (R269). -/
def sqrtTo (t : TyCode) (rm : BitVec 2) (a : Fp) : Nat :=
  match a with
  | .nan => qnan t
  | .inf s => if s then qnan t else infBits t false
  | .fin s m e =>
    if m = 0 then zeroBits t s
    else if s then qnan t
    else
      let k : Nat := if e % 2 = 0 then 140 else 141
      let n := m * 2 ^ k
      let r := isqrt n
      roundTo t rm false r ((e - k) / 2) (decide (r * r ≠ n))

/-- A finite value rounded to an integer (R257). -/
def roundInt (rm : BitVec 2) (neg : Bool) (m : Nat) (e : Int) : Int :=
  let q : Nat := if 0 ≤ e then m * 2 ^ e.toNat else roundShift rm neg m (-e).toNat false
  if neg then -(q : Int) else q

/-- A value converted to an integer type: rounded, then clamped whatever SAT says (R257). -/
def toInt (t : TyCode) (rm : BitVec 2) (a : Fp) : Int :=
  match a with
  | .nan => 0
  | .inf s => if s then minOf t else maxOf t
  | .fin s m e => clamp (minOf t) (maxOf t) (roundInt rm s m e)

/-- An integer as an exact value. -/
def fpOfInt (x : Int) : Fp := .fin (decide (x < 0)) x.natAbs 0

/-- A value rounded to an integral value of its own format (R269). -/
def roundIntegral (t : TyCode) (rm : BitVec 2) (v : Nat) : Nat :=
  match fpOf t v with
  | .nan => qnan t
  | .inf s => infBits t s
  | .fin s m e =>
    if m = 0 then zeroBits t s
    else
      let q := (roundInt rm s m e).natAbs
      if q = 0 then zeroBits t s else roundTo t rm s q 0 false

/-- Order of two values that are not NaN, −0 and +0 equal (R270). -/
def fpLt (a b : Fp) : Bool :=
  match a, b with
  | .nan, _ => false
  | _, .nan => false
  | .inf s, .inf u => s && !u
  | .inf s, .fin _ _ _ => s
  | .fin _ _ _, .inf u => !u
  | .fin s m e, .fin u n f => decide (scaled s m e (min e f) < scaled u n f (min e f))
def fpEq (a b : Fp) : Bool :=
  match a, b with
  | .nan, _ => false
  | _, .nan => false
  | .inf s, .inf u => s == u
  | .fin s m e, .fin u n f => decide (scaled s m e (min e f) = scaled u n f (min e f))
  | _, _ => false
def isNaN (a : Fp) : Bool :=
  match a with
  | .nan => true
  | _ => false

/-- FMIN and FMAX (R253): the other operand for one NaN, the canonical NaN for two, −0 below +0. -/
def fpMinMax (t : TyCode) (max : Bool) (a b : Nat) : Nat :=
  let x := fpOf t a
  let y := fpOf t b
  let lo := if fpEq x y then (if signOf t a then a else b) else if fpLt x y then a else b
  let hi := if fpEq x y then (if signOf t a then b else a) else if fpLt x y then b else a
  if isNaN x then (if isNaN y then qnan t else b) else if isNaN y then a else if max then hi else lo

/-- The class bit of FCLASS (R270). -/
def classBit (t : TyCode) (v : Nat) : Nat :=
  match fpOf t v with
  | .nan => if v / 2 ^ (fracBits t - 1) % 2 = 1 then 9 else 8
  | .inf s => if s then 0 else 7
  | .fin s m _ =>
    if m = 0 then (if s then 3 else 4)
    else if m < 2 ^ fracBits t then (if s then 2 else 5)
    else if s then 1 else 6

/-- The low bits of a register that a float type reads (R264). -/
def low (t : TyCode) (v : Nat) : Nat := v % 2 ^ elemBits t

/-! One element operation for scalars and lanes alike: the low bits in, the element's bits out. -/

/-- ADD, SUB and MUL (R266, R269). -/
def elemAdd (t : TyCode) (rm : BitVec 2) (sat : Bool) (a b : Nat) : Nat :=
  if isFloat t then encodeFp t rm (fpAdd rm (fpOf t (low t a)) (fpOf t (low t b)))
  else wrapInt t sat (intOf t a + intOf t b)
def elemSub (t : TyCode) (rm : BitVec 2) (sat : Bool) (a b : Nat) : Nat :=
  if isFloat t then encodeFp t rm (fpAdd rm (fpOf t (low t a)) (fpNeg (fpOf t (low t b))))
  else wrapInt t sat (intOf t a - intOf t b)
def elemMul (t : TyCode) (rm : BitVec 2) (sat : Bool) (a b : Nat) : Nat :=
  if isFloat t then encodeFp t rm (fpMul (fpOf t (low t a)) (fpOf t (low t b)))
  else wrapInt t sat (intOf t a * intOf t b)
/-- a × b ± c, rounded once (R269, R353). -/
def elemFma (t : TyCode) (rm : BitVec 2) (sat neg : Bool) (a b c : Nat) : Nat :=
  if isFloat t then
    let z := fpOf t (low t c)
    encodeFp t rm (fpAdd rm (fpMul (fpOf t (low t a)) (fpOf t (low t b))) (if neg then fpNeg z else z))
  else wrapInt t sat (intOf t a * intOf t b + (if neg then -intOf t c else intOf t c))
def elemMin (t : TyCode) (max : Bool) (a b : Nat) : Nat :=
  if isFloat t then fpMinMax t max (low t a) (low t b)
  else
    let x := intOf t a
    let y := intOf t b
    low t (if (decide (x ≤ y)) != max then a else b)
def elemAbs (t : TyCode) (sat : Bool) (a : Nat) : Nat :=
  if isFloat t then low t a % 2 ^ (elemBits t - 1) else wrapInt t sat (intOf t a).natAbs
def elemNeg (t : TyCode) (sat : Bool) (a : Nat) : Nat :=
  if isFloat t then (low t a + 2 ^ (elemBits t - 1)) % 2 ^ elemBits t else wrapInt t sat (-intOf t a)
def elemDiv (t : TyCode) (rm : BitVec 2) (a b : Nat) : Nat := divTo t rm (fpOf t (low t a)) (fpOf t (low t b))
def elemSqrt (t : TyCode) (rm : BitVec 2) (a : Nat) : Nat := sqrtTo t rm (fpOf t (low t a))
/-- SHL, SHR and SHA by the low n bits of the count, unsigned (R266). -/
def elemShl (t : TyCode) (sat : Bool) (a b : Nat) : Nat :=
  let s := low t b
  if elemBits t ≤ s then
    (if sat then wrapInt t true (intOf t a * 2 ^ elemBits t) else 0)
  else wrapInt t sat (intOf t a * 2 ^ s)
def elemShr (t : TyCode) (a b : Nat) : Nat := let s := low t b; if elemBits t ≤ s then 0 else low t a / 2 ^ s
def elemSha (t : TyCode) (a b : Nat) : Nat :=
  let n := elemBits t
  let s := low t b
  let x := signedOf n a
  wrapInt t false (if n ≤ s then (if x < 0 then -1 else 0) else x / 2 ^ s)

/-- The conditions of R267 and R270: eq, ne, lt, le, gt, ge, un. -/
def elemCmp (t : TyCode) (cond a b : Nat) : Bool :=
  if isFloat t then
    let x := fpOf t (low t a)
    let y := fpOf t (low t b)
    let un := isNaN x || isNaN y
    match cond with
    | 0 => fpEq x y
    | 1 => un || !fpEq x y
    | 2 => fpLt x y
    | 3 => !un && !fpLt y x
    | 4 => fpLt y x
    | 5 => !un && !fpLt x y
    | _ => un
  else
    let x := intOf t a
    let y := intOf t b
    match cond with
    | 0 => decide (x = y)
    | 1 => decide (x ≠ y)
    | 2 => decide (x < y)
    | 3 => decide (x ≤ y)
    | 4 => decide (y < x)
    | _ => decide (y ≤ x)

/-- Any scalar value as an exact value. -/
def valueOf (t : TyCode) (v : Nat) : Fp := if isFloat t then fpOf t (low t v) else fpOfInt (intOf t v)

/-- A conversion between scalar types (R256, R257): float results round, float to integer clamps, integer to integer wraps or clamps. -/
def elemCvt (t src : TyCode) (rm : BitVec 2) (sat : Bool) (v : Nat) : Nat :=
  if isFloat t then encodeFp t rm (valueOf src v)
  else if isFloat src then wrapInt t false (toInt t rm (fpOf src (low src v)))
  else wrapInt t sat (intOf src v)

end Sys2Proof.Machine
end

