-- ==== Sys2Proof/Config.lean ====
section
/-! DEFINITION. The free values: constants without a body, for every value the spec leaves open. Nothing in Lean can evaluate one,
so a statement holds whatever they are. Each takes the free-value counter of the state or the operands it depends on. -/
namespace Sys2Proof.Config
open Sys2Proof

/-- The energy in microjoules that a core's rail monitor adds in an interval (R452 defines no rate). -/
opaque energyStep : Nat → Nat
/-- SHAKE256 with a 32-byte output (FIPS 202, an outside standard; R447, R458). -/
opaque shake256 : List Byte → List Byte
/-- XMSS-SHAKE_20_256 signing with an index (RFC 8391, an outside standard; R447): 2,820 bytes. -/
opaque xmssSign : Nat → List Byte → List Byte
/-- XMSS-SHAKE_20_256 verification of a message under a public key (R448). -/
opaque xmssVerify : List Byte → List Byte → List Byte → Bool
/-- The bytes of the monitor's and the region firmware's images (R447 hashes them). -/
opaque monitorFirmware : List Byte
opaque regionFirmware : Nat → List Byte
/-- The monitor's power headroom decision on a lease acceptance (R432) and on a launch (R397 status 0x07). -/
opaque headroom : Nat → Bool
/-- The rail voltage in mV of a tile at a bin, from the training archive (R449). -/
opaque railVoltage : Nat → Nat → BitVec 12
/-- The test time of a lease that a score or the sweep proposes (R431 states none). -/
opaque leaseDuration : BitVec 15
/-- The highest clock bin that a leased core passes (R433, R434). -/
opaque passingBin : Nat → BitVec 5
/-- The capacity of a link in MHz (R184, R438 give no link clock). -/
opaque linkCapacity : BitVec 32 → BitVec 16

/-! The records of an image whose layout R398 does not give, read from an image and a section of it. -/

/-- Actor records: actor number, home store index (none: the loader chooses, R189), WID_BASE and the logical cores that host the actor; no
list when a record reaches outside. -/
opaque actorRecords : List Byte → List Byte → Option (List (Nat × Option Nat × Word × List Nat))
/-- Handler entries: actor, logical core, entry number, and the 128 bits of R176. -/
opaque handlerRecords : List Byte → Option (List (Nat × Nat × Nat × BitVec 128))
/-- Queue descriptors: logical core, handle, the bits of R90 or R91, and the logical cores of the producers in order (the receiver of an output). -/
opaque queueRecords : List Byte → Option (List (Nat × Nat × BitVec 128 × List Nat))
/-- A counter record of 16 bytes: logical core, reference, initial value. -/
opaque counterRecord : List Byte → Nat × Nat × Word
/-- Ring member lists: logical cores in ring order. -/
opaque ringRecords : List Byte → Option (List (List Nat))
/-- Match entries: logical core, entry number, and the word that RMSET takes (R386). -/
opaque matchRecords : List Byte → Option (List (Nat × Nat × Word))
/-- Segment configurations: region, store index, segment, SEG_CFG value. -/
opaque segmentRecords : List Byte → Option (List (Nat × Nat × Nat × Word))
/-- The ECC syndrome of an uncorrectable error at a place (R415). -/
opaque eccSyndrome : Nat → BitVec 16
/-- The size of the companion window in GiB, set once at boot (R441). -/
opaque companionWindow : BitVec 16
/-- RESULT of a LAUNCH whose graph is killed before it is armed (R397, R443 give none). -/
opaque killedLaunch : BitVec 8
/-- The completion status of a host copy that meets an error that cannot be corrected: R442 names none (log entry 132). -/
opaque hostErrorStatus : BitVec 8
/-- Whether a section of the training archive has a copy that verifies (R458): 0 retirement records and wear counters, 1 pattern
sets, 2 the module identity record, 3 the signing state. The others are rebuilt when they fail. -/
opaque archiveSound : Nat → Bool
/-- KIND, OBJECT, WANT, HAVE and AGE of a hang map's entry where the model tracks none (R426), by the free-value counter. -/
opaque blockedWord : Nat → BitVec 64
/-- DIST of a QUERY answer to a core of the Lantern, which has no tile (R439), by that core and the unit asked about. -/
opaque serviceDistance : Nat → Nat → BitVec 8
/-- The header that a BOUNCE message shows for a direct write (R415), which is no message of R92, by the free-value counter. -/
opaque directWriteHeader : Nat → BitVec 64
/-- The flits of a message or tile of some bytes (R101 counts flits and gives no size). -/
opaque flits : Nat → Nat
/-- The depth in flits of a lane's receive buffer (R101 gives none), by its port (above 4 a ring link's) and lane number. -/
opaque laneDepth : Nat → Nat → Nat
/-- The ticks of 1,024 link cycles (R101; the link clock is not given). -/
opaque auditIdle : Nat

end Sys2Proof.Config
end

