-- ==== Sys2Proof/WellFormed.lean ====
section
/-! DEFINITION. Which instructions the encodings admit (09 R243 step 2), and the ranges of the operands that name a unit
in a step of another agent (01 R12, R18, R19, 04 R104). -/
namespace Sys2Proof
open Sys2Proof.Machine

/-- Region numbers are 0 to 79 (R14). -/
def regionOk (region : Nat) : Bool := decide (region < 80)
/-- A stack, a logical channel of it and a third number below `limit` (R104, R105). -/
def stackOk (stack lchan third limit : Nat) : Bool := decide (stack < 32 ∧ lchan < 32 ∧ third < limit)

/-- The ranges of the numbers that a step of another agent carries. -/
def operandsOk (i : Instr) : Bool :=
  match i with
  | .namePrefixWrite r _ | .dirEntryWrite r _ | .tlbInvalPage r _ | .tlbInvalContext r _
  | .tlbInvalAll r _ | .tlbInvalComplete r | .governorSample r | .moveReq r _ | .moveCopy r | .graphPreempt r _
  | .graphResume r _ | .graphKill r _ | .hangFreeze r | .leaseReq r _ | .scoreCtlMismatch r | .scoreCtlRetire r
  | .sweepProposal r | .retirementNoticeExpiry r _ => regionOk r
  | .pageWalk w => regionOk w.region && decide (w.number < 8)
  | .spliceCopyComplete r e | .spliceFinish r e => regionOk r && decide (e < 16)
  | .segCfgWrite _ g _ | .segmentReconfigure _ g | .copyCommandStart _ g | .copyBlockWrite _ g => decide (g < 8)
  | .stagingSlotSend _ h => decide (20 ≤ h ∧ h < 32)
  | .linkAuditStart _ p l | .flitEccDrop _ p l | .creditCounterParityError _ p l => decide (1 ≤ p ∧ p ≤ 8 ∧ l < 4)
  | .rowLeaseExpiry s c n => stackOk s c n 64
  | .bankRefresh s c n => stackOk s c n 16
  | .channelMove s c n _ => stackOk s c n 34
  | .entryFire _ e => decide (e < 20)
  | .runqPromotion _ e => decide (e < 32)
  | .ringTileForward _ n => decide (n < 8)
  | .relightRequestSend _ e => decide (e < 64)
  | .ringCancel r g _ | .ringLeaseTimeout r g | .ringRerun r g => regionOk r && decide (g < 24)
  | .streamElementFetch _ n | .streamPushWrite _ n | .scoreboardEntryStart _ n => decide (n < 4)
  | .stageCoreRelease _ g | .stageItemDelivery _ g => decide (g < 16)
  | .leaseAckTimeout r e | .leaseDeferExpiry r e | .leaseStart r e | .leaseEvacuationDone r e | .leaseTestingEnd r e
  | .leaseRestoreDone r e | .retirementCountersigned r e | .testPatternResult r e _ _ => regionOk r && decide (e < 64)
  | .rqDoorbell h _ | .read h | .write h | .barrier h | .launch h | .graph h | .attest h | .keyload h | .keyclr h
  | .cancel h | .cqCtlHeadWrite h _ => decide (h < 4)
  | .pwrQuiesce r c | .clusterQuiesced r c | .retSave r c | .retentionSaveDone r c | .pwrWake r c | .clusterWakeDone r c
  | .railGoodTimeout r c => regionOk r && decide (c < 36)
  | _ => true

/-- An instruction is well formed when its encoding breaks no rule of R243 step 2 and its numbers name units that exist. -/
def wellFormed (i : Instr) : Bool := (encoding i).legal && operandsOk i

/-- Whether an instruction has an encoding; a step of another agent has none. -/
def hasEncoding (i : Instr) : Bool :=
  match encoding i with
  | .event => false
  | _ => true

end Sys2Proof
end

