-- ==== Sys2Proof/Decode.lean ====
section
/-! DEFINITION. Decoding and encoding (09 R222 to R229, R243). Decoding is total on any bytes: a parcel is split into the
fields of its format, the operation number finds the row, and the row's checks accept or refuse it; a refusal is
the ILLEGAL of R243 step 2. Lean's runtime holds at most 245 constructors with fields, so the tables that name
all of them are noncomputable; the kernel evaluates them. -/
namespace Sys2Proof
open Sys2Proof.Machine

/-! The tables: each row of Machine/Shape.lean with the constructor it decodes to. -/

noncomputable def longTable0 : List (LRow × (Long → Instr)) :=
  [(Shape.add, .add), (Shape.addc, .addc), (Shape.sub, .sub), (Shape.subb, .subb),
   (Shape.mul, .mul), (Shape.mulh, .mulh), (Shape.mulhn, .mulhn), (Shape.div, .div),
   (Shape.divn, .divn), (Shape.rem, .rem), (Shape.remn, .remn), (Shape.and, .and),
   (Shape.andn, .andn), (Shape.or, .or), (Shape.xor, .xor), (Shape.shl, .shl),
   (Shape.shr, .shr), (Shape.sha, .sha), (Shape.rol, .rol), (Shape.rotr, .rotr),
   (Shape.clz, .clz), (Shape.ctz, .ctz), (Shape.popc, .popc), (Shape.brev, .brev),
   (Shape.bswap, .bswap), (Shape.min, .min), (Shape.max, .max), (Shape.minn, .minn),
   (Shape.maxn, .maxn), (Shape.abs, .abs), (Shape.bfx, .bfx), (Shape.bfi, .bfi),
   (Shape.sel, .sel), (Shape.cmp, .cmp), (Shape.mov, .mov), (Shape.li, .li),
   (Shape.lih, .lih), (Shape.fadd, .fadd), (Shape.fsub, .fsub), (Shape.fmul, .fmul)]

noncomputable def longTable1 : List (LRow × (Long → Instr)) :=
  [(Shape.ffma, .ffma), (Shape.ffms, .ffms), (Shape.fdiv, .fdiv), (Shape.fsqrt, .fsqrt),
   (Shape.fmin, .fmin), (Shape.fmax, .fmax), (Shape.fabs, .fabs), (Shape.fneg, .fneg),
   (Shape.fcpys, .fcpys), (Shape.fcmp, .fcmp), (Shape.fclass, .fclass), (Shape.fcvt, .fcvt),
   (Shape.fcvti, .fcvti), (Shape.icvtf, .icvtf), (Shape.frnd, .frnd), (Shape.br, .br),
   (Shape.jmp, .jmp), (Shape.jmpi, .jmpi), (Shape.call, .call), (Shape.calli, .calli),
   (Shape.ret, .ret), (Shape.loops, .loops), (Shape.endI, .endI), (Shape.gang, .gang),
   (Shape.ungang, .ungang), (Shape.rejoin, .rejoin), (Shape.nop, .nop), (Shape.pand, .pand),
   (Shape.por, .por), (Shape.pxor, .pxor), (Shape.pnot, .pnot), (Shape.pmov, .pmov),
   (Shape.pmovFromG, .pmovFromG), (Shape.pmovToG, .pmovToG), (Shape.pcnt, .pcnt), (Shape.qinc, .qinc),
   (Shape.qadd, .qadd), (Shape.qrd, .qrd), (Shape.qpost, .qpost), (Shape.waitq, .waitq)]

noncomputable def longTable2 : List (LRow × (Long → Instr)) :=
  [(Shape.waitb, .waitb), (Shape.waitvis, .waitvis), (Shape.succhint, .succhint), (Shape.hwaitf, .hwaitf),
   (Shape.hwaite, .hwaite), (Shape.hld, .hld), (Shape.hst, .hst), (Shape.hadvc, .hadvc),
   (Shape.hadvp, .hadvp), (Shape.heos, .heos), (Shape.hstat, .hstat), (Shape.send, .send),
   (Shape.sendq, .sendq), (Shape.cred, .cred), (Shape.cderive, .cderive), (Shape.cperm, .cperm),
   (Shape.cseal, .cseal), (Shape.cunseal, .cunseal), (Shape.cbase, .cbase), (Shape.clen, .clen),
   (Shape.cperms, .cperms), (Shape.ctype, .ctype), (Shape.ctag, .ctag), (Shape.cclr, .cclr),
   (Shape.cmov, .cmov), (Shape.cldc, .cldc), (Shape.cstc, .cstc), (Shape.cchk, .cchk),
   (Shape.trap, .trap), (Shape.wick, .wick), (Shape.wid, .wid), (Shape.who, .who),
   (Shape.query, .query), (Shape.time, .time), (Shape.timeEnergy, .timeEnergy), (Shape.sysrd, .sysrd),
   (Shape.syswr, .syswr), (Shape.yield, .yield), (Shape.gate, .gate), (Shape.snuff, .snuff)]

noncomputable def longTable3 : List (LRow × (Long → Instr)) :=
  [(Shape.nameset, .nameset), (Shape.leaseack, .leaseack), (Shape.fresume, .fresume), (Shape.fresumeValue, .fresumeValue),
   (Shape.fkill, .fkill), (Shape.ld, .ld), (Shape.st, .st), (Shape.lda, .lda),
   (Shape.stl, .stl), (Shape.pf, .pf), (Shape.aadd, .aadd), (Shape.amin, .amin),
   (Shape.amax, .amax), (Shape.aand, .aand), (Shape.aor, .aor), (Shape.axor, .axor),
   (Shape.aswp, .aswp), (Shape.acas, .acas), (Shape.aaddf, .aaddf), (Shape.fence, .fence),
   (Shape.ojoin, .ojoin), (Shape.cpy, .cpy), (Shape.cpyHandle, .cpyHandle), (Shape.cpy4, .cpy4),
   (Shape.cpyg, .cpyg), (Shape.batch, .batch), (Shape.stcfg, .stcfg), (Shape.sbufw, .sbufw),
   (Shape.sbufset, .sbufset), (Shape.splice, .splice), (Shape.drd, .drd), (Shape.dwr, .dwr),
   (Shape.dgath, .dgath), (Shape.flush, .flush), (Shape.rowopen, .rowopen), (Shape.rowhold, .rowhold),
   (Shape.rowrel, .rowrel), (Shape.rowrd, .rowrd), (Shape.rowrdv, .rowrdv), (Shape.rowwr, .rowwr)]

noncomputable def longTable4 : List (LRow × (Long → Instr)) :=
  [(Shape.rowstat, .rowstat), (Shape.sbind, .sbind), (Shape.sunbind, .sunbind), (Shape.scfg, .scfg),
   (Shape.spredAttach, .spredAttach), (Shape.spredRead, .spredRead), (Shape.spos, .spos), (Shape.vld, .vld),
   (Shape.vst, .vst), (Shape.vldg, .vldg), (Shape.vsts, .vsts), (Shape.vbcast, .vbcast),
   (Shape.vmov, .vmov), (Shape.vmovmExtract, .vmovmExtract), (Shape.vmovmInsert, .vmovmInsert), (Shape.vperm, .vperm),
   (Shape.vslide, .vslide), (Shape.vadd, .vadd), (Shape.vsub, .vsub), (Shape.vmul, .vmul),
   (Shape.vfma, .vfma), (Shape.vmin, .vmin), (Shape.vmax, .vmax), (Shape.vabs, .vabs),
   (Shape.vneg, .vneg), (Shape.vdiv, .vdiv), (Shape.vsqrt, .vsqrt), (Shape.vrcp, .vrcp),
   (Shape.vrsqrt, .vrsqrt), (Shape.vexp2, .vexp2), (Shape.vlog2, .vlog2), (Shape.vsin, .vsin),
   (Shape.vcos, .vcos), (Shape.vtanh, .vtanh), (Shape.vand, .vand), (Shape.vor, .vor),
   (Shape.vxor, .vxor), (Shape.vshl, .vshl), (Shape.vshr, .vshr), (Shape.vsha, .vsha)]

noncomputable def longTable5 : List (LRow × (Long → Instr)) :=
  [(Shape.vcmp, .vcmp), (Shape.vsel, .vsel), (Shape.vcvt, .vcvt), (Shape.vpack, .vpack),
   (Shape.vunpack, .vunpack), (Shape.vred, .vred), (Shape.vscan, .vscan), (Shape.vdot, .vdot),
   (Shape.mzero, .mzero), (Shape.mma, .mma), (Shape.mmaq, .mmaq), (Shape.mmad, .mmad),
   (Shape.mread, .mread), (Shape.mreadk, .mreadk), (Shape.macc, .macc), (Shape.maccMov, .maccMov),
   (Shape.mstat, .mstat), (Shape.mmode, .mmode), (Shape.rjoin, .rjoin), (Shape.rleave, .rleave),
   (Shape.rmset, .rmset), (Shape.rmclr, .rmclr), (Shape.rmclrAll, .rmclrAll), (Shape.rinj, .rinj),
   (Shape.rdrain, .rdrain), (Shape.rstat, .rstat), (Shape.relight, .relight)]

/-- Every L64 and L96 instruction of R241, one row for each row of the opcode table. -/
noncomputable def longTable : List (LRow × (Long → Instr)) :=
  longTable0 ++ longTable1 ++ longTable2 ++ longTable3 ++ longTable4 ++ longTable5

noncomputable def shortATable0 : List (ARow × (ShortA → Instr)) :=
  [(Shape.addL32A, .addL32A), (Shape.addcL32A, .addcL32A), (Shape.subL32A, .subL32A), (Shape.subbL32A, .subbL32A),
   (Shape.mulL32A, .mulL32A), (Shape.mulhL32A, .mulhL32A), (Shape.mulhnL32A, .mulhnL32A), (Shape.divL32A, .divL32A),
   (Shape.divnL32A, .divnL32A), (Shape.remL32A, .remL32A), (Shape.remnL32A, .remnL32A), (Shape.andL32A, .andL32A),
   (Shape.andnL32A, .andnL32A), (Shape.orL32A, .orL32A), (Shape.xorL32A, .xorL32A), (Shape.shlL32A, .shlL32A),
   (Shape.shrL32A, .shrL32A), (Shape.shaL32A, .shaL32A), (Shape.rolL32A, .rolL32A), (Shape.rotrL32A, .rotrL32A),
   (Shape.clzL32A, .clzL32A), (Shape.ctzL32A, .ctzL32A), (Shape.popcL32A, .popcL32A), (Shape.brevL32A, .brevL32A),
   (Shape.bswapL32A, .bswapL32A), (Shape.minL32A, .minL32A), (Shape.maxL32A, .maxL32A), (Shape.minnL32A, .minnL32A),
   (Shape.maxnL32A, .maxnL32A), (Shape.absL32A, .absL32A), (Shape.movL32A, .movL32A), (Shape.faddL32A, .faddL32A),
   (Shape.fsubL32A, .fsubL32A), (Shape.fmulL32A, .fmulL32A), (Shape.fdivL32A, .fdivL32A), (Shape.fsqrtL32A, .fsqrtL32A),
   (Shape.fminL32A, .fminL32A), (Shape.fmaxL32A, .fmaxL32A), (Shape.fabsL32A, .fabsL32A), (Shape.fnegL32A, .fnegL32A)]

noncomputable def shortATable1 : List (ARow × (ShortA → Instr)) :=
  [(Shape.fcpysL32A, .fcpysL32A), (Shape.fclassL32A, .fclassL32A), (Shape.frndL32A, .frndL32A), (Shape.jmpL32A, .jmpL32A),
   (Shape.jmpiL32A, .jmpiL32A), (Shape.calliL32A, .calliL32A), (Shape.retL32A, .retL32A), (Shape.endL32A, .endL32A),
   (Shape.nopL32A, .nopL32A), (Shape.ungangL32A, .ungangL32A), (Shape.rejoinL32A, .rejoinL32A), (Shape.pandL32A, .pandL32A),
   (Shape.porL32A, .porL32A), (Shape.pxorL32A, .pxorL32A), (Shape.pnotL32A, .pnotL32A), (Shape.pmovL32A, .pmovL32A),
   (Shape.pmovFromGL32A, .pmovFromGL32A), (Shape.pmovToGL32A, .pmovToGL32A), (Shape.pcntL32A, .pcntL32A), (Shape.qincL32A, .qincL32A),
   (Shape.succhintL32A, .succhintL32A), (Shape.hstatL32A, .hstatL32A), (Shape.csealL32A, .csealL32A), (Shape.cunsealL32A, .cunsealL32A),
   (Shape.cbaseL32A, .cbaseL32A), (Shape.clenL32A, .clenL32A), (Shape.cpermsL32A, .cpermsL32A), (Shape.ctypeL32A, .ctypeL32A),
   (Shape.ctagL32A, .ctagL32A), (Shape.cclrL32A, .cclrL32A), (Shape.cmovL32A, .cmovL32A), (Shape.wickL32A, .wickL32A),
   (Shape.queryL32A, .queryL32A), (Shape.timeL32A, .timeL32A), (Shape.timeEnergyL32A, .timeEnergyL32A), (Shape.yieldL32A, .yieldL32A)]

/-- Every L32A instruction (R224, R240). -/
noncomputable def shortATable : List (ARow × (ShortA → Instr)) :=
  shortATable0 ++ shortATable1

noncomputable def shortBTable0 : List (BRow × (ShortB → Instr)) :=
  [(Shape.addI64L32B, .addI64L32B), (Shape.addI32L32B, .addI32L32B), (Shape.mulI64L32B, .mulI64L32B), (Shape.mulI32L32B, .mulI32L32B),
   (Shape.andN64L32B, .andN64L32B), (Shape.andnN64L32B, .andnN64L32B), (Shape.orN64L32B, .orN64L32B), (Shape.xorN64L32B, .xorN64L32B),
   (Shape.shlN64L32B, .shlN64L32B), (Shape.shrN64L32B, .shrN64L32B), (Shape.shaI64L32B, .shaI64L32B), (Shape.rotrN64L32B, .rotrN64L32B),
   (Shape.minI64L32B, .minI64L32B), (Shape.maxI64L32B, .maxI64L32B), (Shape.minnN64L32B, .minnN64L32B), (Shape.maxnN64L32B, .maxnN64L32B),
   (Shape.bfxN64L32B, .bfxN64L32B), (Shape.bfxI64L32B, .bfxI64L32B), (Shape.cmpEqI64L32B, .cmpEqI64L32B), (Shape.cmpNeI64L32B, .cmpNeI64L32B),
   (Shape.cmpLtI64L32B, .cmpLtI64L32B), (Shape.cmpLeI64L32B, .cmpLeI64L32B), (Shape.cmpGtI64L32B, .cmpGtI64L32B), (Shape.cmpGeI64L32B, .cmpGeI64L32B),
   (Shape.cmpLtN64L32B, .cmpLtN64L32B), (Shape.cmpLeN64L32B, .cmpLeN64L32B), (Shape.cmpGtN64L32B, .cmpGtN64L32B), (Shape.cmpGeN64L32B, .cmpGeN64L32B),
   (Shape.movRelSrcL32B, .movRelSrcL32B), (Shape.movRelDstL32B, .movRelDstL32B), (Shape.liI64L32B, .liI64L32B), (Shape.lihL32B, .lihL32B),
   (Shape.brL32B, .brL32B), (Shape.brNotL32B, .brNotL32B), (Shape.callL32B, .callL32B), (Shape.qaddL32B, .qaddL32B),
   (Shape.hwaitfL32B, .hwaitfL32B), (Shape.hwaiteL32B, .hwaiteL32B), (Shape.hadvcL32B, .hadvcL32B), (Shape.hadvpL32B, .hadvpL32B)]

noncomputable def shortBTable1 : List (BRow × (ShortB → Instr)) :=
  [(Shape.cldcL32B, .cldcL32B), (Shape.cstcL32B, .cstcL32B), (Shape.trapL32B, .trapL32B), (Shape.widL32B, .widL32B),
   (Shape.ldN64L32B, .ldN64L32B), (Shape.ldI32L32B, .ldI32L32B), (Shape.ldN32L32B, .ldN32L32B), (Shape.ldI16L32B, .ldI16L32B),
   (Shape.ldN16L32B, .ldN16L32B), (Shape.ldI8L32B, .ldI8L32B), (Shape.ldN8L32B, .ldN8L32B), (Shape.stN64L32B, .stN64L32B),
   (Shape.stN32L32B, .stN32L32B), (Shape.stN16L32B, .stN16L32B), (Shape.stN8L32B, .stN8L32B), (Shape.pfL32B, .pfL32B),
   (Shape.vldL32B, .vldL32B), (Shape.vstL32B, .vstL32B)]

/-- Every short opcode of R226. -/
noncomputable def shortBTable : List (BRow × (ShortB → Instr)) :=
  shortBTable0 ++ shortBTable1

/-! Fields of the parcels. -/

/-- The number of parcels that bits 1:0 of parcel 0 give (R222). -/
def parcelCount (p : Parcel) : Nat :=
  if p.extractLsb' 0 2 == 2#2 then 2 else if p.extractLsb' 0 2 == 3#2 then 3 else 1

/-- L32A (R224). -/
def packShortA (on : Nat) (x : ShortA) : Parcel := x.sub ++ x.b ++ x.a ++ x.d ++ BitVec.ofNat 8 on ++ 0#2
def unpackShortA (p : Parcel) : ShortA :=
  { sub := p.extractLsb' 28 4, b := p.extractLsb' 22 6, a := p.extractLsb' 16 6, d := p.extractLsb' 10 6 }
def shortAOn (p : Parcel) : Nat := (p.extractLsb' 2 8).toNat

/-- L32B (R225). -/
def packShortB (sop : Nat) (x : ShortB) : Parcel := x.imm ++ x.a ++ x.d ++ BitVec.ofNat 6 sop ++ 1#2
def unpackShortB (p : Parcel) : ShortB :=
  { imm := p.extractLsb' 20 12, a := p.extractLsb' 14 6, d := p.extractLsb' 8 6 }
def shortBSop (p : Parcel) : Nat := (p.extractLsb' 2 6).toNat

/-- Parcel 0 of L64 and L96 (R227). -/
def packLong0 (on : Nat) (x : Long) : Parcel :=
  0#2 ++ x.b ++ x.a ++ x.d ++ BitVec.ofNat 10 on ++ 1#1 ++ BitVec.ofBool x.wide
/-- Parcel 1 of L64 and L96 (R228). -/
def packLong1 (x : Long) : Parcel :=
  x.hi ++ x.after ++ x.emit ++ BitVec.ofBool x.ginv ++ x.guard ++ x.sub ++ x.c
def longOn (p : Parcel) : Nat := (p.extractLsb' 2 10).toNat
def unpackLong (p0 p1 p2 : Parcel) : Long :=
  let wide := p0.getLsbD 0
  { wide
    b := p0.extractLsb' 24 6, a := p0.extractLsb' 18 6, d := p0.extractLsb' 12 6
    hi := p1.extractLsb' 20 12, after := p1.extractLsb' 17 3, emit := p1.extractLsb' 14 3, ginv := p1.getLsbD 13
    guard := p1.extractLsb' 10 3, sub := p1.extractLsb' 6 4, c := p1.extractLsb' 0 6
    lit := if wide then p2 else 0 }

/-! Decoding. -/

noncomputable def decodeShortA (p : Parcel) : Option Instr :=
  let x := unpackShortA p
  match shortATable.find? (fun r => r.1.on == shortAOn p && r.1.ok x) with
  | some r => if r.1.legal x then some (r.2 x) else none
  | none => none

noncomputable def decodeShortB (p : Parcel) : Option Instr :=
  let x := unpackShortB p
  match shortBTable.find? (fun r => r.1.sop == shortBSop p) with
  | some r => if r.1.legal x then some (r.2 x) else none
  | none => none

/-- Bits 31:30 of parcel 0 are reserved and zero (R227). -/
noncomputable def decodeLong (p0 p1 p2 : Parcel) : Option Instr :=
  let x := unpackLong p0 p1 p2
  if p0.extractLsb' 30 2 != 0#2 then none
  else match longTable.find? (fun r => r.1.on == longOn p0 && r.1.sel x) with
  | some r => if r.1.legal x then some (r.2 x) else none
  | none => none

/-- The instruction that three parcels give, of which the first `parcelCount` count; `none` is ILLEGAL. -/
noncomputable def decodeParcels (p0 p1 p2 : Parcel) : Option Instr :=
  if p0.getLsbD 1 then decodeLong p0 p1 p2
  else if p0.getLsbD 0 then decodeShortB p0 else decodeShortA p0

/-- A little-endian parcel (R4, R222). -/
def parcelOfBytes (b0 b1 b2 b3 : Byte) : Parcel := b3 ++ b2 ++ b1 ++ b0
def bytesOfParcel (p : Parcel) : List Byte :=
  [p.extractLsb' 0 8, p.extractLsb' 8 8, p.extractLsb' 16 8, p.extractLsb' 24 8]

/-- Splits bytes into parcels; a rest shorter than a parcel is dropped. -/
def parcels (bs : List Byte) : List Parcel :=
  match bs with
  | b0 :: b1 :: b2 :: b3 :: rest => parcelOfBytes b0 b1 b2 b3 :: parcels rest
  | _ => []

/-- Decoding of any list of parcels: the instruction at its head and the parcels after it. -/
noncomputable def decode (ps : List Parcel) : Option (Instr × List Parcel) :=
  match ps with
  | [] => none
  | p0 :: rest =>
    let n := parcelCount p0
    if ps.length < n then none
    else (decodeParcels p0 (rest.getD 0 0) (rest.getD 1 0)).map (fun i => (i, ps.drop n))

/-- Decoding of any bytes. -/
noncomputable def decodeBytes (bs : List Byte) : Option Instr := (decode (parcels bs)).map (·.1)

/-! Encoding, from the same layouts. -/

def encodeEnc (e : Enc) : List Parcel :=
  match e with
  | .long r x => if x.wide then [packLong0 r.on x, packLong1 x, x.lit] else [packLong0 r.on x, packLong1 x]
  | .shortA r x => [packShortA r.on x]
  | .shortB r x => [packShortB r.sop x]
  | .event => []

/-- The parcels of an instruction; none for a step of another agent. -/
def encode (i : Instr) : List Parcel := encodeEnc (encoding i)

/-- The instruction in a word numbered as the opcode table numbers it: parcel 0 in bits 31:0, later parcels above. -/
noncomputable def decodeTableWord (nbits w : Nat) : Option Instr :=
  let v := w % 2 ^ nbits
  decodeParcels (BitVec.ofNat 32 v) (BitVec.ofNat 32 (v / 2 ^ 32)) (BitVec.ofNat 32 (v / 2 ^ 64))

/-! The worked encodings of R243 and R226, decoded back. -/

theorem decode_add_i32 : decodeTableWord 32 0x21C61404 = some (.addL32A { sub := 2, b := 7, a := 6, d := 5 }) := by decide
theorem decode_add_imm : decodeTableWord 32 0xFFD18501 = some (.addI64L32B { imm := 0xFFD, a := 6, d := 5 }) := by decide
theorem decode_add_lit : decodeBytes ([0x00185007#32, 0x20000100#32, 0x00001388#32].flatMap bytesOfParcel) =
    some (.add { wide := true, b := 0, a := 6, d := 5, hi := 0x200, after := 0, emit := 0, ginv := false, guard := 0,
                 sub := 4, c := 0, lit := 5000 }) := by decide

end Sys2Proof
end

