-- ==== Sys2Proof/Machine/Mem.lean ====
section
/-! DEFINITION. The memory (01 R34 to R42, 02 R45, R46): one list of cells in one canonical form over keys that name every byte of
the machine once (log entry 8), and the tags of its 16-byte granules. -/
namespace Sys2Proof.Machine
open Sys2Proof

/-! Keys. A class 00 or 01 byte has its physical address as its key. -/

/-- A byte of a store tile or exchange bank (R38, R39). -/
def tileKey (psn : Psn) (off : Nat) : Nat := 2 ^ 48 + psn * 2 ^ 19 + off
/-- A byte of a core's LOCAL space (R35). -/
def localKey (psn : Psn) (addr : Nat) : Nat := 2 ^ 49 + psn * 2 ^ 17 + addr

/-- What an unlisted address reads as (log entry 2). -/
def Mem.unlisted : Byte := 0

namespace Mem

/-- The canonical form: addresses strictly rising and no cell equal to what an unlisted address reads as. -/
def wf (m : List Host.Cell) : Bool :=
  match m with
  | [] => true
  | [c] => c.2 != Mem.unlisted
  | c :: d :: rest => c.2 != Mem.unlisted && decide (c.1 < d.1) && wf (d :: rest)

/-- One byte. -/
def read (m : List Host.Cell) (a : Nat) : Byte :=
  match m with
  | [] => Mem.unlisted
  | c :: rest => if c.1 = a then c.2 else read rest a

/-- The cells that a run of bytes at address a lists. -/
def cells (a : Nat) (bs : List Byte) : List Host.Cell :=
  match bs with
  | [] => []
  | b :: rest => if b = Mem.unlisted then cells (a + 1) rest else (a, b) :: cells (a + 1) rest

/-- A run of bytes written at address a. -/
def write (m : List Host.Cell) (a : Nat) (bs : List Byte) : List Host.Cell :=
  m.filter (fun c => decide (c.1 < a)) ++ cells a bs ++ m.filter (fun c => decide (a + bs.length ≤ c.1))

/-- A run of n bytes. -/
def readRange (m : List Host.Cell) (a n : Nat) : List Byte :=
  match n with
  | 0 => []
  | k + 1 => read m a :: readRange m (a + 1) k

/-- The granules from g on, n of them, that are tagged. -/
def tagsIn (tags : List Nat) (g n : Nat) : List Nat := tags.filter (fun t => decide (g ≤ t ∧ t < g + n))

/-- Clears the tags of every granule that bytes a to a + n − 1 touch (R45). -/
def clearTags (tags : List Nat) (a n : Nat) : List Nat :=
  tags.filter (fun t => !decide (a < t * 16 + 16 ∧ t * 16 < a + n))

/-- Sets the tag of one granule. -/
def setTag (tags : List Nat) (g : Nat) : List Nat :=
  tags.filter (fun t => decide (t < g)) ++ [g] ++ tags.filter (fun t => decide (g < t))

end Mem

/-! Bit errors (R76, R79, R114; log entry 114). A word is 64 bits; a write of a whole word gives it new check bits. -/

/-- Whether a word lies in a run of bytes, in part or whole. -/
def wordTouched (key n word : Nat) : Bool := decide (key < 8 * word + 8 ∧ 8 * word < key + n)
def wordCovered (key n word : Nat) : Bool := decide (key ≤ 8 * word ∧ 8 * word + 8 ≤ key + n)
/-- Whether a read of a run of bytes meets an uncorrectable error. -/
def State.spoiled (s : State) (key n : Nat) : Bool := s.upsets.any (fun u => u.2 && wordTouched key n u.1)
/-- The errors that a write leaves. -/
def upsetsLeft (l : List (Nat × Bool)) (key n : Nat) : List (Nat × Bool) := l.filter (fun u => !wordCovered key n u.1)
/-- A read notes each corrected error that it meets. -/
def State.noteRead (s : State) (key n : Nat) : State :=
  match s.upsets.filter (fun u => !u.2 && wordTouched key n u.1) with
  | [] => s
  | l => { s with eccSeen := s.eccSeen ++ l.map (fun u => (8 * u.1, 1)) }
/-- An uncorrectable DRAM error (R114). -/
def State.noteFatal (s : State) (key : Nat) : State := { s with eccSeen := s.eccSeen ++ [(key, 1024)] }

/-- Bytes of memory. -/
def State.bytes (s : State) (key n : Nat) : List Byte := Mem.readRange s.mem key n
/-- A write of data: the bytes change and every granule they touch loses its tag, in the same act (R45). -/
def State.poke (s : State) (key : Nat) (bs : List Byte) : State :=
  { s with mem := Mem.write s.mem key bs, tags := Mem.clearTags s.tags key bs.length,
           upsets := upsetsLeft s.upsets key bs.length }
/-- A granule written with its tag, as one unit (R45). -/
def State.pokeCap (s : State) (key : Nat) (c : Cap) : State :=
  { s with mem := Mem.write s.mem key (leBytes 16 c.bits.toNat)
           tags := if c.tag then Mem.setTag (Mem.clearTags s.tags key 16) (key / 16) else Mem.clearTags s.tags key 16
           upsets := upsetsLeft s.upsets key 16 }
/-- A granule and its tag read at one instant (R45). -/
def State.peekCap (s : State) (key : Nat) : Cap :=
  { tag := s.tags.contains (key / 16), bits := BitVec.ofNat 128 (ofLe (s.bytes key 16)) }
/-- A run of bytes with the tags of its granules copied to another place of the same length (R71, R72, R125); a word that cannot be corrected
stays so in its copy (log entry 114). -/
def State.copyTagged (s : State) (src dst n : Nat) : State :=
  let m := (s.mem.filter (fun c => decide (src ≤ c.1 ∧ c.1 < src + n))).map (fun c => (c.1 - src + dst, c.2))
  let t := (Mem.tagsIn s.tags (src / 16) (n / 16)).map (fun g => g - src / 16 + dst / 16)
  { s with mem := s.mem.filter (fun c => decide (c.1 < dst)) ++ m ++ s.mem.filter (fun c => decide (dst + n ≤ c.1))
           tags := t.foldl Mem.setTag (Mem.clearTags s.tags dst n)
           upsets := upsetsLeft s.upsets dst n ++ (s.upsets.filter (fun u => u.2 && wordCovered src n u.1)).map (fun u => (u.1 - src / 8 + dst / 8, true)) }
/-- What the reading of such a run notes: corrected errors, and of DRAM those that cannot be corrected (R114). -/
def State.noteCopy (s : State) (src n : Nat) : State :=
  let t := s.noteRead src n
  if src < 2 ^ 46 then { t with eccSeen := t.eccSeen ++ (s.upsets.filter (fun u => u.2 && wordTouched src n u.1)).map (fun u => (8 * u.1, 1024)) } else t
/-- Clears bytes and tags (R82). -/
def State.clearRange (s : State) (key n : Nat) : State :=
  { s with mem := s.mem.filter (fun c => decide (c.1 < key ∨ key + n ≤ c.1)), tags := Mem.clearTags s.tags key n, upsets := upsetsLeft s.upsets key n }

end Sys2Proof.Machine
end

