-- ==== Sys2Proof/Machine/Places.lean ====
section
/-! DEFINITION. Places and names (chapter 01): physical source numbers, positions, quads, exchange banks, the logical maps, and the
units of a state found by their numbers. -/
namespace Sys2Proof.Machine
open Sys2Proof

/-! Physical source numbers (R19). -/

def psnClass (p : Psn) : Nat := p / 2 ^ 20
def psnRegion (p : Psn) : Nat := p / 2 ^ 13 % 128
/-- The physical index of a core or store tile. -/
def psnIndex (p : Psn) : Nat := p % 512
def corePsn (region index : Nat) : Psn := region * 2 ^ 13 + index
def tilePsn (region index : Nat) : Psn := 2 ^ 20 + region * 2 ^ 13 + index
/-- A Lantern unit: subunit 0 sequencer, 1 service core, 2 Lamplighter, 3 walker, 4 secure core, 5 L2 TLB. -/
def lanternPsn (region subunit : Nat) : Psn := 2 * 2 ^ 20 + region * 2 ^ 13 + subunit * 512
def hostPsn (quadrant : Nat) : Psn := 3 * 2 ^ 20 + 0x7F * 2 ^ 13 + quadrant
/-- A page walker of a region's Lantern. -/
def walkerPsn (region walker : Nat) : Psn := lanternPsn region 3 + walker
/-- An external port: kind 0 a companion link, 1 an Ethernet port, 2 the host link. -/
def externalPsn (kind port : Nat) : Psn := 5 * 2 ^ 20 + 0x7F * 2 ^ 13 + kind * 256 + port
def actorPsn (stack : Nat) : Psn := 4 * 2 ^ 20 + 0x7F * 2 ^ 13 + stack * 256 + 0x3F
def isGridCore (p : Psn) : Bool := psnClass p == 0
def isTile (p : Psn) : Bool := psnClass p == 1

/-- The level a core runs at (R6): grid cores run graphs, the secure core the monitor, the others service firmware. -/
def levelOf (p : Psn) : Level :=
  if psnClass p = 0 then .graph else if psnClass p = 2 ∧ p / 512 % 16 = 4 then .monitor else .firmware

/-! Positions (R12, R14). The kind of a unit is its class: 0 a core, 1 a store tile. -/

def posX (p : Psn) : Nat := tileX (psnClass p) (psnIndex p)
def posY (p : Psn) : Nat := tileY (psnIndex p)
/-- The unit at a position of a region's grid. -/
def unitAt (region px py : Nat) : Psn :=
  if (px + py) % 2 = 0 then corePsn region (py * 12 + px / 2) else tilePsn region (py * 12 + px / 2)
/-- Mesh distance of two units of one region. -/
def distance (a b : Psn) : Nat :=
  (posX a - posX b) + (posX b - posX a) + ((posY a - posY b) + (posY b - posY a))

/-- The orthogonal neighbour on a router port: 1 +x, 2 +y, 3 −x, 4 −y (R29). -/
def neighbour (p : Psn) (port : Nat) : Option Psn :=
  let r := psnRegion p
  let x := posX p
  let y := posY p
  match port with
  | 1 => if x < 23 then some (unitAt r (x + 1) y) else none
  | 2 => if y < 23 then some (unitAt r x (y + 1)) else none
  | 3 => if 0 < x then some (unitAt r (x - 1) y) else none
  | 4 => if 0 < y then some (unitAt r x (y - 1)) else none
  | _ => none
/-- The port of the neighbour that faces back. -/
def opposite (port : Nat) : Nat := if port ≤ 2 then port + 2 else port - 2

/-- The diagonal neighbour core: 0 (+x,+y), 1 (−x,+y), 2 (−x,−y), 3 (+x,−y) (R202). -/
def diagonal (p : Psn) (dir : Nat) : Option Psn :=
  let r := psnRegion p
  let x := posX p
  let y := posY p
  if dir = 0 then (if x < 23 ∧ y < 23 then some (unitAt r (x + 1) (y + 1)) else none)
  else if dir = 1 then (if 0 < x ∧ y < 23 then some (unitAt r (x - 1) (y + 1)) else none)
  else if dir = 2 then (if 0 < x ∧ 0 < y then some (unitAt r (x - 1) (y - 1)) else none)
  else (if x < 23 ∧ 0 < y then some (unitAt r (x + 1) (y - 1)) else none)
/-- The direction from a core to a diagonal neighbour. -/
def diagonalDir (a b : Psn) : Option Nat := (List.range 4).find? (fun d => diagonal a d == some b)

/-- The four cores around an interior store tile in the order of GANG's position codes (R193): +x, −x, +y, −y. -/
def quadCores (t : Psn) : List Psn :=
  if interior (psnIndex t) then [1, 3, 2, 4].filterMap (neighbour t) else []
/-- The interior store tiles beside a core: the centres of its quads (R14). -/
def quadTiles (c : Psn) : List Psn :=
  ([1, 2, 3, 4].filterMap (neighbour c)).filter (fun t => interior (psnIndex t))
/-- The cores that share a quad with a core. -/
def quadMates (c : Psn) : List Psn := (((quadTiles c).flatMap quadCores).filter (· != c)).eraseDups

/-- The quadrant of a region (R11). -/
def quadrantOf (region : Nat) : Nat := (if region % 8 < 4 then 0 else 1) + (if region / 8 < 5 then 0 else 2)

/-- The power cluster of a tile (R453). -/
def clusterOf (p : Psn) : Nat := posY p / 4 * 6 + posX p / 4

/-- The physical index of the exchange bank at walk position e (R15). -/
def walkTile (e : Nat) : Nat :=
  let pos : Nat × Nat :=
    if e < 12 then (2 * e + 1, 0)
    else if e < 23 then (23, 2 * (e - 12) + 2)
    else if e < 35 then (22 - 2 * (e - 23), 23)
    else (0, 21 - 2 * (e - 35))
  pos.2 * 12 + pos.1 / 2

/-! Units of a state. -/

def State.getCore (s : State) (p : Psn) : Core :=
  if s.core.psn = p then s.core else (s.cores.find? (·.psn == p)).getD (Core.reset p)
def State.putCore (s : State) (c : Core) : State :=
  if s.core.psn = c.psn then { s with core := c } else { s with cores := upsert s.cores (·.psn == c.psn) c }
/-- Another core is looked at: it becomes the one that issues (log entry 4). -/
def State.focus (s : State) (p : Psn) : State :=
  if s.core.psn = p then s else { s with core := s.getCore p, cores := s.cores.filter (·.psn != p) ++ [s.core] }
def State.modCore (s : State) (p : Psn) (f : Core → Core) : State := s.putCore (f (s.getCore p))

def State.getTile (s : State) (p : Psn) : Tile := (s.tiles.find? (·.psn == p)).getD (Tile.reset p)
def State.putTile (s : State) (t : Tile) : State := { s with tiles := upsert s.tiles (·.psn == t.psn) t }
def State.modTile (s : State) (p : Psn) (f : Tile → Tile) : State := s.putTile (f (s.getTile p))

def State.getRouter (s : State) (p : Psn) : Router := ((s.routers.find? (·.1 == p)).map (·.2)).getD Router.reset
def State.putRouter (s : State) (p : Psn) (r : Router) : State := { s with routers := upsert s.routers (·.1 == p) (p, r) }

def State.getRegion (s : State) (r : Nat) : Region := (s.regions.find? (·.number == r)).getD (Region.reset r)
def State.putRegion (s : State) (r : Region) : State := { s with regions := upsert s.regions (·.number == r.number) r }
def State.modRegion (s : State) (r : Nat) (f : Region → Region) : State := s.putRegion (f (s.getRegion r))

def State.getActor (s : State) (n : Nat) : Actor := (s.actors.find? (·.stack == n)).getD (Actor.reset n)
def State.putActor (s : State) (a : Actor) : State := { s with actors := upsert s.actors (·.stack == a.stack) a }
def State.modActor (s : State) (n : Nat) (f : Actor → Actor) : State := s.putActor (f (s.getActor n))

def Region.getCluster (r : Region) (n : Nat) : Cluster := ((r.clusters.find? (·.1 == n)).map (·.2)).getD Cluster.reset
def Region.putCluster (r : Region) (n : Nat) (c : Cluster) : Region :=
  { r with clusters := upsert r.clusters (·.1 == n) (n, c) }
def State.getCluster (s : State) (region n : Nat) : Cluster := (s.getRegion region).getCluster n
def State.putCluster (s : State) (region n : Nat) (c : Cluster) : State := s.modRegion region (·.putCluster n c)

def State.modCluster (s : State) (region n : Nat) (f : Cluster → Cluster) : State := s.putCluster region n (f (s.getCluster region n))
/-- Whether a cluster's clocks are gated (R454). -/
def State.gated (s : State) (p : Psn) : Bool := decide (psnClass p ≤ 1) && bit (s.getCluster (psnRegion p) (clusterOf p)).ctl 61
def clSaved (c : Cluster) : Bool := bit c.stat 62
/-- An arrival at a unit: RET_DONE of its cluster clears (R455). -/
def State.touchCluster (s : State) (p : Psn) : State :=
  if 2 ≤ psnClass p ∨ !clSaved (s.getCluster (psnRegion p) (clusterOf p)) then s
  else s.modCluster (psnRegion p) (clusterOf p) (fun c => { c with stat := setBit c.stat 62 false, cores := [], tiles := [] })

def State.getHost (s : State) (n : Nat) : HostCore := at_ s.hosts n HostCore.reset
def State.putHost (s : State) (n : Nat) (h : HostCore) : State := { s with hosts := put s.hosts n h }

/-- The graph of a context in a region; a context number belongs to one graph in each of its regions (R54, R395). -/
def State.graphOf (s : State) (region ctx : Nat) : Option Graph :=
  s.graphs.find? (fun g => g.ctx == ctx && g.regions.getLsbD region && g.stat != 0)
def State.graphById (s : State) (id : Nat) : Option Graph := s.graphs.find? (·.id == id)
def State.putGraph (s : State) (g : Graph) : State := { s with graphs := upsert s.graphs (·.id == g.id) g }
/-- The regions of a graph. -/
def Graph.regionList (g : Graph) : List Nat := (List.range 80).filter (fun r => g.regions.getLsbD r)

/-! The logical maps (R20, R21, R28). -/

/-- Bits V and PCORE of LMAP_CORE. -/
def Region.coreAt (r : Region) (n : Nat) : Option Psn :=
  let e := at_ r.lmapCore n 0
  if e.getLsbD 15 then some (corePsn r.number (fld e 8 0)) else none
def Region.storeAt (r : Region) (n : Nat) : Option Psn :=
  let e := at_ r.lmapStore n 0
  if n < 224 ∧ e.getLsbD 15 then some (tilePsn r.number (fld e 8 0)) else none
/-- The bank that EXB_MAP names for an exchange slot (R16, R28). -/
def Region.bankAt (r : Region) (k : Nat) : Option Psn :=
  let e := at_ r.exbMap k 0
  if e.getLsbD 7 then some (tilePsn r.number (walkTile (fld e 5 0))) else none
/-- The physical core of a logical core number 0 to 20,479. -/
def State.logicalCore (s : State) (n : Nat) : Option Psn := if n / 256 < 80 then (s.getRegion (n / 256)).coreAt (n % 256) else none
/-- The logical core that maps onto a core, when one does. -/
def State.logicalOf (s : State) (p : Psn) : Option Nat :=
  (List.range 256).find? (fun n => (s.getRegion (psnRegion p)).coreAt n == some p)
def State.storeOf (s : State) (p : Psn) : Option Nat :=
  (List.range 224).find? (fun n => (s.getRegion (psnRegion p)).storeAt n == some p)
def State.exchangeOf (s : State) (p : Psn) : Option Nat :=
  (List.range 44).find? (fun k => (s.getRegion (psnRegion p)).bankAt k == some p)

/-- EXCH address to bank and byte (R39); none for an address beyond the tier or an absent slot. -/
def State.exchPlace (s : State) (a : Nat) : Option (Psn × Nat) :=
  if a < 0x6E000000 then
    let blk := a / 4096
    let bank := blk % 3520
    ((s.getRegion (bank % 80)).bankAt (bank / 80)).map (fun t => (t, blk / 3520 * 4096 + a % 4096))
  else none

/-- The home store tile of a core (R37, R189). -/
def State.homeTile (s : State) (c : Core) : Option Psn :=
  if c.homeStore = 0xFF then none else (s.getRegion (psnRegion c.psn)).storeAt c.homeStore.toNat

/-- The full name of an agent or a core from the low 18 bits within a region (R24, R25). -/
def State.fullName (s : State) (region low : Nat) : BitVec 24 :=
  BitVec.ofNat 24 ((s.getRegion region).namePrefix.toNat * 2 ^ 18 + low % 2 ^ 18)
def nullName : BitVec 24 := 0xFFFFFF
def isAgentName (n : BitVec 24) : Bool := decide (0x3FF00 ≤ n.toNat % 2 ^ 18 ∧ n.toNat % 2 ^ 18 ≤ 0x3FFFE)

/-- The cores of a region that are known to the state. -/
def State.coresIn (s : State) (region : Nat) : List Core :=
  (s.core :: s.cores).filter (fun c => psnRegion c.psn == region && isGridCore c.psn)
/-- The live core of a region that holds a name (R27); none holds the null name (R24). -/
def State.holder (s : State) (region : Nat) (n : BitVec 24) : Option Psn :=
  if n = nullName then none
  else ((List.range 288).map (corePsn region)).find? (fun p => (s.getCore p).name == n && (s.getCore p).live)
/-- The live tombstone of a region for a name (R33). -/
def State.tombFor (s : State) (region : Nat) (n : BitVec 24) : Option Tomb :=
  (s.getRegion region).tombs.find? (fun t => t.name == n && decide (s.tsc.toNat < t.until_))

/-! DRAM addresses (R105). -/

def dramStack (pa : Nat) : Nat := pa / 2 ^ 10 % 32
def dramChan (pa : Nat) : Nat := pa / 2 ^ 15 % 32
def dramBank (pa : Nat) : Nat := pa / 2 ^ 20 % 16
def dramRow (pa : Nat) : Nat := pa / 2 ^ 24 % 2 ^ 17
def dramSub (pa : Nat) : Nat := dramRow pa % 4

/-! Items in flight. -/

/-- Puts an item in flight under the next number. -/
def State.launchItem (s : State) (b : Body) : State :=
  { s with flight := s.flight ++ [{ id := s.nextId, body := b }], nextId := s.nextId + 1 }
def State.item (s : State) (id : Nat) : Option Body := (s.flight.find? (·.id == id)).map (·.body)
def State.dropItem (s : State) (id : Nat) : State := { s with flight := s.flight.filter (·.id != id) }
def State.setItem (s : State) (id : Nat) (b : Body) : State :=
  { s with flight := s.flight.map (fun i => if i.id == id then { i with body := b } else i) }
/-- Whether none of some items is in flight any more. -/
def State.gone (s : State) (ids : List Nat) : Bool := ids.all (fun i => !(s.flight.any (·.id == i)))
/-- The accesses in flight of one core. -/
def State.accessesOf (s : State) (core : Psn) : List (Nat × Access) :=
  s.flight.filterMap (fun i => match i.body with
    | .access a => if a.core == core then some (i.id, a) else none
    | _ => none)

/-- A free value: the next number of the model's counter (log entry 4), which the step advances. -/
def State.draw (s : State) : Nat × State := (s.free, { s with free := s.free + 1 })

/-! Notifications, scores. -/

/-- The 16-bit suspicion score of a unit (R428). -/
def State.score (s : State) (u : BitVec 32) : Nat := ((s.module.scores.find? (fun (e : BitVec 32 × BitVec 16) => e.1 == u)).map Prod.snd).elim 0 BitVec.toNat
def State.isRetired (s : State) (u : BitVec 32) : Bool := s.module.retired.contains u

end Sys2Proof.Machine
end

