-- ==== Sys2Proof/Machine/Lanes.lean ====
section
/-! DEFINITION. Credit flow control on the lanes of links (03 R101, R102; log entry 53). A lane is named by the tile that sends on it, its port (a mesh
port 1 to 4, or 5 + direction for a ring link) and its number: request 0, reply 1, control 2, exchange 3; on a ring link the sunwise and the
widdershins channel. -/
namespace Sys2Proof.Machine
open Sys2Proof

/-- A lane that has carried nothing. -/
def Lane.reset (port lane : Nat) : Lane :=
  { port, lane, sent := 0, spent := 0, received := 0, freed := 0, occupancy := 0, unaudited := 0, last := 0, idle := false }
def Router.lane (r : Router) (port lane : Nat) : Lane :=
  (r.links.find? (fun x => x.port == port && x.lane == lane)).getD (Lane.reset port lane)
def Router.setLane (r : Router) (l : Lane) : Router :=
  { r with links := upsert r.links (fun x => x.port == l.port && x.lane == l.lane) l }

/-- The sender's credit count. -/
def Lane.credits (l : Lane) : Nat := Config.laneDepth l.port l.lane - l.spent
/-- Whether `n` flits may be sent: the credits suffice, or the buffer is empty. -/
def Lane.hasRoom (l : Lane) (n : Nat) : Bool := l.spent == 0 || decide (n ≤ l.credits)
/-- `n` flits are sent and land. -/
def Lane.carry (l : Lane) (now n : Nat) : Lane :=
  { l with sent := l.sent + BitVec.ofNat 32 n, spent := l.spent + n, received := l.received + BitVec.ofNat 32 n, occupancy := l.occupancy + n
           unaudited := l.unaudited + n, last := now, idle := false }
/-- The receiver frees `n` flits, and the sender has their credits again. -/
def Lane.release (l : Lane) (n : Nat) : Lane :=
  { l with freed := l.freed + BitVec.ofNat 32 n, occupancy := l.occupancy - n, spent := l.spent - n }
/-- Every flit sent has landed. -/
def Lane.landed (l : Lane) : Bool := l.sent == l.received
/-- What an audit compares (R101): RECEIVED with SENT, and the credits with what RECEIVED − FREED leaves of the buffer. -/
def Lane.agrees (l : Lane) : Bool := l.landed && l.spent == (l.received - l.freed).toNat
/-- A flit is dropped (R102): it was sent and has not been received. -/
def Lane.drop (l : Lane) : Lane := { l with received := l.received - 1, occupancy := l.occupancy - 1 }
/-- The flits that a resynchronisation resends. -/
def Lane.missing (l : Lane) : Nat := (l.sent - l.received).toNat
/-- After a resynchronisation (R102): the missing flits have landed, and the credits are the depth less the occupancy. -/
def Lane.resynced (l : Lane) : Lane :=
  { l with received := l.sent, occupancy := l.occupancy + l.missing, spent := l.occupancy + l.missing }

/-- Where a link's withdrawal is kept: a mesh link at both its ends, a ring link at its lower core. -/
def linkEnd (tile : Psn) (port : Nat) : Psn × Nat :=
  match (if port ≤ 4 then none else diagonal tile (port - 5)) with
  | some q => if q < tile then (q, 5 + (port - 5 + 2) % 4) else (tile, port)
  | none => (tile, port)
/-- Whether a link is withdrawn. -/
def State.linkCut (s : State) (tile : Psn) (port : Nat) : Bool := (s.getRouter (linkEnd tile port).1).cut.contains (linkEnd tile port).2

/-- Whether a lane takes `n` flits now: the link is in service, no flit of the lane is missing, and there is room. -/
def State.laneOpen (s : State) (tile : Psn) (port lane n : Nat) : Bool :=
  let r := s.getRouter tile
  !s.linkCut tile port && (r.lane port lane).landed && (r.lane port lane).hasRoom n
def State.carry (s : State) (tile : Psn) (port lane n : Nat) : State :=
  let r := s.getRouter tile
  s.putRouter tile (r.setLane ((r.lane port lane).carry s.tsc.toNat n))
def State.release (s : State) (tile : Psn) (port lane n : Nat) : State :=
  let r := s.getRouter tile
  s.putRouter tile (r.setLane ((r.lane port lane).release n))

/-! Messages on mesh lanes. -/

/-- The flits of a message: its header and payload. -/
def Msg.flits (m : Msg) : Nat := Config.flits (8 + m.payload.length)
/-- The lane a message is sent on: a flood and a message to an agent on the control lane (R30), an agent's on the reply lane, others on the request lane. -/
def Msg.nextLane (m : Msg) : Nat := if m.flood.isSome || isAgentName m.dest then 2 else if m.reply || isAgentName m.name then 1 else 0
/-- The tile and port that sent a message into the buffer where it stands. -/
def Msg.sender (m : Msg) : Option (Psn × Nat) :=
  if m.port = 0 ∨ (m.stage ≠ .router ∧ m.stage ≠ .local) then none else (neighbour m.tile m.port).map (fun t => (t, opposite m.port))
/-- A message leaves the buffer where it stands. -/
def State.leaveBuffer (s : State) (m : Msg) : State :=
  match m.sender with
  | some (t, port) => s.release t port m.lane m.flits
  | none => s
/-- Whether every flit of the lane that a message came by has landed (R102). -/
def State.whole (s : State) (m : Msg) : Bool :=
  match m.sender with
  | some (t, port) => ((s.getRouter t).lane port m.lane).landed
  | none => true
/-- Whether a message waits in the same buffer. -/
def Msg.shares (m k : Msg) : Bool :=
  k.tile == m.tile && k.port == m.port && k.lane == m.lane && (k.stage == .local || (k.stage == .router && decide (m.port ≠ 0)))
/-- A lane's buffer gives its messages in their order (R31): nothing stands before this one. A message at its source's own router waits for none. -/
def State.first (s : State) (id : Nat) (m : Msg) : Bool :=
  (m.stage == .router && decide (m.port = 0)) || (s.flight.takeWhile (·.id != id)).all (fun i => match i.body with
    | .message k => !m.shares k
    | _ => true)
/-- An item goes to the end of what is in flight, as the last of its buffer. -/
def State.requeue (s : State) (id : Nat) (b : Body) : State :=
  { s with flight := s.flight.filter (·.id != id) ++ [{ id, body := b }] }

end Sys2Proof.Machine
end

