-- ==== Sys2Proof/Machine/Ops.lean ====
section
/-! DEFINITION. The named operations of a core: its registers, the fields of its handler entries, messages and fault messages, taking
a fault and coming back from one, and the issue of an instruction with its checks (09 R243, 16 R414 to R416). -/
namespace Sys2Proof.Machine
open Sys2Proof

/-- What a step of exec answers. -/
abbrev Out := Host.Outcome State Fault Refusal

/-! Registers (R234, R235). g0 reads 0 and p0 all ones; writes to them are discarded. -/

def Core.getG (c : Core) (n : Nat) : Word := if n = 0 then 0 else at_ c.regs.g n 0
def Core.setG (c : Core) (n : Nat) (v : Word) : Core :=
  if n = 0 then c else { c with regs := { c.regs with g := put c.regs.g n v } }
def Core.getV (c : Core) (n : Nat) : VWord := at_ c.regs.v n 0
def Core.setV (c : Core) (n : Nat) (v : VWord) : Core := { c with regs := { c.regs with v := put c.regs.v n v } }
def Core.getP (c : Core) (n : Nat) : PWord := if n = 0 then BitVec.allOnes 32 else at_ c.regs.p n 0
def Core.setP (c : Core) (n : Nat) (v : PWord) : Core :=
  if n = 0 then c else { c with regs := { c.regs with p := put c.regs.p n v } }
def Core.getC (c : Core) (n : Nat) : Cap := at_ c.regs.c n Cap.null
def Core.setC (c : Core) (n : Nat) (v : Cap) : Core := { c with regs := { c.regs with c := put c.regs.c n v } }
def Core.getTok (c : Core) (n : Nat) : List Nat := if n = 0 then [] else at_ c.regs.tok n []
def Core.setTok (c : Core) (n : Nat) (ids : List Nat) : Core :=
  if n = 0 then c else { c with regs := { c.regs with tok := put c.regs.tok n ids } }
def Core.getQ (c : Core) (n : Nat) : Word := if 53 ≤ n ∧ n ≤ 55 then 0 else at_ c.q n 0
/-- Every increment of a counter saturates (R185). -/
def Core.addQ (c : Core) (n : Nat) (k : Nat) : Core := { c with q := put c.q n (satAdd (at_ c.q n 0) k) }
def Core.setPc (c : Core) (pc : Word) : Core := { c with regs := { c.regs with pc := pc } }

def State.g (s : State) (n : Nat) : Word := s.core.getG n
def State.setG (s : State) (n : Nat) (v : Word) : State := { s with core := s.core.setG n v }
def State.v (s : State) (n : Nat) : VWord := s.core.getV n
def State.setV (s : State) (n : Nat) (v : VWord) : State := { s with core := s.core.setV n v }
def State.p (s : State) (n : Nat) : PWord := s.core.getP n
def State.setP (s : State) (n : Nat) (v : PWord) : State := { s with core := s.core.setP n v }
def State.c (s : State) (n : Nat) : Cap := s.core.getC n
def State.setC (s : State) (n : Nat) (v : Cap) : State := { s with core := s.core.setC n v }
def State.tok (s : State) (n : Nat) : List Nat := s.core.getTok n
def State.setTok (s : State) (n : Nat) (ids : List Nat) : State := { s with core := s.core.setTok n ids }
def State.setPc (s : State) (pc : Word) : State := { s with core := s.core.setPc pc }
def State.mapCore (s : State) (f : Core → Core) : State := { s with core := f s.core }
def State.mapAct (s : State) (f : Act → Act) : State := s.mapCore (fun c => { c with act := c.act.map f })
/-- The level of the running activation (R6). -/
def State.level (s : State) : Level := levelOf s.core.psn
/-- A predicate result of a scalar instruction fills all 32 lanes (R264). -/
def allLanes (b : Bool) : PWord := if b then BitVec.allOnes 32 else 0

/-- A pending register is marked with the item that will write it (R147); g0 and p0 never are. -/
def State.setPending (s : State) (r : RegName) (id : Nat) : State :=
  if r.code = 0 ∨ r.code = 2 then s else s.mapCore (fun c => { c with pend := c.pend ++ [(r, id)] })
def Core.isPending (c : Core) (r : RegName) : Bool := r.code != 0 && r.code != 2 && c.pend.any (fun x => x.1.code == r.code)
/-- Whether an item is to write a register. -/
def Core.awaits (c : Core) (r : RegName) (id : Nat) : Bool := c.pend.any (fun x => x.1.code == r.code && x.2 == id)

/-! Capability fields (R43, R44). -/

def Cap.space (c : Cap) : Nat := fld c.bits 127 125
def Cap.perms (c : Cap) : Nat := fld c.bits 124 118
def Cap.otype (c : Cap) : Nat := fld c.bits 117 110
def Cap.length (c : Cap) : Nat := fld c.bits 95 48
def Cap.base (c : Cap) : Nat := fld c.bits 47 0
def Cap.isS (c : Cap) : Bool := bit c.bits 124
def Cap.isL (c : Cap) : Bool := bit c.bits 123
def Cap.hasC (c : Cap) : Bool := bit c.bits 122
/-- A sealing key: tagged apart, S with no other granting bit and a seal number (R49). -/
def Cap.isKey (c : Cap) : Bool := c.isS && c.perms &&& 0x5F == 0x40 && c.otype != 0
def Cap.make (space perms otype length base : Nat) : Cap :=
  { tag := true, bits := BitVec.ofNat 128 (space * 2 ^ 125 + perms * 2 ^ 118 + otype * 2 ^ 110 + length * 2 ^ 48 + base) }

/-! Handler entries (R176). -/

abbrev Handler := BitVec 128
def Core.handler (c : Core) (e : Nat) : Handler := at_ c.handlers e handlerReset
def Core.setHandler (c : Core) (e : Nat) (h : Handler) : Core := { c with handlers := put c.handlers e h }
def hValid (h : Handler) : Bool := bit h 127
def hHold (h : Handler) : Bool := bit h 126
def hReady (h : Handler) : Bool := bit h 125
def hFhold (h : Handler) : Bool := bit h 124
def hActive (h : Handler) : Bool := bit h 123
def hPrio (h : Handler) : Nat := fld h 122 121
def hFire (h : Handler) : Nat := fld h 120 117 + 1
def hWindow (h : Handler) : Nat := fld h 116 111 + 1
def hWick (h : Handler) : Nat := fld h 110 108
def hHandle (h : Handler) : Nat := fld h 107 103
def hActor (h : Handler) : Nat := fld h 95 80
def hDesc (h : Handler) : Nat := fld h 76 64 * 16
def hFirings (h : Handler) : Nat := fld h 63 32
def hEntry (h : Handler) : Nat := fld h 31 0
def Core.setActive (c : Core) (e : Nat) (b : Bool) : Core := c.setHandler e (setBit (c.handler e) 123 b)
def Core.setFhold (c : Core) (e : Nat) (b : Bool) : Core := c.setHandler e (setBit (c.handler e) 124 b)

/-! Snuffing (R424). -/

def Core.snuffed (c : Core) : Bool := bit c.snuff 63

/-! Fault codes (R414) and the fields of fault messages. -/

def Code.number (c : Code) : Nat :=
  match c with
  | .illegal => 0x01 | .priv => 0x02 | .window => 0x03 | .captag => 0x04 | .capbound => 0x05 | .capperm => 0x06
  | .align => 0x07 | .page => 0x08 | .gone => 0x09 | .format => 0x0A | .heldlost => 0x0B | .ringstate => 0x0C
  | .ganglost => 0x0D | .wickmiss => 0x0E | .eccfatal => 0x0F | .hang => 0x10 | .bounce => 0x11 | .trap => 0x20
  | .snuffnote => 0x21

/-- DETAIL of CAPTAG to ALIGN and of WINDOW (R415): access code, capability register or 0xFF, offset or register number. -/
def capDetail (access reg : Nat) (off : Nat) : BitVec 256 := BitVec.ofNat 256 (access + reg * 2 ^ 8 + off % 2 ^ 64 * 2 ^ 64)
/-- DETAIL of ECCFATAL (R415): the place, the DRAM status or 0, the syndrome. -/
def eccDetail (place status : Nat) : BitVec 256 :=
  BitVec.ofNat 256 (place % 2 ^ 64 + status * 2 ^ 64 + (Config.eccSyndrome place).toNat * 2 ^ 72)
/-- DETAIL of ILLEGAL and PRIV: the parcels and the check step of R243. -/
def parcelDetail (ps : List Parcel) (step : Nat) : BitVec 256 :=
  BitVec.ofNat 256 ((ps.getD 0 0).toNat + (ps.getD 1 0).toNat * 2 ^ 32 + (ps.getD 2 0).toNat * 2 ^ 64 + step * 2 ^ 96)
/-- DETAIL of PAGE (R415, R66). -/
def pageDetail (va access level cause ctx : Nat) : BitVec 256 :=
  BitVec.ofNat 256 (va % 2 ^ 48 + access * 2 ^ 48 + level * 2 ^ 52 + cause * 2 ^ 64 + ctx * 2 ^ 72)

/-- A fault message (R415). -/
def faultMessage (code : Code) (sync rec parked : Bool) (ctx handler actor tsc contref src pc : Nat) (detail : BitVec 256) :
    List Byte :=
  let w0 := code.number * 2 ^ 56 + sync.toNat * 2 ^ 55 + rec.toNat * 2 ^ 54 + parked.toNat * 2 ^ 53 + ctx * 2 ^ 48 +
    (if sync then handler else 0) * 2 ^ 43 + actor
  leBytes 8 w0 ++ leBytes 8 tsc ++ leBytes 8 (if rec then contref else 0) ++ leBytes 8 (src * 2 ^ 40 + pc) ++
    leBytes 32 detail.toNat

/-! Messages (R92). -/

/-- The header word of a message (R92). -/
def Msg.header (m : Msg) : Nat :=
  m.dest.toNat * 2 ^ 40 + m.eos.toNat * 2 ^ 39 + m.handle * 2 ^ 34 + m.seq.toNat * 2 ^ 18 + m.name.toNat % 2 ^ 18

/-- A message leaving a unit at its own router; messages of agents enter at the first tile of row 0 (R26). -/
def message (src : Psn) (region : Nat) (name dest : BitVec 24) (handle : Nat) (payload : List Byte) : Msg :=
  { dest, eos := false, handle, seq := 0, name, payload, src, region,
    tile := if psnClass src ≤ 1 then src else unitAt region 1 0, port := 0, flood := none, stage := .router, reason := 0,
    reply := false, forwarded := false, acks := 0, deps := [] }

/-- The channel of counter posts between two names (R92, R31): the next number to send and the next to take. -/
def Region.postChannel (r : Region) (source dest : BitVec 24) : BitVec 16 × BitVec 16 :=
  ((r.posts.find? (fun x => x.1 == source && x.2.1 == dest)).map (fun x => x.2.2)).getD (0, 0)
def Region.setPost (r : Region) (source dest : BitVec 24) (v : BitVec 16 × BitVec 16) : Region :=
  { r with posts := upsert r.posts (fun x => x.1 == source && x.2.1 == dest) (source, dest, v) }
/-- The next number of such a channel is used. -/
def State.countPost (s : State) (region : Nat) (source dest : BitVec 24) : State :=
  s.modRegion region (fun r => r.setPost source dest ((r.postChannel source dest).1 + 1, (r.postChannel source dest).2))

/-- The service-core agent's name in a region (R25). -/
def State.serviceName (s : State) (region : Nat) : BitVec 24 := s.fullName region 0x3FFF1

/-- The slots of the service core's inbox still free, counting messages on their way (R416). -/
def State.inboxRoom (s : State) (region : Nat) : Bool :=
  decide ((s.getRegion region).inbox.length +
    (s.flight.filter (fun i => match i.body with
      | .message m => m.handle == 30 && m.region == region && m.dest == s.serviceName region
      | _ => false)).length < 512)

/-- Sends a fault message of a core, or keeps it among its unsent ones while the inbox is full (R416). -/
def State.postFault (s : State) (core : Psn) (payload : List Byte) : State :=
  let c := s.getCore core
  let r := psnRegion core
  if c.unsent.isEmpty ∧ s.inboxRoom r then
    s.launchItem (.message (message core r c.name (s.serviceName r) 30 payload))
  else s.modCore core (fun c => { c with unsent := c.unsent ++ [(payload, s.serviceName r)] })

/-- A fault sent against the graph (SYNC = 0): q52 counts it when its message takes a slot (R414, R416). -/
def State.graphFault (s : State) (core : Psn) (code : Code) (ctx actor : Nat) (detail : BitVec 256) : State :=
  let c := s.getCore core
  (s.modCore core (·.addQ 52 1)).postFault core
    (faultMessage code false false c.halting ctx 0 actor s.tsc.toNat 0 core 0 detail)

/-! Continuation records (R188, R191). -/

def Tile.record (t : Tile) (i : Nat) : Option Record := t.records.find? (·.index == i)
def Tile.freeShort (t : Tile) : Option Nat := (List.range 128).find? (fun i => (t.record i).isNone && !t.reserved.any (·.2 == i))
/-- The short record that a core has allocated and not written (R187, R294). -/
def Tile.reservedBy (t : Tile) (p : Psn) : Option Nat := (t.reserved.find? (·.1 == p)).map Prod.snd
/-- The short record that an instruction of a core takes when it suspends: the one it has allocated, else the lowest free one. -/
def Tile.shortFor (t : Tile) (p : Psn) : Option Nat := (t.reservedBy p).orElse (fun _ => t.freeShort)
def Tile.reserve (t : Tile) (p : Psn) (i : Nat) : Tile := { t with reserved := t.reserved.filter (·.1 != p) ++ [(p, i)] }
def Tile.unreserve (t : Tile) (p : Psn) : Tile := { t with reserved := t.reserved.filter (·.1 != p) }
/-- A core gives up the record it has allocated: the instruction does not go on. -/
def State.unreserve (s : State) (p : Psn) : State :=
  match s.homeTile (s.getCore p) with
  | some t => if ((s.getTile t).reservedBy p).isSome then s.modTile t (·.unreserve p) else s
  | none => s
def Tile.freeFull (t : Tile) : Option Nat := [128, 129, 130, 131].find? (fun i => (t.record i).isNone)
def Tile.dropRecord (t : Tile) (i : Nat) : Tile := { t with records := t.records.filter (·.index != i) }
def Tile.putRecord (t : Tile) (r : Record) : Tile := { t with records := upsert t.records (·.index == r.index) r }

/-- The reference of a full record in the layout of R300. -/
def contRef (tile : Psn) (index : Nat) : Nat := tile * 2 ^ 24 + (index - 128)

/-! Special accesses to a store tile: what `op` says beyond the request codes of R110. -/

def opCounterRead : Nat := 0x20
def opCounterPost : Nat := 0x21
def opStcfg : Nat := 0x22
def opSbufset : Nat := 0x23

/-- Whether two accesses are requests to one DRAM actor. -/
def sameActor (a b : Access) : Bool :=
  match a.owner, b.owner with
  | .dram p, .dram q => p / 2 ^ 10 % 32 == q / 2 ^ 10 % 32
  | _, _ => false
/-- Among accesses in the order of their issue, those that stand back behind ones to be issued again: held by one of them, or behind one that is held at its
DRAM actor (R154, R164). -/
def stuckBehind (noted : List Nat) (l : List (Nat × Access)) : List (Nat × Access) :=
  l.foldl (fun acc x =>
    if x.2.stage == .held && (x.2.deps.any (fun d => noted.contains d || acc.any (·.1 == d)) || acc.any (fun y => sameActor y.2 x.2)) then acc ++ [x]
    else acc) []
/-- The accesses of a core that no reply can complete before a RESUME: those noted for their reissue, and those never sent that stand behind them. -/
def State.kept (s : State) (core : Psn) (noted : List Nat) : List Nat := noted ++ (stuckBehind noted (s.accessesOf core)).map (·.1)
/-- Whether every access an activation has sent is complete, or has been answered GONE or with an owner's fault and noted for its reissue
(R164), and no register waits for any other reply (log entry 33). What is held behind a noted access is not sent. Engine operations without a
register are not its accesses; a counter post to a tile is. -/
def State.drained (s : State) (core : Psn) (serial : Nat) : Bool :=
  let mine := (s.accessesOf core).filter (fun x => x.2.serial == serial)
  let noted := s.kept core (((s.getCore core).act.map (·.reissue)).getD [])
  mine.all (fun x => (x.2.engine && x.2.landing == .none && x.2.op != opCounterPost) || noted.contains x.1) &&
    (s.getCore core).pend.all (fun x => mine.any (fun y => y.1 == x.2))

/-- The registers of a suspended activation as its record keeps them: those at or above W are zero (R191). -/
def Regs.kept (r : Regs) (window : Nat) : Regs :=
  { r with g := Vector.ofFn (fun i : Fin 64 => if i.val < window then at_ r.g i.val 0 else 0), tok := Vector.replicate 8 [] }

/-- Clears what an activation leaves behind on its core: registers are not kept (R174), no register is pending, an MMAD between two steps
fetches again (R375). -/
def Core.leave (c : Core) : Core :=
  { c with act := none, pend := [], waiting := false, wickOn := false, caught := c.caught.filter (fun x => x.1 != 0), matOps := c.matOps.filter (fun m => m.stage != .stepping)
           regs := { c.regs with tok := Vector.replicate 8 [] } }

/-- The full record of a faulted continuation. It is always pinned (R191). -/
def faultedRecord (c : Core) (a : Act) (f : FaultInfo) (reissue : List Nat) (index : Nat) : Record :=
  { index, ready := false, pinned := true, entry := a.entry, actor := a.actor, ctx := a.ctx, pc := c.regs.pc.truncate 32,
    wid := a.wid, mask := 0, src := c.psn, claims := a.claims, window := a.window, pairs := [], saved := [],
    full := some { serial := a.serial, regs := c.regs.kept a.window, fault := f, reissue := reissue, gang := a.gang, reply := none, claims := a.claims,
                   widShape := a.widShape },
    offered := [] }

/-- A member's fault is noted in its leader's fault word and ends its attachment (R194, R197). -/
def State.noteGangFault (s : State) (a : Act) : State :=
  match a.gang with
  | some g =>
    if g.position = 0 then s
    else s.modCore g.leader (fun l => { l with act := l.act.map (fun la =>
      { la with gang := la.gang.map (fun lg => { lg with faults := lg.faults ||| BitVec.ofNat 64 (2 ^ g.position) }) }) })
  | none => s

/-- A faulted activation waits on its core until a full record, its drain and a message slot allow the conversion (R191, R416). -/
def State.haltAct (s : State) (core : Psn) (f : FaultInfo) : State :=
  (s.unreserve core).modCore core (fun c => { c with waiting := true, act := c.act.map (fun a => { a with halted := some (a.halted.getD f) }) })

/-- TAKING A FAULT (R66, R191, R414 to R416). The activation of a core becomes a faulted continuation: a full record of its home
store tile takes its registers, its pc and its capabilities, FHOLD keeps its entry from firing, q52 counts the
fault, the fault message names the record, and the core is free. While no full record is free, while accesses
drain or while four messages are unsent, the activation stays resident. A fault of service firmware is logged by
the monitor with the TSC and the PSN (R7). -/
def State.faultCore (s : State) (core : Psn) (f : FaultInfo) : State :=
  let c := s.getCore core
  match c.act with
  | none => s
  | some a =>
    if levelOf core ≠ .graph then
      let s := s.haltAct core f
      { s with module := { s.module with monitorLog := s.module.monitorLog ++ [(s.tsc.toNat, core, f)] } }
    else match s.homeTile c with
    | none => s.haltAct core f
    | some tp =>
      let t := s.getTile tp
      match t.freeFull with
      | none => s.haltAct core f
      | some i =>
        if s.drained core a.serial = false ∨ 4 ≤ c.unsent.length then s.haltAct core f
        else
          let s := (s.noteGangFault a).unreserve core
          let c := s.getCore core
          let s := s.putTile ((s.getTile tp).putRecord (faultedRecord c a f a.reissue i))
          let s := s.putCore ((if f.code = .trap ∨ f.counted then c.leave else c.leave.addQ 52 1).setFhold a.entry true)
          s.postFault core (faultMessage f.code true true c.halting a.ctx a.entry a.actor s.tsc.toNat (contRef tp i) core
            (f.at_.getD (c.regs.pc.toNat % 2 ^ 32)) f.detail)

/-- Taking a fault on the issuing core. -/
def State.takeFault (s : State) (f : FaultInfo) : State := s.faultCore s.core.psn f

/-- RETURN FROM A FAULT (R67, R191, R300). A core starts the record of a faulted continuation that a reply has made ready: every
register as saved, the pc at the saved pc, tokens empty; the record is free again and FHOLD clears. What the activation issues from now on comes after
the accesses that are issued again (R164). -/
def Core.resumeFull (c : Core) (r : Record) (f : FullRecord) (value : Option (List Byte)) : Core :=
  let d : Core := { c with
    regs := f.regs
    act := some { serial := f.serial, entry := r.entry, level := hPrio (c.handler r.entry), window := r.window, wid := r.wid, widShape := f.widShape, actor := r.actor,
                  ctx := r.ctx, claims := f.claims, gang := f.gang.map (fun g => { g with attached := false }), joining := [],
                  halted := none, boundary := [], reissue := [], redo := f.reissue, resumed := value, isResumed := true
                  fences := if f.reissue = [] then [] else [(4, f.reissue)], acquires := [] }
    pend := [], waiting := false, matMode := false }
  d.setFhold r.entry false

/-! The issue of an instruction (R230, R231, R243). -/

/-- Why an instruction does not complete at this step: it waits at issue (R301), or it raises a fault. `illegal` and `window`
carry what their DETAIL needs; `trap` is taken with the pc past the instruction (R288). -/
inductive Stop where
  | wait
  | fault (f : FaultInfo)
  | illegal (step : Nat)
  | window (n : Nat)
  | priv (step : Nat)
  | trap (n : Nat)
  deriving DecidableEq, Repr

/-- The effect of an instruction on the state in which the pc already stands past it. -/
abbrev Body' := State → Except Stop State

/-- What the issue stage needs of an encoding: its length, its parcels, its direct g fields, the registers it must find
written, its guard and token. `holds` says that AFTER holds the access and not the issue (R151). -/
structure Form where
  length : Nat
  words : List Parcel
  gs : List Nat
  regs : List RegName
  guard : Nat
  ginv : Bool
  after : Nat
  holds : Bool
  deriving DecidableEq, Repr

/-- The register that a field names, for the wait of R147. -/
def Field.reg (f : Field) (r : Reg) : Option RegName :=
  match f with
  | .gSrc | .gDst | .gBoth => some (.g r.toNat)
  | .vSrc | .vDst | .vBoth => some (.v r.toNat)
  | .pSrc | .pDst => some (.p r.toNat)
  | .pCond => some (.p (r.toNat % 8))
  | .cSrc | .cDst => some (.c r.toNat)
  | _ => none
/-- The number of a direct g field (R179). -/
def Field.gNum (f : Field) (r : Reg) : Option Nat :=
  match f with
  | .gSrc | .gDst | .gBoth => some r.toNat
  | _ => none

def longForm (r : LRow) (holds : Bool) (x : Long) : Form :=
  let k := r.kinds x
  let fs := [(k.d, x.d), (k.a, x.a), (k.b, x.b), (k.c, x.c)]
  { length := if x.wide then 12 else 8
    words := encodeEnc (.long r x)
    gs := fs.filterMap (fun f => f.1.gNum f.2)
    regs := (if x.guard = 0 then [] else [.p x.guard.toNat]) ++ fs.filterMap (fun f => f.1.reg f.2)
    guard := x.guard.toNat, ginv := x.ginv, after := x.after.toNat, holds }

def shortAForm (r : ARow) (x : ShortA) : Form :=
  let fs := [(r.d, x.d), (r.a, x.a), (r.b, x.b)]
  { length := 4, words := [packShortA r.on x], gs := fs.filterMap (fun f => f.1.gNum f.2),
    regs := fs.filterMap (fun f => f.1.reg f.2), guard := 0, ginv := false, after := 0, holds := false }

def shortBForm (r : BRow) (x : ShortB) : Form :=
  let fs := [(r.d, x.d), (r.a, x.a)]
  { length := 4, words := [packShortB r.sop x], gs := fs.filterMap (fun f => f.1.gNum f.2),
    regs := fs.filterMap (fun f => f.1.reg f.2), guard := 0, ginv := false, after := 0, holds := false }

/-- The pc past an instruction; the core no longer waits. -/
def State.advance (s : State) (n : Nat) : State :=
  { s with core := { s.core with waiting := false, since := if s.core.waiting then s.core.since else none, regs := { s.core.regs with pc := s.core.regs.pc + BitVec.ofNat 64 n } } }
/-- The instruction at the pc waits. -/
def State.hold (s : State) : State :=
  { s with core := { s.core with waiting := true, since := some (if s.core.waiting then s.core.since.getD s.tsc.toNat else s.tsc.toNat) } }

/-- A fault of the instruction at the pc, with the DETAIL its code has (R415). -/
def Stop.info (st : Stop) (words : List Parcel) : FaultInfo :=
  match st with
  | .wait => { code := .illegal, detail := 0 }
  | .fault f => f
  | .illegal step => { code := .illegal, detail := parcelDetail words step }
  | .window n => { code := .window, detail := capDetail 0 0xFF n }
  | .priv step => { code := .priv, detail := parcelDetail words step }
  | .trap n => { code := .trap, detail := BitVec.ofNat 256 n }

/-- The result of a body, over the state before the instruction. -/
def settle (f : Form) (s : State) (r : Except Stop State) : Out :=
  match r with
  | .ok t => .next t
  | .error .wait => .next s.hold
  | .error (.trap n) => .next ((s.advance f.length).takeFault ((Stop.trap n).info f.words))
  | .error e => .next (s.takeFault (e.info f.words))

/-- Lane 0 of the guard, exclusive-ORed with GINV (R230). -/
def State.guardRuns (s : State) (f : Form) : Bool := (s.p f.guard).getLsbD 0 != f.ginv

/-- The checks of R243 after decode, then the body: PRIV, WINDOW, the guard, the waits for tokens and pending registers. Without a
resident activation, or while it is halted, nothing issues. -/
def issue (f : Form) (priv : Bool) (body : Body') (s : State) : Out :=
  match s.core.act with
  | none => .next s
  | some a =>
    if a.halted.isSome then .next s
    else if priv ∧ s.level = .graph then settle f s (.error (.priv 3))
    else match f.gs.find? (fun n => decide (a.window ≤ n)) with
    | some n => settle f s (.error (.window n))
    | none =>
      if s.core.isPending (.p f.guard) then .next s.hold
      else if s.guardRuns f = false then .next (s.advance f.length)
      else if (!f.holds && !s.gone (s.tok f.after)) || f.regs.any s.core.isPending then .next s.hold
      else settle f s (body (s.advance f.length))

/-- The address of parcel 0 of the instruction that a body runs (its pc already stands past it). -/
def State.pc0 (s : State) (n : Nat) : Word := s.core.regs.pc - BitVec.ofNat 64 n

/-! The wrappers by format. -/

/-- An instruction whose AFTER holds issue (R231). -/
def issueL (r : LRow) (x : Long) (body : Body') (s : State) : Out := issue (longForm r false x) false body s
/-- An instruction whose AFTER holds its accesses or messages (R151). -/
def issueM (r : LRow) (x : Long) (body : Body') (s : State) : Out := issue (longForm r true x) false body s
/-- A privileged instruction (R242). -/
def issueP (r : LRow) (x : Long) (body : Body') (s : State) : Out := issue (longForm r false x) true body s
def issueA (r : ARow) (x : ShortA) (body : Body') (s : State) : Out := issue (shortAForm r x) false body s
def issueB (r : BRow) (x : ShortB) (body : Body') (s : State) : Out := issue (shortBForm r x) false body s

/-- A step of another agent that is not enabled leaves the machine as it is. -/
def event (enabled : Bool) (s t : State) : Out := if enabled then .next t else .next s

/-- A wait inside a body unless a register is written (R147). -/
def State.ready (s : State) (r : RegName) : Except Stop Unit := if s.core.isPending r then .error .wait else .ok ()

end Sys2Proof.Machine
end

