-- ==== Sys2Proof/Machine/Operands.lean ====
section
/-! DEFINITION. The operand forms of the standard layout (09 R236, R237) and of the short formats (R224 to R226): where each source
comes from and which register a result goes to. -/
namespace Sys2Proof.Machine
open Sys2Proof

/-- The window W of the running activation (R179). -/
def State.window (s : State) : Nat := (s.core.act.map (·.window)).getD 64

/-- g[gi + k]: the register number of a relative operand, the sum taken as signed 64 bits; outside 0 to W − 1 WINDOW is raised
and nothing is committed (R237). The register named may itself be pending (R147). -/
def State.relative (s : State) (idx : Reg) (k : Int) : Except Stop Nat :=
  let n := (s.g idx.toNat).toInt + k
  if n < 0 ∨ (s.window : Int) ≤ n then .error (.window (BitVec.ofInt 64 n).toNat)
  else if s.core.isPending (.g n.toNat) then .error .wait else .ok n.toNat

/-- A literal by the type it serves (R236): sign-extended for signed integers, zero-extended for unsigned ones, an FP32 encoding
widened exactly for .f64. -/
def literal (t : TyCode) (v : BitVec 32) : Nat :=
  if isSigned t then (v.signExtend 64).toNat else if t = 11 then encodeFp 11 0 (fpOf 10 v.toNat) else v.toNat
/-- IMM12, sign-extended. -/
def imm12 (v : BitVec 12) : Nat := (v.signExtend 64).toNat

end Sys2Proof.Machine

namespace Sys2Proof.Long
open Sys2Proof.Machine

/-- The type, rounding and saturation of a standard instruction: in L64 FORM 01 the type stands in C and the others are zero (R236). -/
def opType (x : Long) : TyCode := if !x.wide && x.form == 1 then x.c.extractLsb' 0 4 else x.ty
def opRm (x : Long) : BitVec 2 := if !x.wide && x.form == 1 then 0 else x.rm
def opSat (x : Long) : Bool := if !x.wide && x.form == 1 then false else x.sat
/-- Whether the form is the relative one. -/
def isRel (x : Long) : Bool := x.wide && x.form == 2

def srcA (x : Long) (s : State) : Except Stop Nat :=
  if x.isRel && x.relA then (s.relative x.a x.kA.toInt).map (fun n => (s.g n).toNat) else .ok (s.g x.a.toNat).toNat
/-- The second source: a register, an immediate or literal in FORM 01, or relative. -/
def srcB (x : Long) (s : State) : Except Stop Nat :=
  if x.isRel && x.relB then (s.relative x.b x.kB.toInt).map (fun n => (s.g n).toNat)
  else if x.form = 1 then .ok (if x.wide then literal x.ty x.lit else imm12 x.hi)
  else .ok (s.g x.b.toNat).toNat
def srcC (x : Long) (s : State) : Except Stop Nat :=
  if x.isRel && x.relC then (s.relative x.c x.kC.toInt).map (fun n => (s.g n).toNat) else .ok (s.g x.c.toNat).toNat
/-- The number of the destination register. -/
def dst (x : Long) (s : State) : Except Stop Nat :=
  if x.isRel && x.relD then s.relative x.d x.kD.toInt else .ok x.d.toNat

/-- One source, a typed result. -/
def run1 (x : Long) (f : TyCode → BitVec 2 → Bool → Nat → Nat) : Body' := fun s => do
  let a ← x.srcA s
  let d ← x.dst s
  return s.setG d (extend x.opType (f x.opType x.opRm x.opSat a))
/-- Two sources, a typed result. -/
def run2 (x : Long) (f : TyCode → BitVec 2 → Bool → Nat → Nat → Nat) : Body' := fun s => do
  let a ← x.srcA s
  let b ← x.srcB s
  let d ← x.dst s
  return s.setG d (extend x.opType (f x.opType x.opRm x.opSat a b))
/-- Three sources, a typed result. -/
def run3 (x : Long) (f : TyCode → BitVec 2 → Bool → Nat → Nat → Nat → Nat) : Body' := fun s => do
  let a ← x.srcA s
  let b ← x.srcB s
  let c ← x.srcC s
  let d ← x.dst s
  return s.setG d (extend x.opType (f x.opType x.opRm x.opSat a b c))
/-- One source, a plain number as the result (R266: ADDC, SUBB, CLZ, CTZ and POPC are in range as they are). -/
def count1 (x : Long) (f : TyCode → Nat → Nat) : Body' := fun s => do
  let a ← x.srcA s
  let d ← x.dst s
  return s.setG d (BitVec.ofNat 64 (f x.opType a))
def count2 (x : Long) (f : TyCode → Nat → Nat → Nat) : Body' := fun s => do
  let a ← x.srcA s
  let b ← x.srcB s
  let d ← x.dst s
  return s.setG d (BitVec.ofNat 64 (f x.opType a b))

end Sys2Proof.Long

namespace Sys2Proof.ShortA
open Sys2Proof.Machine

/-! L32A: the type in SUB, rounding RNE, no saturation (R224). -/

def run1 (x : ShortA) (f : TyCode → BitVec 2 → Bool → Nat → Nat) : Body' := fun s =>
  .ok (s.setG x.d.toNat (extend x.sub (f x.sub 0 false (s.g x.a.toNat).toNat)))
def run2 (x : ShortA) (f : TyCode → BitVec 2 → Bool → Nat → Nat → Nat) : Body' := fun s =>
  .ok (s.setG x.d.toNat (extend x.sub (f x.sub 0 false (s.g x.a.toNat).toNat (s.g x.b.toNat).toNat)))
def count1 (x : ShortA) (f : TyCode → Nat → Nat) : Body' := fun s =>
  .ok (s.setG x.d.toNat (BitVec.ofNat 64 (f x.sub (s.g x.a.toNat).toNat)))
def count2 (x : ShortA) (f : TyCode → Nat → Nat → Nat) : Body' := fun s =>
  .ok (s.setG x.d.toNat (BitVec.ofNat 64 (f x.sub (s.g x.a.toNat).toNat (s.g x.b.toNat).toNat)))

end Sys2Proof.ShortA

namespace Sys2Proof.ShortB
open Sys2Proof.Machine

/-- L32B: a sign-extended immediate as the second source (R225, R226). -/
def run2 (x : ShortB) (t : TyCode) (f : TyCode → BitVec 2 → Bool → Nat → Nat → Nat) : Body' := fun s =>
  .ok (s.setG x.d.toNat (extend t (f t 0 false (s.g x.a.toNat).toNat (imm12 x.imm))))

end Sys2Proof.ShortB
end

