-- ==== Sys2Proof/Machine/Activation.lean ====
section
/-! DEFINITION. Activations (chapter 07): what a core's entries may do, starting and ending an activation, the run queue, continuation
records and gangs. -/
namespace Sys2Proof.Machine
open Sys2Proof

/-! Graph data of a core. -/

/-- The graph that has an actor on a core: the one that is loaded there, else a parked one that keeps its names or one still to load. -/
def State.graphOn (s : State) (p : Psn) : Option Graph :=
  let here (g : Graph) : Bool := g.stat != 0 && g.actors.any (fun a => a.2.1 == p)
  (s.graphs.find? (fun g => here g && g.stat != 3 && !g.unarmed.contains p)).orElse (fun _ => s.graphs.find? here)
/-- The translation context of a core's activations: its graph's, or 0 (R54). -/
def State.ctxOf (s : State) (p : Psn) : Nat := ((s.graphOn p).map (·.ctx)).getD 0
/-- Wick interval i of a context's graph (R289, R396): bytes 32 + 4(i − 1) of the launch header. -/
def State.wickInterval (s : State) (region ctx i : Nat) : Word :=
  if i = 0 then 0 else
  match s.graphOf region ctx with
  | some g => BitVec.ofNat 64 (fld g.header (32 * (i - 1) + 287) (32 * (i - 1) + 256))
  | none => 0

/-! Queues (R90 to R95). Fields of an input descriptor. -/

abbrev Queue := BitVec 128
def Core.queue (c : Core) (h : Nat) : Queue := at_ c.queues h 0
def Core.setQueue (c : Core) (h : Nat) (q : Queue) : Core := { c with queues := put c.queues h q }
def qMerge (q : Queue) : Nat := fld q 127 126
def qComm (q : Queue) : Bool := bit q 125
def qEnded (q : Queue) : Bool := bit q 124
def qProducers (q : Queue) : Nat := fld q 117 113 + 1
def qEos (q : Queue) : Nat := fld q 111 106
def qSlotBytes (q : Queue) : Nat := 32 * 2 ^ fld q 105 104
def qDepth (q : Queue) : Nat := fld q 103 96 + 1
def qBase (q : Queue) : Nat := fld q 80 64
def qRead (q : Queue) : Nat := fld q 63 32
def qArrived (q : Queue) : Nat := fld q 31 0
/-- Fields of an output descriptor (R91). -/
def oDest (q : Queue) : BitVec 24 := q.extractLsb' 104 24
def oHandle (q : Queue) : Nat := fld q 103 99
def oIndex (q : Queue) : Nat := fld q 98 94
def oSlotBytes (q : Queue) : Nat := 32 * 2 ^ fld q 93 92
def oDepth (q : Queue) : Nat := fld q 91 84 + 1
def oEosSent (q : Queue) : Bool := bit q 81
def oBase (q : Queue) : Nat := fld q 80 64
def oSeq (q : Queue) : Nat := fld q 63 48
def oCredits (q : Queue) : Nat := fld q 47 39
def oProd (q : Queue) : Nat := fld q 31 16
def oSent (q : Queue) : Nat := fld q 15 0
/-- Staged slots not yet sent, and the slots a producer sees free (R93). -/
def oStaged (q : Queue) : Nat := (oProd q + 2 ^ 16 - oSent q) % 2 ^ 16
def oFree (q : Queue) : Nat := min (oCredits q) (oDepth q - oStaged q)

/-- The slots of a handle in presentation order that have arrived and are not freed: producer and place in its sub-ring (R94). An
ordered merge keeps its turn order; the other kinds present slots in the order they arrived. `arrivals` lists arrived slots
in arrival order; for an ordered merge the turn passes over producers that have ended with nothing left. -/
def mergeOrder (fuel turn n : Nat) (left : List (Nat × Nat)) (ended : List Nat) : List (Nat × Nat) :=
  match fuel with
  | 0 => []
  | k + 1 =>
    match left.find? (fun x => x.1 == turn) with
    | some x => x :: mergeOrder k ((turn + 1) % n) n (left.filter (· != x)) ended
    | none => if ended.contains turn then mergeOrder k ((turn + 1) % n) n left ended else []

/-- The producers of a handle, in index order (R94). -/
def Core.producers (c : Core) (h : Nat) : List Chan := c.chans.filter (·.handle == h)
/-- The producer whose turn it is in an ordered merge (R94): the one after the producer of the last slot consumed. -/
def Core.turnOf (c : Core) (h : Nat) : Nat := ((c.turns.find? (fun (x : Nat × Nat) => x.1 == h)).map Prod.snd).getD 0

/-- The presented slots of a handle (R94). -/
def Core.presented (c : Core) (h : Nat) : List (Nat × Nat) :=
  let q := c.queue h
  let mine := (c.arrivals.filter (fun x => x.1 == h)).map (·.2)
  if qMerge q = 1 then
    let ended := ((c.producers h).zipIdx.filter (fun x => x.1.eos)).map (·.2)
    mergeOrder (mine.length * (qProducers q + 1) + qProducers q) (c.turnOf h) (qProducers q) mine ended
  else mine
/-- The filled count F (R94). -/
def Core.filled (c : Core) (h : Nat) : Nat := (c.presented h).length

/-- The index of a sender that is no producer: a DRAM actor's reply (R92), a notification (R184). -/
def noProducer : Nat := 32
/-- The LOCAL address of a slot: producer k's sub-ring of D/P slots, place i in it (R94). -/
def slotAddr (q : Queue) (k i : Nat) : Nat :=
  let share := qDepth q / qProducers q
  qBase q + ((if k = noProducer then 0 else k) * share + i % share) * qSlotBytes q

/-- The conditions of R90 on an input descriptor, and the same bounds on a staging ring (R91). -/
def queueSound (h : Nat) (q : Queue) : Bool :=
  if h < 20 then
    decide (qBase q % qSlotBytes q = 0 ∧ 2 ≤ qDepth q ∧ qBase q + qDepth q * qSlotBytes q ≤ 0x18000 ∧ qDepth q % qProducers q = 0) &&
      (match qMerge q with
        | 0 => qProducers q == 1
        | 1 => true
        | 2 => qComm q
        | _ => false)
  else decide (oBase q % oSlotBytes q = 0 ∧ oBase q + oDepth q * oSlotBytes q ≤ 0x18000)
/-- Whether a handle is valid follows its descriptor. -/
def Core.checkQueue (c : Core) (h : Nat) : Core :=
  { c with queueOk := if queueSound h (c.queue h) then c.queueOk ||| BitVec.ofNat 32 (2 ^ h) else c.queueOk &&& ~~~ (BitVec.ofNat 32 (2 ^ h)) }

/-! Firing (R176 to R178). -/

/-- An entry that the conditions of R176 keep from ever firing does not fire. -/
def entrySound (e : Nat) (h : Handler) : Bool :=
  hValid h && decide (8 ≤ hWindow h) && (hHandle h == e || hHandle h == 0x1F) && hEntry h % 4 == 0 &&
    decide (hDesc h + 288 ≤ 0x18000)
/-- The conditions of R177 other than the queue's. -/
def entryFree (e : Nat) (h : Handler) : Bool := entrySound e h && hReady h && !hHold h && !hFhold h && !hActive h
/-- Whether an entry fires now, and if so whether it is the end firing (R177). -/
def Core.fireable (c : Core) (e : Nat) : Bool :=
  let h := c.handler e
  entryFree e h && hHandle h == e && (decide (hFire h ≤ c.filled e) || c.endOwed.getLsbD e)

/-- Whether a run-queue entry comes before another: level, ready time, handler index, message activations first (R182). -/
def RunEntry.before (a b : RunEntry) : Bool :=
  if a.level ≠ b.level then decide (b.level < a.level)
  else if a.ready ≠ b.ready then decide (a.ready < b.ready)
  else if a.entry ≠ b.entry then decide (a.entry < b.entry)
  else a.cont.isNone && b.cont.isSome
def firstEntry (l : List RunEntry) : Option RunEntry :=
  l.foldl (fun best r => match best with
    | none => some r
    | some b => if r.before b then some r else some b) none

/-- A fireable entry enters the run queue with ACTIVE set, while there is room (R177, R182). -/
def State.fireEntry (s : State) (p : Psn) (e : Nat) (start : Option Word) : State :=
  s.modCore p (fun c =>
    if 32 ≤ c.runq.length then c
    else
      let d : Core := { c with runq := c.runq ++ [{ level := hPrio (c.handler e), ready := s.tsc.toNat, entry := e, cont := none,
                                                    start, promoted := s.tsc.toNat, filled := c.filled e
                                                    ending := c.endOwed.getLsbD e && decide (c.filled e = 0) }] }
      d.setActive e true)

/-! Starting (R175, R180, R192). -/

/-- The capabilities of an actor descriptor, loaded with their tags. -/
def State.descriptorCaps (s : State) (p : Psn) (desc : Nat) : Vector Cap 16 :=
  Vector.ofFn (fun i : Fin 16 => s.peekCap (localKey p (desc + 16 * i.val)))
/-- The widths of WID_SHAPE. -/
def State.descriptorWord (s : State) (p : Psn) (desc off : Nat) : Word :=
  BitVec.ofNat 64 (ofLe (s.bytes (localKey p (desc + off)) 8))

/-- The fresh state of an activation on a core (R180): `g1` its argument, `wid` its work identifier. -/
def State.freshAct (s : State) (c : Core) (e level : Nat) (g1 wid : Word) (gang : Option Gang) : Core :=
  let h := c.handler e
  let caps := s.descriptorCaps c.psn (hDesc h)
  let ctx := s.ctxOf c.psn
  { c with
    regs := { g := ((Vector.replicate 64 0).set 1 g1).set 2 (BitVec.ofNat 64 e), v := Vector.replicate 32 0,
              p := Vector.replicate 8 0, c := caps, pc := BitVec.ofNat 64 (hEntry h), fetch := at_ caps 0 Cap.null,
              tok := Vector.replicate 8 [] }
    act := some { serial := s.nextSerial, entry := e, level, window := hWindow h, wid, widShape := s.descriptorWord c.psn (hDesc h) 264,
                  actor := hActor h, ctx, claims := 0, gang, joining := [], halted := none, boundary := [], reissue := [],
                  resumed := none, isResumed := false, fences := [], acquires := [] }
    pend := [], waiting := false, matMode := false
    wick := s.wickInterval (psnRegion c.psn) ctx (hWick h), wickOn := hWick h != 0 }

/-- Whether a run-queue entry is a start activation (R400); a stage firing has g1 = 1 (R407). -/
def RunEntry.isStart (r : RunEntry) : Bool := r.start == some 0
/-- A message activation (R180, R192): FIRINGS counts it when it starts, a start activation apart; entry 19 and start activations take WID_BASE. -/
def State.startMessage (s : State) (p : Psn) (r : RunEntry) : State :=
  let c := s.getCore p
  let h := c.handler r.entry
  let base := s.descriptorWord p (hDesc h) 256
  let ending := r.start.isNone && r.ending
  let g1 : Word := r.start.getD (BitVec.ofNat 64 r.filled)
  let wid := if r.entry = 19 ∨ r.isStart then base else base + BitVec.ofNat 64 (hFirings h)
  let c := s.freshAct { c with runq := c.runq.filter (· != r), endOwed := if ending then c.endOwed &&& ~~~ (BitVec.ofNat 20 (2 ^ r.entry)) else c.endOwed } r.entry r.level g1 wid none
  let c := if r.isStart then c else c.setHandler r.entry (setFld h 63 32 (hFirings h + 1))
  let s := s.putCore c
  { s with nextSerial := s.nextSerial + 1 }

/-! Ending (R181, R276, R346). -/

/-- The address generator of a stream is free. -/
def State.freeGenerator (s : State) (st : Stream) : State :=
  match st.tile with
  | some t => s.modTile t (fun t => { t with generators := t.generators.filter (· != st.token) })
  | none => s
/-- A stream slot becomes unbound (R346): its address generator is free, data fetched ahead is discarded; vectors already pushed are still
written by the engine. `after` is what the unbinding of an output stream waits for: until then it holds the slot and the generator. -/
def State.unbindSlot (s : State) (p : Psn) (n unbind : Nat) (after : List Nat := []) : State :=
  match at_ (s.getCore p).streams n none with
  | none => s
  | some st =>
    let s := if st.output then s else s.dropItem st.token
    let later := st.output && !s.gone after
    let s := if later then s else s.freeGenerator st
    s.modCore p (fun c => { c with
      streams := put c.streams n none
      drains := if later || (st.output && st.pushed != []) then
          c.drains ++ [{ st with bound := false, unbind, closing := if later then some (n, after) else none }]
        else c.drains })
/-- Whether a slot is bound for an entry's activation; a faulted continuation keeps its slots (R347). -/
def Core.bindsFor (c : Core) (e n : Nat) : Bool :=
  match at_ c.streams n none with
  | some st => st.bound && st.owner == e
  | none => false
def Core.bindsAny (c : Core) (e : Nat) : Bool := (List.range 4).any (c.bindsFor e)
/-- Every slot an entry's activation has bound becomes unbound (R346, R347). -/
def State.unbindAll (s : State) (p : Psn) (e : Nat) : State :=
  (List.range 4).foldl (fun s n => if (s.getCore p).bindsFor e n then s.unbindSlot p n 0 else s) s

/-- A claim ends: the accumulator keeps its contents, its PROGRESS is cleared (R364, R375). -/
def Core.release (c : Core) (claims : BitVec 4) : Core :=
  { c with acc := Vector.ofFn (fun i : Fin 4 =>
      let x := at_ c.acc i.val Acc.zero
      if claims.getLsbD i.val then { x with progress := 0 } else x) }

/-- The end of a gang as its members receive it, after the instructions relayed before (R197). -/
def Relay.last : Relay := { p0 := 0, p1 := 0, p2 := 0, pc := 0, after := 0, ended := true }
/-- The end of a gang whose leader suspends: the member goes on alone (R294, log entry 29). -/
def Relay.solo : Relay := { Relay.last with ended := false, alone := true }
/-- A gang dissolves: its attached members end, or go on alone where `last` says so, and the others go on alone (R197). -/
def State.dissolve (s : State) (g : Gang) (last : Relay := Relay.last) : State :=
  g.members.foldl (fun s p =>
    let c := s.getCore p
    match c.act with
    | some a =>
      match a.gang with
      | some m =>
        if m.leader ≠ g.leader then s
        else if m.attached then
          (if !(m.relayed.isEmpty && m.received.isNone) then
            s.putCore { c with act := some { a with gang := some { m with relayed := m.relayed ++ [last] } } }
          else if last.ended then (s.unbindAll p a.entry).modCore p (fun c => (c.leave.release a.claims).setActive a.entry false)
          else s.putCore { c with act := some { a with gang := none } })
        else s.putCore { c with waiting := false, act := some { a with gang := none } }
      | none => s
    | none => s) s

/-- The activation of a core ends: ACTIVE clears, claims are released, its gang dissolves if it leads it. Its accesses in flight stay
with the load-store unit (R75); its bound streams are unbound (R346). -/
def State.endAct (s : State) (p : Psn) : State :=
  match (s.getCore p).act with
  | none => s
  | some a =>
    let s := match a.gang with
      | some g => if g.position = 0 then s.dissolve { g with leader := p } else s
      | none => s
    (s.unbindAll p a.entry).modCore p (fun c => (c.leave.release a.claims).setActive a.entry false)

/-! Short records (R187, R188, R190). -/

def shortRecord (c : Core) (a : Act) (index : Nat) (pairs : List (Nat × Word)) (mask : Word) : Record :=
  { index, ready := false, pinned := a.claims != 0, entry := a.entry, actor := a.actor, ctx := a.ctx,
    pc := c.regs.pc.truncate 32, wid := a.wid, mask, src := c.psn, claims := a.claims, window := a.window, pairs,
    saved := ((List.range 64).filter (fun i => mask.getLsbD i)).map c.getG, full := none, offered := []
    gang := (a.gang.filter (fun g => g.position != 0)).map (fun g => { g with attached := false, relayed := [], received := none }) }

/-- The counter that a reference names: qn of a core, or sqk of a home tile (R187). -/
def State.counter (s : State) (p tile : Psn) (ref : Nat) : Word :=
  if ref < 64 then (s.getCore p).getQ ref else at_ (s.getTile tile).sq (ref - 64) 0
def State.allReached (s : State) (p tile : Psn) (pairs : List (Nat × Word)) : Bool :=
  pairs.all (fun x => decide (x.2.toNat ≤ (s.counter p tile x.1).toNat))

/-- The cores a record is offered to (R190): those of the quad that host its entry without HOLD, and always its suspending core, unless a move has begun there
(R411). -/
def State.eligible (s : State) (tile : Psn) (r : Record) : List Psn :=
  let hosts (p : Psn) : Bool :=
    let h := (s.getCore p).handler r.entry
    hValid h && (!hHold h || (p == r.src && !(s.getRegion (psnRegion p)).move.any (·.from_ == p))) && hActor h == r.actor && s.ctxOf p == r.ctx && (s.getCore p).live && !(s.getCore p).snuffed
  if r.pinned then (if hosts r.src then [r.src] else [])
  else ((quadCores tile ++ [r.src]).eraseDups).filter hosts

/-- The home tile sets READY and offers the record to every eligible core's run queue, where it has room; its ready time is the moment READY was set (R182,
R190). -/
def State.offer (s : State) (tile : Psn) (index : Nat) : State :=
  match (s.getTile tile).record index with
  | none => s
  | some r =>
    let to_ := (s.eligible tile r).filter (fun p => decide ((s.getCore p).runq.length < 32) && !r.offered.contains p)
    let since := if r.ready then r.readyAt else s.tsc.toNat
    let s := s.modTile tile (·.putRecord { r with ready := true, readyAt := since, offered := r.offered ++ to_ })
    to_.foldl (fun s p => s.modCore p (fun c =>
      { c with runq := c.runq ++ [{ level := hPrio (c.handler r.entry), ready := since, entry := r.entry,
                                    cont := some (tile, index), start := none, promoted := since }] })) s

/-- A short record resumes (R190): the masked registers, the pc, the work identifier; the other registers zero, the capabilities again
from the descriptor, tokens empty, claims kept. -/
def State.resumeShort (s : State) (c : Core) (r : Record) (level : Nat) : Core :=
  let h := c.handler r.entry
  let idx := (List.range 64).filter (fun i => r.mask.getLsbD i)
  let g := (idx.zip r.saved).foldl (fun (g : Vector Word 64) x => put g x.1 x.2) (Vector.replicate 64 0)
  let caps := s.descriptorCaps c.psn (hDesc h)
  { c with
    regs := { g, v := Vector.replicate 32 0, p := Vector.replicate 8 0, c := caps, pc := r.pc.zeroExtend 64,
              fetch := at_ caps 0 Cap.null, tok := Vector.replicate 8 [] }
    act := some { serial := s.nextSerial, entry := r.entry, level, window := r.window, wid := r.wid,
                  widShape := s.descriptorWord c.psn (hDesc h) 264, actor := r.actor, ctx := r.ctx, claims := r.claims, gang := r.gang,
                  joining := [], halted := none, boundary := [], reissue := [], resumed := none, isResumed := true, fences := [],
                  acquires := [] }
    pend := [], waiting := false, matMode := false
    wick := s.wickInterval (psnRegion c.psn) r.ctx (hWick h), wickOn := hWick h != 0 }

/-- The register that a reply lands in. -/
def Landing.reg (l : Landing) : Option RegName :=
  match l with
  | .none => Option.none
  | .gpr n _ _ => some (.g n)
  | .vec n _ => some (.v n)
  | .cap n _ => some (.c n)
  | .push _ _ _ => Option.none
  | .result n => some (.g n)

/-- The registers that accesses of an activation still in flight will write (R74). -/
def State.pendingOf (s : State) (core : Psn) (serial : Nat) : List (RegName × Nat) :=
  (s.accessesOf core).filterMap (fun x => if x.2.serial = serial then x.2.landing.reg.map (fun r => (r, x.1)) else none)

/-- Whether a gang still has the core as its leader or a member; a leader that is a faulted continuation keeps it (R197). -/
def State.gangAlive (s : State) (p : Psn) (g : Gang) : Bool :=
  let leads (h : Gang) : Bool := h.position == 0 && h.members.contains p
  g.position == 0 || (s.getCore g.leader).act.any (fun a => a.gang.any leads) ||
    ((s.homeTile (s.getCore g.leader)).any (fun t => (s.getTile t).records.any (fun r => r.src == g.leader && r.full.any (fun f => f.gang.any leads))))
/-- A detached member resumes on another core of its quad: its leader, on its core or faulted, knows it there. -/
def State.memberMoves (s : State) (leader from_ to_ : Psn) : State :=
  let f (g : Gang) : Gang := { g with members := g.members.map (fun p => if p = from_ then to_ else p) }
  let t := s.modCore leader (fun c => { c with act := c.act.map (fun a => { a with gang := a.gang.map f }) })
  match s.homeTile (s.getCore leader) with
  | some h => t.modTile h (fun t => { t with records := t.records.map (fun r =>
      if r.src = leader then { r with full := r.full.map (fun x => { x with gang := x.gang.map f }) } else r) })
  | none => t
/-- Starts a run-queue entry's continuation: the first core to start it claims it at the tile, which withdraws the other offers; a core
that lost the claim drops it (R190). A full record resumes with every register as saved (R191), and its accesses
answered GONE are issued again in their order (R74). -/
def State.startCont (s : State) (p : Psn) (e : RunEntry) (tile : Psn) (index : Nat) : State :=
  let s := s.modCore p (fun c => { c with runq := c.runq.filter (· != e) })
  match (s.getTile tile).record index with
  | none => s
  | some r =>
    if !r.ready then s
    else
      let s := s.modTile tile (·.dropRecord index)
      let s := r.offered.foldl (fun s o => s.modCore o (fun c =>
        { c with runq := c.runq.filter (fun x => x.cont != some (tile, index)) })) s
      let c := s.getCore p
      let c' := match r.full with
        | none => s.resumeShort c { r with gang := r.gang.filter (s.gangAlive r.src) } e.level
        | some f =>
          let d := c.resumeFull r { f with gang := f.gang.filter (s.gangAlive p), reissue := s.kept p f.reissue } (f.reply.getD none)
          { d with pend := s.pendingOf p f.serial, act := d.act.map (fun a => { a with level := e.level }), wick := s.wickInterval (psnRegion p) r.ctx (hWick (c.handler r.entry)), wickOn := hWick (c.handler r.entry) != 0 }
      let s := s.putCore c'
      let s := match r.gang with
        | some g => s.memberMoves g.leader r.src p
        | none => s
      { s with nextSerial := s.nextSerial + 1 }

/-- A suspension into a short record of the home tile (R187, R294): the record is written, the core leaves the activation. `ready` says
that the record is ready at once. -/
def State.suspend (s : State) (tile : Psn) (index : Nat) (pairs : List (Nat × Word)) (mask : Word) (ready : Bool) : State :=
  match s.core.act with
  | none => s
  | some a =>
    let s := s.modTile tile (fun t => (t.unreserve s.core.psn).putRecord (shortRecord s.core a index pairs mask))
    let s := s.mapCore Core.leave
    if ready then s.offer tile index else s

/-! Gangs (R193 to R197). -/

/-- The position of a core about a store tile (R193): 0 +x, 1 −x, 2 +y, 3 −y. -/
def gangCode (tile core : Psn) : Option Nat := (List.range 4).find? (fun k => neighbour tile ([1, 3, 2, 4].getD k 0) == some core)
/-- The core at a position code. -/
def gangCore (tile : Psn) (k : Nat) : Option Psn := neighbour tile ([1, 3, 2, 4].getD k 0)

/-- Whether a named core may join: in the quad, live, unsnuffed, with an entry of the same context, actor and handler index (R193). -/
def State.canJoin (s : State) (a : Act) (p : Psn) : Bool :=
  let c := s.getCore p
  let h := c.handler a.entry
  c.live && !c.snuffed && hValid h && hActor h == a.actor && s.ctxOf p == a.ctx

/-- Whether a member of a gang has suspended and not resumed: it has not settled (R196). -/
def State.memberAway (s : State) (leader p : Psn) : Bool :=
  s.tiles.any (fun t => t.records.any (fun r => r.src == p && r.full.isNone && r.gang.any (·.leader == leader)))
/-- Whether a member has ended, faulted or waits at a REJOIN (R196). -/
def State.memberSettled (s : State) (leader p : Psn) : Bool :=
  !s.memberAway leader p && match (s.getCore p).act with
  | some a =>
    match a.gang with
    | some g => g.leader != leader || (g.attached && g.relayed.isEmpty && g.received.isNone) || g.rejoin.isSome || a.halted.isSome
    | none => true
  | none => true

end Sys2Proof.Machine
end

