-- ==== Sys2Proof/Machine/Flags.lean ====
section
/-! DEFINITION. The machine's only flags are the lanes of its predicates: conditions, comparisons into a predicate, and lanes taken from and
given to general registers (11 R267, R270, R280). -/
namespace Sys2Proof.Machine
open Sys2Proof

/-- A comparison's result in every lane of a predicate (R264, R267). -/
def State.setCmp (s : State) (p : Nat) (t : TyCode) (cond a b : Nat) : State := s.setP p (allLanes (elemCmp t cond a b))

/-- The number of set lanes (R280). -/
def lanesSet (p : PWord) : Nat := popN 32 p.toNat

/-- An optionally inverted predicate source (R280). -/
def State.pInv (s : State) (n : Nat) (inv : Bool) : PWord := if inv then ~~~ (s.p n) else s.p n

end Sys2Proof.Machine

namespace Sys2Proof.Long
open Sys2Proof.Machine

/-- CMP and FCMP in the long forms: D bits 2:0 name the predicate, bits 5:3 the condition (R267). -/
def compare (x : Long) : Body' := fun s => do
  let a ← x.srcA s
  let b ← x.srcB s
  return s.setCmp (x.d.toNat % 8) x.opType (x.d.toNat / 8) a b

end Sys2Proof.Long
end

