-- ==== Sys2Proof/Machine/Control.lean ====
section
/-! DEFINITION. Control transfer and the end of an activation (11 R271 to R276, R231). The pc is a byte offset within the core's copy of c0;
a body runs with the pc already past its instruction. -/
namespace Sys2Proof.Machine
open Sys2Proof

/-- A direct target: the address of parcel 0 plus 4 × off (R223, R273). -/
def State.branch (s : State) (length : Nat) (off : Int) : State := s.setPc (s.pc0 length + BitVec.ofInt 64 (4 * off))

/-- A register target is a byte offset within c0; bits 1:0 that are not zero raise ALIGN and nothing transfers (R223). -/
def State.jumpTo (s : State) (v : Word) : Except Stop State :=
  if v.toNat % 4 ≠ 0 then .error (.fault { code := .align, detail := capDetail 3 0xFF v.toNat }) else .ok (s.setPc v)

end Sys2Proof.Machine

namespace Sys2Proof.Long
open Sys2Proof.Machine

/-- The length in bytes. -/
def bytes (x : Long) : Nat := if x.wide then 12 else 8
/-- The signed offset: IMM12, or the literal in L96. -/
def offset (x : Long) : Int := if x.wide then x.lit.toInt else x.hi.toInt

end Sys2Proof.Long

namespace Sys2Proof.Machine
open Sys2Proof

/-- BR (R272): lane 0 of pa, inverted by SUB bit 0. -/
def execBr (x : Long) (s : State) : Out := issueL Shape.br x (fun s =>
  .ok (if (s.p x.a.toNat).getLsbD 0 != x.sub.getLsbD 0 then s.branch x.bytes x.offset else s)) s
def execBrL32B (x : ShortB) (s : State) : Out := issueB Shape.brL32B x (fun s =>
  .ok (if (s.p x.a.toNat).getLsbD 0 then s.branch 4 x.imm.toInt else s)) s
def execBrNotL32B (x : ShortB) (s : State) : Out := issueB Shape.brNotL32B x (fun s =>
  .ok (if (s.p x.a.toNat).getLsbD 0 then s else s.branch 4 x.imm.toInt)) s

def execJmp (x : Long) (s : State) : Out := issueL Shape.jmp x (fun s => .ok (s.branch x.bytes x.offset)) s
/-- L32A: bits 31:10 are the signed offset. -/
def execJmpL32A (x : ShortA) (s : State) : Out :=
  issueA Shape.jmpL32A x (fun s => .ok (s.branch 4 (x.sub ++ x.b ++ x.a ++ x.d : BitVec 22).toInt)) s

def execJmpi (x : Long) (s : State) : Out := issueL Shape.jmpi x (fun s => s.jumpTo (s.g x.a.toNat)) s
def execJmpiL32A (x : ShortA) (s : State) : Out := issueA Shape.jmpiL32A x (fun s => s.jumpTo (s.g x.a.toNat)) s

/-- CALL writes the link register with the offset of the next instruction (R273). -/
def execCall (x : Long) (s : State) : Out := issueL Shape.call x (fun s =>
  .ok ((s.setG x.d.toNat s.core.regs.pc).branch x.bytes x.offset)) s
def execCallL32B (x : ShortB) (s : State) : Out := issueB Shape.callL32B x (fun s =>
  .ok ((s.setG x.d.toNat s.core.regs.pc).branch 4 x.imm.toInt)) s
/-- CALLI reads its target before it writes the link register. -/
def execCalli (x : Long) (s : State) : Out :=
  issueL Shape.calli x (fun s => (s.setG x.d.toNat s.core.regs.pc).jumpTo (s.g x.a.toNat)) s
def execCalliL32A (x : ShortA) (s : State) : Out :=
  issueA Shape.calliL32A x (fun s => (s.setG x.d.toNat s.core.regs.pc).jumpTo (s.g x.a.toNat)) s

def execRet (x : Long) (s : State) : Out := issueL Shape.ret x (fun s => s.jumpTo (s.g x.a.toNat)) s
def execRetL32A (x : ShortA) (s : State) : Out := issueA Shape.retL32A x (fun s => s.jumpTo (s.g x.a.toNat)) s

/-- LOOPS (R275): with D = 0 the counter reads 0 and it never branches. -/
def execLoops (x : Long) (s : State) : Out := issueL Shape.loops x (fun s =>
  let t := s.setG x.d.toNat (s.g x.d.toNat - 1)
  .ok (if t.g x.d.toNat ≠ 0 then t.branch x.bytes x.offset else t)) s

/-- END (R181, R276): it waits for nothing; accesses in flight stay with the load-store unit. -/
def execEnd (x : Long) (s : State) : Out := issueL Shape.endI x (fun s => .ok (s.endAct s.core.psn)) s
def execEndL32A (x : ShortA) (s : State) : Out := issueA Shape.endL32A x (fun s => .ok (s.endAct s.core.psn)) s

def execNop (x : Long) (s : State) : Out := issueL Shape.nop x (fun s => .ok s) s
def execNopL32A (x : ShortA) (s : State) : Out := issueA Shape.nopL32A x (fun s => .ok s) s

end Sys2Proof.Machine
end

