-- ==== Sys2Proof/Machine/Gang.lean ====
section
/-! DEFINITION. GANG, UNGANG and REJOIN (11 R278, R279; 07 R193 to R198). -/
namespace Sys2Proof.Machine
open Sys2Proof

/-- Nothing of a waiting instruction is committed but what it has asked of others: the pc stands at it again (R265). -/
def State.stay (s : State) (length : Nat) : State :=
  (s.setPc (s.pc0 length)).mapCore (fun c => { c with waiting := true, since := some (c.since.getD s.tsc.toNat) })

def codesMask (l : List (Nat × Psn)) : Nat := (l.map (fun x => 2 ^ x.1)).foldl (· + ·) 0

/-- Whether a named core has begun its member activation. -/
def State.hasJoined (s : State) (leader p : Psn) : Bool :=
  match (s.getCore p).act with
  | some a => match a.gang with
    | some g => g.leader == leader
    | none => false
  | none => false

/-- The gang forms: the joined members take the positions 1, 2 and 3 in ascending order of their codes, and g1 of each holds its
position (R194); they stand where the leader goes on. -/
def State.formGang (s : State) (joined : List (Nat × Psn)) : State :=
  let leader := s.core.psn
  let s := (joined.zipIdx).foldl (fun s x => s.modCore x.1.2 (fun c =>
    ({ (c.setPc s.core.regs.pc) with act := c.act.map (fun a => { a with gang := a.gang.map (fun g => { g with position := x.2 + 1 }) }) } : Core).setG 1
      (BitVec.ofNat 64 (x.2 + 1)))) s
  s.mapAct (fun a => { a with joining := [], gang := some { leader, position := 0, attached := false, members := joined.map (·.2), faults := 0,
                                                              rejoin := none, relayed := [], received := none } })

/-- GANG (R193, R278; R380 forbids it in diagnostic mode). With no adjacent home tile every named core is reported absent at once. -/
def gangBody (x : Long) : Body' := fun s =>
  match s.core.act with
  | none => .ok s
  | some a =>
    let mask := x.hi.toNat % 16
    if a.gang.isSome || s.core.matMode then .error (.illegal 6)
    else match (s.homeTile s.core).bind (fun t => (gangCode t s.core.psn).map (fun k => (t, k))) with
    | none => .ok (s.setG x.d.toNat (BitVec.ofNat 64 (mask * 16)))
    | some (t, own) =>
      if mask / 2 ^ own % 2 = 1 then .error (.illegal 6)
      else
        let named := ((List.range 4).filter (fun k => mask / 2 ^ k % 2 == 1)).filterMap (fun k => (gangCore t k).map (fun p => (k, p)))
        let asked := if a.joining = [] then named.filter (fun n => s.canJoin a n.2) else a.joining
        let here := asked.filter (fun n => s.hasJoined s.core.psn n.2)
        let waits := asked.filter (fun n => !s.hasJoined s.core.psn n.2 && s.canJoin a n.2)
        if waits ≠ [] then .ok ((s.mapAct (fun a => { a with joining := asked })).stay x.bytes)
        else
          let result := codesMask here + (mask - codesMask here) * 16
          let s := if here = [] then s.mapAct (fun a => { a with joining := [] }) else s.formGang here
          .ok (s.setG x.d.toNat (BitVec.ofNat 64 result))

/-- UNGANG (R197, R279). -/
def ungangBody (d : Nat) : Body' := fun s =>
  match s.core.act.bind (·.gang) with
  | none => .ok (s.setG d 0)
  | some g =>
    if g.position = 0 then
      .ok ((((s.dissolve { g with leader := s.core.psn }).mapAct (fun a => { a with gang := none }))).setG d (g.faults &&& 0xF))
    else .ok ((s.mapAct (fun a => { a with gang := none })).setG d 0)

/-- The members that wait at a REJOIN are attached again, their pc past it, when its number is the leader's; the others go on alone (R196). -/
def State.releaseMembers (s : State) (g : Gang) (k : Nat) : State :=
  g.members.foldl (fun s p => s.modCore p (fun c =>
    match c.act with
    | some a =>
      match a.gang with
      | some m =>
        match m.rejoin with
        | some (j, len) =>
          if m.leader ≠ s.core.psn then c
          else if j = k then
            { (c.setPc s.core.regs.pc) with
              act := some { a with gang := some { m with attached := true, rejoin := none, relayed := [], received := none } } }
          else { (c.setPc (c.regs.pc + BitVec.ofNat 64 len)) with
                 waiting := false, act := some { a with gang := some { m with rejoin := none } } }
        | none => c
      | none => c
    | none => c)) s

/-- REJOIN k (R196): outside a gang and for an attached member it is a NOP. -/
def rejoinBody (k length : Nat) : Body' := fun s =>
  match s.core.act.bind (·.gang) with
  | none => .ok s
  | some g =>
    if g.position = 0 then
      if g.members.all (s.memberSettled s.core.psn) then .ok (s.releaseMembers g k) else .error .wait
    else if g.attached then .ok s
    else .ok ((s.mapAct (fun a => { a with gang := some { g with rejoin := some (k, length) } })).stay length)

def execGang (x : Long) (s : State) : Out := issueL Shape.gang x (gangBody x) s
def execUngang (x : Long) (s : State) : Out := issueL Shape.ungang x (ungangBody x.d.toNat) s
def execUngangL32A (x : ShortA) (s : State) : Out := issueA Shape.ungangL32A x (ungangBody x.d.toNat) s
def execRejoin (x : Long) (s : State) : Out := issueL Shape.rejoin x (rejoinBody x.hi.toNat 8) s
/-- L32A: bits 27:16 are k. -/
def execRejoinL32A (x : ShortA) (s : State) : Out :=
  issueA Shape.rejoinL32A x (rejoinBody (x.b ++ x.a : BitVec 12).toNat 4) s

end Sys2Proof.Machine
end

