-- ==== Sys2Proof/Machine/Pages.lean ====
section
/-! DEFINITION. The registers that loads and CTRL reads see: the core control page (01 R36), the match table (08 R208) and the CTRL
space (01 R40), each as 64-bit words at offsets that are multiples of 8. -/
namespace Sys2Proof.Machine
open Sys2Proof

/-- Half 0 or 1 of a 128-bit register. -/
def half (w : BitVec 128) (h : Nat) : Word := w.extractLsb' (64 * (h % 2)) 64

/-- CORE_HOME (R37). -/
def Core.homeWord (c : Core) : Word := BitVec.ofNat 64 (c.namePrefix.toNat * 256 + c.homeStore.toNat)
/-- MATRIX_CFG (R380). -/
def Core.matrixCfg (c : Core) : Word := BitVec.ofNat 64 (c.diag.toNat * 2 ^ 63 + c.matMode.toNat)
/-- RING_SLOTS (R207). -/
def Core.ringSlotsWord (c : Core) : Word :=
  BitVec.ofNat 64 (((List.range 8).map (fun i => (at_ c.ringSlot i 0).toNat * 4 ^ i)).foldl (· + ·) 0)

/-- The word at offset `off` (a multiple of 8) of a core's control page (R36, R37, R202, R207, R212, R215, R380, R424, R450). -/
def State.coreWord (s : State) (c : Core) (off : Nat) : Word :=
  if off < 0x140 then half (c.handler (off / 16)) (off / 8)
  else if 0x200 ≤ off ∧ off < 0x400 then half (c.queue ((off - 0x200) / 16)) (off / 8)
  else if 0x400 ≤ off ∧ off < 0x600 then c.getQ ((off - 0x400) / 8)
  else if 0x840 ≤ off ∧ off < 0x860 then (at_ s.module.grades ((off - 0x840) / 8) 0).zeroExtend 64
  else if 0x880 ≤ off ∧ off < 0x8C0 then at_ c.ringHdr ((off - 0x880) / 8) 0
  else if 0x900 ≤ off ∧ off < 0xA00 then (if off % 16 = 0 then at_ c.inject ((off - 0x900) / 16) 0 else 0)
  else match off with
    | 0x800 => c.name.zeroExtend 64
    | 0x808 => c.logical.zeroExtend 64
    | 0x810 => BitVec.ofNat 64 c.psn
    | 0x818 => c.homeWord
    | 0x820 => s.tsc
    | 0x828 => c.energy
    | 0x860 => c.ringMember
    | 0x868 => c.ringOp
    | 0x870 => c.matrixCfg
    | 0x878 => c.ringSlotsWord
    | 0x8C0 => c.snuff
    | 0x8C8 => c.tileClk
    | _ => 0

/-- One byte of a register page given by its words. -/
def byteOf (word : Nat → Word) (off : Nat) : Byte := (word (off / 8 * 8)).extractLsb' (8 * (off % 8)) 8

/-- One byte of a core's LOCAL space as a load sees it (R35). -/
def State.localByte (s : State) (c : Core) (addr : Nat) : Byte :=
  if addr < 0x1C000 then Mem.read s.mem (localKey c.psn addr)
  else if addr < 0x1C400 then byteOf (fun o => half (at_ c.matches_ (o / 16) 0) (o / 8)) (addr - 0x1C000)
  else if addr < 0x1F000 then 0
  else byteOf (s.coreWord c) (addr - 0x1F000)
def State.localBytes (s : State) (c : Core) (addr n : Nat) : List Byte := (List.range n).map (fun i => s.localByte c (addr + i))

/-! Store tiles (R80, R81, R185, R450). -/

def segMode (cfg : Word) : Nat := fld cfg 63 62
def segSys (cfg : Word) : Bool := bit cfg 61
/-- The unit of a segment in bytes, and its number of buffers or lines (R80). -/
def segUnit (cfg : Word) : Nat := (fld cfg 52 43 + 1) * 64
def segCount (cfg : Word) : Nat := fld cfg 42 37 + 1
/-- The slots of a FIFO segment (R85). -/
def fifoSlots (cfg : Word) : Nat := 1024 / (fld cfg 52 43 + 1)
/-- An exchange bank's segments are always RAW (R88). -/
def Tile.seg (t : Tile) (i : Nat) : Word := if interior (psnIndex t.psn) then at_ t.segCfg i 0 else 0
def fifoHeld (t : Tile) (i : Nat) : Nat := (at_ t.tail i 0 - at_ t.head i 0 : BitVec 32).toNat

/-- SEG_STAT by mode (R81). -/
def Tile.segStat (t : Tile) (i : Nat) : Word :=
  match segMode (t.seg i) with
  | 1 => at_ t.full i 0
  | 2 => at_ t.head i 0 ++ at_ t.tail i 0
  | 3 => (at_ t.lcount i 0).zeroExtend 64
  | _ => 0

def Tile.word (t : Tile) (off : Nat) : Word :=
  if off < 0x40 then t.seg (off / 8)
  else if off < 0x80 then t.segStat ((off - 0x40) / 8)
  else if 0x100 ≤ off ∧ off < 0x180 then at_ t.sq ((off - 0x100) / 8) 0
  else if off = 0x200 then t.tileClk else 0

/-- A short record's first 256 bytes (R188). -/
def Record.bytes (r : Record) : List Byte :=
  let w0 := 2 ^ 63 + r.full.isSome.toNat * 2 ^ 62 + r.ready.toNat * 2 ^ 61 + r.pinned.toNat * 2 ^ 60 + r.pairs.length * 2 ^ 57 +
    r.entry * 2 ^ 52 + r.actor * 2 ^ 36 + r.pc.toNat
  let pairs := (r.pairs.flatMap (fun p => leBytes 8 p.1 ++ leBytes 8 p.2.toNat))
  let regs := r.saved.flatMap (fun w => leBytes 8 w.toNat)
  slice (leBytes 8 w0 ++ leBytes 8 r.wid.toNat ++ leBytes 8 r.mask.toNat ++
    leBytes 8 (r.src * 2 ^ 40 + r.claims.toNat * 2 ^ 36 + (r.window - 1) * 2 ^ 30) ++ slice pairs 0 64 ++ regs) 0 256
/-- A full record's 4 KiB (R191); the accesses to reissue are numbered, their 24 bytes not otherwise laid out by the spec. -/
def Record.fullBytes (r : Record) (f : FullRecord) : List Byte :=
  r.bytes ++ f.regs.g.toList.flatMap (fun w => leBytes 8 w.toNat) ++ f.regs.v.toList.flatMap (fun w => leBytes 64 w.toNat) ++
    f.regs.c.toList.flatMap (fun c => leBytes 16 c.bits.toNat) ++ ((f.regs.p.toList.drop 1).flatMap (fun w => leBytes 4 w.toNat)) ++
    slice [] 0 4 ++ slice (f.reissue.flatMap (fun i => leBytes 24 i)) 0 768 ++ slice [] 0 224

/-- Segment 7 of a home tile with SYS set shows its records and stage descriptors (R188, R405). -/
def Tile.sysByte (t : Tile) (off : Nat) : Byte :=
  if off < 0x8000 then
    match t.record (off / 256) with
    | some r => (r.bytes).getD (off % 256) 0
    | none => 0
  else if off < 0xC000 then
    match t.record (128 + (off - 0x8000) / 4096) with
    | some r => match r.full with
      | some f => (r.fullBytes f).getD (off % 4096) 0
      | none => 0
    | none => 0
  else if off < 0xC400 then (at_ t.stages ((off - 0xC000) / 64) 0).extractLsb' (8 * (off % 64)) 8
  else 0

/-- The tags that a SYS segment shows: those of c0 to c15 in a full record (R191). -/
def Tile.sysTag (t : Tile) (off : Nat) : Bool :=
  if 0x8000 ≤ off ∧ off < 0xC000 ∧ 2816 ≤ off % 4096 ∧ off % 4096 < 3072 then
    ((t.record (128 + (off - 0x8000) / 4096)).bind (·.full)).any (fun f => (at_ f.regs.c ((off % 4096 - 2816) / 16) Cap.null).tag)
  else false
/-- Bytes of a tile as an access reads them. -/
def State.tileBytes (s : State) (t : Tile) (off n : Nat) : List Byte :=
  if off / 65536 = 7 ∧ segSys (t.seg 7) then (List.range n).map (fun i => t.sysByte (off % 65536 + i))
  else s.bytes (tileKey t.psn off) n

/-! Routers (R41, R103). -/

/-- An entry counts as absent 2^20 ticks after its refresh (R29). -/
def routerLive (now refresh : Nat) : Bool := decide (now < refresh + 2 ^ 20)
/-- A word of a router's page; an entry that counts as absent reads 0 in all its fields (log entry 126). -/
def State.routerWord (s : State) (r : Router) (off : Nat) : Word :=
  if off < 0x800 then
    match r.table[off / 8]? with
    | some (port, name, refresh) =>
      if routerLive s.tsc.toNat refresh then
        BitVec.ofNat 64 (2 ^ 63 + port * 2 ^ 60 + name.toNat * 2 ^ 32 + refresh % 2 ^ 32)
      else 0
    | none => 0
  else if 0x808 ≤ off ∧ off ≤ 0x820 then at_ r.audit ((off - 0x800) / 8) 0 else 0

/-! The Lantern page (R28, R61, R65, R69, R183, R220, R408, R419, R425). -/

/-- Words of a map of 16-bit or 8-bit entries. -/
def packWord {n w : Nat} (v : Vector (BitVec w) n) (bits i : Nat) : Word :=
  BitVec.ofNat 64 (((List.range (64 / bits)).map (fun j => (at_ v (i * (64 / bits) + j) 0).toNat * 2 ^ (bits * j))).foldl (· + ·) 0)

/-- DIR_ENTRY of the selected core (R28); a PCORE that names no core shows none. -/
def State.dirEntry (s : State) (r : Region) : Word :=
  let p := corePsn r.number (fld r.dirSel 8 0)
  let c := s.getCore p
  match r.tombs.find? (fun t => t.core == p) with
  | some t => BitVec.ofNat 64 (c.live.toNat * 2 ^ 63 + 2 ^ 62 + t.name.toNat * 2 ^ 32 + t.until_ % 2 ^ 32)
  | none => if fld r.dirSel 8 0 < 288 then BitVec.ofNat 64 (c.live.toNat * 2 ^ 63 + c.name.toNat * 2 ^ 32) else BitVec.ofNat 64 (0xFFFFFF * 2 ^ 32)

def State.lanternWord (s : State) (r : Region) (off : Nat) : Word :=
  if off < 0x200 then packWord r.lmapCore 16 (off / 8)
  else if off < 0x3C0 then packWord r.lmapStore 16 ((off - 0x200) / 8)
  else if off < 0x3F0 then packWord r.exbMap 8 ((off - 0x3C0) / 8)
  else if 0x700 ≤ off ∧ off < 0x800 then at_ r.ctxSave ((off - 0x700) / 8) 0
  else if 0xC00 ≤ off ∧ off < 0xD00 then at_ r.graphRoot ((off - 0xC00) / 8) 0
  else if 0xD80 ≤ off ∧ off < 0xE80 then half (at_ r.splices ((off - 0xD80) / 16) 0) (off / 8)
  else match off with
    | 0x400 => r.runqAge
    | 0x408 => r.ringIdle
    | 0x410 => r.tombWindow
    | 0x418 => r.namePrefix.zeroExtend 64
    | 0x420 => r.dirSel
    | 0x428 => s.dirEntry r
    | 0x508 => r.moveStat
    | 0x608 => r.graphStat
    | 0x620 => r.hangCfg
    | 0x628 => r.hangMap
    | 0xD08 => r.invalStat
    | _ => 0

/-! The Lamplighter page (R430). -/

def leaseState (l : Lease) : Nat := fld l.w0 62 60
def leaseUnit (l : Lease) : BitVec 32 := l.w0.extractLsb' 0 32
def Region.lease (r : Region) (i : Nat) : Option Lease := r.leases.find? (·.index == i)
/-- Region units in states EVACUATING to RESTORING. -/
def Region.leased (r : Region) : Nat := (r.leases.filter (fun l => decide (3 ≤ leaseState l ∧ leaseState l ≤ 5))).length
/-- Live units of a region: its units less the retired ones (R427). -/
def State.liveUnits (s : State) (region : Nat) : Nat :=
  2209 - (s.module.retired.filter (fun u => decide (fld u 31 28 ≠ 3 ∧ psnRegion (fld u 23 0) = region))).length
def State.lampWord (s : State) (r : Region) (off : Nat) : Word :=
  let sel := r.lease (fld r.leaseSel 5 0)
  if 0x800 ≤ off then (((r.log[(off - 0x800) / 32]?).getD 0).extractLsb' (8 * (off % 32)) 64)
  else match off with
    | 0x000 => r.lpCfg
    | 0x008 => BitVec.ofNat 64 (r.leased * 2 ^ 16 + s.liveUnits r.number / 50)
    | 0x020 => r.leaseResult
    | 0x040 => r.leaseSel
    | 0x048 => (sel.map (·.w0)).getD 0
    | 0x050 => (sel.map (·.w1)).getD 0
    | 0x058 => (sel.map (·.w2)).getD 0
    | 0x060 => BitVec.ofNat 64 (((r.leases.filter (fun l => leaseState l == 0)).map (fun l => 2 ^ l.index)).foldl (· + ·) 0)
    | 0x068 => r.scoreSel
    | 0x070 => BitVec.ofNat 64 (s.score (r.scoreSel.extractLsb' 0 32))
    | 0x080 => BitVec.ofNat 64 r.logCount
    | _ => 0

/-! DRAM actors (R123, R124), host-service cores (R441), the wafer page (R459, R460). -/

/-- Slots of a context in a stack (R119). -/
def Actor.used (a : Actor) (ctx : Nat) : Nat := (a.slots.filter (fun x => fld x.2.2 60 56 == ctx)).length
def Actor.slot (a : Actor) (chan slot : Nat) : BitVec 128 :=
  match a.slots.find? (fun x => x.1 == chan && x.2.1 == slot) with
  | some x => x.2.2
  | none => 0
/-- The unit word of a physical channel (R427). -/
def chanUnit (stack chan : Nat) : BitVec 32 := BitVec.ofNat 32 (3 * 2 ^ 28 + 4 * 2 ^ 20 + 0x7F * 2 ^ 13 + stack * 2 ^ 8 + chan)
def State.actorWord (s : State) (a : Actor) (off : Nat) : Word :=
  if 0x010 ≤ off ∧ off < 0x030 then packWord a.chanMap 8 ((off - 0x010) / 8)
  else if 0x040 ≤ off ∧ off < 0x140 then
    let c := (off - 0x040) / 8
    BitVec.ofNat 64 (a.used c * 2 ^ 16 + (at_ a.quota c 0).toNat)
  else if 0x300 ≤ off ∧ off < 0x410 then
    let p := (off - 0x300) / 8
    BitVec.ofNat 64 ((at_ a.chanState p 0).toNat * 2 ^ 61 + s.score (chanUnit a.stack p))
  else match off with
    | 0x000 => a.cfg
    | 0x200 => a.holdSel
    | 0x208 => half (a.slot (fld a.holdSel 10 6) (fld a.holdSel 5 0)) 0
    | 0x210 => half (a.slot (fld a.holdSel 10 6) (fld a.holdSel 5 0)) 1
    | _ => 0

def HostCore.word (h : HostCore) (off : Nat) : Word :=
  match off with
  | 0x000 => h.compWin
  | 0x010 => h.rqBase
  | 0x018 => h.rqCtl
  | 0x020 => h.cqBase
  | 0x028 => h.cqCtl
  | _ => 0

/-- The 14 counters of a wear set (R460): region u, or stack u − 80. -/
def State.wearWord (s : State) (u i : Nat) : Word :=
  BitVec.ofNat 64 ((((s.module.wear.find? (fun x => x.1 == u)).map (·.2)).getD []).getD i 0)
def State.waferWord (s : State) (unit off : Nat) : Word :=
  if unit = 0 then
    (if off < 0x20 then (at_ s.module.grades (off / 8) 0).zeroExtend 64 else if off = 0x040 then s.module.pwr else 0)
  else if 0x100 ≤ off ∧ off < 0x900 then
    (let i := (off - 0x100) % 128 / 8
     if i < 14 then s.wearWord ((unit - 1) * 16 + (off - 0x100) / 128) i else 0)
  else 0

/-- The four registers of an external port's transfer engine page (R40, R445): the spec gives their use and no layout (log entry 24). -/
def State.portWord (s : State) (unit off : Nat) : Word :=
  match s.module.ports.find? (fun p => p.1 == unit) with
  | some (_, a, b, c) => if off = 0 then a else if off = 8 then b else if off = 16 then c else 0
  | none => 0

/-! The CTRL space (R40). -/

def ctrlRegion (a : Nat) : Nat := a / 2 ^ 33 % 128
def ctrlBlock (a : Nat) : Nat := a / 2 ^ 28 % 32
def ctrlUnit (a : Nat) : Nat := a / 2 ^ 12 % 65536
def ctrlOff (a : Nat) : Nat := a % 4096

/-- Whether a CTRL address names a unit that exists; otherwise CAPBOUND is raised (R40). The monitor-owned blocks have unit 0 alone (log entry 126). -/
def ctrlExists (a : Nat) : Bool :=
  let u := ctrlUnit a
  if ctrlRegion a < 80 then
    match ctrlBlock a with
    | 0 | 1 | 2 | 3 => decide (u < 288)
    | 4 | 6 | 7 => u == 0
    | 5 => decide (u < 36)
    | _ => false
  else if ctrlRegion a = 0x7F then
    match ctrlBlock a with
    | 0 => decide (u < 4)
    | 1 => decide (u < 32)
    | 2 => decide (u < 32 ∨ (256 ≤ u ∧ u < 272) ∨ u = 512)
    | 3 => decide (u < 8)
    | 4 => u == 0
    | _ => false
  else false

/-- Monitor-owned pages (R40). -/
def ctrlMonitor (a : Nat) : Bool := (decide (ctrlRegion a < 80) && ctrlBlock a == 7) || (ctrlRegion a == 0x7F && ctrlBlock a == 4)

/-- The word at a CTRL address that is a multiple of 8. The monitor-owned pages, which the spec gives no layout, read 0 (log entry 126). -/
def State.ctrlWord (s : State) (a : Nat) : Word :=
  let r := ctrlRegion a
  let u := ctrlUnit a
  let off := ctrlOff a
  if !ctrlExists a then 0
  else if r = 0x7F then
    match ctrlBlock a with
    | 0 => (s.getHost u).word off
    | 1 => s.actorWord (s.getActor u) off
    | 2 => s.portWord u off
    | 3 => s.waferWord u off
    | _ => 0
  else
    match ctrlBlock a with
    | 0 => s.coreWord (s.getCore (corePsn r u)) off
    | 1 => (s.getTile (tilePsn r u)).word off
    | 2 => s.routerWord (s.getRouter (corePsn r u)) off
    | 3 => s.routerWord (s.getRouter (tilePsn r u)) off
    | 4 => s.lanternWord (s.getRegion r) off
    | 5 =>
      let c := s.getCluster r u
      match off with
      | 0x000 => c.ctl
      | 0x008 => c.stat
      | 0x018 => c.retAddr
      | 0x020 => c.event
      | _ => 0
    | 6 => s.lampWord (s.getRegion r) off
    | _ => 0
/-- Bytes of the CTRL space. -/
def State.ctrlBytes (s : State) (a n : Nat) : List Byte :=
  (List.range n).map (fun i => byteOf (fun o => s.ctrlWord ((a + i) / 4096 * 4096 + o)) ((a + i) % 4096))

end Sys2Proof.Machine
end

