-- ==== Sys2Proof/Machine/Access.lean ====
section
/-! DEFINITION. Accesses: the check of a capability (02 R51), translation through the data TLB (02 R52, R60, R62 to R66), the parts an
access is made of, what each waits for (chapter 06), issue, and the reply in a register. -/
namespace Sys2Proof.Machine
open Sys2Proof

/-! CheckAccess (R51). -/

/-- What an instruction asks when it names memory: the ACCESS code of R66, the kind of R51 (0 load, 1 store, 2 atomic, 3 fetch,
4 capability load, 5 capability store), whether it writes, the capability register, the value of a capability store, and whether a RESUME
with value may answer its faults (R67). -/
structure Ask where
  code : Nat
  kind : Nat
  write : Bool
  reg : Nat
  value : Cap
  answers : Bool
  deriving DecidableEq, Repr

def Ask.load (reg : Nat) : Ask := { code := 0, kind := 0, write := false, reg, value := Cap.null, answers := true }
def Ask.store (reg : Nat) : Ask := { code := 1, kind := 1, write := true, reg, value := Cap.null, answers := true }
def Ask.atomic (reg : Nat) : Ask := { code := 2, kind := 2, write := true, reg, value := Cap.null, answers := true }
def Ask.capLoad (reg : Nat) : Ask := { code := 4, kind := 4, write := false, reg, value := Cap.null, answers := true }
def Ask.capStore (reg : Nat) (v : Cap) : Ask := { code := 5, kind := 5, write := true, reg, value := v, answers := true }
def Ask.tagged (q : Ask) : Bool := q.kind == 5 && q.value.tag
def Ask.answer (q : Ask) : Answer := if q.answers then .instr else .nothing

/-- The address widths of the spaces (R34); reserved spaces have none. -/
def spaceWidth (space : Nat) : Nat :=
  match space with
  | 0 => 17 | 1 => 27 | 2 => 31 | 3 => 48 | 5 => 40 | _ => 0

/-- The permissions a kind needs (R51), in PERMS order: R 1, W 2, X 4, A 8, C 16. Kind 6 is ROWOPEN's (R335). -/
def needed (q : Ask) : Nat :=
  match q.kind with
  | 0 => 1 | 1 => 2 | 2 => 11 | 3 => 4 | 4 => 1 | 6 => 3
  | _ => if q.value.tag then 18 else 2

/-- The logical store tile that an index names for a core (R38). -/
def State.storeTile (s : State) (c : Core) (idx : Nat) : Option Psn :=
  if idx = 0xFF then s.homeTile c else (s.getRegion (psnRegion c.psn)).storeAt idx

/-- CheckSpace for the core's own knowledge (R35, R38, R39, R46, R50): the code to raise, when one is. A LOCAL access that touches both the
hole and what may not be written raises CAPBOUND (log entry 25); a tagged CSTC to CTRL space, which R46 does not list, raises CAPPERM before the test of its
64 bytes (log entry 126). -/
def State.checkSpace (s : State) (c : Core) (q : Ask) (space a n : Nat) : Option Code :=
  let writes := q.kind == 1 || q.kind == 2 || q.kind == 5
  let localOnly := q.tagged && q.value.isL
  match space with
  | 0 =>
    if a < 0x1F000 ∧ 0x1C400 < a + n then some .capbound
    else if writes ∧ 0x18000 < a + n then some .capperm else none
  | 1 =>
    if (s.storeTile c (a / 2 ^ 19)).isNone ∨ (s.storeTile c ((a + n - 1) / 2 ^ 19)).isNone then some .capbound
    else if localOnly then some .capperm else none
  | 2 => if 0x6E000000 < a + n then some .capbound else if localOnly then some .capperm else none
  | 3 => if localOnly then some .capperm else none
  | 5 =>
    if ctrlExists a = false ∨ 4096 < a % 4096 + n then some .capbound
    else if q.kind = 2 ∨ q.tagged then some .capperm
    else if 64 < a % 64 + n then some .align else none
  | _ => some .capbound

/-- A fault of a capability check (R415). -/
def Ask.fault (q : Ask) (code : Code) (off : Int) : Stop :=
  .fault { code, detail := capDetail q.code q.reg (BitVec.ofInt 64 off).toNat, answer := q.answer }

/-- The bytes of a GKEY field (R61) and of LP_CFG.EN (R430), which service firmware may not write. -/
def monitorByte (a n : Nat) : Bool :=
  ctrlRegion a < 80 && ((ctrlBlock a == 4 && decide (0xC00 ≤ ctrlOff a ∧ ctrlOff a + n ≤ 0xD00 ∧ 6 < ctrlOff a % 8 + n)) ||
    (ctrlBlock a == 6 && decide (ctrlOff a ≤ 7 ∧ 7 < ctrlOff a + n)))
/-- What only the monitor may reach (R6, R7, R40). -/
def ctrlDenied (lv : Level) (write : Bool) (a n : Nat) : Bool :=
  lv != .monitor && (ctrlMonitor a || (write && monitorByte a n))

/-- CheckAccess up to its alignment step (R51): the address in the capability's space, or the first failing step. Natural alignment is the
size for an atomic and a granule for a capability access (R47). -/
def State.checkBase (s : State) (q : Ask) (c : Cap) (off : Int) (n : Nat) : Except Stop Nat :=
  if !c.tag then .error (q.fault .captag off)
  else if c.otype ≠ 0 then .error (q.fault .capperm off)
  else if c.space = 5 ∧ s.level = .graph then .error (.priv 6)
  else if c.perms &&& needed q ≠ needed q then .error (q.fault .capperm off)
  else if q.kind = 3 ∧ c.space ≠ 0 ∧ c.space ≠ 3 then .error (q.fault .capperm off)
  else if off < 0 ∨ (c.length : Int) < off + n then .error (q.fault .capbound off)
  else
    let a := c.base + off.toNat
    if 2 ^ spaceWidth c.space < a + n then .error (q.fault .capbound off)
    else if (q.kind = 2 ∧ a % n ≠ 0) ∨ ((q.kind = 4 ∨ q.kind = 5) ∧ a % 16 ≠ 0) then .error (q.fault .align off)
    else .ok a

/-- CheckAccess (R51). -/
def State.checkCap (s : State) (q : Ask) (c : Cap) (off : Int) (n : Nat) : Except Stop Nat := do
  let a ← s.checkBase q c off n
  match s.checkSpace s.core q c.space a n with
  | some code => .error (q.fault code off)
  | none => if c.space = 5 ∧ ctrlDenied s.level q.write a n then .error (.priv 6) else .ok a

/-! Translation (R55, R60, R62, R66). -/

def leafFrame (leaf : Word) : Nat := fld leaf 63 32
def leafKey (leaf : Word) : Nat := fld leaf 31 20
def leafSplice (leaf : Word) : Nat := fld leaf 19 18
def leafDirty (leaf : Word) : Bool := bit leaf 17
def leafPriv (leaf : Word) : Bool := bit leaf 15
def leafX (leaf : Word) : Bool := bit leaf 14
def leafW (leaf : Word) : Bool := bit leaf 13
def leafT (leaf : Word) : Bool := bit leaf 12
def leafKind (leaf : Word) : BitVec 2 := leaf.extractLsb' 9 2
/-- The class of a frame or physical address (R42). -/
def paClass (pa : Nat) : Nat := pa / 2 ^ 46 % 4
def leafClass (leaf : Word) : Nat := leafFrame leaf / 2 ^ 30

def Tlb.covers (e : Tlb) (ctx va : Nat) : Bool := e.ctx == ctx && e.vpage == va / 2 ^ e.size
/-- The physical address that an entry gives. -/
def Tlb.phys (e : Tlb) (va : Nat) : Nat := leafFrame e.leaf * 65536 + va % 2 ^ e.size

/-- What a lookup gives. -/
inductive Look where
  | hit (e : Tlb)
  | miss
  | stop (st : Stop)
  deriving DecidableEq, Repr

/-- The checks of a leaf for an access, in the order of R66: PRIVILEGE, W or X, tags. -/
def leafCause (lv : Level) (leaf : Word) (code : Nat) (write tagged : Bool) : Option Nat :=
  if leafPriv leaf ∧ lv = .graph then some 4
  else if write ∧ !leafW leaf then some 2
  else if code = 3 ∧ !leafX leaf then some 3
  else if tagged ∧ (!leafT leaf ∨ leafClass leaf % 2 = 1) then some 8
  else none

/-- A page looked up in a core's TLB. An entry with DIRTY = 0 serves no store (R60); one whose rights refuse the access reports
LEVEL 3, not a walk failure (R66, log entry 26); a class 11 frame raises PRIV at graph level (R42). -/
def lookIn (tlb : List Tlb) (ctx : Nat) (lv : Level) (q : Ask) (va : Nat) : Look :=
  match tlb.find? (·.covers ctx va) with
  | none => .miss
  | some e =>
    if q.write ∧ !leafDirty e.leaf then .miss
    else match leafCause lv e.leaf q.code q.write q.tagged with
    | some cause => .stop (.fault { code := .page, detail := pageDetail va q.code 3 cause ctx, answer := q.answer })
    | none => if leafClass e.leaf = 3 ∧ lv = .graph then .stop (.priv 6) else .hit e
/-- The translations a core's accesses may use: its data TLB, and those caught by what waits for more. -/
def Core.data (c : Core) : List Tlb := c.dtlb ++ c.caught.map (·.2)
/-- What waited under a number keeps its translations no longer. -/
def Core.letGo (c : Core) (unit : Nat) : Core := { c with caught := c.caught.filter (fun x => x.1 != unit) }
/-- The lookup of the running activation. -/
def State.look (s : State) (q : Ask) (va : Nat) : Look :=
  lookIn (if q.code = 3 then s.core.itlb else s.core.data) ((s.core.act.map (·.ctx)).getD 0) s.level q va

/-! Parts (R52, R107, R158). -/

/-- One part of an access: its owner, its address, the place of its bytes in the access, and what its page says. -/
structure Part where
  owner : Owner
  space : Nat
  addr : Nat
  phys : Nat
  place : Nat
  size : Nat
  pkind : BitVec 2
  key : Nat
  tags : Bool
  spliced : Bool
  psize : Nat := 16
  deriving DecidableEq, Repr

/-- An extent cut at multiples of a grain: start, place and length of each piece. -/
def cut (fuel a place n grain : Nat) : List (Nat × Nat × Nat) :=
  match fuel with
  | 0 => []
  | k + 1 =>
    let room := grain - a % grain
    if n ≤ room then [(a, place, n)] else (a, place, room) :: cut k (a + room) (place + room) (n - room) grain
def pieces (a n grain : Nat) : List (Nat × Nat × Nat) := cut (n / grain + 2) a 0 n grain

inductive Resolve where
  | parts (ps : List Part)
  | miss (va : Nat)
  | stop (st : Stop)
  deriving DecidableEq, Repr

/-- The parts of a piece of one page, by the class of its frame (R42, R107, R39). -/
def State.pageParts (s : State) (e : Tlb) (va place n : Nat) : List Part :=
  let pa := e.phys va
  let base : Part := { owner := .dram 0, space := 3, addr := va, phys := pa, place, size := n, pkind := leafKind e.leaf,
                       key := leafKey e.leaf, tags := leafT e.leaf, spliced := e.splice, psize := e.size }
  match paClass pa with
  | 0 => (pieces pa n 1024).map (fun x =>
      { base with owner := .dram x.1, addr := va + x.2.1, phys := x.1, place := place + x.2.1, size := x.2.2 })
  | 1 => [{ base with owner := .companion (pa % 2 ^ 46) }]
  | 2 => (pieces (pa % 2 ^ 46) n 4096).filterMap (fun x => (s.exchPlace x.1).map (fun t =>
      { base with owner := .tile t.1 t.2, addr := va + x.2.1, phys := 2 ^ 47 + x.1, place := place + x.2.1, size := x.2.2 }))
  | _ => [{ base with owner := .ctrl (pa % 2 ^ 40) }]

/-- The pieces of a GLOBAL access, page by page, the lower first (R52), under a level and a lookup. -/
def State.globalBy (s : State) (lv : Level) (look : Nat → Look) (q : Ask) (ps : List (Nat × Nat × Nat)) : Resolve :=
  match ps with
  | [] => .parts []
  | (va, place, n) :: rest =>
    match look va with
    | .miss => .miss va
    | .stop st => .stop st
    | .hit e =>
      let pa := e.phys va
      if leafKind e.leaf = 3 ∧ 64 < va % 64 + n then .stop (q.fault .align va)
      else if paClass pa = 3 ∧ !ctrlExists (pa % 2 ^ 40) then .stop (q.fault .capbound va)
      else if paClass pa = 3 ∧ q.kind = 2 then .stop (q.fault .capperm va)
      else if paClass pa = 3 ∧ ctrlDenied lv q.write (pa % 2 ^ 40) n then .stop (.priv 6)
      else if paClass pa = 2 ∧ (pieces (pa % 2 ^ 46) n 4096).any (fun x => (s.exchPlace x.1).isNone) then .stop (q.fault .capbound va)
      else match s.globalBy lv look q rest with
      | .parts more => .parts (s.pageParts e va place n ++ more)
      | r => r
def State.globalParts (s : State) (q : Ask) (ps : List (Nat × Nat × Nat)) : Resolve := s.globalBy s.level (s.look q) q ps

/-- The parts of a checked access of n bytes at an address of a space. A device access must lie in one 64-byte block (R156). -/
def State.resolve (s : State) (q : Ask) (space a n : Nat) : Resolve :=
  let base : Part := { owner := .local a, space, addr := a, phys := a, place := 0, size := n, pkind := 1, key := 0, tags := true,
                       spliced := false }
  match space with
  | 0 => .parts [{ base with tags := decide (a + n ≤ 0x18000) }]
  | 1 => .parts ((pieces a n (2 ^ 19)).filterMap (fun x => (s.storeTile s.core (x.1 / 2 ^ 19)).map (fun t =>
      { base with owner := .tile t (x.1 % 2 ^ 19), addr := x.1, phys := x.1, place := x.2.1, size := x.2.2 })))
  | 2 =>
    if (pieces a n 4096).any (fun x => (s.exchPlace x.1).isNone) then .stop (q.fault .capbound a)
    else .parts ((pieces a n 4096).filterMap (fun x => (s.exchPlace x.1).map (fun t =>
      { base with owner := .tile t.1 t.2, addr := x.1, phys := 2 ^ 47 + x.1, place := x.2.1, size := x.2.2 })))
  | 3 =>
    let ps := pieces a n 65536
    if (ps.any (fun p => match s.look q p.1 with
      | .hit e => leafKind e.leaf == 3
      | _ => false)) ∧ 64 < a % 64 + n then .stop (q.fault .align a)
    else s.globalParts q ps
  | _ => .parts [{ base with owner := .ctrl a, pkind := 3, tags := false }]

/-- A miss asks the L2 once. -/
def State.askPage (s : State) (m : Miss) : State :=
  if s.flight.any (fun i => match i.body with
      | .l2Request w | .fill w _ | .fillFault w _ _ => w == m
      | _ => false) || (s.getRegion (psnRegion m.core)).walks.any (·.waiters.contains m)
  then s else s.launchItem (.l2Request m)
/-- A miss asks the L2 once, and the instruction waits at its issue (R63, R64). -/
def State.askWalk (s : State) (length : Nat) (q : Ask) (va : Nat) : State :=
  match s.core.act with
  | none => s
  | some a =>
    (s.askPage { core := s.core.psn, serial := a.serial, ctx := a.ctx, va, access := q.code, write := q.write, answers := q.answers
                 tagged := q.tagged, unit := 0 }).stay length

/-- A hit makes its entry the most recently used (R62). -/
def touchTlb (l : List Tlb) (ctx va : Nat) : List Tlb :=
  match l.find? (·.covers ctx va) with
  | some e => e :: l.filter (· != e)
  | none => l
def State.touchPages (s : State) (vas : List Nat) : State :=
  let ctx := (s.core.act.map (·.ctx)).getD 0
  s.mapCore (fun c => { c with dtlb := vas.foldl (fun l va => touchTlb l ctx va) c.dtlb })
def State.touch (s : State) (ps : List Part) : State := s.touchPages ((ps.filter (fun p => p.space == 3)).map (·.addr))

/-- The check and translation of one memory operand, then what the instruction does with its parts (R301, stage 1). -/
def State.withParts (s : State) (length : Nat) (q : Ask) (c : Cap) (off : Int) (n : Nat) (k : List Part → Body') : Except Stop State := do
  let a ← s.checkCap q c off n
  match s.resolve q c.space a n with
  | .stop st => .error st
  | .miss va => .ok (s.askWalk length q va)
  | .parts ps => k ps (s.touch ps)

/-! What an access waits for (chapter 06). -/

/-- The smallest scope that covers an access (R159): 0 .core to 4 .sys. -/
def scopeOf (home space addr : Nat) (o : Owner) : Nat :=
  match space with
  | 0 => 0
  | 1 => if addr / 2 ^ 19 = home ∨ addr / 2 ^ 19 = 0xFF then 1 else 2
  | 2 => 3
  | 3 => match o with
    | .companion _ | .ctrl _ => 4
    | _ => 3
  | _ => 4
def Access.scope (a : Access) (home : Nat) : Nat := scopeOf home a.space a.addr a.owner
def isStrong (k : BitVec 2) : Bool := k == 0 || k == 3
def isLocal (o : Owner) : Bool :=
  match o with
  | .local _ => true
  | _ => false
def isDram (o : Owner) : Bool :=
  match o with
  | .dram _ => true
  | _ => false

/-- The ordering a memory instruction asks for: the snapshot of its AFTER set, the token it emits, the scope of an STL and of an LDA. -/
structure Order where
  after : List Nat
  emit : Nat
  stl : Option Nat
  lda : Option Nat
  deriving DecidableEq, Repr

def Order.none : Order := { after := [], emit := 0, stl := Option.none, lda := Option.none }

def sameTile (a b : Owner) : Bool :=
  match a, b with
  | .tile p _, .tile q _ => p == q
  | _, _ => false

/-- The activations of a core that wait as faulted continuations: they have not ended. -/
def State.suspended (s : State) (core : Psn) : List Nat :=
  match s.homeTile (s.getCore core) with
  | some t => (s.getTile t).records.filterMap (fun r => if r.src = core then r.full.map (·.serial) else none)
  | none => []
/-- The accesses that a new part is sent after (R150, R155 to R163, R145): its token's, those of fences and acquires that cover it, an
earlier strong access for a strong one, everything covered for a release, for memory of .quad everything of that memory and every reissued access of
an ended activation (R163, R75), an STCFG of the same tile (R329), and earlier LOCAL accesses for a LOCAL one. -/
def State.orderDeps (s : State) (a : Act) (o : Order) (p : Part) : List Nat :=
  let home := s.core.homeStore.toNat
  let sc := scopeOf home p.space p.addr p.owner
  let un := p.pkind == 2
  let all := (s.accessesOf s.core.psn).filter (fun x => !x.2.engine)
  let mine := all.filter (fun x => x.2.serial == a.serial)
  let ids := (if un then [] else o.after)
    ++ ((a.fences.filter (fun f => decide (sc ≤ f.1))).flatMap (·.2))
    ++ (if un then [] else (a.acquires.filter (fun f => decide (sc ≤ f.1))).map (·.2))
    ++ (if isStrong p.pkind && !isLocal p.owner then (mine.filter (fun x => isStrong x.2.pkind)).map (·.1) else [])
    ++ (match o.stl with
      | some sc' => if un then [] else (mine.filter (fun x => decide (x.2.scope home ≤ sc') && x.2.pkind != 2)).map (·.1)
      | none => [])
    ++ (if sc ≤ 1 then (all.filter (fun x => x.2.serial != a.serial && (decide (x.2.scope home ≤ 1) || x.2.again) &&
        !(s.suspended s.core.psn).contains x.2.serial)).map (·.1) else [])
    ++ ((mine.filter (fun x => x.2.op == opStcfg && sameTile x.2.owner p.owner)).map (·.1))
    ++ (if isLocal p.owner then (all.filter (fun x => isLocal x.2.owner)).map (·.1) else [])
  (ids.filter (fun i => !s.gone [i])).eraseDups

/-! Performing on plain bytes. -/

/-- The number an atomic carries for what it does (R306): the operation (0 add, 1 min, 2 max, 3 and, 4 or, 5 xor, 6 swap, 7 compare and
swap, 8 float add), its type and its rounding. -/
def atomicCode (op : Nat) (t : TyCode) (rm : BitVec 2) : Nat := op + 16 * t.toNat + 256 * rm.toNat
/-- The value an atomic writes (R306, R307); none where a comparison fails. -/
def atomicNew (aop old v v2 : Nat) : Option Nat :=
  let t := BitVec.ofNat 4 (aop / 16)
  let rm := BitVec.ofNat 2 (aop / 256)
  match aop % 16 with
  | 0 => some (elemAdd t rm false old v)
  | 1 => some (elemMin t false old v)
  | 2 => some (elemMin t true old v)
  | 3 => some (old &&& v)
  | 4 => some (old ||| v)
  | 5 => some (old ^^^ v)
  | 6 => some v
  | 7 => if old = v then some v2 else none
  | _ => some (elemAdd t rm false old v)

/-- Whether an access takes bytes from its place. -/
def Access.takes (a : Access) : Bool := a.kind == .load || a.kind == .atomic || a.kind == .capLoad
/-- One access performed on the plain bytes at a key of the memory: the bytes and tag of its reply, and the state after (R142, R144,
R45). `tags` says that the memory holds tags. -/
def State.performBytes (s : State) (a : Access) (key : Nat) (tags : Bool) : (List Byte × Bool) × State :=
  match a.kind with
  | .load => ((s.bytes key a.size, false), s.noteRead key a.size)
  | .store => (([], false), s.poke key a.data)
  | .atomic =>
    let old := s.bytes key a.size
    match atomicNew a.aop (ofLe old) (ofLe a.data) (ofLe a.operand2) with
    | some v => ((old, false), (s.noteRead key a.size).poke key (leBytes a.size v))
    | none => ((old, false), s.noteRead key a.size)
  | .capLoad =>
    let c := s.peekCap key
    ((leBytes 16 c.bits.toNat, c.tag && tags), s.noteRead key 16)
  | .capStore => (([], false), if a.tagv then s.pokeCap key { tag := true, bits := BitVec.ofNat 128 (ofLe a.data) } else s.poke key a.data)

/-- An access to LOCAL (R35, R145): loads read the pages as a load sees them. -/
def State.performLocal (s : State) (a : Access) (addr : Nat) : (List Byte × Bool) × State :=
  match a.kind with
  | .load => ((s.localBytes (s.getCore a.core) addr a.size, false), s.noteRead (localKey a.core addr) a.size)
  | .capLoad =>
    if addr < 0x18000 then s.performBytes a (localKey a.core addr) true
    else ((s.localBytes (s.getCore a.core) addr 16, false), s)
  | _ => s.performBytes a (localKey a.core addr) true

/-! Replies in registers (R147, R304, R333). -/

/-- A register is pending no more for one item. -/
def Core.settled (c : Core) (r : RegName) (id : Nat) : Core := { c with pend := c.pend.filter (fun x => !(x.1.code == r.code && x.2 == id)) }
/-- Bytes laid into a vector register from a byte place on. -/
def putVec (v : VWord) (place : Nat) (bs : List Byte) : VWord :=
  if bs = [] then v else setFld v (8 * (place + bs.length) - 1) (8 * place) (ofLe bs)

/-- Bytes reach a vector that a load pushed into a stream (R344). -/
def Push.fill (p : Push) (start place : Nat) (bs : List Byte) : Push :=
  if p.start = start then { p with data := putVec p.data place bs, missing := p.missing - bs.length } else p
def Stream.fill (st : Stream) (token start place : Nat) (bs : List Byte) : Stream :=
  if st.token = token then { st with pushed := st.pushed.map (·.fill start place bs) } else st
def Core.fillPush (c : Core) (token start place : Nat) (bs : List Byte) : Core :=
  { c with streams := c.streams.map (Option.map (·.fill token start place bs)), drains := c.drains.map (·.fill token start place bs) }

/-- The bytes of one part reach their register; the last part of a g register extends it by its type (R304). -/
def Core.land (c : Core) (l : Landing) (bs : List Byte) (tag : Bool) (id : Nat) : Core :=
  match l with
  | .none => c
  | .gpr n place ty =>
    let d := (c.setG n (c.getG n ||| BitVec.ofNat 64 (ofLe bs * 256 ^ place))).settled (.g n) id
    if d.isPending (.g n) then d else d.setG n (extend ty (d.getG n).toNat)
  | .vec n place => (c.setV n (putVec (c.getV n) place bs)).settled (.v n) id
  | .push token start place => c.fillPush token start place bs
  | .cap n keep => (c.setC n { tag := tag && keep, bits := BitVec.ofNat 128 (ofLe bs) }).settled (.c n) id
  | .result n => (c.setG n (BitVec.ofNat 64 (ofLe bs))).settled (.g n) id

/-! Issue (R149, R152, R301). -/

/-- A fresh access of a core for a part. -/
def Part.accessOf (p : Part) (c : Core) (serial ctx : Nat) (kind : AccKind) (deps : List Nat) : Access :=
  { core := c.psn, serial, kind, owner := p.owner, space := p.space, addr := p.addr, phys := p.phys, size := p.size,
    data := [], tagv := false, aop := 0, operand2 := [], deps, pkind := p.pkind, key := p.key, ctx, landing := .none,
    stage := .held, reply := [], tags := p.tags, name := c.name, spliced := p.spliced,
    op := (match kind with
      | .load | .capLoad => 0
      | .store | .capStore => 1
      | .atomic => 0xA), rmode := 3, rhandle := 0, ctr := 0, dest := 0, handle := 0, gather := [], status := 0, result := 0, fault := none, psize := p.psize
    engine := false, unit := 0 }
def Part.access (p : Part) (s : State) (a : Act) (kind : AccKind) (deps : List Nat) : Access := p.accessOf s.core a.serial a.ctx kind deps

/-- What an instruction does with each of its parts: what it carries and where its reply lands. -/
structure Errand where
  kind : AccKind
  data : List Byte
  tagv : Bool
  aop : Nat
  operand2 : List Byte
  landing : Landing
  deriving DecidableEq, Repr

/-- An errand cut to a part: its bytes of the data, its place in the register. -/
def Errand.cut (e : Errand) (p : Part) : Errand :=
  { e with data := if e.kind = .store then slice e.data p.place p.size else e.data
           landing := match e.landing with
             | .gpr n place ty => .gpr n (place + p.place) ty
             | .vec n place => .vec n (place + p.place)
             | .push token start place => .push token start (place + p.place)
             | l => l }

/-- How many held accesses and outstanding DRAM requests a core has (R108, R152). -/
def State.heldCount (s : State) (p : Psn) : Nat := ((s.accessesOf p).filter (fun x => x.2.stage == .held && !s.gone x.2.deps)).length
/-- A request counts until its reply has come: in a register, as a direct write or as a queue slot. -/
def State.dramCount (s : State) (p : Psn) : Nat :=
  (s.flight.filter (fun i => match i.body with
    | .access a => a.core == p && isDram a.owner
    | .directWrite a => a.core == p
    | .message m => m.reply && m.dest == (s.getCore p).name && m.region == psnRegion p && m.stage != .bounced
    | _ => false)).length

/-- Whether the order queue of 32 and the 16 DRAM requests have room for an instruction's parts; while the queue is full every memory instruction
waits, and one that needs more than all places issues when none is taken (log entry 27). -/
def State.hasRoom (s : State) (a : Act) (o : Order) (ps : List Part) : Bool :=
  let held := (ps.filter (fun p => s.orderDeps a o p != [])).length
  let drams := (ps.filter (fun p => isDram p.owner)).length
  let h := s.heldCount s.core.psn
  let d := s.dramCount s.core.psn
  decide (h < 32) && (h == 0 || decide (h + held ≤ 32)) && (drams == 0 || d == 0 || decide (d + drams ≤ 16))

/-- One part goes on its way: a LOCAL one that waits for nothing is performed at once (R145, log entry 7), any other is an item in
flight. Answers the number of the item that completes it, if it is still under way. -/
def State.sendPart (s : State) (a : Act) (o : Order) (p : Part) (e : Errand) : Option Nat × State :=
  let f := e.cut p
  let x := { p.access s a f.kind (s.orderDeps a o p) with
             data := f.data, tagv := f.tagv, aop := f.aop, operand2 := f.operand2, landing := f.landing }
  match p.owner, x.deps with
  | .local addr, [] =>
    let r := s.performLocal x addr
    (none, r.2.mapCore (fun c => c.land x.landing r.1.1 r.1.2 0))
  | _, _ =>
    let id := s.nextId
    let t := s.launchItem (.access x)
    (some id, match x.landing.reg with
      | some reg => t.setPending reg id
      | none => t)

/-- The items that must be over before a request with some dependences is sent: these, and those that hold an earlier request of the core to the same
DRAM actor (R154). -/
def State.waitsToSend (s : State) (deps : List Nat) (o : Owner) : List Nat :=
  deps ++ (match o with
    | .dram pa => (s.accessesOf s.core.psn).flatMap (fun x => match x.2.owner with
      | .dram q => if dramStack q = dramStack pa ∧ x.2.stage = .held then x.2.deps else []
      | _ => [])
    | _ => [])
/-- The parts of an instruction in order; answers the items that its token stands for. One on an unordered page satisfies the token when it is sent:
it stands for what that part waits for (R155). -/
def State.sendAll (s : State) (a : Act) (o : Order) (ps : List (Part × Errand)) : List Nat × State :=
  match ps with
  | [] => ([], s)
  | (p, e) :: rest =>
    let r := s.sendPart a o p e
    let more := r.2.sendAll a o rest
    ((match r.1 with
      | some id => if p.pkind = 2 then s.waitsToSend (s.orderDeps a o p) p.owner else [id]
      | none => []) ++ more.1, more.2)

/-- The tokens and acquires that an instruction leaves (R149, R161). -/
def State.leaveTokens (s : State) (o : Order) (ids : List Nat) : State :=
  let s := if o.emit = 0 then s else s.setTok o.emit ids
  match o.lda with
  | some sc => s.mapAct (fun a => { a with acquires := a.acquires ++ ids.map (fun i => (sc, i)) })
  | none => s

/-- The LOCAL word with an uncorrectable error that an instruction reads at its issue (R76): its address. -/
def State.spoiledPart (s : State) (ps : List (Part × Errand)) : Option (Nat × Errand) :=
  (ps.find? (fun x => x.2.kind != .store && x.2.kind != .capStore && (match x.1.owner with
    | .local addr => s.spoiled (localKey s.core.psn addr) x.1.size
    | _ => false))).map (fun x => (x.1.addr, x.2))
/-- ECCFATAL of an instruction; a RESUME with value answers it where a register waits for the bytes (R67). -/
def eccStop (place : Nat) (e : Errand) : Stop :=
  .fault { code := .eccfatal, detail := eccDetail place 0, answer := if e.landing.reg.isSome then .instr else .nothing }
/-- An instruction's accesses are sent, once there is room for them (R301, R152). -/
def State.send (s : State) (o : Order) (ps : List (Part × Errand)) : Except Stop State :=
  match s.core.act with
  | none => .ok s
  | some a =>
    if s.hasRoom a o (ps.map (·.1)) = false then .error .wait
    else match s.spoiledPart ps with
    | some x => .error (eccStop x.1 x.2)
    | none =>
      let r := s.sendAll a o ps
      .ok (r.2.leaveTokens o r.1)

/-- The bytes that a RESUME with value supplied to the instruction at the pc (R67). -/
def State.answered (s : State) : Option (List Byte) := s.core.act.bind (·.resumed)
/-- The instruction counts as performed: the value is used up, its token is satisfied. -/
def State.consume (s : State) (o : Order) : State := (s.mapAct (fun a => { a with resumed := none })).leaveTokens { o with lda := none } []

end Sys2Proof.Machine
end

