-- ==== Sys2Proof/Machine/Capability.lean ====
section
/-! DEFINITION. Deriving, sealing, reading and checking capabilities (11 R281 to R286). -/
namespace Sys2Proof.Machine
open Sys2Proof

/-- A failed condition on the capability in a register (R415). -/
def capStop (code : Code) (reg : Nat) (off : Nat) : Stop := .fault { code, detail := capDetail 0 reg off }

/-- A parent is tagged, unsealed and no key (R48); a key's seal number is not zero. -/
def parentCheck (p : Cap) (reg off : Nat) : Except Stop Unit :=
  if !p.tag then .error (capStop .captag reg off) else if p.otype ≠ 0 then .error (capStop .capperm reg off) else .ok ()

/-- A capability with other permissions, seal number, bounds. -/
def Cap.withPerms (c : Cap) (p : Nat) : Cap := { c with bits := setFld c.bits 124 118 p }
def Cap.withOtype (c : Cap) (t : Nat) : Cap := { c with bits := setFld c.bits 117 110 t }
def Cap.withBounds (c : Cap) (base length : Nat) : Cap := { c with bits := setFld (setFld c.bits 95 48 length) 47 0 base }

/-- CDERIVE (R282): bounds narrowed, exact and without wrap. -/
def cderiveBody (d a : Nat) (o l : State → Nat) : Body' := fun s => do
  let p := s.c a
  parentCheck p a (o s)
  if p.length < o s + l s then throw (capStop .capbound a (o s))
  return s.setC d (p.withBounds (p.base + o s) (l s))

/-- The permissions of a CPERM child (R282): granting bits narrowed, L added. -/
def childPerms (p mask : Nat) : Nat := (p &&& mask &&& 0x5F) ||| ((p ||| mask) &&& 0x20)
def cpermBody (d a mask : Nat) : Body' := fun s => do
  let p := s.c a
  parentCheck p a 0
  return s.setC d (p.withPerms (childPerms p.perms mask))

/-- The conditions of CSEAL and CUNSEAL in their order (R283); `wanted` tests K's seal number. -/
def sealCheck (k y : Cap) (ka ya : Nat) (wanted : Bool) : Except Stop Unit :=
  if !y.tag then .error (capStop .captag ya 0)
  else if !y.isKey then .error (capStop .capperm ya 0)
  else if !k.tag then .error (capStop .captag ka 0)
  else if k.isKey then .error (capStop .capperm ka 0)
  else if !wanted then .error (capStop .capperm ka 0)
  else .ok ()
def csealBody (d a b : Nat) : Body' := fun s => do
  let k := s.c a
  let y := s.c b
  sealCheck k y a b (k.otype == 0)
  return s.setC d (k.withOtype y.otype)
def cunsealBody (d a b : Nat) : Body' := fun s => do
  let k := s.c a
  let y := s.c b
  sealCheck k y a b (k.otype == y.otype)
  return s.setC d (k.withOtype 0)

/-- An inspector (R284): it never faults on the capability's contents. -/
def inspect (d a : Nat) (f : Cap → Nat) : Body' := fun s => .ok (s.setG d (BitVec.ofNat 64 (f (s.c a))))

/-- The outcome of CCHK (R286). -/
def checkOutcome (e : Except Stop Nat) : Nat :=
  match e with
  | .ok _ => 0
  | .error (.fault f) =>
    (match f.code with
     | .captag => 1 | .capperm => 2 | .capbound => 3 | _ => 4)
  | .error _ => 5

/-- CCHK (R286): CheckAccess with no translation and no access; of CheckSpace only the LOCAL layout, the STORE indices and the EXCH limit. -/
def State.cchk (s : State) (c : Cap) (off : Int) (n kind : Nat) : Nat :=
  let q : Ask := { code := 0, kind, write := false, reg := 0, value := { tag := true, bits := 0 }, answers := false }
  checkOutcome (do
    let a ← s.checkBase q c off n
    if 2 < c.space then .ok a
    else match s.checkSpace s.core q c.space a n with
    | some code => .error (q.fault code off)
    | none => .ok a)

def execCderive (x : Long) (s : State) : Out := issueL Shape.cderive x (cderiveBody x.d.toNat x.a.toNat (fun s => (s.g x.b.toNat).toNat)
  (fun s => if x.wide then x.lit.toNat else (s.g x.c.toNat).toNat)) s
def execCperm (x : Long) (s : State) : Out := issueL Shape.cperm x (cpermBody x.d.toNat x.a.toNat (x.hi.toNat % 128)) s
def execCseal (x : Long) (s : State) : Out := issueL Shape.cseal x (csealBody x.d.toNat x.a.toNat x.b.toNat) s
def execCsealL32A (x : ShortA) (s : State) : Out := issueA Shape.csealL32A x (csealBody x.d.toNat x.a.toNat x.b.toNat) s
def execCunseal (x : Long) (s : State) : Out := issueL Shape.cunseal x (cunsealBody x.d.toNat x.a.toNat x.b.toNat) s
def execCunsealL32A (x : ShortA) (s : State) : Out := issueA Shape.cunsealL32A x (cunsealBody x.d.toNat x.a.toNat x.b.toNat) s
def execCbase (x : Long) (s : State) : Out := issueL Shape.cbase x (inspect x.d.toNat x.a.toNat Cap.base) s
def execCbaseL32A (x : ShortA) (s : State) : Out := issueA Shape.cbaseL32A x (inspect x.d.toNat x.a.toNat Cap.base) s
def execClen (x : Long) (s : State) : Out := issueL Shape.clen x (inspect x.d.toNat x.a.toNat Cap.length) s
def execClenL32A (x : ShortA) (s : State) : Out := issueA Shape.clenL32A x (inspect x.d.toNat x.a.toNat Cap.length) s
def execCperms (x : Long) (s : State) : Out := issueL Shape.cperms x (inspect x.d.toNat x.a.toNat Cap.perms) s
def execCpermsL32A (x : ShortA) (s : State) : Out := issueA Shape.cpermsL32A x (inspect x.d.toNat x.a.toNat Cap.perms) s
def execCtype (x : Long) (s : State) : Out := issueL Shape.ctype x (inspect x.d.toNat x.a.toNat Cap.otype) s
def execCtypeL32A (x : ShortA) (s : State) : Out := issueA Shape.ctypeL32A x (inspect x.d.toNat x.a.toNat Cap.otype) s
def execCtag (x : Long) (s : State) : Out := issueL Shape.ctag x (inspect x.d.toNat x.a.toNat (·.tag.toNat)) s
def execCtagL32A (x : ShortA) (s : State) : Out := issueA Shape.ctagL32A x (inspect x.d.toNat x.a.toNat (·.tag.toNat)) s
def execCclr (x : Long) (s : State) : Out := issueL Shape.cclr x (fun s => .ok (s.setC x.d.toNat Cap.null)) s
def execCclrL32A (x : ShortA) (s : State) : Out := issueA Shape.cclrL32A x (fun s => .ok (s.setC x.d.toNat Cap.null)) s
def execCmov (x : Long) (s : State) : Out := issueL Shape.cmov x (fun s => .ok (s.setC x.d.toNat (s.c x.a.toNat))) s
def execCmovL32A (x : ShortA) (s : State) : Out := issueA Shape.cmovL32A x (fun s => .ok (s.setC x.d.toNat (s.c x.a.toNat))) s
def execCchk (x : Long) (s : State) : Out := issueL Shape.cchk x (fun s =>
  .ok (s.setG x.d.toNat (BitVec.ofNat 64 (s.cchk (s.c x.a.toNat) (s.g x.b.toNat).toInt (x.hi.toNat % 128 + 1) x.sub.toNat)))) s

end Sys2Proof.Machine
end

