-- ==== Sys2Proof/Machine/Loads.lean ====
section
/-! DEFINITION. Loads, stores, prefetch, atomics, fences and token joins (12 R303 to R308), and the capability load and store (11 R285). -/
namespace Sys2Proof.Machine
open Sys2Proof

/-- The accesses issued again at the activation's last resumption. -/
def State.redone (s : State) : List Nat := (s.core.act.map (·.redo)).getD []

/-- The bytes of a type. -/
def elemBytes (t : TyCode) : Nat := elemBits t / 8

/-- A memory operand's offset (R239): the 64-bit sum of the index register and the displacement, taken as signed. -/
def State.offset (s : State) (b : Nat) (disp : Int) : Int := (s.g b + BitVec.ofInt 64 disp).toInt

end Sys2Proof.Machine

namespace Sys2Proof.Long
open Sys2Proof.Machine

/-- The order a memory instruction's token fields ask for, the AFTER set taken at issue (R149), and what a resumption has issued again (R164). -/
def order (x : Long) (s : State) : Order := { after := s.tok x.after.toNat ++ s.redone, emit := x.emit.toNat, stl := none, lda := none }

end Sys2Proof.Long

namespace Sys2Proof.Machine
open Sys2Proof

/-- LD and LDA (R304): the register reads pending until every part has come. -/
def loadBody (length cap : Nat) (off : State → Int) (t : TyCode) (d : Nat) (o : State → Order) : Body' := fun s =>
  match s.answered with
  | some v => .ok ((s.consume (o s)).setG d (extend t (ofLe (v.take (elemBytes t)))))
  | none => s.withParts length (Ask.load cap) (s.c cap) (off s) (elemBytes t) (fun ps s =>
      (s.setG d 0).send (o s) (ps.map (fun p =>
        (p, { kind := .load, data := [], tagv := false, aop := 0, operand2 := [], landing := .gpr d 0 t }))))

/-- ST and STL (R304). -/
def storeBody (length cap : Nat) (off : State → Int) (n : Nat) (d : Nat) (o : State → Order) : Body' := fun s =>
  match s.answered with
  | some _ => .ok (s.consume (o s))
  | none => s.withParts length (Ask.store cap) (s.c cap) (off s) n (fun ps s =>
      s.send (o s) (ps.map (fun p =>
        (p, { kind := .store, data := leBytes n (s.g d).toNat, tagv := false, aop := 0, operand2 := [], landing := .none }))))

/-- The atomics (R306, R307): the operand is read at issue, the old value comes back into the same register. -/
def atomicBody (length cap : Nat) (off : State → Int) (t : TyCode) (op : Nat) (rm : BitVec 2) (d : Nat) (o : State → Order) : Body' :=
  fun s =>
  let n := elemBytes t
  match s.answered with
  | some v => .ok ((s.consume (o s)).setG d (extend t (ofLe (v.take n))))
  | none => s.withParts length (Ask.atomic cap) (s.c cap) (off s) n (fun ps s =>
      let e : Errand := { kind := .atomic, data := leBytes n (s.g d).toNat, tagv := false, aop := atomicCode op t rm,
                          operand2 := if op = 7 then leBytes n (s.g (d + 1)).toNat else [], landing := .gpr d 0 t }
      (s.setG d 0).send (o s) (ps.map (fun p => (p, e))))

/-- CLDC (R285): the granule, its tag only through a capability with C. -/
def capLoadBody (length cap : Nat) (off : State → Int) (d : Nat) (o : State → Order) : Body' := fun s =>
  match s.answered with
  | some v => .ok ((s.consume (o s)).setC d { tag := false, bits := BitVec.ofNat 128 (ofLe (v.take 16)) })
  | none => s.withParts length (Ask.capLoad cap) (s.c cap) (off s) 16 (fun ps s =>
      let keep := (s.c cap).hasC
      s.send (o s) (ps.map (fun p =>
        (p, { kind := .capLoad, data := [], tagv := false, aop := 0, operand2 := [], landing := .cap d keep }))))

/-- CSTC (R285): the 128 bits and the tag as one unit. -/
def capStoreBody (length cap : Nat) (off : State → Int) (d : Nat) (o : State → Order) : Body' := fun s =>
  match s.answered with
  | some _ => .ok (s.consume (o s))
  | none => s.withParts length (Ask.capStore cap (s.c d)) (s.c cap) (off s) 16 (fun ps s =>
      s.send (o s) (ps.map (fun p =>
        (p, { kind := .capStore, data := leBytes 16 (s.c d).bits.toNat, tagv := (s.c d).tag, aop := 0, operand2 := [],
              landing := .none }))))

/-- The ACCESS code under which the model asks for a prefetch's translation: R66 leaves it reserved, since PF never faults. -/
def prefetchCode : Nat := 10

/-- PF (R305, R68): a failing check or translation drops it, and so does a device page; on DRAM it activates the row, as a request
that reads no byte. Its token is satisfied at issue. -/
def prefetchBody (length cap : Nat) (off : State → Int) (write : Bool) (o : State → Order) : Body' := fun s =>
  let done := (s.mapAct (fun a => { a with resumed := none })).leaveTokens (o s) []
  let q := { (if write then Ask.store cap else Ask.load cap) with code := prefetchCode, answers := false }
  if s.answered.isSome then .ok done
  else match s.checkCap q (s.c cap) (off s) 8 with
  | .error _ => .ok done
  | .ok a =>
    match s.resolve q (s.c cap).space a 8 with
    | .stop _ => .ok done
    | .miss va => .ok (s.askWalk length q va)
    | .parts ps =>
      match s.core.act with
      | none => .ok done
      | some act =>
        let rows := ps.filter (fun p => isDram p.owner && p.pkind != 3)
        if !s.hasRoom act Order.none rows then .error .wait
        else .ok (rows.foldl (fun t p =>
          t.launchItem (.access { p.access s act .load (if p.pkind = 2 then [] else (o s).after) with size := 0, engine := true }))
          (done.touch ps))

end Sys2Proof.Machine

namespace Sys2Proof.Long
open Sys2Proof.Machine

/-- The offset of the memory layout (R239). -/
def memOff (x : Long) (s : State) : Int := s.offset x.b.toNat x.offset
/-- The scope in C bits 2:0 (R159, R239). -/
def scope (x : Long) : Nat := x.c.toNat % 8

def load (x : Long) : Body' := loadBody x.bytes x.a.toNat x.memOff x.sub x.d.toNat x.order
def store (x : Long) : Body' := storeBody x.bytes x.a.toNat x.memOff (elemBytes x.sub) x.d.toNat x.order
def atomic (x : Long) (op : Nat) : Body' := atomicBody x.bytes x.a.toNat x.memOff x.sub op 0 x.d.toNat x.order

end Sys2Proof.Long

namespace Sys2Proof.ShortB
open Sys2Proof.Machine

def load (x : ShortB) (t : TyCode) : Body' :=
  loadBody 4 x.a.toNat (fun s => s.offset 0 x.imm.toInt) t x.d.toNat (fun _ => Order.none)
def store (x : ShortB) (n : Nat) : Body' :=
  storeBody 4 x.a.toNat (fun s => s.offset 0 x.imm.toInt) n x.d.toNat (fun _ => Order.none)

end Sys2Proof.ShortB

namespace Sys2Proof.Machine
open Sys2Proof

def execLd (x : Long) (s : State) : Out := issueM Shape.ld x x.load s
def execLdN64L32B (x : ShortB) (s : State) : Out := issueB Shape.ldN64L32B x (x.load 7) s
def execLdI32L32B (x : ShortB) (s : State) : Out := issueB Shape.ldI32L32B x (x.load 2) s
def execLdN32L32B (x : ShortB) (s : State) : Out := issueB Shape.ldN32L32B x (x.load 6) s
def execLdI16L32B (x : ShortB) (s : State) : Out := issueB Shape.ldI16L32B x (x.load 1) s
def execLdN16L32B (x : ShortB) (s : State) : Out := issueB Shape.ldN16L32B x (x.load 5) s
def execLdI8L32B (x : ShortB) (s : State) : Out := issueB Shape.ldI8L32B x (x.load 0) s
def execLdN8L32B (x : ShortB) (s : State) : Out := issueB Shape.ldN8L32B x (x.load 4) s
def execSt (x : Long) (s : State) : Out := issueM Shape.st x x.store s
def execStN64L32B (x : ShortB) (s : State) : Out := issueB Shape.stN64L32B x (x.store 8) s
def execStN32L32B (x : ShortB) (s : State) : Out := issueB Shape.stN32L32B x (x.store 4) s
def execStN16L32B (x : ShortB) (s : State) : Out := issueB Shape.stN16L32B x (x.store 2) s
def execStN8L32B (x : ShortB) (s : State) : Out := issueB Shape.stN8L32B x (x.store 1) s

/-- LDA.s (R161): later accesses of its scope are ordered after it. -/
def execLda (x : Long) (s : State) : Out := issueM Shape.lda x
  (loadBody x.bytes x.a.toNat x.memOff x.sub x.d.toNat (fun s => { x.order s with lda := some x.scope })) s
/-- STL.s (R161): it is ordered after every earlier access of its scope. -/
def execStl (x : Long) (s : State) : Out := issueM Shape.stl x
  (storeBody x.bytes x.a.toNat x.memOff (elemBytes x.sub) x.d.toNat (fun s => { x.order s with stl := some x.scope })) s

/-- C bit 3 is the write intent (R303). -/
def execPf (x : Long) (s : State) : Out := issueM Shape.pf x (prefetchBody x.bytes x.a.toNat x.memOff (x.c.getLsbD 3) x.order) s
def execPfL32B (x : ShortB) (s : State) : Out := issueB Shape.pfL32B x
  (prefetchBody 4 x.a.toNat (fun s => s.offset 0 x.imm.toInt) false (fun _ => Order.none)) s

def execAadd (x : Long) (s : State) : Out := issueM Shape.aadd x (x.atomic 0) s
def execAmin (x : Long) (s : State) : Out := issueM Shape.amin x (x.atomic 1) s
def execAmax (x : Long) (s : State) : Out := issueM Shape.amax x (x.atomic 2) s
def execAand (x : Long) (s : State) : Out := issueM Shape.aand x (x.atomic 3) s
def execAor (x : Long) (s : State) : Out := issueM Shape.aor x (x.atomic 4) s
def execAxor (x : Long) (s : State) : Out := issueM Shape.axor x (x.atomic 5) s
def execAswp (x : Long) (s : State) : Out := issueM Shape.aswp x (x.atomic 6) s
/-- ACAS (R307): g(d + 1) at or above W raises WINDOW; a pending g(d + 1) is waited for. -/
def execAcas (x : Long) (s : State) : Out := issueM Shape.acas x (fun s => do
  if s.window ≤ x.d.toNat + 1 then throw (.window (x.d.toNat + 1))
  s.ready (.g (x.d.toNat + 1))
  x.atomic 7 s) s
/-- AADDF (R307): RM stands in MOD8 of L96; L64 rounds to nearest even. -/
def execAaddf (x : Long) (s : State) : Out := issueM Shape.aaddf x
  (atomicBody x.bytes x.a.toNat x.memOff x.sub 8 (if x.wide then x.rm else 0) x.d.toNat x.order) s

/-- FENCE.s (R160): the accesses of its scope not yet complete, with its AFTER set, hold every later access of the scope; FENCE.core holds
nothing and its token is satisfied at once. -/
def execFence (x : Long) (s : State) : Out := issueM Shape.fence x (fun s =>
  match s.core.act with
  | none => .ok s
  | some a =>
    let home := s.core.homeStore.toNat
    if x.scope = 0 then .ok (s.leaveTokens (x.order s) [])
    else
      let mine := (s.accessesOf s.core.psn).filter (fun y => !y.2.engine && y.2.serial == a.serial && decide (y.2.scope home ≤ x.scope))
      let held := (mine.map (·.1) ++ (x.order s).after.filter (fun i => !s.gone [i])).eraseDups
      .ok ((s.mapAct (fun a => { a with fences := a.fences.filter (fun f => !s.gone f.2) ++ [(x.scope, held)] })).leaveTokens (x.order s) held)) s

/-- OJOIN (R153): a field of 0 contributes the empty set. -/
def execOjoin (x : Long) (s : State) : Out := issueL Shape.ojoin x (fun s =>
  .ok (s.setTok x.d.toNat (s.tok x.a.toNat ++ s.tok x.b.toNat).eraseDups)) s

def execCldc (x : Long) (s : State) : Out := issueM Shape.cldc x (capLoadBody x.bytes x.a.toNat x.memOff x.d.toNat x.order) s
/-- L32B: the displacement is IMM12 × 16 (R226). -/
def execCldcL32B (x : ShortB) (s : State) : Out := issueB Shape.cldcL32B x
  (capLoadBody 4 x.a.toNat (fun s => s.offset 0 (x.imm.toInt * 16)) x.d.toNat (fun _ => Order.none)) s
def execCstc (x : Long) (s : State) : Out := issueM Shape.cstc x (capStoreBody x.bytes x.a.toNat x.memOff x.d.toNat x.order) s
def execCstcL32B (x : ShortB) (s : State) : Out := issueB Shape.cstcL32B x
  (capStoreBody 4 x.a.toNat (fun s => s.offset 0 (x.imm.toInt * 16)) x.d.toNat (fun _ => Order.none)) s

end Sys2Proof.Machine
end

