-- ==== Sys2Proof/Machine/Streams.lean ====
section
/-! DEFINITION. Streams (13 R341 to R348): the slots, pops and pushes as every instruction makes them, and the stream instructions. The
engine's own steps stand in Machine/StreamEvents.lean. -/
namespace Sys2Proof.Machine
open Sys2Proof

def askCopyRead (reg : Nat) : Ask := { code := 6, kind := 0, write := false, reg, value := Cap.null, answers := false }
def askCopyWrite (reg : Nat) : Ask := { code := 7, kind := 1, write := true, reg, value := Cap.null, answers := false }

/-- The check of a copy operand (R325): a space other than LOCAL, STORE, EXCH and GLOBAL raises CAPPERM at every level. -/
def State.checkCopy (s : State) (q : Ask) (c : Cap) (off : Int) (n : Nat) : Except Stop Nat :=
  if c.tag ∧ c.otype = 0 ∧ 3 < c.space then .error (q.fault .capperm off) else s.checkCap q c off n

/-- A fault of an operand that names no capability register (R415). -/
def plainFault (code : Code) (off : Nat) : Stop := .fault { code, detail := capDetail 0 0xFF off }

/-- Whether a LOCAL access of the core is still held: operands read in local program order wait for it (R145). -/
def State.localBusy (s : State) : Bool := (s.accessesOf s.core.psn).any (fun x => isLocal x.2.owner)

/-- A descriptor or list read at issue from LOCAL memory in program order (R145, log entry 34). -/
def State.localList (s : State) (a align n : Nat) : Except Stop Nat :=
  if a % align ≠ 0 then .error (plainFault .align a)
  else if 0x18000 < a + n then .error (plainFault .capbound a)
  else if s.localBusy then .error .wait
  else if s.spoiled (localKey s.core.psn a) n then .error (.fault { code := .eccfatal, detail := eccDetail a 0 })
  else .ok (localKey s.core.psn a)

/-- The buffer an address names in its segment (R330, R84). -/
def bufferOf (cfg : Word) (a : Nat) : Nat := a % 65536 / segUnit cfg
/-- Whether every OPERAND buffer that a run of a tile touches is full (R84, R166); what lies past the last one the tile refuses (R83). -/
def Tile.isFull (t : Tile) (off n : Nat) : Bool :=
  (pieces off n 64).all (fun x => segMode (t.seg (x.1 / 65536)) != 1 ||
    decide (segCount (t.seg (x.1 / 65536)) ≤ bufferOf (t.seg (x.1 / 65536)) x.1) || (at_ t.full (x.1 / 65536) 0).getLsbD (bufferOf (t.seg (x.1 / 65536)) x.1))
/-! The generator of R87. -/

def signed16 (v : Nat) : Int := signedOf 16 v
/-- The offset of element i, the innermost dimension first. -/
def patternIndex (counts : List Nat) (strides : List Int) (i : Nat) : Int :=
  match counts, strides with
  | c :: cs, st :: ss => (i % c : Nat) * st + patternIndex cs ss (i / c)
  | _, _ => 0

/-! Lanes (R336). -/

/-- Lane k of a vector for an element width of w bits. -/
def laneOf (w : Nat) (v : VWord) (k : Nat) : Nat := v.toNat / 2 ^ (w * k) % 2 ^ w
/-- The number whose lanes 0 to n − 1 of w bits are f 0 to f (n − 1). -/
def packLanes (w n : Nat) (f : Nat → Nat) : Nat :=
  match n with
  | 0 => 0
  | k + 1 => packLanes w k f + f k % 2 ^ w * 2 ^ (w * k)
/-- The mask of the lanes below n that satisfy f. -/
def laneMask (n : Nat) (f : Nat → Bool) : BitVec 64 := BitVec.ofNat 64 (packLanes 1 n (fun k => (f k).toNat))

/-! Slots. -/

namespace Stream

def bytes (st : Stream) : Nat := elemBits st.ty / 8
def total (st : Stream) : Nat := st.counts.foldl (· * ·) 1
/-- The elements left in the run that element i stands in (R341). -/
def runLeft (st : Stream) (i : Nat) : Nat := st.counts.getD 0 1 - i % st.counts.getD 0 1
/-- VL at the current position (R343). -/
def vl (st : Stream) : Nat := min (lanes st.ty) (st.runLeft st.position)
/-- The byte offset of element i from the capability's base. -/
def offset (st : Stream) (i : Nat) : Int := st.first + patternIndex st.counts st.strides i * st.bytes
/-- The lowest and highest element offsets. -/
def reach (st : Stream) : Int × Int :=
  let ends := (st.counts.zip st.strides).map (fun x => ((x.1 - 1 : Nat) : Int) * x.2)
  (st.first + (ends.filter (· < 0)).foldl (· + ·) 0 * st.bytes, st.first + (ends.filter (0 < ·)).foldl (· + ·) 0 * st.bytes)

end Stream

/-- The slot of v0 to v3 when the running activation has it bound. -/
def State.bound (s : State) (n : Nat) : Option Stream :=
  if n < 4 ∧ (s.core.act.map (fun a => s.core.bindsFor a.entry n)) = some true then at_ s.core.streams n none else none
/-- Whether another activation's faulted continuation keeps a slot (R347). -/
def State.slotKept (s : State) (n : Nat) : Bool :=
  match at_ s.core.streams n none with
  | some st => st.bound && (s.bound n).isNone
  | none => false
/-- Whether the unbinding of an output stream still holds a slot (R346). -/
def State.slotClosing (s : State) (n : Nat) : Bool := s.core.drains.any (fun st => st.closing.any (·.1 == n))
def State.setStream (s : State) (n : Nat) (st : Option Stream) : State := s.mapCore (fun c => { c with streams := put c.streams n st })

/-- The full bits that a pop of elements i to i + n − 1 clears: of every OPERAND buffer whose last byte it takes (R343, R84). -/
def State.takeBuffers (s : State) (st : Stream) (i n : Nat) : State :=
  if st.cap.space ≠ 1 then s
  else (List.range n).foldl (fun s k =>
    let a := (st.cap.base + st.offset (i + k)).toNat
    match s.storeTile s.core (a / 2 ^ 19) with
    | none => s
    | some t =>
      let seg := a / 65536 % 8
      let cfg := (s.getTile t).seg seg
      if segMode cfg = 1 ∧ (a + st.bytes) % 65536 % segUnit cfg = 0 then
        s.modTile t (fun t => { t with full := put t.full seg (setBit (at_ t.full seg 0) (bufferOf cfg a) false) })
      else s) s

/-- One source register (R343): a bound input stream is popped, a bound output stream raises ILLEGAL. `size` is the element size the
instruction's own rule gives the operand; none for a register taken whole (log entry 35). -/
def State.pop (s : State) (n : Nat) (size : Option Nat) : Except Stop State :=
  match s.bound n with
  | none => .ok s
  | some st =>
    if st.output ∨ (size.isSome ∧ size ≠ some (elemBits st.ty)) then .error (.illegal 6)
    else if st.total ≤ st.position then .error (plainFault .capbound (st.position * st.bytes))
    else if st.fetched.length < st.vl then
      match st.fault with
      | some f => .error (.fault f)
      | none => .error .wait
    else
      let vals := st.fetched.take st.vl
      let live (k : Nat) : Bool := (vals.getD k (0, false)).2
      let w := elemBits st.ty
      .ok ((s.setStream n (some { st with
        position := st.position + st.vl, fetched := st.fetched.drop st.vl, live := laneMask st.vl live
        head := BitVec.ofNat 512 (packLanes w st.vl (fun k => if live k then (vals.getD k (0, false)).1 else 0)) })).takeBuffers
          st st.position st.vl)

/-- The sources of an instruction, each register once (R343). -/
def State.popAll (s : State) (srcs : List (Nat × Option Nat)) : Except Stop State :=
  match srcs with
  | [] => .ok s
  | (n, size) :: rest =>
    if rest.any (fun r => r.1 == n && r.2 != size) ∧ (s.bound n).isSome then .error (.illegal 6)
    else if rest.any (·.1 == n) then s.popAll rest
    else do
      let t ← s.popAll rest
      t.pop n size

/-- What a source register reads after the pops: the vector popped, or the register. -/
def State.vin (s : State) (n : Nat) : VWord :=
  match s.bound n with
  | some st => st.head
  | none => s.v n
/-- The old value of a destination: zero for a bound output stream (R339). -/
def State.vold (s : State) (n : Nat) : VWord := if (s.bound n).isSome then 0 else s.v n

/-- A push (R344, R345): VL elements of a vector from lane 0, with the governed lanes' bits; `missing` bytes of it are still to come. -/
def State.push (s : State) (n : Nat) (st : Stream) (size : Option Nat) (data : VWord) (missing : Nat) (gov : BitVec 64) :
    Except Stop State :=
  if !st.output ∨ (size.isSome ∧ size ≠ some (elemBits st.ty)) then .error (.illegal 6)
  else if st.total ≤ st.position then .error (plainFault .capbound (st.position * st.bytes))
  else if 8 ≤ st.pushed.length then .error .wait
  else .ok (s.setStream n (some { st with
    position := st.position + st.vl
    pushed := st.pushed ++ [{ start := st.position, count := st.vl, data, missing, bits := gov, written := 0, bitsDone := st.pred.isNone }] }))

/-- A destination register: written, or pushed into a bound output stream; a bound input stream raises ILLEGAL (R343). -/
def State.vout (s : State) (n : Nat) (size : Option Nat) (data : VWord) (gov : BitVec 64) : Except Stop State :=
  match s.bound n with
  | none => .ok (s.setV n data)
  | some st => s.push n st size data 0 gov
/-- Where a load of `bytes` bytes lands: the register, which starts from `data`, or the vector it pushes (R349). -/
def State.vland (s : State) (n : Nat) (size : Option Nat) (data : VWord) (bytes : Nat) (gov : BitVec 64) : Except Stop (Landing × State) :=
  match s.bound n with
  | none => .ok (.vec n 0, s.setV n data)
  | some st => (s.push n st size data bytes gov).map (fun t => (.push st.token st.position 0, t))

/-- The stream checks come before the capability checks, the pop or push itself after them (R340, R343): what would only wait is passed. -/
def unlessWait {α : Type} (r : Except Stop α) : Except Stop Unit :=
  match r with
  | .ok _ | .error .wait => .ok ()
  | .error e => .error e

/-! Stream instructions (R341, R342, R345, R346). -/

/-- SCFG: the descriptor of R341. -/
def scfgBody (d : Nat) (desc : State → Nat) : Body' := fun s => do
  if s.slotKept d || s.slotClosing d then throw .wait
  if (s.bound d).isSome then throw (.illegal 6)
  let key ← s.localList (desc s) 8 32
  let w (i : Nat) : Nat := ofLe (s.bytes (key + 8 * i) 8)
  let f (i k : Nat) : Nat := w i / 2 ^ (16 * k) % 65536
  let ty := BitVec.ofNat 4 (w 0 / 2 ^ 59)
  if !isScalar ty ∨ w 0 / 2 ^ 48 % 2 ^ 11 ≠ 0 ∨ w 3 ≠ 0 then throw (.illegal 6)
  return (s.setStream d (some {
    owner := (s.core.act.map (·.entry)).getD 0, bound := false, output := decide (2 ^ 63 ≤ w 0), ty := ty, first := w 0 % 2 ^ 48,
    counts := [f 1 1 + 1, f 1 3 + 1, f 2 1 + 1, f 2 3 + 1], strides := [signed16 (f 1 0), signed16 (f 1 2), signed16 (f 2 0), signed16 (f 2 2)],
    cap := Cap.null, pred := none, position := 0, fetched := [], deps := [], token := 0, unbind := 0, pushed := [], live := 0, head := 0,
    fault := none, tile := none, serial := 0, ctx := 0 })).noteRead key 32

/-- A STORE stream lies wholly in RAW or OPERAND segments (R342): those from its lowest byte to its highest. -/
def State.streamSegments (s : State) (a b : Nat) : Bool :=
  (List.range (b / 65536 + 1 - a / 65536)).all (fun i =>
    let seg := a / 65536 + i
    match s.storeTile s.core (seg / 8) with
    | some t => decide (segMode ((s.getTile t).seg (seg % 8)) < 2)
    | none => false)

/-- SBIND (R342, R346): for an input stream AFTER holds the start of fetching, for an output stream the instruction. -/
def sbindBody (d cap : Nat) (o : State → Order) : Body' := fun s =>
  match s.core.act with
  | none => .ok s
  | some a => do
    if s.slotKept d then throw .wait
    match at_ s.core.streams d none with
    | none => throw (.illegal 6)
    | some st =>
      if st.bound then throw (.illegal 6)
      if st.output ∧ !s.gone (o s).after then throw .wait
      let c := s.c cap
      let q := { (if st.output then Ask.store cap else Ask.load cap) with answers := false }
      let lo ← s.checkCopy q c st.reach.1 st.bytes
      let hi ← s.checkCopy q c st.reach.2 st.bytes
      if lo % st.bytes ≠ 0 then throw (q.fault .align st.reach.1)
      if c.space = 1 ∧ !s.streamSegments lo (hi + st.bytes - 1) then throw (q.fault .capperm st.reach.1)
      let tile := if c.space = 1 then s.storeTile s.core (lo / 2 ^ 19) else none
      let id := s.nextId
      match tile with
      | some t => if 4 ≤ (s.getTile t).generators.length then throw .wait
      | none => pure ()
      let s := match tile with
        | some t => s.modTile t (fun t => { t with generators := t.generators ++ [id] })
        | none => s
      let s := s.launchItem (.command s.core.psn a.serial)
      let s := if st.output then s.dropItem id else s
      return (s.setStream d (some { st with
        owner := a.entry, bound := true, cap := c, position := 0, deps := if st.output then [] else (o s).after
        token := id, tile, serial := a.serial, ctx := a.ctx })).leaveTokens (o s) (if st.output then [] else [id])

/-- SUNBIND (R346): AFTER holds the issue for an input stream, the unbinding for an output stream, whose token is satisfied when every pushed
element is complete. -/
def sunbindBody (d : Nat) (o : State → Order) : Body' := fun s =>
  let after := (o s).after
  match s.core.act, s.bound d with
  | some a, some st =>
    if !st.output ∧ !s.gone after then .error .wait
    else if st.pushed = [] then .ok ((s.unbindSlot s.core.psn d 0 after).leaveTokens (o s) [])
    else .ok (((s.launchItem (.command s.core.psn a.serial)).unbindSlot s.core.psn d s.nextId after).leaveTokens (o s) [s.nextId])
  | _, _ => if s.gone after then .error (.illegal 6) else .error .wait

/-- The attach form of SPRED (R345). -/
def spredBody (d cap : Nat) (start : State → Nat) : Body' := fun s => do
  if s.slotKept d then throw .wait
  match at_ s.core.streams d none with
  | none => throw (.illegal 6)
  | some st =>
    if st.bound ∨ st.pred.isSome then throw (.illegal 6)
    let q := { (if st.output then Ask.store cap else Ask.load cap) with answers := false }
    let b := start s
    if st.output ∧ b % 8 ≠ 0 then throw (q.fault .align b)
    let _ ← s.checkCopy q (s.c cap) ((b / 8 : Nat) : Int) ((b + st.total - 1) / 8 + 1 - b / 8)
    return s.setStream d (some { st with pred := some (s.c cap, b) })

/-- A predicate or predicate pair by type (R337): lane k of the number m; the number 0 is every lane. -/
def State.predLane (s : State) (t : TyCode) (m k : Nat) : Bool :=
  m == 0 || (if elemBits t = 8 ∧ 32 ≤ k then (s.p (m + 1)).getLsbD (k - 32) else (s.p m).getLsbD k)
/-- The same mapping for a predicate written; the number 0 discards the write, of a pair too. -/
def State.setPredLanes (s : State) (t : TyCode) (m : Nat) (f : Nat → Bool) : State :=
  if m = 0 then s
  else
    let part (n lo : Nat) : PWord := BitVec.ofNat 32 (packLanes 1 n (fun k => (f (lo + k)).toNat))
    if elemBits t = 8 then (s.setP m (part 32 0)).setP (m + 1) (part 32 32) else s.setP m (part (lanes t) 0)

/-- The read form of SPRED: an 8-bit stream writes a pair, named by an even number (R345). -/
def spredReadBody (d a : Nat) : Body' := fun s =>
  match s.bound a with
  | none => .error (.illegal 6)
  | some st =>
    if elemBits st.ty = 8 ∧ d % 2 = 1 then .error (.illegal 6) else .ok (s.setPredLanes st.ty d (fun k => st.live.getLsbD k))

def sposBody (d a : Nat) : Body' := fun s =>
  match s.bound a with
  | none => .error (.illegal 6)
  | some st => .ok (s.setG d (BitVec.ofNat 64 st.position))

def execScfg (x : Long) (s : State) : Out := issueL Shape.scfg x (scfgBody x.d.toNat (fun s => (s.g x.a.toNat).toNat)) s
def execSbind (x : Long) (s : State) : Out := issueM Shape.sbind x (sbindBody x.d.toNat x.b.toNat x.order) s
def execSunbind (x : Long) (s : State) : Out := issueM Shape.sunbind x (sunbindBody x.d.toNat x.order) s
def execSpredAttach (x : Long) (s : State) : Out := issueL Shape.spredAttach x
  (spredBody x.d.toNat x.a.toNat (fun s => (s.g x.b.toNat).toNat)) s
def execSpredRead (x : Long) (s : State) : Out := issueL Shape.spredRead x (spredReadBody x.d.toNat x.a.toNat) s
def execSpos (x : Long) (s : State) : Out := issueL Shape.spos x (sposBody x.d.toNat x.a.toNat) s

end Sys2Proof.Machine
end

