-- ==== Sys2Proof/Machine/System.lean ====
section
/-! DEFINITION. The unprivileged system instructions (11 R287 to R294, 07 R192). -/
namespace Sys2Proof.Machine
open Sys2Proof

/-! WICK, WID, WHO, TIME. -/

/-- WICK (R289): without a wick index it has no effect. -/
def wickBody : Body' := fun s =>
  match s.core.act with
  | none => .ok s
  | some a =>
    let i := hWick (s.core.handler a.entry)
    .ok (if i = 0 then s else s.mapCore (fun c => { c with wick := s.wickInterval (psnRegion c.psn) a.ctx i }))

/-- Field f of a work identifier cut by a shape (R192). -/
def widField (wid shape : Word) (f : Nat) : Word :=
  let width (k : Nat) : Nat := fld shape (6 * k + 5) (6 * k)
  let start := ((List.range f).map width).foldl (· + ·) 0
  BitVec.ofNat 64 (wid.toNat / 2 ^ start % 2 ^ width f)
def widBody (d f : Nat) : Body' := fun s =>
  .ok (s.setG d ((s.core.act.map (fun a => widField a.wid a.widShape f)).getD 0))

def Act.gangPosition (a : Act) : Nat := (a.gang.map (·.position)).getD 0

/-- The value WHO selects (R290). -/
def State.who (s : State) (sel : Nat) : Word :=
  let c := s.core
  match sel with
  | 0 => c.name.zeroExtend 64
  | 1 => c.logical.zeroExtend 64
  | 2 => BitVec.ofNat 64 c.psn
  | 3 => c.homeStore.zeroExtend 64
  | 4 => BitVec.ofNat 64 ((c.act.map (·.entry)).getD 0)
  | 5 => BitVec.ofNat 64 s.window
  | 6 => BitVec.ofNat 64 ((c.act.map Act.gangPosition).getD 0)
  | _ => BitVec.ofNat 64 (psnRegion c.psn)

/-! QUERY (R291). -/

/-- Whether a request word has its reserved bits zero and a KIND in use. -/
def queryOk (w : Word) : Bool := decide (fld w 63 60 ≤ 2) && fld w 59 23 == 0 && !(fld w 63 60 == 0 && fld w 15 8 != 0)
def queryBody (d a : Nat) : Body' := fun s =>
  let w := s.g a
  if !queryOk w then .error (.illegal 6)
  else .ok ((s.launchItem (.query s.core.psn d w)).setPending (.g d) s.nextId)

/-! SYSRD and SYSWR (R292, R293). -/

def State.actInfo (s : State) : Word :=
  match s.core.act with
  | none => 0
  | some a => BitVec.ofNat 64 (a.actor * 2 ^ 48 + a.entry * 2 ^ 43 + (a.window - 1) * 2 ^ 37 + a.level * 2 ^ 35 + a.gangPosition * 2 ^ 33 +
      a.gang.isSome.toNat * 2 ^ 32 + a.isResumed.toNat)
/-- GANG_FAULT: the word UNGANG reports (R197). -/
def State.gangFault (s : State) : Word :=
  match s.core.act.bind (·.gang) with
  | some g => if g.position = 0 then g.faults &&& 0xF else 0
  | none => 0

/-- A register by its number; PRIV for the ones that graph level may not read. -/
def State.sysRead (s : State) (r : Nat) : Except Stop Word :=
  let region := s.getRegion (psnRegion s.core.psn)
  if 0x100 ≤ r ∧ s.level = .graph then .error (.priv 6)
  else .ok (match r with
    | 0x000 => s.tsc
    | 0x001 => s.core.energy
    | 0x002 => s.core.name.zeroExtend 64
    | 0x003 => s.core.logical.zeroExtend 64
    | 0x004 => BitVec.ofNat 64 s.core.psn
    | 0x005 => s.core.homeWord
    | 0x006 => s.core.ringMember
    | 0x008 => (at_ s.module.grades 0 0).zeroExtend 64
    | 0x009 => (at_ s.module.grades 1 0).zeroExtend 64
    | 0x00A => (at_ s.module.grades 2 0).zeroExtend 64
    | 0x00B => (at_ s.module.grades 3 0).zeroExtend 64
    | 0x010 => s.actInfo
    | 0x011 => if s.core.wickOn then s.core.wick else 0
    | 0x012 => s.gangFault
    | 0x100 => region.runqAge
    | 0x101 => region.ringIdle
    | _ => region.tombWindow)

/-- Writes of the region's limits (R183, R220, R33): a value outside its register's range is ignored. -/
def Region.setRunqAge (r : Region) (v : Word) : Region :=
  let n := fld v 24 0
  if 2 ^ 10 ≤ n ∧ n ≤ 2 ^ 24 then { r with runqAge := BitVec.ofNat 64 n } else r
def Region.setRingIdle (r : Region) (v : Word) : Region :=
  let n := fld v 19 0
  if 1024 ≤ n then { r with ringIdle := BitVec.ofNat 64 n } else r
def Region.setTombWindow (r : Region) (v : Word) : Region :=
  let n := fld v 20 0
  if 4096 ≤ n ∧ n ≤ 2 ^ 20 then { r with tombWindow := BitVec.ofNat 64 n } else r

/-- SYSWR: PRIV at graph level; writes to read-only registers are ignored. -/
def sysWriteBody (r a : Nat) : Body' := fun s =>
  let region := psnRegion s.core.psn
  let v := s.g a
  if s.level = .graph then .error (.priv 6)
  else .ok (match r with
    | 0x100 => s.modRegion region (·.setRunqAge v)
    | 0x101 => s.modRegion region (·.setRingIdle v)
    | 0x102 => s.modRegion region (·.setTombWindow v)
    | _ => s)

/-! YIELD (R294). -/

/-- A live-register mask names at most 16 registers, all below W (R187, R294). -/
def maskOk (mask : Word) (window : Nat) : Bool := decide (popN 64 mask.toNat ≤ 16 ∧ mask.toNat < 2 ^ window)

/-- The leader of a gang that suspends leaves the core, and its record holds no gang: every member goes on alone, from the same instruction (R294, log entry 29). -/
def State.leaveGang (s : State) : State :=
  match s.core.act.bind (·.gang) with
  | some g => if g.position = 0 then s.dissolve { g with leader := s.core.psn } Relay.solo else s
  | none => s
/-- A YIELD detaches the member that it is relayed to (R294). -/
def State.detach (s : State) : State :=
  s.mapAct (fun a => { a with gang := a.gang.map (fun g => if g.position = 0 then g else { g with attached := false }) })

/-- YIELD: a bound stream slot raises ILLEGAL (R347); with no home store tile or no free short record it is a NOP; otherwise the record is taken, the drain is waited for and it suspends, ready at once. -/
def yieldBody (length a : Nat) : Body' := fun s =>
  match s.core.act with
  | none => .ok s
  | some act =>
    let mask := s.g a
    if s.core.bindsAny act.entry || !maskOk mask act.window then .error (.illegal 6)
    else match (s.homeTile s.core).bind (fun t => ((s.getTile t).shortFor s.core.psn).map (fun i => (t, i))) with
    | none => .ok s.detach
    | some (t, i) =>
      if !s.drained s.core.psn act.serial then .ok ((s.modTile t (·.reserve s.core.psn i)).stay length)
      else .ok (s.leaveGang.suspend t i [] mask true)

def execTrap (x : Long) (s : State) : Out := issueL Shape.trap x (fun _ => .error (.trap x.hi.toNat)) s
def execTrapL32B (x : ShortB) (s : State) : Out := issueB Shape.trapL32B x (fun _ => .error (.trap x.imm.toNat)) s
def execWick (x : Long) (s : State) : Out := issueL Shape.wick x wickBody s
def execWickL32A (x : ShortA) (s : State) : Out := issueA Shape.wickL32A x wickBody s
def execWid (x : Long) (s : State) : Out := issueL Shape.wid x (widBody x.d.toNat x.hi.toNat) s
def execWidL32B (x : ShortB) (s : State) : Out := issueB Shape.widL32B x (widBody x.d.toNat x.imm.toNat) s
def execWho (x : Long) (s : State) : Out := issueL Shape.who x (fun s => .ok (s.setG x.d.toNat (s.who x.hi.toNat))) s
def execQuery (x : Long) (s : State) : Out := issueL Shape.query x (queryBody x.d.toNat x.a.toNat) s
def execQueryL32A (x : ShortA) (s : State) : Out := issueA Shape.queryL32A x (queryBody x.d.toNat x.a.toNat) s
def execTime (x : Long) (s : State) : Out := issueL Shape.time x (fun s => .ok (s.setG x.d.toNat s.tsc)) s
def execTimeL32A (x : ShortA) (s : State) : Out := issueA Shape.timeL32A x (fun s => .ok (s.setG x.d.toNat s.tsc)) s
def execTimeEnergy (x : Long) (s : State) : Out := issueL Shape.timeEnergy x (fun s => .ok (s.setG x.d.toNat s.core.energy)) s
def execTimeEnergyL32A (x : ShortA) (s : State) : Out :=
  issueA Shape.timeEnergyL32A x (fun s => .ok (s.setG x.d.toNat s.core.energy)) s
def execSysrd (x : Long) (s : State) : Out := issueL Shape.sysrd x (fun s =>
  (s.sysRead x.hi.toNat).map (fun v => s.setG x.d.toNat v)) s
def execSyswr (x : Long) (s : State) : Out := issueL Shape.syswr x (sysWriteBody x.hi.toNat x.a.toNat) s
def execYield (x : Long) (s : State) : Out := issueL Shape.yield x (yieldBody x.bytes x.a.toNat) s
def execYieldL32A (x : ShortA) (s : State) : Out := issueA Shape.yieldL32A x (yieldBody 4 x.a.toNat) s

end Sys2Proof.Machine
end

