-- ==== Sys2Proof/Machine/Counters.lean ====
section
/-! DEFINITION. Counters, waits and the successor hint (12 R309 to R314). -/
namespace Sys2Proof.Machine
open Sys2Proof

/-- QINC and QADD on a counter of the executing core (R309): q48 to q63 are not graph level's. -/
def addBody (q : Nat) (n : State → Nat) : Body' := fun s =>
  if 48 ≤ q ∧ s.level = .graph then .error (.priv 6) else .ok (s.mapCore (·.addQ q (n s)))

/-- A special access to a store tile, named by its logical index: counter, configuration and full-bit operations travel and are
performed as STORE accesses (R309, R310, R329, R330). A post is ordered by its token alone: no fence covers it (R168). -/
def State.tileAccess (s : State) (a : Act) (idx : Nat) (t : Psn) (off op n : Nat) (data : List Byte) (l : Landing) (o : Order) :
    State :=
  let p : Part := { owner := .tile t off, space := 1, addr := idx * 2 ^ 19 + off, phys := idx * 2 ^ 19 + off, place := 0, size := 8,
                    pkind := 1, key := 0, tags := false, spliced := false }
  let post := op == opCounterPost
  let x := { p.access s a (if op = opCounterRead then .load else .store) (if post then o.after else s.orderDeps a o p) with
             op, engine := post, ctr := n, data, landing := l }
  let u := s.launchItem (.access x)
  let u := match l.reg with
    | some r => u.setPending r s.nextId
    | none => u
  u.leaveTokens o [s.nextId]

/-- QRD (R309): a counter of the core at issue, or a store counter of the home tile as a STORE load. -/
def qrdBody (d ref : Nat) : Body' := fun s =>
  if ref < 64 then .ok (s.setG d (s.core.getQ ref))
  else match s.core.act, s.homeTile s.core with
  | some a, some t =>
    if !s.hasRoom a Order.none [] then .error .wait
    else .ok ((s.setG d 0).tileAccess a 0xFF t 0 opCounterRead (ref - 64) [] (.gpr d 0 7) Order.none)
  | _, _ => .error (plainFault .capbound ref)

/-- The payload of a counter post to a core (R310). -/
def postPayload (amount : Nat) (ack : Bool) (ref : Nat) : List Byte := leBytes 8 amount ++ leBytes 8 (ack.toNat * 128 + ref)

/-- QPOST (R310): a message on handle 31 to a core, or a STORE access to a tile. -/
def qpostBody (a ref : Nat) (amount : State → Nat) (o : State → Order) : Body' := fun s =>
  match s.core.act with
  | none => .ok s
  | some act =>
    let target := s.g a
    if 48 ≤ ref ∧ ref < 64 ∧ s.level = .graph then .error (.priv 6)
    else if ref < 64 then
      if fld target 63 24 ≠ 0 then .error (.illegal 6)
      else
        let m := { message s.core.psn (psnRegion s.core.psn) s.core.name (target.extractLsb' 0 24) 31 (postPayload (amount s) true ref) with
                   deps := (o s).after, acks := s.nextId }
        .ok ((s.launchItem (.message m)).leaveTokens (o s) [s.nextId])
    else if fld target 63 8 ≠ 0 then .error (.illegal 6)
    else match s.storeTile s.core (fld target 7 0) with
    | some t =>
      if !s.hasRoom act (o s) [] then .error .wait
      else .ok (s.tileAccess act (fld target 7 0) t 0 opCounterPost (ref - 64) (leBytes 8 (amount s)) .none (o s))
    | none => .error (plainFault .capbound target.toNat)

/-! WAITQ (R187, R311). -/

/-- The wait itself (a bound stream slot raises ILLEGAL, R347): reached at issue it goes on; otherwise it takes a short record, and from then on drains and leaves the core whatever the
counters reach (R187). -/
def waitOn (length : Nat) (pairs : List (Nat × Word)) (mask : Word) : Body' := fun s =>
  match s.core.act with
  | none => .ok s
  | some act =>
    if s.core.bindsAny act.entry || pairs.any (fun p => decide (80 ≤ p.1)) || !maskOk mask act.window then .error (.illegal 6)
    else
      let home := s.homeTile s.core
      let leave (t : Psn) (i : Nat) (l : List (Nat × Word)) : Except Stop State :=
        if s.drained s.core.psn act.serial then .ok (s.leaveGang.suspend t i l mask false)
        else .ok (((s.modTile t (·.reserve s.core.psn i)).mapAct (fun a => { a with waits := l })).stay length)
      if home.isNone ∧ pairs.any (fun p => decide (64 ≤ p.1)) then .error (plainFault .capbound 0)
      else if let some (t, i) := home.bind (fun t => ((s.getTile t).reservedBy s.core.psn).map (fun i => (t, i))) then leave t i act.waits
      else if s.allReached s.core.psn (home.getD 0) pairs then .ok (s.mapAct (fun a => { a with waits := [] }))
      else match home.bind (fun t => ((s.getTile t).freeShort).map (fun i => (t, i))) with
      | none => .ok ((s.mapAct (fun a => { a with waits := pairs })).stay length)
      | some (t, i) => leave t i pairs

/-- The wait descriptor (R311): alignment, place, fields. -/
def waitDescriptor (length : Nat) (a mask : State → Word) : Body' := fun s =>
  let p := (a s).toNat
  let base := localKey s.core.psn p
  if p % 8 ≠ 0 then .error (plainFault .align p)
  else if 0x18000 < p + 8 then .error (plainFault .capbound p)
  else if s.localBusy then .error .wait
  else if s.spoiled base 8 then .error (.fault { code := .eccfatal, detail := eccDetail p 0 })
  else
    let head := ofLe (s.bytes base 8)
    if head = 0 ∨ 4 < head then .error (.illegal 6)
    else if 0x18000 < p + 8 + 16 * head then .error (plainFault .capbound p)
    else if s.spoiled base (8 + 16 * head) then .error (.fault { code := .eccfatal, detail := eccDetail p 0 })
    else
      let refs := (List.range head).map (fun i => ofLe (s.bytes (base + 8 + 16 * i) 8))
      let pairs := (List.range head).map (fun i => (refs.getD i 0, BitVec.ofNat 64 (ofLe (s.bytes (base + 16 + 16 * i) 8))))
      if refs.any (fun r => decide (80 ≤ r)) then .error (.illegal 6)
      else (waitOn length pairs (mask s) s).map (·.noteRead base (8 + 16 * head))

/-! WAITB (R312, R99), WAITVIS (R313), SUCCHINT (R314). -/

/-- Whether a copy command is performed: no channel holds it any more. -/
def Core.copyGone (c : Core) (id : Nat) : Bool := c.copies.toList.all (fun x => x.queue.all (·.id != id))
/-- The outstanding batches (R99). -/
def Core.outstanding (c : Core) : List (List Nat) := c.batches.filter (fun b => !b.all c.copyGone)
/-- Closing the open batch: nothing when it is empty; a seventeenth outstanding batch is waited for (R99). -/
def closeBatch (s : State) : Except Stop State :=
  let out := s.core.outstanding
  if s.core.batch = [] then .ok (s.mapCore (fun c => { c with batches := out }))
  else
    let all := out ++ (if s.core.batch.all s.core.copyGone then [] else [s.core.batch])
    if 16 < all.length then .error .wait else .ok (s.mapCore (fun c => { c with batch := [], batches := all }))
/-- WAITB: the open batch is closed first, and stays closed while the instruction waits (R99, R312). -/
def waitbBody (length n : Nat) : Body' := fun s => do
  let t ← closeBatch s
  return if n < t.core.outstanding.length then t.stay length else t

def waitvisBody (n : Nat) : Body' := fun s => if n ≤ (s.core.getQ 50).toNat then .ok s else .error .wait

/-- SUCC of a launch header (R394): the graph has a successor. -/
def lhSucc (h : BitVec 1024) : Bool := bit h 21
/-- SUCCHINT: the first one of a graph with SUCC set takes effect, before its successor's launch too; it orders nothing (R314). -/
def succhintBody : Body' := fun s =>
  match s.graphOn s.core.psn with
  | none => .ok s
  | some g => .ok (if lhSucc g.header then s.putGraph { g with hinted := true } else s)

def execQinc (x : Long) (s : State) : Out := issueL Shape.qinc x (addBody x.d.toNat (fun _ => 1)) s
def execQincL32A (x : ShortA) (s : State) : Out := issueA Shape.qincL32A x (addBody x.d.toNat (fun _ => 1)) s
def execQadd (x : Long) (s : State) : Out := issueL Shape.qadd x (addBody x.d.toNat (fun s =>
  if x.wide then x.lit.toNat else if x.sub = 1 then (s.g x.b.toNat).toNat else x.hi.toNat)) s
def execQaddL32B (x : ShortB) (s : State) : Out := issueB Shape.qaddL32B x (addBody x.d.toNat (fun _ => x.imm.toNat)) s
def execQrd (x : Long) (s : State) : Out := issueL Shape.qrd x (qrdBody x.d.toNat (x.hi.toNat % 128)) s
def execQpost (x : Long) (s : State) : Out := issueM Shape.qpost x
  (qpostBody x.a.toNat x.postRef (fun s => if x.wide then x.lit.toNat else (s.g x.b.toNat).toNat) x.order) s
def execWaitq (x : Long) (s : State) : Out := issueL Shape.waitq x (fun s =>
  if x.sub = 1 then waitDescriptor x.bytes (·.g x.a.toNat) (·.g x.c.toNat) s
  else waitOn x.bytes [(x.hi.toNat % 128, s.g x.b.toNat)] (s.g x.c.toNat) s) s
def execWaitb (x : Long) (s : State) : Out := issueL Shape.waitb x (waitbBody x.bytes x.hi.toNat) s
def execWaitvis (x : Long) (s : State) : Out := issueL Shape.waitvis x (waitvisBody x.hi.toNat) s
def execSucchint (x : Long) (s : State) : Out := issueL Shape.succhint x succhintBody s
def execSucchintL32A (x : ShortA) (s : State) : Out := issueA Shape.succhintL32A x succhintBody s
def execBatch (x : Long) (s : State) : Out := issueL Shape.batch x closeBatch s

end Sys2Proof.Machine
end

