-- ==== Sys2Proof/Machine/Handles.lean ====
section
/-! DEFINITION. Queue handles, messages and the collective reduction (12 R315 to R323). -/
namespace Sys2Proof.Machine
open Sys2Proof

/-- A handle whose descriptor is invalid raises ILLEGAL at execution (R315). -/
def State.handleOk (s : State) (h : Nat) : Except Stop Unit := if s.core.queueOk.getLsbD h then .ok () else .error (.illegal 6)
/-- An operand that names an input handle, h0 to h19, or an output handle, h20 to h31: another one raises ILLEGAL at execution (R315). -/
def State.handleIn (s : State) (h : Nat) : Except Stop Unit := if h < 20 then s.handleOk h else .error (.illegal 6)
def State.handleOut (s : State) (h : Nat) : Except Stop Unit := if h < 20 then .error (.illegal 6) else s.handleOk h

/-- A count operand must lie in 1 to 256 (R315). -/
def countOk (n : Nat) : Except Stop Unit := if 1 ≤ n ∧ n ≤ 256 then .ok () else .error (.illegal 6)

/-- Whether a copy command that feeds an output handle is under way (R327). -/
def Core.copying (c : Core) (h : Nat) : Bool :=
  c.copies.toList.any (fun x => match x.queue with
    | k :: _ => k.started && k.handle == some h
    | [] => false)

/-- HWAITF (R316). -/
def hwaitfBody (d h : Nat) (n : State → Nat) : Body' := fun s => do
  s.handleIn h
  countOk (n s)
  let q := s.core.queue h
  if qDepth q < n s then throw (.illegal 6)
  let f := s.core.filled h
  if f < n s ∧ !qEnded q then throw .wait
  return s.setP d (allLanes (decide (n s ≤ f)))

/-- HWAITE (R316). -/
def hwaiteBody (h : Nat) (n : State → Nat) : Body' := fun s => do
  s.handleOut h
  countOk (n s)
  let q := s.core.queue h
  if oDepth q < n s then throw (.illegal 6)
  if oFree q < n s then throw .wait
  return s

/-- The limits of a slot access (R317): alignment, the slot's end, the depth. -/
def slotCheck (off size slot i depth : Nat) : Except Stop Unit :=
  if off % size ≠ 0 then .error (plainFault .align off)
  else if slot < off + size then .error (plainFault .capbound off)
  else if depth ≤ i then .error (.illegal 6) else .ok ()

/-- HLD (R317): byte `off` of slot RD_PTR + i in presentation order. -/
def hldBody (d h off : Nat) (t : TyCode) (i : State → Nat) : Body' := fun s => do
  s.handleIn h
  let q := s.core.queue h
  slotCheck off (elemBytes t) (qSlotBytes q) (i s) (qDepth q)
  if s.localBusy then throw .wait
  match (s.core.presented h)[i s]? with
  | none => throw .wait
  | some (k, place) =>
    if s.spoiled (localKey s.core.psn (slotAddr q k place + off)) (elemBytes t) then
      throw (.fault { code := .eccfatal, detail := eccDetail (slotAddr q k place + off) 0 })
    return (s.setG d (extend t (ofLe (s.bytes (localKey s.core.psn (slotAddr q k place + off)) (elemBytes t))))).noteRead
      (localKey s.core.psn (slotAddr q k place + off)) (elemBytes t)

/-- HST (R317): staging slot (PROD_PTR + i) mod depth. -/
def hstBody (d h off : Nat) (t : TyCode) (i : State → Nat) : Body' := fun s => do
  s.handleOut h
  let q := s.core.queue h
  slotCheck off (elemBytes t) (oSlotBytes q) (i s) (oDepth q)
  if s.localBusy || s.core.copying h || decide (oFree q ≤ i s) then throw .wait
  let slot := (oProd q + i s) % oDepth q
  return s.poke (localKey s.core.psn (oBase q + slot * oSlotBytes q + off)) (leBytes (elemBytes t) (s.g d).toNat)

/-- The DRAM requests of a core that hold a slot of an input queue (R108): still at the actor, or with the reply on its way. -/
def State.reservedSlots (s : State) (c : Core) (h : Nat) : Nat :=
  (s.flight.filter (fun i => match i.body with
    | .access a => a.core == c.psn && a.rmode == 0 && a.rhandle == h
    | .message m => m.reply && m.handle == h && m.dest == c.name && m.region == psnRegion c.psn
    | _ => false)).length

/-- A queue ends when every producer's mark has been counted and nothing is filled or outstanding (R95); its entry owes one end firing
(R177). -/
def State.endCheck (s : State) (p : Psn) (h : Nat) : State :=
  let c := s.getCore p
  let q := c.queue h
  if qEos q = qProducers q ∧ !qEnded q ∧ c.arrivals.all (·.1 != h) ∧ s.reservedSlots c h = 0 then
    s.putCore { (c.setQueue h (setBit q 124 true)) with endOwed := c.endOwed ||| BitVec.ofNat 20 (2 ^ h) }
  else s

/-- The producer's core and output handle of a channel (R91, R93). -/
def State.producerEnd (s : State) (c : Core) (h k : Nat) : Option (Psn × Nat) :=
  match (c.producers h)[k]? with
  | none => none
  | some ch =>
    match s.holder (psnRegion c.psn) ch.name with
    | none => none
    | some p => ((List.range 12).map (· + 20)).findSome? (fun o =>
        let q := (s.getCore p).queue o
        if (s.getCore p).queueOk.getLsbD o && oDest q == c.name && oHandle q == h && oIndex q == k then some (p, o) else none)

/-- HADVC (R318, R93, R94): n slots are freed, one credit for each goes back to the producer that filled it, grouped by producer. -/
def hadvcBody (h : Nat) (n : State → Nat) : Body' := fun s => do
  s.handleIn h
  countOk (n s)
  let q := s.core.queue h
  let shown := s.core.presented h
  if shown.length < n s then throw (.illegal 6)
  let freed := shown.take (n s)
  let turn := match freed.getLast? with
    | some (k, _) => (k + 1) % qProducers q
    | none => s.core.turnOf h
  let c := s.core
  let c := { (c.setQueue h (setFld q 63 32 (qRead q + n s))) with
             arrivals := c.arrivals.filter (fun x => x.1 != h || !freed.contains x.2)
             turns := upsert c.turns (·.1 == h) (h, turn) }
  let t := (List.range (qProducers q)).foldl (fun t k =>
    let count := (freed.filter (·.1 == k)).length
    match s.producerEnd s.core h k with
    | some (p, o) => if count = 0 then t else t.launchItem (.credit p o count)
    | none => t) { s with core := c }
  return t.endCheck s.core.psn h

/-- HADVP (R318): n staging slots close; each is sent by the core as a credit allows, once its AFTER set is complete (R93, R169). -/
def hadvpBody (h : Nat) (n : State → Nat) (after : State → List Nat) : Body' := fun s => do
  s.handleOut h
  countOk (n s)
  let q := s.core.queue h
  if oEosSent q then throw (.illegal 6)
  if s.core.copying h then throw .wait
  if oFree q < n s then throw (.illegal 6)
  return s.mapCore (fun c => { (c.setQueue h (setFld q 31 16 (oProd q + n s))) with
    staged := c.staged ++ List.replicate (n s) (h, false, after s) })

/-- HEOS (R318): the mark follows every slot closed before it. -/
def heosBody (h : Nat) (after : State → List Nat) : Body' := fun s => do
  s.handleOut h
  let q := s.core.queue h
  if oEosSent q then throw (.illegal 6)
  if s.core.copying h then throw .wait
  return s.mapCore (fun c => { (c.setQueue h (setBit q 81 true)) with staged := c.staged ++ [(h, true, after s)] })

/-- HSTAT (R319). -/
def hstatWord (c : Core) (h : Nat) : Word :=
  let q := c.queue h
  if h < 20 then BitVec.ofNat 64 ((qEnded q).toNat * 2 ^ 63 + qEos q * 2 ^ 57 + qDepth q * 2 ^ 32 + c.filled h)
  else BitVec.ofNat 64 ((oEosSent q).toNat * 2 ^ 63 + oCredits q * 2 ^ 16 + oFree q)
def hstatBody (d h : Nat) : Body' := fun s => do
  s.handleOk h
  return s.setG d (hstatWord s.core h)

/-! SEND and SENDQ (R320). -/

/-- One message leaves an output handle: it takes the next sequence number and spends a credit (R93). -/
def State.sendSlot (s : State) (p : Psn) (h : Nat) (payload : List Byte) (deps : List Nat) : State :=
  let c := s.getCore p
  let q := c.queue h
  let m := { message p (psnRegion p) c.name (oDest q) (oHandle q) payload with seq := BitVec.ofNat 16 (oSeq q), deps }
  (s.putCore (c.setQueue h (setFld (setFld q 63 48 (oSeq q + 1)) 47 39 (oCredits q - 1)))).launchItem (.message m)

/-- The conditions of SEND and SENDQ on the handle: no mark sent, the staging ring empty, a credit held (R320, R327). -/
def State.canSend (s : State) (h : Nat) : Except Stop Unit := do
  s.handleOut h
  let q := s.core.queue h
  if oEosSent q then throw (.illegal 6)
  if s.core.copying h || oStaged q != 0 || oCredits q == 0 then throw .wait

/-- SEND: the slot is read through a LOCAL capability, aligned to the slot size. -/
def sendBody (h cap : Nat) (off : State → Int) (after : State → List Nat) : Body' := fun s => do
  s.handleOut h
  let q := s.core.queue h
  let c := s.c cap
  let ask := { Ask.load cap with answers := false }
  if c.tag ∧ c.otype = 0 ∧ c.space ≠ 0 ∧ !(c.space = 5 ∧ s.level = .graph) then throw (ask.fault .capperm (off s))
  let a ← s.checkCap ask c (off s) (oSlotBytes q)
  if a % oSlotBytes q ≠ 0 then throw (ask.fault .align (off s))
  s.canSend h
  if s.localBusy then throw .wait
  if s.spoiled (localKey s.core.psn a) (oSlotBytes q) then throw (.fault { code := .eccfatal, detail := eccDetail a 0 })
  return (s.sendSlot s.core.psn h (s.localBytes s.core a (oSlotBytes q)) (after s)).noteRead (localKey s.core.psn a) (oSlotBytes q)

/-- SENDQ: the slot is taken from a run of vector registers; a run past v31 raises ILLEGAL; bound input streams are popped (R363). -/
def sendqBody (h b : Nat) (after : State → List Nat) : Body' := fun s => do
  s.handleOut h
  let q := s.core.queue h
  let n := (oSlotBytes q + 63) / 64
  if 32 < b + n then throw (.illegal 6)
  s.canSend h
  if (List.range n).any (fun i => s.core.isPending (.v (b + i))) then throw .wait
  let s ← s.popAll ((List.range n).map (fun i => (b + i, none)))
  let payload := ((List.range n).flatMap (fun i => leBytes 64 (s.vin (b + i)).toNat)).take (oSlotBytes q)
  return s.sendSlot s.core.psn h payload (after s)

/-! CRED (R321, R322). -/

/-- A core that is no leaf of the tree raises ILLEGAL; its k-th CRED on a tree is its contribution to round k. -/
def credBody (x : Long) : Body' := fun s =>
  let region := psnRegion s.core.psn
  let n := x.hi.toNat % 16
  let ctx := (s.core.act.map (·.ctx)).getD 0
  match (s.getRegion region).trees.find? (fun t => t.number == n && t.ctx == ctx), s.logicalOf s.core.psn with
  | some t, some l =>
    if !t.leaves.contains l then .error (.illegal 6)
    else
      let round := ((s.core.credRound.find? (·.1 == n)).map (·.2)).getD 0
      let value := s.g x.a.toNat
      let s' := s.mapCore (fun c => { c with credRound := upsert c.credRound (·.1 == n) (n, round + 1) })
      .ok ((s'.launchItem (.contribution region n s.core.psn round (x.c.toNat % 8) x.sub.toNat (x.c.toNat / 8 % 4) (x.c.getLsbD 5) value
        (encodeEnc (.long Shape.cred x)))).setPending (.g x.d.toNat) s.nextId)
  | _, _ => .error (.illegal 6)

end Sys2Proof.Machine

namespace Sys2Proof.Long
open Sys2Proof.Machine

/-- The count of HWAITF, HWAITE, HADVC and HADVP (R315). -/
def count (x : Long) (s : State) : Nat := if x.sub = 1 then (s.g x.b.toNat).toNat else x.hi.toNat
def afterSet (x : Long) (s : State) : List Nat := s.tok x.after.toNat ++ s.redone

end Sys2Proof.Long

namespace Sys2Proof.Machine
open Sys2Proof

def execHwaitf (x : Long) (s : State) : Out := issueL Shape.hwaitf x (hwaitfBody x.d.toNat x.a.toNat x.count) s
def execHwaitfL32B (x : ShortB) (s : State) : Out := issueB Shape.hwaitfL32B x (hwaitfBody 0 x.a.toNat (fun _ => x.imm.toNat)) s
def execHwaite (x : Long) (s : State) : Out := issueL Shape.hwaite x (hwaiteBody x.a.toNat x.count) s
def execHwaiteL32B (x : ShortB) (s : State) : Out := issueB Shape.hwaiteL32B x (hwaiteBody x.a.toNat (fun _ => x.imm.toNat)) s
def execHld (x : Long) (s : State) : Out := issueL Shape.hld x
  (hldBody x.d.toNat x.a.toNat x.hi.toNat x.sub (fun s => (s.g x.b.toNat).toNat)) s
def execHst (x : Long) (s : State) : Out := issueL Shape.hst x
  (hstBody x.d.toNat x.a.toNat x.hi.toNat x.sub (fun s => (s.g x.b.toNat).toNat)) s
def execHadvc (x : Long) (s : State) : Out := issueL Shape.hadvc x (hadvcBody x.a.toNat x.count) s
def execHadvcL32B (x : ShortB) (s : State) : Out := issueB Shape.hadvcL32B x (hadvcBody x.a.toNat (fun _ => x.imm.toNat)) s
def execHadvp (x : Long) (s : State) : Out := issueM Shape.hadvp x (hadvpBody x.a.toNat x.count x.afterSet) s
def execHadvpL32B (x : ShortB) (s : State) : Out :=
  issueB Shape.hadvpL32B x (hadvpBody x.a.toNat (fun _ => x.imm.toNat) (fun _ => [])) s
def execHeos (x : Long) (s : State) : Out := issueM Shape.heos x (heosBody x.a.toNat x.afterSet) s
def execHstat (x : Long) (s : State) : Out := issueL Shape.hstat x (hstatBody x.d.toNat x.a.toNat) s
def execHstatL32A (x : ShortA) (s : State) : Out := issueA Shape.hstatL32A x (hstatBody x.d.toNat x.a.toNat) s
/-- SEND: B names the capability, C the index (R315). -/
def execSend (x : Long) (s : State) : Out := issueM Shape.send x
  (sendBody x.a.toNat x.b.toNat (fun s => s.offset x.c.toNat x.hi.toInt) x.afterSet) s
def execSendq (x : Long) (s : State) : Out := issueM Shape.sendq x (sendqBody x.a.toNat x.b.toNat x.afterSet) s
def execCred (x : Long) (s : State) : Out := issueL Shape.cred x (credBody x) s

end Sys2Proof.Machine
end

