-- ==== Sys2Proof/Machine/Aes.lean ====
section
/-! DEFINITION. AES-256 and its XTS mode as the DRAM actor applies them (02 R59). The cipher is FIPS 197's and the mode IEEE 1619's, which
the spec names (log entry 11). Bytes are numbers below 256; a block is a list of 16. -/
namespace Sys2Proof.Machine.Aes
open Sys2Proof Sys2Proof.Machine

/-- The substitution table and its inverse: byte i of the number is the image of i. -/
def sboxTable : Nat :=
  0x16bb54b00f2d99416842e6bf0d89a18cdf2855cee9871e9b948ed9691198f8e19e1dc186b95735610ef6034866b53e708a8bbd4b1f74dde8c6b4a61c2e2578ba08ae7a65eaf4566ca94ed58d6d37c8e779e4959162acd3c25c2406490a3a32e0db0b5ede14b8ee4688902a22dc4f816073195d643d7ea7c41744975fec130ccdd2f3ff1021dab6bcf5389d928f40a351a89f3c507f02f94585334d43fbaaefd0cf584c4a39becb6a5bb1fc20ed00d153842fe329b3d63b52a05a6e1b1a2c830975b227ebe28012079a059618c323c7041531d871f1e5a534ccf73f362693fdb7c072a49cafa2d4adf04759fa7dc982ca76abd7fe2b670130c56f6bf27b777c63
def invTable : Nat :=
  0x7d0c2155631469e126d677ba7e042b17619953833cbbebc8b0f52aae4d3be0a0ef9cc9939f7ae52d0d4ab519a97f51605fec8027591012b131c7078833a8dd1ff45acd78fec0db9a2079d2c64b3e56fc1bbe18aa0e62b76f89c5291d711af1476edf751ce837f9e28535ade72274ac9673e6b4f0cecff297eadc674f4111913a6b8a130103bdafc1020f3fca8f1e2cd00645b3b80558e4f70ad3bc8c00abd890849d8da75746155edab9edfd5048706c92b6655dcc5ca4d41698688664f6f87225d18b6d49a25b76b224d92866a12e084ec3fa420b954cee3d23c2a632947b54cbe9dec444438e3487ff2f9b8239e37cfbd7f3819ea340bf38a53630d56a0952
def sub (b : Nat) : Nat := sboxTable / 256 ^ b % 256
def invSub (b : Nat) : Nat := invTable / 256 ^ b % 256

def double (b : Nat) : Nat := if b < 128 then 2 * b else (2 * b - 256) ^^^ 0x1B
/-- The product of a byte by a small constant in the field, bit by bit. -/
def times (n k b : Nat) : Nat :=
  match n with
  | 0 => 0
  | m + 1 => (if k % 2 = 1 then b else 0) ^^^ times m (k / 2) (double b)

def xorList (a b : List Nat) : List Nat := (a.zip b).map (fun x => x.1 ^^^ x.2)
/-- A column by the four constants of its first row. -/
def mixColumn (k0 k1 k2 k3 : Nat) (c : List Nat) : List Nat :=
  let at_ (i : Nat) : Nat := c.getD (i % 4) 0
  (List.range 4).map (fun i => times 4 k0 (at_ i) ^^^ times 4 k1 (at_ (i + 1)) ^^^ times 4 k2 (at_ (i + 2)) ^^^ times 4 k3 (at_ (i + 3)))
def columns (f : List Nat → List Nat) (s : List Nat) : List Nat :=
  (List.range 4).flatMap (fun c => f ((s.drop (4 * c)).take 4))
/-- Row r moves by r columns: byte 4c + r comes from column c + r, or c − r. -/
def shiftRows (s : List Nat) : List Nat := (List.range 16).map (fun i => s.getD ((i + 4 * (i % 4)) % 16) 0)
def unshiftRows (s : List Nat) : List Nat := (List.range 16).map (fun i => s.getD ((i + 12 * (i % 4)) % 16) 0)

/-- The words of the key schedule, newest first, n more of them, number i next. -/
def schedule (n i rcon : Nat) (ws : List (List Nat)) : List (List Nat) :=
  match n with
  | 0 => ws
  | m + 1 =>
    let last := ws.getD 0 []
    let t := if i % 8 = 0 then xorList ((last.drop 1 ++ last.take 1).map sub) [rcon, 0, 0, 0]
             else if i % 8 = 4 then last.map sub else last
    schedule m (i + 1) (if i % 8 = 0 then double rcon else rcon) (xorList (ws.getD 7 []) t :: ws)
/-- The fifteen round keys of a 32-byte key. -/
def roundKeys (key : List Nat) : List (List Nat) :=
  let ws := (schedule 52 8 1 ((List.range 8).map (fun i => (key.drop (4 * (7 - i))).take 4))).reverse
  (List.range 15).map (fun r => ((ws.drop (4 * r)).take 4).flatten)

def encrypt (key block : List Nat) : List Nat :=
  match roundKeys key with
  | [] => []
  | k0 :: rest =>
    let mid := (rest.take 13).foldl (fun s k => xorList (columns (mixColumn 2 3 1 1) (shiftRows (s.map sub))) k) (xorList block k0)
    xorList (shiftRows (mid.map sub)) (rest.getD 13 [])
def decrypt (key block : List Nat) : List Nat :=
  match (roundKeys key).reverse with
  | [] => []
  | k14 :: rest =>
    let mid := (rest.take 13).foldl (fun s k => columns (mixColumn 14 11 13 9) (xorList ((unshiftRows s).map invSub) k)) (xorList block k14)
    xorList ((unshiftRows mid).map invSub) (rest.getD 13 [])

def toNats (bs : List Byte) : List Nat := bs.map (·.toNat)
def ofNats (ns : List Nat) : List Byte := ns.map (BitVec.ofNat 8)
/-- The tweak times α^j, as a 128-bit number. -/
def alpha (t j : Nat) : Nat :=
  match j with
  | 0 => t
  | k + 1 => let u := alpha t k; if u < 2 ^ 127 then 2 * u else (2 * u - 2 ^ 128) ^^^ 0x87

/-- The key pair of a slot: its first 32 bytes encrypt the data, the others the tweak. -/
def dataKey (pair : BitVec 512) : List Nat := toNats (leBytes 32 pair.toNat)
def tweakKey (pair : BitVec 512) : List Nat := toNats (leBytes 32 (pair.toNat / 2 ^ 256))
/-- The mask of the 16-byte block at a physical address: block j of the 64-byte unit PA[47:6]. -/
def mask (pair : BitVec 512) (pa : Nat) : List Nat :=
  toNats (leBytes 16 (alpha (ofLe (ofNats (encrypt (tweakKey pair) (toNats (leBytes 16 (pa % 2 ^ 48 / 64)))))) (pa / 16 % 4)))
def xtsEncrypt (pair : BitVec 512) (pa : Nat) (block : List Byte) : List Byte :=
  let m := mask pair pa
  ofNats (xorList (encrypt (dataKey pair) (xorList (toNats block) m)) m)
def xtsDecrypt (pair : BitVec 512) (pa : Nat) (block : List Byte) : List Byte :=
  let m := mask pair pa
  ofNats (xorList (decrypt (dataKey pair) (xorList (toNats block) m)) m)

end Sys2Proof.Machine.Aes
end

