-- ==== Sys2Proof/Machine/DramActor.lean ====
section
/-! DEFINITION. What a DRAM actor does with a request (04 R105 to R122, 02 R59, R71): the bytes of rows under their keys, row lines, and
the status and result of each request. -/
namespace Sys2Proof.Machine
open Sys2Proof

/-! Bytes under a key (R59, R114). DRAM holds ciphertext; 16-byte blocks are enciphered one by one. -/

def State.keyPair (s : State) (key : Nat) : Option (BitVec 512) := (s.module.keySlots.find? (fun (e : Nat × BitVec 512) => e.1 == key)).map Prod.snd
/-- Whether a request's key slot is loaded; 0 is plaintext. -/
def State.hasKey (s : State) (key : Nat) : Bool := key == 0 || (s.keyPair key).isSome

/-- The block at a 16-byte boundary. -/
def State.dramBlock (s : State) (pair : Option (BitVec 512)) (pa : Nat) : List Byte :=
  match pair with
  | some k => Aes.xtsDecrypt k pa (s.bytes pa 16)
  | none => s.bytes pa 16
/-- The 16-byte boundaries that n bytes at a touch. -/
def blocksOf (a n : Nat) : List Nat := if n = 0 then [] else (List.range ((a + n - 1) / 16 + 1 - a / 16)).map (fun i => (a / 16 + i) * 16)
/-- n bytes at a physical address. -/
def State.dramRead (s : State) (key pa n : Nat) : List Byte :=
  if key = 0 then s.bytes pa n
  else slice ((blocksOf pa n).flatMap (s.dramBlock (s.keyPair key))) (pa % 16) n
/-- Bytes written; the granules they touch lose their tags (R46). -/
def State.dramStore (s : State) (key pa : Nat) (bs : List Byte) : State :=
  if key = 0 then s.poke pa bs
  else match s.keyPair key with
  | none => s
  | some k =>
    let blocks := blocksOf pa bs.length
    let plain := blocks.flatMap (s.dramBlock (some k))
    let data := putBytes plain (pa % 16) bs
    blocks.zipIdx.foldl (fun u b => u.poke b.1 (Aes.xtsEncrypt k b.1 (slice data (16 * b.2) 16))) s
/-- A granule written with its tag as one unit (R45, R114). -/
def State.dramStoreCap (s : State) (key pa : Nat) (bits : List Byte) : State :=
  let t := s.dramStore key pa bits
  { t with tags := Mem.setTag t.tags (pa / 16) }

/-- The 64-byte units that a write of n bytes at a touches without covering: they are read, merged and written whole (R114). -/
def mergedUnits (a n : Nat) : List Nat :=
  if n = 0 then [] else ((List.range ((a + n - 1) / 64 + 1 - a / 64)).map (fun i => (a / 64 + i) * 64)).filter (fun u => !decide (a ≤ u ∧ u + 64 ≤ a + n))
/-- The unit of a write under a key that meets an uncorrectable error when it is read (R114). -/
def State.mergeFails (s : State) (key a n : Nat) : Option Nat := if key = 0 then none else (mergedUnits a n).find? (fun u => s.spoiled u 64)
/-- The reads of such a write, and the check bits that its units get anew. -/
def State.merged (s : State) (key a n : Nat) : State :=
  if key = 0 then s
  else (mergedUnits a n).foldl (fun s u => let t := s.noteRead u 64; { t with upsets := upsetsLeft t.upsets u 64 }) s
/-- The place of a 64-byte block of a frame in the order of the copy (R70): the 32 actors go on together, each through its two rows in address order. -/
def blockOrder (b : Nat) : Nat := (b / 16 / 32 * 16 + b % 16) * 32 + b / 16 % 32
/-- The block at a place of that order. -/
def orderedBlock (n : Nat) : Nat := (n / 32 / 16 * 32 + n % 32) * 16 + n / 32 % 16
/-- A write in a block that the copy of a splice has read, or at a frame whose page drains to a new one, is forwarded there (R71): the physical address in
the new frame. -/
def State.forwardPa (s : State) (pa : Nat) : Option Nat :=
  (s.regions.flatMap (fun r => r.splices.toList)).findSome? (fun e =>
    if bit e 127 ∧ fld e 63 32 = pa / 65536 ∧
        (fld e 126 125 = 2 ∨ (fld e 126 125 = 1 ∧ blockOrder (pa % 65536 / 64) < fld e 90 80)) then some (fld e 31 0 * 65536 + pa % 65536) else none)
def State.dramWrite (s : State) (key pa : Nat) (bs : List Byte) : State :=
  (cut (bs.length / 64 + 2) pa 0 bs.length 64).foldl (fun t x => match s.forwardPa x.1 with
    | some q => t.dramStore key q (slice bs x.2.1 x.2.2)
    | none => t) (s.dramStore key pa bs)
def State.dramWriteCap (s : State) (key pa : Nat) (bs : List Byte) (tag : Bool) : State :=
  let put (u : State) (a : Nat) : State := if tag then u.dramStoreCap key a bs else u.dramStore key a bs
  match s.forwardPa pa with
  | some q => put (put s pa) q
  | none => put s pa

/-! Row buffers and hold slots (R115 to R122). -/

/-- Word 0 (R124) in the low half, word 1 in the high half. -/
def slotKeep (w : BitVec 128) : Bool := bit w 62
def slotParked (w : BitVec 128) : Bool := bit w 61
def slotCtx (w : BitVec 128) : Nat := fld w 60 56
def slotName (w : BitVec 128) : BitVec 24 := w.extractLsb' 31 24
/-- The physical address of a slot's row. -/
def slotRow (w : BitVec 128) : Nat := fld w 30 0 * 1024
def slotKey (w : BitVec 128) : Nat := fld w 127 116
def slotDeadline (w : BitVec 128) : Nat := fld w 115 64
def makeSlot (ctx : Nat) (name : BitVec 24) (pa key deadline : Nat) : BitVec 128 :=
  BitVec.ofNat 128 (2 ^ 63 + ctx * 2 ^ 56 + name.toNat * 2 ^ 31 + pa / 1024 % 2 ^ 31 + (key * 2 ^ 52 + deadline % 2 ^ 52) * 2 ^ 64)

/-- Whether a slot keeps its row in the buffer (R117, R127). -/
def slotHolds (w : BitVec 128) : Bool := slotKeep w && !slotParked w
def Actor.findSlot (a : Actor) (chan slot : Nat) : Option (BitVec 128) :=
  (a.slots.find? (fun (x : Nat × Nat × BitVec 128) => x.1 == chan && x.2.1 == slot)).map (fun x => x.2.2)
def Actor.setSlot (a : Actor) (chan slot : Nat) (w : BitVec 128) : Actor :=
  { a with slots := upsert a.slots (fun x => x.1 == chan && x.2.1 == slot) (chan, slot, w) }
def Actor.dropSlot (a : Actor) (chan slot : Nat) : Actor := { a with slots := a.slots.filter (fun x => !(x.1 == chan && x.2.1 == slot)) }
/-- The rows of a subarray under KEEP, parked ones too (R117, R119, R127). -/
def Actor.keptIn (a : Actor) (chan bank sub : Nat) : List Nat :=
  ((a.slots.filter (fun x => x.1 == chan && slotKeep x.2.2 && dramBank (slotRow x.2.2) == bank && dramSub (slotRow x.2.2) == sub)).map
    (fun x => dramRow (slotRow x.2.2))).eraseDups
/-- Whether a row is in its buffer. -/
def Actor.isActive (a : Actor) (pa : Nat) : Bool := a.rows.contains (dramChan pa, dramBank pa, dramSub pa, dramRow pa)
def Actor.closeSub (a : Actor) (pa : Nat) : Actor :=
  { a with rows := a.rows.filter (fun r => !(r.1 == dramChan pa && r.2.1 == dramBank pa && r.2.2.1 == dramSub pa)) }
/-- A row is put in its buffer. -/
def Actor.activate (a : Actor) (pa : Nat) : Actor :=
  let b := a.closeSub pa
  { b with rows := b.rows ++ [(dramChan pa, dramBank pa, dramSub pa, dramRow pa)] }
/-- An access to a row leaves it in its buffer, unless another row is kept there: that one is re-activated (R121). A parked line keeps its claim and
not its row (R127). -/
def Actor.touchRow (a : Actor) (pa : Nat) : Actor :=
  if a.slots.any (fun x => x.1 == dramChan pa && slotHolds x.2.2 && dramBank (slotRow x.2.2) == dramBank pa && dramSub (slotRow x.2.2) == dramSub pa &&
      dramRow (slotRow x.2.2) != dramRow pa) then a else a.activate pa
/-- A freed slot's row closes when no other slot keeps it (R117, R120). -/
def Actor.freeSlot (a : Actor) (chan slot : Nat) : Actor :=
  match a.findSlot chan slot with
  | none => a
  | some w =>
    let b := a.dropSlot chan slot
    let row := slotRow w
    if b.slots.any (fun x => x.1 == chan && slotHolds x.2.2 && slotRow x.2.2 == row) then b
    else { b with rows := b.rows.filter (· != (chan, dramBank row, dramSub row, dramRow row)) }
/-- The hold time in ticks (R123). -/
def Actor.holdTicks (a : Actor) : Nat := (fld a.cfg 7 0 + 1) * 1000000

/-- A refused row request's word (R116). -/
def rowRefused (reason : Nat) : Word := BitVec.ofNat 64 (2 ^ 63 + reason * 2 ^ 56)

/-- What a request answers: STATUS (R112), RESULT, data, and the tags of the granules read. -/
structure Answered where
  status : Nat
  result : Word
  data : List Byte
  tag : Bool
  deriving DecidableEq, Repr
def Answered.ok : Answered := { status := 0, result := 0, data := [], tag := false }
def Answered.bad (n : Nat) : Answered := { status := n, result := 0, data := [], tag := false }

/-- ROWOPEN (R116): the lowest free slot; a quota used up is reported before a channel's slots (log entry 127). -/
def State.rowOpen (s : State) (a : Access) (pa : Nat) : Answered × State :=
  let act := s.getActor (dramStack pa)
  let chan := dramChan pa
  if fld (at_ act.quota a.ctx 0) 11 0 ≤ act.used a.ctx then ({ Answered.bad 3 with result := rowRefused 1 }, s)
  else match (List.range 64).find? (fun i => (act.findSlot chan i).isNone) with
  | none => ({ Answered.bad 3 with result := rowRefused 2 }, s)
  | some i =>
    let w := makeSlot a.ctx a.name pa a.key (s.tsc.toNat + act.holdTicks)
    ({ Answered.ok with result := BitVec.ofNat 64 (dramStack pa * 2 ^ 11 + chan * 2 ^ 6 + i) },
      s.putActor ((act.setSlot chan i w).touchRow pa))

/-- ROWHOLD on an owned slot (R117): the result word of R116, with the handle. -/
def State.rowHold (s : State) (chan slot : Nat) (w : BitVec 128) (act : Actor) : Answered × State :=
  let row := slotRow w
  let others (sub : Nat) : List Nat := (act.keptIn chan (dramBank row) sub).filter (fun r => r != dramRow row || sub != dramSub row)
  let renew := setFld w 115 64 (s.tsc.toNat + act.holdTicks)
  let held : Answered := { Answered.ok with result := BitVec.ofNat 64 (act.stack * 2 ^ 11 + chan * 2 ^ 6 + slot) }
  if slotKeep w then (held, s.putActor (act.setSlot chan slot renew))
  else if others (dramSub row) ≠ [] then ({ Answered.bad 3 with result := rowRefused 3 }, s)
  else if 2 ≤ ((List.range 4).filter (fun sub => sub != dramSub row && act.keptIn chan (dramBank row) sub != [])).length then
    ({ Answered.bad 3 with result := rowRefused 4 }, s)
  else (held, s.putActor (act.setSlot chan slot (setBit renew 62 true)))

/-- The ticks to a deadline of 52 bits, 0 once it is reached. -/
def ticksLeft (deadline now : Nat) : Nat :=
  let d := (deadline + 2 ^ 52 - now % 2 ^ 52) % 2 ^ 52
  if d < 2 ^ 51 then d else 0
/-- ROWSTAT's word (R117); the handle of another owner reads 0. -/
def State.rowStat (s : State) (act : Actor) (w : BitVec 128) : Word :=
  BitVec.ofNat 64 (2 ^ 63 + (slotKeep w).toNat * 2 ^ 62 + (act.isActive (slotRow w)).toNat * 2 ^ 61 + (slotParked w).toNat * 2 ^ 60 +
    min (ticksLeft (slotDeadline w) s.tsc.toNat / 4096) 0xFFFF * 2 ^ 32 + slotRow w / 1024)

/-- A request through a line handle (R115, R117, R118). -/
def State.rowAct (s : State) (a : Access) : Answered × State :=
  let act := s.getActor (a.handle / 2 ^ 11 % 32)
  let chan := a.handle / 2 ^ 6 % 32
  let slot := a.handle % 64
  match (act.findSlot chan slot).filter (fun w => slotCtx w == a.ctx && slotName w == a.name) with
  | none => (if a.op = 8 then Answered.ok else Answered.bad 2, s)
  | some w =>
    let pa := slotRow w + a.addr
    match a.op with
    | 4 => s.rowHold chan slot w act
    | 5 => (Answered.ok, s.putActor (act.freeSlot chan slot))
    | 8 => ({ Answered.ok with result := s.rowStat act w }, s)
    | 6 =>
      if !s.hasKey (slotKey w) then (Answered.bad 4, s)
      else if s.spoiled pa a.size then (Answered.bad 1, (s.putActor (act.touchRow pa)).noteFatal pa)
      else ({ Answered.ok with data := s.dramRead (slotKey w) pa a.size }, (s.putActor (act.touchRow pa)).noteRead pa a.size)
    | _ =>
      let t := s.putActor (act.touchRow pa)
      if !s.hasKey (slotKey w) then (Answered.bad 4, s)
      else match s.mergeFails (slotKey w) pa a.data.length with
      | some u => (Answered.bad 1, t.noteFatal u)
      | none => (Answered.ok, (t.merged (slotKey w) pa a.data.length).dramWrite (slotKey w) pa a.data)

/-- A read or write at a physical address (R110, R114). -/
def State.plainAct (s : State) (a : Access) (pa : Nat) : Answered × State :=
  if !s.hasKey a.key then (Answered.bad 4, s)
  else
    let t := s.putActor ((s.getActor (dramStack pa)).touchRow pa)
    if a.takes ∧ s.spoiled pa a.size then (Answered.bad 1, t.noteFatal pa)
    else match a.kind with
    | .load => ({ Answered.ok with data := s.dramRead a.key pa a.size }, t.noteRead pa a.size)
    | .capLoad => ({ Answered.ok with data := s.dramRead a.key pa 16, tag := s.tags.contains (pa / 16) && a.tags }, t.noteRead pa 16)
    | .store => match s.mergeFails a.key pa a.data.length with
      | some u => (Answered.bad 1, t.noteFatal u)
      | none => (Answered.ok, (t.merged a.key pa a.data.length).dramWrite a.key pa a.data)
    | .capStore => match s.mergeFails a.key pa 16 with
      | some u => (Answered.bad 1, t.noteFatal u)
      | none => (Answered.ok, (t.merged a.key pa 16).dramWriteCap a.key pa a.data a.tagv)
    | .atomic =>
      let old := s.dramRead a.key pa a.size
      ({ Answered.ok with data := old }, match atomicNew a.aop (ofLe old) (ofLe a.data) (ofLe a.operand2) with
        | some v => (t.noteRead pa a.size).dramWrite a.key pa (leBytes a.size v)
        | none => t.noteRead pa a.size)

/-- DGATH (R110): each element read in order. -/
def State.gatherAct (s : State) (a : Access) : Answered × State :=
  if !s.hasKey a.key then (Answered.bad 4, s)
  else if a.gather.any (fun e => s.spoiled e.2 a.size) then
    (Answered.bad 1, (a.gather.filter (fun e => s.spoiled e.2 a.size)).foldl (fun t e => t.noteFatal e.2) s)
  else ({ Answered.ok with data := a.gather.flatMap (fun e => s.dramRead a.key e.2 a.size) },
    a.gather.foldl (fun t e => (t.putActor ((t.getActor (dramStack e.2)).touchRow e.2)).noteRead e.2 a.size) s)

/-- The actor performs one request (R110, R113). -/
def State.dramAct (s : State) (a : Access) (pa : Nat) : Answered × State :=
  if 0xB ≤ a.op then (Answered.bad 5, s)
  else match a.op with
  | 2 => s.gatherAct a
  | 3 => s.rowOpen a pa
  | 9 => (Answered.ok, s)
  | 0 | 1 | 0xA => s.plainAct a pa
  | _ => s.rowAct a

/-- The fault code of a nonzero status (R112); status 3 is a result. -/
def statusCode (status : Nat) (result : Word) : Code :=
  match status with
  | 1 => .eccfatal | 2 => .heldlost | 4 => .page | 5 => .illegal
  | _ => if fld result 7 0 = 6 then .capperm else .capbound
/-- The DETAIL of a nonzero status (R112, R415, log entry 36). -/
def Access.statusFault (a : Access) (id status : Nat) (result : Word) : FaultInfo :=
  let code := statusCode status result
  let detail : BitVec 256 :=
    match code with
    | .eccfatal => eccDetail a.phys status
    | .heldlost => BitVec.ofNat 256 ((if a.handle = 0 then a.phys else a.handle) + status * 2 ^ 64)
    | .page => pageDetail a.addr 8 3 6 a.ctx
    | .illegal => parcelDetail [] 7
    | _ => capDetail 8 0xFF a.dest
  { code, detail, answer := .item id }

end Sys2Proof.Machine
end

