-- ==== Sys2Proof/Machine/Tiles.lean ====
section
/-! DEFINITION. A store tile or exchange bank performs an access (03 R79 to R88, R329, R330): the rules of each segment mode, full and empty
bits, FIFO and LINE counters, reconfiguration, and the tile's store counters. -/
namespace Sys2Proof.Machine
open Sys2Proof

/-- What an owner answers: the access performed with its reply's bytes and tag, refused with a code, held at a full or empty FIFO,
or GONE. -/
inductive Owned where
  | done (reply : List Byte) (tag : Bool) (s : State)
  | refused (code : Code)
  | held
  | gone
  deriving DecidableEq, Repr

/-- The ACCESS code of R66 by kind. -/
def Access.code (a : Access) : Nat :=
  match a.kind with
  | .load => 0 | .store => 1 | .atomic => 2 | .capLoad => 4 | .capStore => 5
def Access.reads (a : Access) : Bool := a.kind == .load || a.kind == .capLoad
/-- The tile's refusal of SBUFW and SBUFSET (R330, R82). -/
def bufferRefusal (cfg : Word) (a : Nat) : Option Code :=
  if segMode cfg ≠ 1 ∨ segSys cfg then some .capperm else if segCount cfg ≤ bufferOf cfg a then some .capbound else none

/-- The mark on a load that clears a full bit at the tile (R349, R84). -/
def consumeMark : Nat := 1

/-- The mark on a store that sets a full bit with its last byte (R84, R376). -/
def fillMark : Nat := 2

/-- The fields of SEG_CFG that change what the segment is. -/
def cfgShape (cfg : Word) : Nat × Nat × Nat := (segMode cfg, fld cfg 52 43, fld cfg 42 37)
/-- The limit of R80 on buffers and lines. -/
def cfgFits (cfg : Word) : Bool :=
  !(segMode cfg == 1 || segMode cfg == 3) || decide ((fld cfg 52 43 + 1) * segCount cfg ≤ 1024)

/-- The writable fields of SEG_CFG; SYS stands in segment 7 alone (R80). -/
def cfgValue (seg : Nat) (v : Word) : Word :=
  v &&& BitVec.ofNat 64 (3 * 2 ^ 62 + (if seg = 7 then 2 ^ 61 else 0) + 1023 * 2 ^ 43 + 63 * 2 ^ 37)

/-- A fault of an owner (R301): its code, the access code and the address; a RESUME with value may answer it (R67). -/
def Access.refusal (a : Access) (id : Nat) (code : Code) : FaultInfo :=
  { code, detail := if code = .eccfatal then eccDetail a.phys 0 else capDetail a.code 0xFF a.addr, answer := .item id }

/-- Accesses that wait at a segment under its old mode are refused with CAPBOUND (R82). -/
def State.refuseWaiters (s : State) (t : Psn) (seg : Nat) : State :=
  { s with flight := s.flight.map (fun i => match i.body with
      | .access a => match a.owner with
        | .tile p off => if p = t ∧ off / 65536 = seg ∧ a.stage = .fifoHeld then
            { i with body := .access { a with stage := .refused, fault := some (a.refusal i.id .capbound) } } else i
        | _ => i
      | _ => i) }

/-- A change of configuration between two accesses (R82): bytes, tags, full bits and counters of the segment are cleared. -/
def State.configure (s : State) (t : Psn) (seg : Nat) (cfg : Word) : State :=
  let tile := s.getTile t
  if cfgShape cfg = cfgShape (tile.seg seg) then s.putTile { tile with segCfg := put tile.segCfg seg cfg }
  else
    ((s.clearRange (tileKey t (seg * 65536)) 65536).refuseWaiters t seg).putTile { tile with
      segCfg := put tile.segCfg seg cfg, full := put tile.full seg 0, head := put tile.head seg 0, tail := put tile.tail seg 0
      lcount := put tile.lcount seg 0, lineWrap := tile.lineWrap &&& ~~~ (BitVec.ofNat 8 (2 ^ seg)) }

/-- Whether a run of bytes covers the last byte of the buffer it starts in (R84). -/
def coversLast (cfg : Word) (off n : Nat) : Bool := (off % 65536 + n) / segUnit cfg != off % 65536 / segUnit cfg
def State.setFull (s : State) (t : Psn) (off : Nat) (b : Bool) : State :=
  s.modTile t (fun tile =>
    let seg := off / 65536
    { tile with full := put tile.full seg (setBit (at_ tile.full seg 0) (bufferOf (tile.seg seg) off) b) })

/-- A firmware store to stage descriptor i (R405): its read-only fields stay. -/
def stageWritten (old new : BitVec 512) : BitVec 512 :=
  let w : BitVec 512 := setFld new 27 12 (fld old 27 12)
  let w := setFld (setFld w 186 128 (fld old 186 128)) 255 192 0
  (List.range 16).foldl (fun w i => setBit w (271 + 16 * i) false) w
def State.storeStages (s : State) (t : Psn) (off : Nat) (bs : List Byte) : State :=
  s.modTile t (fun tile => { tile with stages := Vector.ofFn (fun i : Fin 16 =>
    let old := at_ tile.stages i.val 0
    let at0 := 0xC000 + 64 * i.val
    if off < at0 + 64 ∧ at0 < off + bs.length then
      stageWritten old (BitVec.ofNat 512 (ofLe ((List.range 64).map (fun k =>
        if off ≤ at0 + k ∧ at0 + k < off + bs.length then bs.getD (at0 + k - off) 0 else old.extractLsb' (8 * k) 8))))
    else old) })
/-- The bytes performed at a place of the tile. A SYS segment shows its records and stage descriptors; a store there reaches the descriptors
(R405), and records change only as continuations do. -/
def State.tilePlain (s : State) (a : Access) (t : Psn) (off : Nat) : Owned :=
  if a.takes ∧ s.spoiled (tileKey t off) a.size then .refused .eccfatal
  else if a.kind = .load then .done (s.tileBytes (s.getTile t) off a.size) false (s.noteRead (tileKey t off) a.size)
  else if off / 65536 = 7 ∧ segSys ((s.getTile t).seg 7) ∧ a.kind = .capLoad then
    .done (s.tileBytes (s.getTile t) off 16) ((s.getTile t).sysTag (off % 65536)) s
  else if off / 65536 = 7 ∧ segSys ((s.getTile t).seg 7) then
    let r := (s.poke (tileKey t off) (s.tileBytes (s.getTile t) off a.size)).performBytes a (tileKey t off) true
    .done r.1.1 r.1.2 (r.2.storeStages t (off % 65536) (r.2.bytes (tileKey t off) a.size))
  else
    let r := s.performBytes a (tileKey t off) true
    .done r.1.1 r.1.2 r.2

/-- OPERAND mode (R83, R84). -/
def State.tileOperand (s : State) (a : Access) (t : Psn) (off : Nat) (cfg : Word) : Owned :=
  if a.kind = .atomic then .refused .capperm
  else if segUnit cfg * segCount cfg < off % 65536 + a.size then .refused .capbound
  else
    let last := coversLast cfg off a.size
    match s.tilePlain a t off with
    | .done r tag u =>
      .done r tag (if a.reads ∧ a.aop = consumeMark ∧ last then u.setFull t off false
        else if a.kind = .store ∧ a.aop = fillMark ∧ last then u.setFull t off true else u)
    | o => o

/-- FIFO mode (R83, R85). -/
def State.tileFifo (s : State) (a : Access) (t : Psn) (off : Nat) (cfg : Word) : Owned :=
  let seg := off / 65536
  let tile := s.getTile t
  let held := fifoHeld tile seg
  let slot (n : BitVec 32) : Nat := seg * 65536 + n.toNat % fifoSlots cfg * segUnit cfg
  if a.kind = .atomic then .refused .capperm
  else if off % 65536 ≠ 0 then .refused .capbound
  else if a.size ≠ segUnit cfg then .refused .align
  else if a.reads then
    if held = 0 then .held
    else match s.tilePlain a t (slot (at_ tile.head seg 0)) with
    | .done r tag u => .done r tag (u.modTile t (fun x => { x with head := put x.head seg (at_ x.head seg 0 + 1) }))
    | o => o
  else if fifoSlots cfg ≤ held then .held
  else match s.tilePlain a t (slot (at_ tile.tail seg 0)) with
  | .done r tag u => .done r tag (u.modTile t (fun x => { x with tail := put x.tail seg (at_ x.tail seg 0 + 1) }))
  | o => o

/-- LINE mode (R83, R86). -/
def State.tileLine (s : State) (a : Access) (t : Psn) (off : Nat) (cfg : Word) : Owned :=
  let seg := off / 65536
  let w := segUnit cfg
  let n := segCount cfg
  let tile := s.getTile t
  let count := (at_ tile.lcount seg 0).toNat
  let j := off % 65536 / w
  let b := off % 65536 % w
  if a.kind = .atomic then .refused .capperm
  else if a.reads then
    if n ≤ j ∨ w < b + a.size then .refused .capbound
    else if count ≤ j ∧ !tile.lineWrap.getLsbD seg then .done (List.replicate a.size 0) false s
    else s.tilePlain a t (seg * 65536 + (((count : Int) - 1 - j) % n).toNat * w + b)
  else if w < off % 65536 + a.size then .refused .capbound
  else match s.tilePlain a t (seg * 65536 + count % n * w + b) with
  | .done r tag u =>
    .done r tag (if b + a.size = w then u.modTile t (fun x => { x with
        lcount := put x.lcount seg (at_ x.lcount seg 0 + 1)
        lineWrap := if count + 1 = 2 ^ 32 then x.lineWrap ||| BitVec.ofNat 8 (2 ^ seg) else x.lineWrap }) else u)
  | o => o

/-- Special operations: a store counter read or posted (R309, R310), STCFG (R329), SBUFSET (R330). -/
def State.tileSpecial (s : State) (a : Access) (t : Psn) (off : Nat) : Owned :=
  let tile := s.getTile t
  if a.op = opCounterRead then .done (leBytes 8 (at_ tile.sq a.ctr 0).toNat) false s
  else if a.op = opCounterPost then
    .done [] false (s.putTile { tile with sq := put tile.sq a.ctr (satAdd (at_ tile.sq a.ctr 0) (ofLe a.data)) })
  else if a.op = opStcfg then
    let v := BitVec.ofNat 64 (ofLe a.data)
    let old := tile.seg a.ctr
    if !interior (psnIndex t) ∨ segSys old then .refused .capperm
    else if !cfgFits v then .refused .capbound
    else .done [] false (s.configure t a.ctr v)
  else
    let seg := off / 65536
    match bufferRefusal (tile.seg seg) off with
    | some code => .refused code
    | none => .done [] false (s.setFull t off (a.ctr = 1))

/-- A store tile or exchange bank performs an access at one of its own bytes (R79, R83). -/
def State.tileOwn (s : State) (a : Access) (t : Psn) (off : Nat) : Owned :=
  let tile := s.getTile t
  let lo := off / 65536
  let hi := (off + a.size - 1) / 65536
  if tile.withdrawn then .gone
  else if opCounterRead ≤ a.op then s.tileSpecial a t off
  else if levelOf a.core = .graph ∧ (lo = 7 ∨ hi = 7) ∧ segSys (tile.seg 7) then .refused .capperm
  else if hi ≠ lo then
    (if segMode (tile.seg lo) = 0 ∧ segMode (tile.seg hi) = 0 then s.tilePlain a t off else .refused .capbound)
  else if a.kind = .capStore ∧ a.tagv ∧ segMode (tile.seg lo) ≠ 0 then .refused .capperm
  else if a.reads ∧ a.aop = consumeMark ∧ segMode (tile.seg lo) ≠ 1 then .refused .capperm
  else match segMode (tile.seg lo) with
  | 0 => s.tilePlain a t off
  | 1 => s.tileOperand a t off (tile.seg lo)
  | 2 => s.tileFifo a t off (tile.seg lo)
  | _ => s.tileLine a t off (tile.seg lo)

/-! A tile that is being evacuated (R72): the copy and the forwarding of R71. -/

/-- The evacuation of which a tile is the source. -/
def State.evac (s : State) (t : Psn) : Option Evac := (s.getRegion (psnRegion t)).evacs.find? (·.source == t)
/-- The blocks that have been copied follow what is written at the source. -/
def State.followCopy (s : State) (e : Evac) : State := s.copyTagged (tileKey e.source 0) (tileKey e.target 0) (64 * e.done)
/-- Whether an access lies in RAW segments of a tile whose bytes memory alone holds. -/
def Tile.rawAt (t : Tile) (off n : Nat) : Bool :=
  let raw (i : Nat) : Bool := segMode (t.seg i) == 0 && !(i == 7 && segSys (t.seg 7))
  raw (off / 65536) && raw ((off + n - 1) / 65536)
/-- What an access wrote at the source reaches the spare: an atomic's result as a write, a capability with its tag. -/
def State.forwardTile_ (s : State) (e : Evac) (a : Access) (off : Nat) : State :=
  if a.reads then s
  else if a.kind = .capStore then s.pokeCap (tileKey e.target off) (s.peekCap (tileKey e.source off))
  else s.poke (tileKey e.target off) (s.bytes (tileKey e.source off) a.size)
/-- An access at a tile. While the copy runs it is performed there; once the map names the spare, an access that comes by the old map is performed there and
forwarded, except one that needs the segment's registers, which the spare has: it is performed by the spare (log entry 87). -/
def State.tileAct (s : State) (a : Access) (t : Psn) (off : Nat) : Owned :=
  match s.evac t with
  | none => s.tileOwn a t off
  | some e =>
    if e.waits.isNone then
      (match s.tileOwn a t off with
      | .done r tag u => .done r tag (u.followCopy e)
      | o => o)
    else if a.op < opCounterRead ∧ (s.getTile e.target).rawAt off a.size then
      (match s.tileOwn a t off with
      | .done r tag u => .done r tag (u.forwardTile_ e a off)
      | o => o)
    else s.tileOwn a e.target off

/-- How many accesses wait at a segment (R85). -/
def State.fifoWaiters (s : State) (t : Psn) (seg : Nat) : Nat :=
  (s.flight.filter (fun i => match i.body with
    | .access a => a.stage == .fifoHeld && (match a.owner with
      | .tile p off => p == t && off / 65536 == seg
      | _ => false)
    | _ => false)).length

end Sys2Proof.Machine
end

