-- ==== Sys2Proof/Machine/Owners.lean ====
section
/-! DEFINITION. An access performed by its owner, whatever kind of owner that is (06 R141, R142), and the reads that an engine of a core
makes in one step of it. -/
namespace Sys2Proof.Machine
open Sys2Proof

/-- What performing an access gives: its reply, a refusal, a wait at a full or empty FIFO, or GONE. -/
inductive Performed where
  | done (reply : List Byte) (tag : Bool) (s : State)
  | refused (f : FaultInfo)
  | held
  | gone
  deriving DecidableEq, Repr

/-- GONE as R415 describes it: the access code, the space, the address, the withdrawn tile. -/
def Access.goneFault (a : Access) : FaultInfo :=
  let tile := match a.owner with
    | .tile p _ => p
    | _ => 0
  { code := .gone, answer := .nothing,
    detail := BitVec.ofNat 256 (a.code + a.space * 2 ^ 8 + a.addr % 2 ^ 32 * 2 ^ 32 + tile * 2 ^ 64) }

/-- The key of a byte of companion memory: its physical address (R42). -/
def companionKey (off : Nat) : Nat := 2 ^ 46 + off

/-- An owner performs the access of an item. A store to a control register is `ctrl`'s (Machine/Ctrl.lean). -/
def State.performAt (s : State) (ctrl : Nat → List Byte → State → State) (id : Nat) (a : Access) : Performed :=
  match a.owner with
  | .local addr =>
    if a.takes ∧ s.spoiled (localKey a.core addr) a.size then .refused { code := .eccfatal, detail := eccDetail addr 0, answer := .item id }
    else let r := s.performLocal a addr; .done r.1.1 r.1.2 r.2
  | .tile t off =>
    match s.tileAct a t off with
    | .done bs tag u => .done bs tag u
    | .refused code => .refused (a.refusal id code)
    | .held => .held
    | .gone => .gone
  | .dram pa =>
    let r := s.dramAct a pa
    if r.1.status = 0 then .done r.1.data r.1.tag r.2 else .refused (a.statusFault id r.1.status r.1.result)
  | .companion off => let r := s.performBytes a (companionKey off) false; .done r.1.1 r.1.2 r.2
  | .ctrl addr => if a.reads then .done (s.ctrlBytes addr a.size) false s else .done [] false (ctrl addr a.data s)

/-! Reads of an engine within one step. -/

/-- Why an engine does not go on: a page is missing from the TLB, or a stop. -/
inductive Halt where
  | miss (q : Ask) (va : Nat)
  | stop (st : Stop)
  deriving DecidableEq, Repr

/-- A check of an instruction inside an engine's work. -/
def lifted {α : Type} (r : Except Stop α) : Except Halt α :=
  match r with
  | .ok v => .ok v
  | .error e => .error (.stop e)

/-- The channels of a stack that a request goes to. -/
def Access.channels (a : Access) (pa : Nat) : List Nat :=
  if a.op = 9 then [] else if a.op = 2 then a.gather.map (fun e => dramChan e.2) else [dramChan pa]
/-- The channels that an access's reply comes from, as stack × 32 + channel. -/
def Access.replyChans (a : Access) : List Nat :=
  match a.owner with
  | .dram pa => (a.channels pa).map (fun c => dramStack pa * 32 + c)
  | _ => []
/-- Whether a reply of some channels may arrive at a core: none of an earlier request to one of them is still on its way (R113). -/
def State.replyFirst (s : State) (id : Nat) (core : Psn) (chans : List Nat) : Bool :=
  !s.flight.any (fun i => decide (i.id < id) && (match i.body with
    | .access b => b.core == core && b.stage == .performed && b.rmode == 3 && b.replyChans.any chans.contains
    | .message m => m.reply && m.stage != .bounced && m.region == psnRegion core && m.dest == (s.getCore core).name &&
        m.chans.any chans.contains
    | _ => false))
/-- Whether an earlier request of a core must be performed before an access to a DRAM channel: one of the same channel, or one to the same actor that
is held, since it holds every later one (R154). -/
def State.channelBusy (s : State) (core : Psn) (pa : Nat) : Bool :=
  (s.accessesOf core).any (fun x => match x.2.owner with
    | .dram q => dramStack q == dramStack pa && (x.2.stage == .held || x.2.stage == .sent) &&
        (!s.gone x.2.deps || (x.2.channels q).contains (dramChan pa))
    | _ => false)
def State.partBusy (s : State) (p : Part) : Bool :=
  match p.owner with
  | .dram pa => s.channelBusy s.core.psn pa
  | _ => false

/-- One part read by an engine. -/
def State.readPart (s : State) (a : Act) (p : Part) : Except Halt (List Byte × State) :=
  if s.partBusy p then .error (.stop .wait)
  else
    let x := { p.access s a .load [] with engine := true }
    match s.performAt (fun _ _ u => u) 0 x with
    | .done bs _ t => .ok (bs, t)
    | .refused f => .error (.stop (.fault { f with answer := .nothing }))
    | .held => .error (.stop .wait)
    | .gone => .error (.stop (.fault x.goneFault))
def State.readParts (s : State) (a : Act) (ps : List Part) : Except Halt (List Byte × State) :=
  match ps with
  | [] => .ok ([], s)
  | p :: rest => do
    let r ← s.readPart a p
    let more ← r.2.readParts a rest
    return (r.1 ++ more.1, more.2)

/-- A miss of an engine asks for its page in the name of the item it works for; the core goes on (R64). -/
def State.askEngine (s : State) (q : Ask) (va unit : Nat) : State :=
  match s.core.act with
  | none => s
  | some a => s.askPage { core := s.core.psn, serial := a.serial, ctx := a.ctx, va, access := q.code, write := q.write, answers := false
                          tagged := false, unit }

end Sys2Proof.Machine
end

