-- ==== Sys2Proof/Machine/Walk.lean ====
section
/-! DEFINITION. The page-table walk (02 R54 to R61, R66): three levels in plaintext class 00 memory. -/
namespace Sys2Proof.Machine
open Sys2Proof

/-- Whether a frame of 2^size bytes lies in its class's valid range, all of it (R42); of a class 11 frame the unit at its base must exist (log entry 126). -/
def State.frameOk (s : State) (region pa size : Nat) : Bool :=
  let off := pa % 2 ^ 46
  match paClass pa with
  | 0 => decide (off + 2 ^ size ≤ 2 ^ 41)
  | 1 => decide (off + 2 ^ size ≤ (s.getHost (quadrantOf region)).compWin.toNat * 2 ^ 30)
  | 2 => decide (off + 2 ^ size ≤ 0x6E000000)
  | _ => decide (off < 2 ^ 40) && ctrlExists off

/-- A malformed entry at a level: 0 root, 1 L1, 2 L0 (R56). -/
def State.malformed (s : State) (region level : Nat) (e : Word) : Bool :=
  let leaf := bit e 1
  if !leaf then level == 2 || fld e 31 2 != 0 || leafFrame e / 2 ^ 30 != 0 || !s.frameOk region (leafFrame e * 65536) 16
  else level == 0 || (level == 1 && leafFrame e % 2 ^ 13 != 0) || fld e 8 2 != 0 || leafSplice e == 3 || (bit e 11 && leafT e) ||
    (leafClass e == 3 && leafKind e != 3) || (leafKey e != 0 && leafClass e != 0)

/-- What a walk finds: a leaf, its page size, the address of its entry; or the level and cause of R66. -/
inductive Found where
  | leaf (entry : Word) (size addr : Nat)
  | bad (level cause : Nat)
  deriving DecidableEq, Repr

/-- Whether a key slot is loaded (R59). -/
def State.keyLoaded (s : State) (slot : Nat) : Bool := s.module.keySlots.any (·.1 == slot)

/-- One level of the walk and those below it. -/
def State.walkFrom (s : State) (region gkey va : Nat) (table level fuel : Nat) : Found :=
  match fuel with
  | 0 => .bad 2 5
  | k + 1 =>
    let shift := match level with
      | 0 => 42 | 1 => 29 | _ => 16
    let idx := va / 2 ^ shift % (if level = 0 then 64 else 8192)
    let addr := table + 8 * idx
    let e : Word := BitVec.ofNat 64 (ofLe (s.bytes addr 8))
    if s.spoiled addr 8 then .bad level 9
    else if !bit e 0 then .bad level 1
    else if s.malformed region level e then .bad level 5
    else if !bit e 1 then s.walkFrom region gkey va (leafFrame e * 65536) (level + 1) k
    else if !s.frameOk region (leafFrame e * 65536) shift then .bad level 7
    else if leafKey e ≠ 0 ∧ !(leafKey e == gkey && s.keyLoaded (leafKey e)) then .bad level 6
    else .leaf e shift addr

/-- The addresses of the entries that a walk reads from a level to another. -/
def State.entriesFrom (s : State) (va table level last fuel : Nat) : List Nat :=
  match fuel with
  | 0 => []
  | k + 1 =>
    let shift := match level with
      | 0 => 42 | 1 => 29 | _ => 16
    let addr := table + 8 * (va / 2 ^ shift % (if level = 0 then 64 else 8192))
    if last ≤ level then [addr] else addr :: s.entriesFrom va (leafFrame (BitVec.ofNat 64 (ofLe (s.bytes addr 8))) * 65536) (level + 1) last k
/-- The address of a context's root table. -/
def State.rootTable (s : State) (region ctx : Nat) : Nat := fld (at_ (s.getRegion region).graphRoot ctx 0) 47 9 * 512
/-- The addresses read by a walk that ends at a level. -/
def State.entriesTo (s : State) (region ctx va level : Nat) : List Nat := s.entriesFrom va (s.rootTable region ctx) 0 level 3
def State.entryAt (s : State) (region ctx va level : Nat) : Nat := (s.entriesTo region ctx va level).getLastD (s.rootTable region ctx)
/-- The walker's reads are requests to DRAM actors (R107): each leaves its row in its buffer (R118) and notes what errors it meets. -/
def State.readEntries (s : State) (l : List Nat) : State :=
  l.foldl (fun s a => (s.putActor ((s.getActor (dramStack a)).touchRow a)).noteRead a 8) s
/-- The leaf of an address under a context (R61: EN = 0 reports cause 0x01 at the root before any read). The root is a physical address, whatever class
its bits 47:46 name (log entry 126). -/
def State.findLeaf (s : State) (region ctx va : Nat) : Found :=
  let root := at_ (s.getRegion region).graphRoot ctx 0
  if !bit root 0 then .bad 0 1 else s.walkFrom region (fld root 63 52) va (s.rootTable region ctx) 0 3

/-- Whether a context's walks read anything at all (R61). -/
def State.contextLive (s : State) (region ctx : Nat) : Bool := bit (at_ (s.getRegion region).graphRoot ctx 0) 0
/-- A walk for an access (R60, R66): the rights are tested at the leaf, and a fill sets ACCESSED and, for a write, DIRTY. Its reads and its update are
an actor's (R107, R71). -/
def State.walk (s : State) (region ctx va : Nat) (lv : Level) (code : Nat) (write tagged : Bool) : Found × State :=
  match s.findLeaf region ctx va with
  | .bad l c => (.bad l c, if s.contextLive region ctx then s.readEntries (s.entriesTo region ctx va l) else s)
  | .leaf e size addr =>
    let level := if size = 29 then 1 else 2
    let t := s.readEntries (s.entriesTo region ctx va level)
    match leafCause lv e code write tagged with
    | some cause => (.bad level cause, t)
    | none =>
      let e' := e ||| BitVec.ofNat 64 (2 ^ 16) ||| (if write then BitVec.ofNat 64 (2 ^ 17) else 0)
      (.leaf e' size addr, if e' = e then t else t.dramWrite 0 addr (leBytes 8 e'.toNat))

/-- The TLB entry of a leaf for an address (R62): a 512 MiB page whole, or as the 64 KiB part touched. -/
def Tlb.ofLeaf (ctx va size : Nat) (e : Word) : Tlb := { ctx, vpage := va / 2 ^ size, size, leaf := e, splice := leafSplice e != 0 }
def Tlb.part (t : Tlb) (va : Nat) : Tlb :=
  { t with size := 16, vpage := va / 65536,
           leaf := setFld t.leaf 63 32 (leafFrame t.leaf + (if t.size = 29 then va / 65536 % 2 ^ 13 else 0)) }

end Sys2Proof.Machine
end

