-- ==== Sys2Proof/Machine/Copying.lean ====
section
/-! DEFINITION. Copy instructions, store-tile instructions and SPLICE (12 R324 to R331, 03 R87, R97 to R99). -/
namespace Sys2Proof.Machine
open Sys2Proof

/-- The translations of the pages of some extents, obtained at issue (R64, R66). -/
inductive Pages where
  | ok (es : List Tlb)
  | miss (va : Nat)
  | stop (st : Stop)
  deriving DecidableEq, Repr

def State.scanPages (s : State) (q : Ask) (ps : List Nat) : Pages :=
  match ps with
  | [] => .ok []
  | va :: rest =>
    match s.look q va with
    | .miss => .miss va
    | .stop st => .stop st
    | .hit e => match s.scanPages q rest with
      | .ok es => .ok (if es.contains e then es else e :: es)
      | r => r
/-- The page addresses an extent touches. -/
def pageStarts (space a n : Nat) : List Nat := if space = 3 ∧ n ≠ 0 then (pieces a n 65536).map (·.1) else []

/-- The translations captured, in order of the operands; then the command. -/
def State.withPages (s : State) (length : Nat) (wants : List (Ask × List Nat)) (k : List Tlb → Body') : Except Stop State :=
  match wants with
  | [] => k [] s
  | (q, ps) :: rest =>
    match s.scanPages q ps with
    | .stop st => .error st
    | .miss va => .ok (s.askWalk length q va)
    | .ok es => (s.touchPages ps).withPages length rest (fun more => k (es ++ more))

/-- A command enters its channel (R97, R99, R151): it joins the open batch; an item stands for it until it is performed. -/
def State.pushCopy (s : State) (chan : Nat) (o : Order) (k : Copy) : State :=
  match s.core.act with
  | none => s
  | some a =>
    let id := s.nextId
    let s := (s.launchItem (.command s.core.psn a.serial)).leaveTokens o [id]
    s.mapCore (fun c => { c with
      copies := put c.copies chan { queue := (at_ c.copies chan { queue := [] }).queue ++ [{ k with id, serial := a.serial, ctx := a.ctx, deps := o.after }] }
      batch := c.batch ++ [id] })

def Copy.fresh (src dst : Side) (length unit : Nat) (fill : Bool) (pages : List Tlb) : Copy :=
  { id := 0, src, dst, length, unit, handle := none, fill, pages, deps := [], done := 0, started := false, stopped := false, serial := 0,
    ctx := 0 }

/-- A channel holds up to 8 commands; a ninth waits at issue (R97). -/
def State.chanRoom (s : State) (chan : Nat) : Except Stop Unit :=
  if 8 ≤ (at_ s.core.copies chan { queue := [] }).queue.length then .error .wait else .ok ()

/-- CPY between two memories (R325). A length of 0 moves nothing and completes at once. -/
def cpyBody (length chan dst src : Nat) (fill : Bool) (n : State → Nat) (o : State → Order) : Body' := fun s => do
  if 2 ^ 32 ≤ n s then throw (.illegal 6)
  let a ← s.checkCopy (askCopyRead src) (s.c src) 0 (n s)
  let b ← s.checkCopy (askCopyWrite dst) (s.c dst) 0 (n s)
  s.withPages length [(askCopyRead src, pageStarts (s.c src).space a (n s)), (askCopyWrite dst, pageStarts (s.c dst).space b (n s))]
    (fun es s => do
      if n s = 0 then return s.leaveTokens (o s) []
      s.chanRoom chan
      return s.pushCopy chan (o s) (Copy.fresh (.run (s.c src).space a) (.run (s.c dst).space b) (n s) 64 fill es))

/-- CPY into an output handle (R327): a length that is no multiple of the slot size raises ILLEGAL. -/
def cpyHandleBody (length chan h src : Nat) (fill : Bool) (n : State → Nat) (o : State → Order) : Body' := fun s => do
  s.handleOk h
  let slot := oSlotBytes (s.core.queue h)
  if 2 ^ 32 ≤ n s ∨ n s % slot ≠ 0 then throw (.illegal 6)
  let a ← s.checkCopy (askCopyRead src) (s.c src) 0 (n s)
  s.withPages length [(askCopyRead src, pageStarts (s.c src).space a (n s))] (fun es s => do
    if n s = 0 then return s.leaveTokens (o s) []
    s.chanRoom chan
    return s.pushCopy chan (o s) { Copy.fresh (.run (s.c src).space a) (.handle h) (n s) slot fill es with handle := some h })

/-! Generator descriptors (R87). -/

/-- The pattern a descriptor's three words name, its base address from the capability; none where a reserved bit is set. -/
def patternOf (base : Nat) (w0 w1 w2 : Nat) : Option Pattern :=
  let f (w k : Nat) : Nat := w / 2 ^ (16 * k) % 65536
  if w0 / 2 ^ 19 % 2 ^ 42 ≠ 0 ∨ w0 / 2 ^ 61 = 7 then none
  else some { base, elog := w0 / 2 ^ 61, first := w0 % 2 ^ 19, counts := [f w1 1 + 1, f w1 3 + 1, f w2 1 + 1, f w2 3 + 1],
              strides := [signed16 (f w1 0), signed16 (f w1 2), signed16 (f w2 0), signed16 (f w2 2)] }
def Pattern.elements (p : Pattern) : Nat := p.counts.foldl (· * ·) 1
def Pattern.offset (p : Pattern) (i : Nat) : Int := p.first + patternIndex p.counts p.strides i * 2 ^ p.elog
def Pattern.addr (p : Pattern) (i : Nat) : Nat := (p.base + p.offset i).toNat
/-- The lowest and highest offsets a pattern produces (R87). -/
def Pattern.reach (p : Pattern) : Int × Int :=
  let ends := (p.counts.zip p.strides).map (fun x => ((x.1 - 1 : Nat) : Int) * x.2)
  (p.first + (ends.filter (· < 0)).foldl (· + ·) 0 * 2 ^ p.elog, p.first + (ends.filter (0 < ·)).foldl (· + ·) 0 * 2 ^ p.elog)

/-- The checks of the patterned side (R87, R326): a STORE capability; every element in its bounds and aligned, the lowest-numbered
failing element reported. -/
def State.checkPattern (s : State) (q : Ask) (c : Cap) (p : Pattern) : Except Stop Unit := do
  if c.tag ∧ c.otype = 0 ∧ c.space ≠ 1 then throw (q.fault .capperm 0)
  let size := 2 ^ p.elog
  let bad (off : Int) : Option Stop :=
    if off < 0 then some (q.fault .capbound off)
    else match s.checkCap q c (p.base + off - c.base) size with
    | .error st => some st
    | .ok a => if a % size ≠ 0 then some (q.fault .align (p.base + off - c.base)) else none
  let ends := p.reach
  if (bad ends.1).isSome ∨ (bad ends.2).isSome then
    match (List.range p.elements).findSome? (fun i => bad (p.offset i)) with
    | some st => throw st
    | none => return ()

/-- CPY4 (R326): SUB bit 0 tells which side is patterned. -/
def cpy4Body (length chan dst src : Nat) (patDst : Bool) (desc : State → Nat) (o : State → Order) : Body' := fun s => do
  let key ← s.localList (desc s) 8 24
  let cp := s.c (if patDst then dst else src)
  let w (i : Nat) : Nat := ofLe (s.bytes (key + 8 * i) 8)
  match patternOf (cp.base / 2 ^ 19 * 2 ^ 19) (w 0) (w 1) (w 2) with
  | none => throw (.illegal 6)
  | some p =>
    let n := p.elements * 2 ^ p.elog
    if 2 ^ 32 ≤ n then throw (.illegal 6)
    let qr := askCopyRead src
    let qw := askCopyWrite dst
    if patDst then
      let a ← s.checkCopy qr (s.c src) 0 n
      s.checkPattern qw cp p
      s.withPages length [(qr, pageStarts (s.c src).space a n)] (fun es s => do
        s.chanRoom chan
        return (s.pushCopy chan (o s) (Copy.fresh (.run (s.c src).space a) (.pattern 1 p) n (2 ^ p.elog) false es)).noteRead key 24)
    else
      s.checkPattern qr cp p
      let b ← s.checkCopy qw (s.c dst) 0 n
      s.withPages length [(qw, pageStarts (s.c dst).space b n)] (fun es s => do
        s.chanRoom chan
        return (s.pushCopy chan (o s) (Copy.fresh (.pattern 1 p) (.run (s.c dst).space b) n (2 ^ p.elog) false es)).noteRead key 24)

/-- The elements of a gathered side checked in order (R326): the address of each. -/
def State.checkElements (s : State) (q : Ask) (c : Cap) (size : Nat) (offs : List Int) (wide : Bool) : Except Stop (List Nat) :=
  match offs with
  | [] => .ok []
  | off :: rest => do
    let a ← if wide then s.checkCopy q c off size else s.checkCap q c off size
    if wide ∧ a % size ≠ 0 then throw (q.fault .align off)
    let more ← s.checkElements q c size rest wide
    return a :: more

/-- CPYG (R326): n offsets of 4 bytes name the source elements. -/
def cpygBody (length chan dst src elog n : Nat) (list : State → Nat) (o : State → Order) : Body' := fun s => do
  let key ← s.localList (list s) 4 (4 * n)
  let offs := (List.range n).map (fun i => ((ofLe (s.bytes (key + 4 * i) 4) : Nat) : Int))
  let size := 2 ^ elog
  let qr := askCopyRead src
  let qw := askCopyWrite dst
  let addrs ← s.checkElements qr (s.c src) size offs true
  let b ← s.checkCopy qw (s.c dst) 0 (n * size)
  s.withPages length [(qr, addrs.flatMap (fun a => pageStarts (s.c src).space a size)), (qw, pageStarts (s.c dst).space b (n * size))]
    (fun es s => do
      s.chanRoom chan
      return (s.pushCopy chan (o s) (Copy.fresh (.listed (s.c src).space addrs) (.run (s.c dst).space b) (n * size) size false es)).noteRead
        key (4 * n))

/-! The moves of a command (R97, R325 to R327). -/

/-- Why an engine's access is not performed: it waits, or it fails. -/
inductive Fail where
  | held
  | fault (f : FaultInfo)
  deriving DecidableEq, Repr

/-- Whether a part waits for an earlier request of the core on its DRAM channel (R154). -/
def State.partWaits (s : State) (core : Psn) (p : Part) : Bool :=
  match p.owner with
  | .dram pa => s.channelBusy core pa
  | _ => false
/-- The segment mode at a STORE address. -/
def State.modeAt (s : State) (core : Psn) (space a : Nat) : Nat :=
  if space = 1 then
    match s.storeTile (s.getCore core) (a / 2 ^ 19) with
    | some t => segMode ((s.getTile t).seg (a / 65536 % 8))
    | none => 0
  else 0
/-- Where a side stands after so many bytes. -/
def Side.at_ (x : Side) (unit done : Nat) : Option (Nat × Nat) :=
  match x with
  | .run space base => some (space, base + done)
  | .pattern space p => some (space, p.addr (done / unit))
  | .listed space addrs => (addrs[done / unit]?).map (fun a => (space, a))
  | .handle _ => none
/-- Whether a contiguous side stands in a FIFO segment: the command moves one item there (R325). -/
def State.sideFifo (s : State) (core : Psn) (x : Side) (done : Nat) : Bool :=
  match x with
  | .run space base => s.modeAt core space (base + done) == 2
  | _ => false
/-- How many bytes a command reads next: a 64-byte block or an element, or the item of a FIFO. -/
def State.readSize (s : State) (core : Psn) (k : Copy) : Nat :=
  let at0 := k.done + k.held.length
  if s.sideFifo core k.src at0 then k.length - at0 else min (if k.handle.isSome then 64 else k.unit) (k.length - at0)
/-- How many bytes a command writes next: a 64-byte block, an element or a slot, or the item of a FIFO. -/
def State.writeSize (s : State) (core : Psn) (k : Copy) : Nat :=
  if s.sideFifo core k.dst k.done then k.length - k.done else min k.unit (k.length - k.done)
/-- A refusal where the map names no tile any more. -/
def lostFault (a : Nat) : Fail := .fault { code := .capbound, detail := capDetail 6 0xFF a }
/-- The parts of an extent under translations that were obtained before: a device block that leaves its 64 bytes raises ALIGN (R156). -/
def State.partsBy (s : State) (core : Psn) (pages : List Tlb) (ctx : Nat) (q : Ask) (space a n : Nat) : Except Fail (List Part) :=
  let look (va : Nat) : Look := match pages.find? (·.covers ctx va) with
    | some e => .hit e
    | none => .miss
  match (if space = 3 then s.globalBy (levelOf core) look q (pieces a n 65536) else (s.focus core).resolve q space a n) with
  | .parts ps => if (ps.map (·.size)).foldl (· + ·) 0 = n then .ok ps else .error (lostFault a)
  | .miss _ => .error (lostFault a)
  | .stop st => .error (.fault (st.info []))
/-- The parts of a command's next read or write. -/
def State.copyParts (s : State) (core : Psn) (k : Copy) (write : Bool) (n : Nat) : Except Fail (List Part) :=
  match (if write then k.dst.at_ k.unit k.done else k.src.at_ k.unit (k.done + k.held.length)) with
  | some p => s.partsBy core k.pages k.ctx (if write then askCopyWrite 0xFF else askCopyRead 0xFF) p.1 p.2 n
  | none => .ok []
/-- The single part that lies in a FIFO segment. -/
def State.atFifo (s : State) (ps : List Part) : Option Part :=
  match ps with
  | [p] => match p.owner with
    | .tile t off => if segMode ((s.getTile t).seg (off / 65536)) = 2 then some p else none
    | _ => none
  | _ => none
/-- Whether a command stands inside a 64-byte block of small elements whose next one can be moved (R100). -/
def State.midBlock (s : State) (core : Psn) (k : Copy) : Bool :=
  let ready (ps : Except Fail (List Part)) : Bool := match ps with
    | .ok l => (s.atFifo l).isNone && l.all (fun p => !s.partWaits core p)
    | .error _ => true
  k.handle.isNone && !k.noted && k.done % 64 != 0 && k.held.isEmpty && ready (s.copyParts core k false (s.readSize core k)) &&
    ready (s.copyParts core k true (s.writeSize core k))

/-! Store tiles (R329, R330). -/

/-- A STORE capability is asked for; another space raises CAPPERM. -/
def State.checkStore (s : State) (q : Ask) (c : Cap) (off : Int) (n : Nat) : Except Stop Nat :=
  if c.tag ∧ c.otype = 0 ∧ c.space ≠ 1 ∧ !(c.space = 5 ∧ s.level = .graph) then .error (q.fault .capperm off) else s.checkCap q c off n

/-- The bits of a SEG_CFG value that STCFG may set (R329): MODE, UNIT_M1, COUNT_M1. -/
def stcfgMask : Word := BitVec.ofNat 64 (3 * 2 ^ 62 + 1023 * 2 ^ 43 + 63 * 2 ^ 37)

def stcfgBody (cap : Nat) (off : State → Int) (v : State → Word) : Body' := fun s => do
  let q := { Ask.store cap with answers := false }
  if v s &&& ~~~ stcfgMask ≠ 0 then throw (.illegal 6)
  let a ← s.checkStore q (s.c cap) (off s) 1
  if a % 65536 ≠ 0 then throw (q.fault .align (off s))
  let _ ← s.checkStore q (s.c cap) (off s) 65536
  match s.core.act, s.storeTile s.core (a / 2 ^ 19) with
  | some act, some t =>
    if !s.hasRoom act Order.none [] then throw .wait
    return s.tileAccess act (a / 2 ^ 19) t (a % 2 ^ 19) opStcfg (a / 65536 % 8) (leBytes 8 (v s).toNat) .none Order.none
  | _, _ => return s

/-- The GONE of an instruction that acts at a store tile at its issue (R73). -/
def State.goneAt (s : State) (a : Act) (addr : Nat) (t : Psn) : Stop :=
  let p : Part := { owner := .tile t (addr % 2 ^ 19), space := 1, addr, phys := addr, place := 0, size := 1, pkind := 1, key := 0, tags := false
                    spliced := false }
  .fault (p.access s a .load []).goneFault
/-- Whether an STCFG of the running activation to a tile is not complete (R329). -/
def State.stcfgOpen (s : State) (a : Act) (t : Psn) : Bool :=
  (s.accessesOf s.core.psn).any (fun x => x.2.serial == a.serial && x.2.op == opStcfg && (match x.2.owner with
    | .tile p _ => p == t
    | _ => false))
/-- SBUFW: it waits for an STCFG of the tile, then for the bit (R329, R330); a withdrawn tile answers GONE (R73). -/
def sbufwBody (cap : Nat) (off : State → Int) (v : Bool) : Body' := fun s => do
  let q := { Ask.load cap with answers := false }
  let a ← s.checkStore q (s.c cap) (off s) 1
  match s.core.act, s.storeTile s.core (a / 2 ^ 19) with
  | some act, some t =>
    let tile := s.getTile t
    let seg := a / 65536 % 8
    if s.stcfgOpen act t then throw .wait
    if tile.withdrawn then throw (s.goneAt act a t)
    match bufferRefusal (tile.seg seg) a with
    | some code => throw (q.fault code (off s))
    | none => if (at_ tile.full seg 0).getLsbD (bufferOf (tile.seg seg) a) = v then return s else throw .wait
  | _, _ => return s

def sbufsetBody (cap : Nat) (off : State → Int) (v : Bool) : Body' := fun s => do
  let q := { Ask.store cap with answers := false }
  let a ← s.checkStore q (s.c cap) (off s) 1
  match s.core.act, s.storeTile s.core (a / 2 ^ 19) with
  | some act, some t =>
    if !s.hasRoom act Order.none [] then throw .wait
    return s.tileAccess act (a / 2 ^ 19) t (a % 2 ^ 19) opSbufset v.toNat [] .none Order.none
  | _, _ => return s

/-! SPLICE (R331, R69). -/

/-- The outcome of SPLICE on a region: a refusal reason, or the entry it takes. -/
def State.spliceStart (s : State) (region : Nat) (va new ctx : Nat) : Word × State :=
  let r := s.getRegion region
  let refuse (n : Nat) : Word := BitVec.ofNat 64 (2 ^ 63 + n * 2 ^ 56)
  match (List.range 16).find? (fun i => !bit (at_ r.splices i 0) 127) with
  | none => (refuse 1, s)
  | some i =>
    match s.findLeaf region ctx va with
    | .bad _ _ => (refuse 2, s)
    | .leaf e size _ =>
      if leafSplice e ≠ 1 then (refuse 2, s)
      else if size = 29 then (refuse 3, s)
      else if new / 2 ^ 30 ≠ 0 ∨ 2 ^ 41 ≤ new * 65536 ∨ new = leafFrame e then (refuse 4, s)
      else if bit r.invalStat 0 then (refuse 5, s)
      else
        let entry := BitVec.ofNat 128 ((2 ^ 63 + 1 * 2 ^ 61 + ctx * 2 ^ 56) * 2 ^ 64 + leafFrame e * 2 ^ 32 + new)
        (BitVec.ofNat 64 i, s.putRegion { r with splices := put r.splices i entry, spliceVa := upsert r.spliceVa (·.1 == i) (i, va) })

/-- SPLICE runs only on a Lantern service core; elsewhere it raises ILLEGAL. -/
def spliceBody (d ctx : Nat) (a b : State → Word) : Body' := fun s =>
  let p := s.core.psn
  if !(psnClass p = 2 ∧ p / 512 % 16 = 1) then .error (.illegal 6)
  else if fld (a s) 63 48 ≠ 0 ∨ fld (a s) 15 0 ≠ 0 ∨ fld (b s) 63 32 ≠ 0 then .error (.illegal 6)
  else
    let r := s.spliceStart (psnRegion p) (a s).toNat (b s).toNat ctx
    .ok (r.2.setG d r.1)

end Sys2Proof.Machine

namespace Sys2Proof.Long
open Sys2Proof.Machine

/-- The length of CPY (R324): a register, or the literal; and FILL. -/
def copyLength (x : Long) (s : State) : Nat := if x.wide then x.lit.toNat else (s.g x.c.toNat).toNat
def copyFill (x : Long) : Bool := if x.wide then x.mod8.getLsbD 0 else x.hi.getLsbD 0
def indexB (x : Long) (s : State) : Int := s.offset x.b.toNat 0

end Sys2Proof.Long

namespace Sys2Proof.Machine
open Sys2Proof

def execCpy (x : Long) (s : State) : Out := issueM Shape.cpy x
  (cpyBody x.bytes x.d.toNat x.a.toNat x.b.toNat x.copyFill x.copyLength x.order) s
def execCpyHandle (x : Long) (s : State) : Out := issueM Shape.cpyHandle x
  (cpyHandleBody x.bytes x.d.toNat x.a.toNat x.b.toNat x.copyFill x.copyLength x.order) s
def execCpy4 (x : Long) (s : State) : Out := issueM Shape.cpy4 x
  (cpy4Body x.bytes x.d.toNat x.a.toNat x.b.toNat (x.sub.getLsbD 0) (fun s => (s.g x.c.toNat).toNat) x.order) s
def execCpyg (x : Long) (s : State) : Out := issueM Shape.cpyg x
  (cpygBody x.bytes x.d.toNat x.a.toNat x.b.toNat (x.hi.toNat % 8) (x.hi.toNat / 8 + 1) (fun s => (s.g x.c.toNat).toNat) x.order) s
def execStcfg (x : Long) (s : State) : Out := issueL Shape.stcfg x (stcfgBody x.a.toNat x.indexB (·.g x.c.toNat)) s
def execSbufw (x : Long) (s : State) : Out := issueL Shape.sbufw x (sbufwBody x.a.toNat x.indexB (x.hi.getLsbD 0)) s
def execSbufset (x : Long) (s : State) : Out := issueL Shape.sbufset x (sbufsetBody x.a.toNat x.indexB (x.hi.getLsbD 0)) s
def execSplice (x : Long) (s : State) : Out := issueP Shape.splice x
  (spliceBody x.d.toNat (x.hi.toNat % 32) (·.g x.a.toNat) (·.g x.b.toNat)) s

end Sys2Proof.Machine
end

