-- ==== Sys2Proof/Machine/Blocks.lean ====
section
/-! DEFINITION. SX groups, Q4G weights and described blocks (05 R131 to R137), and the conversions into them (10 R258, R259). -/
namespace Sys2Proof.Machine
open Sys2Proof

/-- M of an SX type, and the bytes of its group (R131). -/
def sxM (t : TyCode) : Nat := if t = 12 then 2 else if t = 13 then 4 else 7
def sxBytes (t : TyCode) : Nat := if t = 12 then 8 else if t = 13 then 12 else 18

/-- The value of one element of a group whose fields are the number `g` (R132): `shift` is the block scale S. -/
def sxValue (t : TyCode) (shift : Int) (g i : Nat) : Fp :=
  let m := sxM t
  let e : Int := (g % 256 : Nat) + shift
  if g % 256 = 255 ∨ e < 0 ∨ 254 < e then .nan
  else
    let f := g / 2 ^ (16 + i * (m + 1))
    let mag := f % 2 ^ m
    .fin (f / 2 ^ m % 2 = 1 ∧ mag ≠ 0) mag (e - 127 - (g / 2 ^ (8 + i / 2) % 2 : Nat) - (m - 1 : Nat))

/-- A value over 2^k rounded to an integer (R258). -/
def roundQ (rm : BitVec 2) (v : Fp) (k : Int) : Int :=
  match v with
  | .fin s m e => roundInt rm s m (e - k)
  | _ => 0
def isInf (v : Fp) : Bool :=
  match v with
  | .inf _ => true
  | _ => false
def isZero (v : Fp) : Bool :=
  match v with
  | .fin _ 0 _ => true
  | _ => false
def isNeg (v : Fp) : Bool :=
  match v with
  | .inf s => s
  | .fin s _ _ => s
  | .nan => false

/-- ToSX (R258): the fields of a group as one number. -/
def toSx (t : TyCode) (rm : BitVec 2) (sat : Bool) (xs : List Fp) : Nat :=
  let m := sxM t
  let top : Int := 2 ^ m - 1
  let q (v : Fp) (e mu : Nat) : Int := roundQ rm v ((e : Int) - 127 - mu - (m - 1 : Nat))
  let fits (v : Fp) (e mu : Nat) : Bool := isInf v || decide ((q v e mu).natAbs ≤ top.natAbs)
  if xs.any isNaN ∨ (xs.any isInf ∧ !sat) then 255
  else
    let found := (List.range 255).find? (fun e => xs.all (fun v => fits v e 0))
    if found = none ∧ !sat then 255
    else
      let e := found.getD 254
      let x (i : Nat) : Fp := xs.getD i (.fin false 0 0)
      let mu (j : Nat) : Nat :=
        if !(isZero (x (2 * j)) && isZero (x (2 * j + 1))) && fits (x (2 * j)) e 1 && fits (x (2 * j + 1)) e 1 then 1 else 0
      let elem (i : Nat) : Nat :=
        let v := x i
        let r : Int := if isInf v then (if isNeg v then -top else top) else clamp (-top) top (q v e (mu (i / 2)))
        (if r < 0 then 2 ^ m else 0) + r.natAbs
      (List.range 16).foldl (fun acc i => acc + elem i * 2 ^ (16 + i * (m + 1)))
        ((List.range 8).foldl (fun acc j => acc + mu j * 2 ^ (8 + j)) e)

/-- The quotient of two magnitudes rounded to an integer (R259). -/
def divInteger (rm : BitVec 2) (neg : Bool) (m₁ : Nat) (e₁ : Int) (m₂ : Nat) (e₂ : Int) : Int :=
  let num := if e₂ ≤ e₁ then m₁ * 2 ^ (e₁ - e₂).toNat else m₁
  let den := if e₂ ≤ e₁ then m₂ else m₂ * 2 ^ (e₂ - e₁).toNat
  let half : Int := if 2 * (num % den) < den then -1 else if 2 * (num % den) = den then 0 else 1
  let q := if roundsUp rm neg (num / den) half (num % den = 0) then num / den + 1 else num / den
  if neg then -(q : Int) else q

/-- ToQ4G (R259). -/
def toQ4g (rm : BitVec 2) (scale z : Nat) (x : Fp) : Nat :=
  match x, fpOf 9 scale with
  | .nan, _ => z
  | .inf s, .fin u m _ => if m = 0 then z else if s = u then 15 else 0
  | .fin s a e, .fin u m f => if m = 0 then z else (clamp 0 15 (divInteger rm (s != u) a e m f + z)).toNat
  | _, _ => z

/-- Q4gValue (R134); an exact zero is +0. -/
def q4gValue (q z scale : Nat) : Fp :=
  match fpMul (fpOfInt ((q : Int) - z)) (fpOf 9 scale) with
  | .fin _ 0 e => .fin false 0 e
  | v => v

/-! Described blocks (R135 to R137), as numbers of 512 bits. -/

def blockByte (b i : Nat) : Nat := b / 256 ^ i % 256
def blockCode (b : Nat) : Nat := blockByte b 0
/-- The SX type of a code. -/
def codeType (code : Nat) : TyCode := if code = 0x10 then 12 else if code = 0x11 then 13 else if code = 0x12 then 14 else 15
def codeListed (code : Nat) : Bool := code == 0 || code == 0x10 || code == 0x11 || code == 0x12 || code == 0x21
/-- The element count of a code (R136). -/
def codeCount (code : Nat) : Nat := if code = 0x10 ∨ code = 0x21 then 112 else if code = 0x11 then 80 else if code = 0x12 then 48 else 0
/-- Whether the bytes and nibble that R136 requires to be zero are. -/
def blockZeros (b : Nat) : Bool :=
  match blockCode b with
  | 0x10 => b / 256 ^ 58 == 0
  | 0x11 => b / 256 ^ 62 == 0
  | 0x12 => b / 256 ^ 56 == 0
  | 0x21 => b / 256 ^ 60 == 0 && blockByte b 3 / 16 == 0
  | _ => true
/-- Element e of a block (R136, R137). -/
def blockValue (b e : Nat) : Fp :=
  let code := blockCode b
  if code = 0x21 then
    q4gValue (blockByte b (4 + e / 2) / 16 ^ (e % 2) % 16) (blockByte b 3 % 16) (blockByte b 1 + 256 * blockByte b 2)
  else
    let t := codeType code
    let size := sxBytes t
    if blockByte b 1 = 0x80 then .nan
    else sxValue t (signedOf 8 (blockByte b 1)) (b / 256 ^ (2 + size * (e / 16)) % 256 ^ size) (e % 16)

end Sys2Proof.Machine
end

