-- ==== Sys2Proof/Machine/Vector.lean ====
section
/-! DEFINITION. Lane-wise vector instructions (13 R337 to R339, R349 to R356, R360 to R363): loads and stores, moves, arithmetic, comparisons,
reductions. -/
namespace Sys2Proof.Machine
open Sys2Proof

/-- Parts of several accesses in order, every one translated before any is performed (R52): address, place in the register, size. -/
def State.resolveAll (s : State) (q : Ask) (space : Nat) (as : List (Nat × Nat × Nat)) : Resolve :=
  match as with
  | [] => .parts []
  | (a, place, n) :: rest =>
    match s.resolve q space a n with
    | .parts ps => match s.resolveAll q space rest with
      | .parts qs => .parts (ps.map (fun p => { p with place := place + p.place }) ++ qs)
      | r => r
    | r => r

/-- Elements checked in order, each aligned to its size (R349, R350): the address of each. -/
def State.checkAligned (s : State) (q : Ask) (c : Cap) (size : Nat) (offs : List Int) : Except Stop (List Nat) :=
  match offs with
  | [] => .ok []
  | off :: rest => do
    let a ← s.checkBase q c off size
    if a % size ≠ 0 then throw (q.fault .align off)
    let _ ← s.checkCap q c off size
    let more ← s.checkAligned q c size rest
    return a :: more

end Sys2Proof.Machine

namespace Sys2Proof.Long
open Sys2Proof.Machine

/-! The vector layout (R338). -/

def width (x : Long) : Nat := elemBits x.ty
/-- Whether PM governs lane k (R337). -/
def governs (x : Long) (s : State) (k : Nat) : Bool := s.predLane x.ty x.pm k
/-- The third operand vb: a register, or the literal in every lane (R338). -/
def vb (x : Long) (s : State) (k : Nat) : Nat := if x.wide then literal x.ty x.lit else laneOf x.width (s.vin x.b.toNat) k
def va (x : Long) (s : State) (k : Nat) : Nat := laneOf x.width (s.vin x.a.toNat) k
def vc (x : Long) (s : State) (k : Nat) : Nat := laneOf x.width (s.vin x.c.toNat) k
/-- Sources of the type's own element size. -/
def srcA1 (x : Long) : List (Nat × Option Nat) := [(x.a.toNat, some x.width)]
def srcAB (x : Long) : List (Nat × Option Nat) := if x.wide then x.srcA1 else x.srcA1 ++ [(x.b.toNat, some x.width)]
def srcABC (x : Long) : List (Nat × Option Nat) := x.srcAB ++ [(x.c.toNat, some x.width)]
/-- The governing predicates are waited for (R147). -/
def pmReady (x : Long) (s : State) : Except Stop Unit := do
  s.ready (.p x.pm)
  if x.width = 8 then s.ready (.p (x.pm + 1))

/-- VecOp (R339): the sources popped, each governed lane computed, the others zero or as they were, the result written or pushed. -/
def lanewise (x : Long) (srcs : List (Nat × Option Nat)) (f : State → Nat → Nat) : Body' := fun s => do
  x.pmReady s
  let s ← s.popAll srcs
  let old := s.vold x.d.toNat
  let r := packLanes x.width (lanes x.ty) (fun k =>
    if x.governs s k then f s k else if x.zero then 0 else laneOf x.width old k)
  s.vout x.d.toNat (some x.width) (BitVec.ofNat 512 r) (laneMask (lanes x.ty) (x.governs s))

/-- One, two and three vector sources. -/
def vec1 (x : Long) (f : TyCode → BitVec 2 → Bool → Nat → Nat) : Body' :=
  x.lanewise x.srcA1 (fun s k => f x.ty x.rm x.sat (x.va s k))
def vec2 (x : Long) (f : TyCode → BitVec 2 → Bool → Nat → Nat → Nat) : Body' :=
  x.lanewise x.srcAB (fun s k => f x.ty x.rm x.sat (x.va s k) (x.vb s k))
def vec3 (x : Long) (f : TyCode → BitVec 2 → Bool → Nat → Nat → Nat → Nat) : Body' :=
  x.lanewise x.srcABC (fun s k => f x.ty x.rm x.sat (x.va s k) (x.vb s k) (x.vc s k))

/-- The values of the governed lanes below k in ascending order. -/
def governed (x : Long) (s : State) (v : Nat → Nat) (k : Nat) : List Nat := ((List.range k).filter (x.governs s)).map v

end Sys2Proof.Long

namespace Sys2Proof.Machine
open Sys2Proof

/-! VLD and VST (R349). -/

/-- The value of a RESUME fills the registers of a run, zero beyond its bytes (R67). -/
def State.fillRun (s : State) (d n : Nat) (v : List Byte) : State :=
  (List.range n).foldl (fun s j => s.setV (d + j) (BitVec.ofNat 512 (ofLe (slice v (64 * j) 64)))) s

/-- A run of two or more registers names no bound stream; each of them is written before it is named (R147). -/
def State.runOk (s : State) (d n : Nat) : Except Stop Unit :=
  if 1 < n ∧ (List.range n).any (fun j => (s.bound (d + j)).isSome) then .error (.illegal 6)
  else if (List.range n).any (fun j => s.core.isPending (.v (d + j))) then .error .wait else .ok ()

/-- CONSUME at issue: CAPPERM outside STORE; a wait until the full bit of the buffer that holds the address is set. A segment in another
mode, or an address beyond its buffers, goes on to the tile, which refuses. -/
def State.consumeReady (s : State) (q : Ask) (c : Cap) (off : Int) (a : Nat) : Except Stop Unit :=
  if c.space ≠ 1 then .error (q.fault .capperm off)
  else match s.storeTile s.core (a / 2 ^ 19) with
  | none => .ok ()
  | some t =>
    let seg := a / 65536 % 8
    let cfg := (s.getTile t).seg seg
    if segMode cfg = 1 ∧ bufferOf cfg a < segCount cfg ∧ !(at_ (s.getTile t).full seg 0).getLsbD (bufferOf cfg a) then .error .wait else .ok ()

/-- Every register is one 64-byte access: an access per register, each cut to parts of at most 64 bytes. -/
def runOffsets (off : Int) (n : Nat) : List Int := (List.range n).map (fun j => off + 64 * (j : Nat))
def runPlaces (as : List Nat) : List (Nat × Nat × Nat) := as.zipIdx.map (fun x => (x.1, 64 * x.2, 64))

def vldBody (length d n cap : Nat) (consume : Bool) (off : State → Int) (o : State → Order) : Body' := fun s => do
  s.runOk d n
  match s.answered with
  | some v => return (s.consume (o s)).fillRun d n v
  | none =>
    if n = 1 then unlessWait (s.vland d none 0 64 0)
    let q := Ask.load cap
    let c := s.c cap
    if consume ∧ c.tag ∧ c.otype = 0 ∧ c.space ≠ 1 ∧ !(c.space = 5 ∧ s.level = .graph) then throw (q.fault .capperm (off s))
    let as ← s.checkAligned q c 64 (runOffsets (off s) n)
    match s.resolveAll q c.space (runPlaces as) with
    | .stop st => throw st
    | .miss va => return s.askWalk length q va
    | .parts ps =>
      if consume then s.consumeReady q c (off s) (as.getD 0 0)
      let e : Errand := { kind := .load, data := [], tagv := false, aop := if consume then consumeMark else 0, operand2 := [], landing := .none }
      if n = 1 then
        let (l, t) ← (s.touch ps).vland d none 0 64 (BitVec.allOnes 64)
        t.send (o s) (ps.map (fun p => (p, { e with landing := l })))
      else
        (List.range n |>.foldl (fun t j => t.setV (d + j) 0) (s.touch ps)).send (o s) (ps.map (fun p =>
          ({ p with place := p.place % 64 }, { e with landing := .vec (d + p.place / 64) 0 })))

def vstBody (length d n cap : Nat) (off : State → Int) (o : State → Order) : Body' := fun s => do
  s.runOk d n
  match s.answered with
  | some _ => return s.consume (o s)
  | none =>
    unlessWait (s.popAll [(d, none)])
    let q := Ask.store cap
    let as ← s.checkAligned q (s.c cap) 64 (runOffsets (off s) n)
    match s.resolveAll q (s.c cap).space (runPlaces as) with
    | .stop st => throw st
    | .miss va => return s.askWalk length q va
    | .parts ps =>
      let t ← (s.touch ps).popAll [(d, none)]
      let data := (List.range n).flatMap (fun j => leBytes 64 (t.vin (d + j)).toNat)
      t.send (o s) (ps.map (fun p =>
        (p, { kind := .store, data, tagv := false, aop := 0, operand2 := [], landing := .none })))

def execVld (x : Long) (s : State) : Out := issueM Shape.vld x
  (vldBody x.bytes x.d.toNat x.runLength x.a.toNat (x.c.getLsbD 5) x.memOff x.order) s
/-- L32B: the displacement is IMM12 × 64 (R226). -/
def execVldL32B (x : ShortB) (s : State) : Out := issueB Shape.vldL32B x
  (vldBody 4 x.d.toNat 1 x.a.toNat false (fun s => s.offset 0 (x.imm.toInt * 64)) (fun _ => Order.none)) s
def execVst (x : Long) (s : State) : Out := issueM Shape.vst x (vstBody x.bytes x.d.toNat x.runLength x.a.toNat x.memOff x.order) s
def execVstL32B (x : ShortB) (s : State) : Out := issueB Shape.vstL32B x
  (vstBody 4 x.d.toNat 1 x.a.toNat (fun s => s.offset 0 (x.imm.toInt * 64)) (fun _ => Order.none)) s

/-! VLDG and VSTS (R350). -/

def askGather (reg : Nat) : Ask := { Ask.load reg with code := 9 }
def askScatter (reg : Nat) : Ask := { Ask.store reg with code := 9 }

/-- The lanes that make an access: governed ones below G. -/
def gatherLanes (x : Long) (s : State) : List Nat := (List.range (min 16 (lanes x.ty))).filter (x.governs s)
def gatherOffset (x : Long) (s : State) (k : Nat) : Int := signedOf 32 (laneOf 32 (s.vin x.b.toNat) k)

def vldgBody (x : Long) : Body' := fun s => do
  x.pmReady s
  let d := x.d.toNat
  match s.answered with
  | some v => (s.consume (x.order s)).vout d (some x.width) (BitVec.ofNat 512 (ofLe (slice v 0 64))) (BitVec.allOnes 64)
  | none =>
    let before := s
    let s ← s.popAll [(x.b.toNat, some 32)]
    unlessWait (s.vland d (some x.width) 0 64 0)
    let q := askGather x.a.toNat
    let ks := gatherLanes x s
    let size := x.width / 8
    let as ← s.checkAligned q (s.c x.a.toNat) size (ks.map (gatherOffset x s))
    match s.resolveAll q (s.c x.a.toNat).space ((as.zip ks).map (fun e => (e.1, size * e.2, size))) with
    | .stop st => throw st
    | .miss va => return before.askWalk x.bytes q va
    | .parts ps =>
      let old := s.vold d
      let base := packLanes x.width (lanes x.ty) (fun k => if ks.contains k || x.zero then 0 else laneOf x.width old k)
      let (l, t) ← (s.touch ps).vland d (some x.width) (BitVec.ofNat 512 base) (size * ks.length) (laneMask 64 ks.contains)
      t.send (x.order s) (ps.map (fun p =>
        (p, { kind := .load, data := [], tagv := false, aop := 0, operand2 := [], landing := l })))

/-- VSTS: of lanes that overlap, the highest alone is sent. -/
def vstsBody (x : Long) : Body' := fun s => do
  x.pmReady s
  match s.answered with
  | some _ => return s.consume (x.order s)
  | none =>
    let before := s
    let s ← s.popAll [(x.b.toNat, some 32), (x.d.toNat, some x.width)]
    let q := askScatter x.a.toNat
    let ks := gatherLanes x s
    let size := x.width / 8
    let as ← s.checkAligned q (s.c x.a.toNat) size (ks.map (gatherOffset x s))
    match s.resolveAll q (s.c x.a.toNat).space ((as.zip ks).map (fun e => (e.1, size * e.2, size))) with
    | .stop st => throw st
    | .miss va => return before.askWalk x.bytes q va
    | .parts ps =>
      let kept := ps.filter (fun p => ps.all (fun r => r.addr != p.addr || decide (r.place ≤ p.place)))
      (s.touch ps).send (x.order s) (kept.map (fun p =>
        (p, { kind := .store, data := leBytes 64 (s.vin x.d.toNat).toNat, tagv := false, aop := 0, operand2 := [], landing := .none })))

def execVldg (x : Long) (s : State) : Out := issueM Shape.vldg x (vldgBody x) s
def execVsts (x : Long) (s : State) : Out := issueM Shape.vsts x (vstsBody x) s

/-! Moves and permutes (R351, R352). -/

def vbcastBody (x : Long) : Body' := fun s =>
  let v := if x.wide then literal x.ty x.lit else (s.g x.a.toNat).toNat
  x.lanewise [] (fun _ _ => v) s

/-- VMOVM into a general register: lane i extended (R264). -/
def vmovmExtractBody (x : Long) : Body' := fun s => do
  let s ← s.popAll x.srcA1
  return s.setG x.d.toNat (extend x.ty (x.va s x.c.toNat))
/-- VMOVM into lane i: the other lanes unchanged. -/
def vmovmInsertBody (x : Long) : Body' := fun s =>
  let old := s.vold x.d.toNat
  let r := packLanes x.width (lanes x.ty) (fun k => if k = x.c.toNat then (s.g x.a.toNat).toNat else laneOf x.width old k)
  s.vout x.d.toNat (some x.width) (BitVec.ofNat 512 r) (BitVec.allOnes 64)

def execVbcast (x : Long) (s : State) : Out := issueL Shape.vbcast x (vbcastBody x) s
def execVmov (x : Long) (s : State) : Out := issueL Shape.vmov x (x.lanewise x.srcA1 x.va) s
def execVmovmExtract (x : Long) (s : State) : Out := issueL Shape.vmovmExtract x (vmovmExtractBody x) s
def execVmovmInsert (x : Long) (s : State) : Out := issueL Shape.vmovmInsert x (vmovmInsertBody x) s
def execVperm (x : Long) (s : State) : Out := issueL Shape.vperm x (x.lanewise x.srcAB (fun s k => x.va s (x.vb s k % lanes x.ty))) s
def execVslide (x : Long) (s : State) : Out := issueL Shape.vslide x (x.lanewise x.srcAB (fun s k =>
  if k + x.c.toNat < lanes x.ty then x.va s (k + x.c.toNat) else x.vb s (k + x.c.toNat - lanes x.ty))) s

/-! Arithmetic, bitwise and shift instructions (R353, R355). -/

def vfmaOf (t : TyCode) (rm : BitVec 2) (sat : Bool) (a b c : Nat) : Nat := elemFma t rm sat false a b c
def vminOf (t : TyCode) (_ : BitVec 2) (_ : Bool) (a b : Nat) : Nat := elemMin t false a b
def vmaxOf (t : TyCode) (_ : BitVec 2) (_ : Bool) (a b : Nat) : Nat := elemMin t true a b
def vabsOf (t : TyCode) (_ : BitVec 2) (sat : Bool) (a : Nat) : Nat := elemAbs t sat a
def vnegOf (t : TyCode) (_ : BitVec 2) (sat : Bool) (a : Nat) : Nat := elemNeg t sat a
def vdivOf (t : TyCode) (rm : BitVec 2) (_ : Bool) (a b : Nat) : Nat := elemDiv t rm a b
def vsqrtOf (t : TyCode) (rm : BitVec 2) (_ : Bool) (a : Nat) : Nat := elemSqrt t rm a
def vandOf (_ : TyCode) (_ : BitVec 2) (_ : Bool) (a b : Nat) : Nat := a &&& b
def vorOf (_ : TyCode) (_ : BitVec 2) (_ : Bool) (a b : Nat) : Nat := a ||| b
def vxorOf (_ : TyCode) (_ : BitVec 2) (_ : Bool) (a b : Nat) : Nat := a ^^^ b
def vshlOf (t : TyCode) (_ : BitVec 2) (sat : Bool) (a b : Nat) : Nat := elemShl t sat a b
def vshrOf (t : TyCode) (_ : BitVec 2) (_ : Bool) (a b : Nat) : Nat := elemShr t a b
def vshaOf (t : TyCode) (_ : BitVec 2) (_ : Bool) (a b : Nat) : Nat := elemSha t a b

def execVadd (x : Long) (s : State) : Out := issueL Shape.vadd x (x.vec2 elemAdd) s
def execVsub (x : Long) (s : State) : Out := issueL Shape.vsub x (x.vec2 elemSub) s
def execVmul (x : Long) (s : State) : Out := issueL Shape.vmul x (x.vec2 elemMul) s
def execVfma (x : Long) (s : State) : Out := issueL Shape.vfma x (x.vec3 vfmaOf) s
def execVmin (x : Long) (s : State) : Out := issueL Shape.vmin x (x.vec2 vminOf) s
def execVmax (x : Long) (s : State) : Out := issueL Shape.vmax x (x.vec2 vmaxOf) s
def execVabs (x : Long) (s : State) : Out := issueL Shape.vabs x (x.vec1 vabsOf) s
def execVneg (x : Long) (s : State) : Out := issueL Shape.vneg x (x.vec1 vnegOf) s
def execVdiv (x : Long) (s : State) : Out := issueL Shape.vdiv x (x.vec2 vdivOf) s
def execVsqrt (x : Long) (s : State) : Out := issueL Shape.vsqrt x (x.vec1 vsqrtOf) s
def execVand (x : Long) (s : State) : Out := issueL Shape.vand x (x.vec2 vandOf) s
def execVor (x : Long) (s : State) : Out := issueL Shape.vor x (x.vec2 vorOf) s
def execVxor (x : Long) (s : State) : Out := issueL Shape.vxor x (x.vec2 vxorOf) s
def execVshl (x : Long) (s : State) : Out := issueL Shape.vshl x (x.vec2 vshlOf) s
def execVshr (x : Long) (s : State) : Out := issueL Shape.vshr x (x.vec2 vshrOf) s
def execVsha (x : Long) (s : State) : Out := issueL Shape.vsha x (x.vec2 vshaOf) s

/-! Compare and select (R356). -/

/-- VCMP: lanes at or above L read 0; a number 0 discards the result. -/
def vcmpBody (x : Long) : Body' := fun s => do
  x.pmReady s
  let d := x.d.toNat % 8
  if x.width = 8 then s.ready (.p (d + 1))
  let s ← s.popAll x.srcAB
  let old (k : Nat) : Bool := if d = 0 then false else s.predLane x.ty d k
  return s.setPredLanes x.ty d (fun k =>
    if x.governs s k then elemCmp x.ty (x.d.toNat / 8) (x.va s k) (x.vb s k) else if x.zero then false else old k)

def vselBody (x : Long) : Body' := fun s => do
  if x.width = 8 then s.ready (.p (x.c.toNat + 1))
  x.lanewise x.srcAB (fun s k => if s.predLane x.ty x.c.toNat k then x.va s k else x.vb s k) s

def execVcmp (x : Long) (s : State) : Out := issueL Shape.vcmp x (vcmpBody x) s
def execVsel (x : Long) (s : State) : Out := issueL Shape.vsel x (vselBody x) s

/-! Reductions and dot products (R360 to R363). -/

/-- A NaN result is the canonical one (R253). -/
def canonical (t : TyCode) (v : Nat) : Nat := if isFloat t ∧ isNaN (fpOf t v) then qnan t else v

/-- A sum over lanes (R360, R263): integers exact and narrowed once, narrow floats exact and rounded once, FP64 step by step. -/
def sumLanes (t : TyCode) (rm : BitVec 2) (sat : Bool) (xs : List Nat) : Nat :=
  match xs with
  | [] => 0
  | x :: rest =>
    if isInt t then wrapInt t sat (xs.foldl (fun a v => a + intOf t v) 0)
    else if t = 11 then canonical t (rest.foldl (elemAdd t rm false) x)
    else encodeFp t rm (rest.foldl (fun a v => fpAdd rm a (fpOf t v)) (fpOf t x))
/-- The least or greatest lane; with none, the type's other end. -/
def extremeLanes (t : TyCode) (max : Bool) (xs : List Nat) : Nat :=
  match xs with
  | [] => if isFloat t then infBits t max else wrapInt t false (if max then minOf t else maxOf t)
  | x :: rest => canonical t (rest.foldl (elemMin t max) x)
/-- The result of a reduction (R360). -/
def reduceLanes (t : TyCode) (rm : BitVec 2) (sat : Bool) (op : Nat) (xs : List Nat) : Nat :=
  match op with
  | 0 => sumLanes t rm sat xs
  | 1 => extremeLanes t false xs
  | 2 => extremeLanes t true xs
  | 3 => xs.foldl (· &&& ·) (2 ^ elemBits t - 1)
  | 4 => xs.foldl (· ||| ·) 0
  | _ => xs.foldl (· ^^^ ·) 0

def vredBody (x : Long) : Body' := fun s => do
  x.pmReady s
  let s ← s.popAll x.srcA1
  return s.setG x.d.toNat (extend x.ty (reduceLanes x.ty x.rm x.sat (x.c.toNat % 8) (x.governed s (x.va s) (lanes x.ty))))

def vscanBody (x : Long) : Body' := x.lanewise x.srcA1 (fun s k =>
  reduceLanes x.ty x.rm x.sat (x.c.toNat % 8) (x.governed s (x.va s) (k + 1)))

/-- An exact zero reads +0 (R261). -/
def readExact (t : TyCode) (rm : BitVec 2) (v : Fp) : Nat :=
  match v with
  | .fin _ 0 _ => 0
  | v => encodeFp t rm v

/-- VDOT's sum (R362) of the governed products: exact, or fused step by step in FP64. -/
def dotLanes (t : TyCode) (rm : BitVec 2) (sat : Bool) (xs : List (Nat × Nat)) : Word :=
  if isInt t then
    let u : TyCode := if isSigned t then 3 else 7
    extend u (wrapInt u sat (xs.foldl (fun a v => a + intOf t v.1 * intOf t v.2) 0))
  else if t = 11 then BitVec.ofNat 64 (xs.foldl (fun a v => elemFma 11 rm false false v.1 v.2 a) 0)
  else BitVec.ofNat 64 (readExact 10 rm (xs.foldl (fun a v => fpAdd rm a (fpMul (fpOf t v.1) (fpOf t v.2))) (.fin false 0 0)))

def vdotBody (x : Long) : Body' := fun s => do
  x.pmReady s
  let s ← s.popAll x.srcAB
  let ks := (List.range (lanes x.ty)).filter (x.governs s)
  return s.setG x.d.toNat (dotLanes x.ty x.rm x.sat (ks.map (fun k => (x.va s k, x.vb s k))))

def execVred (x : Long) (s : State) : Out := issueL Shape.vred x (vredBody x) s
def execVscan (x : Long) (s : State) : Out := issueL Shape.vscan x (vscanBody x) s
def execVdot (x : Long) (s : State) : Out := issueL Shape.vdot x (vdotBody x) s

end Sys2Proof.Machine
end

