-- ==== Sys2Proof/Machine/Accum.lean ====
section
/-! DEFINITION. Accumulators (10 R260 to R263, 14 R364, R372 to R378): exact elements with their flags, FP64 elements, products, readout
and moves. -/
namespace Sys2Proof.Machine
open Sys2Proof

/-- One element: an exact sum in units of 2^−300 with its flags, or an FP64 value in the low 64 bits. -/
structure Cell where
  sum : BitVec 640
  nan : Bool
  pinf : Bool
  ninf : Bool
  deriving DecidableEq, Repr

def Acc.cell (a : Acc) (n : Nat) : Cell :=
  { sum := at_ a.cells n 0, nan := a.nan.getLsbD n, pinf := a.pinf.getLsbD n, ninf := a.ninf.getLsbD n }
/-- Every element replaced; the kind and PROGRESS stay. -/
def Acc.build (a : Acc) (f : Nat → Cell) : Acc :=
  let cells := Vector.ofFn (fun i : Fin 256 => f i.val)
  let flags (p : Cell → Bool) : BitVec 256 := BitVec.ofNat 256 (cells.toList.foldr (fun c n => (p c).toNat + 2 * n) 0)
  { a with cells := cells.map (·.sum), nan := flags (·.nan), pinf := flags (·.pinf), ninf := flags (·.ninf) }

/-- An F64 accumulator of zeros, and the exact one (R364, R372). -/
def Acc.zeroOf (f64 : Bool) : Acc := { Acc.zero with f64 := f64 }

/-- AddTerm (R260). -/
def Cell.addTerm (c : Cell) (a b : Fp) : Cell :=
  match fpMul a b with
  | .nan => { c with nan := true }
  | .inf s => if s then { c with ninf := true } else { c with pinf := true }
  | .fin s m e =>
    let v : Int := (m : Int) * 2 ^ (e + 300).toNat
    { c with sum := c.sum + BitVec.ofInt 640 (if s then -v else v) }
/-- The terms of one element: a row of the first operand with a row of the second (R373). -/
def Cell.addRow (c : Cell) (a b : List Fp) : Cell := (a.zip b).foldl (fun c x => c.addTerm x.1 x.2) c
/-- The product A × Bᵀ added (R366, R373, R210). -/
def Acc.addProduct (acc : Acc) (a b : List (List Fp)) : Acc :=
  acc.build (fun n => (acc.cell n).addRow (a.getD (n / 16) []) (b.getD (n % 16) []))

/-- One fused FP64 step k of every element (R262, R375). A NaN is the canonical one and stays. -/
def Acc.stepF64 (acc : Acc) (rm : BitVec 2) (a b : List (List Fp)) (k : Nat) : Acc :=
  { acc.build (fun n =>
      let x := (a.getD (n / 16) []).getD k (.fin false 0 0)
      let y := (b.getD (n % 16) []).getD k (.fin false 0 0)
      { (acc.cell n) with sum := BitVec.ofNat 640 (encodeFp 11 rm (fpAdd rm (fpMul x y) (fpOf 11 (acc.cell n).sum.toNat))) }) with
    progress := k + 1 }

/-- MACC's addition (R378): modulo 2^640 with the flags joined, or rounded FP64 sums. -/
def Acc.add (d b : Acc) (rm : BitVec 2) : Acc :=
  if d.f64 then d.build (fun n => { (d.cell n) with sum := BitVec.ofNat 640 (elemAdd 11 rm false (d.cell n).sum.toNat (b.cell n).sum.toNat) })
  else d.build (fun n =>
    let x := d.cell n
    let y := b.cell n
    { sum := x.sum + y.sum, nan := x.nan || y.nan, pinf := x.pinf || y.pinf, ninf := x.ninf || y.ninf })

/-- The readout of an exact element (R261). -/
def Cell.readout (c : Cell) (t : TyCode) (rm : BitVec 2) (sat : Bool) : Nat :=
  if c.nan || (c.pinf && c.ninf) then (if isFloat t then qnan t else 0)
  else if c.pinf || c.ninf then (if isFloat t then infBits t c.ninf else wrapInt t false (if c.ninf then minOf t else maxOf t))
  else
    let v := c.sum.toInt
    if isFloat t then readExact t rm (.fin (decide (v < 0)) v.natAbs (-300))
    else wrapInt t sat (roundInt rm (decide (v < 0)) v.natAbs (-300))
/-- The readout of any element (R376). -/
def Acc.readout (a : Acc) (t : TyCode) (rm : BitVec 2) (sat : Bool) (n : Nat) : Nat :=
  if a.f64 then elemCvt t 11 rm false (a.cell n).sum.toNat else (a.cell n).readout t rm sat

end Sys2Proof.Machine
end

