-- ==== Sys2Proof/Machine/VConvert.lean ====
section
/-! DEFINITION. Vector conversions (13 R357 to R359). -/
namespace Sys2Proof.Machine
open Sys2Proof

/-- VCVT (R357): PART names the lanes taken or written; destination lanes outside it are unchanged. -/
def vcvtBody (x : Long) : Body' := fun s => do
  x.pmReady s
  let t := x.ty
  let src : TyCode := x.c.extractLsb' 0 4
  let part := x.c.toNat / 16
  let ld := lanes t
  let ls := lanes src
  let s ← s.popAll [(x.a.toNat, some (elemBits src))]
  let old := s.vold x.d.toNat
  let from_ (k : Nat) : Option Nat :=
    if ld < ls then some (part * ld + k)
    else if part * ls ≤ k ∧ k < part * ls + ls then some (k - part * ls) else none
  let r := packLanes x.width ld (fun k =>
    match from_ k with
    | none => laneOf x.width old k
    | some j =>
      if x.governs s k then elemCvt t src x.rm x.sat (laneOf (elemBits src) (s.vin x.a.toNat) j)
      else if x.zero then 0 else laneOf x.width old k)
  s.vout x.d.toNat (some x.width) (BitVec.ofNat 512 r) (laneMask ld (x.governs s))

/-- Bytes laid over a vector. -/
def overlay (v : VWord) (bs : List (Nat × Nat × Nat)) : VWord :=
  bs.foldl (fun v b => setFld v (8 * (b.1 + b.2.1) - 1) (8 * b.1) b.2.2) v

/-- The bytes of VPACK for SX (R358): a place, a length and a value each. -/
def packSx (x : Long) (group : Nat) : List (Nat × Nat × Nat) :=
  let size := sxBytes x.ty
  let g := x.b.toNat
  if x.flg = 0 then [(size * g, size, group)]
  else
    let code := if x.ty = 12 then 0x10 else if x.ty = 13 then 0x11 else 0x12
    let free := if x.ty = 12 then 58 else if x.ty = 13 then 62 else 56
    [(0, 2, code), (2 + size * g, size, group), (free, 64 - free, 0)]
/-- The bytes of VPACK for Q4G: code, scale and z, eight bytes of weights, and the zero bytes. -/
def packQ4g (x : Long) (scale z weights : Nat) : List (Nat × Nat × Nat) :=
  [(0, 4, 0x21 + scale * 256 + z * 2 ^ 24), (4 + 8 * x.b.toNat, 8, weights), (60, 4, 0)]

/-- VPACK (R358). -/
def vpackBody (x : Long) : Body' := fun s => do
  let d := x.d.toNat
  if x.ty = 15 then
    let w := s.g x.c.toNat
    if fld w 63 20 ≠ 0 then throw (.illegal 6)
    let s ← s.popAll [(x.a.toNat, some 32)]
    let scale := fld w 15 0
    let z := fld w 19 16
    let weights := packLanes 4 16 (fun i => toQ4g x.rm scale z (fpOf 10 (laneOf 32 (s.vin x.a.toNat) i)))
    s.vout d (some 0) (overlay (s.vold d) (packQ4g x scale z weights)) (BitVec.allOnes 64)
  else
    let src : TyCode := x.c.extractLsb' 0 4
    let part := x.c.toNat / 16
    let s ← s.popAll [(x.a.toNat, some (elemBits src))]
    let vals := (List.range 16).map (fun i => valueOf src (laneOf (elemBits src) (s.vin x.a.toNat) (part * 16 + i)))
    s.vout d (some 0) (overlay (s.vold d) (packSx x (toSx x.ty x.rm x.sat vals))) (BitVec.allOnes 64)

/-- FORMAT with CODE and REASON and no address (R359, R415). -/
def formatFault (addr space code reason : Nat) : Stop :=
  .fault { code := .format, detail := BitVec.ofNat 256 (addr % 2 ^ 48 + code * 2 ^ 64 + reason * 2 ^ 72 + space * 2 ^ 80) }
/-- The check of a block in a register (R359). -/
def blockReason (b : Nat) (t : TyCode) : Option Nat :=
  if !codeListed (blockCode b) then some 1
  else if blockCode b = 0 ∨ codeType (blockCode b) ≠ t then some 4
  else if !blockZeros b then some 3 else none

/-- An exact value in a scalar type: rounded once, or converted to an integer (R359). -/
def narrow (t : TyCode) (rm : BitVec 2) (v : Fp) : Nat := if isFloat t then encodeFp t rm v else wrapInt t false (toInt t rm v)

/-- VUNPACK (R359). -/
def vunpackBody (x : Long) : Body' := fun s => do
  let src : TyCode := x.c.extractLsb' 0 4
  let part := x.c.toNat / 16
  let s ← s.popAll [(x.a.toNat, some 0)]
  let b := (s.vin x.a.toNat).toNat
  let g := x.b.toNat
  if x.flg = 1 then
    match blockReason b src with
    | some r => throw (formatFault 0 0 (blockCode b) r)
    | none => pure ()
  let value (i : Nat) : Fp :=
    if x.flg = 1 then blockValue b (16 * g + i) else sxValue src 0 (b / 256 ^ (sxBytes src * g) % 256 ^ sxBytes src) i
  let old := s.vold x.d.toNat
  let r := packLanes x.width (lanes x.ty) (fun k =>
    if part * 16 ≤ k ∧ k < part * 16 + 16 then narrow x.ty x.rm (value (k - part * 16)) else laneOf x.width old k)
  s.vout x.d.toNat (some x.width) (BitVec.ofNat 512 r) (BitVec.allOnes 64)

def execVcvt (x : Long) (s : State) : Out := issueL Shape.vcvt x (vcvtBody x) s
def execVpack (x : Long) (s : State) : Out := issueL Shape.vpack x (vpackBody x) s
def execVunpack (x : Long) (s : State) : Out := issueL Shape.vunpack x (vunpackBody x) s

end Sys2Proof.Machine
end

