-- ==== Sys2Proof/Machine/MatrixFetch.lean ====
section
/-! DEFINITION. The operands of matrix instructions (14 R365 to R369, 05 R133 to R140): descriptors, pairs and their KMAX, rows read from
memory, OPERAND buffers, streams and ring slots. -/
namespace Sys2Proof.Machine
open Sys2Proof

/-! Descriptors (R366): word 0 in the low half. -/

abbrev Desc := BitVec 128
def dSource (d : Desc) : Nat := fld d 63 61
def dTy (d : Desc) : TyCode := d.extractLsb' 57 4
def dDesc (d : Desc) : Bool := bit d 56
def dCap (d : Desc) : Nat := fld d 55 52
def dSlot (d : Desc) : Nat := fld d 51 49
def dOffset (d : Desc) : Nat := fld d 47 0
def dPitch (d : Desc) : Nat := fld d 127 96
/-- The reserved fields, and those that a SOURCE requires zero. -/
def descOk (d : Desc) : Bool :=
  !bit d 48 && fld d 95 64 == 0 &&
  match dSource d with
  | 0 | 1 => dSlot d == 0
  | 2 => decide (dCap d < 4) && dSlot d == 0 && dOffset d == 0 && dPitch d == 0
  | 3 => dCap d == 0 && dOffset d == 0 && dPitch d == 0
  | _ => false

/-- A descriptor read at issue, in LOCAL program order. -/
def State.descriptor (s : State) (g : Nat) : Except Stop Desc := do
  let key ← s.localList (s.g g).toNat 16 16
  let d : Desc := BitVec.ofNat 128 (ofLe (s.bytes key 16))
  if descOk d then return d else throw (.illegal 6)

/-! Pairs (R365, R367). -/

def isSx (t : TyCode) : Bool := t == 12 || t == 13 || t == 14
/-- KMAX of an MMA pair; a described operand counts as SX7. -/
def pairMax (a b : Desc) : Option Nat :=
  let sxMax (d : Desc) : Nat := if dDesc d || dTy d = 14 then 1024 else 2048
  let sx (d : Desc) : Bool := if dDesc d then dTy d == 12 else isSx (dTy d)
  if sx a && sx b then some (min (sxMax a) (sxMax b))
  else if dDesc a || dDesc b || dTy a ≠ dTy b then none
  else match (dTy a).toNat with
  | 10 => some 128
  | 8 | 9 => some 512
  | 0 => some 1024
  | _ => none

/-- A Q4G operand that is not described raises FORMAT with reason 0x04 (R134). -/
def q4gPlain (c : Cap) (d : Desc) : Except Stop Unit :=
  if dTy d = 15 ∧ !dDesc d then .error (formatFault (c.base + dOffset d) c.space 0 4) else .ok ()
def needK (m : Option Nat) (k : Nat) : Except Stop Unit :=
  match m with
  | some n => if k ≤ n then .ok () else .error (.illegal 6)
  | none => .error (.illegal 6)
/-- CheckPair of MMA, of MMAQ (R374) and of MMAD (R375, R369), by operation number. -/
def checkPair (op : Nat) (ca cb : Cap) (a b : Desc) (k : Nat) : Except Stop Unit := do
  q4gPlain ca a
  q4gPlain cb b
  if (dSource a = 3 ∧ dDesc a) ∨ (dSource b = 3 ∧ dDesc b) then throw (.illegal 6)
  if op = 0x201 then needK (pairMax a b) k
  else if op = 0x202 then
    if dTy a = 15 ∧ dDesc a ∧ !dDesc b ∧ (dTy b = 8 ∨ dTy b = 9) then needK (some 512) k else throw (.illegal 6)
  else if dTy a = 11 ∧ dTy b = 11 ∧ !dDesc a ∧ !dDesc b ∧ dSource a ≠ 3 ∧ dSource b ≠ 3 then return ()
  else throw (.illegal 6)

/-! Reading (R367, R84, R139). -/

/-- What a fetch has done: the state, and the STORE extents read. -/
structure Fetch where
  s : State
  spans : List (Nat × Nat)

/-- The D bits of the pages an extent touches. -/
def State.pageMarks (s : State) (q : Ask) (a n : Nat) : List Bool :=
  (pieces a n 65536).filterMap (fun p => match s.look q p.1 with
    | .hit e => some (bit e.leaf 11)
    | _ => none)
/-- Whether every OPERAND buffer that an extent touches is full (R84, R367); CAPPERM in a segment of another mode, CAPBOUND past its last buffer (R83). -/
def State.buffersFull (s : State) (q : Ask) (off : Int) (ps : List Part) : Except Stop Unit :=
  match ps with
  | [] => .ok ()
  | p :: rest =>
    match p.owner with
    | .tile t o =>
      let tile := s.getTile t
      let seg := o / 65536
      let cfg := tile.seg seg
      if segMode cfg ≠ 1 then .error (q.fault .capperm off)
      else if segCount cfg ≤ bufferOf cfg (o + p.size - 1) then .error (q.fault .capbound off)
      else if (List.range (bufferOf cfg (o + p.size - 1) + 1 - bufferOf cfg o)).all (fun i =>
          (at_ tile.full seg 0).getLsbD (bufferOf cfg o + i)) then s.buffersFull q off rest
      else .error .wait
    | _ => s.buffersFull q off rest

/-- An extent of an operand read as one access: its address and bytes. `consume` is SOURCE 1; `described` what its page must say: a page that
disagrees raises FORMAT before a block is read, with CODE 0 and the start address (log entry 128). -/
def Fetch.read (f : Fetch) (act : Act) (reg : Nat) (c : Cap) (consume described : Bool) (off : Int) (n align : Nat) :
    Except Halt (Nat × List Byte × Fetch) := do
  let q := { Ask.load reg with answers := false }
  let a ← lifted (f.s.checkCap q c off n)
  if a % align ≠ 0 then throw (.stop (q.fault .align off))
  if consume ∧ c.space ≠ 1 then throw (.stop (q.fault .capperm off))
  match f.s.resolve q c.space a n with
  | .stop st => throw (.stop st)
  | .miss va => throw (.miss q va)
  | .parts ps =>
    if c.space = 3 ∧ (f.s.pageMarks q a n).any (· != described) then throw (.stop (formatFault a c.space 0 4))
    if consume then lifted (f.s.buffersFull q off ps)
    let r ← (f.s.touch ps).readParts act ps
    return (a, r.1, { s := r.2, spans := if consume then f.spans ++ [(a, n)] else f.spans })

/-- The elements of a row of K that are not described: a type's values, or whole groups. -/
def plainRow (t : TyCode) (k : Nat) (bs : List Byte) : List Fp :=
  if isScalar t then (List.range k).map (fun i => valueOf t (numAt bs (i * (elemBits t / 8)) (elemBits t / 8)))
  else (List.range k).map (fun i => sxValue t 0 (numAt bs (i / 16 * sxBytes t) (sxBytes t)) (i % 16))
/-- The bytes of such a row, and the alignment of its start. -/
def rowBytes (t : TyCode) (k : Nat) : Nat := if isScalar t then k * (elemBits t / 8) else k / 16 * sxBytes t
def rowAlign (t : TyCode) : Nat := if isScalar t then elemBits t / 8 else 1

/-- The count c of R138: the elements of the nearest block after a zero block, of which only the code is read: that byte meets the
capability's bounds and the page as any read does (log entry 128). -/
def Fetch.nextCount (f : Fetch) (act : Act) (reg : Nat) (c : Cap) (consume : Bool) (off : Int) (j fuel rest : Nat) :
    Except Halt (Nat × Fetch) :=
  match fuel with
  | 0 => .ok (rest, f)
  | k + 1 => do
    let r ← f.read act reg c consume true (off + 64 * j) 1 1
    let code := ((r.2.1.map BitVec.toNat).getD 0 0)
    if !codeListed code then throw (.stop (formatFault r.1 c.space code 1))
    if code = 0 then r.2.2.nextCount act reg c consume off (j + 1) k rest else return (codeCount code, r.2.2)

/-- The walk of one described row from block j, n elements counted (R138, R137). -/
def Fetch.walkRow (f : Fetch) (act : Act) (reg : Nat) (c : Cap) (consume q4g : Bool) (off : Int) (k j n fuel : Nat) :
    Except Halt (List Fp × Fetch) :=
  match fuel with
  | 0 => .ok ([], f)
  | more + 1 => do
    let r ← f.read act reg c consume true (off + 64 * j) 64 64
    let b := ofLe r.2.1
    let code := blockCode b
    let bad (reason : Nat) : Halt := .stop (formatFault r.1 c.space code reason)
    if !codeListed code then throw (bad 1)
    if code ≠ 0 ∧ (code = 0x21) ≠ q4g then throw (bad 4)
    if !blockZeros b then throw (bad 3)
    if code = 0 then
      let w ← r.2.2.nextCount act reg c consume off (j + 1) ((k + 47) / 48 - (j + 1)) (k - n)
      let z := min (k - n) w.1
      let zeros := List.replicate z (Fp.fin false 0 0)
      if n + z = k then return (zeros, w.2)
      let rest ← w.2.walkRow act reg c consume q4g off k (j + 1) (n + z) more
      return (zeros ++ rest.1, rest.2)
    else if k < n + codeCount code then throw (bad 2)
    else
      let vals := (List.range (codeCount code)).map (blockValue b)
      if n + codeCount code = k then return (vals, r.2.2)
      let rest ← r.2.2.walkRow act reg c consume q4g off k (j + 1) (n + codeCount code) more
      return (vals ++ rest.1, rest.2)

/-- OFFSET and PITCH of a described operand are multiples of 64 (R367). -/
def State.checkWalk (s : State) (c : Cap) (d : Desc) : Except Stop Unit := do
  let q := { Ask.load (dCap d) with answers := false }
  if dDesc d ∧ (dOffset d % 64 ≠ 0 ∨ dPitch d % 64 ≠ 0) then
    let _ ← s.checkCap q c (dOffset d) 64
    throw (q.fault .align (dOffset d))

/-- Rows i to 15 of a memory operand. -/
def Fetch.rows (f : Fetch) (act : Act) (c : Cap) (d : Desc) (k i left : Nat) : Except Halt (List (List Fp) × Fetch) :=
  match left with
  | 0 => .ok ([], f)
  | more + 1 => do
    let off : Int := ((dOffset d + i * dPitch d : Nat) : Int)
    let consume := dSource d == 1
    let r ← if dDesc d then f.walkRow act (dCap d) c consume (dTy d == 15) off k 0 0 ((k + 47) / 48 + 1)
      else do
        let x ← f.read act (dCap d) c consume false off (rowBytes (dTy d) k) (rowAlign (dTy d))
        pure (plainRow (dTy d) k x.2.1, x.2.2)
    let rest ← r.2.rows act c d k (i + 1) more
    return (r.1 :: rest.1, rest.2)

/-- The full bits that a consuming operand clears: of each buffer whose last byte it has read (R367, R84). -/
def State.clearRead (s : State) (spans : List (Nat × Nat)) : State :=
  spans.foldl (fun s x => match s.storeTile s.core (x.1 / 2 ^ 19) with
    | none => s
    | some t =>
      let seg := x.1 / 65536 % 8
      let cfg := (s.getTile t).seg seg
      let first := bufferOf cfg x.1
      (List.range (bufferOf cfg (x.1 + x.2 - 1) + 1 - first)).foldl (fun s i =>
        if (first + i + 1) * segUnit cfg ≤ x.1 % 65536 + x.2 then
          s.modTile t (fun tile => { tile with full := put tile.full seg (setBit (at_ tile.full seg 0) (first + i) false) })
        else s) s) s

/-- n elements taken from a bound input stream in generator order, across runs (R368). -/
def State.takeElements (s : State) (slot : Nat) (ty : TyCode) (n : Nat) : Except Stop (List Fp × State) :=
  match s.bound slot with
  | none => .error (.illegal 6)
  | some st =>
    if st.output ∨ st.ty ≠ ty then .error (.illegal 6)
    else if st.total < st.position + n then .error (plainFault .capbound (st.position * st.bytes))
    else if st.fetched.length < n then
      match st.fault with
      | some f => .error (.fault f)
      | none => .error .wait
    else
      .ok ((st.fetched.take n).map (fun x => if x.2 then valueOf ty x.1 else valueOf ty 0),
        (s.setStream slot (some { st with position := st.position + n, fetched := st.fetched.drop n })).takeBuffers st st.position n)

/-- A list cut into rows. -/
def rowsOf (k : Nat) (xs : List Fp) : List (List Fp) := (List.range 16).map (fun i => (xs.drop (i * k)).take k)

/-! Ring slots (R369, R204, R35). -/

def ringFormats : List Nat := [0, 8, 9, 10, 12, 13, 14]
/-- The elements per row of a ring format. -/
def ringK (fmt : Nat) : Nat :=
  match fmt with
  | 0 => 128 | 8 => 64 | 9 => 64 | 10 => 32 | 12 => 256 | 13 => 160 | _ => 112
/-- The LOCAL address of a ring slot. -/
def slotBase (i : Nat) : Nat := 0x18000 + 2048 * i
def hdrFmt (h : Word) : Nat := fld h 43 40
/-- The rows of a tile's payload. -/
def tileRows (fmt k : Nat) (payload : List Byte) : List (List Fp) :=
  (List.range 16).map (fun r => plainRow (BitVec.ofNat 4 fmt) k (slice payload (128 * r) 128))
def State.slotPayload (s : State) (p : Psn) (i : Nat) : List Byte := s.bytes (localKey p (slotBase i)) 2048
def Core.isMember (c : Core) : Bool := bit c.ringMember 63
def Core.ringNumber (c : Core) : Nat := fld c.ringMember 62 58
def Core.opnum (c : Core) : Nat := fld c.ringOp 63 57
/-- RINGSTATE of an instruction (R415). -/
def Core.ringFault (c : Core) (reason : Nat) : FaultInfo :=
  { code := .ringstate, detail := BitVec.ofNat 256 (c.ringNumber + reason * 2 ^ 8 + c.opnum * 2 ^ 16) }
/-- Whether a slot holds a tile: passing, held, or a relit copy that has come (R207). -/
def Core.slotFilled (c : Core) (i : Nat) : Bool :=
  let st := (at_ c.ringSlot i 0).toNat
  st == 1 || st == 2 || (st == 3 && c.ringCome.getLsbD i)
def State.ringRows (s : State) (d : Desc) (k : Nat) : Except Stop (List (List Fp)) :=
  let c := s.core
  let i := dSlot d
  if !c.isMember || !c.slotFilled i || hdrFmt (at_ c.ringHdr i 0) != (dTy d).toNat then .error (.fault (c.ringFault 0x10))
  else if ringK (dTy d).toNat < k then .error (.illegal 6)
  else .ok (tileRows (dTy d).toNat k (s.slotPayload c.psn i))

/-- One operand of 16 rows of K elements, whatever its source. -/
def Fetch.operand (f : Fetch) (act : Act) (c : Cap) (d : Desc) (k : Nat) : Except Halt (List (List Fp) × Fetch) :=
  match dSource d with
  | 2 => do
    let r ← lifted (f.s.takeElements (dCap d) (dTy d) (16 * k))
    return (rowsOf k r.1, { f with s := r.2 })
  | 3 => do
    let r ← lifted (f.s.ringRows d k)
    return (r, f)
  | _ => do
    lifted (f.s.checkWalk c d)
    f.rows act c d k 0 16

end Sys2Proof.Machine
end

