-- ==== Sys2Proof/Machine/Matrix.lean ====
section
/-! DEFINITION. Matrix instructions (14 R370 to R383). An instruction is performed by `matrixRun`; normal mode runs it at its issue,
diagnostic mode from its scoreboard entry (Machine/StreamEvents.lean). -/
namespace Sys2Proof.Machine
open Sys2Proof

/-! Claims and conflicts (R371, R186, R381). -/

def MatOp.writesAcc (m : MatOp) (n : Nat) : Bool := (m.op != 0x208 && m.op != 0x209) && m.instr.d.toNat == n
def MatOp.readsAcc (m : MatOp) (n : Nat) : Bool := (m.op == 0x208 || m.op == 0x209 || m.op == 0x20A) && m.instr.b.toNat == n
def MatOp.names (m : MatOp) (n : Nat) : Bool := m.writesAcc n || m.readsAcc n
/-- Whether an earlier entry writes what this one names, or reads what it writes. -/
def MatOp.blocks (e m : MatOp) : Bool :=
  (List.range 4).any (fun n => (e.writesAcc n && m.names n) || (e.readsAcc n && m.writesAcc n))
/-- An entry that is still in the way of later ones. -/
def MatOp.busy (m : MatOp) : Bool := m.stage == .queued || m.stage == .computing
def MatOp.isLong (m : MatOp) : Bool := m.op == 0x201 || m.op == 0x202 || m.op == 0x203 || m.op == 0x208

/-- The accumulators claimed by suspended activations of a core: those of its records (R186, R190). -/
def State.foreignClaims (s : State) (c : Core) : BitVec 4 :=
  match s.homeTile c with
  | none => 0
  | some t => ((s.getTile t).records.filter (fun r => r.src == c.psn)).foldl (fun m r => m ||| r.claims) 0
/-- Whether an accumulator is claimed by another activation or by a ring (R371). -/
def State.accClaimed (s : State) (n : Nat) : Bool := (s.foreignClaims s.core ||| s.core.ringClaims).getLsbD n
def State.claim (s : State) (n : Nat) : State := s.mapAct (fun a => { a with claims := a.claims ||| BitVec.ofNat 4 (2 ^ n) })

def Core.getAcc (c : Core) (n : Nat) : Acc := at_ c.acc n Acc.zero
def State.setAcc (s : State) (n : Nat) (x : Acc) : State := s.mapCore (fun c => { c with acc := put c.acc n x })

/-! Gangs (R383). -/

/-- The leader whose gang a core's instructions are relayed in: its own, or an attached member's. -/
def Act.relayLeader (a : Act) (p : Psn) : Option Psn :=
  a.gang.bind (fun g => if g.position = 0 then some p else if g.attached then some g.leader else none)
/-- The gangs that a core's activations belong to: the one that runs, and those that wait in records. -/
def State.gangsOf (s : State) (p : Psn) : List Gang :=
  let c := s.getCore p
  let records := ((s.homeTile c).map (fun t => (s.getTile t).records.filter (fun r => r.src == p))).getD []
  (c.act.bind (·.gang)).toList ++ records.filterMap (fun r => (r.full.bind (·.gang)).orElse (fun _ => r.gang))
/-- The cores of a gang: the leader and every member that has neither ended nor left it; one that is suspended is in its record. -/
def State.gangCores (s : State) (leader : Psn) : List Psn :=
  let named := ((s.gangsOf leader).filter (fun g => g.position == 0 && g.leader == leader)).flatMap (·.members)
  leader :: named.eraseDups.filter (fun p => (s.gangsOf p).any (fun g => g.leader == leader))
/-- A completion post: +1 to q48 of every core of the gang. -/
def State.postGang (s : State) (leader : Option Psn) : State :=
  match leader with
  | none => s
  | some l => (s.gangCores l).foldl (fun s p => s.modCore p (·.addQ 48 1)) s

/-! What each instruction does once its operands are there. -/

/-- K of MMA and MMAQ, of MMAD (R370). -/
def MatOp.k (m : MatOp) : Nat := if m.op = 0x203 then m.instr.hi.toNat + 1 else (m.instr.hi.toNat + 1) * 16
def MatOp.rounding (m : MatOp) : BitVec 2 := m.instr.c.extractLsb' 0 2

/-- Both operands, the first first (R366 to R369). -/
def MatOp.fetch (m : MatOp) (s : State) : Except Halt (List (List Fp) × List (List Fp) × State) :=
  match s.core.act with
  | none => .error (.stop .wait)
  | some a => do
    let x ← ({ s, spans := [] } : Fetch).operand a m.ca m.da m.k
    let y ← x.2.operand a m.cb m.db m.k
    return (x.1, y.1, y.2.s.clearRead y.2.spans)

/-- MZERO (R372). -/
def MatOp.zero (m : MatOp) (s : State) : State := s.setAcc m.instr.d.toNat (Acc.zeroOf (m.instr.sub == 0xB))

/-- MMA and MMAQ (R373, R374). -/
def MatOp.product (m : MatOp) (s : State) : Except Halt State := do
  let d := m.instr.d.toNat
  if (s.core.getAcc d).f64 then throw (.stop (.illegal 6))
  lifted (checkPair m.op m.ca m.cb m.da m.db m.k)
  let r ← m.fetch s
  return r.2.2.setAcc d ((s.core.getAcc d).addProduct r.1 r.2.1)

/-- The checks and the fetch of MMAD (R375). -/
def MatOp.fetchF64 (m : MatOp) (s : State) : Except Halt (List (List Fp) × List (List Fp) × State) := do
  if !(s.core.getAcc m.instr.d.toNat).f64 then throw (.stop (.illegal 6))
  lifted (checkPair m.op m.ca m.cb m.da m.db m.k)
  m.fetch s
/-- One step of MMAD: step PROGRESS; after the last one PROGRESS is 0 again. Answers whether it was the last. -/
def MatOp.stepF64 (m : MatOp) (a b : List (List Fp)) (s : State) : Bool × State :=
  let d := m.instr.d.toNat
  let acc := s.core.getAcc d
  let next := acc.stepF64 m.rounding a b acc.progress
  if m.k ≤ acc.progress + 1 then (true, s.setAcc d { next with progress := 0 }) else (false, s.setAcc d next)
/-- All remaining steps: a scoreboard entry that has started completes (R381). -/
def MatOp.stepsF64 (m : MatOp) (a b : List (List Fp)) (s : State) (fuel : Nat) : State :=
  match fuel with
  | 0 => s
  | n + 1 =>
    let r := m.stepF64 a b s
    if r.1 then r.2 else m.stepsF64 a b r.2 n

/-- MACC and MACC.mov (R378). -/
def MatOp.macc (m : MatOp) (s : State) : Except Halt State :=
  let d := m.instr.d.toNat
  let x := s.core.getAcc d
  let y := s.core.getAcc m.instr.b.toNat
  if m.instr.sub = 1 then .ok (s.setAcc d y)
  else if x.f64 ≠ y.f64 ∨ (!x.f64 ∧ m.rounding ≠ 0) then .error (.stop (.illegal 6))
  else .ok (s.setAcc d (x.add y m.rounding))

/-- SAT with an F64 accumulator (R376). -/
def satOk (acc : Acc) (x : Long) : Except Halt Unit := if acc.f64 ∧ x.sat then .error (.stop (.illegal 6)) else .ok ()

/-- MREADK (R377): the register is no longer pending. A vector written for an activation that has gone is dropped. -/
def MatOp.readRow (m : MatOp) (s : State) : Except Halt State := do
  let x := m.instr
  let acc := s.core.getAcc x.b.toNat
  satOk acc x
  let w := elemBits x.ty
  let v (k : Nat) : Nat := acc.readout x.ty x.rm x.sat (16 * x.c.toNat + k)
  let row (lo n : Nat) (old : VWord) : VWord :=
    BitVec.ofNat 512 (packLanes w (lanes x.ty) (fun k => if k < n then v (lo + k) else laneOf w old k))
  let d := x.d.toNat
  let s := s.mapCore (fun c => (c.settled (.v d) m.id).settled (.v (d + 1)) m.id)
  if w = 64 then
    let s ← lifted (s.vout d (some w) (row 0 8 0) (BitVec.allOnes 64))
    lifted (s.vout (d + 1) (some w) (row 8 8 0) (BitVec.allOnes 64))
  else lifted (s.vout d (some w) (row 0 16 (s.vold d)) (BitVec.allOnes 64))

/-! MREAD (R376). -/

/-- The bytes of row i of the result. -/
def MatOp.rowData (m : MatOp) (acc : Acc) (i : Nat) : List Byte :=
  let x := m.instr
  leBytes (2 * elemBits x.ty) (packLanes (elemBits x.ty) 16 (fun k => acc.readout x.ty x.rm x.sat (16 * i + k)))

/-- The parts of rows i to 15, checked and translated (R367). -/
def MatOp.rowParts (m : MatOp) (s : State) (acc : Acc) (i left : Nat) : Except Halt (List (List (Part × Errand))) :=
  match left with
  | 0 => .ok []
  | n + 1 => do
    let off : Int := ((dOffset m.da + i * dPitch m.da : Nat) : Int)
    let q := { Ask.store (dCap m.da) with answers := false }
    let bytes := 2 * elemBits m.instr.ty
    let fill := dSource m.da == 1
    let a ← lifted (s.checkCap q m.ca off bytes)
    if a % (elemBits m.instr.ty / 8) ≠ 0 then throw (.stop (q.fault .align off))
    if fill ∧ m.ca.space ≠ 1 then throw (.stop (q.fault .capperm off))
    match s.resolve q m.ca.space a bytes with
    | .stop st => throw (.stop st)
    | .miss va => throw (.miss q va)
    | .parts ps =>
      let operand (p : Part) : Bool := match p.owner with
        | .tile t o => segMode ((s.getTile t).seg (o / 65536)) == 1
        | _ => false
      if fill ∧ !ps.all operand then throw (.stop (q.fault .capperm off))
      if m.ca.space = 3 ∧ (s.pageMarks q a bytes).contains true then throw (.stop (formatFault a 3 0 4))
      let e : Errand := { kind := .store, data := m.rowData acc i, tagv := false, aop := if fill then fillMark else 0, operand2 := [],
                          landing := .none }
      let rest ← m.rowParts s acc (i + 1) n
      return ps.map (fun p => (p, e.cut p)) :: rest

/-- The writes of the rows in ascending order, each row after those before it: the items they are (a LOCAL one that waits for nothing is
performed at once). -/
def State.writeRows (s : State) (a : Act) (deps : List Nat) (rows : List (List (Part × Errand))) : List Nat × State :=
  match rows with
  | [] => ([], s)
  | row :: rest =>
    let r := row.foldl (fun (r : List Nat × State) x =>
      let acc := { x.1.access r.2 a .store deps with data := x.2.data, aop := x.2.aop, engine := true }
      match x.1.owner, deps with
      | .local addr, [] => (r.1, (r.2.performLocal acc addr).2)
      | _, _ => (r.1 ++ [r.2.nextId], r.2.launchItem (.access acc))) ([], s)
    let more := r.2.writeRows a (deps ++ r.1) rest
    (r.1 ++ more.1, more.2)

/-- The pushes of the rows onto an output stream, their writes after what AFTER names: 16 elements each, in two vectors for 64-bit types. -/
def MatOp.pushRows (m : MatOp) (s : State) (acc : Acc) : Except Halt (MatOp × State) :=
  let slot := dCap m.da
  let x := m.instr
  match s.bound slot with
  | none => .error (.stop (.illegal 6))
  | some st =>
    if !st.output ∨ st.ty ≠ x.ty then .error (.stop (.illegal 6))
    else if st.total < st.position + 256 then .error (.stop (plainFault .capbound (st.position * st.bytes)))
    else if st.pushed ≠ [] then .error (.stop .wait)
    else
      let per := if elemBits x.ty = 64 then 8 else 16
      let push (j : Nat) : Push :=
        { start := st.position + j * per, count := per, missing := 0, bits := BitVec.allOnes 64, written := 0, bitsDone := st.pred.isNone, deps := m.deps
          data := BitVec.ofNat 512 (packLanes (elemBits x.ty) per (fun k => acc.readout x.ty x.rm x.sat (j * per + k))) }
      .ok ({ m with pushed := some (st.token, st.position + 256) },
        s.setStream slot (some { st with position := st.position + 256, pushed := (List.range (256 / per)).map push }))

/-- MREAD: its data are handed to the writes. -/
def MatOp.readOut (m : MatOp) (s : State) : Except Halt (MatOp × State) :=
  match s.core.act with
  | none => .error (.stop .wait)
  | some a => do
    let acc := s.core.getAcc m.instr.b.toNat
    if dSource m.da = 3 ∨ dTy m.da ≠ 0 ∨ dDesc m.da then throw (.stop (.illegal 6))
    satOk acc m.instr
    if dSource m.da = 2 then m.pushRows s acc
    else
      let rows ← m.rowParts s acc 0 16
      let r := s.writeRows a m.deps rows
      return ({ m with writes := r.1 }, r.2)

/-- An instruction performed: what stays of it, and the state. An MMAD runs to its end. -/
def State.matrixRun (s : State) (m : MatOp) : Except Halt (MatOp × State) :=
  match m.op with
  | 0x200 => .ok ({ m with stage := .computing }, m.zero s)
  | 0x201 | 0x202 => (m.product s).map (fun t => ({ m with stage := .computing }, t))
  | 0x203 => do
    let r ← m.fetchF64 s
    return ({ m with stage := .computing }, m.stepsF64 r.1 r.2.1 r.2.2 64)
  | 0x208 => (m.readOut s).map (fun r => ({ r.1 with stage := .writing }, r.2))
  | 0x209 => (m.readRow s).map (fun t => ({ m with stage := .computing }, t))
  | _ => (m.macc s).map (fun t => ({ m with stage := .computing }, t))

/-! Issue (R381). -/

def State.addMatOp (s : State) (m : MatOp) : State := s.mapCore (fun c => { c with matOps := c.matOps ++ [m] })

/-- The instruction as it issues: its descriptors read, its capabilities taken, its claim and waits checked (R366, R371, R381). -/
def State.newMatOp (s : State) (a : Act) (x : Long) (op : Nat) (descs : Nat) : Except Stop MatOp := do
  let m : MatOp := { id := 0, instr := x, op, da := 0, db := 0, ca := Cap.null, cb := Cap.null, entry := a.entry, serial := a.serial,
                     pc := s.pc0 8, leader := a.relayLeader s.core.psn, stage := .queued, deps := s.tok x.after.toNat, writes := [],
                     pushed := none, rows := [] }
  if (List.range 4).any (fun n => m.names n && s.accClaimed n) then throw .wait
  let da ← if descs = 0 then pure 0 else s.descriptor x.a.toNat
  let db ← if descs < 2 then pure 0 else s.descriptor x.b.toNat
  let cap (d : Desc) : Cap := if dSource d < 2 then s.c (dCap d) else Cap.null
  return { m with da, db, ca := cap da, cb := cap db }

/-- The registers that name the descriptors an instruction reads as it issues. -/
def MatOp.lists (m : MatOp) : List Nat :=
  if m.stage ≠ .queued ∨ !m.isLong then [] else if m.op = 0x208 then [m.instr.a.toNat] else [m.instr.a.toNat, m.instr.b.toNat]
/-- Claims (R186): the instruction's destination accumulator. The words of its descriptors have been read (R76). -/
def State.claimFor (s : State) (m : MatOp) : State :=
  m.lists.foldl (fun t n => t.noteRead (localKey s.core.psn (s.g n).toNat) 16)
    ((List.range 4).foldl (fun s n => if m.writesAcc n then s.claim n else s) s)

/-- What normal mode leaves of an instruction that has run: MMA, MMAQ, MMAD and MREAD complete at a step of the unit. MREAD's token stands
for its writes, or for an item when a stream takes them; a fetch is over at once. -/
def State.leaveMatOp (s : State) (m : MatOp) (o : Order) : State :=
  if !m.isLong then s
  else if m.pushed.isSome then
    ((s.launchItem (.command s.core.psn m.serial)).leaveTokens o [s.nextId]).addMatOp { m with id := s.nextId }
  else (s.leaveTokens o m.writes).addMatOp m

/-- A matrix instruction in normal mode, or into the scoreboard in diagnostic mode. -/
def matrixBody (x : Long) (op descs : Nat) : Body' := fun s =>
  match s.core.act with
  | none => .ok s
  | some a => do
    let m ← s.newMatOp a x op descs
    if s.core.matMode then
      if 4 ≤ (s.core.matOps.filter (·.busy)).length then throw .wait
      let id := s.nextId
      let s := ((s.launchItem (.command s.core.psn a.serial)).leaveTokens (x.order s) [id]).claimFor m
      let s := if op = 0x209 then s.setPending (.v x.d.toNat) id else s
      let s := if op = 0x209 ∧ elemBits x.ty = 64 then s.setPending (.v (x.d.toNat + 1)) id else s
      return s.addMatOp { m with id }
    else
      if s.core.matOps.any (·.busy) then throw .wait
      if op ≠ 0x208 ∧ !s.gone m.deps then throw .wait
      match s.matrixRun m with
      | .error (.stop st) => throw st
      | .error (.miss q va) => return s.askWalk 8 q va
      | .ok r => return (r.2.claimFor m).leaveMatOp r.1 (x.order s)

/-- MMAD in normal mode: one step of R375 at a time, the pc on the instruction until the last. -/
def mmadBody (x : Long) : Body' := fun s =>
  match s.core.act with
  | none => .ok s
  | some a =>
    if s.core.matMode then matrixBody x 0x203 2 s
    else
      let finish (m : MatOp) (u v : List (List Fp)) (s : State) : State :=
        let r := m.stepF64 u v (s.claimFor m)
        let t := r.2.mapCore (fun c => { c with matOps := c.matOps.filter (·.stage != .stepping) })
        if r.1 then t.leaveMatOp { m with stage := .computing, rows := [] } (x.order s)
        else (t.addMatOp { m with stage := .stepping, rows := u ++ v }).stay 8
      match s.core.matOps.find? (fun m => m.stage == .stepping && m.serial == a.serial && m.pc == s.pc0 8) with
      | some m => .ok (finish m (m.rows.take 16) (m.rows.drop 16) s)
      | none => do
        let m ← s.newMatOp a x 0x203 2
        if s.core.matOps.any (·.busy) ∨ !s.gone m.deps then throw .wait
        match m.fetchF64 s with
        | .error (.stop st) => throw st
        | .error (.miss q va) => return s.askWalk 8 q va
        | .ok r => return finish m r.1 r.2.1 r.2.2

/-- MSTAT (R379): a sample at issue, once earlier instructions of normal mode have completed (log entry 46). -/
def mstatBody (x : Long) : Body' := fun s =>
  match s.core.act with
  | none => .ok s
  | some a => do
    let n := x.b.toNat
    if s.accClaimed n ∨ (!s.core.matMode ∧ s.core.matOps.any (·.busy)) then throw .wait
    let acc := s.core.getAcc n
    let any (v : BitVec 256) : Nat := (!acc.f64 && v != 0).toNat
    let queued := (s.core.matOps.filter (fun m => m.busy && m.names n)).length
    return s.setG x.d.toNat (BitVec.ofNat 64 ((a.claims.getLsbD n).toNat * 2 ^ 63 + (s.core.ringClaims.getLsbD n).toNat * 2 ^ 62 +
      acc.f64.toNat * 2 ^ 61 + s.core.matMode.toNat * 2 ^ 60 + any acc.nan * 2 ^ 59 + any acc.pinf * 2 ^ 58 + any acc.ninf * 2 ^ 57 +
      (if s.core.matMode then min queued 4 else 0) * 2 ^ 46 + acc.progress * 2 ^ 40))

/-- MMODE (R380). -/
def mmodeBody (x : Long) : Body' := fun s =>
  match s.core.act with
  | none => .ok s
  | some a =>
    let m := x.hi.getLsbD 0
    if m ∧ !s.core.diag then .error (.priv 6)
    else if m ∧ a.gang.isSome then .error (.illegal 6)
    else if s.core.matOps.any (fun m => m.busy && m.serial == a.serial) then .error .wait
    else .ok ((s.mapCore (fun c => { c with matMode := m })).setG x.d.toNat (BitVec.ofNat 64 s.core.matMode.toNat))

/-- A relayed matrix instruction whose member faults posts a fault completion (R383). -/
def relayed (s : State) (o : Out) : Out :=
  match o, s.core.act with
  | .next t, some a =>
    let member := (a.gang.map (fun g => decide (g.position ≠ 0) && g.attached)).getD false
    let faulted := (t.core.act.map (fun b => b.halted.isSome && a.halted.isNone)).getD true
    if member ∧ faulted then .next (t.postGang (a.relayLeader s.core.psn)) else .next t
  | o, _ => o

def execMzero (x : Long) (s : State) : Out := relayed s (issueL Shape.mzero x (matrixBody x 0x200 0) s)
def execMma (x : Long) (s : State) : Out := relayed s (issueM Shape.mma x (matrixBody x 0x201 2) s)
def execMmaq (x : Long) (s : State) : Out := relayed s (issueM Shape.mmaq x (matrixBody x 0x202 2) s)
def execMmad (x : Long) (s : State) : Out := relayed s (issueM Shape.mmad x (mmadBody x) s)
def execMread (x : Long) (s : State) : Out := relayed s (issueM Shape.mread x (matrixBody x 0x208 1) s)
def execMreadk (x : Long) (s : State) : Out := relayed s (issueL Shape.mreadk x (matrixBody x 0x209 0) s)
def execMacc (x : Long) (s : State) : Out := relayed s (issueL Shape.macc x (matrixBody x 0x20A 0) s)
def execMaccMov (x : Long) (s : State) : Out := relayed s (issueL Shape.maccMov x (matrixBody x 0x20A 0) s)
def execMstat (x : Long) (s : State) : Out := relayed s (issueL Shape.mstat x (mstatBody x) s)
def execMmode (x : Long) (s : State) : Out := relayed s (issueL Shape.mmode x (mmodeBody x) s)

end Sys2Proof.Machine
end

