-- ==== Sys2Proof/Machine/Ring.lean ====
section
/-! DEFINITION. Operand rings (chapter 08, 14 R384 to R394): match entries, injection records, slots, what happens to all members of a
ring at once, and the ring instructions. The ring's own steps stand in Machine/RingEvents.lean. -/
namespace Sys2Proof.Machine
open Sys2Proof

/-! Match entries (R208): word 0 in the low half. -/

abbrev Match := BitVec 128
def mState (m : Match) : Nat := fld m 63 61
def mAcc (m : Match) : Nat := fld m 56 55
def mFmt (m : Match) : Nat := fld m 54 51
def mHold (m : Match) : Nat := fld m 47 40
def mLeft (m : Match) : Nat := fld m 39 32
def mOpnum (m : Match) : Nat := fld m 127 121
/-- Fields by family: false S, true W. -/
def mTag (m : Match) (w : Bool) : Nat := if w then fld m 31 16 else fld m 15 0
def mSeen (m : Match) (w : Bool) : Bool := bit m (if w then 59 else 60)
def mHeld (m : Match) (w : Bool) : Bool := bit m (if w then 57 else 58)
def mSlot (m : Match) (w : Bool) : Nat := if w then fld m 116 113 else fld m 120 117
def setSeen (m : Match) (w : Bool) : Match := setBit m (if w then 59 else 60) true
def setHeld (m : Match) (w b : Bool) : Match := setBit m (if w then 57 else 58) b
def setSlot (m : Match) (w : Bool) (i : Nat) : Match := if w then setFld m 116 113 i else setFld m 120 117 i
def setMState (m : Match) (n : Nat) : Match := setFld m 63 61 n
/-- Armed, missed or awaiting relight: still to fire. -/
def mLive (m : Match) : Bool := mState m == 1 || mState m == 3 || mState m == 4
def Core.entry (c : Core) (j : Nat) : Match := at_ c.matches_ j 0
def Core.setEntry (c : Core) (j : Nat) (m : Match) : Core := { c with matches_ := put c.matches_ j m }

/-! Headers (R203), injection records (R212). -/

def hdrFam (h : Word) : Bool := bit h 63
def hdrOp (h : Word) : Nat := fld h 62 56
def hdrLaps (h : Word) : Nat := fld h 55 50
def hdrHops (h : Word) : Nat := fld h 49 44
def hdrTag (h : Word) : Nat := fld h 39 24
def hdrInjector (h : Word) : BitVec 24 := h.extractLsb' 0 24
def makeHdr (w : Bool) (op laps fmt tag : Nat) (name : BitVec 24) : Word :=
  BitVec.ofNat 64 (w.toNat * 2 ^ 63 + op % 128 * 2 ^ 56 + laps * 2 ^ 50 + fmt * 2 ^ 40 + tag * 2 ^ 24 + name.toNat)
def recLive (r : Word) : Bool := bit r 63
def recFam (r : Word) : Bool := bit r 62
def recOp (r : Word) : Nat := fld r 61 55
def recLaps (r : Word) : Nat := fld r 54 49
def recFmt (r : Word) : Nat := fld r 48 45
def recTag (r : Word) : Nat := fld r 42 27
def recSrc (r : Word) : Nat := fld r 26 0
def makeRec (w : Bool) (op laps fmt tag src : Nat) : Word :=
  BitVec.ofNat 64 (2 ^ 63 + w.toNat * 2 ^ 62 + op * 2 ^ 55 + laps * 2 ^ 49 + fmt * 2 ^ 45 + tag * 2 ^ 27 + src)

/-! Slots (R206, R207): 0 to 3 are S slots, 4 to 7 W slots. -/

def familySlots (w : Bool) : List Nat := if w then [4, 5, 6, 7] else [0, 1, 2, 3]
def Core.slotState (c : Core) (i : Nat) : Nat := (at_ c.ringSlot i 0).toNat
def Core.freeSlots (c : Core) (w : Bool) : List Nat := (familySlots w).filter (fun i => c.slotState i == 0)
/-- The free holding slots: slot 3 of a family is pass-through only. -/
def Core.freeHolding (c : Core) (w : Bool) : List Nat := (c.freeSlots w).filter (fun i => i % 4 != 3)
def Core.setSlotState (c : Core) (i n : Nat) : Core := { c with ringSlot := put c.ringSlot i (BitVec.ofNat 2 n) }
/-- A slot is freed; its header reads zero. -/
def Core.clearSlot (c : Core) (i : Nat) : Core :=
  { (c.setSlotState i 0) with ringHdr := put c.ringHdr i 0, ringCome := c.ringCome &&& ~~~ (BitVec.ofNat 8 (2 ^ i)) }
/-- The slot in which a tile of the current operation is resident (R209). -/
def Core.residentAt (c : Core) (w : Bool) (tag : Nat) : Option Nat :=
  (familySlots w).find? (fun i => c.slotFilled i && hdrTag (at_ c.ringHdr i 0) == tag && hdrOp (at_ c.ringHdr i 0) == c.opnum)

/-! RING_OP (R215) and membership (R202). -/

def opState (w : Word) : Nat := fld w 56 55
def opSeals (w : Word) : Nat := fld w 54 49
def opExpect (w : Word) : Nat := fld w 48 37
def opDone (w : Word) : Nat := fld w 36 25
def opCancels (w : Word) : Nat := fld w 15 0
def Core.memberIndex (c : Core) : Nat := fld c.ringMember 57 52
def Core.ringSize (c : Core) : Nat := fld c.ringMember 51 46 + 1
def Core.leasePend (c : Core) : Bool := bit c.ringMember 41
/-- The ring of a member core. -/
def State.ringOf (s : State) (c : Core) : Option Ring :=
  if c.isMember then (s.getRegion (psnRegion c.psn)).rings.find? (·.number == c.ringNumber) else none
def State.putRing (s : State) (region : Nat) (r : Ring) : State :=
  s.modRegion region (fun g => { g with rings := upsert g.rings (·.number == r.number) r })
def State.ringAt (s : State) (region n : Nat) : Option Ring := (s.getRegion region).rings.find? (·.number == n)
def State.modMembers (s : State) (r : Ring) (f : Core → Core) : State := r.members.foldl (fun s p => s.modCore p f) s
def Ring.origin (r : Ring) : Psn := r.members.headD 0

/-- The next operation (R216, R217): OPNUM advances with the counts cleared and STATE as given; the origin keeps CANCELS. -/
def Core.nextOp (c : Core) (state cancels : Nat) : Core :=
  { c with ringOp := BitVec.ofNat 64 ((c.opnum + 1) % 128 * 2 ^ 57 + state * 2 ^ 55 + cancels), sealed := false, reinject := 0 }
/-- A member absorbs its resident tiles, frees its slots and queues no firing (R217, R391). -/
def Core.emptySlots (c : Core) : Core :=
  { c with ringHdr := Vector.replicate 8 0, ringSlot := Vector.replicate 8 0, ringCome := 0, firings := [] }
/-- Relight requests of a ring's members and copies on their way are dropped (R217, R391). -/
def State.dropRelights (s : State) (r : Ring) : State :=
  { s with flight := s.flight.filter (fun i => match i.body with
      | .relight p _ _ _ _ _ | .relit p _ _ _ => !r.members.contains p
      | _ => true) }
/-- STATE of the operation. -/
def setOpState (n : Nat) (c : Core) : Core := { c with ringOp := setFld c.ringOp 56 55 n }
/-- Tiles of a family on their way to a member, whose credits they hold (R206). -/
def State.tilesTo (s : State) (region ring member : Nat) (w : Bool) : Nat :=
  (s.flight.filter (fun i => match i.body with
    | .ringTile t => t.region == region && t.ring == ring && t.member == member && hdrFam t.header == w
    | _ => false)).length
/-- The slots of a family at a member that are free and promised to no tile (R206, R207). -/
def State.openSlots (s : State) (c : Core) (w : Bool) : Nat :=
  (c.freeSlots w).length - s.tilesTo (psnRegion c.psn) c.ringNumber c.memberIndex w
/-- The holding slot a reservation takes, where it leaves the promised slots (R207). -/
def State.reservable (s : State) (c : Core) (w : Bool) : Option Nat := if s.openSlots c w = 0 then none else (c.freeHolding w).head?
/-- Whether completions of a ring are on their way to its members (R216): its operation is complete and is cancelled no more. -/
def State.ringCompleting (s : State) (r : Ring) : Bool :=
  s.flight.any (fun i => match i.body with
    | .completion p => r.members.contains p
    | _ => false)
def Core.releaseRing (c : Core) : Core := { (c.release c.ringClaims) with ringClaims := 0 }

/-- A ring is dissolved (R392): every RING_MEMBER clears and the number is free. -/
def State.dissolveRing (s : State) (region : Nat) (r : Ring) : State :=
  (s.modMembers r (fun c => { (c.emptySlots.releaseRing) with
    ringMember := 0, ringOp := 0, sealed := false, matches_ := Vector.replicate 64 0, inject := Vector.replicate 16 0 })).modRegion
    region (fun g => { g with rings := g.rings.filter (·.number != r.number) })

/-! Instructions. -/

def Core.ringState (c : Core) : Nat := opState c.ringOp
def State.ringStop (s : State) : Stop := .fault (s.core.ringFault 0x10)
/-- R385. -/
def State.ringReady (s : State) : Except Stop Ring :=
  match s.ringOf s.core with
  | none => .error s.ringStop
  | some r => if 2 ≤ s.core.ringState ∨ r.leavers ≠ [] then .error s.ringStop else .ok r

/-- The entry number of RMSET and RMCLR (R384). -/
def entryNumber (x : Long) (s : State) : Except Stop Nat :=
  if x.sub = 1 then (if fld (s.g x.b.toNat) 63 6 ≠ 0 then .error (.illegal 6) else .ok (s.g x.b.toNat).toNat) else .ok x.hi.toNat

/-- RMSET (R386). -/
def rmsetBody (x : Long) : Body' := fun s => do
  let j ← entryNumber x s
  let w := s.g x.a.toNat
  if fld w 63 46 ≠ 0 then throw (.illegal 6)
  let _ ← s.ringReady
  if s.core.sealed ∨ !ringFormats.contains (fld w 45 42) ∨ mState (s.core.entry j) ≠ 0 then throw s.ringStop
  let m : Match := BitVec.ofNat 128 (2 ^ 61 + fld w 41 40 * 2 ^ 55 + fld w 45 42 * 2 ^ 51 + fld w 39 32 * 2 ^ 40 + fld w 31 0 +
    s.core.opnum * 2 ^ 121)
  return s.mapCore (·.setEntry j m)

/-- Tiles that no entry holds any longer pass (R209). -/
def Core.settleHolds (c : Core) : Core :=
  (List.range 8).foldl (fun c i =>
    if c.slotState i = 2 ∧ !(List.range 64).any (fun j =>
      let m := c.entry j
      let w := decide (4 ≤ i)
      mHeld m w && mSlot m w == i) then c.setSlotState i 1 else c) c
/-- An entry is freed: it holds nothing, fires nothing, and reserved copies of it are of no use. -/
def Core.freeEntry (c : Core) (j : Nat) : Core :=
  let m := c.entry j
  let d : Core := { (c.setEntry j 0) with firings := c.firings.filter (fun f => f.1 != j) }
  if mLive m then d.settleHolds else d

/-- RMCLR (R387). -/
def rmclrBody (js : State → Except Stop (List Nat)) : Body' := fun s => do
  let l ← js s
  let _ ← s.ringReady
  if s.core.sealed then throw s.ringStop
  return s.mapCore (fun c => l.foldl Core.freeEntry c)

/-- The place of a tile in a ring slot (R35, R388). -/
def State.fillSlot (s : State) (p : Psn) (i state : Nat) (h : Word) (payload : List Byte) : State :=
  (s.poke (localKey p (slotBase i)) payload).modCore p (fun c =>
    { (c.setSlotState i state) with ringHdr := put c.ringHdr i h })

/-- RINJ (R388). -/
def rinjBody (cap : Nat) (off : State → Int) (hdr : State → Word) (o : State → Order) : Body' := fun s =>
  match s.core.act with
  | none => .ok s
  | some a => do
    let w := hdr s
    let fam := bit w 26
    let tag := fld w 15 0
    let laps := fld w 21 16
    let fmt := fld w 25 22
    let q := { Ask.load cap with answers := false }
    if fld w 63 27 ≠ 0 ∨ laps = 0 then throw (.illegal 6)
    let _ ← s.ringReady
    let c := s.core
    let live (r : Word) : Bool := recLive r && recFam r == fam && recTag r == tag
    if !ringFormats.contains fmt ∨ c.inject.toList.any live then throw s.ringStop
    let addr ← s.checkCap q (s.c cap) (off s) 2048
    if addr % 64 ≠ 0 then throw (q.fault .align (off s))
    if (s.c cap).space ≠ 1 then throw (q.fault .capperm (off s))
    match s.storeTile c (addr / 2 ^ 19), s.homeTile c with
    | some t, some home =>
      if t ≠ home ∨ addr / 2 ^ 19 ≠ (addr + 2047) / 2 ^ 19 then throw (q.fault .capperm (off s))
      let offset := addr % 2 ^ 19
      let tile := s.getTile t
      if [offset / 65536, (offset + 2047) / 65536].any (fun seg => decide (2 ≤ segMode (tile.seg seg))) then
        throw (q.fault .capperm (off s))
      if !s.gone (o s).after then throw .wait
      if !tile.isFull offset 2048 then throw .wait
      if s.openSlots c fam < 2 then throw .wait
      match c.freeSlots fam, (List.range 16).find? (fun i => !recLive (at_ c.inject i 0)) with
      | i :: _, some r =>
        let p : Part := { owner := .tile t offset, space := 1, addr, phys := addr, place := 0, size := 2048, pkind := 1, key := 0, tags := true,
                          spliced := false }
        match s.readPart a p with
        | .error (.stop st) => throw st
        | .error (.miss _ _) => throw .wait
        | .ok (bytes, s) =>
          let h := makeHdr fam c.opnum laps fmt tag c.name
          let s := s.fillSlot c.psn i 1 h bytes
          return (s.mapCore (fun c => { c with
            inject := put c.inject r (makeRec fam c.opnum laps fmt tag (c.homeStore.toNat * 2 ^ 19 + offset)) })).leaveTokens (o s) []
      | _, _ => throw .wait
    | _, _ => throw (q.fault .capperm (off s))

/-- The accumulators that a member's live entries name, as a mask. -/
def Core.namedAccs (c : Core) : BitVec 4 :=
  (List.range 64).foldl (fun m j => if mLive (c.entry j) then m ||| BitVec.ofNat 4 (2 ^ mAcc (c.entry j)) else m) 0
/-- The entries that a seal counts: those still to fire. -/
def Core.armedCount (c : Core) : Nat := ((List.range 64).filter (fun j => mLive (c.entry j))).length
/-- The seal of one member (R214). -/
def State.seal (s : State) (p : Psn) : State :=
  let c := s.getCore p
  let mask := c.namedAccs
  let s := s.putCore { c with
    sealed := true, ringClaims := mask
    acc := Vector.ofFn (fun i : Fin 4 => if mask.getLsbD i.val then Acc.zero else at_ c.acc i.val Acc.zero) }
  s.launchItem (.seal (psnRegion p) c.ringNumber c.memberIndex c.armedCount)

/-- RJOIN (R389). -/
def rjoinBody (d : Nat) : Body' := fun s => do
  let _ ← s.ringReady
  let c := s.core
  if c.sealed then throw s.ringStop
  if c.leasePend ∨ c.namedAccs &&& s.foreignClaims c ≠ 0 then throw .wait
  let s := (s.seal c.psn).mapAct (fun a => { a with claims := a.claims &&& ~~~ c.namedAccs })
  return s.setG d (BitVec.ofNat 64 (c.armedCount + c.opnum * 2 ^ 8))

/-- The name of the member that injected a tile of the current operation; a request that finds none goes to the asker (R211, R213). -/
def State.injectorOf (s : State) (r : Ring) (c : Core) (w : Bool) (tag : Nat) : BitVec 24 :=
  match r.members.find? (fun p => (s.getCore p).inject.toList.any (fun x => recLive x && recFam x == w && recTag x == tag)) with
  | some p => (s.getCore p).name
  | none => c.name
/-- A relight request with its reserved slot (R211). -/
def State.askRelight (s : State) (r : Ring) (p : Psn) (j : Nat) (w : Bool) (slot : Nat) : State :=
  let c := s.getCore p
  let m := c.entry j
  (s.putCore ((c.setSlotState slot 3).setEntry j (setSlot m w slot))).launchItem
    (.relight p w (BitVec.ofNat 16 (mTag m w)) (BitVec.ofNat 7 c.opnum) (s.injectorOf r c w (mTag m w)) slot)

/-- RELIGHT (R390). -/
def relightBody (d j : Nat) : Body' := fun s => do
  let r ← s.ringReady
  let c := s.core
  let m := c.entry j
  if mState m ≠ 1 ∧ mState m ≠ 3 then return s.setG d 0
  let missing := [false, true].filter (fun w => (c.residentAt w (mTag m w)).isNone)
  if missing = [] then return s.setG d 0
  if missing.any (fun w => (s.reservable c w).isNone) then throw .wait
  let s := missing.foldl (fun s w => s.askRelight r c.psn j w ((s.reservable c w).getD 0)) s
  return (s.mapCore (fun c => c.setEntry j (setMState (c.entry j) 4))).setG d (BitVec.ofNat 64 missing.length)

/-- The seals of a ring on their way to the origin. -/
def State.dropSeals (s : State) (region : Nat) (r : Ring) : State :=
  { s with flight := s.flight.filter (fun i => match i.body with
      | .seal g n _ _ => !(g == region && n == r.number)
      | _ => true) }

/-- RDRAIN (R391): every member acts at once, and what has been sealed goes; it waits while completions are on their way. -/
def rdrainBody (d : Nat) : Body' := fun s =>
  match s.ringOf s.core with
  | none => .error s.ringStop
  | some r =>
    let st := s.core.ringState
    if st = 1 ∨ st = 2 then .error s.ringStop
    else if s.ringCompleting r then .error .wait
    else
      let s := ((s.dropRelights r).dropSeals (psnRegion s.core.psn) r).modMembers r (fun c => ({ (c.emptySlots.releaseRing) with
        matches_ := Vector.replicate 64 0, inject := Vector.replicate 16 0 } : Core).nextOp 0 (opCancels c.ringOp))
      .ok (s.setG d (BitVec.ofNat 64 st))

/-- RLEAVE (R392). -/
def rleaveBody (d : Nat) : Body' := fun s =>
  match s.ringOf s.core with
  | none => .error s.ringStop
  | some r =>
    let c := s.core
    if c.ringState ≠ 0 ∨ (List.range 64).any (fun j => mState (c.entry j) != 0) ∨ c.inject.toList.any recLive ∨ r.leavers.contains c.psn then
      .error s.ringStop
    else
      let r := { r with leavers := r.leavers ++ [c.psn] }
      let left := r.members.length - r.leavers.length
      let region := psnRegion c.psn
      .ok ((if left = 0 then s.dissolveRing region r else s.putRing region r).setG d (BitVec.ofNat 64 left))

/-- RSTAT (R393). -/
def rstatBody (d sel : Nat) : Body' := fun s =>
  let c := s.core
  let count (n : Nat) : Nat := ((List.range 64).filter (fun j => mState (c.entry j) == n)).length
  match s.ringOf c with
  | none => .ok (s.setG d (if sel = 0 then c.ringMember else 0))
  | some r =>
    match sel with
    | 0 => .ok (s.setG d c.ringMember)
    | 1 =>
      let id := s.nextId
      .ok ((s.launchItem (.ringOp c.psn d (s.getCore r.origin).ringOp)).setPending (.g d) id)
    | 2 => .ok (s.setG d c.ringSlotsWord)
    | _ => .ok (s.setG d (BitVec.ofNat 64 (count 1 + count 2 * 2 ^ 8 + count 3 * 2 ^ 16 + count 4 * 2 ^ 24 +
        (c.inject.toList.filter recLive).length * 2 ^ 32)))

def execRjoin (x : Long) (s : State) : Out := issueL Shape.rjoin x (rjoinBody x.d.toNat) s
def execRleave (x : Long) (s : State) : Out := issueL Shape.rleave x (rleaveBody x.d.toNat) s
def execRmset (x : Long) (s : State) : Out := issueL Shape.rmset x (rmsetBody x) s
def execRmclr (x : Long) (s : State) : Out := issueL Shape.rmclr x (rmclrBody (fun s => (entryNumber x s).map (fun j => [j]))) s
def execRmclrAll (x : Long) (s : State) : Out := issueL Shape.rmclrAll x (rmclrBody (fun _ => .ok (List.range 64))) s
def execRinj (x : Long) (s : State) : Out := issueM Shape.rinj x
  (rinjBody x.a.toNat (fun s => s.offset x.b.toNat 0) (fun s => s.g x.c.toNat) x.order) s
def execRdrain (x : Long) (s : State) : Out := issueL Shape.rdrain x (rdrainBody x.d.toNat) s
def execRstat (x : Long) (s : State) : Out := issueL Shape.rstat x (rstatBody x.d.toNat x.hi.toNat) s
def execRelight (x : Long) (s : State) : Out := issueL Shape.relight x (relightBody x.d.toNat x.hi.toNat) s

end Sys2Proof.Machine
end

