-- ==== Sys2Proof/Machine/Net.lean ====
section
/-! DEFINITION. Names and the directory (01 R24, R27, R28), and what happens to a message on its way: learning, bounces, tombstones,
notifications (01 R29 to R33, 07 R184). The steps themselves stand in Machine/NetEvents.lean. -/
namespace Sys2Proof.Machine
open Sys2Proof

/-! The directory. -/

/-- A change of name that the Lantern accepts (R27): the name is no other live core's and no tombstone's, no agent's, and has the region's
prefix; the null name is exempt (R24). -/
def State.nameOk (s : State) (region : Nat) (p : Psn) (n : BitVec 24) : Bool :=
  n == nullName || ((match s.holder region n with
      | some q => q == p
      | none => true) && (s.tombFor region n).isNone && !isAgentName n && fld n 17 0 != 0x3FFFF &&
    fld n 23 18 == (s.getRegion region).namePrefix.toNat)
/-- A change of name under the conditions of NAMESET (R298): whether it was made, and the state. -/
def State.rename (s : State) (region : Nat) (p : Psn) (n : BitVec 24) : Bool × State :=
  let c := s.getCore p
  if isGridCore p && psnRegion p == region && decide (psnIndex p < 288) && c.live && c.act.isNone && s.nameOk region p n then
    (true, s.putCore { c with name := n })
  else (false, s)

/-- The default name of the core that a logical core maps onto (R24). -/
def State.defaultName (s : State) (region n : Nat) : BitVec 24 := s.fullName region (region * 256 + n)
/-- Every mapped core of a region gets its default name, every other core the null name (R28). -/
def State.defaultNames (s : State) (region : Nat) : State :=
  (List.range 288).foldl (fun s i =>
    let p := corePsn region i
    let n := match s.logicalOf p with
      | some k => s.defaultName region k
      | none => nullName
    s.modCore p (fun c => { c with name := n, namePrefix := (s.getRegion region).namePrefix })) s

/-! Bounces (R32). -/

/-- A message goes back to its source with a reason in its first payload byte. -/
def State.bounce (s : State) (id : Nat) (m : Msg) (reason : Nat) : State :=
  let by_ := if m.stage = .lantern then lanternPsn m.region 0 else m.tile
  s.setItem id (.message { m with stage := .bounced, reason, payload := BitVec.ofNat 8 reason :: m.payload.drop 1, tile := by_ })
/-- DETAIL of BOUNCE (R415): the header, the reason, the unit that bounced it, and whether it was a counter post or a direct write. -/
def bounceDetail (m : Msg) : BitVec 256 :=
  BitVec.ofNat 256 (m.header + m.reason * 2 ^ 64 + m.tile * 2 ^ 72 + (decide (m.handle = 31)).toNat * 2 ^ 96)
/-- A message is over; the token of a post it stands for is satisfied. -/
def State.finish (s : State) (id : Nat) (m : Msg) : State := (s.dropItem id).dropItem m.acks
/-- The actor number of the graph on a core, for messages against the graph. -/
def State.actorOn (s : State) (p : Psn) : Nat :=
  ((s.graphOn p).bind (fun g => (g.actors.find? (fun a => a.2.1 == p)).map (·.1))).getD 0
/-- A fault against the graph from a core (R414). -/
def State.coreNotice (s : State) (p : Psn) (code : Code) (detail : BitVec 256) : State := s.graphFault p code (s.ctxOf p) (s.actorOn p) detail
/-- Whether a core has room for one more fault message (R416). -/
def State.canNotice (s : State) (p : Psn) : Bool := decide ((s.getCore p).unsent.length < 4)

/-- Whether an engine may read bytes: an error that cannot be corrected is reported from a core that has room for the message (R76, R416). -/
def State.canRead (s : State) (p : Psn) (key n : Nat) : Bool := !s.spoiled key n || s.canNotice p
/-- An engine has read bytes: corrected errors count, and one that cannot be corrected is reported against the graph from a core; the bytes go on as they
are (R76, R79, log entry 114). -/
def State.readFor (s : State) (p : Psn) (key place n : Nat) : State :=
  let t := s.noteRead key n
  if s.spoiled key n then t.coreNotice p .eccfatal (eccDetail place 0) else t
/-- An engine of a core has read bytes of LOCAL (R76). -/
def State.engineRead (s : State) (p : Psn) (addr n : Nat) : State := s.readFor p (localKey p addr) addr n
/-- The core that reports what the Lantern meets in a tile: the first of the graph whose image names the tile. -/
def State.tileParty (s : State) (t : Psn) : Psn :=
  ((s.graphs.find? (fun g => g.stat != 0 && g.stores.any (fun x => (s.getRegion x.1).storeAt x.2 == some t))).bind (fun g =>
    (g.actors.map (fun a => a.2.1)).head?)).getD 0
/-- The Lantern has read bytes of a tile. -/
def State.tileRead (s : State) (t : Psn) (off n : Nat) : State := s.readFor (s.tileParty t) (tileKey t off) off n
def State.canReadTile (s : State) (t : Psn) (off n : Nat) : Bool := s.canRead (s.tileParty t) (tileKey t off) n

/-- Fault messages that were kept go out as the service core's inbox has room (R416). -/
def State.sendUnsent (s : State) (region : Nat) : State :=
  (s.coresIn region).foldl (fun s c => c.unsent.foldl (fun s _ =>
    match (s.getCore c.psn).unsent with
    | (payload, dest) :: rest =>
      if s.inboxRoom region then
        (s.modCore c.psn (fun c => { c with unsent := rest })).launchItem (.message (message c.psn region c.name dest 30 payload))
      else s
    | [] => s) s) s

/-! Routers (R29, R30). -/

/-- The live entry of a name. -/
def Router.lookup (r : Router) (now : Nat) (n : BitVec 24) : Option Nat :=
  (r.table.find? (fun e => e.2.1 == n && routerLive now e.2.2)).map (·.1)
/-- A source name is learned: its own entry, an absent one, or the one with the oldest refresh time. Of two arrivals of one cycle the lower port
wins. Which absent entry a new name takes is the model's choice (log entry 123): a place never used, then the first aged-out one. -/
def Router.learn (r : Router) (now port : Nat) (n : BitVec 24) : Router :=
  if isAgentName n || n == nullName then r
  else if r.table.any (·.2.1 == n) then { r with table := r.table.map (fun e =>
    if e.2.1 == n && !(e.2.2 == now && decide (e.1 < port)) then (port, n, now) else e) }
  else if r.table.length < 256 then { r with table := r.table ++ [(port, n, now)] }
  else
    let absent := r.table.findIdx? (fun e => !routerLive now e.2.2)
    let oldest := r.table.foldl (fun t e => min t e.2.2) now
    let place := absent.getD ((r.table.findIdx? (fun e => e.2.2 == oldest)).getD 0)
    { r with table := r.table.set place (port, n, now) }
/-- The identity of a flood (R30). -/
def Msg.identity (m : Msg) : BitVec 24 × Nat × BitVec 16 := (m.name, m.handle, m.seq)
def Router.noteFlood (r : Router) (m : Msg) : Router := { r with floods := (r.floods ++ [m.identity]).drop (r.floods.length + 1 - 32) }

/-- The port on the way to the first store tile of row 0 (R26). -/
def portHome (t : Psn) : Nat := if 0 < posY t then 4 else 1
/-- The store tiles of row 0, which the Lantern's port joins (R17). -/
def isGate (t : Psn) : Bool := isTile t && posY t == 0
/-- The live exchange bank nearest to a tile, ties going to the lower walk position (R26). -/
def State.nearestBank (s : State) (t : Psn) : Option Psn :=
  let banks := ((List.range 46).map (fun e => tilePsn (psnRegion t) (walkTile e))).filter (fun b => (s.getTile b).live && !(s.getTile b).withdrawn)
  banks.foldl (fun best b => match best with
    | some a => if distance t b < distance t a then some b else some a
    | none => some b) none
/-- A port on a shortest path to a tile, over a link in service where there is one. -/
def State.portTo (s : State) (t b : Psn) : Nat :=
  let ways := (if posX t < posX b then [1] else if posX b < posX t then [3] else []) ++
    (if posY t < posY b then [2] else if posY b < posY t then [4] else [])
  (ways.find? (fun p => !(s.getRouter t).cut.contains p)).getD (ways.headD 0)
/-- The low 18 bits of a name that belongs to DRAM actor `n` (R25). -/
def actorOfName (n : BitVec 24) : Option Nat :=
  let low := fld n 17 0
  if 0x3FFC0 ≤ low ∧ low ≤ 0x3FFDF then some (low - 0x3FFC0) else none
/-- The core that an agent name stands for (R18, R25): the sequencer, service or secure core of the region's Lantern, or the host-service core of its
quadrant. -/
def agentCore (region : Nat) (n : BitVec 24) : Option Psn :=
  match fld n 17 0 with
  | 0x3FFF0 => some (lanternPsn region 0)
  | 0x3FFF1 => some (lanternPsn region 1)
  | 0x3FFF3 => some (lanternPsn region 4)
  | 0x3FFF8 => some (hostPsn (quadrantOf region))
  | _ => none

/-! Notifications (R184). -/

/-- The first 32 bytes of a notification. -/
def notification (kind tsc unit mid last : Nat) : List Byte := leBytes 8 kind ++ leBytes 8 tsc ++ leBytes 4 unit ++ leBytes 4 mid ++ leBytes 8 last
/-- A notification to a core from an agent; a core that hosts no actor is sent none. One addressed to a parked graph's core is held
(R420). -/
def State.notify (s : State) (src : Psn) (sender : BitVec 24) (p : Psn) (payload : List Byte) : State :=
  match s.graphOn p with
  | none => s
  | some g =>
    if g.stat = 3 then s.putGraph { g with heldNotes := g.heldNotes ++ [(p, payload)] }
    else s.launchItem (.message (message src (psnRegion p) sender (s.getCore p).name 19 payload))

/-! Channels (R31, R94). -/

/-- The producer index of a source on a handle. -/
def Core.producerOf (c : Core) (h : Nat) (n : BitVec 24) : Option Nat := (c.producers h).findIdx? (·.name == n)
def Core.expected (c : Core) (h : Nat) (n : BitVec 24) : BitVec 16 :=
  ((c.chans.find? (fun x => x.handle == h && x.name == n)).map (·.expect)).getD 0
def Core.advance (c : Core) (h : Nat) (n : BitVec 24) : Core :=
  { c with chans := c.chans.map (fun x => if x.handle == h && x.name == n then { x with expect := x.expect + 1 } else x) }

/-- The reason for which a core bounces an arrival for its own name (R92, R184, R424); none when it is taken. A snuffed core takes
notifications, fault messages and load-store replies. -/
def State.bounceReason (s : State) (p : Psn) (m : Msg) : Option Nat :=
  let c := s.getCore p
  let q := c.queue m.handle
  let agent := isAgentName m.name
  if 20 ≤ m.handle ∧ m.handle ≤ 28 then some 4
  else if m.handle = 29 ∨ m.handle = 30 then none
  else if m.handle = 19 then (if agent && (!hValid (c.handler 19) || c.queueOk.getLsbD 19) then none else some 4)
  else if c.snuffed then some 2
  else if m.handle = 31 then (if 48 ≤ numAt m.payload 8 1 % 128 then some 4 else none)
  else if !c.queueOk.getLsbD m.handle then some 4
  else if m.reply then (if qMerge q = 0 then none else some 4)
  else if (c.producerOf m.handle m.name).isNone then some 4
  else if !m.eos ∧ m.payload.length ≠ qSlotBytes q then some 3 else none

end Sys2Proof.Machine
end

