-- ==== Sys2Proof/Machine/Rows.lean ====
section
/-! DEFINITION. What a DRAM actor does with its hold slots besides requests (04 R120, R125 to R127): expiry, parking, release, and the move of a
channel. -/
namespace Sys2Proof.Machine
open Sys2Proof

/-- The core that holds a slot's owner name in a context. -/
def State.slotOwner (s : State) (w : BitVec 128) : Option Psn :=
  (List.range 80).findSome? (fun r => (s.holder r (slotName w)).filter (fun p => s.ctxOf p == slotCtx w))

/-- A row-lease-expiry notification (R120, R184). -/
def rowNote (handle row reason tsc : Nat) : List Byte :=
  leBytes 8 2 ++ leBytes 8 tsc ++ leBytes 2 handle ++ leBytes 2 row ++ leBytes 2 (row / 2 ^ 16 % 2 ^ 15) ++ leBytes 1 reason ++ leBytes 9 0

/-- A slot is freed as ROWREL frees it; the owner of a kept line is told (R120, R126). -/
def State.expireSlot (s : State) (stack chan slot reason : Nat) : State :=
  let a := s.getActor stack
  match a.findSlot chan slot with
  | none => s
  | some w =>
    let t := s.putActor (a.freeSlot chan slot)
    if !slotKeep w then t
    else match s.slotOwner w with
    | none => t
    | some p => t.notify (actorPsn stack) (s.fullName (psnRegion p) (0x3FFC0 + stack)) p
        (rowNote (stack * 2 ^ 11 + chan * 2 ^ 6 + slot) (fld w 30 0) reason s.tsc.toNat)

def State.mapActors (s : State) (f : Actor → Actor) : State := { s with actors := s.actors.map f }

/-- At pre-emption the drop lines of a context are freed and its kept lines parked: their rows close unless a line that is not parked keeps
them (R127). -/
def Actor.park (a : Actor) (ctx : Nat) : Actor :=
  let slots := (a.slots.filter (fun x => slotCtx x.2.2 != ctx || slotKeep x.2.2)).map (fun x =>
    if slotCtx x.2.2 = ctx then (x.1, x.2.1, setBit x.2.2 61 true) else x)
  let rowsOf (p : Bool) : List (Nat × Nat × Nat × Nat) :=
    (slots.filter (fun x => slotKeep x.2.2 && slotParked x.2.2 == p)).map (fun x =>
      let row := slotRow x.2.2
      (x.1, dramBank row, dramSub row, dramRow row))
  { a with slots, rows := a.rows.filter (fun r => !(rowsOf true).contains r || (rowsOf false).contains r) }
/-- At resume the parked lines are active again (R127). -/
def Actor.unpark (a : Actor) (ctx : Nat) : Actor :=
  a.slots.foldl (fun a x =>
    if slotCtx x.2.2 = ctx ∧ slotParked x.2.2 then
      (a.setSlot x.1 x.2.1 (setBit x.2.2 61 false)).activate (slotRow x.2.2 % 2 ^ 15 + x.1 * 2 ^ 15 + slotRow x.2.2 / 2 ^ 20 * 2 ^ 20)
    else a) a
/-- A killed graph's slots are freed without notifications (R423). -/
def Actor.drop (a : Actor) (ctx : Nat) : Actor :=
  a.slots.foldl (fun a x => if slotCtx x.2.2 = ctx then a.freeSlot x.1 x.2.1 else a) a

/-- A logical channel moves to another physical one (R106, R125): CHAN_MAP changes, the kept rows are active in the spare, slots and
handles stay. Addresses name logical channels, so no byte has another address. -/
def Actor.moveChannel (a : Actor) (chan spare : Nat) (retire : Bool) : Actor :=
  let old := (at_ a.chanMap chan 0).toNat
  let kept := (a.slots.filter (fun x => x.1 == chan && slotKeep x.2.2 && !slotParked x.2.2)).map (fun x =>
    let row := slotRow x.2.2
    (chan, dramBank row, dramSub row, dramRow row))
  { a with chanMap := put a.chanMap chan (BitVec.ofNat 8 spare)
           chanState := put (put a.chanState old (if retire then 5 else 4)) spare 0
           rows := a.rows.filter (·.1 != chan) ++ kept.eraseDups }

end Sys2Proof.Machine
end

