-- ==== Sys2Proof/Machine/Moves.lean ====
section
/-! DEFINITION. Moving what a core or a tile holds to another one (15 R408 to R413, 02 R72), and forming a ring again (08 R200, R202). -/
namespace Sys2Proof.Machine
open Sys2Proof

/-! Rings. -/

/-- A ring can be formed of 4 to 48 different cores when every pair of consecutive members are diagonal neighbours with a live link (R200). `dead` says which links are
withdrawn. -/
def ringFormable (dead : Psn → Psn → Bool) (members : List Psn) : Bool :=
  decide (4 ≤ members.length ∧ members.length ≤ 48) && decide members.Nodup &&
    (members.zip (members.drop 1 ++ members.take 1)).all (fun x => (diagonalDir x.1 x.2).isSome && !dead x.1 x.2)

/-- The unit word of a ring link (R427). -/
def ringLinkUnit (a b : Psn) : BitVec 32 :=
  BitVec.ofNat 32 (5 * 2 ^ 28 + (diagonalDir (min a b) (max a b)).getD 0 * 2 ^ 24 + min a b)
/-- A link that is retired or under test is not live. -/
def State.linkDead (s : State) (u : BitVec 32) : Bool :=
  s.isRetired u || (s.getRouter (fld u 23 0)).cut.contains (5 + fld u 27 24) || s.regions.any (fun r => r.leases.any (fun l => leaseUnit l == u && decide (3 ≤ leaseState l ∧ leaseState l ≤ 6)))
def State.canForm (s : State) (members : List Psn) : Bool :=
  ringFormable (fun a b => s.linkDead (ringLinkUnit a b)) members && members.all (fun p => (s.getCore p).live)

/-- RING_MEMBER of member m (R202). -/
def ringMemberWord (ring m : Nat) (members : List Psn) (origin : BitVec 24) : Word :=
  let n := members.length
  let me := members.getD m 0
  let dir (i : Nat) : Nat := (diagonalDir me (members.getD (i % n) 0)).getD 0
  BitVec.ofNat 64 (2 ^ 63 + ring * 2 ^ 58 + m * 2 ^ 52 + (n - 1) * 2 ^ 46 + dir (m + 1) * 2 ^ 44 + dir (m + n - 1) * 2 ^ 42 + origin.toNat)

/-- The Lantern forms a ring: every member's RING_MEMBER is written (R200, R202); LEASE_PEND is kept. -/
def State.formRing (s : State) (region : Nat) (r : Ring) : State :=
  let origin := (s.getCore r.origin).name
  let s := r.members.zipIdx.foldl (fun s x => s.modCore x.1 (fun c =>
    { c with ringMember := setBit (ringMemberWord r.number x.2 r.members origin) 41 r.leaseAt.isSome })) s
  s.putRing region { r with formed := true }
/-- After a change the ring is formed again, or stays cancelled in STATE 2 until it can be (R413, R218). -/
def State.reform (s : State) (region : Nat) (r : Ring) : State :=
  if s.canForm r.members then s.formRing region r
  else (s.putRing region { r with formed := false }).modMembers r (fun c => if c.ringState < 2 then setOpState 2 c else c)
/-- Whether two cores are consecutive members of a ring, whose tiles cross the link between them (R200). -/
def Ring.joins (r : Ring) (a b : Psn) : Bool :=
  (r.members.zip (r.members.drop 1 ++ r.members.take 1)).any (fun x => x == (a, b) || x == (b, a))
/-- A ring link carries no tiles of a ring any longer: the rings over it are not formed (R436, R102). -/
def State.unform (s : State) (a b : Psn) : State :=
  (s.getRegion (psnRegion a)).rings.foldl (fun s r =>
    if r.joins a b then s.putRing (psnRegion a) { r with formed := false } else s) s

/-- The port of a member core on which it sends a family's tiles (R201, R202). -/
def Core.ringPort (c : Core) (w : Bool) : Nat := 5 + (if w then fld c.ringMember 43 42 else fld c.ringMember 45 44)
/-- The transfers of a tile (R201). -/
def tileTransfers : Nat := 16
/-- The member that a tile on its way comes from. -/
def RingTile.from_ (t : RingTile) (r : Ring) : Psn :=
  let n := r.members.length
  r.members.getD ((t.member + (if hdrFam t.header then 1 else n - 1)) % n) r.origin
/-- A tile has left its channel: its transfers are freed (R101). -/
def State.landTile (s : State) (r : Ring) (t : RingTile) : State :=
  let c := s.getCore (t.from_ r)
  s.release c.psn (c.ringPort (hdrFam t.header)) (hdrFam t.header).toNat tileTransfers
/-- Whether a tile is on the channel between two members. -/
def State.crosses (s : State) (t : RingTile) (a b : Psn) : Bool :=
  match s.ringAt t.region t.ring with
  | some r =>
    let p := t.from_ r
    let q := r.members.getD t.member r.origin
    (p == a && q == b) || (p == b && q == a)
  | none => false
/-- A ring link is withdrawn. -/
def State.cutRing (s : State) (tile : Psn) (port : Nat) : State :=
  let e := linkEnd tile port
  let r := s.getRouter e.1
  (s.putRouter e.1 { r with cut := r.cut ++ [e.2] }).unform tile ((diagonal tile (port - 5)).getD tile)

/-! A core's actor. -/

/-- HOLD on every valid entry; entries queued but not started are withdrawn with ACTIVE cleared, offers go back to the home tile (R409). A
start firing keeps its place. -/
def State.holdActor (s : State) (p : Psn) : State :=
  let c := s.getCore p
  let out := c.runq.filter (fun r => r.cont.isNone && r.start.isNone)
  let c' := out.foldl (fun c r => c.setActive r.entry false) { c with
    handlers := c.handlers.map (fun h => if hValid h then setBit h 126 true else h)
    runq := c.runq.filter (fun r => r.cont.isNone && r.start.isSome) }
  let s := s.putCore c'
  c.runq.foldl (fun s r => match r.cont with
    | some (t, i) => s.modTile t (fun tile => { tile with records := tile.records.map (fun x =>
        if x.index = i then { x with offered := x.offered.filter (· != p) } else x) })
    | none => s) s
/-- The former HOLD bits of the valid entries. -/
def Core.holds (c : Core) : BitVec 20 :=
  BitVec.ofNat 20 ((List.range 20).foldl (fun n e => n + (hHold (c.handler e)).toNat * 2 ^ e) 0)
/-- HOLD as it was before the move. -/
def Core.restoreHolds (c : Core) (holds : BitVec 20) : Core :=
  { c with handlers := Vector.ofFn (fun e : Fin 20 => setBit (c.handler e.val) 126 (holds.getLsbD e.val)) }

/-- FROM has drained (R409). -/
def State.actorDrained (s : State) (p : Psn) : Bool :=
  let c := s.getCore p
  c.act.isNone && c.streams.toList.all (fun x => match x with
    | some st => !st.bound
    | none => true) && c.drains.isEmpty && c.copies.toList.all (·.queue.isEmpty) && (s.accessesOf p).isEmpty

/-- What an item in flight becomes when a core's actor moves: arrivals kept at FROM are forwarded by its tombstone. -/
def moveItem (src dst : Psn) (i : Item) : Item :=
  match i.body with
  | .message m =>
    if m.tile ≠ src then i
    else if m.stage = .stash then { i with body := .message { m with stage := .local, port := 0 } }
    else if m.stage = .accepted then { i with body := .message { m with tile := dst } } else i
  | .credit p h n => if p = src then { i with body := .credit dst h n } else i
  | .directWrite a => if a.core = src then { i with body := .directWrite { a with core := dst } } else i
  | .completion p => if p = src then { i with body := .completion dst } else i
  | .relight p f t n x k => if p = src then { i with body := .relight dst f t n x k } else i
  | .relit p k h d => if p = src then { i with body := .relit dst k h d } else i
  | .contribution r t p k op ty rm sat v ws => if p = src then { i with body := .contribution r t dst k op ty rm sat v ws } else i
  | _ => i

/-- The core that takes over: what R409 copies, under TO's own physical identity. -/
def takeOver (c d : Core) : Core :=
  { d with
    handlers := c.handlers, queues := c.queues, queueOk := c.queueOk, endOwed := c.endOwed, chans := c.chans, arrivals := c.arrivals
    turns := c.turns, stash := [], staged := c.staged, moved := c.moved, q := c.q, runq := c.runq, acc := c.acc, ringClaims := c.ringClaims
    matches_ := c.matches_, inject := c.inject, ringMember := c.ringMember, ringOp := c.ringOp, ringHdr := c.ringHdr, ringSlot := c.ringSlot
    ringCome := c.ringCome, firings := c.firings, sealed := c.sealed, reinject := c.reinject, oppositeAt := c.oppositeAt, credRound := c.credRound, name := c.name
    homeStore := c.homeStore }
/-- What stays at a core without its actor; a parked graph keeps its names (R420), and no counter falls (R185). -/
def vacated (name : BitVec 24) (c : Core) : Core :=
  { (Core.reset c.psn) with
    name, logical := c.logical, namePrefix := c.namePrefix, q := c.q, snuff := c.snuff
    unsent := c.unsent, tileClk := c.tileClk, energy := c.energy, itlb := c.itlb, dtlb := c.dtlb, live := c.live, diag := c.diag }

/-- A graph whose actor has another core. -/
def Graph.rehost (src dst : Psn) (g : Graph) : Graph :=
  let at_ (p : Psn) : Psn := if p = src then dst else p
  { g with actors := g.actors.map (fun a => (a.1, at_ a.2.1, a.2.2)), unarmed := g.unarmed.map at_ }
/-- Steps 3 to 5 of R409, and R124 and R413: local memory, registers and the name go to TO, FROM is a tombstone, the ring is formed again. -/
def State.moveActor (s : State) (src dst : Psn) : State :=
  let region := psnRegion src
  let s := s.engineRead src 0 0x18000
  let c := s.getCore src
  let ring := s.ringOf c
  let s := s.copyTagged (localKey src 0) (localKey dst 0) 0x18000
  let s := s.copyTagged (localKey src 0x18000) (localKey dst 0x18000) 0x4000
  let s := (s.putCore (takeOver c (s.getCore dst))).putCore (vacated nullName c)
  let at_ (p : Psn) : Psn := if p = src then dst else p
  let s := { s with flight := s.flight.map (moveItem src dst), graphs := s.graphs.map (Graph.rehost src dst) }
  let tomb : Tomb := { core := src, name := c.name, target := dst, until_ := s.tsc.toNat + (s.getRegion region).tombWindow.toNat
                       next := [], marked := [] }
  let s := s.modRegion region (fun r => { r with
    tombs := if c.name = nullName then r.tombs
      else (r.tombs.filter (·.core != src)).map (fun t => { t with target := at_ t.target }) ++ [tomb] })
  let s := match s.homeTile (s.getCore dst) with
    | some t => s.modTile t (fun t => { t with records := t.records.map (fun r => { r with src := at_ r.src, offered := r.offered.filter (· != src) }) })
    | none => s
  match ring with
  | none => s
  | some r => s.reform region { r with members := r.members.map at_, leavers := r.leavers.map at_ }

/-- The logical coordinate of one core is pointed at another (R20, R435). -/
def State.remapCore (s : State) (src dst : Psn) : State :=
  match s.logicalOf src with
  | none => s
  | some n =>
    let l := (s.getCore src).logical
    let s := s.modRegion (psnRegion src) (fun r => { r with lmapCore := put r.lmapCore n (BitVec.ofNat 16 (0x8000 + psnIndex dst)) })
    (s.modCore src (fun c => { c with logical := 0x7FFF })).modCore dst (fun c => { c with logical := l })
/-- MOVING of the logical core on a physical one (R28). -/
def State.setMoving (s : State) (p : Psn) (b : Bool) : State :=
  match s.logicalOf p with
  | none => s
  | some n => s.modRegion (psnRegion p) (fun r => { r with lmapCore := put r.lmapCore n (setBit (at_ r.lmapCore n 0) 14 b) })

/-! A store tile or exchange bank (R72, log entry 87): its blocks are copied one by one, the map is pointed at the spare, the accesses on their way are waited
for, the source is withdrawn. An access that comes later is answered GONE (R73). -/

/-- Run-queue entries name the record where it now is. -/
def Core.retile (c : Core) (src dst : Psn) : Core :=
  { c with runq := c.runq.map (fun r => match r.cont with
      | some (t, i) => if t = src then { r with cont := some (dst, i) } else r
      | none => r) }
def retileItem (src dst : Psn) (i : Item) : Item :=
  match i.body with
  | .access a => match a.owner with
    | .tile t off => if t = src ∧ a.stage = .fifoHeld then { i with body := .access { a with owner := .tile dst off } } else i
    | _ => i
  | _ => i
/-- The map entry of a tile: SPLICING (R28), or the unit it names. -/
def State.mapTile (s : State) (src : Psn) (store : BitVec 16 → BitVec 16) (bank : BitVec 8 → BitVec 8) : State :=
  match s.storeOf src with
  | some n => s.modRegion (psnRegion src) (fun r => { r with lmapStore := put r.lmapStore n (store (at_ r.lmapStore n 0)) })
  | none => match s.exchangeOf src with
    | some k => s.modRegion (psnRegion src) (fun r => { r with exbMap := put r.exbMap k (bank (at_ r.exbMap k 0)) })
    | none => s
def State.putEvac (s : State) (e : Evac) : State := s.modRegion (psnRegion e.source) (fun r => { r with evacs := upsert r.evacs (·.source == e.source) e })
/-- Step 1: the tile is marked as a splice source. -/
def State.startEvac (s : State) (src dst : Psn) : State :=
  (s.mapTile src (fun w => setBit w 14 true) (fun w => setBit w 6 true)).putEvac { source := src, target := dst, done := 0, waits := none }
/-- Step 2: one 64-byte block, with its tags. -/
def State.evacBlock (s : State) (e : Evac) : State :=
  let o := 64 * e.done
  ((s.tileRead e.source o 64).copyTagged (tileKey e.source o) (tileKey e.target o) 64).putEvac { e with done := e.done + 1 }
/-- The accesses on their way to a tile: those that its core no longer holds back. -/
def State.onWay (s : State) (t : Psn) : List Nat :=
  (s.flight.filter (fun i => match i.body with
    | .access a => (match a.owner with
      | .tile p _ => p == t
      | _ => false) && (a.stage == .sent || (a.stage == .held && s.gone a.deps))
    | _ => false)).map (·.id)
/-- Step 3: the map names the spare, which takes the tile's registers, records and waiting accesses. -/
def State.evacMap (s : State) (e : Evac) : State :=
  let t := s.getTile e.source
  let d := s.getTile e.target
  let place := ((List.range 46).find? (fun i => walkTile i == psnIndex e.target)).getD 0
  let s := s.copyTagged (tileKey e.source 0) (tileKey e.target 0) 0x80000
  let s := s.putTile { t with psn := e.target, tileClk := d.tileClk, live := d.live, withdrawn := false, generators := [] }
  let s := s.putTile { t with records := [], reconf := [], stages := Vector.replicate 16 0, stageBusy := [] }
  let s := s.mapTile e.source (fun _ => BitVec.ofNat 16 (0x8000 + psnIndex e.target)) (fun _ => BitVec.ofNat 8 (0x80 + place))
  let s : State := { s with
    core := s.core.retile e.source e.target, cores := s.cores.map (fun c => c.retile e.source e.target)
    flight := s.flight.map (retileItem e.source e.target) }
  s.putEvac { e with waits := some (s.onWay e.source) }
/-- Step 5: the source is withdrawn. -/
def State.evacEnd (s : State) (e : Evac) : State :=
  let t := s.getTile e.source
  (s.putTile { (Tile.reset e.source) with tileClk := t.tileClk, live := t.live, withdrawn := true, generators := t.generators }).modRegion
    (psnRegion e.source) (fun r => { r with evacs := r.evacs.filter (·.source != e.source) })
/-- Whether an item that used an old translation or map is over (R65, R72). -/
def State.userDone (s : State) (id : Nat) : Bool :=
  match s.item id with
  | some (.access a) => a.stage == .performed || a.stage == .gone || a.stage == .refused || a.stage == .retry
  | some _ => false
  | none => true
/-- Steps 2 to 5. -/
def State.evacStep (s : State) (e : Evac) : State :=
  match e.waits with
  | some _ => s.evacEnd e
  | none => if e.done < 8192 then s.evacBlock e else s.evacMap e
/-- Step 4: what was on its way to the source is performed or answered. -/
def State.evacCanStep (s : State) (e : Evac) : Bool :=
  match e.waits with
  | some ids => ids.all s.userDone
  | none => decide (8192 ≤ e.done) || s.canReadTile e.source (64 * e.done) 64

end Sys2Proof.Machine
end

