-- ==== Sys2Proof/Machine/Leases.lean ====
section
/-! DEFINITION. Units and their scores (17 R427 to R429), capacity notifications (R438), lease entries (R430 to R435), retirement (R436, R437) and
the grade (01 R23). The steps themselves stand in Machine/LeaseEvents.lean. -/
namespace Sys2Proof.Machine
open Sys2Proof

abbrev UnitWord := BitVec 32

/-! Units (R427). -/

def unitKind (u : UnitWord) : Nat := fld u 31 28
def unitDir (u : UnitWord) : Nat := fld u 27 24
def unitPsn (u : UnitWord) : Psn := fld u 23 0
def coreUnit (p : Psn) : UnitWord := BitVec.ofNat 32 p
def tileUnit (p : Psn) : UnitWord := BitVec.ofNat 32 ((if interior (psnIndex p) then 1 else 2) * 2 ^ 28 + p)
/-- The mesh link between a core and a store tile; the port is seen from the core. -/
def meshUnit (core : Psn) (port : Nat) : UnitWord := BitVec.ofNat 32 (4 * 2 ^ 28 + port * 2 ^ 24 + core)
def chanStack (u : UnitWord) : Nat := unitPsn u / 256 % 32
def chanPhys (u : UnitWord) : Nat := unitPsn u % 256

def isCorePsn (p : Psn) : Bool := decide (psnRegion p < 80 ∧ psnIndex p < 288) && p == corePsn (psnRegion p) (psnIndex p)
def isTilePsn (p : Psn) : Bool := decide (psnRegion p < 80 ∧ psnIndex p < 288) && p == tilePsn (psnRegion p) (psnIndex p)
/-- Whether a unit word names a unit. -/
def unitExists (u : UnitWord) : Bool :=
  let p := unitPsn u
  match unitKind u with
  | 0 => unitDir u == 0 && isCorePsn p
  | 1 => unitDir u == 0 && isTilePsn p && interior (psnIndex p)
  | 2 => unitDir u == 0 && isTilePsn p && !interior (psnIndex p)
  | 3 => unitDir u == 0 && u == chanUnit (chanStack u) (chanPhys u) && decide (chanPhys u < 34)
  | 4 => isCorePsn p && (neighbour p (unitDir u)).isSome
  | 5 => isCorePsn p && decide (unitDir u < 4) && (diagonal p (unitDir u)).any (fun q => decide (p < q))
  | _ => false
/-- The region whose Lamplighter tests a unit. -/
def unitRegion (u : UnitWord) : Nat := if unitKind u = 3 then 5 * chanStack u / 2 else psnRegion (unitPsn u)
def State.unitLive (s : State) (u : UnitWord) : Bool := unitExists u && !s.isRetired u

/-- The logical id of a unit with its kind (R438); none for a spare. -/
def State.logicalId (s : State) (u : UnitWord) : Option Nat :=
  let p := unitPsn u
  let r := psnRegion p
  let id := match unitKind u with
    | 0 => (s.logicalOf p).map (fun n => r * 256 + n)
    | 1 => (s.storeOf p).map (fun n => r * 256 + n)
    | 2 => (s.exchangeOf p).map (fun k => r * 64 + k)
    | 3 => ((s.getActor (chanStack u)).chanMap.toList.findIdx? (fun (c : BitVec 8) => c.toNat == chanPhys u)).map (fun n => chanStack u * 32 + n)
    | _ => some (unitDir u * 2 ^ 24 + p)
  id.map (fun n => unitKind u * 2 ^ 28 + n)
def State.unitMapped (s : State) (u : UnitWord) : Bool := unitKind u < 4 && (s.logicalId u).isSome

/-- A unit's capacity (R184): MHz for tiles and links, GB/s for a DRAM channel (R104). -/
def State.capacity (s : State) (u : UnitWord) : Nat :=
  let p := unitPsn u
  match unitKind u with
  | 0 => fld (s.getCore p).tileClk 53 46 * 10
  | 1 | 2 => fld (s.getTile p).tileClk 53 46 * 10
  | 3 => 75
  | _ => (Config.linkCapacity u).toNat

/-- A capacity-change notification to every core that hosts an actor of a graph with an actor in the unit's region; of any resident graph for
a DRAM channel (R438). -/
def State.announce (s : State) (u : UnitWord) (id reason tsc old new : Nat) : State :=
  let r := unitRegion u
  let gs := s.graphs.filter (fun g => g.stat != 0 && (unitKind u == 3 || g.actors.any (fun a => psnRegion a.2.1 == r)))
  let cores := (gs.flatMap (fun g => g.actors.map (fun a => a.2.1))).eraseDups
  cores.foldl (fun s p => s.notify (lanternPsn r 2) (s.fullName (psnRegion p) 0x3FFF2) p
    (notification 1 tsc id (old % 2 ^ 16 + new % 2 ^ 16 * 2 ^ 16) reason)) s
/-- The same for a unit that backs a logical one. -/
def State.announceUnit (s : State) (u : UnitWord) (reason tsc old new : Nat) : State :=
  match s.logicalId u with
  | some id => s.announce u id reason tsc old new
  | none => s

/-! The grade (R23). -/

/-- The bank bandwidth of half the wafer in tenths of a GB/s: region columns 0 to 3, or 4 to 7. -/
def State.halfBandwidth (s : State) (right : Bool) : Nat :=
  ((List.range 80).filter (fun r => decide (4 ≤ r % 8) == right)).foldl (fun n r =>
    (List.range 44).foldl (fun n k => match (s.getRegion r).bankAt k with
      | some t => n + 64 * fld (s.getTile t).tileClk 63 59
      | none => n) n) 0
/-- The detour figure of one logical core. -/
def detour (n : Nat) (p : Psn) : Nat :=
  let x := n % 16 + 4
  let y := n / 16 % 16 + 4
  3 * ((posX p - x) + (x - posX p) + ((posY p - y) + (y - posY p))) / 2
def State.grades (s : State) : Vector (BitVec 32) 4 :=
  let gone (k : Nat) : Nat := (s.module.retired.filter (fun u => unitKind u == k)).length
  let cores := 80 * 288 - gone 0
  let far := (List.range 20480).foldl (fun m n => match s.logicalCore n with
    | some p => max m (detour n p)
    | none => m) 0
  #v[BitVec.ofNat 32 cores, BitVec.ofNat 32 (min (s.halfBandwidth false) (s.halfBandwidth true) / 10),
     BitVec.ofNat 32 ((cores * 112 + (80 * 288 - gone 1 - gone 2) * 512) / 1024), BitVec.ofNat 32 far]
def State.regrade (s : State) : State := { s with module := { s.module with grades := s.grades } }

/-! Spares (R435). The model takes the lowest live spare (log entry 50). -/

def State.hasLease (s : State) (u : UnitWord) : Bool := s.regions.any (fun r => r.leases.any (fun l => leaseUnit l == u))
def State.isSpare (s : State) (u : UnitWord) : Bool :=
  let p := unitPsn u
  s.unitLive u && !s.unitMapped u && !s.hasLease u && !(decide (unitKind u ≤ 2) && s.gated p) &&
    (match unitKind u with
      | 0 => (s.getCore p).live && (s.getCore p).act.isNone && (s.graphOn p).isNone
      | 1 | 2 => (s.getTile p).live && !(s.getTile p).withdrawn
      | 3 => (at_ (s.getActor (chanStack u)).chanState (chanPhys u) 0) == 1
      | _ => false)
/-- A spare that an evacuation under way has named. -/
def State.spoken (s : State) (v : UnitWord) : Bool :=
  s.regions.any (fun r => r.leases.any (fun l => leaseState l == 3 && unitKind (leaseUnit l) == unitKind v && unitKind v < 4 && l.w2.extractLsb' 0 32 == v))
def State.spareFor (s : State) (u : UnitWord) : Option UnitWord :=
  let r := psnRegion (unitPsn u)
  let all := match unitKind u with
    | 0 => (List.range 288).map (fun i => coreUnit (corePsn r i))
    | 1 | 2 => (List.range 288).map (fun i => tileUnit (tilePsn r i))
    | 3 => (List.range 34).map (fun i => chanUnit (chanStack u) i)
    | _ => []
  all.find? (fun v => unitKind v == unitKind u && v != u && s.isSpare v && !s.spoken v)
/-- The capacity after evacuation: the spare's; 0 for a link (R438). -/
def State.capacityAfter (s : State) (u : UnitWord) : Nat :=
  match s.spareFor u with
  | some v => s.capacity v
  | none => 0

/-! Lease entries (R430, R431). -/

def leaseOrigin (l : Lease) : Nat := fld l.w0 59 58
def leaseDefers (l : Lease) : Nat := fld l.w0 57 55
def leaseNumber (l : Lease) : Nat := fld l.w2 63 48
def leaseDuration (l : Lease) : Nat := fld l.w2 46 32
def leaseSpare (l : Lease) : UnitWord := l.w2.extractLsb' 0 32
/-- An entry enters a state; the time of the change is kept. -/
def Lease.enter (l : Lease) (state now : Nat) : Lease := { l with w0 := setFld l.w0 62 60 state, since := now }
def Region.putLease (r : Region) (l : Lease) : Region := { r with leases := upsert r.leases (·.index == l.index) l }
def Region.dropLease (r : Region) (i : Nat) : Region := { r with leases := r.leases.filter (·.index != i) }
def Region.freeLease (r : Region) : Option Nat := (List.range 64).find? (fun i => (r.lease i).isNone)
def State.setLease (s : State) (region : Nat) (l : Lease) : State := s.modRegion region (·.putLease l)
/-- The numbers of leases increase and are never 0. -/
def nextLeaseNumber (n : Nat) : Nat := if (n + 1) % 2 ^ 16 = 0 then 1 else (n + 1) % 2 ^ 16

/-- A new entry, while the table has room. -/
def State.newLease (s : State) (region : Nat) (u : UnitWord) (state origin pattern duration : Nat) (start : Word) (number : Option Nat) : State :=
  let r := s.getRegion region
  match r.freeLease with
  | none => s
  | some i =>
    let n := number.getD r.nextLease
    let l : Lease := { index := i, w0 := BitVec.ofNat 64 (2 ^ 63 + state * 2 ^ 60 + origin * 2 ^ 58 + pattern * 2 ^ 32 + u.toNat)
                       w1 := start, w2 := BitVec.ofNat 64 (n * 2 ^ 48 + duration * 2 ^ 32), since := s.tsc.toNat, passed := false
                       failing := 0xFFFF, syndrome := 0, started := false }
    s.putRegion { r.putLease l with nextLease := if number.isSome then r.nextLease else nextLeaseNumber r.nextLease }

def State.retirePending (s : State) (u : UnitWord) : Bool := s.module.retirePending.contains u
/-- A score or sweep proposal (R429, R431), with the default pattern set of the unit's kind (R433). -/
def State.propose (s : State) (u : UnitWord) (origin : Nat) : State :=
  if s.unitLive u && !s.hasLease u && !s.retirePending u then
    s.newLease (unitRegion u) u 0 origin (unitKind u * 2 ^ 12) Config.leaseDuration.toNat 0 none
  else s

/-! Retirement (R436). -/

def State.retiringUnit (s : State) (u : UnitWord) : Bool := s.regions.any (fun r => r.retiring.any (fun x => x.1 == u))
/-- Whether a unit carries nothing: a spare is withdrawn at once. -/
def State.carries (s : State) (u : UnitWord) : Bool := 4 ≤ unitKind u || s.unitMapped u
/-- A core, tile or bank without a live spare becomes retire pending and its record says so; a channel stays in service with STATE 6 (R125). -/
def State.cannotLeave (s : State) (u : UnitWord) : Bool := s.unitMapped u && (s.spareFor u).isNone
/-- When the retirement of a unit may evacuate it: at once for a spare, after a notice of 1,000,000 ticks for a unit in use. -/
def State.retireTime (s : State) (u : UnitWord) : Nat := s.tsc.toNat + (if s.carries u then 1000000 else 0)
/-- The notice of a retirement: what R438 sends of a lease that is scheduled (R125, log entry 133). -/
def State.giveNotice (s : State) (u : UnitWord) : State := s.announceUnit u 1 (s.retireTime u) (s.capacity u) (s.capacityAfter u)
/-- The retirement of a unit begins. An entry that has not started is freed; one past SCHEDULED goes on to RETIRING (R431, R434). -/
def State.retire (s : State) (u : UnitWord) (reason : Nat) : State :=
  let region := unitRegion u
  let r := s.getRegion region
  let entry := r.leases.find? (fun l => leaseUnit l == u)
  if !s.unitLive u || s.retiringUnit u || s.retirePending u || (entry.any (fun l => leaseState l == 6)) then s
  else if entry.any (fun l => decide (3 ≤ leaseState l)) then
    s.putRegion { r with retiring := r.retiring ++ [(u, s.tsc.toNat, if entry.any (fun l => leaseState l == 4) ∧ reason = 1 then 2 else reason)] }
  else
    let r := match entry with
      | some l => r.dropLease l.index
      | none => r
    let s := s.putRegion { r with retiring := r.retiring ++ [(u, s.retireTime u, reason)] }
    if unitKind u = 3 ∧ s.cannotLeave u then s.modActor (chanStack u) (fun a => { a with chanState := put a.chanState (chanPhys u) 6 })
    else if s.carries u ∧ !s.cannotLeave u then s.giveNotice u
    else s.modRegion region (fun r =>
      match r.freeLease with
      | none => r
      | some i => r.putLease { index := i, w0 := BitVec.ofNat 64 (2 ^ 63 + 6 * 2 ^ 60 + 0xFFFF * 2 ^ 32 + u.toNat), w1 := 0, w2 := 0
                               since := s.tsc.toNat, passed := false, failing := 0xFFFF, syndrome := 0, started := !s.cannotLeave u })

/-! Scores (R428, R429). -/

/-- The halvings that are due when the TSC has crossed multiples of 2^30 (R428). -/
def State.halveScores (s : State) : State :=
  let due := s.tsc.toNat / 2 ^ 30 - s.module.halved
  if due = 0 then s
  else { s with module := { s.module with
    halved := s.tsc.toNat / 2 ^ 30
    scores := s.module.scores.map (fun (x : BitVec 32 × BitVec 16) => if s.isRetired x.1 then x else (x.1, x.2 >>> due)) } }
/-- An addition to a score, after the halvings that are due, saturating; a retired unit's is frozen. The Lamplighter proposes a lease at 8,192 and retires at 32,768. -/
def State.addScore (s : State) (u : UnitWord) (n : Nat) : State :=
  let s := s.halveScores
  if s.isRetired u then s
  else
    let v := min 0xFFFF (s.score u + n)
    let s := { s with module := { s.module with
      scores := upsert s.module.scores (fun (x : BitVec 32 × BitVec 16) => x.1 == u) (u, BitVec.ofNat 16 v) } }
    if 32768 ≤ v then s.retire u 1 else if 8192 ≤ v then s.propose u 1 else s

/-! A lease's way (R431, R435, R438). -/

/-- An entry becomes SCHEDULED; the notification names START. -/
def State.scheduleLease (s : State) (region : Nat) (l : Lease) (start : Word) : State :=
  let u := leaseUnit l
  (s.setLease region { (l.enter 2 s.tsc.toNat) with w1 := start }).announceUnit u 1 start.toNat (s.capacity u) (s.capacityAfter u)
/-- An acceptance: START is the acknowledgement's time plus 1,000,000. -/
def State.acceptLease (s : State) (region : Nat) (l : Lease) : State := s.scheduleLease region l (s.tsc + 1000000)
def State.deferLease (s : State) (region : Nat) (l : Lease) : State := s.setLease region { (l.enter 1 s.tsc.toNat) with w1 := 0 }

/-- LEASEACK (R299, R432): the outcome, and what it leads to. -/
def State.leaseAck (s : State) (region number decision : Nat) : Nat × State :=
  match (s.getRegion region).leases.find? (fun l => leaseNumber l == number && number != 0) with
  | none => (1, s)
  | some l =>
    if leaseState l ≠ 0 then (2, s)
    else
      let late := (decision == 2 && leaseOrigin l == 1) || (decision == 1 && leaseDefers l == 4)
      if decision = 1 ∧ !late then (0, s.deferLease region l)
      else if decision = 2 ∧ !late then (0, s.modRegion region (·.dropLease l.index))
      else
        let d := s.draw
        if Config.headroom d.1 then (if late then 4 else 0, d.2.acceptLease region l) else (3, d.2.deferLease region l)

/-- The rings that a unit's lease concerns: its own core's, or the one whose members a ring link joins. -/
def State.unitRing (s : State) (u : UnitWord) : Option Ring :=
  let p := unitPsn u
  match unitKind u with
  | 0 => s.ringOf (s.getCore p)
  | 5 => match s.ringOf (s.getCore p), (diagonal p (unitDir u)) with
    | some r, some q => if r.joins p q then some r else none
    | _, _ => none
  | _ => none
/-- Whether a ring has an open operation; one that is complete is open until every member has its completion. -/
def State.ringOpen (s : State) (r : Ring) : Bool := (s.getCore r.origin).ringState == 1 || s.ringCompleting r
/-- LEASE_PEND on every member of a ring (R219). -/
def State.pendRing (s : State) (region : Nat) (r : Ring) (b : Bool) : State :=
  (s.putRing region { r with leaseAt := if b then some (r.leaseAt.getD s.tsc.toNat) else none }).modMembers r (fun c =>
    { c with ringMember := setBit c.ringMember 41 b })

/-- Faulted or pinned continuations of the actor on a core (R408). -/
def State.actorRecords (s : State) (p : Psn) : Bool :=
  match s.homeTile (s.getCore p) with
  | some t => (s.getTile t).records.any (fun r => r.src == p && (r.pinned || r.full.isSome))
  | none => false
/-- Short records outstanding, and a core outside every quad of the home tile (R408). -/
def State.strayMove (s : State) (src dst : Psn) : Bool :=
  match s.homeTile (s.getCore src) with
  | some t => (s.getTile t).records.any (·.full.isNone) && !(quadCores t).contains dst
  | none => false

/-- The conditions of R435 by kind. An open ring operation ends by itself or by its cancellation (R217, R219). -/
def State.leaseReady (s : State) (u : UnitWord) : Bool :=
  let p := unitPsn u
  let ringOk := match s.unitRing u with
    | none => true
    | some r => !s.ringOpen r
  match unitKind u with
  | 0 => (s.spareFor u).isSome && ringOk && !(s.getCore p).snuffed && !s.actorRecords p
  | 1 | 2 => (s.spareFor u).isSome
  | 3 => (s.spareFor u).isSome && !s.regions.any (fun r => r.leases.any (fun l =>
      unitKind (leaseUnit l) == 3 && leaseUnit l != u && chanStack (leaseUnit l) == chanStack u && decide (3 ≤ leaseState l)))
  | _ => ringOk

/-- A mesh link is used no more: both routers drop the table entries that point to it (R434). -/
def State.cutLink (s : State) (p : Psn) (port : Nat) : State :=
  let cutAt (s : State) (q : Psn) (port : Nat) : State :=
    let r := s.getRouter q
    s.putRouter q { r with cut := r.cut ++ [port], table := r.table.filter (·.1 != port) }
  let s := cutAt s p port
  match neighbour p port with
  | some q => cutAt s q (opposite port)
  | none => s
/-- Evacuation begins (R435, R431): the spare is named; a core's entries are held; a channel and its spare are marked; a link is cut and a
ring over it cancelled by `cancel`; the copy of a tile starts. -/
def State.beginEvacuation (s : State) (cancel : Nat → Ring → State → State) (region : Nat) (l : Lease) : State :=
  let u := leaseUnit l
  let p := unitPsn u
  let spare := (s.spareFor u).getD 0
  let s := s.setLease region { (l.enter 3 s.tsc.toNat) with w2 := setFld l.w2 31 0 spare.toNat }
  match unitKind u with
  | 0 =>
    let s := s.setMoving p true
    let s := s.modRegion region (fun r => { r with
      move := if r.move.isNone ∧ (s.graphOn p).isSome then
        some { ctx := s.ctxOf p, from_ := p, to_ := unitPsn spare, holds := (s.getCore p).holds, lease := some l.index } else r.move })
    if (s.graphOn p).isSome then s.holdActor p else s
  | 3 => s.modActor (chanStack u) (fun a => { a with chanState := put (put a.chanState (chanPhys u) 2) (chanPhys spare) 3 })
  | 1 | 2 => if s.unitMapped u then s.startEvac p (unitPsn spare) else s
  | 4 => s.cutLink p (unitDir u)
  | 5 => match s.unitRing u with
    | some r =>
      let s := if (s.getCore r.origin).ringState < 2 then cancel region r s else s
      s.unform p ((diagonal p (unitDir u)).getD p)
    | none => s
  | _ => s
/-- A link returns to service. -/
def State.mendLink (s : State) (u : UnitWord) : State :=
  let p := unitPsn u
  let mendAt (s : State) (q : Psn) (port : Nat) : State :=
    let r := s.getRouter q
    s.putRouter q { r with cut := r.cut.filter (· != port) }
  let s := mendAt s p (unitDir u)
  match neighbour p (unitDir u) with
  | some q => mendAt s q (opposite (unitDir u))
  | none => s

end Sys2Proof.Machine
end

