-- ==== Sys2Proof/Machine/NetEvents.lean ====
section
/-! DEFINITION. The steps of the mesh and of a core's message port: routing, acceptance in channel order, bounces, tombstones and markers,
queue slots, end-of-stream marks, credits, staging slots, notifications, counter posts and fault messages (01 R28 to R33, 03 R92 to R96,
07 R184, 12 R310, 15 R410, 16 R416). -/
namespace Sys2Proof.Machine
open Sys2Proof

/-- What an event needs of an item that is a message. -/
def State.msg (s : State) (id : Nat) : Option Msg :=
  match s.item id with
  | some (.message m) => if s.gone m.deps then some m else none
  | _ => none

/-! Directory registers (R28). -/

/-- NAME_PREFIX: accepted while no core of the region hosts an actor of a resident or parked graph and no tombstone is live. -/
def State.writePrefix (s : State) (region : Nat) (v : Word) : State :=
  if s.graphs.any (fun g => g.stat != 0 && g.actors.any (fun a => psnRegion a.2.1 == region)) ||
    (s.getRegion region).tombs.any (fun t => decide (s.tsc.toNat < t.until_)) then s
  else (s.modRegion region (fun r => { r with namePrefix := v.extractLsb' 0 6 })).defaultNames region
def execNamePrefixWrite (region : Nat) (value : Word) (s : State) : Out :=
  if region < 80 then .next (s.writePrefix region value) else .fault .noSuchUnit

/-- DIR_ENTRY.NAME: a refused write sets DIR_SEL.REFUSED and nothing else. -/
def State.writeDirEntry (s : State) (region : Nat) (n : BitVec 24) : State :=
  let r := s.rename region (corePsn region (fld (s.getRegion region).dirSel 8 0)) n
  if r.1 then r.2 else s.modRegion region (fun g => { g with dirSel := setBit g.dirSel 63 true })
def execDirEntryWrite (region : Nat) (name : BitVec 24) (s : State) : Out :=
  if region < 80 then .next (s.writeDirEntry region name) else .fault .noSuchUnit

/-! Routers (R26, R29, R30). -/

/-- A message one hop on, as soon as the next lane takes it (R101). -/
def State.hop (s : State) (id : Nat) (m : Msg) (port : Nat) : Option State :=
  match neighbour m.tile port with
  | some t =>
    if s.laneOpen m.tile port m.nextLane m.flits then
      some (((s.leaveBuffer m).carry m.tile port m.nextLane m.flits).requeue id
        (.message { m with tile := t, port := opposite port, lane := m.nextLane }))
    else none
  | none => none
/-- Whether a core's local port has use for a message: the name is its own, or it is the name's tombstone. -/
def State.takesName (s : State) (p : Psn) (n : BitVec 24) : Bool :=
  isGridCore p && n != nullName && ((s.getCore p).name == n ||
    (s.getRegion (psnRegion p)).tombs.any (fun t => t.core == p && t.name == n && decide (s.tsc.toNat < t.until_)))
/-- The Lantern sees a flood through its port, one copy of each (R17, R32; log entry 124). -/
def State.lanternSees (s : State) (m : Msg) : State :=
  let seen := (s.getRegion m.region).floods
  if seen.contains m.identity then s
  else (s.modRegion m.region (fun r => { r with floods := (seen ++ [m.identity]).drop (seen.length + 1 - 32) })).launchItem
    (.message { m with stage := .lantern })
/-- The ports a router forwards a flood on (R30): every one in service but the one it came by. -/
def Router.floodPorts (r : Router) (m : Msg) : List Nat :=
  [1, 2, 3, 4].filter (fun p => p != m.port && (neighbour m.tile p).isSome && !r.cut.contains p)
/-- One router of a flood (R30): a copy to the local port where the name is held, one for the Lantern, and while hops are left one on every port but
the one it came by. A flood that the router has forwarded goes no further. -/
def State.floodAt (s : State) (id : Nat) (m : Msg) (hops : Nat) : Option State :=
  let r := s.getRouter m.tile
  if r.floods.contains m.identity then some ((s.leaveBuffer m).dropItem id)
  else
    let ports := if hops = 0 then [] else r.floodPorts m
    if ports.all (fun p => s.laneOpen m.tile p 2 m.flits) then
      let s := s.dropItem id
      let s := if s.takesName m.tile m.dest then s.launchItem (.message { m with stage := .local, flood := some hops }) else s.leaveBuffer m
      let s := if isGate m.tile then s.lanternSees { m with flood := some hops } else s
      let s := if hops = 0 then s else s.putRouter m.tile ((s.getRouter m.tile).noteFlood m)
      some (ports.foldl (fun s port => (s.carry m.tile port 2 m.flits).launchItem (.message { m with
        tile := (neighbour m.tile port).getD 0, port := opposite port, lane := 2, flood := some (hops - 1) })) s)
    else none
/-- The first router of a flood: its copies acknowledge the item that the message was. -/
def State.startFlood (s : State) (id : Nat) (m : Msg) : Option State :=
  if m.acks = id then (s.setItem id (.command m.src 0)).floodAt 0 m 46 else s.floodAt id m 46

/-- A message to an agent (R26): to the Lantern by the first row, to a DRAM actor by the nearest live exchange bank. The actor takes no message of
software's: a request travels as its access (R109), and any other arrival bounces there with reason 0x04 (log entry 125). -/
def State.routeAgent (s : State) (id : Nat) (m : Msg) : Option State :=
  match actorOfName m.dest with
  | some n => match s.nearestBank m.tile with
    | some b =>
      if b = m.tile then some ((s.leaveBuffer m).bounce id { m with tile := actorPsn n } 4) else s.hop id m (s.portTo m.tile b)
    | none => none
  | none => if isGate m.tile then some ((s.leaveBuffer m).setItem id (.message { m with stage := .lantern })) else s.hop id m (portHome m.tile)
/-- Whether a message is a counter post at the router of its source: it takes its number in its channel as it leaves (R92; log entry 122). -/
def Msg.unnumbered (m : Msg) : Bool := m.handle == 31 && m.tile == m.src && decide (m.port = 0) && m.flood.isNone
/-- ROUTER_ARRIVAL: the source name is learned, then the message goes on; it waits while a lane has no room for it. -/
def State.route (s : State) (id : Nat) (m : Msg) : Option State :=
  let r := (s.getRouter m.tile).learn s.tsc.toNat m.port m.name
  let s := s.putRouter m.tile r
  let m := if m.unnumbered then { m with seq := ((s.getRegion m.region).postChannel m.name m.dest).1 } else m
  let s := if m.unnumbered then s.countPost m.region m.name m.dest else s
  if isAgentName m.dest then s.routeAgent id m
  else match m.flood with
  | some hops => s.floodAt id m hops
  | none =>
    match r.lookup s.tsc.toNat m.dest with
    | some port =>
      if port = 0 then (if s.takesName m.tile m.dest then some (s.setItem id (.message { m with stage := .local })) else s.startFlood id m)
      else if (neighbour m.tile port).isSome ∧ !r.cut.contains port then s.hop id m port else s.startFlood id m
    | none => s.startFlood id m
/-- The step a waiting message takes, where it takes one. -/
def orStay (s : State) (t : Option State) : Out := .next (t.getD s)
def execRouterArrival (id : Nat) (s : State) : Out :=
  match s.msg id with
  | some m => if m.stage = .router ∧ s.first id m ∧ s.whole m then orStay s (s.route id m) else .next s
  | none => .next s

/-! Acceptance (R31, R410). -/

/-- The live tombstone whose messages a core now gets. -/
def State.tombTo (s : State) (p : Psn) (n : BitVec 24) : Option Tomb :=
  (s.getRegion (psnRegion p)).tombs.find? (fun t => t.target == p && t.name == n && decide (s.tsc.toNat < t.until_))
/-- Whether a direct arrival waits for its source's forward-end marker. -/
def State.awaitsMarker (s : State) (p : Psn) (m : Msg) : Bool :=
  (s.tombTo p m.dest).isSome && !m.forwarded && !isAgentName m.name && !(s.getCore p).moved.contains (m.name, true)
/-- The first held arrival of a source asks the tombstone for the marker. -/
def State.askMarker (s : State) (p : Psn) (m : Msg) : State :=
  match s.tombTo p m.dest with
  | some t =>
    if (s.getCore p).moved.any (·.1 == m.name) then s
    else (s.modCore p (fun c => { c with moved := c.moved ++ [(m.name, false)] })).launchItem (.markerRequest p t.core m.name)
  | none => s

/-- An arrival held in the reorder stash, where there is room. -/
def State.stashArrival (s : State) (p : Psn) (id : Nat) (m : Msg) : Option State :=
  if m.stage = .stash then none
  else if (s.getCore p).stash.length < 16 then
    some ((s.modCore p (fun c => { c with stash := c.stash ++ [id] })).setItem id (.message { m with stage := .stash }))
  else none
def State.unstash (s : State) (p : Psn) (id : Nat) : State := s.modCore p (fun c => { c with stash := c.stash.filter (· != id) })

/-- A queue message for a valid handle in channel order: the next expected one is accepted, an early one waits, an old one is a duplicate. -/
def State.acceptQueued (s : State) (p : Psn) (id : Nat) (m : Msg) : Option State :=
  let next := (s.getCore p).expected m.handle m.name
  let ahead := (m.seq - next).toNat
  if s.awaitsMarker p m then (s.stashArrival p id m).map (·.askMarker p m)
  else if ahead = 0 then
    some (((s.unstash p id).modCore p (·.advance m.handle m.name)).setItem id (.message { m with stage := .accepted }))
  else if ahead < 2 ^ 15 then s.stashArrival p id m
  else some ((s.unstash p id).finish id m)

/-- Whether an earlier counter post of the channel is still on its way (R31). -/
def State.earlierPost (s : State) (m : Msg) : Bool :=
  s.flight.any (fun i => match i.body with
    | .message k => k.handle == 31 && k.region == m.region && k.name == m.name && k.dest == m.dest && k.stage != .accepted && k.stage != .bounced &&
        k.seq != m.seq && decide ((m.seq - k.seq).toNat < 2 ^ 15)
    | _ => false)
/-- A counter post in channel order (R31): an old number is a duplicate, one behind another still on its way waits. -/
def State.acceptPost (s : State) (p : Psn) (id : Nat) (m : Msg) : Option State :=
  let v := (s.getRegion m.region).postChannel m.name m.dest
  if 2 ^ 15 ≤ (m.seq - v.2).toNat then some ((s.unstash p id).finish id m)
  else if s.earlierPost m then s.stashArrival p id m
  else some (((s.unstash p id).modRegion m.region (·.setPost m.name m.dest (v.1, m.seq + 1))).setItem id (.message { m with stage := .accepted }))

/-- Whether a message stands at a core for which its name stands (R18, R25). -/
def Msg.forAgent (m : Msg) : Bool := agentCore m.region m.dest == some m.tile && isAgentName m.dest
/-- CORE_MESSAGE_ACCEPT: the port of a core takes a message for its name, bounces it, discards a flood's stray copy, or gives a message for a name that it
no longer holds back to its router (R33). -/
def State.accept (s : State) (id : Nat) (m : Msg) : Option State :=
  let p := m.tile
  if (s.getCore p).name ≠ m.dest ∧ !m.forAgent then
    if s.takesName p m.dest then none
    else if m.flood.isSome then some ((s.leaveBuffer m).dropItem id) else some (s.setItem id (.message { m with stage := .router }))
  else match s.bounceReason p m with
  | some reason => some (((s.leaveBuffer m).unstash p id).bounce id m reason)
  | none =>
    let s := s.leaveBuffer m
    if m.handle = 29 then some ((s.modCore p (·.addQ 52 1)).finish id m)
    else if m.handle < 19 ∧ !m.reply then s.acceptQueued p id m
    else if m.handle = 31 then s.acceptPost p id m
    else if m.stage = .stash then none
    else some (s.setItem id (.message { m with stage := .accepted }))
def execCoreMessageAccept (id : Nat) (s : State) : Out :=
  match s.msg id with
  | some m =>
    if (m.stage = .stash ∨ (m.stage = .local ∧ s.first id m ∧ s.whole m)) ∧ !s.gated m.tile then
      orStay s ((s.touchCluster m.tile).accept id m)
    else .next s
  | none => .next s

/-- LANTERN_FLOOD_BOUNCE (R32, R26, R25): a flood for a name that no live core or tombstone holds, or a message to an unassigned agent name, goes back to
its source; a message to an agent that is a core is handed to that core's port (R18), and the Lamplighter takes none. -/
def State.lanternTakes (s : State) (id : Nat) (m : Msg) : State :=
  let low := fld m.dest 17 0
  if m.flood.isSome then
    (if (s.holder m.region m.dest).isSome || (s.tombFor m.region m.dest).isSome then s.dropItem id else s.bounce id m 1)
  else if !isAgentName m.dest ∨ (low = 0x3FFF3 ∧ levelOf m.src = .graph) then s.bounce id m 1
  else match agentCore m.region m.dest with
  | some p => s.requeue id (.message { m with stage := .local, tile := p, port := 0 })
  | none => s.bounce id m (if low = 0x3FFF2 then 4 else 1)
def Msg.isFaultMessage (m : Msg) : Bool := m.handle == 30 && fld m.dest 17 0 == 0x3FFF1
def execLanternFloodBounce (id : Nat) (s : State) : Out :=
  match s.msg id with
  | some m => event (m.stage == .lantern && !m.isFaultMessage) s (s.lanternTakes id m)
  | none => .next s

/-- The core that counts a bounce: the sender, or for a DRAM reply the requester's core, which bounced it (R111). -/
def Msg.bounceParty (m : Msg) : Psn := if m.reply ∧ m.reason ≠ 1 then m.tile else m.src
/-- BOUNCE_RECEIVED (R32): the output queue's credit for the slot is released, q52 counts it and a BOUNCE message goes to the service core. A
bounced DRAM reply settles its request (R111, R424); the bounce of an agent's message ends there. -/
def State.takeBounce (s : State) (id : Nat) (m : Msg) : State :=
  let p := m.bounceParty
  let s := s.finish id m
  if !isGridCore p then s
  else
    let out := if m.reply then none else ((List.range 12).map (· + 20)).find? (fun o =>
      (s.getCore p).queueOk.getLsbD o && oDest ((s.getCore p).queue o) == m.dest && oHandle ((s.getCore p).queue o) == m.handle)
    let s := match out with
      | some o => if m.eos then s else s.modCore p (fun c => c.setQueue o (setFld (c.queue o) 47 39 (oCredits (c.queue o) + 1)))
      | none => s
    s.coreNotice p .bounce (bounceDetail m)
def execBounceReceived (id : Nat) (s : State) : Out :=
  match s.msg id with
  | some m => event (m.stage == .bounced && s.canNotice m.bounceParty) s (s.takeBounce id m)
  | none => .next s

/-! Tombstones and markers (R33, R410). -/

/-- TOMBSTONE_FORWARD: an arrival for the name goes on to the actor's new core by a physical route, its source and number kept. -/
def execTombstoneForward (id : Nat) (s : State) : Out :=
  match s.msg id with
  | some m =>
    match (s.getRegion m.region).tombs.find? (fun t => t.core == m.tile && t.name == m.dest && decide (s.tsc.toNat < t.until_)) with
    | some t =>
      let handle : List (BitVec 24 × Nat × BitVec 16) := if m.handle < 19 then [(m.name, m.handle, m.seq + 1)] else []
      let u := (s.leaveBuffer m).requeue id (.message { m with tile := t.target, port := 0, forwarded := true })
      event (m.stage == .local && s.first id m && s.whole m) s (u.modRegion m.region (fun r => { r with
        tombs := r.tombs.map (fun x => if x == t then
          { x with next := x.next.filter (fun e => !(e.1 == m.name && e.2.1 == m.handle)) ++ handle } else x) }))
    | none => .next s
  | none => .next s

/-- A marker for a source: for each handle the number after the last message forwarded. -/
def State.mark (s : State) (t : Tomb) (source : BitVec 24) : State :=
  (s.launchItem (.marker t.target source ((t.next.filter (·.1 == source)).map (·.2)))).modRegion (psnRegion t.core) (fun r => { r with
    tombs := r.tombs.map (fun x => if x.core == t.core && x.name == t.name then { x with marked := x.marked ++ [source] } else x) })

/-- TOMBSTONE_WINDOW_END: markers for the sources not yet marked, then the directory drops the tombstone. -/
def execTombstoneWindowEnd (core : Psn) (s : State) : Out :=
  let region := psnRegion core
  match (s.getRegion region).tombs.find? (·.core == core) with
  | some t =>
    let asked := ((s.getCore t.target).moved.filter (fun e => !e.2)).map (·.1)
    let sources := ((t.next.map (·.1)) ++ asked).eraseDups.filter (fun n => !t.marked.contains n)
    let u := sources.foldl (fun s n => s.mark t n) s
    event (decide (t.until_ ≤ s.tsc.toNat)) s (u.modRegion region (fun r => { r with tombs := r.tombs.filter (·.core != core) }))
  | none => .next s

/-- MARKER_REQUEST: the tombstone first forwards every message of the source that it has received, then sends the marker. -/
def execMarkerRequest (id : Nat) (s : State) : Out :=
  match s.item id with
  | some (.markerRequest _ old source) =>
    match (s.getRegion (psnRegion old)).tombs.find? (·.core == old) with
    | some t =>
      let waiting := s.flight.any (fun i => match i.body with
        | .message m => m.stage == .local && m.tile == old && m.dest == t.name && m.name == source
        | _ => false)
      event (!waiting) s (if t.marked.contains source then s.dropItem id else (s.dropItem id).mark t source)
    | none => .next (s.dropItem id)
  | _ => .next s

/-- FORWARD_END_MARKER: the arrivals held for the source may now be taken in channel order. -/
def execForwardEndMarker (id : Nat) (s : State) : Out :=
  match s.item id with
  | some (.marker p source _) =>
    .next ((s.dropItem id).modCore p (fun c => { c with moved := c.moved.filter (·.1 != source) ++ [(source, true)] }))
  | _ => .next s

/-! Queue slots (R92, R94, R95). -/

/-- The slot's bytes are written whole, then it counts. A DRAM reply takes the next place of a single producer's queue. -/
def State.slotArrives (s : State) (id : Nat) (m : Msg) : State :=
  let p := m.tile
  let c := s.getCore p
  let h := m.handle
  let q := c.queue h
  let k := if m.reply then noProducer else (c.producerOf h m.name).getD 0
  let place := if qProducers q = 1 then qArrived q % qDepth q
    else (((c.producers h)[k]?).map (·.filled)).getD 0 % (qDepth q / qProducers q)
  let s := s.poke (localKey p (slotAddr q k place)) (slice m.payload 0 (qSlotBytes q))
  (s.modCore p (fun c => { (c.setQueue h (setFld q 31 0 (qArrived q + 1))) with
    arrivals := c.arrivals ++ [(h, k, place)]
    chans := c.chans.map (fun x => if x.handle == h && x.name == m.name then { x with filled := x.filled + 1 } else x) })).finish id m
/-- Whether no accepted message of the same channel comes before this one (R94, R95: a producer's slots fill its sub-ring in channel order, and its mark
follows them). -/
def State.channelFirst (s : State) (m : Msg) : Bool :=
  s.flight.all (fun i => match i.body with
    | .message k => !(k.stage == .accepted && k.tile == m.tile && k.handle == m.handle && k.name == m.name && !k.reply && k.seq != m.seq &&
        decide ((m.seq - k.seq).toNat < 2 ^ 15))
    | _ => true)
/-- A DRAM reply finds its slot reserved (R108, R111): it is taken while the queue has a place. -/
def State.slotFree (s : State) (m : Msg) : Bool :=
  decide (((s.getCore m.tile).arrivals.filter (·.1 == m.handle)).length < qDepth ((s.getCore m.tile).queue m.handle))
/-- QUEUE_SLOT_ARRIVAL: slots of a channel in its order (R94), replies of one DRAM channel in the order of their requests (R113). -/
def execQueueSlotArrival (id : Nat) (s : State) : Out :=
  match s.msg id with
  | some m => event (m.stage == .accepted && decide (m.handle < 19) && !m.eos && s.slotFree m &&
      (if m.reply then s.replyFirst id m.tile m.chans else s.channelFirst m)) s (s.slotArrives id m)
  | none => .next s

/-- EOS_MARK_ARRIVAL: the mark is counted once; the queue may end (R95). -/
def State.markArrives (s : State) (id : Nat) (m : Msg) : State :=
  let p := m.tile
  let t := s.modCore p (fun c => { (c.setQueue m.handle (setFld (c.queue m.handle) 111 106 (qEos (c.queue m.handle) + 1))) with
    chans := c.chans.map (fun x => if x.handle == m.handle && x.name == m.name then { x with eos := true } else x) })
  (t.endCheck p m.handle).finish id m
def execEosMarkArrival (id : Nat) (s : State) : Out :=
  match s.msg id with
  | some m => event (m.stage == .accepted && decide (m.handle < 19) && m.eos && s.channelFirst m) s (s.markArrives id m)
  | none => .next s

/-- CREDIT_RETURN (R93). -/
def execCreditReturn (id : Nat) (s : State) : Out :=
  match s.item id with
  | some (.credit p h n) => .next ((s.dropItem id).modCore p (fun c => c.setQueue h (setFld (c.queue h) 47 39 (oCredits (c.queue h) + n))))
  | _ => .next s

/-- Where the oldest closed slot of an output handle stands. -/
def stagedAt (q : BitVec 128) : Nat := oBase q + oSent q % oDepth q * oSlotBytes q
/-- STAGING_SLOT_SEND (R93, R169): the oldest closed slot or mark of a handle, once what it waits for is complete; a slot needs a credit.
A snuffed or halted core sends nothing. -/
def State.sendStaged (s : State) (p : Psn) (h : Nat) : State :=
  let c := s.getCore p
  match c.staged.find? (·.1 == h) with
  | some x =>
    let q := c.queue h
    let s := s.putCore { c with staged := c.staged.erase x }
    if x.2.1 then
      (s.modCore p (fun c => c.setQueue h (setFld q 63 48 (oSeq q + 1)))).launchItem
        (.message { message p (psnRegion p) c.name (oDest q) (oHandle q) [] with seq := BitVec.ofNat 16 (oSeq q), eos := true })
    else
      let a := stagedAt q
      let data := s.bytes (localKey p a) (oSlotBytes q)
      ((s.sendSlot p h data []).modCore p (fun c => c.setQueue h (setFld (c.queue h) 15 0 (oSent q + 1)))).engineRead p a (oSlotBytes q)
  | none => s
def execStagingSlotSend (core : Psn) (handle : Nat) (s : State) : Out :=
  let c := s.getCore core
  if !isGridCore core ∨ handle < 20 ∨ 31 < handle then .fault .noSuchUnit
  else match c.staged.find? (·.1 == handle) with
  | some x => event (s.gone x.2.2 && (x.2.1 || (oCredits (c.queue handle) != 0 && s.canRead core (localKey core (stagedAt (c.queue handle)))
      (oSlotBytes (c.queue handle)))) && !c.snuffed && !c.halting) s
      (s.sendStaged core handle)
  | none => .next s

/-! Notifications, counter posts, fault messages (R184, R310, R416). -/

/-- NOTIFICATION_ARRIVAL: q51 counts a capacity change before the slot counts; without a handler the notification is discarded. -/
def State.noteArrives (s : State) (id : Nat) (m : Msg) : State :=
  let p := m.tile
  let c := s.getCore p
  let q := c.queue 19
  let s := if numAt m.payload 0 1 = 1 then s.modCore p (·.addQ 51 1) else s
  let s := if hValid (c.handler 19) then
      let place := qArrived q % qDepth q
      let t := s.poke (localKey p (slotAddr q noProducer place)) (slice m.payload 0 (qSlotBytes q))
      t.modCore p (fun c => { (c.setQueue 19 (setFld q 31 0 (qArrived q + 1))) with arrivals := c.arrivals ++ [(19, noProducer, place)] })
    else s
  s.finish id m
def execNotificationArrival (id : Nat) (s : State) : Out :=
  match s.msg id with
  | some m => event (m.stage == .accepted && m.handle == 19 && (!hValid ((s.getCore m.tile).handler 19) || s.slotFree m)) s (s.noteArrives id m)
  | none => .next s

/-- COUNTER_POST_ARRIVAL (R310): a saturating addition to a counter below q48; the acknowledgement satisfies the post's token. -/
def execCounterPostArrival (id : Nat) (s : State) : Out :=
  match s.msg id with
  | some m =>
    let ref := numAt m.payload 8 1 % 128
    event (m.stage == .accepted && m.handle == 31) s
      ((if ref < 48 then s.modCore m.tile (·.addQ ref (numAt m.payload 0 8)) else s).finish id m)
  | none => .next s

/-- FAULT_MESSAGE_ARRIVAL (R416): the service core's inbox takes a slot. A core discards other codes than SNUFFNOTE on handle 30. -/
def execFaultMessageArrival (id : Nat) (s : State) : Out :=
  match s.msg id with
  | some m =>
    if m.handle ≠ 30 then .next s
    else if m.stage = .lantern ∧ m.isFaultMessage then
      event (decide ((s.getRegion m.region).inbox.length < 512)) s
        ((s.modRegion m.region (fun r => { r with inbox := r.inbox ++ [m.payload] })).finish id m)
    else event (m.stage == .accepted) s (s.finish id m)
  | none => .next s

/-- GANGLOST at a leader (R197, R415): the position of the lost member. -/
def State.gangLost (s : State) (leader lost : Psn) : State :=
  s.modCore leader (fun c => { c with act := c.act.map (fun a =>
    match a.gang with
    | some g =>
      if g.position = 0 ∧ g.members.contains lost then
        let f : FaultInfo := { code := .ganglost, detail := BitVec.ofNat 256 (lost + (g.members.idxOf lost + 1) * 2 ^ 24) }
        { a with boundary := a.boundary ++ [f] }
      else a
    | none => a) })
/-- Whether a core is an attached member of another core's gang. -/
def State.attachedTo (s : State) (leader p : Psn) : Bool :=
  match (s.getCore p).act.bind (·.gang) with
  | some g => g.leader == leader && g.attached && decide (g.position ≠ 0)
  | none => false

/-- SNUFFNOTE_ARRIVAL (R416): q52 counts it; the leader of a gang that the lost core was attached to raises GANGLOST. -/
def execSnuffnoteArrival (id : Nat) (s : State) : Out :=
  match s.item id with
  | some (.snuffnote p lost wasMember) =>
    let t := ((s.touchCluster p).dropItem id).modCore p (·.addQ 52 1)
    event (!s.gated p) s (if wasMember then t.gangLost p lost else t)
  | _ => .next s

end Sys2Proof.Machine
end

