-- ==== Sys2Proof/Machine/Faults.lean ====
section
/-! DEFINITION. Snuffing (16 R424) and the replies to faulted continuations (02 R67, 11 R300, 16 R417). The steps stand in
Machine/FaultEvents.lean, the instructions in Machine/Privileged.lean. -/
namespace Sys2Proof.Machine
open Sys2Proof

/-! Snuffing. -/

/-- Whether a core may be snuffed: a live grid core that is not (R297). -/
def State.canSnuff (s : State) (p : Psn) : Bool := isCorePsn p && (s.getCore p).live && !(s.getCore p).snuffed
/-- CORE_SNUFF at a snuff. -/
def snuffWord (reason wick tsc : Nat) : Word := BitVec.ofNat 64 (2 ^ 63 + reason * 2 ^ 56 + wick * 2 ^ 52 + tsc % 2 ^ 52)
/-- A core is snuffed (R424): the activation becomes a faulted continuation with WICKMISS, or the message goes against the graph where none runs or
another fault already holds it; its live quad neighbours are told; its score grows by 256. -/
def State.snuffCore (s : State) (p : Psn) (reason : Nat) : State :=
  let c := s.getCore p
  let wick := if reason = 1 then (c.act.map (fun a => hWick (c.handler a.entry))).getD 0 else 0
  let detail := BitVec.ofNat 256 (p + wick * 2 ^ 24)
  let told := ((quadMates p).filter (fun q => (s.getCore q).live)).map (fun q => (q, s.attachedTo q p))
  let s := s.modCore p (fun c => { c with snuff := snuffWord reason wick s.tsc.toNat })
  let s := if c.act.any (·.halted.isNone) then s.faultCore p { code := .wickmiss, detail } else s.coreNotice p .wickmiss detail
  (told.foldl (fun s x => s.launchItem (.snuffnote x.1 p x.2)) s).addScore (coreUnit p) 256

/-! Replies. -/

/-- A reference of R300: the tile and the record's index. -/
def refTile (w : Word) : Psn := fld w 47 24
def refIndex (w : Word) : Nat := 128 + fld w 1 0
def refOk (w : Word) : Bool := fld w 63 48 == 0 && fld w 23 2 == 0

/-- A RESUME with value answers only a fault of an access that has one, or a TRAP (R67). -/
def valueOk (f : FaultInfo) : Bool :=
  f.code == .trap || (f.answer != .nothing &&
    [Code.captag, .capbound, .capperm, .align, .page, .gone, .heldlost, .eccfatal].contains f.code)

/-- A value fills the destination of an access (R67): a capability without its tag, a vector pushed into a stream in the core. -/
def Landing.supply (l : Landing) (v : List Byte) (c : Core) : Core :=
  match l with
  | .none => c
  | .gpr n _ ty => c.setG n (extend ty (numAt v 0 (elemBytes ty)))
  | .vec n _ => c.setV n (BitVec.ofNat 512 (ofLe (slice v 0 64)))
  | .cap n _ => c.setC n { tag := false, bits := BitVec.ofNat 128 (numAt v 0 16) }
  | .push token start _ => c.fillPush token start 0 (slice v 0 64)
  | .result n => c.setG n (BitVec.ofNat 64 (numAt v 0 8))

/-- The other parts of the access whose register a value has filled. -/
def State.sameRegister (s : State) (l : Landing) (ids : List Nat) : List Nat :=
  ids.filter (fun i => match s.item i with
    | some (.access a) => l.reg.isSome && a.landing.reg == l.reg
    | _ => false)

/-- What a supplied value does to a record (R67): the instruction at its pc counts as performed when it resumes; an item of an owner's fault is
complete and its token satisfied; TRAP takes bytes 0 to 7 in g1. -/
def State.supply (s : State) (tile : Psn) (r : Record) (f : FullRecord) (v : List Byte) : State :=
  let store (s : State) (f : FullRecord) : State := s.modTile tile (·.putRecord { r with full := some f })
  if f.fault.code = .trap then
    store s { f with regs := { f.regs with g := put f.regs.g 1 (BitVec.ofNat 64 (numAt v 0 8)) }, reply := some none }
  else match f.fault.answer with
  | .item id =>
    match s.item id with
    | some (.access a) =>
      let c := a.landing.supply v { s.getCore r.src with regs := f.regs }
      let done := id :: s.sameRegister a.landing f.reissue
      let s := s.modCore r.src (fun d => { d with streams := c.streams, drains := c.drains })
      store (done.foldl State.dropItem s) { f with regs := c.regs, reissue := f.reissue.filter (fun i => !done.contains i), reply := some none }
    | _ => store s { f with reply := some none }
  | _ => store s { f with reply := some (some v) }

/-- KILL (R67): the activation ends; what it has bound, claimed or left waiting is released, its gang dissolves, its entry may fire. -/
def State.killRecord (s : State) (tile : Psn) (r : Record) (f : FullRecord) : State :=
  let p := r.src
  let s := s.modTile tile (·.dropRecord r.index)
  let s := match f.gang with
    | some g => if g.position = 0 then s.dissolve { g with leader := p } else s
    | none => s
  let s := s.unbindAll p r.entry
  let c := s.getCore p
  let lost := c.matOps.filter (fun m => m.stage == .stalled && m.entry == r.entry)
  let s := (lost.map (·.id)).foldl State.dropItem s
  let s := f.reissue.foldl State.dropItem s
  s.modCore p (fun c => (({ c with matOps := c.matOps.filter (fun m => !lost.contains m) }.release f.claims).setActive r.entry false).setFhold
    r.entry false)

/-- The fault message that a reply answers leaves the inbox, and kept messages go out (R416, log entry 37). -/
def State.answered_ (s : State) (tile : Psn) (ref : Word) : State :=
  (s.modRegion (psnRegion tile) (fun r => { r with
    inbox := r.inbox.filter (fun b => !(numAt b 16 8 == ref.toNat && fld (BitVec.ofNat 64 (numAt b 0 8)) 54 54 == 1)) })).sendUnsent
    (psnRegion tile)

/-- Whether service firmware on a core serves a region's records (R300). -/
def serves (p : Psn) (region : Nat) : Bool :=
  decide (region < 80) && (if psnClass p = 3 then quadrantOf region == p % 512 else psnRegion p == region)

/-- A faulted continuation that no reply has answered. -/
def State.faulted (s : State) (tile : Psn) (i : Nat) : Option (Record × FullRecord) :=
  ((s.getTile tile).record i).bind (fun r => match r.full with
    | some f => if f.reply.isNone ∧ !r.ready then some (r, f) else none
    | none => none)
/-- The parked graph that holds a record without an answer, unless a reply to it is recorded (R417). -/
def State.parkedFault (s : State) (tile : Psn) (i : Nat) : Option (Graph × FullRecord) :=
  s.graphs.findSome? (fun g =>
    if g.stat = 3 ∧ !g.pendingReplies.any (fun x => x.1 == tile && x.2.1 == i) then
      (g.savedTiles.findSome? (fun t => if t.2.2.psn = tile then (t.2.2.record i).bind (fun r => r.full.filter (fun f => f.reply.isNone && !r.ready)) else none)).map (fun f => (g, f))
    else none)

/-- A reply to a record of a resident graph. -/
def State.answerLive (s : State) (tile : Psn) (r : Record) (f : FullRecord) (kill : Bool) (value : Option (List Byte)) : State :=
  if kill then s.killRecord tile r f
  else match value with
  | none => (s.modTile tile (·.putRecord { r with full := some { f with reply := some none } })).offer tile r.index
  | some v => (s.supply tile r f v).offer tile r.index

/-- FRESUME and FKILL (R300): whether the reply is accepted, and the state. -/
def State.reply (s : State) (from_ : Psn) (ref : Word) (kill : Bool) (value : Option (List Byte)) : Bool × State :=
  let tile := refTile ref
  let i := refIndex ref
  if !refOk ref || psnClass tile != 1 || !serves from_ (psnRegion tile) then (false, s)
  else match s.faulted tile i with
  | some (r, f) =>
    if value.isSome && !valueOk f.fault then (false, s) else (true, (s.answerLive tile r f kill value).answered_ tile ref)
  | none =>
    match s.parkedFault tile i with
    | some (g, f) =>
      if value.isSome && !valueOk f.fault then (false, s)
      else (true, (s.putGraph { g with pendingReplies := g.pendingReplies ++ [(tile, i, value, kill)] }).answered_ tile ref)
    | none => (false, s)

end Sys2Proof.Machine
end

