-- ==== Sys2Proof/Machine/Cancel.lean ====
section
/-! DEFINITION. The cancellation of a ring operation and its re-run (08 R217, R218), and the waiters that a cancellation ends (07 R191). -/
namespace Sys2Proof.Machine
open Sys2Proof

/-- An entry of the operation is armed again under the new number. -/
def rearm (op new : Nat) (m : Match) : Match :=
  if mState m = 0 ∨ mOpnum m ≠ op then m
  else BitVec.ofNat 128 (2 ^ 61 + fld m 56 51 * 2 ^ 51 + fld m 47 40 * 2 ^ 40 + fld m 31 0 + new * 2 ^ 121)
/-- One member of a cancelled operation (R217). `sealed` is kept: it says whether the member seals again at the re-run (R218). -/
def Core.cancelOp (c : Core) (state cancels : Nat) : Core :=
  let new := (c.opnum + 1) % 128
  let d : Core := { c with
    acc := Vector.ofFn (fun i : Fin 4 => if c.ringClaims.getLsbD i.val then Acc.zero else at_ c.acc i.val Acc.zero)
    matches_ := c.matches_.map (rearm c.opnum new)
    inject := c.inject.map (fun r => if recLive r then setFld r 61 55 new else r) }
  { (({ d.emptySlots with ringClaims := 0 } : Core).nextOp state cancels) with sealed := c.sealed }

/-- The last step of a waiter's fault: a full record takes it once one is free and its core has room for the message (R191, R416). The registers
are those that a resumption would give. -/
def State.convertWaiter (s : State) (tile : Psn) (r : Record) : State :=
  let c := s.getCore r.src
  match r.doomed, (s.getTile tile).freeFull with
  | some f, some i =>
    if 4 ≤ c.unsent.length then s
    else
      let d := s.resumeShort c r 0
      match d.act with
      | none => s
      | some a =>
        let s := s.modTile tile (fun t => (t.dropRecord r.index).putRecord (faultedRecord d a f [] i))
        let s := ({ s with nextSerial := s.nextSerial + 1 } : State).putCore ((c.addQ 52 1).setFhold r.entry true)
        s.postFault r.src (faultMessage f.code true true c.halting r.ctx r.entry r.actor s.tsc.toNat (contRef tile i) r.src r.pc.toNat f.detail)
  | _, _ => s
/-- A waiter ends: its record is neither ready nor offered (R191). -/
def State.doom (s : State) (tile : Psn) (r : Record) (f : FaultInfo) : State :=
  let s := r.offered.foldl (fun s p => s.modCore p (fun c => { c with runq := c.runq.filter (fun x => x.cont != some (tile, r.index)) })) s
  let r : Record := { r with ready := false, offered := [], doomed := some f }
  (s.modTile tile (·.putRecord r)).convertWaiter tile r

/-- What a cancellation for an error does at a member (R217): a message and q52; the activations that wait on q49 or hold a claim on a
zeroed accumulator are faulted continuations. -/
def State.failMember (s : State) (p : Psn) (f : FaultInfo) (zeroed : BitVec 4) : State :=
  let s := s.coreNotice p f.code f.detail
  let c := s.getCore p
  let hit := c.act.any (fun a => a.claims &&& zeroed != 0 || a.waits.any (·.1 == 49))
  let s := if hit then s.faultCore p f else s
  match s.homeTile c with
  | none => s
  | some t => ((s.getTile t).records.filter (fun r => r.src == p && r.full.isNone && r.doomed.isNone &&
      (r.claims &&& zeroed != 0 || r.pairs.any (·.1 == 49)))).foldl (fun s r => s.doom t r f) s

/-- CANCEL (R217), for every reason. -/
def State.cancelRing (s : State) (region : Nat) (r : Ring) (reason : Nat) : State :=
  let f := fun (c : Core) => c.ringFault reason
  let marks := r.members.map (fun p => (p, f (s.getCore p), (s.getCore p).ringClaims))
  let state := if reason ≤ 2 then 2 else 3
  let origin := r.origin
  let s := ((s.dropRelights r).dropSeals region r).modMembers r (fun c =>
    c.cancelOp state (if c.psn = origin then min 0xFFFF (opCancels c.ringOp + 1) else 0))
  if reason = 1 then s.coreNotice origin .ringstate ((marks.headD (origin, f (s.getCore origin), 0)).2.1).detail
  else if reason = 2 then s
  else marks.foldl (fun s x => s.failMember x.1 x.2.1 x.2.2) s
/-- Whether the messages of a cancellation find room (R416). -/
def State.canCancel (s : State) (r : Ring) (reason : Nat) : Bool :=
  if reason = 1 then s.canNotice r.origin else if reason = 2 then true else r.members.all s.canNotice
/-- An operation that has begun: a seal, an injection or a tile in a slot. -/
def State.ringBegun (s : State) (r : Ring) : Bool :=
  (s.getCore r.origin).ringState == 1 || r.members.any (fun p =>
    let c := s.getCore p
    c.sealed || c.inject.toList.any recLive || (List.range 8).any (fun i => c.slotState i != 0))

/-! The re-run (R218). -/

/-- Whether a ring can run again: it is formed, its members are live and unleased, its graph is resident. -/
def State.canRerun (s : State) (region : Nat) (r : Ring) : Bool :=
  (s.getCore r.origin).ringState == 2 && r.formed && r.leaseAt.isNone &&
    r.members.all (fun p => (s.getCore p).live && !s.regions.any (fun g => g.leases.any (fun l =>
      leaseUnit l == coreUnit p && decide (3 ≤ leaseState l ∧ leaseState l ≤ 6)))) &&
    (s.graphOf region r.ctx).any (fun g => g.stat == 1)
/-- The re-run begins: the members that had sealed seal again with their restored entries; every record waits for its injection. -/
def State.startRerun (s : State) (r : Ring) : State :=
  let s := s.modMembers r (fun c => { c with
    ringOp := setFld c.ringOp 56 55 (if r.members.any (fun p => (s.getCore p).sealed) then 1 else 0)
    reinject := BitVec.ofNat 16 ((List.range 16).foldl (fun n i => n + (recLive (at_ c.inject i 0)).toNat * 2 ^ i) 0) })
  r.members.foldl (fun s p => if (s.getCore p).sealed then s.seal p else s) s
/-- The next recorded tile of a member, where two slots of its family are free and promised to no tile (R207). -/
def State.nextReinject (s : State) (c : Core) : Option (Nat × Nat) :=
  match (List.range 16).find? (fun i => c.reinject.getLsbD i) with
  | some i =>
    let w := recFam (at_ c.inject i 0)
    if s.openSlots c w < 2 then none else (c.freeSlots w).head?.map (fun slot => (i, slot))
  | none => none
/-- A recorded tile is injected again from its source in the member's home store tile (R218, R388). -/
def State.injectAgain (s : State) (p : Psn) : State :=
  let c := s.getCore p
  match s.nextReinject c, s.homeTile c with
  | some (i, slot), some t =>
    let w := at_ c.inject i 0
    ((s.tileRead t (recSrc w % 2 ^ 19) 2048).fillSlot p slot 1 (makeHdr (recFam w) c.opnum (recLaps w) (recFmt w) (recTag w) c.name)
      (s.bytes (tileKey t (recSrc w % 2 ^ 19)) 2048)).modCore p (fun c => { c with reinject := c.reinject &&& ~~~ (BitVec.ofNat 16 (2 ^ i)) })
  | _, _ => s
/-- Whether the source may be read: an error that cannot be corrected is reported (R79), and its OPERAND buffers are full (R166). -/
def State.canReinject (s : State) (p : Psn) : Bool :=
  let c := s.getCore p
  match s.nextReinject c, s.homeTile c with
  | some (i, _), some t =>
    let o := recSrc (at_ c.inject i 0) % 2 ^ 19
    s.canReadTile t o 2048 && (s.getTile t).isFull o 2048
  | _, _ => true

end Sys2Proof.Machine
end

