-- ==== Sys2Proof/Machine/FaultEvents.lean ====
section
/-! DEFINITION. The steps of faults: the conversion of an activation that waited for a record (07 R191), a wick counter at zero and the clear of a
snuff (16 R424). -/
namespace Sys2Proof.Machine
open Sys2Proof

/-- Whether a halted activation finds a full record free, its accesses drained and a message slot (R191, R416). -/
def State.canConvert (s : State) (p : Psn) : Bool :=
  let c := s.getCore p
  match c.act, s.homeTile c with
  | some a, some t => ((s.getTile t).freeFull).isSome && s.drained p a.serial && s.canNotice p && levelOf p == .graph
  | _, _ => false
/-- The oldest waiter of a core that a ring cancellation ended, with its tile (R191, R217). -/
def State.doomedOf (s : State) (p : Psn) : Option (Psn × Record) :=
  (s.homeTile (s.getCore p)).bind (fun t => ((s.getTile t).records.find? (fun r => r.src == p && r.doomed.isSome)).map (fun r => (t, r)))
/-- FAULTED_CONTINUATION_CONVERT: of the activation halted on the core, else of a waiter of its actor. -/
def execFaultedContinuationConvert (core : Psn) (s : State) : Out :=
  match (s.getCore core).act.bind (·.halted) with
  | some f => event (s.canConvert core) s (s.faultCore core f)
  | none =>
    match s.doomedOf core with
    | some (t, r) => .next (s.convertWaiter t r)
    | none => .next s

/-- WICK_EXPIRY: a wick counter that has reached zero while its activation runs. -/
def execWickExpiry (core : Psn) (s : State) : Out :=
  let c := s.getCore core
  event (c.wickOn && c.wick == 0 && c.act.any (·.halted.isNone) && s.canSnuff core) s (s.snuffCore core 1)

/-- The records of the actor on a core that only it may resume. -/
def State.pinnedRecords (s : State) (p : Psn) : Bool :=
  match s.homeTile (s.getCore p) with
  | some t => (s.getTile t).records.any (fun r => r.src == p && r.pinned)
  | none => false
/-- CORE_SNUFF is cleared only while nothing is resident and no record is pinned to the core. -/
def State.clearSnuff (s : State) (p : Psn) : State :=
  if (s.getCore p).act.isNone ∧ !s.pinnedRecords p then s.modCore p (fun c => { c with snuff := 0 }) else s
def execCoreSnuffClear (core : Psn) (s : State) : Out := if isCorePsn core then .next (s.clearSnuff core) else .fault .noSuchUnit

end Sys2Proof.Machine
end

