-- ==== Sys2Proof/Machine/RunEvents.lean ====
section
/-! DEFINITION. The steps of the run queue, of continuations and of gangs (07 R177, R182, R183, R190, R193, R194; the reissue of R74). -/
namespace Sys2Proof.Machine
open Sys2Proof

/-- ENTRY_FIRE. -/
def execEntryFire (core : Psn) (entry : Nat) (s : State) : Out :=
  let c := s.getCore core
  if !isGridCore core ∨ 20 ≤ entry then .fault .noSuchUnit
  else event (c.fireable entry && decide (c.runq.length < 32) && c.live && !c.halting) s (s.fireEntry core entry none)

/-! Starting (R182, R416, R420, R424, R454). -/

/-- Whether a core may start an activation. A core asked to join a gang takes no run-queue entry first (R193). -/
def State.canStart (s : State) (p : Psn) : Bool :=
  let c := s.getCore p
  c.act.isNone && c.live && !c.snuffed && !c.halting && s.canNotice p && !bit (s.getCluster (psnRegion p) (clusterOf p)).ctl 63 &&
    !s.gated p && !(s.core :: s.cores).any (fun l => l.act.any (fun a => a.joining.any (fun j => j.2 == p) && s.canJoin a p))
/-- The entry a core starts: a continuation under HOLD waits; what has fired before HOLD was set starts (R176, R178). -/
def Core.nextEntry (c : Core) : Option RunEntry := firstEntry (c.runq.filter (fun r => r.cont.isNone || !hHold (c.handler r.entry)))

/-! The reissue after a RESUME (R74). -/

/-- The part that an access is, as it stands. -/
def Access.part (a : Access) : Part :=
  { owner := a.owner, space := a.space, addr := a.addr, phys := a.phys, place := 0, size := a.size, pkind := a.pkind, key := a.key, tags := a.tags
    spliced := a.spliced, psize := a.psize }
/-- The parts that n bytes at an address of GLOBAL have under the pages of now, or the fault. -/
def State.pageAgain (s : State) (p : Psn) (a : Access) (va place n : Nat) : (List Part × Option FaultInfo) × State :=
  let write := a.kind == .store || a.kind == .atomic || a.kind == .capStore
  match s.walk (psnRegion p) a.ctx va (levelOf p) a.code write a.tagv with
  | (.bad level cause, t) => (([], some { code := .page, detail := pageDetail va a.code level cause a.ctx }), t)
  | (.leaf e size _, t) => ((t.pageParts (Tlb.ofLeaf a.ctx va size e) va place n, none), t)
/-- The elements of a DGATH translated again, in their order. -/
def State.elemsAgain (s : State) (p : Psn) (a : Access) (l : List (Nat × Nat)) : (List Part × Option FaultInfo) × State :=
  match l with
  | [] => (([], none), s)
  | (i, va) :: rest =>
    match s.pageAgain p a va i a.size with
    | ((ps, some f), t) => ((ps, some f), t)
    | ((ps, none), t) =>
      let more := t.elemsAgain p a rest
      ((ps ++ more.1.1, more.1.2), more.2)
/-- The parts that an access has under the maps and pages of now, or the fault of its translation (R74). A request through a line handle has none to
make; one that needs DRAM pages and finds another class is refused as at its issue (R334). -/
def State.translateAgain (s : State) (p : Psn) (a : Access) : List Part × Option FaultInfo × State :=
  let lost : FaultInfo := { code := .capbound, detail := capDetail a.code 0xFF a.addr }
  match a.space with
  | 1 => match s.storeTile (s.getCore p) (a.addr / 2 ^ 19) with
    | some t => ([{ a.part with owner := .tile t (a.addr % 2 ^ 19) }], none, s)
    | none => ([], some lost, s)
  | 2 => match s.exchPlace a.addr with
    | some t => ([{ a.part with owner := .tile t.1 t.2 }], none, s)
    | none => ([], some lost, s)
  | 3 =>
    if 4 ≤ a.op ∧ a.op ≤ 9 then ([a.part], none, s)
    else
      let r := if a.op = 2 then s.elemsAgain p a (a.gather.zip a.elems |>.map (fun x => (x.1.1, x.2.1))) else s.pageAgain p a a.addr 0 a.size
      if a.engine ∧ r.1.2.isNone ∧ r.1.1.any (fun q => !isDram q.owner) then
        ([], some { code := .capperm, detail := capDetail 8 0xFF a.addr }, r.2)
      else (r.1.1, r.1.2, r.2)
  | _ => ([a.part], none, s)
/-- Where a part of a reply lands. -/
def Landing.shift (l : Landing) (n : Nat) : Landing :=
  match l with
  | .gpr r place ty => .gpr r (place + n) ty
  | .vec r place => .vec r (place + n)
  | .push t st place => .push t st (place + n)
  | l => l
/-- An access under its new translation, for one part of it. -/
def Access.onPart (a : Access) (p : Part) : Access :=
  { a with owner := p.owner, addr := p.addr, phys := p.phys, pkind := p.pkind, key := p.key, tags := p.tags, spliced := p.spliced, psize := p.psize
           size := p.size, data := if a.data = [] then [] else slice a.data p.place p.size, landing := a.landing.shift p.place
           stage := .held, fault := none }
/-- The requests of a DGATH under its new translation, one for each stack (R110). -/
def Access.gathers (a : Access) (ps : List Part) : List Access :=
  ((ps.map (fun p => dramStack p.phys)).eraseDups).filterMap (fun st =>
    match ps.filter (fun p => dramStack p.phys == st) with
    | [] => none
    | p :: more => some { a with owner := p.owner, addr := p.addr, phys := p.phys, pkind := p.pkind, key := p.key, spliced := p.spliced, psize := p.psize
                                 gather := (p :: more).map (fun q => (q.place, q.phys)), elems := (p :: more).map (fun q => (q.addr, q.psize))
                                 stage := .held, fault := none })
/-- An access is issued again: its item takes the first part, an item of its own each further one; a translation that fails is its owner's fault
anew. -/
def State.reissueAs (s : State) (id : Nat) (a : Access) (ps : List Part) (f : Option FaultInfo) : State :=
  match (if a.op = 2 then a.gathers ps else ps.map a.onPart), f with
  | x :: more, none => more.foldl (fun s y =>
      let t := s.launchItem (.access y)
      match y.landing.reg with
      | some r => t.modCore a.core (fun c => if c.awaits r id then { c with pend := c.pend ++ [(r, s.nextId)] } else c)
      | none => t) (s.setItem id (.access x))
  | _, _ => s.setItem id (.access { a with stage := .refused, fault := f.map (fun f => { f with answer := .item id }) })
/-- One access of a resumed activation is issued again. -/
def State.reissueOne (s : State) (p : Psn) (id : Nat) : State :=
  match s.item id with
  | some (.access a) =>
    let r := s.translateAgain p a
    r.2.2.reissueAs id a r.1 r.2.1
  | _ => s
/-- Items in the order of their issue. -/
def sortIds (l : List Nat) : List Nat := l.foldl (fun acc i => acc.filter (· < i) ++ [i] ++ acc.filter (i < ·)) []
/-- What a resumption of a full record does beside its registers: accesses answered GONE go out again in the order of their issue, streams and matrix instructions of
the entry go on, its stopped copies too (R74, R100, R347, R381). -/
def State.resumeEngines (s : State) (p : Psn) (entry serial : Nat) (ids : List Nat) : State :=
  let s := s.modCore p (fun c => { c with
    streams := c.streams.map (Option.map (fun st => if st.owner = entry then { st with fault := none } else st))
    drains := c.drains.map (fun st => if st.serial = serial then { st with fault := none } else st)
    matOps := c.matOps.map (fun m => if m.entry = entry ∧ m.stage = .stalled then { m with stage := .queued } else m)
    copies := c.copies.map (fun k => { k with queue := k.queue.map (fun x => if x.serial = serial then { x with stopped := false } else x) }) })
  (sortIds ids).foldl (fun s i => s.reissueOne p i) s

/-- A core starts an entry of its run queue. -/
def State.startEntry (s : State) (p : Psn) (r : RunEntry) : State :=
  match r.cont with
  | none => (s.startMessage p r).engineRead p (hDesc ((s.getCore p).handler r.entry)) 272
  | some (t, i) =>
    let t' := s.startCont p r t i
    match (s.getTile t).record i with
    | some rec_ => match rec_.full with
      | some f => if rec_.ready then t'.resumeEngines p rec_.entry f.serial f.reissue else t'
      | none => if rec_.ready then t'.engineRead p (hDesc ((s.getCore p).handler rec_.entry)) 272 else t'
    | none => t'
/-- ACTIVATION_START. -/
def execActivationStart (core : Psn) (s : State) : Out :=
  match (s.getCore core).nextEntry with
  | some r => event (s.canStart core) s (s.startEntry core r)
  | none => .next s
/-- CONTINUATION_RESUME: the same start, of the record named. -/
def execContinuationResume (core tile : Psn) (record : Nat) (s : State) : Out :=
  match (s.getCore core).nextEntry with
  | some r => event (s.canStart core && r.cont == some (tile, record)) s (s.startEntry core r)
  | none => .next s
/-- RUNQ_PROMOTION (R183). -/
def execRunqPromotion (core : Psn) (place : Nat) (s : State) : Out :=
  let c := s.getCore core
  let age := (s.getRegion (psnRegion core)).runqAge.toNat
  match c.runq[place]? with
  | some r => event (decide (r.level < 3 ∧ r.promoted + age ≤ s.tsc.toNat)) s
      (s.putCore { c with runq := c.runq.set place { r with level := r.level + 1, promoted := r.promoted + age } })
  | none => .next s

/-- CONTINUATION_READY: every pair reached, or a ready record that an eligible core has not been offered (R190). -/
def execContinuationReady (tile : Psn) (record : Nat) (s : State) : Out :=
  match (s.getTile tile).record record with
  | some r => event (r.doomed.isNone && (r.ready || (r.full.isNone && s.allReached r.src tile r.pairs))) s (s.offer tile record)
  | none => .next s

/-! Gangs (R193, R194). -/

/-- The leader that has asked a core to join. -/
def State.askedBy (s : State) (p : Psn) : Option Core :=
  (s.core :: s.cores).find? (fun l => l.act.any (fun a => a.joining.any (·.2 == p)))
/-- GANG_MEMBER_JOIN: a core without an activation starts the member's. FIRINGS does not count it (log entry 52). -/
def State.join (s : State) (p : Psn) (leader : Core) (a : Act) : State :=
  let c := s.getCore p
  let g : Gang := { leader := leader.psn, position := 1, attached := true, members := [], faults := 0, rejoin := none, relayed := []
                    received := none }
  let s := s.putCore ((s.freshAct c a.entry (hPrio (c.handler a.entry)) 0 a.wid (some g)).setActive a.entry true)
  ({ s with nextSerial := s.nextSerial + 1 } : State).engineRead p (hDesc (c.handler a.entry)) 272
def execGangMemberJoin (core : Psn) (s : State) : Out :=
  match s.askedBy core with
  | some l => match l.act with
    | some a => event ((s.getCore core).act.isNone && s.canJoin a core && s.canNotice core && !(s.getCore core).halting) s (s.join core l a)
    | none => .next s
  | none => .next s
/-- GANG_RELAY: an attached member receives the next instruction; the machine looks at it. -/
def State.receive (s : State) (p : Psn) : State :=
  (s.modCore p (fun c => { c with act := c.act.map (fun a => { a with gang := a.gang.map (fun g =>
    { g with received := g.relayed.head?, relayed := g.relayed.tail }) }) })).focus p
def execGangRelay (core : Psn) (s : State) : Out :=
  match (s.getCore core).act with
  | some a => event (a.halted.isNone && a.gang.any (fun g => g.attached && !g.relayed.isEmpty && g.received.isNone)) s (s.receive core)
  | none => .next s

end Sys2Proof.Machine
end

