-- ==== Sys2Proof/Machine/TransEvents.lean ====
section
/-! DEFINITION. The steps of translation: misses, walks and fills (02 R62 to R66), invalidation (R65), page splices (R69 to R71) and the evacuation of a
store tile (R72). -/
namespace Sys2Proof.Machine
open Sys2Proof

/-! Misses (R63). -/

/-- The L2: 512 sets of 8 ways by address bits 24:16, the most recently used first. -/
def fillL2 (l : List Tlb) (e : Tlb) : List Tlb :=
  let rest := l.filter (fun x => !(x.ctx == e.ctx && x.vpage == e.vpage))
  let old := (rest.filter (fun x => x.vpage % 512 == e.vpage % 512)).drop 7
  e :: rest.filter (fun x => !old.contains x)
/-- A free page walker of the eight takes the oldest walk that has none (R17). -/
def Region.takeWalk (r : Region) : Region :=
  match (List.range 8).find? (fun i => r.walks.all (fun k => k.walker != some i)), r.walks.find? (·.walker.isNone) with
  | some i, some k => { r with walks := r.walks.map (fun x => if x = k then { x with walker := some i } else x) }
  | _, _ => r
/-- A walk waits for a page; requests for one page share it. -/
def State.queueWalk (s : State) (region : Nat) (w : Miss) : State :=
  s.modRegion region (fun r => Region.takeWalk (
    if r.walks.any (fun k => k.ctx == w.ctx && k.vpage == w.va / 65536) then
      { r with walks := r.walks.map (fun k => if k.ctx == w.ctx && k.vpage == w.va / 65536 then { k with waiters := k.waiters ++ [w] } else k) }
    else { r with walks := r.walks ++ [{ ctx := w.ctx, vpage := w.va / 65536, waiters := [w] }] }))
/-- L2_TLB_REQUEST: a hit answers, unless a store finds DIRTY = 0 (R60); a miss joins or enters the queue of 64 walks. -/
def execL2TlbRequest (id : Nat) (s : State) : Out :=
  match s.item id with
  | some (.l2Request w) =>
    let region := psnRegion w.core
    let r := s.getRegion region
    match r.l2.find? (fun e => e.covers w.ctx w.va && (!w.write || leafDirty e.leaf)) with
    | some e => .next ((s.modRegion region (fun r => { r with l2 := touchTlb r.l2 w.ctx w.va })).setItem id (.fill w e))
    | none => event (decide (r.walks.length < 64) || r.walks.any (fun k => k.ctx == w.ctx && k.vpage == w.va / 65536)) s
        ((s.dropItem id).queueWalk region w)
  | _ => .next s

/-- One requester of a walk is answered; a page found fills the L2 with the part that was touched. -/
def State.answerWalk (s : State) (region : Nat) (w : Miss) : State :=
  match s.walk region w.ctx w.va (levelOf w.core) w.access w.write w.tagged with
  | (.bad level cause, t) => t.launchItem (.fillFault w level cause)
  | (.leaf e size _, t) =>
    let entry := Tlb.ofLeaf w.ctx w.va size e
    (t.modRegion region (fun r => { r with l2 := fillL2 r.l2 (entry.part w.va) })).launchItem (.fill w entry)
/-- The entry of a walk that cannot be read (R66 cause 0x09): its place, and the requester's core whose message reports it as ECCFATAL. -/
def State.lostEntry (s : State) (region : Nat) (k : Walk) : Option (Nat × Psn) :=
  match s.findLeaf region k.ctx (k.vpage * 65536), k.waiters with
  | .bad level 9, w :: _ => some (s.entryAt region k.ctx (k.vpage * 65536) level, w.core)
  | _, _ => none
/-- The walk of a page ends: every requester is answered, an entry that cannot be read is reported, and the walker takes another walk. -/
def State.finishWalk (s : State) (region : Nat) (k : Walk) : State :=
  let t := s.modRegion region (fun r => Region.takeWalk { r with walks := r.walks.filter (· != k) })
  let t := match s.lostEntry region k with
    | some x => (t.noteFatal x.1).coreNotice x.2 .eccfatal (eccDetail x.1 1)
    | none => t
  k.waiters.foldl (fun s w => s.answerWalk region w) t
/-- PAGE_WALK: the walk that one of the eight walkers has taken; a walk that must report an entry waits until its core can send the message (R416). -/
def execPageWalk (walker : Walker) (s : State) : Out :=
  let region := walker.region
  if 80 ≤ region ∨ 8 ≤ walker.number then .fault .noSuchUnit
  else match (s.getRegion region).walks.find? (fun k => k.walker == some walker.number) with
  | none => .next s
  | some k => event ((s.lostEntry region k).all (fun x => s.canNotice x.2)) s (s.finishWalk region k)

/-! Fills and failures. -/

/-- Whether what asked for a page still waits for it: an engine, or the instruction at the pc. -/
def Miss.waits (w : Miss) (c : Core) : Bool := w.unit != 0 || (c.waiting && c.act.any (fun a => a.serial == w.serial))
/-- A fill: the instruction TLB keeps 16 entries and the data TLB 32; what waits keeps its translation until it has them all (R62, R66, log entry 30). -/
def Core.fill (c : Core) (w : Miss) (e : Tlb) : Core :=
  let add (l : List Tlb) (n : Nat) : List Tlb := (e :: l.filter (fun x => !(x.ctx == e.ctx && x.vpage == e.vpage && x.size == e.size))).take n
  if w.access = 3 then { c with itlb := add c.itlb 16 }
  else { c with dtlb := add c.dtlb 32, caught := if w.waits c then c.caught ++ [(w.unit, e)] else c.caught }

/-- A matrix entry fails: it and every later entry that names one of its accumulators wait for a RESUME; the fault comes at the boundary with the
entry's address (R381). -/
def State.stallMatrix (s : State) (p : Psn) (id : Nat) (f : FaultInfo) : State :=
  s.modCore p (fun c =>
    match c.matOps.find? (·.id == id) with
    | none => c
    | some m =>
      let later := (c.matOps.dropWhile (· != m)).filter (fun x => (x.stage == .queued || x == m) && (List.range 4).any (fun n => m.names n && x.names n))
      { c with
        matOps := c.matOps.map (fun x => if later.contains x then { x with stage := .stalled } else x)
        act := c.act.map (fun a => { a with boundary := a.boundary ++ [{ f with at_ := some (m.pc.toNat % 2 ^ 32), answer := .nothing }] }) })
/-- A failure that a stream's engine meets (R347): kept for the pop that needs the element; of pushed writes, delivered at the next boundary, or against
the graph when the slot is unbound. -/
def State.failStream (s : State) (p : Psn) (token : Nat) (f : FaultInfo) : State :=
  let f := { f with answer := .nothing }
  let c := s.getCore p
  let mark (st : Stream) : Stream := if st.token = token then { st with fault := some f } else st
  match (c.streams.toList.filterMap id ++ c.drains).find? (·.token == token) with
  | none => s
  | some st =>
    let mine := c.act.any (fun a => a.serial == st.serial)
    if !st.bound ∧ !mine then
      (((s.freeGenerator st).modCore p (fun c => { c with drains := c.drains.filter (·.token != token) })).dropItem st.unbind).coreNotice p f.code f.detail
    else s.modCore p (fun c => { c with
      streams := c.streams.map (Option.map mark), drains := c.drains.map mark
      act := if st.output ∧ mine then c.act.map (fun a => { a with boundary := a.boundary ++ [f] }) else c.act })
/-- A walk's failure reaches the core (R66, R68): the waiting instruction's fault, a prefetch dropped, or an engine's. -/
def State.fillFails (s : State) (w : Miss) (level cause : Nat) : State :=
  let c := s.getCore w.core
  let f : FaultInfo := { code := .page, detail := pageDetail w.va w.access level cause w.ctx, answer := if w.answers then .instr else .nothing }
  if w.unit ≠ 0 then
    (if c.matOps.any (·.id == w.unit) then s.stallMatrix w.core w.unit f else s.failStream w.core w.unit f)
  else if !(c.waiting && c.act.any (fun a => a.serial == w.serial && a.halted.isNone)) then s
  else if w.access = 10 then s.modCore w.core (fun c => { c with act := c.act.map (fun a => { a with resumed := some [] }) })
  else s.faultCore w.core f
/-- TLB_FILL_REPLY. -/
def execTlbFillReply (id : Nat) (s : State) : Out :=
  match s.item id with
  | some (.fill w e) => .next ((s.dropItem id).modCore w.core (·.fill w e))
  | some (.fillFault w level cause) => .next ((s.dropItem id).fillFails w level cause)
  | _ => .next s

/-! Invalidation (R65). -/

/-- Whether a TLB_INVAL write reaches a translation. -/
def Tlb.inScope (v : Word) (e : Tlb) : Bool :=
  match fld v 63 62 with
  | 0 => e.ctx == fld v 55 51 && e.vpage == fld v 47 16 * 65536 / 2 ^ e.size
  | 1 => e.ctx == fld v 55 51
  | _ => true
/-- The regions whose Lanterns act. -/
def State.invalRegions (s : State) (region : Nat) (v : Word) : List Nat :=
  if bit v 0 then region :: (((s.graphOf region (fld v 55 51)).map Graph.regionList).getD []).filter (· != region) else [region]
/-- The pages by which an access was translated, every element's of a DGATH, as translations. -/
def Access.pages (a : Access) : List Tlb :=
  (if a.elems = [] then [(a.addr, a.psize)] else a.elems).map (fun x =>
    { ctx := a.ctx, vpage := x.1 / 2 ^ x.2, size := x.2, leaf := 0, splice := false })
/-- The items that used a removed translation and are not yet performed or answered: accesses, and copy commands with their pages. -/
def State.usersOf (s : State) (rs : List Nat) (v : Word) : List Nat :=
  (s.flight.filter (fun i => match i.body with
    | .access a => rs.contains (psnRegion a.core) && a.space == 3 && a.pages.any (Tlb.inScope v) && a.stage != .performed
    | _ => false)).map (·.id) ++
  ((s.core :: s.cores).filter (fun c => rs.contains (psnRegion c.psn))).flatMap (fun c =>
    c.copies.toList.flatMap (fun k => (k.queue.filter (fun x => x.pages.any (Tlb.inScope v))).map (·.id)))
/-- The entries are gone from the L2 and from every core TLB; a fill on its way asks again. -/
def State.dropTlbs (s : State) (rs : List Nat) (v : Word) : State :=
  let keep (l : List Tlb) : List Tlb := l.filter (fun e => !e.inScope v)
  let clean (c : Core) : Core := if rs.contains (psnRegion c.psn) then { c with itlb := keep c.itlb, dtlb := keep c.dtlb, caught := c.caught.filter (fun x => !x.2.inScope v) } else c
  let s := rs.foldl (fun s r => s.modRegion r (fun g => { g with l2 := keep g.l2 })) s
  { s with core := clean s.core, cores := s.cores.map clean
           flight := s.flight.map (fun i => match i.body with
             | .fill w e => if rs.contains (psnRegion w.core) && e.inScope v then { i with body := .l2Request w } else i
             | _ => i) }
/-- A write of TLB_INVAL: dropped while BUSY or with the reserved scope, else BUSY at once. -/
def State.invalidate (s : State) (region : Nat) (v : Word) : State :=
  if bit (s.getRegion region).invalStat 0 ∨ fld v 63 62 = 3 then
    s.modRegion region (fun r => { r with invalStat := setBit r.invalStat 1 true })
  else
    let rs := s.invalRegions region v
    (s.dropTlbs rs v).modRegion region (fun r => { r with invalStat := setBit r.invalStat 0 true, invalWaits := s.usersOf rs v })
def State.invalEvent (s : State) (region scope : Nat) (v : Word) : Out :=
  if 80 ≤ region then .fault .noSuchUnit else event (fld v 63 62 == scope) s (s.invalidate region v)
def execTlbInvalPage (region : Nat) (value : Word) (s : State) : Out := s.invalEvent region 0 value
def execTlbInvalContext (region : Nat) (value : Word) (s : State) : Out := s.invalEvent region 1 value
def execTlbInvalAll (region : Nat) (value : Word) (s : State) : Out := s.invalEvent region 2 value
/-- TLB_INVAL_COMPLETE: BUSY falls. -/
def execTlbInvalComplete (region : Nat) (s : State) : Out :=
  if 80 ≤ region then .fault .noSuchUnit
  else event (bit (s.getRegion region).invalStat 0 && (s.getRegion region).invalWaits.all s.userDone) s
    (s.modRegion region (fun r => { r with invalStat := setBit r.invalStat 0 false, invalWaits := [] }))

/-! Page splices (R69, R70). -/

def spliceState (e : BitVec 128) : Nat := fld e 126 125
def spliceCtx (e : BitVec 128) : Nat := fld e 124 120
def spliceOld (e : BitVec 128) : Nat := fld e 63 32
def spliceNew (e : BitVec 128) : Nat := fld e 31 0
def splicePtr (e : BitVec 128) : Nat := fld e 90 80
/-- A 64-byte block copied with its tags under its key (R70): the data of a keyed page is enciphered again for its new place. A word that cannot be
corrected stays so. -/
def State.copyBlock (s : State) (key old new : Nat) : State :=
  let u := (s.putActor (((s.getActor (dramStack old)).touchRow old).touchRow new)).noteCopy old 64
  if key = 0 then u.copyTagged old new 64
  else
    let t := u.dramStore key new (u.dramRead key old 64)
    { t with tags := (Mem.tagsIn s.tags (old / 16) 4).foldl (fun l g => Mem.setTag l (g - old / 16 + new / 16)) t.tags
             upsets := t.upsets ++ (s.upsets.filter (fun x => x.2 && wordCovered old 64 x.1)).map (fun x => (x.1 - old / 8 + new / 8, true)) }
/-- One block of the copy: READ_PTR and WRITE_PTR count it. -/
def State.spliceBlock (s : State) (region i : Nat) (e : BitVec 128) (leaf : Word) : State :=
  let at0 := orderedBlock (splicePtr e) * 64
  let n := splicePtr e + 1
  (s.copyBlock (leafKey leaf) (spliceOld e * 65536 + at0) (spliceNew e * 65536 + at0)).modRegion region (fun r =>
    { r with splices := put r.splices i (setFld (setFld e 90 80 n) 74 64 n) })
/-- The copy has reached 1,024 blocks: the leaf names the new frame with SPLICE 10, and an invalidation with WAFER starts. -/
def State.spliceCopied (s : State) (region i : Nat) (e : BitVec 128) (va : Nat) (leaf : Word) (addr : Nat) : State :=
  let leaf' := setFld (setFld leaf 63 32 (spliceNew e)) 19 18 2
  let s := (s.dramWrite 0 addr (leBytes 8 leaf'.toNat)).modRegion region (fun r => { r with splices := put r.splices i (setFld e 126 125 2) })
  s.invalidate region (BitVec.ofNat 64 (spliceCtx e * 2 ^ 51 + va / 65536 * 2 ^ 16 + 1))
def State.spliceVaOf (s : State) (region i : Nat) : Nat := (((s.getRegion region).spliceVa.find? (fun x => x.1 == i)).map Prod.snd).getD 0
/-- SPLICE_COPY_COMPLETE: a block, or after the last one the leaf. -/
def execSpliceCopyComplete (region entry : Nat) (s : State) : Out :=
  if 80 ≤ region ∨ 16 ≤ entry then .fault .noSuchUnit
  else
    let e := at_ (s.getRegion region).splices entry 0
    let va := s.spliceVaOf region entry
    match s.findLeaf region (spliceCtx e) va with
    | .leaf leaf _ addr =>
      if bit e 127 ∧ spliceState e = 1 ∧ splicePtr e < 1024 then .next (s.spliceBlock region entry e leaf)
      else event (bit e 127 && spliceState e == 1 && !bit (s.getRegion region).invalStat 0) s (s.spliceCopied region entry e va leaf addr)
    | .bad _ _ => .next s
/-- The hold slots on rows of a frame are freed with reason 1 (R126). -/
def State.expireFrame (s : State) (frame : Nat) : State :=
  (s.actors.flatMap (fun a => (a.slots.filter (fun x => slotRow x.2.2 / 65536 == frame)).map (fun x => (a.stack, x.1, x.2.1)))).foldl
    (fun s x => s.expireSlot x.1 x.2.1 x.2.2 1) s
/-- SPLICE_FINISH: SPLICE 00, V and its mirror of SPLICE clear, no line on the old frame. -/
def State.spliceFinished (s : State) (region i : Nat) (e : BitVec 128) (va : Nat) : State :=
  let s := match s.findLeaf region (spliceCtx e) va with
    | .leaf leaf _ addr => s.dramWrite 0 addr (leBytes 8 (setFld leaf 19 18 0).toNat)
    | .bad _ _ => s
  (s.modRegion region (fun r => { r with splices := put r.splices i (setFld (setBit e 127 false) 126 125 0), spliceVa := r.spliceVa.filter (·.1 != i) })).expireFrame (spliceOld e)
def execSpliceFinish (region entry : Nat) (s : State) : Out :=
  if 80 ≤ region ∨ 16 ≤ entry then .fault .noSuchUnit
  else
    let e := at_ (s.getRegion region).splices entry 0
    event (bit e 127 && spliceState e == 2 && !bit (s.getRegion region).invalStat 0) s
      (s.spliceFinished region entry e (s.spliceVaOf region entry))

/-- STORE_TILE_EVACUATION (R72): the evacuation that a lease or a retirement has begun goes on by a step. -/
def execStoreTileEvacuation (source spare : Psn) (s : State) : Out :=
  if !isTilePsn source ∨ !isTilePsn spare then .fault .noSuchUnit
  else match s.evac source with
    | some e => event (e.target == spare && s.evacCanStep e) s (s.evacStep e)
    | none => .next s

end Sys2Proof.Machine
end

