-- ==== Sys2Proof/Machine/Graphs.lean ====
section
/-! DEFINITION. A graph as a whole (16 R419 to R423, 15 R401): pre-emption, the saved context, resumption, its end. The steps stand in
Machine/GraphEvents.lean. -/
namespace Sys2Proof.Machine
open Sys2Proof

def Graph.cores (g : Graph) : List Psn := (g.actors.map (fun a => a.2.1)).eraseDups
/-- Whether a ring, tree or record of a region belongs to a graph. -/
def Graph.owns (g : Graph) (region ctx : Nat) : Bool := g.ctx == ctx && g.regions.getLsbD region
def State.graphRings (s : State) (g : Graph) : List (Nat × Ring) :=
  g.regionList.flatMap (fun r => ((s.getRegion r).rings.filter (·.ctx == g.ctx)).map (fun x => (r, x)))

/-! GRAPH_STAT (R419). -/

/-- The registers of a graph's regions: BUSY, STATE and, at the end of an operation, DONE_TSC. -/
def State.showStat (s : State) (regions : List Nat) (busy : Bool) (stat : Nat) (done : Bool) : State :=
  regions.foldl (fun s r => s.modRegion r (fun g =>
    let w := setBit (setFld g.graphStat 62 60 stat) 63 busy
    { g with graphStat := if done then setFld w 31 0 s.tsc.toNat else w })) s
/-- An operation on a graph in the wrong state sets DONE_TSC alone. -/
def State.idleOp (s : State) (region : Nat) : State := s.modRegion region (fun g => { g with graphStat := setFld g.graphStat 31 0 s.tsc.toNat })

/-! Pre-emption (R420). -/

/-- The warning: each core of the graph is told the halt time. -/
def State.preempt (s : State) (g : Graph) (lead : Nat) : State :=
  let t := s.tsc.toNat + lead
  let s := s.putGraph { g with haltAt := some t, halted := [] }
  let s := s.showStat g.regionList true 1 false
  if lead = 0 then s
  else g.cores.foldl (fun s p => s.notify (lanternPsn (psnRegion p) 0) (s.fullName (psnRegion p) 0x3FFF0) p (notification 3 s.tsc.toNat 0 0 t)) s

/-- A move that has not reached step 4 is abandoned (R411). -/
def State.abandonMove (s : State) (region : Nat) : State :=
  match (s.getRegion region).move with
  | none => s
  | some m =>
    let s := (s.modCore m.from_ (·.restoreHolds m.holds)).setMoving m.from_ false
    s.modRegion region (fun r => { r with
      move := none
      moveStat := if m.lease.isNone then BitVec.ofNat 64 (5 * 2 ^ 56 + s.tsc.toNat % 2 ^ 32) else r.moveStat })
/-- The halt: no core starts an activation any more, open ring operations are cancelled with reason 0x02, open CRED rounds are abandoned. -/
def State.haltGraph (s : State) (g : Graph) : State :=
  let s := g.cores.foldl (fun s p => s.modCore p (fun c => { c with halting := true })) s
  let s := (g.regionList.filter (fun r => (s.getRegion r).move.any (·.ctx == g.ctx))).foldl State.abandonMove s
  let s := (s.graphRings g).foldl (fun s x =>
    if s.ringBegun x.2 ∧ (s.getCore x.2.origin).ringState < 2 ∧ !s.ringCompleting x.2 then s.cancelRing x.1 x.2 2 else s) s
  let s := g.regionList.foldl (fun s r => s.modRegion r (fun x => { x with
    trees := x.trees.map (fun t => if t.ctx = g.ctx then { t with rounds := [] } else t) })) s
  (s.putGraph { g with stat := 2, haltAt := none }).showStat g.regionList true 2 false

/-- Whether a halted core has drained (R420, R164): its accesses but those that a resumption issues again or that stand behind them, its direct writes, the vectors pushed, matrix instructions that have started, the current 64-byte blocks of its copy channels (R100),
relayed instructions of an attached member. -/
def State.coreQuiet (s : State) (p : Psn) : Bool :=
  let c := s.getCore p
  let noted := s.kept p ((c.act.map (·.reissue)).getD [])
  (s.accessesOf p).all (fun x => noted.contains x.1) &&
    s.flight.all (fun i => match i.body with
      | .directWrite a => a.core != p
      | .query q _ _ | .answer q _ _ | .ringOp q _ _ => q != p
      | .credResult q _ _ _ => q != p
      | _ => true) &&
    c.drains.all (·.pushed.isEmpty) && c.streams.toList.all (fun x => x.all (fun st => st.pushed.isEmpty)) &&
    c.matOps.all (fun m => m.stage != .computing && m.stage != .writing) &&
    c.copies.toList.all (fun x => match x.queue with
      | k :: _ => !k.started || k.stopped || (k.access.isNone && !s.midBlock p k)
      | [] => true) &&
    c.act.all (fun a => a.boundary.isEmpty && a.gang.all (fun g => !g.attached || (g.relayed.isEmpty && g.received.isNone)))

/-- What a halted core gives up: data fetched ahead, address generators, an MMAD's operands, members that have joined a GANG still waiting. -/
def State.quiesceCore (s : State) (p : Psn) : State :=
  let c := s.getCore p
  let s := match c.act with
    | some a =>
      let joined := (a.joining.map (fun (x : Nat × Psn) => x.2)).filter (fun (q : Psn) => s.hasJoined p q)
      if a.joining = [] then s
      else s.dissolve { leader := p, position := 0, attached := false, members := joined, faults := 0, rejoin := none, relayed := [], received := none }
    | none => s
  let s := (c.streams.toList.filterMap id ++ c.drains).foldl State.freeGenerator s
  let ids := c.copies.toList.flatMap (fun x => x.queue.map (·.id))
  let s : State := ({ s with tiles := s.tiles.map (fun t => { t with generators := t.generators.filter (fun g => !ids.contains g) }) } : State).unreserve p
  s.modCore p (fun (c : Core) => { c with
    act := c.act.map (fun a => { a with joining := [] }), waiting := false
    copies := c.copies.map (fun x => { x with queue := x.queue.map (fun k => { k with started := false }) })
    streams := c.streams.map (Option.map (fun (st : Stream) => { st with fetched := [] }))
    matOps := c.matOps.filter (fun m => m.stage != .stepping) })

/-! The save area (R422). -/

def saveBase (w : Word) (region : Nat) : Nat := fld w 45 16 * 65536 + region * (192 * 2 ^ 20)
def unitBase (base logical : Nat) : Nat := base + logical * 2 ^ 18
def storeBase (base index : Nat) : Nat := base + 64 * 2 ^ 20 + index * (520 * 1024)

/-- An accumulator of 24 KiB, and its header. -/
def Acc.saved (a : Acc) : List Byte :=
  (List.range 256).flatMap (fun n =>
    if a.f64 then leBytes 96 (fld (at_ a.cells n 0) 63 0)
    else leBytes 80 (at_ a.cells n 0).toNat ++ leBytes 16 ((a.nan.getLsbD n).toNat + 2 * (a.pinf.getLsbD n).toNat + 4 * (a.ninf.getLsbD n).toNat))
def Acc.header (a : Acc) (claimed : Bool) : List Byte := leBytes 16 (a.f64.toNat + a.progress * 2 ^ 8 + claimed.toNat * 2 ^ 16)
/-- The control page as loads see it. -/
def State.pageImage (s : State) (c : Core) : List Byte := (List.range 4096).map (byteOf (s.coreWord c))
/-- The resident activation as a full record. -/
def Core.residentRecord (c : Core) : List Byte :=
  match c.act with
  | none => List.replicate 4096 0
  | some a =>
    let r := faultedRecord c a { code := .illegal, detail := 0 } a.reissue 128
    match r.full with
    | some f => r.fullBytes f
    | none => []
/-- One core's unit. `claims` are those held by saved records. -/
def State.saveUnit (s : State) (c : Core) (base : Nat) (claims : BitVec 4) (resident : Bool) : State :=
  let page := s.pageImage c
  let s := s.copyTagged (localKey c.psn 0) base (96 * 1024)
  let s := s.poke (base + 96 * 1024) page
  let s := if resident then s.poke (base + 100 * 1024) c.residentRecord else s.poke (base + 100 * 1024) (List.replicate (12 * 1024) 0)
  let s := (List.range 4).foldl (fun s i => s.poke (base + 112 * 1024 + i * 24 * 1024) (at_ c.acc i Acc.zero).saved) s
  (s.poke (base + 208 * 1024) ((List.range 4).flatMap (fun i => (at_ c.acc i Acc.zero).header (claims.getLsbD i)))).clearRange
    (base + 208 * 1024 + 64) (48 * 1024 - 64)
/-- One store tile: segments with their tags, and its configuration. -/
def State.saveStore (s : State) (t : Tile) (base : Nat) : State :=
  let marks : List Byte := (List.range 4096).map (fun b => BitVec.ofNat 8 ((List.range 8).foldl (fun n i =>
    n + (s.tags.contains (tileKey t.psn 0 / 16 + 8 * b + i)).toNat * 2 ^ i) 0))
  let words := t.segCfg.toList ++ (List.range 8).map t.segStat ++ t.sq.toList
  let s := s.copyTagged (tileKey t.psn 0) base 0x80000
  let s := s.poke (base + 0x80000) marks
  s.poke (base + 516 * 1024) (slice (words.flatMap (fun w => leBytes 8 w.toNat)) 0 4096)

/-! Context save. -/

/-- Whether a message belongs to a graph: from one of its cores, or to one of their names. Fault messages are not held back. -/
def State.ofGraph (s : State) (g : Graph) (m : Msg) : Bool :=
  m.handle != 30 && (g.cores.contains m.src || g.cores.any (fun p => psnRegion p == m.region && (s.getCore p).name == m.dest))
/-- Nothing of the graph is on its way any more: notifications apart, which are held (R420). -/
def State.graphQuiet (s : State) (g : Graph) : Bool :=
  g.cores.all (fun p => g.halted.contains p) && s.flight.all (fun i => match i.body with
    | .message m => m.handle == 19 || !s.ofGraph g m
    | .credit p _ _ | .marker p _ _ | .completion p | .markerRequest p _ _ => !g.cores.contains p
    | .snuffnote p _ _ => !g.cores.contains p
    | _ => true)
/-- Items in flight that stay with a parked graph: accesses to reissue, contributions to rounds. -/
def Graph.keeps (g : Graph) (i : Item) : Bool :=
  match i.body with
  | .access a => g.cores.contains a.core
  | .contribution _ _ p _ _ _ _ _ _ _ => g.cores.contains p
  | _ => false

/-- Whether the Lanterns may read what they save: an error that cannot be corrected is reported (R76, R79). -/
def State.canSave (s : State) (g : Graph) : Bool :=
  g.cores.all (fun p => s.canRead p (localKey p 0) 0x18000) &&
    (g.stores.filterMap (fun x => (s.getRegion x.1).storeAt x.2)).all (fun t => s.canReadTile t 0 0x80000)
/-- The claims that a core's records hold. -/
def State.recordClaims (s : State) (p : Psn) : BitVec 4 :=
  match s.homeTile (s.getCore p) with
  | none => 0
  | some t => ((s.getTile t).records.filter (fun r => r.src == p)).foldl (fun m r => m ||| r.claims) 0
/-- The Lanterns write the save area; the cores are empty and keep their names; the records leave the tiles; held lines are parked. -/
def State.saveContext (s : State) (g : Graph) : State :=
  let base (r : Nat) : Nat := saveBase (at_ (s.getRegion r).ctxSave g.ctx 0) r
  let s := g.cores.foldl (fun s p => s.engineRead p 0 0x18000) s
  let s := (g.stores.filterMap (fun x => (s.getRegion x.1).storeAt x.2)).foldl (fun s t => s.tileRead t 0 0x80000) s
  let units := g.cores.filterMap (fun p => (s.logicalOf p).map (fun l => (psnRegion p, l, s.getCore p)))
  let stores := g.stores.filterMap (fun x => ((s.getRegion x.1).storeAt x.2).map (fun t => (x.1, x.2, s.getTile t)))
  let notes := s.flight.filterMap (fun i => match i.body with
    | .message m => if m.handle = 19 ∧ s.ofGraph g m then
        (g.cores.find? (fun p => (s.getCore p).name == m.dest && psnRegion p == m.region)).map (fun p => (p, m.payload)) else none
    | _ => none)
  let kept := s.flight.filter g.keeps
  let s := units.foldl (fun s x => s.saveUnit x.2.2 (unitBase (base x.1) x.2.1) (s.recordClaims x.2.2.psn) true) s
  let s := stores.foldl (fun s x => s.saveStore x.2.2 (storeBase (base x.1) x.2.1)) s
  let s := { s with flight := s.flight.filter (fun i => !g.keeps i && (match i.body with
    | .message m => !(m.handle == 19 && s.ofGraph g m)
    | _ => true)) }
  let s := stores.foldl (fun s x => s.modTile x.2.2.psn (fun t => { t with records := t.records.filter (fun r => r.ctx != g.ctx) })) s
  let s := units.foldl (fun s x => s.modCore x.2.2.psn (fun c => { (vacated c.name c) with unsent := [] })) s
  let s := (s.mapActors (·.park g.ctx)).putGraph { g with
    stat := 3, halted := [], saved := units, kept, heldNotes := g.heldNotes ++ notes
    savedTiles := stores.map (fun x => (x.1, x.2.1, { x.2.2 with records := x.2.2.records.filter (fun r => r.ctx == g.ctx) })) }
  s.showStat g.regionList false 3 true

/-! Resumption (R423). -/

/-- Where the units of a parked graph come back: old and new physical numbers. -/
def State.rehoming (s : State) (g : Graph) : List (Psn × Psn) :=
  (g.saved.filterMap (fun x => ((s.getRegion x.1).coreAt x.2.1).map (fun p => (x.2.2.psn, p)))) ++
    g.savedTiles.filterMap (fun x => ((s.getRegion x.1).storeAt x.2.1).map (fun t => (x.2.2.psn, t)))
def mapped (m : List (Psn × Psn)) (p : Psn) : Psn := ((m.find? (fun x => x.1 == p)).map Prod.snd).getD p
/-- Whether every unit has a live place that no loaded graph uses. -/
def State.canResume (s : State) (g : Graph) : Bool :=
  g.saved.all (fun x => match (s.getRegion x.1).coreAt x.2.1 with
    | some p => (s.getCore p).live && !s.graphs.any (fun h => h.stat != 0 && h.stat != 3 && h.actors.any (fun a => a.2.1 == p))
    | none => false) &&
  g.savedTiles.all (fun x => ((s.getRegion x.1).storeAt x.2.1).isSome)

/-- A saved core comes back on a core: its own identity stays; tokens are empty; members of a gang are detached; the run queue's ready times are
those of the resumption. -/
def restoreCore (m : List (Psn × Psn)) (now : Nat) (c d : Core) : Core :=
  { c with
    psn := d.psn, logical := d.logical, namePrefix := d.namePrefix, snuff := d.snuff, tileClk := d.tileClk, energy := d.energy, itlb := d.itlb
    dtlb := d.dtlb, live := d.live, diag := d.diag, unsent := c.unsent ++ d.unsent, halting := false, waiting := false
    regs := { c.regs with tok := Vector.replicate 8 [] }
    act := c.act.map (fun a => { a with
      isResumed := true
      reissue := []
      gang := a.gang.map (fun g => { g with
        leader := mapped m g.leader, members := g.members.map (mapped m), attached := false, relayed := [], received := none }) })
    runq := c.runq.map (fun r => { r with ready := now, promoted := now, cont := r.cont.map (fun x => (mapped m x.1, x.2)) })
    streams := c.streams.map (Option.map (fun st => { st with tile := st.tile.map (mapped m) })) }
/-- A record comes back in its tile. -/
def restoreRecord (m : List (Psn × Psn)) (now : Nat) (r : Record) : Record :=
  { r with readyAt := now, src := mapped m r.src, offered := r.offered.map (mapped m)
           gang := r.gang.map (fun g => { g with leader := mapped m g.leader, members := g.members.map (mapped m) })
           full := r.full.map (fun f => { f with gang := f.gang.map (fun g => { g with leader := mapped m g.leader, members := g.members.map (mapped m) }) }) }
def restoreItem (m : List (Psn × Psn)) (i : Item) : Item :=
  match i.body with
  | .access a => { i with body := .access { a with core := mapped m a.core } }
  | .contribution r t p k op ty rm sat v ws => { i with body := .contribution r t (mapped m p) k op ty rm sat v ws }
  | _ => i

/-- Resumption in its order: every unit, parked lines, held notifications and recorded replies, run queues, rings. -/
def State.resumeGraph (s : State) (g : Graph) : State :=
  let m := s.rehoming g
  let now := s.tsc.toNat
  let base (r : Nat) : Nat := saveBase (at_ (s.getRegion r).ctxSave g.ctx 0) r
  let s := g.saved.foldl (fun s x =>
    let p := mapped m x.2.2.psn
    let s := if p = x.2.2.psn then s else s.modCore x.2.2.psn (fun c => { c with name := if c.name = x.2.2.name then nullName else c.name })
    ((s.noteCopy (unitBase (base x.1) x.2.1) (96 * 1024)).copyTagged (unitBase (base x.1) x.2.1) (localKey p 0) (96 * 1024)).modCore p (restoreCore m now x.2.2)) s
  let s := g.savedTiles.foldl (fun s x =>
    let t := mapped m x.2.2.psn
    ((s.noteCopy (storeBase (base x.1) x.2.1) 0x80000).copyTagged (storeBase (base x.1) x.2.1) (tileKey t 0) 0x80000).modTile t (fun d => { x.2.2 with
      psn := t, tileClk := d.tileClk, live := d.live, withdrawn := d.withdrawn
      generators := d.generators, records := d.records.filter (fun r => r.ctx != g.ctx) ++ x.2.2.records.map (restoreRecord m now), reserved := d.reserved })) s
  let s := g.saved.foldl (fun s x => (s.getCore (mapped m x.2.2.psn)).streams.toList.foldl (fun s y => match y with
    | some st => match st.tile with
      | some t => if st.bound then s.modTile t (fun t => { t with generators := t.generators ++ [st.token] }) else s
      | none => s
    | none => s) s) s
  let s := { s with flight := s.flight ++ g.kept.map (restoreItem m) }
  let s := g.saved.foldl (fun s x => ((x.2.2.act.map (·.reissue)).getD []).foldl (fun s i => s.reissueOne (mapped m x.2.2.psn) i) s) s
  let s := (s.mapActors (·.unpark g.ctx)).putGraph { g with
    stat := 1, saved := [], savedTiles := [], kept := [], heldNotes := [], pendingReplies := []
    actors := g.actors.map (fun a => (a.1, mapped m a.2.1, a.2.2)), unarmed := g.unarmed.map (mapped m) }
  let s := g.heldNotes.foldl (fun s n =>
    let p := mapped m n.1
    s.notify (lanternPsn (psnRegion p) 0) (s.fullName (psnRegion p) 0x3FFF0) p n.2) s
  let s := g.pendingReplies.foldl (fun s x => match s.faulted (mapped m x.1) x.2.1 with
    | some (r, f) => s.answerLive (mapped m x.1) r f x.2.2.2 x.2.2.1
    | none => s) s
  let s := (s.graphRings g).foldl (fun s x => s.reform x.1 { x.2 with members := x.2.members.map (mapped m), leavers := x.2.leavers.map (mapped m) }) s
  s.showStat g.regionList false 1 true

/-! The end (R401, R423). -/

/-- ENDED_IDS: the 256 most recent ends, one for each number (R403); a successor counts the end (R402, R313). -/
def State.noteEnd (s : State) (id : Nat) : State :=
  let l := (s.module.endedIds.filter (fun (x : Nat × Nat) => x.1 != id)) ++ [(id, s.tsc.toNat)]
  { s with
    module := { s.module with endedIds := l.drop (l.length - 256) }
    graphs := s.graphs.map (fun h => if h.preds.contains id ∧ !h.predEnded.contains id then { h with predEnded := h.predEnded ++ [id] } else h) }
/-- Whether an item in flight is a graph's; what another graph or an agent has sent to one of its names goes on to be bounced (R24, R32). -/
def State.itemOf (s : State) (g : Graph) (i : Item) : Bool :=
  let mine (p : Psn) : Bool := g.cores.contains p
  match i.body with
  | .access a | .directWrite a => mine a.core
  | .command p _ | .credit p _ _ | .relit p _ _ _ | .completion p | .ringOp p _ _ | .query p _ _ | .answer p _ _ => mine p
  | .credResult p _ _ _ => mine p
  | .relight p _ _ _ _ _ => mine p
  | .l2Request w | .fill w _ | .fillFault w _ _ => mine w.core
  | .contribution _ _ p _ _ _ _ _ _ _ => mine p
  | .snuffnote p _ _ | .markerRequest p _ _ | .marker p _ _ => mine p
  | .message m => if m.stage = .bounced then mine m.src
    else (mine m.src || m.handle == 19 || m.handle == 29 || psnClass m.src == 4) && m.handle != 30 &&
      g.cores.any (fun p => psnRegion p == m.region && (s.getCore p).name == m.dest)
  | .ringTile t => ((s.ringAt t.region t.ring).map (·.ctx)) == some g.ctx
  | .seal r n _ _ | .done r n _ => ((s.ringAt r n).map (·.ctx)) == some g.ctx
  | _ => false
/-- What a graph holds is released: its context, names and quota; its rings are dissolved, its trees go, its cores are empty (R401, R392). -/
def State.releaseGraph (s : State) (g : Graph) : State :=
  let s := (s.graphRings g).foldl (fun s x => s.dissolveRing x.1 x.2) s
  let s := { s with flight := s.flight.filter (fun i => !s.itemOf g i) }
  let s := g.stores.foldl (fun s x => match (s.getRegion x.1).storeAt x.2 with
    | some t => s.modTile t (fun t => { t with records := t.records.filter (fun r => r.ctx != g.ctx) })
    | none => s) s
  let s := g.cores.foldl (fun s p =>
    let name := match s.logicalOf p with
      | some n => s.defaultName (psnRegion p) n
      | none => nullName
    (s.unreserve p).modCore p (fun c => vacated (if g.stat = 3 ∧ c.act.isSome then c.name else name) c)) s
  let s := g.regionList.foldl (fun s r => s.modRegion r (fun x => { x with
    graphRoot := put x.graphRoot g.ctx 0, trees := x.trees.filter (fun t => t.ctx != g.ctx)
    move := x.move.filter (fun m => m.ctx != g.ctx) })) s
  let s := s.mapActors (fun a => { a with quota := put a.quota g.ctx 0 })
  ({ s with graphs := s.graphs.filter (·.id != g.id) } : State).noteEnd g.id

/-- The accesses of a killed graph that its owners can still perform are performed, in the order of their issue (R423, R420). -/
def State.drainKilled (s : State) (g : Graph) : State :=
  (s.flight.filterMap (fun i => match i.body with
    | .access a => if g.cores.contains a.core ∧ a.stage ≠ .performed then some (i.id, a) else none
    | _ => none)).foldl (fun s x =>
      match s.performAt (fun _ _ u => u) x.1 x.2 with
      | .done _ _ t => t
      | _ => s) s
/-- A kill: the graph halts and drains, its records and queued slots are discarded, its row lines are freed without notifications (R423). -/
def State.killGraph (s : State) (g : Graph) : State :=
  let s := if g.stat = 3 then s else s.drainKilled g
  ((s.mapActors (·.drop g.ctx)).releaseGraph g).showStat g.regionList false 5 true

end Sys2Proof.Machine
end

