-- ==== Sys2Proof/Machine/GraphEvents.lean ====
section
/-! DEFINITION. The steps of whole-graph control (16 R419 to R423). A graph is named by its GRAPH_ID. -/
namespace Sys2Proof.Machine
open Sys2Proof

/-- An operation on a context's graph by OP of GRAPH_CTL (R419). -/
def State.graphOp (s : State) (region op ctx lead : Nat) : State :=
  match op, s.graphOf region ctx with
  | 1, some g => if g.stat = 1 ∧ g.haltAt.isNone then s.preempt g lead else s.idleOp region
  | 2, some g => if g.stat = 3 ∧ s.canResume g then s.resumeGraph g else s.idleOp region
  | 3, some g => s.killGraph g
  | 1, none | 2, none | 3, none => s.idleOp region
  | _, _ => s
/-- A write of GRAPH_CTL: ignored without GO or while an operation is in progress. -/
def State.graphCtl (s : State) (region : Nat) (w : Word) : State :=
  if bit w 63 ∧ !bit (s.getRegion region).graphStat 63 then s.graphOp region (fld w 62 60) (fld w 36 32) (fld w 31 0) else s

/-- A write of GRAPH_CTL with a given OP. -/
def graphCtlEvent (op region : Nat) (value : Word) (s : State) : Out :=
  if 80 ≤ region then .fault .noSuchUnit
  else event (bit value 63 && fld value 62 60 == op) s (s.graphCtl region value)
def execGraphPreempt (region : Nat) (value : Word) (s : State) : Out := graphCtlEvent 1 region value s
def execGraphResume (region : Nat) (value : Word) (s : State) : Out := graphCtlEvent 2 region value s
def execGraphKill (region : Nat) (value : Word) (s : State) : Out := graphCtlEvent 3 region value s

/-- GRAPH_PREEMPT_HALT: time T has come. -/
def execGraphPreemptHalt (graph : Nat) (s : State) : Out :=
  match s.graphById graph with
  | some g => event (g.haltAt.any (fun t => decide (t ≤ s.tsc.toNat))) s (s.haltGraph g)
  | none => .next s
/-- GRAPH_PREEMPT_QUIESCE: a halted core has drained. -/
def execGraphPreemptQuiesce (graph : Nat) (core : Psn) (s : State) : Out :=
  if !isCorePsn core then .fault .noSuchUnit
  else match s.graphById graph with
    | some g =>
      event (g.stat == 2 && g.cores.contains core && !g.halted.contains core && s.coreQuiet core) s
        ((s.quiesceCore core).putGraph { g with halted := g.halted ++ [core] })
    | none => .next s
/-- CONTEXT_SAVE. -/
def execContextSave (graph : Nat) (s : State) : Out :=
  match s.graphById graph with
  | some g => event (g.stat == 2 && s.graphQuiet g && s.canSave g) s (s.saveContext g)
  | none => .next s

end Sys2Proof.Machine
end

