-- ==== Sys2Proof/Machine/Launch.lean ====
section
/-! DEFINITION. Launch (15 R395 to R404, 17 R448): the launch header, the image, what the loader writes, arming, and pending graphs. Record layouts
that R398 leaves open are read by functions without a body (Config). -/
namespace Sys2Proof.Machine
open Sys2Proof

/-! The launch header (R396). -/

abbrev Header := BitVec 1024
def lhId (h : Header) : Nat := fld h 63 48
def lhPrio (h : Header) : Nat := fld h 47 46
def lhKey (h : Header) : Nat := fld h 45 34
def lhQuota (h : Header) : Nat := fld h 33 22
def lhPreds (h : Header) : List Nat := (List.range (fld h 20 18)).map (fun i => fld h (512 + 16 * i + 15) (512 + 16 * i))
def lhShape (h : Header) : Word := h.extractLsb' 64 64
def lhRegions (h : Header) : BitVec 80 := h.extractLsb' 128 80
def lhWick (h : Header) (i : Nat) : Nat := fld h (32 * (i - 1) + 287) (32 * (i - 1) + 256)
def lhImage (h : Header) : Nat := fld h 639 576
def lhLen (h : Header) : Nat := fld h 671 640
def lhRoot (h : Header) : Nat := fld h 767 704
/-- A nonzero reserved field, a duplicate GRAPH_ID, an empty REGIONS field, or a ROOT or IMAGE outside what R396 allows. -/
def State.badHeader (s : State) (h : Header) : Bool :=
  fld h 17 0 != 0 || fld h 255 208 != 0 || fld h 511 480 != 0 || fld h 703 672 != 0 || fld h 1023 768 != 0 ||
    lhId h == 0 || (s.graphById (lhId h)).isSome || decide (2048 < lhQuota h) || decide (4 < fld h 20 18) ||
    (List.range 4).any (fun i => decide (fld h 20 18 ≤ i) && fld h (512 + 16 * i + 15) (512 + 16 * i) != 0) || lhRegions h == 0 ||
    decide (2 ^ 47 ≤ lhImage h) || lhImage h % 64 != 0 || decide (2 ^ 46 ≤ lhRoot h) || lhRoot h % 512 != 0

/-! The image (R398). -/

structure Section where
  kind : Nat
  actor : Nat
  offset : Nat
  length : Nat
  target : Nat
  deriving DecidableEq, Repr

/-- Bytes of class 00 or 01 as the monitor reads them. -/
def State.moduleBytes (s : State) (pa n : Nat) : List Byte :=
  if paClass pa = 0 then s.bytes pa n else s.bytes (companionKey (pa % 2 ^ 46)) n
/-- One section entry; none when a zero field is not zero, the kind is unknown, or the section lies outside the image. -/
def sectionAt (img : List Byte) (off : Nat) : Option Section :=
  let x : Section := { kind := numAt img off 1, actor := numAt img (off + 2) 2, offset := numAt img (off + 4) 8
                       length := numAt img (off + 12) 4, target := numAt img (off + 16) 4 }
  if img.length < off + 32 ∨ numAt img (off + 1) 1 ≠ 0 ∨ numAt img (off + 20) 12 ≠ 0 ∨ x.kind = 0 ∨ 12 < x.kind ∨ img.length < x.offset + x.length
  then none
  else if x.kind ≤ 2 ∧ 0x18000 < x.target + x.length then none
  else if x.kind = 3 ∧ 0x70000 < x.target + x.length then none
  else some x
/-- The sections of an image, when its header is sound. -/
def imageSections (img : List Byte) : Option (List Section) :=
  if img.length < 64 ∨ numAt img 0 2 ≠ 1 ∨ numAt img 28 36 ≠ 0 then none
  else (List.range (numAt img 2 2)).mapM (fun k => sectionAt img (numAt img 4 4 + 32 * k))
/-- Whether the image is signed by one of the signers of the archive (R448). -/
def State.signed (s : State) (img : List Byte) : Bool :=
  let off := numAt img 16 8
  decide (numAt img 24 4 = 2820 ∧ off + 2820 ≤ img.length) &&
    s.module.signers.any (fun k => Config.xmssVerify k (img.take off) (slice img off 2820))
def groups (n : Nat) (bs : List Byte) : List (List Byte) := (List.range (bs.length / n)).map (fun i => slice bs (n * i) n)

/-! What an image names. -/

/-- A relocation record (R399). -/
structure Reloc where
  sect : Nat
  off : Nat
  kind : Nat
  actor : Nat
  arg : Nat
  deriving DecidableEq, Repr

/-- Everything an image names, with its record sections patched. -/
structure Plan where
  sections : List (Section × List Byte)
  relocs : List Reloc
  /-- actor, core, home store index, WID_BASE -/
  actors : List (Nat × Psn × Nat × Word)
  handlers : List (Nat × Psn × Nat × BitVec 128)
  queues : List (Psn × Nat × BitVec 128 × List Psn)
  counters : List (Psn × Nat × Word)
  rings : List (List Psn)
  matches_ : List (Psn × Nat × Word)
  trees : List (Nat × Nat × List Nat)
  segments : List (Nat × Nat × Nat × Word)
  shape : Word
  deriving DecidableEq, Repr

def Plan.hosts (p : Plan) (actor : Nat) : List (Psn × Nat) := (p.actors.filter (fun (a : Nat × Psn × Nat × Word) => a.1 == actor)).map (fun a => (a.2.1, a.2.2.1))
def Plan.cores (p : Plan) : List Psn := (p.actors.map (fun (a : Nat × Psn × Nat × Word) => a.2.1)).eraseDups
/-- The home tiles: region and store index. -/
def Plan.homes (p : Plan) : List (Nat × Nat) := (p.actors.map (fun (a : Nat × Psn × Nat × Word) => (psnRegion a.2.1, a.2.2.1))).eraseDups

/-- The loader's choice of a home (R189). -/
def State.chooseHome (s : State) (p : Psn) : Nat :=
  let near := (quadTiles p).filterMap s.storeOf
  let all := (List.range 224).filter (fun n => ((s.getRegion (psnRegion p)).storeAt n).isSome)
  ((List.range 224).find? near.contains).getD (all.headD 0)
/-- Trees of a section (R404). -/
def treeRecords (fuel : Nat) (bs : List Byte) : Option (List (Nat × Nat × List Nat)) :=
  match fuel, bs with
  | _, [] => some []
  | 0, _ => none
  | n + 1, _ =>
    let k := numAt bs 2 2
    let leaves := (List.range k).map (fun i => numAt bs (4 + 2 * i) 2)
    if bs.length < 4 + 2 * k ∨ k < 2 ∨ 256 < k ∨ 15 < numAt bs 0 1 ∨ 79 < numAt bs 1 1 ∨ leaves.any (fun l => l / 256 != numAt bs 1 1) then none
    else (treeRecords n (bs.drop (4 + 2 * k))).map ((numAt bs 0 1, numAt bs 1 1, leaves) :: ·)
def relocOf (bs : List Byte) : Option Reloc :=
  if numAt bs 9 1 ≠ 0 then none
  else some { sect := numAt bs 0 4, off := numAt bs 4 4, kind := numAt bs 8 1, actor := numAt bs 10 2, arg := numAt bs 12 4 }
/-- Bytes that a relocation patches, from their old value (R399, KIND 0x01, 0x02, 0x04). -/
def patched (name home : Nat) (r : Reloc) (old : List Byte) : List Byte :=
  match r.kind with
  | 1 => leBytes 4 (ofLe old / 2 ^ 24 * 2 ^ 24 + name)
  | 2 => leBytes 1 home
  | _ => leBytes 8 (ofLe old + r.arg * 2 ^ 16)
def Reloc.width (r : Reloc) : Nat :=
  match r.kind with
  | 1 => 4 | 2 => 1 | 4 => 8 | _ => 16
/-- The physical core of a logical number that an image names, in a region that REGIONS names; status 0x05 or 0x02 else. -/
def State.place (s : State) (regions : BitVec 80) (n : Nat) : Except Nat Psn :=
  if !regions.getLsbD (n / 256) then .error 5
  else match s.logicalCore n with
    | some p => .ok p
    | none => .error 2
/-- A section of some kind, its records. -/
def Plan.ofKind (secs : List (Section × List Byte)) (k : Nat) : List (List Byte) := (secs.filter (fun (x : Section × List Byte) => x.1.kind == k)).map Prod.snd
def orBad {α : Type} (o : Option α) : Except Nat α :=
  match o with
  | some v => .ok v
  | none => .error 2
def allRecords {α : Type} (f : List Byte → Option (List α)) (secs : List (Section × List Byte)) (k : Nat) : Except Nat (List α) := do
  let ls ← (Plan.ofKind secs k).mapM (fun b => orBad (f b))
  return ls.flatten
/-- Actors of an image; two on one core are refused (R174). -/
def State.readActors (s : State) (img : List Byte) (regions : BitVec 80) (secs : List (Section × List Byte)) :
    Except Nat (List (Nat × Psn × Nat × Word)) := do
  let recs ← allRecords (Config.actorRecords img) secs 4
  let ls ← recs.mapM (fun (a : Nat × Option Nat × Word × List Nat) => do
    let ps ← a.2.2.2.mapM (s.place regions)
    let home := a.2.1.getD (s.chooseHome (ps.headD 0))
    if ps.any (fun p => ((s.getRegion (psnRegion p)).storeAt home).isNone) then throw 2
    return ps.map (fun p => (a.1, p, home, a.2.2.1)))
  let all := ls.flatten
  if (all.map (fun (a : Nat × Psn × Nat × Word) => a.2.1)).eraseDups.length ≠ all.length then throw 8
  return all
/-- The bytes of a record section after its relocations. -/
def State.patchRecords (s : State) (acts : List (Nat × Psn × Nat × Word)) (relocs : List Reloc) (i : Nat) (bs : List Byte) : Except Nat (List Byte) :=
  relocs.foldlM (fun (bs : List Byte) (r : Reloc) =>
    if r.sect ≠ i then .ok bs
    else
      let hosts := (acts.filter (fun (a : Nat × Psn × Nat × Word) => a.1 == r.actor))
      let name := (hosts[r.arg]?).map (fun a => (s.getCore a.2.1).name.toNat)
      let home := (hosts.head?).map (fun a => a.2.2.1)
      if bs.length < r.off + r.width ∨ (r.kind = 1 ∧ name.isNone) ∨ (r.kind = 2 ∧ home.isNone) ∨ !([1, 2, 4].contains r.kind) then .error 2
      else .ok (putBytes bs r.off (patched (name.getD 0) (home.getD 0) r (slice bs r.off r.width)))) bs
/-- Reads an image. -/
def State.plan (s : State) (h : Header) (img : List Byte) : Except Nat Plan := do
  let list ← orBad (imageSections img)
  let raw := list.map (fun x => (x, slice img x.offset x.length))
  let regions := lhRegions h
  let relocs ← allRecords (fun b => if b.length % 16 ≠ 0 then none else (groups 16 b).mapM relocOf) raw 12
  if relocs.any (fun r => decide (raw.length ≤ r.sect)) then throw 2
  let acts ← s.readActors img regions raw
  let secs ← raw.zipIdx.mapM (fun (x : (Section × List Byte) × Nat) => do
    if x.1.1.kind ≤ 4 ∨ x.1.1.kind = 12 then return x.1
    let b ← s.patchRecords acts relocs x.2 x.1.2
    return (x.1.1, b))
  let hs ← allRecords Config.handlerRecords secs 5
  let handlers ← hs.mapM (fun (x : Nat × Nat × Nat × BitVec 128) => do
    let p ← s.place regions x.2.1
    if 20 ≤ x.2.2.1 then throw 2
    let w := fld x.2.2.2 110 108
    if bit x.2.2.2 127 ∧ w ≠ 0 ∧ lhWick h w < 1024 then throw 2
    return (x.1, p, x.2.2.1, x.2.2.2))
  let qs ← allRecords Config.queueRecords secs 6
  let queues ← qs.mapM (fun (x : Nat × Nat × BitVec 128 × List Nat) => do
    let p ← s.place regions x.1
    let peers ← x.2.2.2.mapM (s.place regions)
    if 32 ≤ x.2.1 then throw 2
    return (p, x.2.1, x.2.2.1, peers))
  if secs.any (fun x => decide (1 ≤ x.1.kind ∧ x.1.kind ≤ 2 ∧ x.1.target < 0x18000 ∧ 0x17E00 < x.1.target + x.1.length) &&
      acts.any (fun a => a.1 == x.1.actor && !queues.any (fun q => q.1 == a.2.1 && q.2.1 == 19))) then throw 2
  let cs ← allRecords (fun b => if b.length % 16 ≠ 0 then none else some ((groups 16 b).map Config.counterRecord)) secs 7
  let counters ← cs.mapM (fun (x : Nat × Nat × Word) => do
    let p ← s.place regions x.1
    if !(decide (x.2.1 < 48 ∨ 64 ≤ x.2.1 ∧ x.2.1 < 80)) then throw 2
    return (p, x.2.1, x.2.2))
  let rs ← allRecords Config.ringRecords secs 8
  let rings ← rs.mapM (fun (l : List Nat) => l.mapM (s.place regions))
  if rings.any (fun l => l.any (fun p => psnRegion p != psnRegion (l.headD 0))) then throw 6
  let ms ← allRecords Config.matchRecords secs 9
  let entries ← ms.mapM (fun (x : Nat × Nat × Word) => do
    let p ← s.place regions x.1
    if 64 ≤ x.2.1 ∨ fld x.2.2 63 46 ≠ 0 ∨ !ringFormats.contains (fld x.2.2 45 42) then throw 2
    return (p, x.2.1, x.2.2))
  let trees ← allRecords (fun b => treeRecords (b.length + 1) b) secs 10
  if trees.any (fun t => !regions.getLsbD t.2.1) then throw 5
  let segments ← allRecords Config.segmentRecords secs 11
  if segments.any (fun x => !regions.getLsbD x.1) then throw 5
  if segments.any (fun x => decide (8 ≤ x.2.2.1) || ((s.getRegion x.1).storeAt x.2.1).isNone || !cfgFits x.2.2.2) then throw 2
  return { sections := secs, relocs, actors := acts, handlers, queues, counters, rings, matches_ := entries, trees, segments
           shape := if lhShape h ≠ 0 then lhShape h else BitVec.ofNat 64 (numAt img 8 8) }

/-! Loading (R400). -/

/-- h19 as the loader configures it: any-order, COMM = 1, one producer; without a record, 16 slots of 32 bytes at 0x1_7E00 (R184). -/
def noteForm (q : BitVec 128) : BitVec 128 := setFld (setFld q 127 125 5) 117 113 0
def noteQueue : BitVec 128 := noteForm (BitVec.ofNat 128 (15 * 2 ^ 96 + 0x17E00 * 2 ^ 64))
/-- Whether an image configures h19 of a core itself. -/
def Plan.hasNotes (p : Plan) (core : Psn) : Bool := p.queues.any (fun x => x.1 == core && x.2.1 == 19)
/-- A staging ring whose depth and initial credits are the producer's share of the receiver's queue (R91). -/
def Plan.shared (p : Plan) (to_ : Psn) (w : BitVec 128) : BitVec 128 :=
  match p.queues.find? (fun x => x.1 == to_ && x.2.1 == oHandle w) with
  | some x =>
    let share := qDepth x.2.2.1 / qProducers x.2.2.1
    setFld (setFld w 91 84 (share - 1)) 47 39 share
  | none => w
/-- What the loader writes on one core apart from its local memory. -/
def State.loadPage (s : State) (p : Plan) (core : Psn) : State :=
  let name (q : Psn) : BitVec 24 := (s.getCore q).name
  let home := ((p.actors.find? (fun a => a.2.1 == core)).map (fun a => a.2.2.1)).getD 0xFF
  let c := s.getCore core
  let c : Core := { (vacated (name core) c) with homeStore := BitVec.ofNat 8 home, q := (Vector.replicate 64 0).set 52 (c.getQ 52) }
  let c := if p.hasNotes core then c else (c.setQueue 19 noteQueue).checkQueue 19
  let c := (p.handlers.filter (fun x => x.2.1 == core)).foldl (fun (c : Core) x =>
    let e := x.2.2.1
    let w := x.2.2.2
    let w := setFld (setFld (setFld (setFld (setFld w 125 123 0) 102 96 0) 79 77 0) 63 32 0) 95 80 x.1
    c.setHandler e (if e = 19 then setFld w 107 103 19 else w)) c
  let c := (p.queues.filter (fun x => x.1 == core)).foldl (fun (c : Core) x =>
    let hd := x.2.1
    let peers := x.2.2.2
    if hd < 20 then
      { ((c.setQueue hd (if hd = 19 then noteForm x.2.2.1 else x.2.2.1)).checkQueue hd) with
        chans := c.chans ++ peers.map (fun q => { handle := hd, name := name q, expect := 0, filled := 0, eos := false }) }
    else match peers with
      | q :: _ => (c.setQueue hd (p.shared q (setFld x.2.2.1 127 104 (name q).toNat))).checkQueue hd
      | [] => (c.setQueue hd x.2.2.1).checkQueue hd) c
  let c := (p.counters.filter (fun x => x.1 == core && decide (x.2.1 < 48))).foldl (fun (c : Core) x => { c with q := put c.q x.2.1 x.2.2 }) c
  let c := (p.matches_.filter (fun x => x.1 == core)).foldl (fun (c : Core) x =>
    let w := x.2.2
    c.setEntry x.2.1 (BitVec.ofNat 128 (2 ^ 61 + fld w 41 40 * 2 ^ 55 + fld w 45 42 * 2 ^ 51 + fld w 39 32 * 2 ^ 40 + fld w 31 0))) c
  s.putCore c
/-- WID_BASE and WID_SHAPE of the actor descriptors that a core's handler entries name (R175). -/
def State.loadDescriptors (s : State) (p : Plan) (core : Psn) : State :=
  (p.handlers.filter (fun x => x.2.1 == core)).foldl (fun s x =>
    let wid := ((p.actors.find? (fun a => a.1 == x.1 && a.2.1 == core)).map (fun a => a.2.2.2)).getD 0
    if hDesc x.2.2.2 + 288 ≤ 0x18000 then
      s.poke (localKey core (hDesc x.2.2.2 + 256)) (leBytes 8 wid.toNat ++ leBytes 8 p.shape.toNat ++ List.replicate 16 0)
    else s) s
/-- Local memory of one core: code and data of its actors. -/
def State.loadLocal (s : State) (p : Plan) (core : Psn) : State :=
  p.sections.foldl (fun s x =>
    if x.1.kind ≤ 2 ∧ (p.hosts x.1.actor).any (fun h => h.1 == core) then s.poke (localKey core x.1.target) x.2 else s) s

/-- The bounds of a capability image lie within what the graph owns (R399). -/
def capOwned (regions : BitVec 80) (b : BitVec 128) : Bool :=
  let c : Cap := { tag := false, bits := b }
  let top := c.base + c.length
  !c.isS && (match c.space with
    | 0 => decide (top ≤ 0x18000)
    | 1 => regions != 0 && (decide (top ≤ 0x7000000) || decide (0x7F80000 ≤ c.base ∧ top ≤ 0x8000000))
    | 2 => decide (top ≤ 0x6E000000)
    | 3 => decide (top ≤ 2 ^ 48)
    | _ => false)
/-- One relocation at one place in memory. -/
def State.relocate (s : State) (p : Plan) (regions : BitVec 80) (r : Reloc) (key : Nat) : Except Nat State :=
  let hosts := p.hosts r.actor
  match r.kind with
  | 1 => match hosts[r.arg]? with
    | some h => .ok (s.poke key (patched (s.getCore h.1).name.toNat 0 r (s.bytes key 4)))
    | none => .error 2
  | 2 => match hosts with
    | h :: _ => .ok (s.poke key (leBytes 1 h.2))
    | [] => .error 2
  | 3 =>
    let b := BitVec.ofNat 128 (ofLe (s.bytes key 16))
    if key % 16 = 0 ∧ capOwned regions b then .ok (s.pokeCap key { tag := true, bits := b }) else .error 2
  | 4 => .ok (s.poke key (patched 0 0 r (s.bytes key 8)))
  | 5 => if key % 16 = 0 ∧ 1 ≤ r.arg ∧ r.arg ≤ 255 then .ok (s.pokeCap key { tag := true, bits := BitVec.ofNat 128 (2 ^ 124 + r.arg * 2 ^ 110) })
    else .error 2
  | _ => .error 2
/-- The relocations, in order, of the sections that `here` places. -/
def State.relocateAll (s : State) (p : Plan) (regions : BitVec 80) (here : Section → List Nat) : Except Nat State :=
  p.relocs.foldlM (fun s r =>
    match p.sections[r.sect]? with
    | some x =>
      if 3 < x.1.kind then .ok s
      else if x.1.length < r.off + r.width then .error 2
      else (here x.1).foldlM (fun s k => s.relocate p regions r (k + r.off)) s
    | none => .error 2) s
/-- One core is loaded. -/
def State.loadCore (s : State) (p : Plan) (regions : BitVec 80) (core : Psn) : Except Nat State :=
  (((s.loadPage p core).loadLocal p core).loadDescriptors p core).relocateAll p regions (fun x =>
    if x.kind ≤ 2 ∧ (p.hosts x.actor).any (fun h => h.1 == core) then [localKey core x.target] else [])

/-- A home tile is taken: SYS in segment 7; the segment and the store counters are zeroed unless another graph uses the tile (R189, R400). -/
def State.takeHome (s : State) (id region index : Nat) : State :=
  match (s.getRegion region).storeAt index with
  | none => s
  | some t =>
    let used := s.graphs.any (fun g => g.id != id && g.stat != 0 && g.actors.any (fun a => psnRegion a.2.1 == region && a.2.2 == index))
    let s := if used then s else (s.clearRange (tileKey t 0x70000) 0x10000).modTile t (fun x => { x with sq := Vector.replicate 16 0, stages := Vector.replicate 16 0, stageBusy := [] })
    s.modTile t (fun x => { x with segCfg := put x.segCfg 7 (setBit (at_ x.segCfg 7 0) 61 true) })
/-- What a graph has outside its cores: home tiles and their data, store counters, segments, trees. -/
def State.loadShared (s : State) (g : Graph) (p : Plan) : Except Nat State :=
  let tileOf (region index : Nat) : Option Psn := (s.getRegion region).storeAt index
  let s := p.homes.foldl (fun s h => s.takeHome g.id h.1 h.2) s
  let s := p.segments.foldl (fun s x => match tileOf x.1 x.2.1 with
    | some t => s.configure t x.2.2.1 (cfgValue x.2.2.1 (if x.2.2.1 = 7 ∧ p.homes.contains (x.1, x.2.1) then setBit x.2.2.2 61 true else x.2.2.2))
    | none => s) s
  let homesOf (a : Nat) : List Nat := ((p.hosts a).map (fun h => (psnRegion h.1, h.2))).eraseDups.filterMap (fun h => (tileOf h.1 h.2).map (tileKey · 0))
  let s := p.sections.foldl (fun s x => if x.1.kind = 3 then (homesOf x.1.actor).foldl (fun s k => s.poke (k + x.1.target) x.2) s else s) s
  let s := (p.counters.filter (fun x => decide (64 ≤ x.2.1))).foldl (fun s x =>
    match p.actors.find? (fun a => a.2.1 == x.1) with
    | some a => match tileOf (psnRegion x.1) a.2.2.1 with
      | some t => s.modTile t (fun tile => { tile with sq := put tile.sq (x.2.1 - 64) x.2.2 })
      | none => s
    | none => s) s
  let s := p.trees.foldl (fun s t => s.modRegion t.2.1 (fun r => { r with trees := r.trees ++ [{ number := t.1, ctx := g.ctx, leaves := t.2.2, rounds := [] }] })) s
  s.relocateAll p g.regions (fun x => if x.kind = 3 then (homesOf x.actor).map (· + x.target) else [])

/-- Rings whose members are loaded are formed under the lowest free number of their region (R200). -/
def State.formRings (s : State) (ctx : Nat) (waiting : List Psn) (rings : List (List Psn)) : Except Nat State :=
  rings.foldlM (fun s l =>
    let region := psnRegion (l.headD 0)
    if l.any waiting.contains ∨ (s.getRegion region).rings.any (fun r => r.ctx == ctx && r.members == l) then .ok s
    else
      match (List.range 24).find? (fun n => (s.ringAt region n).isNone) with
      | some n =>
        if s.canForm l ∧ l.all (fun p => !(s.getCore p).isMember) then
          .ok (s.formRing region { number := n, ctx, members := l, logical := l.filterMap s.logicalOf, leavers := [], formed := true
                                   leaseAt := none })
        else .error 6
      | none => .error 6) s

/-! Residency (R395, R402, R403). -/

def State.freeContext (s : State) (regions : BitVec 80) : Option Nat :=
  (List.range 32).find? (fun n => n != 0 && (List.range 80).all (fun r => !regions.getLsbD r || (s.graphOf r n).isNone))
/-- A predecessor that a resident graph's successor may join early. -/
def Graph.hints (g : Graph) : Bool := g.stat != 0 && lhSucc g.header && g.hinted
/-- Whether nothing holds a pending graph back any more. -/
def State.mayLoad (s : State) (g : Graph) : Bool :=
  g.awaited.isEmpty && g.preds.all (fun p => match s.graphById p with
    | some h => h.id == g.id || h.hints
    | none => true)
/-- Predecessors that are resident. -/
def State.early (s : State) (g : Graph) : Bool := g.preds.any (fun p => (s.graphById p).any (fun h => h.stat != 0))
/-- A pending graph becomes resident: its context, key, root and quota, then everything it loads. Its cores load here unless a predecessor is
still resident. -/
def State.makeResident (s : State) (g : Graph) : Except Nat State := do
  match s.freeContext g.regions with
  | none => throw 4
  | some ctx =>
    if lhKey g.header ≠ 0 ∧ !s.keyLoaded (lhKey g.header) then throw 7
    let d := s.draw
    if !Config.headroom d.1 then throw 7
    let s := d.2
    let p ← s.plan g.header g.image
    let late := s.early g
    if p.cores.any (fun c => s.graphs.any (fun h => h.id != g.id && h.stat != 0 && !(late && g.preds.contains h.id) && h.actors.any (fun a => a.2.1 == c)))
    then throw 8
    let g : Graph := { g with ctx, stat := 1, actors := p.actors.map (fun a => (a.1, a.2.1, a.2.2.1)), unarmed := if late then p.cores else []
                              stores := (p.homes ++ p.segments.map (fun x => (x.1, x.2.1))).eraseDups }
    let root := BitVec.ofNat 64 (lhKey g.header * 2 ^ 52 + lhRoot g.header + (lhRoot g.header != 0).toNat)
    let s := g.regionList.foldl (fun s r => s.modRegion r (fun x => { x with graphRoot := put x.graphRoot ctx root })) s
    let s := (List.range 32).foldl (fun s n => s.modActor n (fun a => { a with quota := put a.quota ctx (BitVec.ofNat 12 (lhQuota g.header)) })) s
    let s ← (s.putGraph g).loadShared g p
    if late then return s.showStat g.regionList false 1 false
    let s ← p.cores.foldlM (fun s c => s.loadCore p g.regions c) s
    let s ← s.formRings ctx [] p.rings
    return s.showStat g.regionList false 1 false

/-- A launch as far as its load (R395): the status, the context, and the state. A graph that is loaded waits for its arming. -/
def State.launch (s : State) (host : Nat) (h : Header) : Nat × Nat × State :=
  let img := s.moduleBytes (lhImage h) (lhLen h)
  if s.badHeader h ∨ (imageSections img).isNone then (2, 0, s)
  else if !s.signed img then (3, 0, s)
  else
    let ids := lhPreds h
    let there (i : Nat) : Bool := (s.graphById i).isSome
    let ended (i : Nat) : Bool := !there i && s.module.endedIds.any (fun (x : Nat × Nat) => x.1 == i)
    let g : Graph := { id := lhId h, ctx := 0, regions := lhRegions h, header := h, image := img, stat := 0, armed := false
                       preds := ids, predEnded := ids.filter ended, posted := [], hinted := false, actors := [], unarmed := [], haltAt := none
                       halted := [], pendingReplies := [], heldNotes := [], saved := [], savedTiles := []
                       awaited := ids.filter (fun i => !there i && !ended i), launcher := some host }
    let known (s : State) : State := { s with graphs := s.graphs.map (fun x => { x with awaited := x.awaited.filter (· != g.id) }) }
    if !s.mayLoad g then (1, 0, known (s.putGraph { g with launcher := none }))
    else match s.makeResident g with
      | .error st => (st, 0, s)
      | .ok t => (0, ((t.graphById g.id).map (·.ctx)).getD 0, known t)
/-- A pending graph's turn; when its load fails nothing of it remains (R397). -/
def State.succeed (s : State) (g : Graph) : State :=
  match s.makeResident g with
  | .ok t => t
  | .error _ => { s with graphs := s.graphs.filter (·.id != g.id) }

/-! Arming. -/

/-- READY on every valid entry of a core; its start activations; q50 counts the predecessors that have ended (R400, R402). -/
def State.armCore (s : State) (g : Graph) (core : Psn) : State :=
  let s := s.modCore core (fun c => { c with
    handlers := c.handlers.map (fun h => if hValid h then setBit h 125 true else h)
    q := put c.q 50 (BitVec.ofNat 64 g.predEnded.length) })
  (List.range 19).foldl (fun s e =>
    let h := (s.getCore core).handler e
    if entrySound e h ∧ hHandle h = 0x1F then s.fireEntry core e (some 0) else s) s
def Graph.noted (g : Graph) (core : Psn) : Graph := { g with posted := g.posted ++ g.predEnded.map (fun i => (i, core)) }
/-- A graph whose load is complete is armed at one TSC value. -/
def State.armGraph (s : State) (g : Graph) : State :=
  (g.cores.foldl (fun s c => s.armCore g c) s).putGraph
    { (g.cores.foldl Graph.noted g) with armed := true, launcher := none }
/-- No engine or access of a core is at work. -/
def State.idleCore (s : State) (p : Psn) : Bool :=
  let c := s.getCore p
  c.act.isNone && c.drains.isEmpty && c.matOps.isEmpty && c.copies.toList.all (·.queue.isEmpty) && s.flight.all (fun i => match i.body with
    | .access a | .directWrite a => a.core != p
    | .command q _ => q != p
    | _ => true)
/-- No predecessor has an ACTIVE entry or an unended bound queue on the core. -/
def Core.released (c : Core) : Bool :=
  (List.range 19).all (fun e =>
    let h := c.handler e
    !hActive h && (!hValid h || hHandle h != e || (qEnded (c.queue e) && !c.endOwed.getLsbD e)))
/-- A core of an early successor is loaded and armed by itself; a load that fails withdraws the graph. -/
def State.armSuccessor (s : State) (g : Graph) (core : Psn) : State :=
  let g' : Graph := { (g.noted core) with unarmed := g.unarmed.filter (· != core) }
  let r : Except Nat State := do
    let p ← s.plan g.header g.image
    let t ← s.loadCore p g.regions core
    let t ← t.formRings g.ctx g'.unarmed p.rings
    let t : State := { t with graphs := t.graphs.map (fun h =>
      if g.preds.contains h.id then { h with actors := h.actors.filter (fun a => a.2.1 != core) } else h) }
    return (t.putGraph { g' with armed := g'.unarmed.isEmpty }).armCore g core
  match r with
  | .ok t => t
  | .error _ => s.killGraph g

/-- Whether a graph has ended (R401). Entry 19's queue is the system's and never ends. -/
def State.hasEnded (s : State) (g : Graph) : Bool :=
  g.stat == 1 && g.armed && g.unarmed.isEmpty && g.cores.all (fun p =>
    let c := s.getCore p
    c.released && !hActive (c.handler 19) && c.runq.all (fun r => r.start.isNone) && s.idleCore p)

end Sys2Proof.Machine
end

