-- ==== Sys2Proof/Machine/LaunchEvents.lean ====
section
/-! DEFINITION. The steps of a graph's life (15 R400 to R403, 09 R313), of stages and their governor (15 R405 to R407), and of a core's move (15 R408
to R413). -/
namespace Sys2Proof.Machine
open Sys2Proof

/-! Completions of host requests (R441, R442). -/

def HostCore.slots (h : HostCore) : Nat := 2 ^ fld h.rqCtl 3 0
def HostCore.tag (r : BitVec 512) : Nat := fld r 47 32
/-- A completion is written in the next slot of the completion ring; the request is over. -/
def State.complete (s : State) (host status result : Nat) : State :=
  let h := s.getHost host
  match h.request with
  | none => s
  | some r =>
    let tail := fld h.cqCtl 63 48
    let s := s.poke (companionKey (fld h.cqBase 63 4 * 16 + 16 * (tail % h.slots)))
      (leBytes 2 (HostCore.tag r) ++ leBytes 1 status ++ List.replicate 5 0 ++ leBytes 8 result)
    s.putHost host { h with request := none, acks := [], copied := 0, cqCtl := setFld h.cqCtl 63 48 (tail + 1) }

/-! Arming, end, successors. -/

/-- GRAPH_ARMING: every region has loaded; the launch is answered. -/
def execGraphArming (graph : Nat) (s : State) : Out :=
  match s.graphById graph with
  | some g =>
    let t := s.armGraph g
    event (g.stat == 1 && !g.armed && g.unarmed.isEmpty && g.haltAt.isNone) s
      (match g.launcher with
        | some n => t.complete n 0 (g.ctx * 2 ^ 8)
        | none => t)
  | none => .next s
/-- GRAPH_END. -/
def execGraphEnd (graph : Nat) (s : State) : Out :=
  match s.graphById graph with
  | some g => event (s.hasEnded g) s ((s.releaseGraph g).showStat g.regionList false 0 false)
  | none => .next s
/-- SUCCESSOR_RESIDENT: a pending graph loads; one of a higher PRIO goes first (R396). -/
def execSuccessorResident (graph : Nat) (s : State) : Out :=
  match s.graphById graph with
  | some g =>
    event (g.stat == 0 && s.mayLoad g && !s.graphs.any (fun h => h.stat == 0 && s.mayLoad h && decide (lhPrio g.header < lhPrio h.header))) s (s.succeed g)
  | none => .next s
/-- SUCCESSOR_CORE_ARMING. -/
def execSuccessorCoreArming (graph : Nat) (core : Psn) (s : State) : Out :=
  if !isCorePsn core then .fault .noSuchUnit
  else match s.graphById graph with
    | some g => event (g.stat == 1 && g.unarmed.contains core && (s.getCore core).released && s.idleCore core) s (s.armSuccessor g core)
    | none => .next s
/-- VISIBILITY_POST: +1 to q50 on every armed core that has not had it (R313). -/
def execVisibilityPost (graph predecessor : Nat) (s : State) : Out :=
  match s.graphById graph with
  | some g =>
    let ps := g.cores.filter (fun p => !g.unarmed.contains p && !g.posted.contains (predecessor, p))
    event (g.stat == 1 && (g.armed || g.unarmed.length < g.cores.length) && g.predEnded.contains predecessor && ps != []) s
      ((ps.foldl (fun s p => s.modCore p (·.addQ 50 1)) s).putGraph { g with posted := g.posted ++ ps.map (fun p => (predecessor, p)) })
  | none => .next s

/-! Stages (R405 to R407). -/

abbrev StageDesc := BitVec 512
def sgSeg (d : StageDesc) : Nat := fld d 61 59
def sgEntry (d : StageDesc) : Nat := fld d 58 54
def sgMin (d : StageDesc) : Nat := fld d 53 49
def sgMax (d : StageDesc) : Nat := fld d 48 44
def sgActor (d : StageDesc) : Nat := fld d 43 28
def sgServes (d : StageDesc) (i : Nat) : Bool := bit d (12 + i)
def sgItem (d : StageDesc) : Nat := fld d 11 0 * 32
def sgHigh (d : StageDesc) : Nat := fld d 127 96
def sgLow (d : StageDesc) : Nat := fld d 95 64
def sgCtx (d : StageDesc) : Nat := fld d 191 187
def sgOcc (d : StageDesc) : Nat := fld d 159 128
def sgCore (d : StageDesc) (i : Nat) : Nat := fld d (256 + 16 * i + 14) (256 + 16 * i)
def sgCount (d : StageDesc) : Nat := ((List.range 16).filter (sgServes d)).length
def Tile.stage (t : Tile) (n : Nat) : StageDesc := at_ t.stages n 0
def Tile.setStage (t : Tile) (n : Nat) (d : StageDesc) : Tile := { t with stages := put t.stages n d }
/-- A descriptor that breaks a stated range counts as not in use. -/
def Tile.stageValid (t : Tile) (n : Nat) : Bool :=
  let d := t.stage n
  bit d 63 && decide (sgSeg d ≤ 6 ∧ sgEntry d ≤ 18 ∧ 1 ≤ sgMin d ∧ sgMin d ≤ sgMax d ∧ sgMax d ≤ 16 ∧ sgLow d < sgHigh d) &&
    segMode (t.seg (sgSeg d)) == 2 && decide (segUnit (t.seg (sgSeg d)) ≤ 4096) && segSys (t.seg 7)
/-- The physical core of CORE_i; the tile's region is the only one a stage may name. -/
def State.stageCore (s : State) (t : Tile) (d : StageDesc) (i : Nat) : Option Psn :=
  if sgCore d i / 256 = psnRegion t.psn then s.logicalCore (sgCore d i) else none
/-- Whether a core serves some stage of its region. -/
def State.servesAny (s : State) (p : Psn) : Bool :=
  s.tiles.any (fun t => psnRegion t.psn == psnRegion p && (List.range 16).any (fun n =>
    t.stageValid n && (List.range 16).any (fun i => sgServes (t.stage n) i && s.stageCore t (t.stage n) i == some p)))
/-- At most one move or stage change per actor and per core in 1,000,000 ticks (R412). -/
def State.rateOk (s : State) (region ctx actor : Nat) (p : Psn) : Bool :=
  (s.getRegion region).moveLog.all (fun e => decide (e.2.2 + 1000000 ≤ s.tsc.toNat) ||
    !((e.1 == 0 && e.2.1 == ctx * 2 ^ 16 + actor) || (e.1 == 1 && e.2.1 == p)))
def State.logMove (s : State) (region ctx actor : Nat) (ps : List Psn) : State :=
  s.modRegion region (fun r => { r with
    moveLog := r.moveLog.filter (fun e => decide (s.tsc.toNat < e.2.2 + 1000000)) ++
      ((0, ctx * 2 ^ 16 + actor, s.tsc.toNat) :: ps.map (fun p => (1, p, s.tsc.toNat))) })

/-- The stage actor is written onto a core from the retained image; its entries are ready (R406). -/
def State.hostStage (s : State) (g : Graph) (actor : Nat) (core : Psn) : Except Nat State := do
  let p ← s.plan g.header g.image
  let like := p.actors.find? (fun a => a.1 == actor)
  match like with
  | none => throw 2
  | some a =>
    let hs := (p.handlers.filter (fun x => x.1 == actor && x.2.1 == a.2.1)).map (fun x => (x.1, core, x.2.2))
    let p' : Plan := { p with actors := p.actors.filter (fun x => x.2.1 != core) ++ [(actor, core, a.2.2)], handlers := hs }
    let s := hs.foldl (fun s x => s.modCore core (fun c =>
      let w := setFld (setFld (setFld (setFld x.2.2.2 125 123 4) 102 96 0) 79 77 0) 95 80 actor
      { (c.setHandler x.2.2.1 (setFld (if x.2.2.1 = 19 then setFld w 107 103 19 else w) 63 32 0)) with homeStore := BitVec.ofNat 8 a.2.2.1 })) s
    let s ← ((s.loadLocal p' core).loadDescriptors p' core).relocateAll p' g.regions (fun x =>
      if x.kind ≤ 2 ∧ x.actor = actor then [localKey core x.target] else [])
    return s.putGraph { g with actors := g.actors.filter (fun x => x.2.1 != core) ++ [(actor, core, a.2.2.1)] }
/-- CORE_i of a stage starts to serve. -/
def State.addStageCore (s : State) (tile : Psn) (n i : Nat) : State :=
  let t := s.getTile tile
  let d := t.stage n
  match s.stageCore t d i, s.graphOf (psnRegion tile) (sgCtx d) with
  | some p, some g => match s.hostStage g (sgActor d) p with
    | .ok u => ((u.modTile tile (fun t => t.setStage n (setBit (t.stage n) (12 + i) true))).modCore p (fun c =>
        c.setHandler (sgEntry d) (setBit (c.handler (sgEntry d)) 126 false))).logMove (psnRegion tile) (sgCtx d) (sgActor d) [p]
    | .error _ => s
  | _, _ => s
/-- CORE_i of a stage begins to leave it; `next` is 1 + the stage it goes to, or 0. -/
def State.leaveStage (s : State) (tile : Psn) (n i next : Nat) : State :=
  let t := s.getTile tile
  let d := t.stage n
  match s.stageCore t d i with
  | none => s
  | some p =>
    ((s.modCore p (fun c => c.setHandler (sgEntry d) (setBit (c.handler (sgEntry d)) 126 true))).modTile tile (fun t =>
      { t with stageBusy := t.stageBusy ++ [(n, i + 16 * next)] })).logMove (psnRegion tile) (sgCtx d) (sgActor d) [p]
/-- The governor's rules for one stage. -/
def State.governStage (s : State) (tile : Psn) (n : Nat) : State :=
  let t := s.getTile tile
  if !t.stageValid n then s
  else
    let d := setFld (t.stage n) 159 128 (fifoHeld t (sgSeg (t.stage n)))
    let s := s.putTile (t.setStage n d)
    let region := psnRegion tile
    let may (e : StageDesc) (i : Nat) : Bool := match s.stageCore t e i with
      | some p => s.rateOk region (sgCtx e) (sgActor e) p
      | none => false
    let leaving (m : Nat) : Bool := t.stageBusy.any (fun b => b.1 == m || b.2 / 16 == m + 1)
    if bit d 62 ∨ leaving n then s
    else if sgHigh d ≤ sgOcc d ∧ sgCount d < sgMax d then
      match (List.range 16).find? (fun i => may d i && (s.stageCore t d i).any (fun p => !s.servesAny p)) with
      | some i => s.addStageCore tile n i
      | none =>
        let others := (List.range 16).filter (fun m => m != n && t.stageValid m && !leaving m && !bit (t.stage m) 62 &&
          decide (sgOcc (t.stage m) ≤ sgLow (t.stage m) ∧ sgMin (t.stage m) < sgCount (t.stage m)))
        let find (i : Nat) : Option (Nat × Nat) := others.findSome? (fun m =>
          ((List.range 16).find? (fun j => sgServes (t.stage m) j && sgCore (t.stage m) j == sgCore d i && may (t.stage m) j)).map (fun j => (m, j)))
        match (List.range 16).findSome? (fun i => if may d i then find i else none) with
        | some (m, j) => s.leaveStage tile m j (n + 1)
        | none => s
    else if sgOcc d ≤ sgLow d ∧ sgMin d < sgCount d then
      match ((List.range 16).reverse).find? (fun i => sgServes d i && may d i) with
      | some i => s.leaveStage tile n i 0
      | none => s
    else s
/-- GOVERNOR_SAMPLE: every 4,096 ticks. -/
def execGovernorSample (region : Nat) (s : State) : Out :=
  if 80 ≤ region then .fault .noSuchUnit
  else
    let tiles := (s.tiles.filter (fun t => psnRegion t.psn == region)).map (·.psn)
    event (decide ((s.getRegion region).governed + 4096 ≤ s.tsc.toNat)) s
      ((tiles.foldl (fun s t => (List.range 16).foldl (fun s n => s.governStage t n) s) s).modRegion region (fun r => { r with governed := s.tsc.toNat }))
/-- STAGE_CORE_RELEASE: the entry is no longer ACTIVE; a core on its way to another stage is written for it. -/
def execStageCoreRelease (tile : Psn) (stage : Nat) (s : State) : Out :=
  let t := s.getTile tile
  let d := t.stage stage
  if !isTilePsn tile ∨ 16 ≤ stage then .fault .noSuchUnit
  else match t.stageBusy.find? (fun b => b.1 == stage) with
    | some b =>
      let i := b.2 % 16
      let idle := (s.stageCore t d i).all (fun p => !hActive ((s.getCore p).handler (sgEntry d)))
      let s' := s.putTile { (t.setStage stage (setBit d (12 + i) false)) with stageBusy := t.stageBusy.filter (· != b) }
      let next := (List.range 16).find? (fun j => sgCore (t.stage (b.2 / 16 - 1)) j == sgCore d i)
      event idle s (match b.2 / 16, next with
        | 0, _ | _, none => s'
        | n + 1, some j => s'.addStageCore tile n j)
    | none => .next s
/-- The first serving core whose stage entry is fireable apart from its queue. -/
def State.stageTarget (s : State) (t : Tile) (d : StageDesc) : Option Psn :=
  ((List.range 16).filter (sgServes d)).findSome? (fun i => (s.stageCore t d i).filter (fun p =>
    let c := s.getCore p
    entryFree (sgEntry d) (c.handler (sgEntry d)) && hHandle (c.handler (sgEntry d)) == 0x1F && decide (c.runq.length < 32) && c.live && !c.halting))
/-- STAGE_ITEM_DELIVERY: one item goes to ITEM_ADDR, then the firing enters the run queue with g1 = 1. -/
def execStageItemDelivery (tile : Psn) (stage : Nat) (s : State) : Out :=
  let t := s.getTile tile
  let d := t.stage stage
  let seg := sgSeg d
  let size := segUnit (t.seg seg)
  if !isTilePsn tile ∨ 16 ≤ stage then .fault .noSuchUnit
  else match s.stageTarget t d with
    | some p =>
      let head := (at_ t.head seg 0).toNat
      let o := seg * 65536 + head % fifoSlots (t.seg seg) * size
      let item := s.bytes (tileKey tile o) size
      event (t.stageValid stage && fifoHeld t seg != 0 && decide (sgItem d + size ≤ 0x18000) && s.canRead p (tileKey tile o) size) s
        ((((s.readFor p (tileKey tile o) o size).poke (localKey p (sgItem d)) item).modTile tile (fun t => { t with head := put t.head seg (at_ t.head seg 0 + 1) })).fireEntry p (sgEntry d) (some 1))
    | none => .next s

/-! Moves (R408, R409). -/

def State.moveDone (s : State) (region result : Nat) : State :=
  s.modRegion region (fun r => { r with moveStat := BitVec.ofNat 64 (result * 2 ^ 56 + s.tsc.toNat % 2 ^ 32) })
/-- The refusal of a move, by RESULT. -/
def State.moveRefusal (s : State) (region ctx : Nat) (src dst : Option Psn) : Option Nat :=
  match src, dst with
  | some p, some q =>
    if psnRegion p ≠ region ∨ psnRegion q ≠ region ∨ (s.graphOn q).isSome ∨ !(s.getCore q).live ∨
        !((s.graphOn p).any (fun g => g.ctx == ctx && g.stat == 1)) then some 2
    else if !s.rateOk region ctx (s.actorOn p) p || !s.rateOk region ctx (s.actorOn p) q then some 1
    else if (s.ringOf (s.getCore p)).any s.ringOpen then some 3
    else if s.actorRecords p || s.strayMove p q then some 4 else none
  | _, _ => some 2
/-- A write of MOVE_REQ: refused, or the actor is held (step 1). -/
def State.moveRequest (s : State) (region : Nat) (w : Word) : State :=
  let r := s.getRegion region
  let ctx := fld w 36 32
  if !bit w 63 ∨ bit r.moveStat 63 ∨ r.move.isSome then s
  else match s.moveRefusal region ctx (s.logicalCore (fld w 29 15)) (s.logicalCore (fld w 14 0)), s.logicalCore (fld w 29 15), s.logicalCore (fld w 14 0) with
    | some n, _, _ => s.moveDone region n
    | none, some p, some q =>
      let s := s.modRegion region (fun r => { r with
        moveStat := BitVec.ofNat 64 (2 ^ 63)
        move := some { ctx, from_ := p, to_ := q, holds := (s.getCore p).holds, lease := none } })
      (s.setMoving p true).holdActor p
    | none, _, _ => s
def execMoveReq (region : Nat) (value : Word) (s : State) : Out :=
  if 80 ≤ region then .fault .noSuchUnit else event (bit value 63) s (s.moveRequest region value)
/-- MOVE_COPY: FROM has drained; steps 3 to 6. -/
def execMoveCopy (region : Nat) (s : State) : Out :=
  if 80 ≤ region then .fault .noSuchUnit
  else match (s.getRegion region).move with
    | some m =>
      let t := (((s.logMove region m.ctx (s.actorOn m.from_) ([m.from_].filter s.servesAny)).setMoving m.from_ false).moveActor m.from_ m.to_).modCore m.to_
        (·.restoreHolds m.holds)
      event (m.lease.isNone && s.actorDrained m.from_ && !(s.getCore m.from_).halting && s.canRead m.from_ (localKey m.from_ 0) 0x18000) s
        ((t.modRegion region (fun r => { r with move := none })).moveDone region 0)
    | none => .next s

end Sys2Proof.Machine
end

