-- ==== Sys2Proof/Machine/Power.lean ====
section
/-! DEFINITION. Power clusters (19 R453 to R456): quiescing, retention, gating and waking. -/
namespace Sys2Proof.Machine
open Sys2Proof

/-- The cores and tiles of a cluster, in physical index order. -/
def clusterCores (region c : Nat) : List Psn := ((List.range 288).map (corePsn region)).filter (fun p => clusterOf p == c)
def clusterTiles (region c : Nat) : List Psn := ((List.range 288).map (tilePsn region)).filter (fun p => clusterOf p == c)
/-- PWR_EVENT. -/
def State.powerEvent (s : State) (region n kind psn : Nat) : State :=
  s.modCluster region n (fun c => { c with event := BitVec.ofNat 64 (kind * 2 ^ 60 + s.tsc.toNat % 2 ^ 36 * 2 ^ 24 + psn) })

def clQuiesce (c : Cluster) : Bool := bit c.ctl 63
def clGated (c : Cluster) : Bool := bit c.ctl 61
def clQuiesced (c : Cluster) : Bool := bit c.stat 63

/-- A cluster in use: a mapped core, tile or bank, or a ring member (R453). -/
def State.clusterUsed (s : State) (region n : Nat) : Bool :=
  (clusterCores region n).any (fun p => (s.logicalOf p).isSome || (s.getCore p).isMember) ||
    (clusterTiles region n).any (fun t => (s.storeOf t).isSome || (s.exchangeOf t).isSome)
/-- QUIESCED (R454): no activation, run-queue entry, busy engine or outstanding access. -/
def State.clusterQuiet (s : State) (region n : Nat) : Bool :=
  (clusterCores region n).all (fun p => s.idleCore p && (s.getCore p).runq.isEmpty)

/-- A write of PWR_CTL: QUIESCE by its value when its byte is written, RET_SAVE when set; ignored while the clocks are gated. -/
def State.writePwrCtl (s : State) (region n : Nat) (quiesce : Option Bool) (save : Bool) : State :=
  let c := s.getCluster region n
  if clGated c then s
  else
    let s := match quiesce with
      | none => s
      | some true => if clQuiesce c then s
        else if s.clusterUsed region n then s.powerEvent region n 8 0
        else s.modCluster region n (fun c => { c with ctl := setBit c.ctl 63 true })
      | some false => s.modCluster region n (fun c => { c with ctl := setFld c.ctl 63 62 0, stat := setFld c.stat 63 62 0, saving := false })
    if save ∧ clQuiesced (s.getCluster region n) then s.modCluster region n (fun c => { c with ctl := setBit c.ctl 62 true, saving := true }) else s

/-- Whether what a retention image takes may be read (R76, R79). -/
def State.canRetain (s : State) (region n : Nat) : Bool :=
  (clusterCores region n).all (fun p => s.canRead p (localKey p 0) 0x18000) && (clusterTiles region n).all (fun t => s.canReadTile t 0 0x80000)
/-- The retention image (R455). -/
def State.saveRetention (s : State) (region n : Nat) : State :=
  let base := fld (s.getCluster region n).retAddr 45 16 * 65536
  let s := (clusterCores region n).foldl (fun s p => s.engineRead p 0 0x18000) s
  let s := (clusterTiles region n).foldl (fun s t => s.tileRead t 0 0x80000) s
  let cores := (clusterCores region n).map s.getCore
  let tiles := (clusterTiles region n).map s.getTile
  let s := cores.zipIdx.foldl (fun s x => s.saveUnit x.1 (base + x.2 * 2 ^ 18) 0 false) s
  let s := tiles.zipIdx.foldl (fun s x => s.saveStore x.1 (base + 2 * 2 ^ 20 + x.2 * (520 * 1024))) s
  (s.modCluster region n (fun c => { c with
    saving := false, ctl := setBit c.ctl 62 false, stat := setBit c.stat 62 true, cores, tiles })).powerEvent region n 2 0

/-- GATE's commit (R296): whether the cluster is gated, and the state. -/
def State.gate (s : State) (region n : Nat) : Bool × State :=
  let c := s.getCluster region n
  let arrived := (clusterCores region n).any (fun p =>
    !(s.getCore p).arrivals.isEmpty || !(s.getCore p).runq.isEmpty)
  if !clQuiesced c || !clSaved c || arrived || c.wake.isSome || c.wakeAt == some s.tsc.toNat then
    (false, (s.modCluster region n (fun c => { c with stat := setBit c.stat 58 true })).powerEvent region n 4 0)
  else
    (true, (s.modCluster region n (fun c => { c with
      ctl := setFld c.ctl 61 60 3, stat := setFld (setBit c.stat 58 false) 61 59 6 })).powerEvent region n 3 0)

/-- A wake begins: by PWR_WAKE or by an arrival from a unit. A PWR_WAKE of a cluster that is not gated only aborts a GATE of the same instant (R296, R456). -/
def State.wakeCluster (s : State) (region n kind psn : Nat) : State :=
  let c := s.getCluster region n
  if clGated c ∧ c.wake.isNone then (s.modCluster region n (fun c => { c with wake := some s.tsc.toNat })).powerEvent region n kind psn
  else if kind = 5 ∧ !clGated c then s.modCluster region n (fun c => { c with wakeAt := some s.tsc.toNat }) else s
/-- The end of a wake: the image is restored, the fields clear, held arrivals go on. -/
def State.restoreCluster (s : State) (region n : Nat) : State :=
  let c := s.getCluster region n
  let base := fld c.retAddr 45 16 * 65536
  let s := c.cores.zipIdx.foldl (fun s x =>
    ((s.noteCopy (base + x.2 * 2 ^ 18) (96 * 1024)).copyTagged (base + x.2 * 2 ^ 18) (localKey x.1.psn 0) (96 * 1024)).modCore x.1.psn (fun d => { x.1 with
      energy := d.energy, snuff := d.snuff, name := d.name, live := d.live, tileClk := d.tileClk })) s
  let s := c.tiles.zipIdx.foldl (fun s x =>
    ((s.noteCopy (base + 2 * 2 ^ 20 + x.2 * (520 * 1024)) 0x80000).copyTagged (base + 2 * 2 ^ 20 + x.2 * (520 * 1024)) (tileKey x.1.psn 0) 0x80000).modTile x.1.psn (fun d => { x.1 with
      live := d.live, tileClk := d.tileClk, withdrawn := d.withdrawn })) s
  s.modCluster region n (fun c => { c with
    ctl := 0, stat := setBit (setFld c.stat 63 60 0) 59 true, wake := none, cores := [], tiles := [], held := [] })
/-- The rails did not come up: the cluster stays gated and held messages bounce. -/
def State.railFault (s : State) (region n : Nat) : State :=
  let c := s.getCluster region n
  let s := c.held.foldl (fun s i => match s.item i with
    | some (.message m) => s.bounce i m 2
    | _ => s) s
  (s.modCluster region n (fun c => { c with wake := none, held := [] })).powerEvent region n 7 0

/-! Who an item in flight arrives at, and where it comes from. -/

/-- A core or tile that a CTRL address names; routers stand on the always-on rail (R453). -/
def ctrlPlace (a : Nat) : Option Psn :=
  if ctrlRegion a < 80 then
    match ctrlBlock a with
    | 0 => some (corePsn (ctrlRegion a) (ctrlUnit a))
    | 1 => some (tilePsn (ctrlRegion a) (ctrlUnit a))
    | _ => none
  else none
def State.arrivesAt (s : State) (b : Body) : Option (Psn × Psn) :=
  match b with
  | .access a => match a.owner with
    | .tile t _ => some (t, a.core)
    | .ctrl x => (ctrlPlace x).map (fun p => (p, a.core))
    | _ => none
  | .directWrite a => match s.holder (psnRegion a.core) a.name with
    | some p => some (p, actorPsn (dramStack a.phys))
    | none => some (a.core, actorPsn (dramStack a.phys))
  | .message m => if m.stage = .local then some (m.tile, m.src) else none
  | .snuffnote p q _ => some (p, q)
  | .arrival t q _ => some (t, q)
  | _ => none

end Sys2Proof.Machine
end

