-- ==== Sys2Proof/Machine/Privileged.lean ====
section
/-! DEFINITION. The privileged instructions of service firmware (11 R296 to R300, 02 R67). SPLICE stands in Machine/Copying.lean. -/
namespace Sys2Proof.Machine
open Sys2Proof

/-- GATE, SNUFF and NAMESET act on the region of a Lantern; a host-service core raises ILLEGAL. -/
def onLantern (s : State) : Except Stop Unit := if psnClass s.core.psn = 3 then .error (.illegal 6) else .ok ()
/-- Reserved operand bits are zero. -/
def plainBits (v : Word) (top : Nat) : Except Stop Nat := if v.toNat < 2 ^ top then .ok v.toNat else .error (.illegal 6)

/-- GATE (R296). -/
def gateBody (d a : Nat) : Body' := fun s => do
  let _ ← onLantern s
  let c ← plainBits (s.g a) 6
  if 35 < c then throw (.illegal 6)
  let r := s.gate (psnRegion s.core.psn) c
  return r.2.setP d (allLanes r.1)
/-- SNUFF (R297). It waits while the core, with no activation to suspend, holds four messages that it could not send (R416). -/
def snuffBody (d a : Nat) : Body' := fun s => do
  let _ ← onLantern s
  let p ← plainBits (s.g a) 24
  if !s.canSnuff p || psnRegion p != psnRegion s.core.psn then return s.setP d (allLanes false)
  if (s.getCore p).act.isNone ∧ !s.canNotice p then throw .wait
  return (s.snuffCore p 2).setP d (allLanes true)
/-- NAMESET (R298). -/
def namesetBody (d a b : Nat) : Body' := fun s => do
  let _ ← onLantern s
  let p ← plainBits (s.g a) 24
  let n ← plainBits (s.g b) 24
  let r := s.rename (psnRegion s.core.psn) p (BitVec.ofNat 24 n)
  return r.2.setP d (allLanes r.1)
/-- LEASEACK (R299). The Lamplighter is that of the executing Lantern; a host-service core answers for the region whose entry bears the number. -/
def State.lampRegion (s : State) (number : Nat) : Nat :=
  if psnClass s.core.psn = 3 then
    ((List.range 80).find? (fun r => quadrantOf r == s.core.psn % 512 && (s.getRegion r).leases.any (fun l => leaseNumber l == number))).getD 80
  else psnRegion s.core.psn
def leaseackBody (d a b : Nat) : Body' := fun s => do
  if 3 ≤ (s.g b).toNat then throw (.illegal 6)
  let n := fld (s.g a) 15 0
  let r := s.leaseAck (s.lampRegion n) n (s.g b).toNat
  return r.2.setG d (BitVec.ofNat 64 r.1)
/-- FRESUME and FKILL (R300). -/
def replyBody (d a : Nat) (kill : Bool) (value : State → Option (List Byte)) : Body' := fun s =>
  let r := s.reply s.core.psn (s.g a) kill (value s)
  .ok (r.2.setP d (allLanes r.1))

def execGate (x : Long) (s : State) : Out := issueP Shape.gate x (gateBody x.d.toNat x.a.toNat) s
def execSnuff (x : Long) (s : State) : Out := issueP Shape.snuff x (snuffBody x.d.toNat x.a.toNat) s
def execNameset (x : Long) (s : State) : Out := issueP Shape.nameset x (namesetBody x.d.toNat x.a.toNat x.b.toNat) s
def execLeaseack (x : Long) (s : State) : Out := issueP Shape.leaseack x (leaseackBody x.d.toNat x.a.toNat x.b.toNat) s
def execFresume (x : Long) (s : State) : Out := issueP Shape.fresume x (replyBody x.d.toNat x.a.toNat false (fun _ => none)) s
def execFresumeValue (x : Long) (s : State) : Out :=
  issueP Shape.fresumeValue x (replyBody x.d.toNat x.a.toNat false (fun s => some (leBytes 64 (s.v x.b.toNat).toNat))) s
def execFkill (x : Long) (s : State) : Out := issueP Shape.fkill x (replyBody x.d.toNat x.a.toNat true (fun _ => none)) s

end Sys2Proof.Machine
end

