-- ==== Sys2Proof/Machine/LeaseEvents.lean ====
section
/-! DEFINITION. The Lamplighter's steps (17 R428 to R438): requests, proposals, the way of a lease, testing and retirement. -/
namespace Sys2Proof.Machine
open Sys2Proof

/-! Requests (R430). -/

/-- The result of a request, by the first condition it fails in the order of the codes. -/
def State.leaseRefusal (s : State) (region : Nat) (w start : Word) : Option Nat :=
  let u : UnitWord := w.extractLsb' 0 32
  if !s.unitLive u || unitRegion u != region then some 1
  else if s.hasLease u || s.retirePending u then some 2
  else if unitKind u < 4 && (s.spareFor u).isNone then some 3
  else if start.toNat < s.tsc.toNat + 1000000 then some 4
  else if (s.getRegion region).freeLease.isNone then some 5
  else if fld w 62 48 = 0 ∨ fld w 47 44 ≠ unitKind u then some 6
  else none
def State.leaseRequest (s : State) (region : Nat) (w : Word) : State :=
  let r := s.getRegion region
  let u : UnitWord := w.extractLsb' 0 32
  if !bit w 63 then s
  else match s.leaseRefusal region w r.leaseStart with
    | some n => s.modRegion region (fun r => { r with leaseResult := BitVec.ofNat 64 (n * 2 ^ 56) })
    | none =>
      let t := s.newLease region u 2 0 (fld w 47 32) (fld w 62 48) r.leaseStart none
      let t := t.modRegion region (fun x => { x with leaseResult := BitVec.ofNat 64 r.nextLease })
      match (t.getRegion region).leases.find? (fun l => leaseUnit l == u) with
      | some l => t.scheduleLease region l r.leaseStart
      | none => t
def execLeaseReq (region : Nat) (value : Word) (s : State) : Out :=
  if 80 ≤ region then .fault .noSuchUnit else event (bit value 63) s (s.leaseRequest region value)

/-! Scores (R428). -/

/-- The selected unit, when it is one of the region's. -/
def State.selected (s : State) (region : Nat) : Option UnitWord :=
  let u : UnitWord := (s.getRegion region).scoreSel.extractLsb' 0 32
  if s.unitLive u && unitRegion u == region then some u else none
def State.scoreMismatch (s : State) (region : Nat) : State :=
  match s.selected region with
  | some u => s.addScore u 1024
  | none => s
def State.scoreRetire (s : State) (region : Nat) : State :=
  match s.selected region with
  | some u => s.retire u 3
  | none => s
def execScoreCtlMismatch (region : Nat) (s : State) : Out := if 80 ≤ region then .fault .noSuchUnit else .next (s.scoreMismatch region)
def execScoreCtlRetire (region : Nat) (s : State) : Out := if 80 ≤ region then .fault .noSuchUnit else .next (s.scoreRetire region)
/-- SCORE_HALVING: the TSC has crossed a multiple of 2^30. -/
def execScoreHalving (s : State) : Out := .next s.halveScores

/-! Proposals (R431). -/

/-- The units of a region's Lamplighter, by unit word. -/
def regionUnits (region : Nat) : List UnitWord :=
  let cores := (List.range 288).map (corePsn region)
  let tiles := (List.range 288).map (fun i => tileUnit (tilePsn region i))
  let chans := ((List.range 32).filter (fun n => 5 * n / 2 == region)).flatMap (fun n => (List.range 34).map (chanUnit n))
  let links (kind dir : Nat) : List UnitWord := (cores.map (fun p => BitVec.ofNat 32 (kind * 2 ^ 28 + dir * 2 ^ 24 + p))).filter unitExists
  cores.map coreUnit ++ tiles.filter (fun u => unitKind u == 1) ++ tiles.filter (fun u => unitKind u == 2) ++ chans ++
    [1, 2, 3, 4].flatMap (links 4) ++ [0, 1, 2, 3].flatMap (links 5)
/-- The unit that the sweep proposes next. -/
def State.sweepUnit (s : State) (region : Nat) : Option UnitWord :=
  let r := s.getRegion region
  let sweep := fld r.lpCfg 47 0
  let last (u : UnitWord) : Nat := ((r.tested.find? (fun (x : BitVec 32 × Nat) => x.1 == u)).map Prod.snd).getD 0
  if sweep = 0 then none
  else (regionUnits region).find? (fun u => s.unitLive u && !s.hasLease u && !s.retirePending u && decide (last u + sweep ≤ s.tsc.toNat))
def execSweepProposal (region : Nat) (s : State) : Out :=
  if 80 ≤ region then .fault .noSuchUnit
  else match s.sweepUnit region with
    | some u =>
      let r := s.getRegion region
      event (decide (r.lastSweep + 2 ^ 20 ≤ s.tsc.toNat) && r.freeLease.isSome) s
        ((s.propose u 2).modRegion region (fun r => { r with lastSweep := s.tsc.toNat }))
    | none => .next s

/-! The way of a lease. -/

/-- What an event needs of the lease in a table entry. -/
def leaseEvent (region entry : Nat) (s : State) (f : Lease → Out) : Out :=
  if 80 ≤ region ∨ 64 ≤ entry then .fault .noSuchUnit
  else match (s.getRegion region).lease entry with
    | some l => f l
    | none => .next s
def execLeaseAckTimeout (region entry : Nat) (s : State) : Out := leaseEvent region entry s (fun l =>
  event (leaseState l == 0 && decide (l.since + 2 ^ 26 ≤ s.tsc.toNat)) s (s.acceptLease region l))
def execLeaseDeferExpiry (region entry : Nat) (s : State) : Out := leaseEvent region entry s (fun l =>
  event (leaseState l == 1 && decide (l.since + 2 ^ 30 ≤ s.tsc.toNat)) s
    (s.setLease region { (l.enter 0 s.tsc.toNat) with w0 := setFld (setFld l.w0 62 60 0) 57 55 (leaseDefers l + 1) }))

/-- START has come and the limits let the lease start (R431). -/
def State.leaseDue (s : State) (region : Nat) (l : Lease) : Bool :=
  let r := s.getRegion region
  leaseState l == 2 && decide (l.w1.toNat ≤ s.tsc.toNat) && bit r.lpCfg 63 && decide (r.leased < s.liveUnits region / 50)
/-- A move of the region's must end before a core's actor moves (R412). -/
def State.moveFree (s : State) (region : Nat) (u : UnitWord) : Bool :=
  unitKind u != 0 || (s.graphOn (unitPsn u)).isNone || ((s.getRegion region).move.isNone && !(s.getCore (unitPsn u)).halting)
def State.leaseCanStart (s : State) (region : Nat) (l : Lease) : Bool :=
  s.leaseDue region l && s.leaseReady (leaseUnit l) && s.moveFree region (leaseUnit l)
/-- The cancellation of a ring whose link is leased. -/
def cancelForLease (region : Nat) (r : Ring) (s : State) : State := s.cancelRing region r 1
/-- LEASE_START: at START LEASE_PEND is set on the unit's ring; evacuation begins when the conditions hold, in the order of lease numbers. -/
def execLeaseStart (region entry : Nat) (s : State) : Out := leaseEvent region entry s (fun l =>
  match s.unitRing (leaseUnit l) with
  | some r =>
    if s.leaseDue region l ∧ r.leaseAt.isNone then .next (s.pendRing region r true)
    else event (s.leaseCanStart region l && s.canCancel r 1 && !(s.getRegion region).leases.any (fun m =>
      decide (leaseNumber m < leaseNumber l) && s.leaseCanStart region m)) s (s.beginEvacuation cancelForLease region l)
  | none => event (s.leaseCanStart region l && !(s.getRegion region).leases.any (fun m =>
      decide (leaseNumber m < leaseNumber l) && s.leaseCanStart region m)) s (s.beginEvacuation cancelForLease region l))

/-- Whether evacuation can complete. -/
def State.evacuated (s : State) (region : Nat) (l : Lease) : Bool :=
  let u := leaseUnit l
  match unitKind u with
  | 0 => s.actorDrained (unitPsn u) && s.canRead (unitPsn u) (localKey (unitPsn u) 0) 0x18000 && !(s.getCore (unitPsn u)).halting && !(s.getRegion region).move.any (fun m => m.lease.isNone && m.from_ == unitPsn u)
  | 3 => let st := (at_ (s.getActor (chanStack u)).chanState (chanPhys u) 0).toNat
         st == 4 || st == 5
  | 1 | 2 => (s.evac (unitPsn u)).isNone
  | _ => true
/-- The contents go to the spare and the logical unit with them (R435). -/
def State.moveContents (s : State) (region : Nat) (l : Lease) : State :=
  let u := leaseUnit l
  let p := unitPsn u
  let q := unitPsn (leaseSpare l)
  match unitKind u with
  | 0 =>
    let holds := ((s.getRegion region).move.filter (fun m => m.lease == some l.index)).map (·.holds)
    let s := (((s.setMoving p false).logMove region (s.ctxOf p) (s.actorOn p) (if s.servesAny p then [p, q] else [])).moveActor p q).remapCore p q
    let s := match holds with
      | some h => s.modCore q (·.restoreHolds h)
      | none => s
    let s := s.modRegion region (fun r => { r with move := r.move.filter (fun m => m.lease != some l.index) })
    match s.ringOf (s.getCore q) with
    | some r => s.pendRing region r false
    | none => s
  | 1 | 2 => s.modTile p (fun t => { t with withdrawn := true })
  | _ => s
/-- The unit that now stands for the logical one, for its announcements. -/
def leaseSubject (l : Lease) : UnitWord := if unitKind (leaseUnit l) < 4 ∧ leaseSpare l ≠ 0 then leaseSpare l else leaseUnit l
/-- LEASE_EVACUATION_DONE: the change is announced; testing begins, or retirement goes on. -/
def execLeaseEvacuationDone (region entry : Nat) (s : State) : Out := leaseEvent region entry s (fun l =>
  let u := leaseUnit l
  let old := s.capacity u
  let new := if unitKind u < 4 then s.capacity (leaseSpare l) else 0
  let t := s.moveContents region l
  let retire := t.retiringUnit u || decide (32768 ≤ t.score u)
  let t := t.setLease region { (l.enter (if retire then 6 else 4) t.tsc.toNat) with started := true }
  let t := if unitKind u = 0 ∧ !retire then t.modCore (unitPsn u) (fun c => { c with diag := true }) else t
  event (leaseState l == 3 && s.evacuated region l) s (t.announceUnit (leaseSubject l) 5 s.tsc.toNat old new))

/-! Testing (R433, R434). -/

/-- TEST_PATTERN_RESULT: a mismatch counts 4,096; the pattern and its syndrome stay for the record. -/
def execTestPatternResult (region entry : Nat) (mismatch : Bool) (syndrome : Word) (s : State) : Out := leaseEvent region entry s (fun l =>
  let l' : Lease := if mismatch then { l with passed := true, failing := BitVec.ofNat 16 (fld l.w0 47 32), syndrome } else { l with passed := true }
  let t := s.setLease region l'
  event (leaseState l == 4) s (if mismatch then t.addScore (leaseUnit l) 4096 else t))
/-- A core stays at the highest bin it passed. -/
def State.settleBin (s : State) (p : Psn) : State :=
  let d := s.draw
  let b := (Config.passingBin d.1).toNat
  d.2.modCore p (fun c =>
    if 4 ≤ b ∧ b < fld c.tileClk 63 59 then
      { c with tileClk := setFld (setFld (setFld c.tileClk 63 59 b) 53 46 (10 * min b (fld c.tileClk 58 54))) 45 34 (Config.railVoltage p b).toNat }
    else c)
/-- LEASE_TESTING_END: the patterns are done or DURATION has run out. -/
def execLeaseTestingEnd (region entry : Nat) (s : State) : Out := leaseEvent region entry s (fun l =>
  let u := leaseUnit l
  let retire := s.retiringUnit u || decide (32768 ≤ s.score u)
  let t := s.setLease region (l.enter (if retire then 6 else 5) s.tsc.toNat)
  let t := t.modRegion region (fun r => { r with tested := r.tested.filter (fun (x : BitVec 32 × Nat) => x.1 != u) ++ [(u, s.tsc.toNat)] })
  let t := if unitKind u = 0 then (if retire then id else (State.settleBin · (unitPsn u))) (t.modCore (unitPsn u) (fun c => { c with diag := false })) else t
  event (leaseState l == 4 && (l.passed || decide (l.since + leaseDuration l * 2 ^ 20 ≤ s.tsc.toNat))) s t)
/-- A ring whose link is back, or whose lease is over, is formed again. -/
def State.freeRing (s : State) (region : Nat) (u : UnitWord) : State :=
  match s.unitRing u with
  | some r =>
    let s := s.pendRing region r false
    match s.ringAt region r.number with
    | some r => s.reform region r
    | none => s
  | none => s
/-- LEASE_RESTORE_DONE: the unit is a spare again, or its link in service; the entry is free. A unit to be retired goes on to RETIRING (R436). -/
def execLeaseRestoreDone (region entry : Nat) (s : State) : Out := leaseEvent region entry s (fun l =>
  let u := leaseUnit l
  let p := unitPsn u
  let during := if unitKind u < 4 then s.capacity (leaseSubject l) else 0
  let t := s.modRegion region (·.dropLease l.index)
  let t := match unitKind u with
    | 1 | 2 => t.modTile p (fun x => { x with withdrawn := false })
    | 3 => t.modActor (chanStack u) (fun a => { a with chanState := put a.chanState (chanPhys u) 1 })
    | 4 => t.mendLink u
    | 5 => t.freeRing region u
    | _ => t
  event (leaseState l == 5) s (if s.retiringUnit u then s.setLease region (l.enter 6 s.tsc.toNat)
    else t.announceUnit (leaseSubject l) 2 s.tsc.toNat during (t.capacity (leaseSubject l))))

/-! Retirement (R436, R437). -/

/-- RETIREMENT_NOTICE_EXPIRY: the notice is over; evacuation begins under an entry without a number. -/
def execRetirementNoticeExpiry (region : Nat) (unit : BitVec 32) (s : State) : Out :=
  if 80 ≤ region then .fault .noSuchUnit
  else match (s.getRegion region).retiring.find? (fun x => x.1 == unit) with
    | some x =>
      let t := s.newLease region unit 3 0 0xFFFF 0 0 (some 0)
      event (decide (x.2.1 ≤ s.tsc.toNat) && !s.hasLease unit && s.carries unit && !s.cannotLeave unit && (s.getRegion region).freeLease.isSome &&
          s.leaseReady unit && s.moveFree region unit && (s.unitRing unit).all (fun r => s.canCancel r 1)) s
        (match (t.getRegion region).leases.find? (fun l => leaseUnit l == unit) with
          | some l => t.beginEvacuation cancelForLease region l
          | none => t)
    | none => .next s

/-- The record (R437). -/
def State.retirementRecord (s : State) (l : Lease) (reason : Nat) : List Byte :=
  let u := leaseUnit l
  leBytes 8 s.tsc.toNat ++ leBytes 4 u.toNat ++ leBytes 1 reason ++ leBytes 1 (if l.started then 0 else 1) ++ leBytes 2 (s.score u) ++
    leBytes 2 l.failing.toNat ++ leBytes 2 (leaseNumber l) ++ leBytes 4 s.module.recordSeq ++ leBytes 8 l.syndrome.toNat
/-- One signature of the module's key: its index is recorded as used before the signature leaves (R447). -/
def State.sign (s : State) (msg : List Byte) : List Byte × State :=
  (Config.xmssSign s.module.xmssIndex msg,
    { s with module := { s.module with xmssIndex := s.module.xmssIndex + 1, xmssSpent := decide (2 ^ 20 ≤ s.module.xmssIndex + 1) } })
/-- The router of a withdrawn unit served the reduction trees: their logical nodes go to other routers, what was combined is discarded, and each leaf, which
keeps its contribution until its round ends, sends it again (R323). -/
def State.rehostTrees (s : State) (region : Nat) : State :=
  s.modRegion region (fun r => { r with trees := r.trees.map (fun t => { t with rounds := [] }) })
/-- The unit leaves service for good. -/
def State.withdraw (s : State) (region : Nat) (u : UnitWord) : State :=
  let p := unitPsn u
  let s := if unitKind u ≤ 2 then s.rehostTrees region else s
  match unitKind u with
  | 0 => s.modCore p (fun c => { c with live := false, name := nullName, diag := false })
  | 1 | 2 => s.modTile p (fun t => { t with live := false, withdrawn := true })
  | 3 => s.modActor (chanStack u) (fun a => { a with chanState := put a.chanState (chanPhys u) 5 })
  | 5 => match s.unitRing u with
    | some r => s.pendRing region r false
    | none => s
  | _ => s
/-- RETIREMENT_COUNTERSIGNED: the monitor has signed and archived the record; the unit counts as retired, the grade is computed again, the change
announced. -/
def execRetirementCountersigned (region entry : Nat) (s : State) : Out := leaseEvent region entry s (fun l =>
  let u := leaseUnit l
  let reason := (((s.getRegion region).retiring.find? (fun x => x.1 == u)).map (fun x => x.2.2)).getD 2
  let cap := s.capacity (leaseSubject l)
  let bytes := s.retirementRecord l reason
  let t := s.sign bytes
  let sig := t.1
  let t := t.2
  let t : State := { t with module := { t.module with
    recordSeq := t.module.recordSeq + 1, archive := t.module.archive ++ [bytes ++ sig]
    retired := if l.started then t.module.retired ++ [u] else t.module.retired
    retirePending := if l.started then t.module.retirePending.filter (· != u) else t.module.retirePending ++ [u] } }
  let t := t.modRegion region (fun r =>
    let r := r.dropLease l.index
    let rec_ := BitVec.ofNat 256 (ofLe bytes)
    { r with
      retiring := r.retiring.filter (fun x => x.1 != u), logCount := r.logCount + 1
      log := if r.logCount < 64 then r.log ++ [rec_] else r.log.set (r.logCount % 64) rec_ })
  let t := if l.started then (t.withdraw region u).regrade else t
  event (leaseState l == 6 && !s.module.xmssSpent) s
    (if l.started then t.announceUnit (leaseSubject l) 3 s.tsc.toNat cap (if leaseSubject l = u then 0 else cap) else t))

end Sys2Proof.Machine
end

