-- ==== Sys2Proof/Machine/Ctrl.lean ====
section
/-! DEFINITION. Writes of control registers (01 R40): a write acts on the bytes it names; each register's own rule (R5, R28, R36, R61, R65, R80, R123,
R176, R380, R408, R419, R424, R425, R430, R441, R454, R459) says what changes. Reads stand in Machine/Pages.lean. -/
namespace Sys2Proof.Machine
open Sys2Proof

/-- A write of one 64-bit register: the value and the mask of the bytes it names. -/
structure WordWrite where
  value : Word
  mask : Word
  deriving DecidableEq, Repr

/-- Bits of a read-write field after a write. -/
def WordWrite.onto (w : WordWrite) (old field : Word) : Word :=
  (old &&& ~~~ (w.mask &&& field)) ||| (w.value &&& w.mask &&& field)
/-- The bits written as 1: what W1C, W1S and write-only fields see. -/
def WordWrite.cmd (w : WordWrite) : Word := w.value &&& w.mask
/-- Whether a write names the byte that holds a bit. -/
def WordWrite.names (w : WordWrite) (i : Nat) : Bool := bit w.mask i
/-- A field of bits hi to lo. -/
def bitsOf (hi lo : Nat) : Word := BitVec.ofNat 64 (2 ^ (hi + 1) - 2 ^ lo)

/-! Core control pages (R36). -/

/-- The writable bits of a handler entry, low and high half (R176). -/
def handlerField (i : Nat) : Word :=
  if i % 2 = 0 then bitsOf 31 0
  else bitsOf 63 61 ||| bitsOf 58 39 ||| bitsOf 31 16 ||| bitsOf 12 0
/-- The fields of a queue descriptor (R90, R91). -/
def queueField (h i : Nat) : Word :=
  if i % 2 = 0 then (if h < 20 then bitsOf 63 0 else bitsOf 63 39 ||| bitsOf 31 0)
  else if h < 20 then bitsOf 63 60 ||| bitsOf 53 49 ||| bitsOf 47 32 ||| bitsOf 16 0
  else bitsOf 63 20 ||| bitsOf 17 0
/-- One half of a 128-bit register. -/
def setHalf (r : BitVec 128) (i : Nat) (w : Word) : BitVec 128 := setFld r (64 * (i % 2) + 63) (64 * (i % 2)) w.toNat
def Core.writeHandler (c : Core) (i : Nat) (w : WordWrite) : Core :=
  let e := i / 2
  let h := setHalf (c.handler e) i (w.onto (half (c.handler e) i) (handlerField i))
  c.setHandler e (if e = 19 then setFld h 107 103 19 else h)
/-- The presented slots of a handle follow RD_PTR and ARRIVED as firmware has written them (R90, R94). A queue of several producers keeps its own: the two
words do not say whose slots they count. -/
def Core.recount (c : Core) (h : Nat) (old : Queue) : Core :=
  let q := c.queue h
  if 20 ≤ h ∨ qProducers q ≠ 1 ∨ (qRead q = qRead old ∧ qArrived q = qArrived old) then c
  else
    let k := if (c.producers h).isEmpty then noProducer else 0
    let n := min ((qArrived q + 2 ^ 32 - qRead q) % 2 ^ 32) (qDepth q)
    { c with arrivals := c.arrivals.filter (·.1 != h) ++ (List.range n).map (fun j => (h, k, (qRead q + j) % qDepth q)) }
def Core.writeQueue (c : Core) (i : Nat) (w : WordWrite) : Core :=
  ((c.setQueue (i / 2) (setHalf (c.queue (i / 2)) i (w.onto (half (c.queue (i / 2)) i) (queueField (i / 2) i)))).checkQueue (i / 2)).recount (i / 2)
    (c.queue (i / 2))
/-- A counter never decreases (R185). -/
def raised (old : Word) (w : WordWrite) : Word :=
  let v := w.onto old (bitsOf 63 0)
  if old.toNat ≤ v.toNat then v else old
/-- CORE_NAME, CORE_SNUFF and MATRIX_CFG are open to firmware; the handler table, queue descriptors and counters while no activation is
resident. -/
def State.writeCorePage (s : State) (p : Psn) (off : Nat) (w : WordWrite) : State :=
  let c := s.getCore p
  if off < 0x600 then
    (if c.act.isSome then s
    else if off < 0x140 then s.putCore (c.writeHandler (off / 8) w)
    else if 0x200 ≤ off ∧ off < 0x400 then s.putCore (c.writeQueue ((off - 0x200) / 8) w)
    else if 0x400 ≤ off then
      (let n := (off - 0x400) / 8
       if 53 ≤ n ∧ n ≤ 55 then s else s.putCore { c with q := put c.q n (raised (at_ c.q n 0) w) })
    else s)
  else match off with
    | 0x800 => if fld w.mask 23 0 = 0 then s else (s.rename (psnRegion p) p ((w.onto (c.name.zeroExtend 64) (bitsOf 23 0)).extractLsb' 0 24)).2
    | 0x870 => s.putCore { c with diag := bit (w.onto c.matrixCfg (bitsOf 63 63)) 63 }
    | 0x8C0 => if bit w.cmd 63 then s.clearSnuff p else s
    | _ => s

/-! Store-tile pages (R80, R185). -/

/-- SEG_CFG: a value that breaks the limit of R80 is ignored; a change waits until no access to the segment is in progress (R82). -/
def State.writeSegCfg (s : State) (t : Psn) (seg : Nat) (v : Word) : State :=
  let v := cfgValue seg v
  if !interior (psnIndex t) ∨ !cfgFits v then s else s.modTile t (fun tile => { tile with reconf := tile.reconf ++ [(seg, v)] })
/-- The configuration that a segment will have. -/
def Tile.nextCfg (t : Tile) (seg : Nat) : Word := (((t.reconf.filter (fun (x : Nat × Word) => x.1 == seg)).getLast?).map Prod.snd).getD (t.seg seg)
def State.writeTilePage (s : State) (t : Psn) (off : Nat) (w : WordWrite) : State :=
  if off < 0x40 then s.writeSegCfg t (off / 8) (w.onto ((s.getTile t).nextCfg (off / 8)) (bitsOf 63 0))
  else if 0x100 ≤ off ∧ off < 0x180 then
    s.modTile t (fun tile => { tile with sq := put tile.sq ((off - 0x100) / 8) (raised (at_ tile.sq ((off - 0x100) / 8) 0) w) })
  else s

/-! Lantern pages. -/

/-- A register whose writes outside a range are ignored. -/
def ranged (w : WordWrite) (old field : Word) (lo hi : Nat) : Word :=
  let v := w.onto old field
  if lo ≤ v.toNat ∧ v.toNat ≤ hi then v else old
def State.writeLantern (s : State) (lv : Level) (region off : Nat) (w : WordWrite) : State :=
  let r := s.getRegion region
  if 0x700 ≤ off ∧ off < 0x800 then
    s.putRegion { r with ctxSave := put r.ctxSave ((off - 0x700) / 8) (w.onto (at_ r.ctxSave ((off - 0x700) / 8) 0) (bitsOf 45 16)) }
  else if 0xC00 ≤ off ∧ off < 0xD00 then
    let n := (off - 0xC00) / 8
    let field := bitsOf 47 9 ||| 1 ||| (if lv = .monitor then bitsOf 63 52 else 0)
    s.putRegion { r with graphRoot := put r.graphRoot n (w.onto (at_ r.graphRoot n 0) field) }
  else match off with
    | 0x400 => s.putRegion { r with runqAge := ranged w r.runqAge (bitsOf 24 0) (2 ^ 10) (2 ^ 24) }
    | 0x408 => s.putRegion { r with ringIdle := ranged w r.ringIdle (bitsOf 19 0) 1024 (2 ^ 20 - 1) }
    | 0x410 => s.putRegion { r with tombWindow := ranged w r.tombWindow (bitsOf 20 0) 4096 (2 ^ 20) }
    | 0x418 => if w.names 0 then s.writePrefix region (w.onto 0 (bitsOf 5 0)) else s
    | 0x420 => s.putRegion { r with dirSel := w.onto (if bit w.cmd 63 then setBit r.dirSel 63 false else r.dirSel) (bitsOf 8 0) }
    | 0x428 =>
      if fld w.mask 55 32 = 0 then s
      else s.writeDirEntry region ((w.onto (s.dirEntry r) (bitsOf 55 32)).extractLsb' 32 24)
    | 0x500 => s.moveRequest region w.cmd
    | 0x600 => s.graphCtl region w.cmd
    | 0x620 =>
      let v := w.onto r.hangCfg (bitsOf 63 63)
      let l := fld (w.onto r.hangCfg (bitsOf 4 0)) 4 0
      s.putRegion { r with hangCfg := if 20 ≤ l ∧ l ≤ 30 then setFld v 4 0 l else v }
    | 0x628 => s.putRegion { r with hangMap := w.onto r.hangMap (bitsOf 45 0) }
    | 0xD00 => s.invalidate region w.cmd
    | 0xD08 => s.putRegion { r with invalStat := if bit w.cmd 1 then setBit r.invalStat 1 false else r.invalStat }
    | _ => s

/-! Power clusters, the Lamplighter. -/

def State.writeCluster (s : State) (region n off : Nat) (w : WordWrite) : State :=
  match off with
  | 0x000 => s.writePwrCtl region n (if w.names 63 then some (bit w.cmd 63) else none) (bit w.cmd 62)
  | 0x010 => if bit w.cmd 0 then s.wakeCluster region n 5 0 else s
  | 0x018 => s.modCluster region n (fun c => { c with retAddr := w.onto c.retAddr (bitsOf 45 16) })
  | _ => s
def State.writeLamp (s : State) (lv : Level) (region off : Nat) (w : WordWrite) : State :=
  let r := s.getRegion region
  match off with
  | 0x000 => s.putRegion { r with lpCfg := w.onto r.lpCfg (bitsOf 47 0 ||| (if lv = .monitor then bitsOf 63 63 else 0)) }
  | 0x010 => s.leaseRequest region w.cmd
  | 0x018 => s.putRegion { r with leaseStart := w.onto r.leaseStart (bitsOf 63 0) }
  | 0x040 => s.putRegion { r with leaseSel := w.onto r.leaseSel (bitsOf 5 0) }
  | 0x068 => s.putRegion { r with scoreSel := w.onto r.scoreSel (bitsOf 31 0) }
  | 0x078 =>
    let s := if bit w.cmd 0 then s.scoreMismatch region else s
    if bit w.cmd 1 then s.scoreRetire region else s
  | _ => s

/-! Wafer-level units. -/

/-- The module leaves park; a parked graph stays parked until a request resumes it (R459, log entry 94). -/
def State.unpark (s : State) : State := { s with module := { s.module with lowPower := false, pwr := 0 } }
/-- PARK: refused while a graph runs, halts or resumes. -/
def State.park (s : State) : State :=
  if s.graphs.any (fun g => g.stat == 1 || g.stat == 2 || g.stat == 4) ∨ s.module.lowPower then s
  else { s with module := { s.module with lowPower := true, pwr := setBit s.module.pwr 0 true } }
/-- The doorbell page (R441): bases and LOG_N change only while HEAD = TAIL; TAIL is the doorbell, which also ends park. -/
def State.writeHost (s : State) (n off : Nat) (w : WordWrite) : State :=
  let h := s.getHost n
  let idle := fld h.rqCtl 63 48 == fld h.rqCtl 47 32
  match off with
  | 0x010 => if idle then s.putHost n { h with rqBase := w.onto h.rqBase (bitsOf 63 6) } else s
  | 0x018 =>
    let t := s.putHost n { h with rqCtl := w.onto h.rqCtl (bitsOf 63 48 ||| (if idle then bitsOf 3 0 else 0)) }
    if w.names 63 ∨ w.names 48 then t.unpark else t
  | 0x020 => if idle then s.putHost n { h with cqBase := w.onto h.cqBase (bitsOf 63 4) } else s
  | 0x028 => s.putHost n { h with cqCtl := w.onto h.cqCtl (bitsOf 47 32) }
  | _ => s
/-- A DRAM actor's page (R123). -/
def State.writeActorPage (s : State) (n off : Nat) (w : WordWrite) : State :=
  let a := s.getActor n
  if 0x040 ≤ off ∧ off < 0x140 then
    let c := (off - 0x040) / 8
    let v := fld (w.onto ((at_ a.quota c 0).zeroExtend 64) (bitsOf 11 0)) 11 0
    if v ≤ 2048 then s.putActor { a with quota := put a.quota c (BitVec.ofNat 12 v) } else s
  else match off with
    | 0x000 => s.putActor { a with cfg := w.onto a.cfg (bitsOf 7 0) }
    | 0x200 => s.putActor { a with holdSel := w.onto a.holdSel (bitsOf 10 0) }
    | _ => s
/-- The three words of a transfer engine page (R445, log entry 24). -/
def State.writePort (s : State) (u off : Nat) (w : WordWrite) : State :=
  let (a, b, c) := ((s.module.ports.find? (fun p => p.1 == u)).map (fun p => p.2)).getD (0, 0, 0)
  let all := bitsOf 63 0
  let new : Word × Word × Word := match off with
    | 0 => (w.onto a all, b, c)
    | 8 => (a, w.onto b all, c)
    | 16 => (a, b, w.onto c all)
    | _ => (a, b, c)
  { s with module := { s.module with ports := upsert s.module.ports (fun p => p.1 == u) (u, new) } }
def State.writeWafer (s : State) (u off : Nat) (w : WordWrite) : State :=
  if u = 0 ∧ off = 0x040 then
    let s := if bit w.cmd 0 then s.park else s
    if bit w.cmd 1 then s.unpark else s
  else s

/-! The CTRL space. -/

/-- A write of one register, at a multiple of 8. A write of a monitor-owned page changes nothing (log entry 126). -/
def State.ctrlWriteWord (s : State) (lv : Level) (a : Nat) (w : WordWrite) : State :=
  let r := ctrlRegion a
  let u := ctrlUnit a
  let off := ctrlOff a
  if !ctrlExists a then s
  else if r = 0x7F then
    match ctrlBlock a with
    | 0 => s.writeHost u off w
    | 1 => s.writeActorPage u off w
    | 2 => s.writePort u off w
    | 3 => s.writeWafer u off w
    | _ => s
  else
    match ctrlBlock a with
    | 0 => s.writeCorePage (corePsn r u) off w
    | 1 => s.writeTilePage (tilePsn r u) off w
    | 4 => s.writeLantern lv r off w
    | 5 => s.writeCluster r u off w
    | 6 => s.writeLamp lv r off w
    | _ => s
/-- The part of a run of bytes that lies in the register at `a`. -/
def wordPart (addr : Nat) (data : List Byte) (a : Nat) : WordWrite :=
  let within (i : Nat) : Bool := decide (addr ≤ a + i ∧ a + i < addr + data.length)
  { value := BitVec.ofNat 64 (ofLe ((List.range 8).map (fun i => if within i then data.getD (a + i - addr) 0 else 0)))
    mask := BitVec.ofNat 64 (ofLe ((List.range 8).map (fun i => if within i then 0xFF else 0))) }
/-- A write of bytes: each register they touch acts on its own. -/
def State.ctrlWrite (s : State) (lv : Level) (addr : Nat) (data : List Byte) : State :=
  if data = [] then s
  else (List.range ((addr + data.length - 1) / 8 + 1 - addr / 8)).foldl (fun s k =>
    let a := (addr / 8 + k) * 8
    s.ctrlWriteWord lv a (wordPart addr data a)) s

/-- A refused write of service firmware is logged by the monitor as PRIV (R7); the writer is the service core of the quadrant or region. -/
def State.logPriv (s : State) (a : Nat) : State :=
  let writer := if ctrlRegion a < 80 then lanternPsn (ctrlRegion a) 1 else hostPsn 0
  { s with module := { s.module with monitorLog := s.module.monitorLog ++ [(s.tsc.toNat, writer, (Stop.priv 6).info [])] } }
/-- CTRL_REGISTER_WRITE: a write of service firmware reaches its unit; one outside the units is not made (R40), one to a register of the monitor's
raises PRIV and changes nothing there (R7). -/
def execCtrlRegisterWrite (addr : BitVec 40) (data : List Byte) (s : State) : Out :=
  let a := addr.toNat
  let there := data != [] && ctrlExists a && decide (ctrlOff a + data.length ≤ 4096)
  if ctrlDenied .firmware true a data.length then event there s (s.logPriv a)
  else event (there && (match ctrlPlace a with
      | some p => !s.gated p
      | none => true)) s (s.ctrlWrite .firmware a data)

end Sys2Proof.Machine
end

