-- ==== Sys2Proof/Machine/TileEvents.lean ====
section
/-! DEFINITION. The steps of accesses at store tiles, exchange banks, the companion and control registers (03 R79 to R88), of GONE and owner faults
(02 R73 to R75), of replies (12 R333), and of the segments' configuration (03 R80, R82). -/
namespace Sys2Proof.Machine
open Sys2Proof

/-- What an event needs of an item that is an access. -/
def accessEvent (id : Nat) (s : State) (f : Access → Out) : Out :=
  match s.item id with
  | some (.access a) => f a
  | _ => .next s
def State.setStage (s : State) (id : Nat) (a : Access) (st : Stage) : State := s.setItem id (.access { a with stage := st })

/-- A reply reaches its core: the register takes it while it waits for this item, a stream takes its bytes; the access is complete. -/
def State.deliver (s : State) (id : Nat) (a : Access) (bs : List Byte) (tag : Bool) : State :=
  (s.dropItem id).modCore a.core (fun c =>
    match a.landing, a.landing.reg with
    | .push _ _ _, _ => c.land a.landing bs tag id
    | _, some r => if c.awaits r id then c.land a.landing bs tag id else c
    | _, none => c)

/-- The FIFO segment of an access (R85). -/
def State.fifoOf (s : State) (a : Access) : Option (Psn × Nat) :=
  match a.owner with
  | .tile t off => if segMode ((s.getTile t).seg (off / 65536)) = 2 ∧ a.op < opCounterRead then some (t, off / 65536) else none
  | _ => none
/-- Whether accesses of the same kind wait at the segment before this one. -/
def State.fifoBehind (s : State) (id : Nat) (a : Access) : Bool :=
  match s.fifoOf a with
  | none => false
  | some q => (s.flight.takeWhile (fun i => i.id != id || a.stage != .fifoHeld)).any (fun i => match i.body with
    | .access b => b.stage == .fifoHeld && b.reads == a.reads && s.fifoOf b == some q
    | _ => false)
/-- An access waits at its segment, behind those that wait already; the seventeenth is returned. -/
def State.waitAtFifo (s : State) (id : Nat) (a : Access) : State :=
  match a.owner with
  | .tile t off =>
    if a.stage = .fifoHeld then s
    else if s.fifoWaiters t (off / 65536) < 16 then
      let d := s.dropItem id
      { d with flight := d.flight ++ [{ id, body := .access { a with stage := .fifoHeld } }] }
    else s.setStage id a .retry
  | _ => s
/-- The first part of an access that lies in two RAW segments of a tile (R83): its bytes in the first one. -/
def State.firstPart (s : State) (a : Access) : Option (Psn × Nat × Nat) :=
  match a.owner with
  | .tile t off =>
    let tile := s.getTile t
    let n := 65536 - off % 65536
    if a.op < opCounterRead ∧ n < a.size ∧ segMode (tile.seg (off / 65536)) = 0 ∧ segMode (tile.seg (off / 65536 + 1)) = 0 ∧
        !(levelOf a.core == .graph && off / 65536 == 6 && segSys (tile.seg 7)) then some (t, off, n) else none
  | _ => none
/-- The first part is performed; the access goes on with the second (R83). -/
def State.performFirst (s : State) (id : Nat) (a : Access) (t : Psn) (off n : Nat) : State :=
  match s.tileAct { a with size := n, data := a.data.take n } t off with
  | .done bs _ u => u.setItem id (.access { a with
      owner := .tile t (off + n), addr := a.addr + n, phys := a.phys + n, size := a.size - n, data := a.data.drop n, reply := a.reply ++ bs
      stage := .sent })
  | .refused code => s.setItem id (.access { a with stage := .refused, fault := some (a.refusal id code) })
  | .held => s
  | .gone => s.setStage id a .gone
/-- The owner performs an access, refuses it, holds it, or answers GONE. -/
def State.performItem (s : State) (id : Nat) (a : Access) : State :=
  if let some (t, off, n) := s.firstPart a then s.performFirst id a t off n
  else if s.fifoBehind id a then s.waitAtFifo id a
  else match s.performAt (fun addr data u => u.ctrlWrite (levelOf a.core) addr data) id a with
  | .done bs tag u =>
    (match a.owner with
      | .local _ => u.deliver id a bs tag
      | _ => u.setItem id (.access { a with stage := .performed, reply := a.reply ++ bs, tagv := tag }))
  | .refused f => s.setItem id (.access { a with stage := .refused, fault := some f })
  | .held => s.waitAtFifo id a
  | .gone => s.setStage id a .gone
/-- STORE_ACCESS: the accesses it waits for are complete (R152), and the unit's cluster is not gated (R456). -/
def execStoreAccess (id : Nat) (s : State) : Out := accessEvent id s (fun a =>
  let place := s.arrivesAt (.access a)
  event ((a.stage == .held || a.stage == .sent || a.stage == .fifoHeld) && s.gone a.deps && !isDram a.owner && place.all (fun p => !s.gated p.1)) s
    ((match place with
      | some p => s.touchCluster p.1
      | none => s).performItem id a))
/-- FIFO_RETRY: the issuer sends the access again. -/
def execFifoRetry (id : Nat) (s : State) : Out := accessEvent id s (fun a => event (a.stage == .retry) s (s.setStage id a .sent))

/-- LOAD_STORE_REPLY: replies of one DRAM channel come in the order of their requests (R113). -/
def execLoadStoreReply (id : Nat) (s : State) : Out := accessEvent id s (fun a =>
  event (a.stage == .performed && decide (a.unit < 8) && s.replyFirst id a.core a.replyChans) s (s.deliver id a a.reply a.tagv))

/-! GONE and owner faults (R74, R75). -/

/-- The access belongs to the activation resident on its core. -/
def State.residentAccess (s : State) (a : Access) : Bool := (s.getCore a.core).act.any (fun r => r.serial == a.serial)
/-- Whether the core has counted and recorded the access's answer. -/
def State.notedAccess (s : State) (id : Nat) (a : Access) : Bool := (s.getCore a.core).act.any (fun r => r.reissue.contains id)
/-- A fault of an access in flight is due at the next boundary, and the access is to be issued again (R74, R418). -/
def State.noteAccess (s : State) (id : Nat) (a : Access) (f : FaultInfo) : State :=
  s.modCore a.core (fun c => { (c.addQ 52 1) with
    act := c.act.map (fun r => { r with
      boundary := if r.halted.isSome then r.boundary else r.boundary ++ [{ f with answer := if a.engine then .nothing else .item id, counted := true }]
      reissue := r.reissue ++ [id] }) })
/-- Whether a place that parts name can be reached now: none lies in a withdrawn tile. -/
def State.reachable (s : State) (ps : List Part) : Bool := ps.all (fun p => match p.owner with
  | .tile t _ => !(s.getTile t).withdrawn
  | _ => true)
/-- GONE_REPLY, of an access that no copy channel sent (R100): counted; the resident activation will be suspended; an access of an ended one goes out again, translated afresh, once the map has
changed (R75). -/
def execGoneReply (id : Nat) (s : State) : Out := accessEvent id s (fun a =>
  if a.stage ≠ .gone ∨ 8 ≤ a.unit then .next s
  else if s.residentAccess a then event (!s.notedAccess id a) s ((s.setItem id (.access { a with again := true })).noteAccess id a a.goneFault)
  else if (s.suspended a.core).contains a.serial then .next s
  else if !a.noted then .next ((s.setItem id (.access { a with again := true, noted := true })).modCore a.core (·.addQ 52 1))
  else
    let r := s.translateAgain a.core a
    event (s.reachable r.1) s (r.2.2.reissueAs id { a with noted := false } r.1 r.2.1))
/-- OWNER_FAULT_REPLY: the resident activation will be suspended; an ended one's access is complete, with a message against the graph. -/
def execOwnerFaultReply (id : Nat) (s : State) : Out := accessEvent id s (fun a =>
  match a.stage, a.fault with
  | .refused, some f =>
    if 8 ≤ a.unit then .next s
    else if s.residentAccess a then event (!s.notedAccess id a) s (s.noteAccess id a f)
    else event (s.canNotice a.core) s ((s.dropItem id).graphFault a.core f.code a.ctx (s.actorOn a.core) f.detail)
  | _, _ => .next s)

/-! Configuration. -/

/-- SEG_CFG_WRITE by service firmware. -/
def execSegCfgWrite (tile : Psn) (seg : Nat) (value : Word) (s : State) : Out :=
  if !isTilePsn tile ∨ 8 ≤ seg then .fault .noSuchUnit else .next (s.writeSegCfg tile seg value)
/-- SEGMENT_RECONFIGURE: the oldest change of a segment takes effect between two accesses. -/
def execSegmentReconfigure (tile : Psn) (seg : Nat) (s : State) : Out :=
  if !isTilePsn tile ∨ 8 ≤ seg then .fault .noSuchUnit
  else match (s.getTile tile).reconf.find? (fun x => x.1 == seg) with
    | some x =>
      let t := (s.modTile tile (fun t => { t with reconf := t.reconf.erase x })).configure tile seg x.2
      .next (match s.evac tile with
        | some e => t.followCopy e
        | none => t)
    | none => .next s

end Sys2Proof.Machine
end

