-- ==== Sys2Proof/Machine/CopyEvents.lean ====
section
/-! DEFINITION. The steps of copy channels (03 R87, R97 to R100, 12 R325 to R327), and the accesses that engines of a core make at once. -/
namespace Sys2Proof.Machine
open Sys2Proof

/-- One part of an engine's access, performed. -/
def State.enginePart (s : State) (core : Psn) (serial ctx : Nat) (p : Part) (kind : AccKind) (data : List Byte) (aop : Nat) :
    Except Fail (List Byte × State) :=
  let x := { p.accessOf (s.getCore core) serial ctx kind [] with data := slice data p.place p.size, aop, engine := true }
  if s.partWaits core p then .error .held
  else match s.performAt (fun addr data u => u.ctrlWrite (levelOf core) addr data) 0 x with
  | .done bs _ t => .ok (bs, t)
  | .refused f => .error (.fault { f with answer := .nothing })
  | .held => .error .held
  | .gone => .error (.fault x.goneFault)
def State.engineParts (s : State) (core : Psn) (serial ctx : Nat) (ps : List Part) (kind : AccKind) (data : List Byte) (aop : Nat) :
    Except Fail (List Byte × State) :=
  match ps with
  | [] => .ok ([], s)
  | p :: rest => do
    let r ← s.enginePart core serial ctx p kind data aop
    let more ← r.2.engineParts core serial ctx rest kind data aop
    return (r.1 ++ more.1, more.2)

/-- The bytes of the next read, performed. -/
def State.copyRead (s : State) (core : Psn) (k : Copy) (n : Nat) : Except Fail (List Byte × State) := do
  let ps ← s.copyParts core k false n
  s.engineParts core k.serial k.ctx ps .load [] 0
/-- The bytes of a move, written: to memory, with the full bit under FILL, or sent as a slot. -/
def State.copyWrite (s : State) (core : Psn) (k : Copy) (data : List Byte) : Except Fail State :=
  match k.dst with
  | .handle h => if oCredits ((s.getCore core).queue h) = 0 ∨ (s.getCore core).snuffed then .error .held else .ok (s.sendSlot core h data [])
  | _ => do
    let ps ← s.copyParts core k true data.length
    let r ← s.engineParts core k.serial k.ctx ps .store data (if k.fill then fillMark else 0)
    return r.2

/-! Channels. -/

def Core.channel (c : Core) (i : Nat) : CopyChan := at_ c.copies i { queue := [] }
def Core.setHead (c : Core) (i : Nat) (k : Copy) : Core := { c with copies := put c.copies i { queue := k :: (c.channel i).queue.drop 1 } }
/-- The tile whose address generator a command uses. -/
def State.copyTile (s : State) (core : Psn) (k : Copy) : Option Psn :=
  let of (x : Side) : Option Psn := match x with
    | .pattern _ p => s.storeTile (s.getCore core) (p.base / 2 ^ 19)
    | _ => none
  (of k.src).orElse (fun _ => of k.dst)
/-- A command is over: its item, and its address generator on whichever tile holds it. -/
def State.endCopy (s : State) (core : Psn) (chan : Nat) (k : Copy) : State :=
  let s := (s.dropItem k.id).modCore core (fun c => { c with copies := put c.copies chan { queue := (c.channel chan).queue.drop 1 } })
  match s.tiles.find? (fun t => t.generators.contains k.id) with
  | some t => s.putTile { t with generators := t.generators.filter (· != k.id) }
  | none => s
/-- The write pointer's value within a command (R98). -/
def pointerAt (length done : Nat) : Nat := if length ≤ done then length else done / 64 * 64

/-- COPY_COMMAND_START: what it waits for is complete; a patterned side claims an address generator; a handle's staging ring is empty. -/
def execCopyCommandStart (core : Psn) (chan : Nat) (s : State) : Out :=
  let c := s.getCore core
  if 8 ≤ chan then .fault .noSuchUnit
  else match (c.channel chan).queue with
  | [] => .next s
  | k :: _ =>
    let free := match k.handle with
      | some h => oStaged (c.queue h) == 0 && !c.staged.any (fun x => x.1 == h)
      | none => true
    let tile := s.copyTile core k
    let room := tile.all (fun t => decide ((s.getTile t).generators.length < 4))
    let t := s.modCore core (fun c => c.setHead chan { k with started := true })
    event (!k.started && s.gone k.deps && free && room && !c.halting) s
      (match tile with
        | some p => t.modTile p (fun x => { x with generators := x.generators ++ [k.id] })
        | none => t)
/-- A move fails (R100): the channel stops. An uncorrectable error is posted against the graph; any other fault reaches the activation
that issued the command. Once that has ended, GONE is counted and the move is tried again until the remap lets it through (R74, R75); another
fault goes against the graph, with the command over. -/
def State.failCopy (s : State) (core : Psn) (chan : Nat) (k : Copy) (f : FaultInfo) : Option State :=
  let stopped := s.modCore core (fun c => c.setHead chan { k with stopped := true })
  if f.code = .eccfatal then (if s.canNotice core then some (stopped.coreNotice core f.code f.detail) else none)
  else if (s.getCore core).act.any (fun a => a.serial == k.serial) then
    some (stopped.modCore core (fun c => { (c.addQ 52 1) with act := c.act.map (fun a => { a with boundary := a.boundary ++ [{ f with counted := true }] }) }))
  else if f.code = .gone then
    (if (s.suspended core).contains k.serial then some (stopped.modCore core (·.addQ 52 1))
    else if k.noted then none
    else some (s.modCore core (fun c => (c.addQ 52 1).setHead chan { k with noted := true })))
  else if s.canNotice core then some ((s.endCopy core chan k).coreNotice core f.code f.detail) else none
/-- So many bytes more are performed at the destination: the write pointer follows, and the command may be over. -/
def State.copyDone (s : State) (core : Psn) (chan : Nat) (k : Copy) (n : Nat) : State :=
  let done := k.done + n
  let s := s.modCore core (fun c => (c.addQ (56 + chan) (pointerAt k.length done - pointerAt k.length k.done)).setHead chan
    { k with done, held := k.held.drop n, noted := false })
  if k.length ≤ done then s.endCopy core chan k else s
/-- An access of a channel to a FIFO segment goes to its tile, where it may wait (R85). -/
def State.copySend (s : State) (core : Psn) (chan : Nat) (k : Copy) (p : Part) (kind : AccKind) (data : List Byte) : State :=
  let t := s.launchItem (.access { p.accessOf (s.getCore core) k.serial k.ctx kind [] with data, engine := true, unit := 8 + chan })
  t.modCore core (fun c => c.setHead chan { k with access := some s.nextId })
/-- What the tile answered to a channel's access at a FIFO; a halted channel takes back an access that still waits (R100). -/
def State.copyAnswer (s : State) (core : Psn) (chan : Nat) (k : Copy) (id : Nat) : Option State :=
  let k' := { k with access := none }
  let fail (f : FaultInfo) : Option State := (s.dropItem id).failCopy core chan k' f
  match s.item id with
  | some (.access a) =>
    match a.stage with
    | .performed =>
      let t := s.dropItem id
      some (if a.reads then t.modCore core (fun c => c.setHead chan { k' with held := k.held ++ a.reply }) else t.copyDone core chan k' a.size)
    | .gone => fail a.goneFault
    | .refused => a.fault.bind (fun f => fail { f with answer := .nothing })
    | _ => if (s.getCore core).halting then some ((s.dropItem id).modCore core (fun c => c.setHead chan k')) else none
  | _ => none
/-- The piece that has been read whole is written; to a FIFO segment it goes as an access of its own. -/
def State.copyPut (s : State) (core : Psn) (chan : Nat) (k : Copy) (w : Nat) : Except Fail State := do
  let ps ← s.copyParts core k true w
  match s.atFifo ps with
  | some p => return s.copySend core chan k p .store (k.held.take w)
  | none =>
    let t ← s.copyWrite core k (k.held.take w)
    return t.copyDone core chan k w
/-- The next move of a channel: bytes are read until the destination's piece is whole, which is then written. -/
def State.copyStep (s : State) (core : Psn) (chan : Nat) (k : Copy) : Except Fail State := do
  let w := s.writeSize core k
  if w ≤ k.held.length then s.copyPut core chan k w
  else
    let n := s.readSize core k
    let ps ← s.copyParts core k false n
    match s.atFifo ps with
    | some p => return s.copySend core chan k p .load []
    | none =>
      let r ← s.copyRead core k n
      let k := { k with held := k.held ++ r.1, noted := false }
      if w ≤ k.held.length then r.2.copyPut core chan k w else return r.2.modCore core (fun c => c.setHead chan k)
/-- COPY_BLOCK_WRITE: one block or element is read and written; the write pointer follows. A halted channel ends its current 64-byte block (R100). -/
def execCopyBlockWrite (core : Psn) (chan : Nat) (s : State) : Out :=
  let c := s.getCore core
  if 8 ≤ chan then .fault .noSuchUnit
  else match (c.channel chan).queue with
  | [] => .next s
  | k :: _ => match k.access with
    | some id => .next ((s.copyAnswer core chan k id).getD s)
    | none =>
      if !k.started ∨ k.stopped ∨ (c.halting ∧ !s.midBlock core k) then .next s
      else match s.copyStep core chan k with
      | .ok t => .next t
      | .error .held => .next s
      | .error (.fault f) => .next ((s.failCopy core chan k f).getD s)

end Sys2Proof.Machine
end

