-- ==== Sys2Proof/Machine/Dram.lean ====
section
/-! DEFINITION. DRAM and row-line instructions (12 R332 to R335). Each puts a request of R109 in flight; the actor performs it
(Machine/DramEvents.lean). -/
namespace Sys2Proof.Machine
open Sys2Proof

def askDram (reg : Nat) (kind : Nat) (write : Bool) : Ask := { code := 8, kind, write, reg, value := Cap.null, answers := false }

/-- How a request is answered (R332): RMODE, the input handle, the counter, and the destination address. -/
structure Reply where
  rmode : Nat
  rhandle : Nat
  ctr : Nat
  dest : Nat
  deriving DecidableEq, Repr

/-- The reply to the load-store unit (R333). -/
def Reply.unit : Reply := { rmode := 3, rhandle := 0, ctr := 0, dest := 0 }

/-- The target operand and destination capability (R332, R334): q48 to q63 raise PRIV; a queue reply must fit its slot; a direct write is
checked as a store over the bytes delivered. -/
def State.target (s : State) (rmode d cc len total : Nat) : Except Stop Reply := do
  if rmode = 0 then
    if qSlotBytes (s.core.queue d) < len + 16 then throw (plainFault .capbound len)
    return { rmode, rhandle := d, ctr := 0, dest := 0 }
  else
    if rmode = 1 ∧ 48 ≤ d then throw (.priv 6)
    let q := { Ask.store cc with answers := false }
    let c := s.c cc
    if c.tag ∧ c.otype = 0 ∧ c.space ≠ (if rmode = 1 then 0 else 1) ∧ !(c.space = 5 ∧ s.level = .graph) then throw (q.fault .capperm 0)
    let a ← s.checkCap q c 0 total
    let idx := if a / 2 ^ 19 = 0xFF then s.core.homeStore.toNat else a / 2 ^ 19
    return { rmode, rhandle := 0, ctr := d, dest := if rmode = 1 then a else idx * 2 ^ 19 + a % 2 ^ 19 }

/-- A queue reply reserves one slot of its handle at issue (R108). -/
def State.canReserve (s : State) (r : Reply) : Bool :=
  r.rmode != 0 ||
    decide ((s.core.arrivals.filter (·.1 == r.rhandle)).length + s.reservedSlots s.core r.rhandle < qDepth (s.core.queue r.rhandle))

/-- The stack and channel a line handle names (R115), as an address in its channel. -/
def handlePlace (h : Nat) : Nat := h / 2 ^ 11 % 32 * 2 ^ 10 + h / 2 ^ 6 % 32 * 2 ^ 15

/-- What a DRAM request waits for: its token (R155), and on a strong page the earlier requests of the activation to strong pages (R156, R157). -/
def State.requestDeps (s : State) (a : Act) (o : Order) (p : Part) : List Nat :=
  (if p.pkind = 2 then [] else o.after) ++
    (if isStrong p.pkind then ((s.accessesOf s.core.psn).filter (fun x =>
      x.2.serial == a.serial && x.2.engine && isDram x.2.owner && isStrong x.2.pkind)).map (·.1) else [])
/-- One request goes to its actor (R107, R108): at most 16 outstanding, its reply slot reserved. `landing` is the register it fills. -/
def State.request (s : State) (o : Order) (p : Part) (op : Nat) (kind : AccKind) (r : Reply) (handle : Nat) (data : List Byte)
    (gather elems : List (Nat × Nat)) (l : Landing) : State :=
  match s.core.act with
  | none => s
  | some a =>
    let x := { p.access s a kind (s.requestDeps a o p) with
               op, elems, rmode := r.rmode, rhandle := r.rhandle, ctr := r.ctr, dest := r.dest, handle, data, gather, landing := l, engine := true }
    let t := s.launchItem (.access x)
    match l.reg with
    | some reg => t.setPending reg s.nextId
    | none => t

/-- Room for n requests (R108), a slot for their reply, and a place in the order queue (R152). -/
def State.requestRoom (s : State) (o : Order) (r : Reply) (n : Nat) : Except Stop Unit :=
  let d := s.dramCount s.core.psn
  let h := s.heldCount s.core.psn
  let held := if s.gone o.after then 0 else n
  if (d ≠ 0 ∧ 16 < d + n) ∨ 32 ≤ h ∨ (h ≠ 0 ∧ 32 < h + held) ∨ !s.canReserve r then .error .wait else .ok ()

/-- The order of the class and row checks of an address operand (R334, R335): GLOBAL, then class 00, then one row. -/
def rowCheck (q : Ask) (off : Int) (ps : List Part) : Except Stop Part :=
  match ps with
  | [p] => if isDram p.owner then .ok p else .error (q.fault .capperm off)
  | p :: _ => .error (q.fault (if isDram p.owner then .align else .capperm) off)
  | [] => .error (q.fault .capperm off)

/-- The check of a GLOBAL operand. -/
def State.checkGlobal (s : State) (q : Ask) (c : Cap) (off : Int) (n : Nat) : Except Stop Nat :=
  if c.tag ∧ c.otype = 0 ∧ c.space ≠ 3 ∧ !(c.space = 5 ∧ s.level = .graph) then .error (q.fault .capperm off) else s.checkCap q c off n

/-- An operand in one row of a class 00 page, translated; then the request. -/
def State.withRow (s : State) (length : Nat) (q : Ask) (cap : Nat) (off : Int) (n : Nat) (k : Part → Body') : Except Stop State := do
  let a ← s.checkGlobal q (s.c cap) off n
  match s.resolve q 3 a n with
  | .stop st => throw st
  | .miss va => return s.askWalk length q va
  | .parts ps =>
    let p ← rowCheck q off ps
    k p (s.touch ps)

/-- The items that a request of a part leaves in its token: on an unordered page what it waits for, since it satisfies the token when it is sent (R155). -/
def State.requestToken (s : State) (o : Order) (p : Part) : List Nat :=
  match s.core.act with
  | some a => if p.pkind = 2 then s.waitsToSend (s.requestDeps a o p) p.owner else [s.nextId]
  | none => []

/-- DRD (R334): every capability check stands before the translation (R301). -/
def drdBody (x : Long) (len : Nat) : Body' := fun s => do
  let q := askDram x.a.toNat 0 false
  let _ ← s.checkGlobal q (s.c x.a.toNat) (x.indexB s) len
  let r ← s.target x.sub.toNat x.d.toNat x.c.toNat len len
  s.withRow x.bytes q x.a.toNat (x.indexB s) len (fun p s => do
    s.requestRoom (x.order s) r 1
    return (s.request (x.order s) p 0 .load r 0 [] [] [] .none).leaveTokens (x.order s) (s.requestToken (x.order s) p))

/-- DWR (R334): the first bytes of a vector register. -/
def dwrBody (x : Long) (len : Nat) : Body' := fun s => do
  unlessWait (s.popAll [(x.c.toNat, none)])
  s.withRow x.bytes (askDram x.a.toNat 1 true) x.a.toNat (x.indexB s) len (fun p s => do
    s.requestRoom (x.order s) Reply.unit 1
    let s ← s.popAll [(x.c.toNat, none)]
    return (s.request (x.order s) p 1 .store Reply.unit 0 ((leBytes 64 (s.vin x.c.toNat).toNat).take len) [] [] .none).leaveTokens
      (x.order s) (s.requestToken (x.order s) p))

/-- The elements of a DGATH, each in one row, translated in order. -/
def State.gatherParts (s : State) (q : Ask) (size : Nat) (as : List (Nat × Int)) : Except Stop (Resolve) :=
  match as with
  | [] => .ok (.parts [])
  | (a, off) :: rest =>
    match s.resolve q 3 a size with
    | .parts ps => do
      let p ← rowCheck q off ps
      let more ← s.gatherParts q size rest
      match more with
      | .parts qs => return .parts (p :: qs)
      | m => return m
    | r => .ok r

/-- DGATH (R334, R110): one request per stack touched, element order kept in each; a request has one KEY and KIND, those of its first element's page (log
entry 127). -/
def dgathBody (x : Long) (len n : Nat) : Body' := fun s => do
  let q := askDram x.a.toNat 0 false
  let key ← s.localList (s.g x.b.toNat).toNat 8 (8 * n)
  let offs := (List.range n).map (fun i => signedOf 64 (ofLe (s.bytes (key + 8 * i) 8)))
  let c := s.c x.a.toNat
  if c.tag ∧ c.otype = 0 ∧ c.space ≠ 3 ∧ !(c.space = 5 ∧ s.level = .graph) then throw (q.fault .capperm 0)
  let addrs ← s.checkElements q c len offs false
  let r ← s.target x.sub.toNat x.d.toNat x.c.toNat len (len * n)
  match ← s.gatherParts q len (addrs.zip offs) with
  | .stop st => throw st
  | .miss va => return s.askWalk x.bytes q va
  | .parts ps =>
    let tagged := ps.zipIdx
    let actors := (ps.map (fun p => dramStack p.phys)).eraseDups
    s.requestRoom (x.order s) r actors.length
    let t := actors.foldl (fun (acc : List Nat × State) st =>
      match tagged.filter (fun e => dramStack e.1.phys == st) with
      | [] => acc
      | (p, i) :: more =>
        let g := ((p, i) :: more).map (fun e => (e.2, e.1.phys))
        let va := ((p, i) :: more).map (fun e => (e.1.addr, e.1.psize))
        (acc.1 ++ acc.2.requestToken (x.order s) p, acc.2.request (x.order s) { p with size := len } 2 .load r 0 [] g va .none)) ([], s.touch ps)
    return (t.2.leaveTokens (x.order s) t.1).noteRead key (8 * n)

/-- A part that stands for an actor: a request without a page. -/
def actorPart (place n : Nat) : Part :=
  { owner := .dram place, space := 3, addr := place, phys := place, place := 0, size := n, pkind := 1, key := 0, tags := false, spliced := false }

/-- FLUSH (R334): its reply satisfies its EMIT; without one it is a NOP. -/
def flushBody (x : Long) (stack : Nat) : Body' := fun s => do
  if x.emit = 0 then return s
  s.requestRoom (x.order s) Reply.unit 1
  return (s.request (x.order s) (actorPart (stack * 2 ^ 10) 0) 9 .load Reply.unit 0 [] [] [] .none).leaveTokens (x.order s) [s.nextId]

/-- ROWOPEN (R335, R116): R and W, translated as a store, over the row it opens (log entry 32). -/
def rowopenBody (x : Long) : Body' := fun s => do
  let q := askDram x.a.toNat 6 true
  let off := x.indexB s
  let c := s.c x.a.toNat
  let a ← s.checkGlobal q c off 1
  if a % 1024 ≠ 0 then throw (q.fault .align off)
  s.withRow x.bytes q x.a.toNat off 1024 (fun p s => do
    s.requestRoom (x.order s) Reply.unit 1
    return (s.request (x.order s) p 3 .load Reply.unit 0 [] [] [] (.result x.d.toNat)).leaveTokens (x.order s) (s.requestToken (x.order s) p))

/-- The handle in bits 15:0 of ga (R335). -/
def handleOf (v : Word) : Except Stop Nat := if fld v 63 16 ≠ 0 then .error (.illegal 6) else .ok (fld v 15 0)
/-- An offset and length inside the row (R335). -/
def inRow (off len : Nat) : Except Stop Unit := if 1024 < off + len then .error (plainFault .capbound off) else .ok ()

/-- A request through a line handle: no translation is made. `use` takes the vector it sends or the place its reply lands in. -/
def rowRequest (x : Long) (op : Nat) (kind : AccKind) (off : State → Nat) (len : Nat) (r : State → Except Stop Reply)
    (use : State → Except Stop (List Byte × Landing × State)) : Body' := fun s => do
  let h ← handleOf (s.g x.a.toNat)
  inRow (off s) len
  let rep ← r s
  s.requestRoom (x.order s) rep 1
  let (data, l, s) ← use s
  let p := { actorPart (handlePlace h) len with place := off s, addr := off s }
  return (s.request (x.order s) p op kind rep h data [] [] l).leaveTokens (x.order s) [s.nextId]

def plainUse (l : Landing) (s : State) : Except Stop (List Byte × Landing × State) := .ok ([], l, s)

def toUnit : State → Except Stop Reply := fun _ => .ok Reply.unit
def offsetB (x : Long) (s : State) : Nat := (s.g x.b.toNat).toNat

def execDrd (x : Long) (s : State) : Out := issueM Shape.drd x (drdBody x (x.hi.toNat % 1024 + 1)) s
def execDwr (x : Long) (s : State) : Out := issueM Shape.dwr x (dwrBody x (x.hi.toNat % 64 + 1)) s
def execDgath (x : Long) (s : State) : Out := issueM Shape.dgath x (dgathBody x (x.hi.toNat % 128 + 1) (x.hi.toNat / 128 % 8 + 1)) s
def execFlush (x : Long) (s : State) : Out := issueM Shape.flush x (flushBody x (x.hi.toNat % 32)) s
def execRowopen (x : Long) (s : State) : Out := issueM Shape.rowopen x (rowopenBody x) s
def execRowhold (x : Long) (s : State) : Out := issueM Shape.rowhold x
  (rowRequest x 4 .load (fun _ => 0) 0 toUnit (plainUse (.result x.d.toNat))) s
def execRowrel (x : Long) (s : State) : Out := issueM Shape.rowrel x
  (rowRequest x 5 .store (fun _ => 0) 0 toUnit (plainUse .none)) s
def execRowrd (x : Long) (s : State) : Out :=
  let len := x.hi.toNat % 1024 + 1
  issueM Shape.rowrd x (rowRequest x 6 .load (offsetB x) len (fun s => s.target x.sub.toNat x.d.toNat x.c.toNat len len) (plainUse .none)) s
def execRowrdv (x : Long) (s : State) : Out := issueM Shape.rowrdv x (fun s => do
  unlessWait (s.vland x.d.toNat none 0 64 0)
  rowRequest x 6 .load (offsetB x) 64 toUnit
    (fun s => (s.vland x.d.toNat none (s.vold x.d.toNat) 64 (BitVec.allOnes 64)).map (fun r => ([], r.1, r.2))) s) s
def execRowwr (x : Long) (s : State) : Out :=
  let len := x.hi.toNat % 64 + 1
  issueM Shape.rowwr x (fun s => do
    unlessWait (s.popAll [(x.c.toNat, none)])
    rowRequest x 7 .store (offsetB x) len toUnit (fun s => do
      let t ← s.popAll [(x.c.toNat, none)]
      return ((leBytes 64 (t.vin x.c.toNat).toNat).take len, .none, t)) s) s
def execRowstat (x : Long) (s : State) : Out := issueM Shape.rowstat x
  (rowRequest x 8 .load (fun _ => 0) 0 toUnit (plainUse (.result x.d.toNat))) s

end Sys2Proof.Machine
end

