-- ==== Sys2Proof/Machine/DramEvents.lean ====
section
/-! DEFINITION. The steps of the DRAM actors: requests and their replies (04 R109 to R118), direct writes (R111, R424), expired lines, refreshes
and channel moves (R120, R121, R125). -/
namespace Sys2Proof.Machine
open Sys2Proof

/-- The limits of R110. -/
def Access.sound (a : Access) (pa : Nat) : Bool :=
  let oneRow (p : Nat) (n most : Nat) : Bool := decide (1 ≤ n ∧ n ≤ most ∧ p % 1024 + n ≤ 1024)
  (a.rmode != 0 || decide (a.rhandle < 20)) &&
  match a.op with
  | 0 => oneRow pa a.size 1024
  | 1 => oneRow pa a.size 64
  | 2 => decide (1 ≤ a.gather.length ∧ a.gather.length ≤ 8) &&
      a.gather.all (fun e => oneRow e.2 a.size 128 && dramStack e.2 == dramStack pa)
  | 3 => pa % 1024 == 0
  | 6 => oneRow a.addr a.size 1024
  | 7 => oneRow a.addr a.size 64
  | 4 | 5 | 8 | 9 | 0xA => true
  | _ => false
/-- The request code by which the actor acts; a broken limit counts as a reserved code. -/
def Access.request (a : Access) (pa : Nat) : Nat := if a.sound pa then a.op else 0xF

/-- Whether an earlier request of the core to the actor goes first (R113, R154): one that is held, one of the same channel, and
for FLUSH every one. -/
def State.dramBehind (s : State) (id : Nat) (a : Access) (pa : Nat) : Bool :=
  (s.flight.takeWhile (fun i => i.id != id)).any (fun i => match i.body with
    | .access b => match b.owner with
      | .dram q => b.core == a.core && (b.stage == .held || b.stage == .sent) && dramStack q == dramStack pa &&
          (!s.gone b.deps || a.op == 9 || (b.channels q).any (a.channels pa).contains)
      | _ => false
    | _ => false)

/-- The tags a read reports (R111): the granules, whole or in part, of a read of at most 64 bytes from a 16-byte boundary. -/
def State.readTags (s : State) (pa n : Nat) : Nat :=
  if pa % 16 ≠ 0 ∨ 64 < n then 0
  else ((List.range ((n + 15) / 16)).map (fun i => if s.tags.contains (pa / 16 + i) then 2 ^ i else 0)).sum
/-- The first byte a request reads. -/
def State.readFrom (s : State) (a : Access) (pa : Nat) : Nat :=
  if a.op = 6 then match (s.getActor (a.handle / 2 ^ 11 % 32)).findSlot (a.handle / 2 ^ 6 % 32) (a.handle % 64) with
    | some w => slotRow w + a.addr
    | none => 1
  else pa
/-- The reply of RMODE 00 (R111): the descriptor, then the data. -/
def State.queueReply (s : State) (id : Nat) (a : Access) (pa : Nat) (r : Answered) : List Byte :=
  let tags := if r.status = 0 ∧ (a.op = 0 ∨ a.op = 6) then s.readTags (s.readFrom a pa) a.size else 0
  leBytes 8 (id % 2 ^ 16 * 2 ^ 48 + r.status % 256 * 2 ^ 40 + a.op % 16 * 2 ^ 36 + r.data.length % 2 ^ 11 * 2 ^ 25 + tags) ++
    leBytes 8 r.result.toNat ++ r.data

/-- A request is answered by its RMODE (R111, R112); a nonzero status other than a refused row request is its owner's fault. -/
def State.answerRequest (s : State) (id : Nat) (a : Access) (pa : Nat) (r : Answered) : State :=
  let region := psnRegion a.core
  let stack := dramStack pa
  let f := a.statusFault id r.status r.result
  if a.rmode = 0 then
    s.setItem id (.message { message (actorPsn stack) region (s.fullName region (0x3FFC0 + stack)) a.name a.rhandle (s.queueReply id a pa r) with
      reply := true, chans := (a.channels pa).map (fun c => stack * 32 + c) })
  else if r.status = 0 ∧ a.rmode ≠ 3 then s.setItem id (.directWrite { a with stage := .performed, reply := r.data })
  else if r.status = 0 ∨ r.status = 3 then
    s.setItem id (.access { a with stage := .performed, tagv := r.tag, reply := match a.landing with
      | .result _ => leBytes 8 r.result.toNat
      | _ => r.data })
  else s.setItem id (.access { a with stage := .refused, fault := some { f with answer := if a.engine then .nothing else .item id } })
/-- The actor performs a request at its turn on its channel (R113). -/
def dramRequest (op id : Nat) (s : State) : Out := accessEvent id s (fun a =>
  match a.owner with
  | .dram pa =>
    let r := if a.request pa = 0xF then (Answered.bad 5, s) else s.dramAct a pa
    event ((a.stage == .held || a.stage == .sent) && s.gone a.deps && a.request pa == op && !s.dramBehind id a pa) s
      (r.2.answerRequest id a pa r.1)
  | _ => .next s)

def execDrdRequest (id : Nat) (s : State) : Out := dramRequest 0 id s
def execDwrRequest (id : Nat) (s : State) : Out := dramRequest 1 id s
def execDgathRequest (id : Nat) (s : State) : Out := dramRequest 2 id s
def execRowopenRequest (id : Nat) (s : State) : Out := dramRequest 3 id s
def execRowholdRequest (id : Nat) (s : State) : Out := dramRequest 4 id s
def execRowrelRequest (id : Nat) (s : State) : Out := dramRequest 5 id s
def execRowrdRequest (id : Nat) (s : State) : Out := dramRequest 6 id s
def execRowwrRequest (id : Nat) (s : State) : Out := dramRequest 7 id s
def execRowstatRequest (id : Nat) (s : State) : Out := dramRequest 8 id s
def execFlushRequest (id : Nat) (s : State) : Out := dramRequest 9 id s
def execAtomicRequest (id : Nat) (s : State) : Out := dramRequest 0xA id s
def execReservedOpRequest (id : Nat) (s : State) : Out := dramRequest 0xF id s

/-! Direct writes (R111). -/

/-- The extents of a direct write: element i of a gather at DEST + i × LEN. -/
def Access.directExtents (a : Access) : List (Nat × List Byte) :=
  if a.op = 2 then a.gather.zipIdx.map (fun e => (a.dest + e.1.1 * a.size, slice a.reply (e.2 * a.size) a.size)) else [(a.dest, a.reply)]
/-- The requester's core, where the write follows a moved actor (R33). -/
def State.requester (s : State) (a : Access) : Option Psn :=
  match s.holder (psnRegion a.core) a.name with
  | some p => some p
  | none => (s.tombFor (psnRegion a.core) a.name).map (·.target)
/-- A write into LOCAL, then the counter. -/
def State.directLocal (s : State) (a : Access) (p : Psn) : State :=
  (a.directExtents.foldl (fun u e => u.poke (localKey p e.1) e.2) s).modCore p (·.addQ a.ctr a.reply.length)
/-- A snuffed core bounces the write: counted and reported by the core, and by the actor as ECCFATAL (R424). -/
def State.bounceDirect (s : State) (a : Access) (p : Psn) : State :=
  let region := psnRegion p
  let src := actorPsn (dramStack a.phys)
  let d := s.draw
  let f := a.statusFault 0 1 0
  let t := d.2.coreNotice p .bounce (BitVec.ofNat 256 ((Config.directWriteHeader d.1).toNat + 2 * 2 ^ 64 + p * 2 ^ 72 + 2 ^ 96))
  t.launchItem (.message (message src region (s.fullName region (0x3FFC0 + dramStack a.phys)) (s.serviceName region) 30
    (faultMessage .eccfatal false false false a.ctx 0 (s.actorOn p) s.tsc.toNat 0 src 0 (setFld f.detail 71 64 0))))
/-- A write into STORE through the map of now, all of it or none (R111). -/
def State.directStore (s : State) (a : Access) (ps : List (Nat × List Byte)) : Owned :=
  match ps with
  | [] => .done [] false s
  | (d, bs) :: rest =>
    match (s.getRegion (psnRegion a.core)).storeAt (d / 2 ^ 19) with
    | none => .refused .capbound
    | some t => match s.tileAct { a with kind := .store, op := 1, aop := 0, size := bs.length, data := bs, addr := d } t (d % 2 ^ 19) with
      | .done _ _ u => u.directStore a rest
      | o => o
def State.directToStore (s : State) (id : Nat) (a : Access) : Out :=
  let ps := a.directExtents.flatMap (fun e => (pieces e.1 e.2.length (2 ^ 19)).map (fun x => (x.1, slice e.2 x.2.1 x.2.2)))
  match s.directStore a ps with
  | .done _ _ u => match (s.getRegion (psnRegion a.core)).storeAt (a.dest / 2 ^ 19) with
    | some t => .next ((u.dropItem id).modTile t (fun x => { x with sq := put x.sq a.ctr (satAdd (at_ x.sq a.ctr 0) a.reply.length) }))
    | none => .next s
  | .refused code => .next (s.setItem id (.access { a with stage := .refused, fault := some { code, detail := capDetail 8 0xFF a.dest } }))
  | _ => .next s
/-- DIRECT_WRITE_ARRIVAL: by name into LOCAL, through the current map into STORE; a withdrawn tile or a full FIFO is tried again. -/
def execDirectWriteArrival (id : Nat) (s : State) : Out :=
  match s.item id with
  | some (.directWrite a) =>
    if a.rmode = 2 then s.directToStore id a
    else match s.requester a with
    | none => .next (s.dropItem id)
    | some p =>
      let t := (s.touchCluster p).dropItem id
      if (s.getCore p).snuffed then event (s.canNotice p && !s.gated p) s (t.bounceDirect a p)
      else event (!s.gated p) s (t.directLocal a p)
  | _ => .next s

/-! Lines and channels. -/

/-- ROW_LEASE_EXPIRY: the TSC has reached the deadline (bits 51:0). -/
def execRowLeaseExpiry (stack lchan slot : Nat) (s : State) : Out :=
  if 32 ≤ stack ∨ 32 ≤ lchan ∨ 64 ≤ slot then .fault .noSuchUnit
  else match (s.getActor stack).findSlot lchan slot with
  | some w => event (decide ((s.tsc.toNat + 2 ^ 52 - slotDeadline w) % 2 ^ 52 < 2 ^ 51)) s (s.expireSlot stack lchan slot 0)
  | none => .next s

/-- The rows in their buffers after a refresh: the bank's kept rows that are not parked (R121, R127). -/
def Actor.refresh (a : Actor) (chan bank : Nat) : Actor :=
  let kept := (a.slots.filter (fun x => x.1 == chan && slotKeep x.2.2 && !slotParked x.2.2 && dramBank (slotRow x.2.2) == bank)).map (fun x =>
    (chan, bank, dramSub (slotRow x.2.2), dramRow (slotRow x.2.2)))
  { a with rows := a.rows.filter (fun r => !(r.1 == chan && r.2.1 == bank)) ++ kept.eraseDups }
/-- BANK_REFRESH. -/
def execBankRefresh (stack lchan bank : Nat) (s : State) : Out :=
  if 32 ≤ stack ∨ 32 ≤ lchan ∨ 16 ≤ bank then .fault .noSuchUnit else .next (s.modActor stack (·.refresh lchan bank))

/-- CHANNEL_MOVE: the source is marked splice source and the spare splice target; the source becomes leased or retired as the Lamplighter moves it for
a lease or a retirement (R125). -/
def execChannelMove (stack lchan spare : Nat) (retire : Bool) (s : State) : Out :=
  if 32 ≤ stack ∨ 32 ≤ lchan ∨ 34 ≤ spare then .fault .noSuchUnit
  else
    let a := s.getActor stack
    let source := chanUnit stack (at_ a.chanMap lchan 0).toNat
    event (at_ a.chanState (at_ a.chanMap lchan 0).toNat 0 == 2 && at_ a.chanState spare 0 == 3 &&
      (if retire then s.retiringUnit source else s.hasLease source)) s
      (s.modActor stack (·.moveChannel lchan spare retire))

end Sys2Proof.Machine
end

