-- ==== Sys2Proof/Machine/StreamEvents.lean ====
section
/-! DEFINITION. The steps of stream engines (13 R343 to R348) and of the matrix unit (14 R381, R383). -/
namespace Sys2Proof.Machine
open Sys2Proof

/-! Streams. -/

/-- What an engine's access comes to. -/
inductive Reach where
  | done (bytes : List Byte) (s : State)
  | held
  | miss (q : Ask) (va : Nat)
  | bad (f : FaultInfo)

/-- An access of a stream's engine, translated as it is made (R342). -/
def State.reach (s : State) (core : Psn) (st : Stream) (c : Cap) (write : Bool) (a n : Nat) (data : List Byte) : Reach :=
  let q := { (if write then Ask.store 0xFF else Ask.load 0xFF) with answers := false }
  let k := s.getCore core
  let r := if c.space = 3 then s.globalBy (levelOf core) (lookIn k.data st.ctx (levelOf core) q) q (pieces a n 65536)
    else (s.focus core).resolve q c.space a n
  match r with
  | .miss va => .miss q va
  | .stop e => .bad (e.info [])
  | .parts ps =>
    if (ps.map (·.size)).foldl (· + ·) 0 ≠ n then .bad { code := .capbound, detail := capDetail q.code 0xFF a }
    else match s.engineParts core st.serial st.ctx ps (if write then .store else .load) data 0 with
    | .ok r => .done r.1 (if c.space = 3 then r.2.modCore core (fun d => ({ d with dtlb := touchTlb d.dtlb st.ctx a } : Core).letGo st.token) else r.2)
    | .error .held => .held
    | .error (.fault f) => .bad f
/-- A stream's miss asks for its page. -/
def State.askStream (s : State) (core : Psn) (st : Stream) (q : Ask) (va : Nat) : State :=
  s.askPage { core, serial := st.serial, ctx := st.ctx, va, access := q.code, write := q.write, answers := false, tagged := false, unit := st.token }

/-- The OPERAND buffer of an element is full, or it lies in no OPERAND buffer (R343): past the last one the tile refuses it (R83). -/
def State.elementFull (s : State) (core : Psn) (st : Stream) (a : Nat) : Bool :=
  if st.cap.space ≠ 1 then true
  else match s.storeTile (s.getCore core) (a / 2 ^ 19) with
    | none => true
    | some t =>
      let seg := a / 65536 % 8
      let cfg := (s.getTile t).seg seg
      segMode cfg != 1 || decide (segCount cfg ≤ bufferOf cfg a) || (at_ (s.getTile t).full seg 0).getLsbD (bufferOf cfg a)
/-- The predicate bit of an element: its byte read, or 1 without a predicate stream (R345). -/
def State.elementBit (s : State) (core : Psn) (st : Stream) (i : Nat) : Reach :=
  match st.pred with
  | none => .done [1] s
  | some (c, b) => match s.reach core st c false (c.base + (b + i) / 8) 1 [] with
    | .done bs t => .done [if (bs.getD 0 0).getLsbD ((b + i) % 8) then 1 else 0] t
    | r => r
/-- The stream in a slot, as a change of it. -/
def State.putStream (s : State) (core : Psn) (slot : Nat) (st : Stream) : State :=
  s.modCore core (fun c => { c with streams := put c.streams slot (some st) })
/-- One element and its bit are fetched; the last one satisfies SBIND's token. -/
def State.fetchElement (s : State) (core : Psn) (slot : Nat) (st : Stream) : State :=
  let i := st.position + st.fetched.length
  match s.reach core st st.cap false (st.cap.base + st.offset i).toNat st.bytes [] with
  | .held => s
  | .miss q va => s.askStream core st q va
  | .bad f => s.failStream core st.token f
  | .done bs t => match t.elementBit core st i with
    | .held => s
    | .miss q va => s.askStream core st q va
    | .bad f => s.failStream core st.token f
    | .done b u =>
      let u := u.putStream core slot { st with fetched := st.fetched ++ [(ofLe bs, b == [1])] }
      if i + 1 = st.total then u.dropItem st.token else u
/-- STREAM_ELEMENT_FETCH. -/
def execStreamElementFetch (core : Psn) (slot : Nat) (s : State) : Out :=
  let c := s.getCore core
  if 4 ≤ slot then .fault .noSuchUnit
  else match at_ c.streams slot none with
  | some st =>
    let i := st.position + st.fetched.length
    event (st.bound && !st.output && st.fault.isNone && s.gone st.deps && decide (i < st.total) && !c.halting &&
      s.elementFull core st (st.cap.base + st.offset i).toNat) s (s.fetchElement core slot st)
  | none => .next s

/-- The predicate bytes of a push (R345): whole bytes, those bits of its first byte that earlier pushes have given, zeros above the last. -/
def Stream.bitBytes (st : Stream) (b : Nat) (p : Push) : List Byte :=
  let lo := b + p.start
  let word := (if lo % 8 = 0 then 0 else st.head.toNat % 2 ^ (lo % 8)) + p.bits.toNat % 2 ^ p.count * 2 ^ (lo % 8)
  leBytes ((lo % 8 + p.count + 7) / 8) word
/-- A push that has been written leaves the list. -/
def Stream.nextPush (st : Stream) (p : Push) (rest : List Push) : Stream :=
  { st with pushed := if p.written = p.count ∧ p.bitsDone then rest else p :: rest }
/-- One element of the oldest push is written, or after its elements the bytes of its bits; with the stream after it. -/
def State.writePush (s : State) (core : Psn) (st : Stream) (p : Push) (rest : List Push) : Reach × Stream :=
  if p.written < p.count then
    let i := p.start + p.written
    let w := elemBits st.ty
    (s.reach core st st.cap true (st.cap.base + st.offset i).toNat st.bytes (leBytes st.bytes (laneOf w p.data p.written)),
      st.nextPush { p with written := p.written + 1 } rest)
  else match st.pred with
  | none => (.done [] s, st.nextPush { p with bitsDone := true } rest)
  | some (c, b) =>
    let bs := st.bitBytes b p
    let carry : VWord := if (b + p.start + p.count) % 8 = 0 then 0 else (bs.getLastD 0).setWidth 512
    (s.reach core st c true (c.base + (b + p.start) / 8) bs.length bs, { st.nextPush { p with bitsDone := true } rest with head := carry })
/-- The result of a write: the stream's place is `keep`'s. -/
def State.afterPush (s : State) (core : Psn) (st : Stream) (r : Reach × Stream) (keep : State → Stream → State) : Out :=
  match r.1 with
  | .held => .next s
  | .miss q va => .next (s.askStream core st q va)
  | .bad f =>
    let ended := !st.bound && !(s.getCore core).act.any (fun a => a.serial == st.serial)
    event (!ended || (f.code != .gone && s.canNotice core)) s (s.failStream core st.token f)
  | .done _ t => .next (keep t r.2)
/-- The drain of an unbound stream goes on; when its writes are over SUNBIND's token is satisfied (R346). -/
def State.keepDrain (s : State) (core : Psn) (st : Stream) : State :=
  if st.pushed = [] ∧ st.closing.isNone then
    (s.modCore core (fun c => { c with drains := c.drains.filter (·.token != st.token) })).dropItem st.unbind
  else (if st.pushed = [] then s.dropItem st.unbind else s).modCore core (fun c => { c with drains := c.drains.map (fun d => if d.token = st.token then st else d) })
/-- STREAM_PUSH_WRITE: slots 0 to 3 are the bound streams, 4 + i the i-th stream that is unbound with pushes left. A vector is written
once the load that pushes it has brought its bytes and what it waits for is complete. An unbinding that its AFTER held is made first (R346). -/
def execStreamPushWrite (core : Psn) (slot : Nat) (s : State) : Out :=
  let c := s.getCore core
  match (if slot < 4 then at_ c.streams slot none else c.drains[slot - 4]?) with
  | none => .next s
  | some st =>
    if st.closing.any (fun x => s.gone x.2) then .next ((s.freeGenerator st).keepDrain core { st with closing := none })
    else match st.pushed with
    | [] => .next s
    | p :: rest =>
      if !st.output ∨ st.fault.isSome ∨ p.missing ≠ 0 ∨ !s.gone p.deps then .next s
      else s.afterPush core st (s.writePush core st p rest) (fun t u => if slot < 4 then t.putStream core slot u else t.keepDrain core u)

/-! The matrix unit. -/

/-- Whether every write of an instruction has been performed. -/
def State.matWritten (s : State) (c : Core) (m : MatOp) : Bool :=
  s.gone m.writes && match m.pushed with
    | none => true
    | some (token, last) => (c.streams.toList.filterMap id ++ c.drains).all (fun st => st.token != token || st.pushed.all (fun p => decide (last ≤ p.start)))
/-- MATRIX_COMPLETION: the oldest instruction whose computing or writing is over; in a gang every core's q48 counts it (R383). -/
def execMatrixCompletion (core : Psn) (s : State) : Out :=
  let c := s.getCore core
  match c.matOps.find? (fun m => m.stage == .computing || (m.stage == .writing && s.matWritten c m)) with
  | none => .next s
  | some m =>
    let t := (s.dropItem m.id).modCore core (fun c => { c with matOps := c.matOps.erase m })
    .next (if m.isLong then t.postGang m.leader else t)

/-- The parcels of an entry's instruction. -/
def MatOp.parcels (m : MatOp) : List Parcel :=
  let row := match m.op with
    | 0x200 => Shape.mzero | 0x201 => Shape.mma | 0x202 => Shape.mmaq | 0x203 => Shape.mmad | 0x208 => Shape.mread
    | 0x209 => Shape.mreadk | _ => Shape.macc
  encodeEnc (.long row m.instr)
/-- An entry performed on the focused core. After its activation has ended it runs under its entry's context; a vector it would write
is dropped. -/
def State.runMatOp (s : State) (m : MatOp) : Except Halt (MatOp × State) :=
  if s.core.act.any (fun a => a.serial == m.serial) then s.matrixRun m
  else if m.op = 0x209 then .ok ({ m with stage := .computing }, s)
  else
    let c := s.core
    (({ s with core := s.freshAct c m.entry 0 0 0 none }).matrixRun m).map (fun (r : MatOp × State) =>
      (r.1, r.2.mapCore (fun d => { c with acc := d.acc, streams := d.streams, dtlb := d.dtlb, caught := d.caught })))
/-- The entry in the list takes what stays of it; a fetch is over, an MREAD's token waits for its writes (R382). -/
def State.startedMatOp (s : State) (m r : MatOp) : State :=
  let t := s.mapCore (fun c => ({ c with matOps := c.matOps.map (fun x => if x == m then r else x) } : Core).letGo m.id)
  if m.op = 0x208 then t else t.dropItem m.id
/-- An entry fails: its activation is told at the boundary, an ended one's graph by message. -/
def State.failMatOp (s : State) (m : MatOp) (f : FaultInfo) : State :=
  let p := s.core.psn
  let s := s.mapCore (·.letGo m.id)
  if s.core.act.any (fun a => a.serial == m.serial) then s.stallMatrix p m.id f
  else ((s.dropItem m.id).mapCore (fun c => { c with matOps := c.matOps.erase m })).coreNotice p f.code f.detail
/-- SCOREBOARD_ENTRY_START: no earlier entry is in the way. -/
def execScoreboardEntryStart (core : Psn) (slot : Nat) (s : State) : Out :=
  let u := s.focus core
  let c := u.core
  match c.matOps[slot]? with
  | none => .next s
  | some m =>
    let free := (c.matOps.take slot).all (fun e => !((e.busy || e.stage == .stalled) && e.blocks m))
    if m.stage ≠ .queued ∨ !s.gone m.deps ∨ !free ∨ c.halting then .next s
    else match u.runMatOp m with
    | .ok r => .next ((r.2.startedMatOp m r.1).focus s.core.psn)
    | .error (.miss q va) => .next (s.askPage { core, serial := m.serial, ctx := s.ctxOf core, va, access := q.code, write := q.write,
                                                answers := false, tagged := false, unit := m.id })
    | .error (.stop .wait) => .next s
    | .error (.stop e) => event (s.canNotice core) s ((u.failMatOp m (e.info m.parcels)).focus s.core.psn)

end Sys2Proof.Machine
end

