-- ==== Sys2Proof/Machine/CredEvents.lean ====
section
/-! DEFINITION. The steps of collective reductions (12 R321 to R323, 10 R263) and of unit queries (17 R439). -/
namespace Sys2Proof.Machine
open Sys2Proof

/-! Reductions. -/

/-- A leaf's contribution with the item that it keeps in flight until the root answers. -/
structure Share where
  id : Nat
  core : Psn
  ty : Nat
  op : Nat
  rm : Nat
  sat : Bool
  value : Word
  words : List Parcel

def State.share (s : State) (id : Nat) : Option Share :=
  match s.item id with
  | some (.contribution _ _ p _ op ty rm sat v ws) => some { id, core := p, ty, op, rm, sat, value := v, words := ws }
  | _ => none
def Share.agrees (a b : Share) : Bool := a.ty == b.ty && a.op == b.op && a.rm == b.rm && a.sat == b.sat
/-- The result of a round (R322, R263): the exact combination, narrowed once and extended by its type. -/
def credValue (a : Share) (vs : List Word) : Word :=
  let t := BitVec.ofNat 4 a.ty
  extend t (reduceLanes t (BitVec.ofNat 2 a.rm) a.sat a.op (vs.map (fun v => v.toNat % 2 ^ elemBits t)))
/-- The register that waits for an item. -/
def Core.waitingG (c : Core) (id : Nat) : Nat :=
  match c.pend.find? (·.2 == id) with
  | some (.g n, _) => n
  | _ => 0
/-- The root has every contribution: each leaf's becomes its result; a round whose leaves disagree has none. -/
def State.closeRound (s : State) (shares : List Share) : State :=
  match shares with
  | [] => s
  | a :: _ =>
    let bad := !shares.all a.agrees
    let v := if bad then 0 else credValue a (shares.map (·.value))
    shares.foldl (fun u x => u.setItem x.id (.credResult x.core ((s.getCore x.core).waitingG x.id) v (if bad then some x.words else none))) s
/-- A contribution combined into its round of a tree. -/
def State.joinRound (s : State) (region : Nat) (t : Tree) (p : Psn) (k id : Nat) (v : Word) : State :=
  let mine := ((t.rounds.find? (fun (r : Nat × List (Psn × Word × Nat)) => r.1 == k)).map (·.2)).getD []
  let all := mine ++ [(p, v, id)]
  let put_ (rounds : List (Nat × List (Psn × Word × Nat))) : State := s.modRegion region (fun r => { r with
    trees := r.trees.map (fun x => if x.number = t.number ∧ x.ctx = t.ctx then { x with rounds } else x) })
  if t.leaves.length ≤ all.length then
    (put_ (t.rounds.filter (fun r => r.1 != k))).closeRound (all.filterMap (fun e => s.share e.2.2))
  else put_ (upsert t.rounds (fun r => r.1 == k) (k, all))
/-- CRED_CONTRIBUTION: while its graph runs, each leaf's contribution is combined once. -/
def execCredContribution (id : Nat) (s : State) : Out :=
  match s.item id with
  | some (.contribution region n p k _ _ _ _ v _) =>
    match (s.getRegion region).trees.find? (fun t => t.number == n && t.ctx == s.ctxOf p) with
    | some t =>
      let joined := t.rounds.any (fun r => r.2.any (fun e => e.2.2 == id))
      event (!joined && (s.graphOn p).any (fun g => g.stat == 1)) s (s.joinRound region t p k id v)
    | none => .next s
  | _ => .next s

/-- The fault of a CRED whose round has no result: its parcels and step 7 (R415). -/
def credRefused (words : List Parcel) : FaultInfo := { code := .illegal, detail := parcelDetail words 7 }
/-- A result reaches its leaf: the register, unless its activation has ended; a refusal is a fault of that activation at its boundary. -/
def State.takeResult (s : State) (id : Nat) (p : Psn) (reg : Nat) (v : Word) (bad : Option (List Parcel)) : State :=
  let c := s.getCore p
  let waits := c.awaits (.g reg) id
  let s := s.dropItem id
  match bad with
  | some ws =>
    if waits then s.putCore { (c.settled (.g reg) id) with act := c.act.map (fun a => { a with boundary := a.boundary ++ [credRefused ws] }) }
    else s.coreNotice p .illegal (credRefused ws).detail
  | none => if waits then s.putCore ((c.setG reg v).settled (.g reg) id) else s
/-- CRED_RESULT. -/
def execCredResult (id : Nat) (s : State) : Out :=
  match s.item id with
  | some (.credResult p reg v bad) => event (bad.isNone || s.canNotice p) s (s.takeResult id p reg v bad)
  | _ => .next s

/-! Queries (R439). -/

/-- The physical unit that a request word names now. -/
def State.queried (s : State) (w : Word) : Option Psn :=
  let region := fld w 22 16
  if 80 ≤ region then none
  else
    let r := s.getRegion region
    match fld w 63 60 with
    | 0 => r.coreAt (fld w 7 0)
    | 1 => r.storeAt (fld w 15 0)
    | _ => if fld w 15 0 < 44 then r.bankAt (fld w 15 0) else none
/-- STATE of a unit. -/
def State.queryState (s : State) (u : UnitWord) : Nat :=
  let on (k : Nat) : Bool := s.regions.any (fun r => r.leases.any (fun l => leaseUnit l == u && fld l.w0 62 60 == k))
  if s.retirePending u then 3 else if on 3 then 2 else if on 2 then 1 else 0
/-- The cores that host actors of graphs that are resident. -/
def State.actorCores (s : State) : List Psn := (s.graphs.filter (fun g => g.stat != 0 && g.stat != 3)).flatMap (fun g => g.actors.map (fun a => a.2.1))
/-- ROLE of a unit: the most particular that applies. -/
def State.queryRole (s : State) (kind : Nat) (p : Psn) : Nat :=
  match kind with
  | 0 => if s.servesAny p then 3 else if (s.getCore p).isMember then 2 else if s.actorCores.contains p then 1 else 0
  | 1 =>
    if (List.range 16).any (s.getTile p).stageValid then 2
    else if s.actorCores.any (fun c => s.homeTile (s.getCore c) == some p) then 1 else 0
  | _ => 0
/-- Mesh hops from the asking core. -/
def queryDistance (asker p : Psn) : Nat :=
  if psnRegion asker ≠ psnRegion p ∨ psnClass asker = 3 then 0xFF
  else if psnClass asker = 0 then distance asker p else (Config.serviceDistance asker p).toNat
/-- The answer word; an absent unit's is zero. -/
def State.queryAnswer (s : State) (asker : Psn) (w : Word) : Word :=
  match s.queried w with
  | none => 0
  | some p =>
    let kind := fld w 63 60
    let u := if kind = 0 then coreUnit p else tileUnit p
    let clk := if kind = 0 then (s.getCore p).tileClk else (s.getTile p).tileClk
    BitVec.ofNat 64 (2 ^ 63 + s.queryState u * 2 ^ 60 + s.queryRole kind p * 2 ^ 56 + queryDistance asker p * 2 ^ 48 +
      s.halveScores.score u * 2 ^ 32 + fld clk 53 46 * 2 ^ 24 + p)
/-- QUERY_REQUEST: the answer is sampled as the Lantern replies. -/
def execQueryRequest (id : Nat) (s : State) : Out :=
  match s.item id with
  | some (.query p reg w) => .next (s.setItem id (.answer p reg (s.queryAnswer p w)))
  | _ => .next s
/-- QUERY_ANSWER: the register takes the word while it waits for it. -/
def execQueryAnswer (id : Nat) (s : State) : Out :=
  match s.item id with
  | some (.answer p reg w) =>
    .next ((s.dropItem id).modCore p (fun c => if c.awaits (.g reg) id then (c.setG reg w).settled (.g reg) id else c))
  | _ => .next s

end Sys2Proof.Machine
end

