-- ==== Sys2Proof/Machine/Float.lean ====
section
/-! DEFINITION. Float instructions (11 R269, R270): each result the exact operation rounded once. -/
namespace Sys2Proof.Machine
open Sys2Proof

def fmaOf (t : TyCode) (rm : BitVec 2) (_ : Bool) (a b c : Nat) : Nat := elemFma t rm false false a b c
def fmsOf (t : TyCode) (rm : BitVec 2) (_ : Bool) (a b c : Nat) : Nat := elemFma t rm false true a b c
def fdivOf (t : TyCode) (rm : BitVec 2) (_ : Bool) (a b : Nat) : Nat := elemDiv t rm a b
def fsqrtOf (t : TyCode) (rm : BitVec 2) (_ : Bool) (a : Nat) : Nat := elemSqrt t rm a
def fminOf (t : TyCode) (_ : BitVec 2) (_ : Bool) (a b : Nat) : Nat := elemMin t false a b
def fmaxOf (t : TyCode) (_ : BitVec 2) (_ : Bool) (a b : Nat) : Nat := elemMin t true a b
def fabsOf (t : TyCode) (_ : BitVec 2) (_ : Bool) (a : Nat) : Nat := elemAbs t false a
def fnegOf (t : TyCode) (_ : BitVec 2) (_ : Bool) (a : Nat) : Nat := elemNeg t false a
/-- a with the sign bit of b. -/
def fcpysOf (t : TyCode) (_ : BitVec 2) (_ : Bool) (a b : Nat) : Nat :=
  low t a % 2 ^ (elemBits t - 1) + low t b / 2 ^ (elemBits t - 1) * 2 ^ (elemBits t - 1)
def fclassOf (t : TyCode) (a : Nat) : Nat := 2 ^ classBit t (low t a)
def frndOf (t : TyCode) (rm : BitVec 2) (_ : Bool) (a : Nat) : Nat := roundIntegral t rm (low t a)

def execFadd (x : Long) (s : State) : Out := issueL Shape.fadd x (x.run2 elemAdd) s
def execFaddL32A (x : ShortA) (s : State) : Out := issueA Shape.faddL32A x (x.run2 elemAdd) s
def execFsub (x : Long) (s : State) : Out := issueL Shape.fsub x (x.run2 elemSub) s
def execFsubL32A (x : ShortA) (s : State) : Out := issueA Shape.fsubL32A x (x.run2 elemSub) s
def execFmul (x : Long) (s : State) : Out := issueL Shape.fmul x (x.run2 elemMul) s
def execFmulL32A (x : ShortA) (s : State) : Out := issueA Shape.fmulL32A x (x.run2 elemMul) s
def execFfma (x : Long) (s : State) : Out := issueL Shape.ffma x (x.run3 fmaOf) s
def execFfms (x : Long) (s : State) : Out := issueL Shape.ffms x (x.run3 fmsOf) s
def execFdiv (x : Long) (s : State) : Out := issueL Shape.fdiv x (x.run2 fdivOf) s
def execFdivL32A (x : ShortA) (s : State) : Out := issueA Shape.fdivL32A x (x.run2 fdivOf) s
def execFsqrt (x : Long) (s : State) : Out := issueL Shape.fsqrt x (x.run1 fsqrtOf) s
def execFsqrtL32A (x : ShortA) (s : State) : Out := issueA Shape.fsqrtL32A x (x.run1 fsqrtOf) s
def execFmin (x : Long) (s : State) : Out := issueL Shape.fmin x (x.run2 fminOf) s
def execFminL32A (x : ShortA) (s : State) : Out := issueA Shape.fminL32A x (x.run2 fminOf) s
def execFmax (x : Long) (s : State) : Out := issueL Shape.fmax x (x.run2 fmaxOf) s
def execFmaxL32A (x : ShortA) (s : State) : Out := issueA Shape.fmaxL32A x (x.run2 fmaxOf) s
def execFabs (x : Long) (s : State) : Out := issueL Shape.fabs x (x.run1 fabsOf) s
def execFabsL32A (x : ShortA) (s : State) : Out := issueA Shape.fabsL32A x (x.run1 fabsOf) s
def execFneg (x : Long) (s : State) : Out := issueL Shape.fneg x (x.run1 fnegOf) s
def execFnegL32A (x : ShortA) (s : State) : Out := issueA Shape.fnegL32A x (x.run1 fnegOf) s
def execFcpys (x : Long) (s : State) : Out := issueL Shape.fcpys x (x.run2 fcpysOf) s
def execFcpysL32A (x : ShortA) (s : State) : Out := issueA Shape.fcpysL32A x (x.run2 fcpysOf) s
def execFcmp (x : Long) (s : State) : Out := issueL Shape.fcmp x x.compare s
def execFclass (x : Long) (s : State) : Out := issueL Shape.fclass x (x.count1 fclassOf) s
def execFclassL32A (x : ShortA) (s : State) : Out := issueA Shape.fclassL32A x (x.count1 fclassOf) s
def execFcvt (x : Long) (s : State) : Out := issueL Shape.fcvt x (x.run1 (fun t rm _ a => elemCvt t (x.c.extractLsb' 0 4) rm false a)) s
def execFcvti (x : Long) (s : State) : Out := issueL Shape.fcvti x (x.run1 (fun t rm _ a => elemCvt t (x.c.extractLsb' 0 4) rm false a)) s
def execIcvtf (x : Long) (s : State) : Out := issueL Shape.icvtf x (x.run1 (fun t rm _ a => elemCvt t (x.c.extractLsb' 0 4) rm false a)) s
def execFrnd (x : Long) (s : State) : Out := issueL Shape.frnd x (x.run1 frndOf) s
def execFrndL32A (x : ShortA) (s : State) : Out := issueA Shape.frndL32A x (x.run1 frndOf) s

end Sys2Proof.Machine
end

