-- ==== Sys2Proof/Machine/Fetching.lean ====
section
/-! DEFINITION. Fetching (09 R222, R243 step 1; 02 R53, R63, R66): the parcels of the instruction at the pc, through the core's own copy of
c0. -/
namespace Sys2Proof.Machine
open Sys2Proof

/-- A fetch names no capability register: its capability is the core's copy of c0 (R175). -/
def Ask.fetch : Ask := { code := 3, kind := 3, write := false, reg := 0xFF, value := Cap.null, answers := false }

/-- A hit makes its entry of the instruction TLB the most recently used (R62). -/
def State.touchCode (s : State) (ps : List Part) : State :=
  let ctx := (s.core.act.map (·.ctx)).getD 0
  s.mapCore (fun c => { c with itlb := ps.foldl (fun l p => if p.space = 3 then touchTlb l ctx p.addr else l) c.itlb })

/-- One parcel at an offset within c0: its check, its translation, its bytes. -/
def State.fetchParcel (s : State) (a : Act) (pc : Word) : Except Halt (Parcel × State) := do
  let addr ← lifted (s.checkCap Ask.fetch s.core.regs.fetch pc.toInt 4)
  match s.resolve Ask.fetch s.core.regs.fetch.space addr 4 with
  | .stop st => throw (.stop st)
  | .miss va => throw (.miss Ask.fetch va)
  | .parts ps =>
    let r ← (s.touchCode ps).readParts a ps
    return (BitVec.ofNat 32 (ofLe r.1), r.2)

/-- Every parcel of the instruction at the pc (R222); those it does not have are zero. -/
def State.fetchParcels (s : State) (a : Act) : Except Halt (List Parcel × State) := do
  let pc := s.core.regs.pc
  let r0 ← s.fetchParcel a pc
  let n := parcelCount r0.1
  if n = 1 then return ([r0.1], r0.2)
  let r1 ← r0.2.fetchParcel a (pc + 4)
  if n = 2 then return ([r0.1, r1.1], r1.2)
  let r2 ← r1.2.fetchParcel a (pc + 8)
  return ([r0.1, r1.1, r2.1], r2.2)

/-- What a fetch gives: the parcels, a wait for a page or for an earlier request (R154), or the fault of R243 step 1. -/
inductive Fetched where
  | words (ps : List Parcel) (s : State)
  | stay (s : State)
  | fail (f : FaultInfo)
  deriving DecidableEq, Repr

/-- The fetch of the resident activation. -/
def State.fetch (s : State) : Fetched :=
  match s.core.act with
  | none => .stay s
  | some a =>
    match s.fetchParcels a with
    | .ok r => .words r.1 r.2
    | .error (.miss q va) => .stay (s.askWalk 0 q va)
    | .error (.stop .wait) => .stay s.hold
    | .error (.stop (.priv _)) => .fail ((Stop.priv 1).info [])
    | .error (.stop e) => .fail (e.info [])

end Sys2Proof.Machine
end

