-- ==== Sys2Proof/Machine/HostEvents.lean ====
section
/-! DEFINITION. The host-service cores (18 R441 to R448, 06 R171, R172): taking requests, what each does, completions, and the transfer
engines. -/
namespace Sys2Proof.Machine
open Sys2Proof

/-! Requests (R442). -/

abbrev Request := BitVec 512
def rqOp (r : Request) : Nat := fld r 63 56
def rqLen (r : Request) : Nat := fld r 31 0
def rqKey (r : Request) : Nat := fld r 127 116
def rqModule (r : Request) : Nat := fld r 111 64
def rqHost (r : Request) : Nat := fld r 191 128
/-- n bytes of ARG from byte `at0` of the request on. -/
def rqArg (r : Request) (at0 n : Nat) : Nat := r.toNat / 256 ^ at0 % 256 ^ n
/-- The zero fields of every request, and those an OP names. -/
def rqZeros (r : Request) : Bool :=
  fld r 55 48 == 0 && fld r 115 112 == 0 &&
  match rqOp r with
  | 3 => rqLen r == 0 && rqModule r == 0
  | 9 => rqLen r == 0 && rqModule r == 0 && rqHost r == 0
  | _ => true
/-- The step that answers a request: a reserved OP is READ's. -/
def rqStep (r : Request) : Nat := if 1 ≤ rqOp r ∧ rqOp r ≤ 9 then rqOp r else 1

/-- The request in the slot that HEAD names. -/
def State.nextRequest (s : State) (h : HostCore) : Request :=
  BitVec.ofNat 512 (ofLe (s.bytes (companionKey (fld h.rqBase 63 6 * 64 + 64 * (fld h.rqCtl 47 32 % h.slots))) 64))
/-- Whether the core takes a request (R441): the ring holds one, its completion has room, the module runs. In the monitor-only state only ATTEST is
answered (R458). -/
def State.canTake (s : State) (h : HostCore) : Bool :=
  h.request.isNone && fld h.rqCtl 63 48 != fld h.rqCtl 47 32 && decide (4 ≤ fld h.rqCtl 3 0 ∧ fld h.rqCtl 3 0 ≤ 12) &&
    decide ((fld h.cqCtl 63 48 + 2 ^ 16 - fld h.cqCtl 47 32) % 2 ^ 16 < h.slots) && !s.module.lowPower &&
    (s.module.booted || (s.module.monitorOnly && rqOp (s.nextRequest h) == 6))
/-- The core takes its next request. -/
def State.takeRequest (s : State) (n : Nat) : State :=
  let h := s.getHost n
  s.putHost n { h with request := some (s.nextRequest h), rqCtl := setFld h.rqCtl 47 32 (fld h.rqCtl 47 32 + 1), acks := [], copied := 0 }
/-- The step of a kind of request: `start` for one just taken, `go` for one under way. -/
def hostStep (op n : Nat) (start go : Request → State → State) (s : State) : Out :=
  if 4 ≤ n then .fault .noSuchUnit
  else
    let h := s.getHost n
    match h.request with
    | some r => if rqStep r = op then .next (go r s) else .next s
    | none =>
      let r := s.nextRequest h
      if !s.canTake h ∨ rqStep r ≠ op then .next s
      else if rqOp r ≠ op ∨ !rqZeros r then .next ((s.takeRequest n).complete n 5 0)
      else .next (start r (s.takeRequest n))
/-- A request that is over in one step. -/
def hostOnce (op n : Nat) (f : Request → State → State) (s : State) : Out := hostStep op n f (fun _ s => s) s
/-- n bytes at a companion address lie in the window (R442). -/
def State.inWindow (s : State) (host a n : Nat) : Bool := decide (a + n ≤ (s.getHost host).compWin.toNat * 2 ^ 30)

/-! Copies (R443). -/

/-- The status of a READ or WRITE as it is taken. -/
def State.copyStatus (s : State) (n : Nat) (r : Request) : Nat :=
  let off := rqModule r % 2 ^ 46
  let inRange := match rqModule r / 2 ^ 46 with
    | 0 => decide (off + rqLen r ≤ 2 ^ 41)
    | 2 => decide (off + rqLen r ≤ 0x6E000000)
    | _ => false
  if rqLen r = 0 ∨ 2 ^ 20 < rqLen r then 5
  else if !inRange ∨ !s.inWindow n (rqHost r) (rqLen r) then 1
  else if rqKey r ≠ 0 ∧ !s.keyLoaded (rqKey r) then 2 else 0
/-- The part of module memory at a physical address, as a strong agent's access (R157). -/
def State.hostPart (s : State) (pa n key : Nat) : Option Part :=
  let base : Part := { owner := .dram pa, space := 3, addr := pa, phys := pa, place := 0, size := n, pkind := 0, key, tags := false, spliced := false }
  if pa / 2 ^ 46 = 0 then some base else (s.exchPlace (pa % 2 ^ 46)).map (fun t => { base with owner := .tile t.1 t.2 })
/-- One 64-byte piece; none while it waits. A refusal ends the request: its key slot has been cleared, or an error cannot be corrected, for which no status
is stated (log entry 132). -/
def State.copyPiece (s : State) (n : Nat) (r : Request) (write : Bool) : State :=
  let h := s.getHost n
  let pa := rqModule r + h.copied
  let k := min (64 - pa % 64) (rqLen r - h.copied)
  let key := companionKey (rqHost r + h.copied)
  match s.hostPart pa k (rqKey r) with
  | none => s
  | some p =>
    match s.enginePart (hostPsn n) 0 0 p (if write then .store else .load) (if write then s.bytes key k else []) 0 with
    | .error .held => s
    | .error (.fault f) => if f.code = .gone then s else s.complete n (if f.code = .eccfatal then Config.hostErrorStatus.toNat else 2) 0
    | .ok (bs, t) =>
      let u := if write then t else t.poke key bs
      let v := u.putHost n { (u.getHost n) with copied := h.copied + k }
      if rqLen r ≤ h.copied + k then v.complete n 0 0 else v
def startCopy (n : Nat) (r : Request) (s : State) : State :=
  let st := s.copyStatus n r
  if st ≠ 0 then s.complete n st 0 else s
def execRead (host : Nat) (s : State) : Out := hostStep 1 host (startCopy host) (fun r s => s.copyPiece host r false) s
def execWrite (host : Nat) (s : State) : Out := hostStep 2 host (startCopy host) (fun r s => s.copyPiece host r true) s

/-! Barriers (R444). -/

/-- BARRIER: forwarded to the three other cores; complete when each has acknowledged. -/
def execBarrier (host : Nat) (s : State) : Out := hostStep 3 host
  (fun _ s => ((List.range 4).filter (· != host)).foldl (fun s t => s.launchItem (.barrierForward t host [])) s)
  (fun _ s => if (s.getHost host).acks.length = 3 then s.complete host 0 0 else s) s
/-- The barrier reaches its target: the requests taken before are those below HEAD. -/
def execBarrierForward (id : Nat) (s : State) : Out :=
  match s.item id with
  | some (.barrierForward t origin before) =>
    let h := s.getHost t
    let head := fld h.rqCtl 47 32
    let busy := h.request.any (fun r => rqOp r != 3)
    let arrived := before.headD head
    if busy ∧ head = arrived then .next (s.setItem id (.barrierForward t origin [arrived]))
    else .next ((s.dropItem id).putHost origin { (s.getHost origin) with acks := (s.getHost origin).acks ++ [t] })
  | _ => .next s

/-! Graphs (R395, R403, R419). -/

/-- A launch under way is answered when its graph is armed; one whose graph has been killed has no stated status. -/
def State.awaitArming (s : State) (n : Nat) : State :=
  match s.graphs.find? (fun g => g.launcher == some n) with
  | some g => if g.armed then (s.putGraph { g with launcher := none }).complete n 0 (g.ctx * 2 ^ 8) else s
  | none => s.complete n 0 Config.killedLaunch.toNat
/-- LAUNCH: the header lies at HADDR. -/
def execLaunch (host : Nat) (s : State) : Out := hostStep 4 host
  (fun r s =>
    if !s.inWindow host (rqHost r) 128 then s.complete host 1 0
    else
      let (st, ctx, t) := s.launch host (BitVec.ofNat 1024 (ofLe (s.bytes (companionKey (rqHost r)) 128)))
      if st = 0 then t else t.complete host 0 (st + ctx * 2 ^ 8))
  (fun _ s => s.awaitArming host) s
/-- The Lantern that a GRAPH_CTL value goes to: one of the named context's graph, of the core's own quadrant where there is one. -/
def State.graphTarget (s : State) (n ctx : Nat) : Nat :=
  let rs := (s.graphs.filter (fun g => g.stat != 0 && g.ctx == ctx)).flatMap Graph.regionList
  ((rs.find? (fun r => quadrantOf r == n)).orElse (fun _ => rs.head?)).getD (((List.range 80).find? (fun r => quadrantOf r == n)).getD 0)
/-- GRAPH. -/
def execGraph (host : Nat) (s : State) : Out := hostOnce 5 host (fun r s =>
  let v := BitVec.ofNat 64 (rqArg r 24 8)
  let region := s.graphTarget host (fld v 36 32)
  if bit (s.getRegion region).graphStat 63 then s.complete host 4 0 else (s.graphCtl region v).complete host 0 0) s
/-- CANCEL: a pending graph is withdrawn. -/
def execCancel (host : Nat) (s : State) : Out := hostOnce 9 host (fun r s =>
  match s.graphById (rqArg r 24 2) with
  | some g => if g.stat = 0 then ({ s with graphs := s.graphs.filter (·.id != g.id) } : State).complete host 0 0 else s.complete host 5 0
  | none => s.complete host 5 0) s

/-! The monitor (R447, R448). -/

/-- The quote over a nonce. -/
def State.quote (s : State) (nonce : Nat) : List Byte :=
  leBytes 4 s.module.id.toNat ++ leBytes 32 nonce ++ slice (Config.shake256 Config.monitorFirmware) 0 32 ++
    slice (Config.shake256 (Config.regionFirmware 0)) 0 32 ++ leBytes 8 s.tsc.toNat ++ s.module.grades.toList.flatMap (fun g => leBytes 4 g.toNat) ++
    leBytes 4 0
/-- ATTEST. -/
def execAttest (host : Nat) (s : State) : Out := hostOnce 6 host (fun r s =>
  if !s.inWindow host (rqHost r) 2948 then s.complete host 1 0
  else if s.module.xmssSpent then s.complete host 3 0
  else
    let q := s.quote (rqArg r 24 32)
    let g := s.sign q
    (g.2.poke (companionKey (rqHost r)) (q ++ slice g.1 0 2820)).complete host 0 2948) s

/-- One step of AES key unwrapping (RFC 3394): t counts down from 6n. -/
def unwrapStep (kek : List Nat) (t : Nat) (x : List Byte × List (List Byte)) : List Byte × List (List Byte) :=
  let i := (t - 1) % x.2.length
  let a := leBytes 8 (ofLe x.1.reverse ^^^ t)
  let b := Aes.ofNats (Aes.decrypt kek (Aes.toNats (a.reverse ++ x.2.getD i [])))
  (b.take 8, x.2.set i (b.drop 8))
def unwrapFrom (kek : List Nat) (t : Nat) (x : List Byte × List (List Byte)) : List Byte × List (List Byte) :=
  match t with
  | 0 => x
  | k + 1 => unwrapFrom kek k (unwrapStep kek (k + 1) x)
/-- The key pair that 72 wrapped bytes hold; none when the integrity value is wrong. -/
def unwrapKey (kek : BitVec 256) (w : List Byte) : Option (BitVec 512) :=
  let r := unwrapFrom (Aes.toNats (leBytes 32 kek.toNat)) 48 (slice w 0 8, (List.range 8).map (fun i => slice w (8 * i + 8) 8))
  if r.1 = List.replicate 8 0xA6 then some (BitVec.ofNat 512 (ofLe r.2.flatten)) else none
/-- Whether a context's GKEY names a slot. -/
def State.keyUsed (s : State) (slot : Nat) : Bool := s.regions.any (fun r => r.graphRoot.toList.any (fun (w : Word) => fld w 63 52 == slot))
/-- KEYLOAD. -/
def execKeyload (host : Nat) (s : State) : Out := hostOnce 7 host (fun r s =>
  let slot := rqArg r 24 2
  if slot = 0 ∨ 4095 < slot then s.complete host 5 0
  else if !s.inWindow host (rqHost r) 72 then s.complete host 1 0
  else match unwrapKey s.module.kek (s.bytes (companionKey (rqHost r)) 72) with
  | none => s.complete host 3 0
  | some k =>
    if s.keyLoaded slot ∨ s.keyUsed slot then s.complete host 3 0
    else ({ s with module := { s.module with keySlots := s.module.keySlots ++ [(slot, k)] } } : State).complete host 0 0) s
/-- KEYCLR. -/
def execKeyclr (host : Nat) (s : State) : Out := hostOnce 8 host (fun r s =>
  let slot := rqArg r 24 2
  if slot = 0 ∨ 4095 < slot then s.complete host 5 0
  else if s.keyUsed slot then s.complete host 3 0
  else ({ s with module := { s.module with keySlots := s.module.keySlots.filter (fun (x : Nat × BitVec 512) => x.1 != slot) } } : State).complete host 0 0) s

/-! The companion's doorbell writes (R441). -/

def execRqDoorbell (host : Nat) (value : BitVec 16) (s : State) : Out :=
  if 4 ≤ host then .fault .noSuchUnit
  else .next (s.writeHost host 0x018 { value := BitVec.ofNat 64 (value.toNat * 2 ^ 48), mask := bitsOf 63 48 })
def execCqCtlHeadWrite (host : Nat) (value : BitVec 16) (s : State) : Out :=
  if 4 ≤ host then .fault .noSuchUnit
  else .next (s.writeHost host 0x028 { value := BitVec.ofNat 64 (value.toNat * 2 ^ 32), mask := bitsOf 47 32 })

/-! Transfer engines (R445). -/

/-- An extent of class 00 or 10 memory in its range. -/
def transferable (pa n : Nat) : Bool :=
  match pa / 2 ^ 46 with
  | 0 => decide (pa + n ≤ 2 ^ 41)
  | 2 => decide (pa % 2 ^ 46 + n ≤ 0x6E000000)
  | _ => false
/-- Bytes from another module written, tags cleared (R46); none when a bank refuses one. -/
def State.landTransfer (s : State) (from_ : Psn) (ps : List (Nat × Nat × Nat)) (data : List Byte) : Option State :=
  match ps with
  | [] => some s
  | (pa, place, n) :: rest =>
    match s.hostPart pa n 0 with
    | none => none
    | some p => match s.enginePart from_ 0 0 p .store (slice data place n) 0 with
      | .ok r => r.2.landTransfer from_ rest data
      | .error _ => none
/-- Whether a number names a transfer engine's page: 32 companion links, 16 Ethernet ports, the host link (R40, R19). -/
def portExists (port : Nat) : Bool := decide (port < 32 ∨ (256 ≤ port ∧ port < 272) ∨ port = 512)
/-- REMOTE_TRANSFER_COMPLETE: the bytes that came in at a port, then +N to a store counter. -/
def execRemoteTransferComplete (place : Inbound) (data : List Byte) (tile : Psn) (counter : Nat) (s : State) : Out :=
  let port := place.port
  let pa := place.pa
  if !portExists port ∨ !isTilePsn tile ∨ 16 ≤ counter ∨ !transferable pa.toNat data.length then .fault .noSuchUnit
  else match s.landTransfer (externalPsn (port / 256) (port % 256)) (pieces pa.toNat data.length 1024) data with
  | some t => .next (t.modTile tile (fun x => { x with sq := put x.sq counter (satAdd (at_ x.sq counter 0) data.length) }))
  | none => .next s
/-- TRANSFER_ENGINE_START: the words of the engine's page (log entry 24): the address here, the address there, the length and the peer. What it
moves leaves the module; the peer's own step lands it. -/
def execTransferEngineStart (port : Nat) (pa : BitVec 48) (length peer : Nat) (remote : BitVec 48) (s : State) : Out :=
  if ¬ (port < 32 ∨ (256 ≤ port ∧ port < 272)) ∨ 2 ^ 20 ≤ peer ∨ 2 ^ 44 ≤ length ∨ !transferable pa.toNat length then .fault .noSuchUnit
  else
    let words : Nat × Word × Word × Word := (port, BitVec.ofNat 64 pa.toNat, BitVec.ofNat 64 remote.toNat, BitVec.ofNat 64 (length * 2 ^ 20 + peer))
    .next { s with module := { s.module with ports := upsert s.module.ports (fun p => p.1 == port) words } }

end Sys2Proof.Machine
end

