-- ==== Sys2Proof/Machine/PowerEvents.lean ====
section
/-! DEFINITION. The steps of power clusters (19 R453 to R456), of the monitor's limits (R449 to R451), of boot (R457, R458), park (R459) and
wear (R460). -/
namespace Sys2Proof.Machine
open Sys2Proof

/-! Clusters. -/

def clusterExists (region n : Nat) : Bool := decide (region < 80 ∧ n < 36)
def clusterStep (region n : Nat) (enabled : Bool) (s t : State) : Out :=
  if clusterExists region n then event enabled s t else .fault .noSuchUnit

/-- PWR_QUIESCE: a write of QUIESCE. -/
def execPwrQuiesce (region cluster : Nat) (s : State) : Out := clusterStep region cluster true s (s.writePwrCtl region cluster (some true) false)
/-- CLUSTER_QUIESCED. -/
def execClusterQuiesced (region cluster : Nat) (s : State) : Out :=
  let c := s.getCluster region cluster
  clusterStep region cluster (clQuiesce c && !clQuiesced c && !clGated c && s.clusterQuiet region cluster) s
    ((s.modCluster region cluster (fun c => { c with stat := setBit c.stat 63 true })).powerEvent region cluster 1 0)
/-- RET_SAVE: a write of RET_SAVE. -/
def execRetSave (region cluster : Nat) (s : State) : Out := clusterStep region cluster true s (s.writePwrCtl region cluster none true)
/-- RETENTION_SAVE_DONE. -/
def execRetentionSaveDone (region cluster : Nat) (s : State) : Out :=
  clusterStep region cluster ((s.getCluster region cluster).saving && s.canRetain region cluster) s (s.saveRetention region cluster)
/-- PWR_WAKE: a write of WAKE. -/
def execPwrWake (region cluster : Nat) (s : State) : Out := clusterStep region cluster true s (s.wakeCluster region cluster 5 0)
/-- CLUSTER_WAKE_ARRIVAL: an item for a gated cluster is held and starts the wake. -/
def execClusterWakeArrival (id : Nat) (s : State) : Out :=
  match (s.item id).bind s.arrivesAt with
  | none => .next s
  | some (p, source) =>
    let region := psnRegion p
    let n := clusterOf p
    let held := (s.getCluster region n).held
    event (s.gated p && !held.contains id) s
      ((s.modCluster region n (fun c => { c with held := c.held ++ [id] })).wakeCluster region n 6 source)
/-- CLUSTER_WAKE_DONE. -/
def execClusterWakeDone (region cluster : Nat) (s : State) : Out :=
  clusterStep region cluster (s.getCluster region cluster).wake.isSome s (s.restoreCluster region cluster)
/-- RAIL_GOOD_TIMEOUT: 100,000 ticks without RAIL_GOOD. -/
def execRailGoodTimeout (region cluster : Nat) (s : State) : Out :=
  clusterStep region cluster ((s.getCluster region cluster).wake.any (fun t => decide (t + 100000 ≤ s.tsc.toNat))) s (s.railFault region cluster)

/-! The monitor's limits (R451). -/

def clkBin (w : Word) : Nat := fld w 63 59
def clkCap (w : Word) : Nat := fld w 58 54
def clkRun (w : Word) : Nat := fld w 53 46
/-- TILE_CLK under another CAP, from 4 to 17. -/
def capped (w : Word) (cap : Nat) : Word :=
  let c := max 4 (min 17 cap)
  setFld (setFld w 58 54 c) 53 46 (10 * min (clkBin w) c)
/-- A change of CAP on some tiles. -/
def State.recap (s : State) (cores tiles : List Psn) (f : Nat → Nat) : State :=
  let s := cores.foldl (fun s p => s.modCore p (fun c => { c with tileClk := capped c.tileClk (f (clkCap c.tileClk)) })) s
  tiles.foldl (fun s p => s.modTile p (fun t => { t with tileClk := capped t.tileClk (f (clkCap t.tileClk)) })) s
def allCores (region : Nat) : List Psn := (List.range 288).map (corePsn region)
def allTiles (region : Nat) : List Psn := (List.range 288).map (tilePsn region)
/-- The highest RUN of a region's tiles. -/
def State.topRun (s : State) (region : Nat) : Nat :=
  ((allCores region).map (fun p => clkRun (s.getCore p).tileClk) ++ (allTiles region).map (fun p => clkRun (s.getTile p).tileClk)).foldl max 0
/-- The region whose tiles have the highest RUN, the lowest-numbered of equals. -/
def State.hottestRegion (s : State) : Nat := (List.range 80).foldl (fun best r => if s.topRun best < s.topRun r then r else best) 0

/-- Power: over 25 kW one region's CAP falls by a bin; after 100 windows below 23 kW it rises by a bin where no cluster is throttled. -/
def State.powerLimit (s : State) (watts : Nat) : State :=
  if 25000 < watts then
    let r := s.hottestRegion
    let s := s.recap (allCores r) (allTiles r) (· - 1)
    { s with module := { s.module with underWindows := 0 } }
  else if 23000 ≤ watts then { s with module := { s.module with underWindows := 0 } }
  else
    let n := s.module.underWindows + 1
    let cool (p : Psn) : Bool := !s.module.hotClusters.contains (psnRegion p, clusterOf p)
    let t := if n ≤ 100 then s
      else s.recap (((List.range 80).flatMap allCores).filter cool) (((List.range 80).flatMap allTiles).filter cool) (· + 1)
    { t with module := { t.module with underWindows := n } }
/-- Temperature: a cluster above 105 °C is throttled by a bin a window until it falls below 100 °C. -/
def State.heatLimit (s : State) (x : Nat × Nat × Int) : State :=
  let k := (x.1, x.2.1)
  let was := s.module.hotClusters.contains k
  let now := decide (105 < x.2.2) || (was && decide (100 ≤ x.2.2))
  let s := if now then s.recap (clusterCores k.1 k.2) (clusterTiles k.1 k.2) (· - 1) else s
  { s with module := { s.module with hotClusters := s.module.hotClusters.filter (· != k) ++ (if now then [k] else []) } }
/-- POWER_WINDOW: the power measured over 1 ms and the clusters' temperatures. -/
def execPowerWindow (watts : Nat) (hot : List (Nat × Nat × Int)) (s : State) : Out :=
  if hot.all (fun x => clusterExists x.1 x.2.1) then .next (hot.foldl State.heatLimit (s.powerLimit watts)) else .fault .noSuchUnit

/-! Wear (R460). The counters of a set are THERMAL_CYCLES, POWER_CYCLES, HOURS_BIN0 to HOURS_BIN11. -/

def State.addWear (s : State) (u i : Nat) : State :=
  let old := ((s.module.wear.find? (fun x => x.1 == u)).map (·.2)).getD (List.replicate 14 0)
  { s with module := { s.module with wear := upsert s.module.wear (fun x => x.1 == u) (u, old.set i (old.getD i 0 + 1)) } }
/-- The band of a temperature. -/
def hourBand (t : Int) : Nat := if t < 20 then 0 else min 11 ((t - 10) / 10).toNat
/-- Peaks and troughs: a fall of 30 °C below the last peak, then a rise of 30 °C above the trough counts a cycle. -/
def State.thermal (s : State) (u : Nat) (t : Int) : State :=
  let p := ((s.module.wearPeak.find? (fun (x : Nat × Int × Int × Bool) => x.1 == u)).map (·.2)).getD (t, t, false)
  let set_ (s : State) (v : Int × Int × Bool) : State :=
    { s with module := { s.module with wearPeak := upsert s.module.wearPeak (fun (x : Nat × Int × Int × Bool) => x.1 == u) (u, v) } }
  if !p.2.2 then
    (if t + 30 ≤ p.1 then set_ s (p.1, t, true) else set_ s (max p.1 t, t, false))
  else if p.2.1 + 30 ≤ t then set_ (s.addWear u 0) (t, t, false)
  else set_ s (p.1, min p.2.1 t, true)
/-- WEAR_HOURLY_UPDATE: a set's temperature in °C. -/
def execWearHourlyUpdate (celsius : List (Nat × Int)) (s : State) : Out :=
  if celsius.all (fun x => decide (x.1 < 112)) then .next (celsius.foldl (fun s x => (s.thermal x.1 x.2).addWear x.1 (2 + hourBand x.2)) s)
  else .fault .noSuchUnit

/-! Boot and park. -/

/-- A retire-pending unit is withdrawn at a boot (R436): a spare takes its place in the logical map, or the logical unit is absent. -/
def State.excludeUnit (s : State) (u : UnitWord) : State :=
  let p := unitPsn u
  let r := psnRegion p
  let s := match unitKind u, s.spareFor u with
    | 0, some v => (match s.logicalOf p with
      | some n => (s.remapCore p (unitPsn v)).modCore (unitPsn v) (fun c => { c with name := s.defaultName r n })
      | none => s)
    | 0, none => (match s.logicalOf p with
      | some n => (s.modRegion r (fun g => { g with lmapCore := put g.lmapCore n 0 })).modCore p (fun c => { c with logical := 0x7FFF })
      | none => s)
    | _, some v => s.mapTile p (fun _ => BitVec.ofNat 16 (0x8000 + psnIndex (unitPsn v)))
        (fun _ => BitVec.ofNat 8 (0x80 + ((List.range 46).find? (fun i => walkTile i == psnIndex (unitPsn v))).getD 0))
    | _, none => s.mapTile p (fun _ => 0) (fun _ => 0)
  let s := if unitKind u = 0 then s.modCore p (fun c => { c with live := false, name := nullName })
    else s.modTile p (fun t => { t with live := false, withdrawn := true })
  { s with module := { s.module with retired := s.module.retired ++ [u], retirePending := s.module.retirePending.filter (· != u) } }
/-- The maps are recorded in the archive (R20). -/
def State.recordMaps (s : State) : State :=
  { s with module := { s.module with maps := (List.range 80).map (fun r =>
      (r, (s.getRegion r).lmapCore.toList, (s.getRegion r).lmapStore.toList, (s.getRegion r).exbMap.toList)) } }
/-- COLD_BOOT: retire-pending units leave the maps, which are recorded; with the archive's sections the maps stand, COMP_WIN is set, ENERGY_UJ is zero and a power cycle is counted. An identity
record, retirement records or pattern sets beyond repair leave the monitor-only state; with the signing state lost every signing is refused. -/
def State.boot (s : State) : State :=
  let ok := (List.range 4).all Config.archiveSound
  let cool (c : Core) : Core := { c with energy := 0 }
  let hosts := s.hosts.map (fun (h : HostCore) => { h with compWin := Config.companionWindow.zeroExtend 64 })
  let spent := s.module.xmssSpent || !Config.archiveSound 3
  let m : Module := { s.module with booted := ok, monitorOnly := !ok, xmssSpent := spent, lowPower := false, pwr := 0 }
  let s : State := { s with hosts, core := cool s.core, cores := s.cores.map cool, module := m }
  let gone := s.module.retirePending.filter (fun u => decide (unitKind u ≤ 2))
  let s := (gone.foldl State.excludeUnit s).recordMaps
  let s := if gone = [] then s else s.regrade
  (List.range 112).foldl (fun s u => s.addWear u 1) s
def execColdBoot (s : State) : Out := event (!s.module.booted && !s.module.monitorOnly) s s.boot

/-- PARK and UNPARK: writes of MODULE_PWR. -/
def execPark (s : State) : Out := .next s.park
def execUnpark (s : State) : Out := .next s.unpark

end Sys2Proof.Machine
end

