-- ==== Sys2Proof/Machine/Hang.lean ====
section
/-! DEFINITION. Hangs (16 R425, R426): the progress of a region, its blocked ports, the map of a freeze, and the freeze itself. -/
namespace Sys2Proof.Machine
open Sys2Proof

/-! Progress (R425). -/

/-- The units between which an item stands. -/
def Body.units (b : Body) : List Psn :=
  match b with
  | .access a => match a.owner with
    | .tile t _ => [a.core, t]
    | _ => [a.core]
  | .message m => [m.src, m.tile]
  | .directWrite a => [a.core]
  | .command p _ | .credit p _ _ | .relit p _ _ _ | .completion p | .ringOp p _ _ | .query p _ _ | .answer p _ _ => [p]
  | .credResult p _ _ _ | .snuffnote p _ _ | .markerRequest p _ _ | .marker p _ _ | .relight p _ _ _ _ _ => [p]
  | .l2Request w | .fill w _ | .fillFault w _ _ => [w.core]
  | .ringTile t => [lanternPsn t.region 0]
  | .seal r _ _ _ | .done r _ _ | .contribution r _ _ _ _ _ _ _ _ _ => [lanternPsn r 0]
  | .audit t _ _ _ _ | .arrival t _ _ => [t]
  | .barrierForward t _ _ => [lanternPsn t 0]

/-- The units in whose region something has moved between two states: an item in flight, a counter, a queue slot. -/
def State.movedUnits (s t : State) : List Psn :=
  let items := (t.flight.filter (fun i => !s.flight.contains i)) ++ s.flight.filter (fun i => !t.flight.contains i)
  let changed (c : Core) : Bool :=
    let d := s.getCore c.psn
    c.q != d.q || c.queues != d.queues || c.arrivals != d.arrivals || c.staged != d.staged
  items.flatMap (fun i => i.body.units) ++ ((t.core :: t.cores).filter changed).map (·.psn) ++
    (t.tiles.filter (fun x => x.sq != (s.getTile x.psn).sq)).map (·.psn)
/-- A step from s to t: the regions where something has moved note the time. -/
def State.noteProgress (s t : State) : State :=
  (((s.movedUnits t).map psnRegion).eraseDups.filter (fun r => decide (r < 80))).foldl
    (fun u r => u.modRegion r (fun g => { g with progress := t.tsc.toNat })) t

/-! Blocked ports (R425, R426). A field the model does not track is a free value. -/

structure Blocked where
  psn : Psn
  kind : Option Nat
  ctx : Nat
  object : Option Nat
  want : Option Nat
  have_ : Option Nat
  partner : Psn
  age : Option Nat
  deriving DecidableEq, Repr

def unknownUnit : Psn := 0xFFFFFF

/-- KIND of a waiting instruction by its operation number (R301). -/
def waitKind (on : Nat) : Option Nat :=
  if on = Shape.waitb.on then some 8
  else if on = Shape.sbufw.on then some 4
  else if on = Shape.gang.on ∨ on = Shape.rejoin.on then some 9
  else if on = Shape.rinj.on then some 0xA
  else if Shape.drd.on ≤ on ∧ on ≤ Shape.rowwr.on then some 0xB
  else if on = Shape.sbind.on then some 0xC
  else if on = Shape.hld.on then some 1
  else if on = Shape.hst.on ∨ on = Shape.send.on ∨ on = Shape.sendq.on then some 2
  else none

/-- An input handle that lacks slots, and an output handle that lacks room. -/
def Core.lacksSlots (c : Core) (b : Blocked) (h want : Nat) : Blocked :=
  { b with kind := some 1, object := some h, want := some want, have_ := some (c.filled h) }
def Core.lacksRoom (c : Core) (b : Blocked) (h want : Nat) : Blocked :=
  { b with kind := some 2, object := some h, want := some want, have_ := some (oFree (c.queue h)) }

/-- The entries of the instruction that waits on the core in focus: one, or one for each pair of a WAITQ. -/
def State.blockedIssue (s : State) : List Blocked :=
  match s.core.act with
  | none => []
  | some a =>
    let c := s.core
    let b : Blocked := { psn := c.psn, kind := none, ctx := a.ctx, object := none, want := none, have_ := none, partner := unknownUnit
                         age := c.since.map (fun t => s.tsc.toNat - t) }
    if !c.waiting || a.halted.isSome then []
    else if a.waits ≠ [] then a.waits.map (fun w =>
      { b with kind := some 3, object := some w.1, want := some w.2.toNat
               have_ := some (s.counter c.psn ((s.homeTile c).getD 0) w.1).toNat })
    else match s.fetch with
    | .words ps _ =>
      let p0 := ps.getD 0 0
      if parcelCount p0 = 1 then
        let x := unpackShortB p0
        if p0.getLsbD 0 ∧ shortBSop p0 = Shape.hwaitfL32B.sop then [c.lacksSlots b x.a.toNat x.imm.toNat]
        else if p0.getLsbD 0 ∧ shortBSop p0 = Shape.hwaiteL32B.sop then [c.lacksRoom b x.a.toNat x.imm.toNat]
        else [b]
      else
        let x := unpackLong p0 (ps.getD 1 0) (ps.getD 2 0)
        let on := longOn p0
        if on = Shape.hwaitf.on then [c.lacksSlots b x.a.toNat (x.count s)]
        else if on = Shape.hwaite.on then [c.lacksRoom b x.a.toNat (x.count s)]
        else if on = Shape.waitvis.on then [{ b with kind := some 3, object := some 50, want := some x.hi.toNat, have_ := some (c.getQ 50).toNat }]
        else if on = Shape.sbufw.on then
          [{ b with kind := some 4, object := some (((s.c x.a.toNat).base : Int) + x.indexB s).toNat, want := some (x.hi.toNat % 2)
                    have_ := some (1 - x.hi.toNat % 2) }]
        else [{ b with kind := waitKind on }]
    | _ => [b]

/-- The engines of a core that wait: staged slots without credit, a reorder stash, accesses held at a FIFO, streams, copy channels. -/
def State.blockedEngines (s : State) (c : Core) : List Blocked :=
  let ctx := s.ctxOf c.psn
  let b : Blocked := { psn := c.psn, kind := none, ctx, object := none, want := none, have_ := none, partner := unknownUnit, age := none }
  let outs := ((List.range 12).map (· + 20)).filter (fun h => c.staged.any (fun x => x.1 == h) && oCredits (c.queue h) == 0)
  let slots := outs.map (fun h =>
    { b with kind := some 2, object := some h, want := some (oStaged (c.queue h)), have_ := some 0
             partner := (s.holder (psnRegion c.psn) (oDest (c.queue h))).getD unknownUnit })
  let stashed := c.stash.filterMap (fun i => match s.item i with
    | some (.message m) => some { b with kind := some 7, object := some m.seq.toNat, want := some (c.expected m.handle m.name).toNat
                                         have_ := some m.seq.toNat, partner := m.src }
    | _ => none)
  let fifos := (s.accessesOf c.psn).filterMap (fun x =>
    if x.2.stage = .fifoHeld then
      some { b with kind := some 5, object := some x.2.addr, want := some 1, have_ := some 0, partner := match x.2.owner with
        | .tile t _ => t
        | _ => unknownUnit }
    else none)
  let streams := c.streams.toList.filterMap (fun x => match x with
    | some st =>
      let a := (st.cap.base + st.offset (st.position + st.fetched.length)).toNat
      if st.bound ∧ !st.output ∧ st.fault.isNone ∧ st.position + st.fetched.length < st.total ∧ !s.elementFull c.psn st a then
        some { b with kind := some 4, object := some a, want := some 1, have_ := some 0
                      partner := (s.storeTile c (a / 2 ^ 19)).getD unknownUnit }
      else none
    | none => none)
  let copies := c.copies.toList.filterMap (fun x => match x.queue with
    | k :: _ => if k.started ∨ k.stopped then none
      else some { b with kind := if (s.copyTile c.psn k).isSome then some 0xC else k.handle.map (fun _ => 2), object := k.handle }
    | [] => none)
  slots ++ stashed ++ fifos ++ streams ++ copies

/-- The lanes of a tile's links without credit (R101): the port and lane as R426 codes them. -/
def State.blockedLanes (s : State) (tile : Psn) : List Blocked :=
  (s.getRouter tile).links.filterMap (fun l =>
    if l.spent = 0 ∨ 0 < l.credits then none
    else some { psn := tile, kind := some 6, ctx := 0, want := some 1, have_ := some 0, age := none
                object := some (if l.port ≤ 4 then 8 * l.port + l.lane else 64 + 8 * (l.port - 5) + l.lane)
                partner := ((if l.port ≤ 4 then neighbour tile l.port else diagonal tile (l.port - 5)).getD unknownUnit) })

/-- The blocked ports of a region in ascending order of their units. -/
def State.blockedPorts (s : State) (region : Nat) : List Blocked :=
  (List.range 288).flatMap (fun i =>
    (match (s.coresIn region).find? (·.psn == corePsn region i) with
      | some c => (s.focus c.psn).blockedIssue ++ s.blockedEngines c
      | none => []) ++ s.blockedLanes (corePsn region i)) ++ (List.range 288).flatMap (fun i => s.blockedLanes (tilePsn region i))

/-! The map (R426). -/

/-- One entry; `n` is the free-value number of its first field. -/
def Blocked.bytes (b : Blocked) (n : Nat) : List Byte :=
  let pick (o : Option Nat) (i bits : Nat) : Nat := (o.getD (Config.blockedWord (n + i)).toNat) % 2 ^ bits
  leBytes 8 (b.psn * 2 ^ 40 + pick b.kind 0 8 * 2 ^ 32 + b.ctx * 2 ^ 27 + pick b.object 1 27) ++ leBytes 8 (pick b.want 2 64) ++
    leBytes 8 (pick b.have_ 3 64) ++ leBytes 8 (b.partner * 2 ^ 40 + pick b.age 4 40)
def hangBase (w : Word) : Nat := fld w 45 12 * 4096
/-- The entries that a map area holds. -/
def hangRoom (w : Word) : Nat := (fld w 11 0 * 4096 - 64) / 32
/-- The map: its header and its entries. -/
def State.writeHangMap (s : State) (region : Nat) (ports : List Blocked) : State :=
  let w := (s.getRegion region).hangMap
  let here := ports.take (hangRoom w)
  let trunc := decide (here.length < ports.length)
  let head := leBytes 8 s.tsc.toNat ++ [BitVec.ofNat 8 region, if trunc then 1 else 0, 0, 0] ++ leBytes 4 here.length ++ List.replicate 48 0
  if fld w 11 0 = 0 then s
  else { (s.poke (hangBase w) (head ++ here.zipIdx.flatMap (fun x => x.1.bytes (s.free + 5 * x.2)))) with free := s.free + 5 * here.length }
/-- The HANG message of the Lantern (R415). -/
def State.sendHang (s : State) (region : Nat) (ports : List Blocked) : State :=
  let w := (s.getRegion region).hangMap
  let n := if fld w 11 0 = 0 then 0 else min ports.length (hangRoom w)
  let trunc := decide (fld w 11 0 ≠ 0 ∧ n < ports.length)
  let detail := BitVec.ofNat 256 (hangBase w + n * 2 ^ 64 + trunc.toNat * 2 ^ 96)
  s.launchItem (.message (message (lanternPsn region 0) region (s.fullName region 0x3FFF0) (s.serviceName region) 30
    (faultMessage .hang false false false 0 0 0 s.tsc.toNat 0 (lanternPsn region 0) 0 detail)))

/-! The freeze (R425). -/

/-- A core as it stands before any graph: what does not belong to graphs is kept, messages not yet sent among it. -/
def Core.unloaded (c : Core) (name : BitVec 24) : Core :=
  { (Core.reset c.psn) with
    name, logical := c.logical, namePrefix := c.namePrefix, unsent := c.unsent, tileClk := c.tileClk, energy := c.energy, live := c.live
    diag := c.diag }
def Tile.unloaded (t : Tile) : Tile := { (Tile.reset t.psn) with tileClk := t.tileClk, live := t.live, withdrawn := t.withdrawn }
/-- The region in its state before any graph was loaded. -/
def State.unloadRegion (s : State) (region : Nat) : State :=
  let name (c : Core) : BitVec 24 := match s.logicalOf c.psn with
    | some n => s.defaultName region n
    | none => nullName
  let fix (c : Core) : Core := if psnRegion c.psn = region ∧ isGridCore c.psn then c.unloaded (name c) else c
  let t : State := { s with
    core := fix s.core, cores := s.cores.map fix
    tiles := s.tiles.map (fun t => if psnRegion t.psn = region ∧ interior (psnIndex t.psn) then t.unloaded else t) }
  let t := t.clearRange (localKey (corePsn region 0) 0) (288 * 2 ^ 17)
  let t := interiorTiles.foldl (fun u i => u.clearRange (tileKey (tilePsn region i) 0) (2 ^ 19)) t
  t.modRegion region (fun r => { r with
    tombs := [], l2 := [], walks := [], rings := [], trees := [], move := none, moveLog := [], progress := s.tsc.toNat })
/-- HANG_FREEZE: the map, the message, the kill of every graph with an actor in the region, the region cleared. -/
def State.freeze (s : State) (region : Nat) : State :=
  let ports := s.blockedPorts region
  let s := (s.writeHangMap region ports).sendHang region ports
  let s := ((s.graphs.filter (fun g => g.stat != 0 && g.actors.any (fun a => psnRegion a.2.1 == region))).map (·.id)).foldl (fun s i =>
    match s.graphById i with
    | some g => s.killGraph g
    | none => s) s
  s.unloadRegion region
def execHangFreeze (region : Nat) (s : State) : Out :=
  let r := s.getRegion region
  if 80 ≤ region then .fault .noSuchUnit
  else event (bit r.hangCfg 63 && decide (r.progress + 2 ^ fld r.hangCfg 4 0 ≤ s.tsc.toNat) && s.blockedPorts region != []) s (s.freeze region)

end Sys2Proof.Machine
end

