-- ==== Sys2Proof/Machine/Integer.lean ====
section
/-! DEFINITION. Integer, compare, select, move, constant and bit-field instructions (11 R266 to R268). -/
namespace Sys2Proof.Machine
open Sys2Proof

/-! The exact values of R266, as bits of the type. -/

/-- The carry of a + b and the borrow of a − b, unsigned. -/
def carryOf (t : TyCode) (a b : Nat) : Nat := if 2 ^ elemBits t ≤ low t a + low t b then 1 else 0
def borrowOf (t : TyCode) (a b : Nat) : Nat := if low t a < low t b then 1 else 0
/-- The upper n bits of the 2n-bit product, signed or unsigned by the type. -/
def mulHigh (t : TyCode) (_ : BitVec 2) (_ : Bool) (a b : Nat) : Nat := wrapInt t false (intOf t a * intOf t b / 2 ^ elemBits t)
def divOf (t : TyCode) (_ : BitVec 2) (_ : Bool) (a b : Nat) : Nat := wrapInt t false (divInt t (intOf t a) (intOf t b))
def remOf (t : TyCode) (_ : BitVec 2) (_ : Bool) (a b : Nat) : Nat := wrapInt t false (remInt t (intOf t a) (intOf t b))
def andOf (t : TyCode) (_ : BitVec 2) (_ : Bool) (a b : Nat) : Nat := low t a &&& low t b
def andnOf (t : TyCode) (_ : BitVec 2) (_ : Bool) (a b : Nat) : Nat := low t a &&& (2 ^ elemBits t - 1 - low t b)
def orOf (t : TyCode) (_ : BitVec 2) (_ : Bool) (a b : Nat) : Nat := low t a ||| low t b
def xorOf (t : TyCode) (_ : BitVec 2) (_ : Bool) (a b : Nat) : Nat := low t a ^^^ low t b
def shlOf (t : TyCode) (_ : BitVec 2) (sat : Bool) (a b : Nat) : Nat := elemShl t sat a b
def shrOf (t : TyCode) (_ : BitVec 2) (_ : Bool) (a b : Nat) : Nat := elemShr t a b
def shaOf (t : TyCode) (_ : BitVec 2) (_ : Bool) (a b : Nat) : Nat := elemSha t a b
/-- Rotation left by s mod n. -/
def rolOf (t : TyCode) (_ : BitVec 2) (_ : Bool) (a b : Nat) : Nat :=
  let n := elemBits t
  let s := low t b % n
  low t a * 2 ^ s % 2 ^ n + low t a / 2 ^ (n - s)
def rotrOf (t : TyCode) (_ : BitVec 2) (_ : Bool) (a b : Nat) : Nat :=
  let n := elemBits t
  let s := low t b % n
  low t a / 2 ^ s + low t a * 2 ^ (n - s) % 2 ^ n
def clzOf (t : TyCode) (a : Nat) : Nat := clzN (elemBits t) (low t a)
def ctzOf (t : TyCode) (a : Nat) : Nat := ctzN (elemBits t) (low t a)
def popcOf (t : TyCode) (a : Nat) : Nat := popN (elemBits t) (low t a)
def brevOf (t : TyCode) (_ : BitVec 2) (_ : Bool) (a : Nat) : Nat := revN (elemBits t) (low t a)
def bswapOf (t : TyCode) (_ : BitVec 2) (_ : Bool) (a : Nat) : Nat := swapN (elemBits t / 8) (low t a)
def minOfTwo (t : TyCode) (_ : BitVec 2) (_ : Bool) (a b : Nat) : Nat := elemMin t false a b
def maxOfTwo (t : TyCode) (_ : BitVec 2) (_ : Bool) (a b : Nat) : Nat := elemMin t true a b
def absOf (t : TyCode) (_ : BitVec 2) (sat : Bool) (a : Nat) : Nat := elemAbs t sat a

/-- BFX (R268): pos in bits 5:0 and len − 1 in bits 11:6 of `f`. -/
def bfxOf (t : TyCode) (a f : Nat) : Word :=
  let pos := f % 64
  let len := f / 64 % 64 + 1
  let v := a / 2 ^ pos % 2 ^ len
  if isSigned t then BitVec.ofInt 64 (signedOf len v) else BitVec.ofNat 64 v
/-- BFI (R268): the field of the old destination replaced. -/
def bfiOf (d a f : Nat) : Word :=
  let pos := f % 64
  let len := f / 64 % 64 + 1
  let m := BitVec.ofNat 64 ((2 ^ len - 1) * 2 ^ pos)
  (BitVec.ofNat 64 d &&& ~~~ m) ||| (BitVec.ofNat 64 (a * 2 ^ pos) &&& m)
/-- A field that runs past bit 63 in a register form raises ILLEGAL at execution (R268). -/
def fieldCheck (f : Nat) : Except Stop Unit := if f % 64 + f / 64 % 64 + 1 ≤ 64 then .ok () else .error (.illegal 6)

def execAdd (x : Long) (s : State) : Out := issueL Shape.add x (x.run2 elemAdd) s
def execAddL32A (x : ShortA) (s : State) : Out := issueA Shape.addL32A x (x.run2 elemAdd) s
def execAddI64L32B (x : ShortB) (s : State) : Out := issueB Shape.addI64L32B x (x.run2 3 elemAdd) s
def execAddI32L32B (x : ShortB) (s : State) : Out := issueB Shape.addI32L32B x (x.run2 2 elemAdd) s
def execAddc (x : Long) (s : State) : Out := issueL Shape.addc x (x.count2 carryOf) s
def execAddcL32A (x : ShortA) (s : State) : Out := issueA Shape.addcL32A x (x.count2 carryOf) s
def execSub (x : Long) (s : State) : Out := issueL Shape.sub x (x.run2 elemSub) s
def execSubL32A (x : ShortA) (s : State) : Out := issueA Shape.subL32A x (x.run2 elemSub) s
def execSubb (x : Long) (s : State) : Out := issueL Shape.subb x (x.count2 borrowOf) s
def execSubbL32A (x : ShortA) (s : State) : Out := issueA Shape.subbL32A x (x.count2 borrowOf) s
def execMul (x : Long) (s : State) : Out := issueL Shape.mul x (x.run2 elemMul) s
def execMulL32A (x : ShortA) (s : State) : Out := issueA Shape.mulL32A x (x.run2 elemMul) s
def execMulI64L32B (x : ShortB) (s : State) : Out := issueB Shape.mulI64L32B x (x.run2 3 elemMul) s
def execMulI32L32B (x : ShortB) (s : State) : Out := issueB Shape.mulI32L32B x (x.run2 2 elemMul) s
def execMulh (x : Long) (s : State) : Out := issueL Shape.mulh x (x.run2 mulHigh) s
def execMulhL32A (x : ShortA) (s : State) : Out := issueA Shape.mulhL32A x (x.run2 mulHigh) s
def execMulhn (x : Long) (s : State) : Out := issueL Shape.mulhn x (x.run2 mulHigh) s
def execMulhnL32A (x : ShortA) (s : State) : Out := issueA Shape.mulhnL32A x (x.run2 mulHigh) s
def execDiv (x : Long) (s : State) : Out := issueL Shape.div x (x.run2 divOf) s
def execDivL32A (x : ShortA) (s : State) : Out := issueA Shape.divL32A x (x.run2 divOf) s
def execDivn (x : Long) (s : State) : Out := issueL Shape.divn x (x.run2 divOf) s
def execDivnL32A (x : ShortA) (s : State) : Out := issueA Shape.divnL32A x (x.run2 divOf) s
def execRem (x : Long) (s : State) : Out := issueL Shape.rem x (x.run2 remOf) s
def execRemL32A (x : ShortA) (s : State) : Out := issueA Shape.remL32A x (x.run2 remOf) s
def execRemn (x : Long) (s : State) : Out := issueL Shape.remn x (x.run2 remOf) s
def execRemnL32A (x : ShortA) (s : State) : Out := issueA Shape.remnL32A x (x.run2 remOf) s
def execAnd (x : Long) (s : State) : Out := issueL Shape.and x (x.run2 andOf) s
def execAndL32A (x : ShortA) (s : State) : Out := issueA Shape.andL32A x (x.run2 andOf) s
def execAndN64L32B (x : ShortB) (s : State) : Out := issueB Shape.andN64L32B x (x.run2 7 andOf) s
def execAndn (x : Long) (s : State) : Out := issueL Shape.andn x (x.run2 andnOf) s
def execAndnL32A (x : ShortA) (s : State) : Out := issueA Shape.andnL32A x (x.run2 andnOf) s
def execAndnN64L32B (x : ShortB) (s : State) : Out := issueB Shape.andnN64L32B x (x.run2 7 andnOf) s
def execOr (x : Long) (s : State) : Out := issueL Shape.or x (x.run2 orOf) s
def execOrL32A (x : ShortA) (s : State) : Out := issueA Shape.orL32A x (x.run2 orOf) s
def execOrN64L32B (x : ShortB) (s : State) : Out := issueB Shape.orN64L32B x (x.run2 7 orOf) s
def execXor (x : Long) (s : State) : Out := issueL Shape.xor x (x.run2 xorOf) s
def execXorL32A (x : ShortA) (s : State) : Out := issueA Shape.xorL32A x (x.run2 xorOf) s
def execXorN64L32B (x : ShortB) (s : State) : Out := issueB Shape.xorN64L32B x (x.run2 7 xorOf) s
def execShl (x : Long) (s : State) : Out := issueL Shape.shl x (x.run2 shlOf) s
def execShlL32A (x : ShortA) (s : State) : Out := issueA Shape.shlL32A x (x.run2 shlOf) s
def execShlN64L32B (x : ShortB) (s : State) : Out := issueB Shape.shlN64L32B x (x.run2 7 shlOf) s
def execShr (x : Long) (s : State) : Out := issueL Shape.shr x (x.run2 shrOf) s
def execShrL32A (x : ShortA) (s : State) : Out := issueA Shape.shrL32A x (x.run2 shrOf) s
def execShrN64L32B (x : ShortB) (s : State) : Out := issueB Shape.shrN64L32B x (x.run2 7 shrOf) s
def execSha (x : Long) (s : State) : Out := issueL Shape.sha x (x.run2 shaOf) s
def execShaL32A (x : ShortA) (s : State) : Out := issueA Shape.shaL32A x (x.run2 shaOf) s
def execShaI64L32B (x : ShortB) (s : State) : Out := issueB Shape.shaI64L32B x (x.run2 3 shaOf) s
def execRol (x : Long) (s : State) : Out := issueL Shape.rol x (x.run2 rolOf) s
def execRolL32A (x : ShortA) (s : State) : Out := issueA Shape.rolL32A x (x.run2 rolOf) s
def execRotr (x : Long) (s : State) : Out := issueL Shape.rotr x (x.run2 rotrOf) s
def execRotrL32A (x : ShortA) (s : State) : Out := issueA Shape.rotrL32A x (x.run2 rotrOf) s
def execRotrN64L32B (x : ShortB) (s : State) : Out := issueB Shape.rotrN64L32B x (x.run2 7 rotrOf) s
def execClz (x : Long) (s : State) : Out := issueL Shape.clz x (x.count1 clzOf) s
def execClzL32A (x : ShortA) (s : State) : Out := issueA Shape.clzL32A x (x.count1 clzOf) s
def execCtz (x : Long) (s : State) : Out := issueL Shape.ctz x (x.count1 ctzOf) s
def execCtzL32A (x : ShortA) (s : State) : Out := issueA Shape.ctzL32A x (x.count1 ctzOf) s
def execPopc (x : Long) (s : State) : Out := issueL Shape.popc x (x.count1 popcOf) s
def execPopcL32A (x : ShortA) (s : State) : Out := issueA Shape.popcL32A x (x.count1 popcOf) s
def execBrev (x : Long) (s : State) : Out := issueL Shape.brev x (x.run1 brevOf) s
def execBrevL32A (x : ShortA) (s : State) : Out := issueA Shape.brevL32A x (x.run1 brevOf) s
def execBswap (x : Long) (s : State) : Out := issueL Shape.bswap x (x.run1 bswapOf) s
def execBswapL32A (x : ShortA) (s : State) : Out := issueA Shape.bswapL32A x (x.run1 bswapOf) s
def execMin (x : Long) (s : State) : Out := issueL Shape.min x (x.run2 minOfTwo) s
def execMinL32A (x : ShortA) (s : State) : Out := issueA Shape.minL32A x (x.run2 minOfTwo) s
def execMinI64L32B (x : ShortB) (s : State) : Out := issueB Shape.minI64L32B x (x.run2 3 minOfTwo) s
def execMax (x : Long) (s : State) : Out := issueL Shape.max x (x.run2 maxOfTwo) s
def execMaxL32A (x : ShortA) (s : State) : Out := issueA Shape.maxL32A x (x.run2 maxOfTwo) s
def execMaxI64L32B (x : ShortB) (s : State) : Out := issueB Shape.maxI64L32B x (x.run2 3 maxOfTwo) s
def execMinn (x : Long) (s : State) : Out := issueL Shape.minn x (x.run2 minOfTwo) s
def execMinnL32A (x : ShortA) (s : State) : Out := issueA Shape.minnL32A x (x.run2 minOfTwo) s
def execMinnN64L32B (x : ShortB) (s : State) : Out := issueB Shape.minnN64L32B x (x.run2 7 minOfTwo) s
def execMaxn (x : Long) (s : State) : Out := issueL Shape.maxn x (x.run2 maxOfTwo) s
def execMaxnL32A (x : ShortA) (s : State) : Out := issueA Shape.maxnL32A x (x.run2 maxOfTwo) s
def execMaxnN64L32B (x : ShortB) (s : State) : Out := issueB Shape.maxnN64L32B x (x.run2 7 maxOfTwo) s
def execAbs (x : Long) (s : State) : Out := issueL Shape.abs x (x.run1 absOf) s
def execAbsL32A (x : ShortA) (s : State) : Out := issueA Shape.absL32A x (x.run1 absOf) s
def execCmpEqI64L32B (x : ShortB) (s : State) : Out := issueB Shape.cmpEqI64L32B x (fun s => .ok (s.setCmp x.d.toNat 3 0 (s.g x.a.toNat).toNat (imm12 x.imm))) s
def execCmpNeI64L32B (x : ShortB) (s : State) : Out := issueB Shape.cmpNeI64L32B x (fun s => .ok (s.setCmp x.d.toNat 3 1 (s.g x.a.toNat).toNat (imm12 x.imm))) s
def execCmpLtI64L32B (x : ShortB) (s : State) : Out := issueB Shape.cmpLtI64L32B x (fun s => .ok (s.setCmp x.d.toNat 3 2 (s.g x.a.toNat).toNat (imm12 x.imm))) s
def execCmpLeI64L32B (x : ShortB) (s : State) : Out := issueB Shape.cmpLeI64L32B x (fun s => .ok (s.setCmp x.d.toNat 3 3 (s.g x.a.toNat).toNat (imm12 x.imm))) s
def execCmpGtI64L32B (x : ShortB) (s : State) : Out := issueB Shape.cmpGtI64L32B x (fun s => .ok (s.setCmp x.d.toNat 3 4 (s.g x.a.toNat).toNat (imm12 x.imm))) s
def execCmpGeI64L32B (x : ShortB) (s : State) : Out := issueB Shape.cmpGeI64L32B x (fun s => .ok (s.setCmp x.d.toNat 3 5 (s.g x.a.toNat).toNat (imm12 x.imm))) s
def execCmpLtN64L32B (x : ShortB) (s : State) : Out := issueB Shape.cmpLtN64L32B x (fun s => .ok (s.setCmp x.d.toNat 7 2 (s.g x.a.toNat).toNat (imm12 x.imm))) s
def execCmpLeN64L32B (x : ShortB) (s : State) : Out := issueB Shape.cmpLeN64L32B x (fun s => .ok (s.setCmp x.d.toNat 7 3 (s.g x.a.toNat).toNat (imm12 x.imm))) s
def execCmpGtN64L32B (x : ShortB) (s : State) : Out := issueB Shape.cmpGtN64L32B x (fun s => .ok (s.setCmp x.d.toNat 7 4 (s.g x.a.toNat).toNat (imm12 x.imm))) s
def execCmpGeN64L32B (x : ShortB) (s : State) : Out := issueB Shape.cmpGeN64L32B x (fun s => .ok (s.setCmp x.d.toNat 7 5 (s.g x.a.toNat).toNat (imm12 x.imm))) s

/-! Compare, select, move and constants (R267). -/

def execCmp (x : Long) (s : State) : Out := issueL Shape.cmp x x.compare s
/-- gd := ga if lane 0 of pc is 1, else gb; the literal of L96 FORM 01 is sign-extended. -/
def execSel (x : Long) (s : State) : Out := issueL Shape.sel x (fun s => do
  let a ← x.srcA s
  let b ← if x.wide && x.form == 1 then .ok (x.lit.signExtend 64).toNat else x.srcB s
  let d ← x.dst s
  return s.setG d (BitVec.ofNat 64 (if (s.p x.c.toNat).getLsbD 0 then a else b))) s
def execMov (x : Long) (s : State) : Out := issueL Shape.mov x (fun s => do
  let a ← x.srcA s
  let d ← x.dst s
  return s.setG d (BitVec.ofNat 64 a)) s
def execMovL32A (x : ShortA) (s : State) : Out := issueA Shape.movL32A x (fun s => .ok (s.setG x.d.toNat (s.g x.a.toNat))) s
/-- SOP 0x33: the source's number is the value of ga plus the immediate (R226, R237). -/
def execMovRelSrcL32B (x : ShortB) (s : State) : Out := issueB Shape.movRelSrcL32B x (fun s => do
  let n ← s.relative x.a x.imm.toInt
  return s.setG x.d.toNat (s.g n)) s
/-- SOP 0x34: the destination's number is the value of gd plus the immediate. -/
def execMovRelDstL32B (x : ShortB) (s : State) : Out := issueB Shape.movRelDstL32B x (fun s => do
  let n ← s.relative x.d x.imm.toInt
  return s.setG n (s.g x.a.toNat)) s
/-- The immediate taken to the type's bits and extended (R267). -/
def execLi (x : Long) (s : State) : Out := issueL Shape.li x (fun s => do
  let b ← x.srcB s
  return s.setG x.d.toNat (extend x.opType b)) s
def execLiI64L32B (x : ShortB) (s : State) : Out :=
  issueB Shape.liI64L32B x (fun s => .ok (s.setG x.d.toNat (x.imm.signExtend 64))) s
/-- gd := (ga << k) | v: k is 12 for IMM12 (unsigned) and 32 for the literal and for bits 31:0 of gb (R267). -/
def execLih (x : Long) (s : State) : Out := issueL Shape.lih x (fun s => do
  let a ← x.srcA s
  let d ← x.dst s
  if x.form = 1 then
    return s.setG d (if x.wide then BitVec.ofNat 64 (a * 2 ^ 32) ||| x.lit.zeroExtend 64
                     else BitVec.ofNat 64 (a * 2 ^ 12) ||| x.hi.zeroExtend 64)
  let b ← x.srcB s
  return s.setG d (BitVec.ofNat 64 (a * 2 ^ 32) ||| BitVec.ofNat 64 (b % 2 ^ 32))) s
def execLihL32B (x : ShortB) (s : State) : Out :=
  issueB Shape.lihL32B x (fun s => .ok (s.setG x.d.toNat (s.g x.a.toNat <<< 12 ||| x.imm.zeroExtend 64))) s

/-! Bit fields (R268). -/

def execBfx (x : Long) (s : State) : Out := issueL Shape.bfx x (fun s => do
  let a ← x.srcA s
  let f ← x.srcB s
  let d ← x.dst s
  fieldCheck f
  return s.setG d (bfxOf x.opType a f)) s
def execBfi (x : Long) (s : State) : Out := issueL Shape.bfi x (fun s => do
  let a ← x.srcA s
  let f ← x.srcB s
  let d ← x.dst s
  fieldCheck f
  return s.setG d (bfiOf (s.g d).toNat a f)) s
def execBfxN64L32B (x : ShortB) (s : State) : Out :=
  issueB Shape.bfxN64L32B x (fun s => .ok (s.setG x.d.toNat (bfxOf 7 (s.g x.a.toNat).toNat x.imm.toNat))) s
def execBfxI64L32B (x : ShortB) (s : State) : Out :=
  issueB Shape.bfxI64L32B x (fun s => .ok (s.setG x.d.toNat (bfxOf 3 (s.g x.a.toNat).toNat x.imm.toNat))) s

end Sys2Proof.Machine
end

