-- ==== Sys2Proof/Machine/LinkEvents.lean ====
section
/-! DEFINITION. The steps of link flow control (03 R101 to R103): audits, replays and withdrawal. A mesh link is named by a tile and its port 1 to 4,
a ring link by a core and 5 + direction. -/
namespace Sys2Proof.Machine
open Sys2Proof

/-- Whether a lane exists. -/
def laneExists (tile : Psn) (port lane : Nat) : Bool :=
  (isCorePsn tile || isTilePsn tile) &&
    (if port ≤ 4 then (neighbour tile port).isSome && decide (lane < 4)
    else isCorePsn tile && decide (port < 9 ∧ lane < 2) && (diagonal tile (port - 5)).isSome)
/-- The unit word of the link (R427). -/
def linkUnit (tile : Psn) (port : Nat) : UnitWord :=
  if port ≤ 4 then (if isGridCore tile then meshUnit tile port else meshUnit ((neighbour tile port).getD 0) (opposite port))
  else ringLinkUnit tile ((diagonal tile (port - 5)).getD 0)

/-- LINK_AUDIT (R103): an audit is over, with `n` flits resent when it was a resynchronisation. -/
def Router.note (r : Router) (port now : Nat) (resync : Option Nat) : Router :=
  let w := at_ r.audit port 0
  let w := setFld w 31 0 now
  let w := match resync with
    | some n => setFld (setFld w 63 48 (min 0xFFFF (fld w 63 48 + 1))) 47 32 (min 0xFFFF (fld w 47 32 + n))
    | none => w
  if port ≤ 4 then { r with audit := put r.audit port w } else r

/-- A link is withdrawn: it carries nothing more, and the messages and ring tiles that crossed it are lost (R102). -/
def State.withdrawLink (s : State) (tile : Psn) (port : Nat) : State :=
  let s := if 5 ≤ port then s.cutRing tile port else s.cutLink tile port
  { s with flight := s.flight.filter (fun i => match i.body with
      | .message m => !((m.stage == .router || m.stage == .local) && decide (port ≤ 4) && ((m.tile == tile && m.port == port) ||
          (some m.tile == neighbour tile port && m.port == opposite port)))
      | .ringTile t => !(decide (5 ≤ port) && s.crosses t tile ((diagonal tile (port - 5)).getD tile))
      | _ => true) }
/-- The resynchronisation of a lane (R102): the receiver reports its occupancy and RECEIVED, flits from RECEIVED on are resent from the replay store of
64, credits are set to the depth less the occupancy; the link's score grows by 64. A flit that is no longer there withdraws the link. -/
def State.resync (s : State) (tile : Psn) (port lane : Nat) : State :=
  let s := s.addScore (linkUnit tile port) 64
  let r := s.getRouter tile
  let l := r.lane port lane
  if 64 < l.missing then s.withdrawLink tile port
  else s.putRouter tile ((r.setLane l.resynced).note port s.tsc.toNat (some l.missing))

/-- Whether an audit of a lane is due (R101): 2^16 flits have gone since the last, or it has been idle for 1,024 link cycles, once per idle period. -/
def Lane.auditDue (l : Lane) (now : Nat) : Bool := decide (2 ^ 16 ≤ l.unaudited) || (!l.idle && decide (l.last + Config.auditIdle ≤ now))
/-- LINK_AUDIT_START: the sender's count goes to the receiver, whose reply is on its way. -/
def State.startAudit (s : State) (tile : Psn) (port lane : Nat) : State :=
  let r := s.getRouter tile
  let l := r.lane port lane
  (s.putRouter tile (r.setLane { l with unaudited := 0, idle := true })).launchItem (.audit tile port lane l.received.toNat l.freed.toNat)
def execLinkAuditStart (tile : Psn) (port lane : Nat) (s : State) : Out :=
  if laneExists tile port lane then
    event (!s.linkCut tile port && ((s.getRouter tile).lane port lane).auditDue s.tsc.toNat) s (s.startAudit tile port lane)
  else .fault .noSuchUnit
/-- LINK_AUDIT_REPLY: a mismatch when RECEIVED differs from SENT or the credits from what the buffer holds. -/
def execLinkAuditReply (id : Nat) (s : State) : Out :=
  match s.item id with
  | some (.audit tile port lane _ _) =>
    let t := s.dropItem id
    let r := t.getRouter tile
    if t.linkCut tile port then .next t
    else .next (if (r.lane port lane).agrees then t.putRouter tile (r.note port s.tsc.toNat none) else t.resync tile port lane)
  | _ => .next s
/-- FLIT_ECC_DROP: a flit that was sent is lost and the receiver asks for an audit at once. -/
def execFlitEccDrop (tile : Psn) (port lane : Nat) (s : State) : Out :=
  if laneExists tile port lane then
    let r := s.getRouter tile
    event (!s.linkCut tile port && decide (0 < (r.lane port lane).occupancy)) s
      ((s.putRouter tile (r.setLane (r.lane port lane).drop)).startAudit tile port lane)
  else .fault .noSuchUnit
/-- CREDIT_COUNTER_PARITY_ERROR. -/
def execCreditCounterParityError (tile : Psn) (port lane : Nat) (s : State) : Out :=
  if laneExists tile port lane then event (!s.linkCut tile port) s (s.resync tile port lane) else .fault .noSuchUnit

end Sys2Proof.Machine
end

