-- ==== Sys2Proof/Machine/Predicate.lean ====
section
/-! DEFINITION. Predicate instructions (11 R280): lane by lane on 32 lanes. -/
namespace Sys2Proof.Machine
open Sys2Proof

def execPand (x : Long) (s : State) : Out := issueL Shape.pand x (fun s =>
  .ok (s.setP x.d.toNat (s.pInv x.a.toNat (x.sub.getLsbD 0) &&& s.pInv x.b.toNat (x.sub.getLsbD 1)))) s
def execPandL32A (x : ShortA) (s : State) : Out := issueA Shape.pandL32A x (fun s =>
  .ok (s.setP x.d.toNat (s.pInv x.a.toNat (x.sub.getLsbD 0) &&& s.pInv x.b.toNat (x.sub.getLsbD 1)))) s
def execPor (x : Long) (s : State) : Out := issueL Shape.por x (fun s =>
  .ok (s.setP x.d.toNat (s.pInv x.a.toNat (x.sub.getLsbD 0) ||| s.pInv x.b.toNat (x.sub.getLsbD 1)))) s
def execPorL32A (x : ShortA) (s : State) : Out := issueA Shape.porL32A x (fun s =>
  .ok (s.setP x.d.toNat (s.pInv x.a.toNat (x.sub.getLsbD 0) ||| s.pInv x.b.toNat (x.sub.getLsbD 1)))) s
def execPxor (x : Long) (s : State) : Out := issueL Shape.pxor x (fun s =>
  .ok (s.setP x.d.toNat (s.pInv x.a.toNat (x.sub.getLsbD 0) ^^^ s.pInv x.b.toNat (x.sub.getLsbD 1)))) s
def execPxorL32A (x : ShortA) (s : State) : Out := issueA Shape.pxorL32A x (fun s =>
  .ok (s.setP x.d.toNat (s.pInv x.a.toNat (x.sub.getLsbD 0) ^^^ s.pInv x.b.toNat (x.sub.getLsbD 1)))) s
def execPnot (x : Long) (s : State) : Out := issueL Shape.pnot x (fun s => .ok (s.setP x.d.toNat (~~~ (s.p x.a.toNat)))) s
def execPnotL32A (x : ShortA) (s : State) : Out := issueA Shape.pnotL32A x (fun s => .ok (s.setP x.d.toNat (~~~ (s.p x.a.toNat)))) s
def execPmov (x : Long) (s : State) : Out := issueL Shape.pmov x (fun s => .ok (s.setP x.d.toNat (s.p x.a.toNat))) s
def execPmovL32A (x : ShortA) (s : State) : Out := issueA Shape.pmovL32A x (fun s => .ok (s.setP x.d.toNat (s.p x.a.toNat))) s
def execPmovFromG (x : Long) (s : State) : Out := issueL Shape.pmovFromG x (fun s => .ok (s.setP x.d.toNat ((s.g x.a.toNat).truncate 32))) s
def execPmovFromGL32A (x : ShortA) (s : State) : Out := issueA Shape.pmovFromGL32A x (fun s => .ok (s.setP x.d.toNat ((s.g x.a.toNat).truncate 32))) s
def execPmovToG (x : Long) (s : State) : Out := issueL Shape.pmovToG x (fun s => .ok (s.setG x.d.toNat ((s.p x.a.toNat).zeroExtend 64))) s
def execPmovToGL32A (x : ShortA) (s : State) : Out := issueA Shape.pmovToGL32A x (fun s => .ok (s.setG x.d.toNat ((s.p x.a.toNat).zeroExtend 64))) s
def execPcnt (x : Long) (s : State) : Out := issueL Shape.pcnt x (fun s => .ok (s.setG x.d.toNat (BitVec.ofNat 64 (lanesSet (s.p x.a.toNat))))) s
def execPcntL32A (x : ShortA) (s : State) : Out := issueA Shape.pcntL32A x (fun s => .ok (s.setG x.d.toNat (BitVec.ofNat 64 (lanesSet (s.p x.a.toNat))))) s

end Sys2Proof.Machine
end

