-- ==== Sys2Proof/Machine/RingEvents.lean ====
section
/-! DEFINITION. The steps of operand rings: tiles on the channels, firings, relights, seals, completion, cancellation and the re-run (08 R205 to
R220, 14 R390, R393). -/
namespace Sys2Proof.Machine
open Sys2Proof

/-! A tile arrives (R205, R206, R209). -/

def Core.queued (c : Core) (j : Nat) : Bool := c.firings.any (·.1 == j)
/-- Whether a tile matches an entry (R208). -/
def Core.matching (c : Core) (h : Word) (j : Nat) : Bool :=
  let m := c.entry j
  mLive m && mOpnum m == hdrOp h && mTag m (hdrFam h) == hdrTag h
/-- An entry's firing with the tile in slot `mine` (its own family) and the partner in slot `other`. -/
def firing (j : Nat) (w : Bool) (mine other : Nat) : Nat × Nat × Nat := if w then (j, other, mine) else (j, mine, other)
/-- The slot an arriving tile takes: a holding slot when it is held, else slot 3, else the lowest free one (R206). -/
def Core.arrivalSlot (c : Core) (w held : Bool) : Nat :=
  let through := (familySlots w).getD 3 0
  if held then (c.freeHolding w).headD through
  else if (c.freeSlots w).contains through then through else (c.freeHolding w).headD through

/-- What an arrival does to one entry: it is marked seen, then fires, holds the tile or is missed. The second component says that a
missed or armed entry holds the tile; an entry that is missed has no slot for the tiles still to be asked for (log entry 51). -/
def Core.meet (c : Core) (h : Word) (room : Bool) (j : Nat) : Core :=
  let w := hdrFam h
  let m := setSeen (c.entry j) w
  let c := c.setEntry j m
  if c.queued j then c
  else match c.residentAt (!w) (mTag m (!w)) with
  | some other => { c with firings := c.firings ++ [firing j w 8 other] }
  | none =>
    if mState m ≠ 1 then c
    else if !mSeen m (!w) then
      (if mHold m ≠ 0 ∧ room then c.setEntry j (setFld (setHeld m w true) 39 32 (mHold m)) else c)
    else
      let n := setSlot (setSlot (setFld (setMState (setHeld m (!w) false) 3) 39 32 0) false 15) true 15
      c.setEntry j (if room then setHeld n w true else n)

/-- The budgets of the tiles of the other family (R209): entries that this tile does not fire. A tile held without a budget has LEFT 0 (R211). -/
def Core.spend (c : Core) (w : Bool) (fired : List Nat) (j : Nat) : Core :=
  let m := c.entry j
  if mLeft m ≠ 0 ∧ mHeld m w ∧ !fired.contains j then
    (if mLeft m ≤ 1 then c.setEntry j (setHeld (setFld m 39 32 0) w false) else c.setEntry j (setFld m 39 32 (mLeft m - 1)))
  else c

/-- ARRIVE: the core after a tile with header h, which stands in the slot answered. -/
def Core.arrive (c : Core) (h : Word) (now : Nat) : Nat × Core :=
  let w := hdrFam h
  let room := c.freeHolding w != []
  let js := (List.range 64).filter (c.matching h)
  let before := c.firings.length
  let d := js.foldl (fun c j => c.meet h room j) c
  let held := js.any (fun j => mHeld (d.entry j) w && !mHeld (c.entry j) w)
  let slot := c.arrivalSlot w held
  let fired := (d.firings.drop before).map (·.1)
  let d : Core := { d with firings := d.firings.map (fun (f : Nat × Nat × Nat) =>
    (f.1, if f.2.1 = 8 then slot else f.2.1, if f.2.2 = 8 then slot else f.2.2)) }
  let d := js.foldl (fun d j => if mHeld (d.entry j) w ∧ !mHeld (c.entry j) w then d.setEntry j (setSlot (d.entry j) w slot) else d) d
  let d := (List.range 64).foldl (fun d j => d.spend (!w) fired j) d
  let back := decide (hdrHops h = c.ringSize)
  let h := if back then setFld (setFld h 49 44 0) 55 50 (hdrLaps h - 1) else h
  let d := (d.setSlotState slot (if held then 2 else 1)).settleHolds
  (slot, { d with ringHdr := put d.ringHdr slot h
                  oppositeAt := if w then (d.oppositeAt.1, now) else (now, d.oppositeAt.2) })

/-- A matching tile of another format cancels the operation (R208). -/
def Core.wrongFormat (c : Core) (h : Word) : Bool := (List.range 64).any (fun j => c.matching h j && mFmt (c.entry j) != hdrFmt h)

/-- RING_TILE_ARRIVAL. -/
def execRingTileArrival (id : Nat) (s : State) : Out :=
  match s.item id with
  | some (.ringTile t) =>
    match s.ringAt t.region t.ring with
    | none => .next (s.dropItem id)
    | some r =>
      let p := r.members.getD t.member r.origin
      let c := s.getCore p
      let done := (s.dropItem id).landTile r t
      if !((s.getRouter (t.from_ r)).lane ((s.getCore (t.from_ r)).ringPort (hdrFam t.header)) (hdrFam t.header).toNat).landed then .next s
      else if hdrOp t.header ≠ c.opnum then .next done
      else if c.wrongFormat t.header then event (s.canCancel r 3) s (done.cancelRing t.region r 3)
      else
        let d := c.arrive t.header s.tsc.toNat
        event (c.freeSlots (hdrFam t.header) != []) s
          ((done.poke (localKey p (slotBase d.1)) t.payload).putCore d.2)
  | _ => .next s

/-- Whether the firings that read a slot are over and nothing holds its tile. -/
def Core.slotIdle (c : Core) (i : Nat) : Bool := c.slotState i == 1 && !c.firings.any (fun f => f.2.1 == i || f.2.2 == i)
/-- The member a family's tiles go to (R201). -/
def Core.nextMember (c : Core) (w : Bool) : Nat := (c.memberIndex + (if w then c.ringSize - 1 else 1)) % c.ringSize
/-- RING_TILE_FORWARD: a tile whose laps are over is absorbed; any other departs when the next member grants a credit (R205, R206). -/
def State.forwardTile (s : State) (r : Ring) (p : Psn) (i : Nat) : State :=
  let c := s.getCore p
  let h := at_ c.ringHdr i 0
  let t : RingTile := { header := setFld h 49 44 (hdrHops h + 1), payload := s.slotPayload p i, region := psnRegion p, ring := r.number
                        member := c.nextMember (hdrFam h) }
  ((s.carry p (c.ringPort (hdrFam h)) (hdrFam h).toNat tileTransfers).putCore (c.clearSlot i)).launchItem (.ringTile t)
def execRingTileForward (core : Psn) (slot : Nat) (s : State) : Out :=
  let c := s.getCore core
  if !isGridCore core ∨ 8 ≤ slot then .fault .noSuchUnit
  else match s.ringOf c with
  | none => .next s
  | some r =>
    let h := at_ c.ringHdr slot 0
    let next := r.members.getD (c.nextMember (hdrFam h)) r.origin
    if hdrLaps h = 0 then event (c.slotIdle slot) s (s.putCore (c.clearSlot slot))
    else event (c.slotIdle slot && r.formed && s.laneOpen core (c.ringPort (hdrFam h)) (hdrFam h).toNat tileTransfers &&
        decide (s.tilesTo (psnRegion core) r.number (c.nextMember (hdrFam h)) (hdrFam h) < ((s.getCore next).freeSlots (hdrFam h)).length)) s
      (s.forwardTile r core slot)

/-! Firings (R210). -/

/-- Relit copies that no firing and no waiting entry needs are discarded (R390). -/
def Core.dropCopies (c : Core) : Core :=
  (List.range 8).foldl (fun c i =>
    let w := decide (4 ≤ i)
    let needed := (List.range 64).any (fun j =>
      let m := c.entry j
      (mState m == 3 || mState m == 4) && mSlot m w == i)
    if c.slotState i = 3 ∧ c.ringCome.getLsbD i ∧ !needed ∧ !c.firings.any (fun f => f.2.1 == i || f.2.2 == i) then c.clearSlot i else c) c
/-- RING_FIRING: the oldest queued firing, once the member has sealed. -/
def State.fire (s : State) (p : Psn) : State :=
  let c := s.getCore p
  match c.firings with
  | [] => s
  | f :: rest =>
    let m := c.entry f.1
    let k := ringK (mFmt m)
    let rows (i : Nat) : List (List Fp) := tileRows (mFmt m) k (s.slotPayload p i)
    let acc := (at_ c.acc (mAcc m) Acc.zero).addProduct (rows f.2.1) (rows f.2.2)
    let d : Core := { (c.setEntry f.1 (setMState (setHeld (setHeld m false false) true false) 2)) with
      firings := rest, acc := put c.acc (mAcc m) acc }
    (s.putCore (d.settleHolds.dropCopies)).launchItem (.done (psnRegion p) c.ringNumber (BitVec.ofNat 7 c.opnum))
def execRingFiring (core : Psn) (s : State) : Out :=
  let c := s.getCore core
  event (c.firings != [] && c.sealed && c.isMember) s (s.fire core)

/-! Relights (R211, R213, R390). -/

/-- The families of a missed entry whose request is still to be sent: those it neither holds nor has asked for. -/
def Match.unasked (m : Match) : List Bool := [false, true].filter (fun w => !mHeld m w && mSlot m w == 15)
/-- RELIGHT_REQUEST_SEND: a request goes out for each such family with a free holding slot; after the last one the relight is outstanding. -/
def State.sendRelights (s : State) (r : Ring) (p : Psn) (j : Nat) : State :=
  let now := (Match.unasked ((s.getCore p).entry j)).filter (fun w => (s.reservable (s.getCore p) w).isSome)
  let s := now.foldl (fun s w => s.askRelight r p j w ((s.reservable (s.getCore p) w).getD 0)) s
  s.modCore p (fun c => if Match.unasked (c.entry j) = [] then c.setEntry j (setMState (c.entry j) 4) else c)
def execRelightRequestSend (core : Psn) (entry : Nat) (s : State) : Out :=
  let c := s.getCore core
  if !isGridCore core ∨ 64 ≤ entry then .fault .noSuchUnit
  else match s.ringOf c with
  | none => .next s
  | some r => event (mState (c.entry entry) == 3 && !c.queued entry) s (s.sendRelights r core entry)

/-- RELIGHT_REQUEST_SERVE: the injector's home tile reads the source and sends the copy; without a record the operation is cancelled. -/
def State.serveRelight (s : State) (id : Nat) (p inj : Psn) (r : Word) (tile : Psn) (slot : Nat) : State :=
  let c := s.getCore inj
  ((s.dropItem id).tileRead tile (recSrc r % 2 ^ 19) 2048).launchItem (.relit p slot (makeHdr (recFam r) (recOp r) (recLaps r) (recFmt r) (recTag r) c.name)
    (s.bytes (tileKey tile (recSrc r % 2 ^ 19)) 2048))
def execRelightRequestServe (id : Nat) (s : State) : Out :=
  match s.item id with
  | some (.relight p fam tag opnum injector slot) =>
    let region := psnRegion p
    match s.ringOf (s.getCore p) with
    | none => .next (s.dropItem id)
    | some ring =>
      if (s.getCore p).opnum ≠ opnum.toNat then .next (s.dropItem id)
      else
        let found := (s.holder region injector).bind (fun q =>
          ((s.getCore q).inject.toList.find? (fun r => recLive r && recFam r == fam && recTag r == tag.toNat && recOp r == opnum.toNat)).bind (fun r =>
            (s.homeTile (s.getCore q)).map (fun t => (q, r, t))))
        match found with
        | some (q, r, t) => event (s.canReadTile t (recSrc r % 2 ^ 19) 2048) s (s.serveRelight id p q r t slot)
        | none => event (s.canCancel ring 4) s ((s.dropItem id).cancelRing region ring 4)
  | _ => .next s

/-- The entries that a relit copy fires, in ascending order (R213). -/
def Core.relitFires (c : Core) (h : Word) (slot : Nat) : Core :=
  let w := hdrFam h
  let js := (List.range 64).filter (fun j => c.matching h j && mState (c.entry j) != 1 && !c.queued j)
  js.foldl (fun c j => match c.residentAt (!w) (mTag (c.entry j) (!w)) with
    | some other => { c with firings := c.firings ++ [firing j w slot other] }
    | none => c) c
/-- RELIT_COPY_ARRIVAL: into its reserved slot, where it fires, waits for its partner, or is discarded when its entry needs it no more. -/
def execRelitCopyArrival (id : Nat) (s : State) : Out :=
  match s.item id with
  | some (.relit p slot h payload) =>
    let c := s.getCore p
    if hdrOp h ≠ c.opnum ∨ c.slotState slot ≠ 3 ∨ c.ringCome.getLsbD slot then .next (s.dropItem id)
    else if c.wrongFormat h then match s.ringOf c with
      | some r => event (s.canCancel r 3) s ((s.dropItem id).cancelRing (psnRegion p) r 3)
      | none => .next (s.dropItem id)
    else
      let s := (s.dropItem id).fillSlot p slot 3 h payload
      .next (s.modCore p (fun c => (({ c with ringCome := c.ringCome ||| BitVec.ofNat 8 (2 ^ slot) } : Core).relitFires h slot).dropCopies))
  | _ => .next s

/-! Seals, posts and completion (R214 to R216). -/

/-- The members whose register shows the origin's operation. -/
def State.modCurrent (s : State) (r : Ring) (f : Core → Core) : State :=
  let n := (s.getCore r.origin).opnum
  s.modMembers r (fun c => if c.opnum = n then f c else c)
/-- When SEALS = N and DONE = EXPECT the origin sends a completion to each member. -/
def State.completeCheck (s : State) (r : Ring) : State :=
  let w := (s.getCore r.origin).ringOp
  if opSeals w = r.members.length ∧ opDone w = opExpect w then r.members.foldl (fun s p => s.launchItem (.completion p)) s else s
/-- RING_SEAL_POST: a seal of the next operation waits until the origin has taken the completion of this one. -/
def execRingSealPost (id : Nat) (s : State) : Out :=
  match s.item id with
  | some (.seal region n _ count) =>
    match s.ringAt region n with
    | none => .next (s.dropItem id)
    | some r =>
      let w := (s.getCore r.origin).ringOp
      let t := ((s.dropItem id).modCurrent r (setOpState 1)).modCore r.origin (fun c =>
        { c with ringOp := setFld (setFld c.ringOp 54 49 (opSeals w + 1)) 48 37 (opExpect w + count) })
      event (opSeals w != r.members.length) s (t.completeCheck r)
  | _ => .next s
/-- RING_DONE_POST; a post of the next operation waits until the origin has taken the completion of this one; the post of an operation that has been
cancelled counts nothing. -/
def execRingDonePost (id : Nat) (s : State) : Out :=
  match s.item id with
  | some (.done region n opnum) =>
    match s.ringAt region n with
    | none => .next (s.dropItem id)
    | some r =>
      let c := s.getCore r.origin
      if opnum.toNat = (c.opnum + 1) % 128 then .next s
      else if c.opnum ≠ opnum.toNat then .next (s.dropItem id)
      else .next (((s.dropItem id).modCore r.origin (fun c => { c with ringOp := setFld c.ringOp 36 25 (opDone c.ringOp + 1) })).completeCheck r)
  | _ => .next s
/-- RING_COMPLETION (R216). Tiles still resident pass on and are absorbed where they next arrive; relit copies are discarded. -/
def Core.complete (c : Core) (state : Nat) : Core :=
  let d : Core := { ((c.addQ 49 1).releaseRing) with matches_ := Vector.replicate 64 0, inject := Vector.replicate 16 0, firings := [] }
  let d := (List.range 8).foldl (fun d i => if d.slotState i = 3 then d.clearSlot i else d) d.settleHolds
  d.nextOp state (opCancels c.ringOp)
def execRingCompletion (id : Nat) (s : State) : Out :=
  match s.item id with
  | some (.completion p) =>
    let c := s.getCore p
    match s.ringOf c with
    | none => .next (s.dropItem id)
    | some r =>
      let o := s.getCore r.origin
      let state := if o.psn ≠ p ∧ o.opnum = (c.opnum + 1) % 128 then o.ringState else 0
      .next ((s.dropItem id).modCore p (·.complete state))
  | _ => .next s

/-! Cancellation and re-run (R217 to R219). -/

/-- Whether a cause of a cancellation stands: a lease that has waited 10,000,000 ticks, a graph that halts, a tile of the wrong format on its
way, a request that no record answers. -/
def State.cancelDue (s : State) (region : Nat) (r : Ring) (reason : Nat) : Bool :=
  !s.ringCompleting r && match reason with
  | 1 => s.ringOpen r && r.leaseAt.any (fun t => decide (t + 10000000 ≤ s.tsc.toNat))
  | 2 => s.ringBegun r && (s.getCore r.origin).ringState != 3 && (s.graphOf region r.ctx).any (fun g => g.stat == 2)
  | 3 => s.flight.any (fun i => match i.body with
      | .ringTile t => t.region == region && t.ring == r.number && ((fun c => hdrOp t.header == c.opnum && c.wrongFormat t.header)
          (s.getCore (r.members.getD t.member r.origin)))
      | .relit p _ h _ => r.members.contains p && hdrOp h == (s.getCore p).opnum && (s.getCore p).wrongFormat h
      | _ => false)
  | 4 => s.flight.any (fun i => match i.body with
      | .relight p fam tag opnum injector _ => r.members.contains p && (s.getCore p).opnum == opnum.toNat &&
          !((s.holder region injector).any (fun q => (s.getCore q).inject.toList.any (fun w =>
            recLive w && recFam w == fam && recTag w == tag.toNat && recOp w == opnum.toNat)))
      | _ => false)
  | _ => false
def State.cancelEvent (s : State) (region ring reason : Nat) : Out :=
  match s.ringAt region ring with
  | some r => event (s.cancelDue region r reason && s.canCancel r reason) s (s.cancelRing region r reason)
  | none => .next s
def execRingCancel (region ring reason : Nat) (s : State) : Out := s.cancelEvent region ring reason
def execRingLeaseTimeout (region ring : Nat) (s : State) : Out := s.cancelEvent region ring 1
/-- RING_RERUN: the start, then the injections as slots come free. -/
def execRingRerun (region ring : Nat) (s : State) : Out :=
  match s.ringAt region ring with
  | none => .next s
  | some r =>
    if s.canRerun region r then .next (s.startRerun r)
    else match r.members.find? (fun p => (s.nextReinject (s.getCore p)).isSome) with
    | some p => event (s.canReinject p) s (s.injectAgain p)
    | none => .next s
/-- RING_IDLE_RELEASE (R220): armed entries let go of the tiles of a family. -/
def execRingIdleRelease (core : Psn) (widdershins : Bool) (s : State) : Out :=
  let c := s.getCore core
  let last := if widdershins then c.oppositeAt.1 else c.oppositeAt.2
  let d := (List.range 64).foldl (fun c j => if mState (c.entry j) = 1 then (if mHeld (c.entry j) widdershins then c.setEntry j (setFld (setHeld (c.entry j) widdershins false) 39 32 0) else c) else c) c
  if !isGridCore core then .fault .noSuchUnit
  else event (decide (last + (s.getRegion (psnRegion core)).ringIdle.toNat ≤ s.tsc.toNat)) s (s.putCore d.settleHolds)

/-- RING_OP_REPLY: the origin's RING_OP reaches its register (R393). -/
def execRingOpReply (id : Nat) (s : State) : Out :=
  match s.item id with
  | some (.ringOp p n value) =>
    .next ((s.dropItem id).modCore p (fun c => if c.awaits (.g n) id then (c.setG n value).settled (.g n) id else c))
  | _ => .next s

end Sys2Proof.Machine
end

