-- ==== Sys2Proof/Machine/Trans.lean ====
section
/-! DEFINITION. The transcendental vector functions (13 R354): each result is the exact mathematical value rounded once. The value is
computed in fixed point with 700 fractional bits, far below any rounding boundary of a 24-bit format (log entry 12). -/
namespace Sys2Proof.Machine
open Sys2Proof

/-- The fractional bits of the fixed-point values below. -/
def fixBits : Nat := 700
def fixOne : Nat := 2 ^ fixBits

/-- π × 2^860 and ln 2 × 2^760, rounded down. -/
def piFix : Nat :=
  0x3243f6a8885a308d313198a2e03707344a4093822299f31d0082efa98ec4e6c89452821e638d01377be5466cf34e90c6cc0ac29b7c97c50dd3f84d5b5b54709179216d5d98979fb1bd1310ba698dfb5ac2ffd72dbd01adfb7b8e1afed6a267e96ba7c9045f12c7f9924a1994
def ln2Fix : Nat :=
  0xb17217f7d1cf79abc9e3b39803f2f6af40f343267298b62d8a0d175b8baafa2be7b876206debac98559552fb4afa1b10ed2eae35c138214427573b291169b8253e96ca16224ae8c51acbda11317c387eb9ea9bc3b136603b256fa0ec7657f7

def fixMul (a b : Nat) : Nat := a * b / fixOne

/-- 1 + r/j (1 + r/(j + 1) (1 + …)), n factors deep: the exponential series from its j-th term on. -/
def expTail (r n j : Nat) : Nat :=
  match n with
  | 0 => fixOne
  | k + 1 => fixOne + fixMul r (expTail r k (j + 1)) / j
/-- e^r for 0 ≤ r < 1. -/
def fixExp (r : Nat) : Nat := expTail r 150 1
/-- 1 − r²/(j(j + 1)) (1 − r²/((j + 2)(j + 3)) …): the sine and cosine series, `q` the square of r. -/
def waveTail (q n j : Nat) : Nat :=
  match n with
  | 0 => fixOne
  | k + 1 => fixOne - fixMul q (waveTail q k (j + 2)) / (j * (j + 1))
/-- sin r and cos r for 0 ≤ r < π/2. -/
def fixSin (r : Nat) : Nat := fixMul r (waveTail (fixMul r r) 90 2)
def fixCos (r : Nat) : Nat := waveTail (fixMul r r) 90 1
/-- y + y³/3 + y⁵/5 + …, from the term 1/j on. -/
def atanhTail (q n j : Nat) : Nat :=
  match n with
  | 0 => 0
  | k + 1 => fixOne / j + fixMul q (atanhTail q k (j + 2))
/-- ln v for 1 ≤ v < 2. -/
def fixLog (v : Nat) : Nat :=
  let y := (v - fixOne) * fixOne / (v + fixOne)
  2 * fixMul y (atanhTail (fixMul y y) 225 1)

/-- ln 2 at 700 fractional bits. -/
def ln2Short : Nat := ln2Fix / 2 ^ 60

/-- A magnitude m × 2^e in fixed point, rounded down. -/
def toFix (m : Nat) (e : Int) : Nat := if 0 ≤ e + fixBits then m * 2 ^ (e + fixBits).toNat else m / 2 ^ (-(e + fixBits)).toNat
/-- A fixed-point value that no format represents, rounded once. -/
def fromFix (t : TyCode) (rm : BitVec 2) (neg : Bool) (v : Nat) (e : Int) : Nat := roundTo t rm neg v (e - fixBits) true

/-- 1/√a: the exact special values, then the root of 2^240 / m. -/
def rsqrtTo (t : TyCode) (rm : BitVec 2) (a : Fp) : Nat :=
  match a with
  | .nan => qnan t
  | .inf s => if s then qnan t else zeroBits t false
  | .fin s m e =>
    if m = 0 then infBits t s
    else if s then qnan t
    else
      let m' := if e % 2 = 0 then m else 2 * m
      let e' := if e % 2 = 0 then e else e - 1
      let r := isqrt (2 ^ 240 / m')
      roundTo t rm false r (-120 - e' / 2) (decide (m' * r * r ≠ 2 ^ 240))

/-- 2^a. An argument beyond ±2,000 overflows or underflows every format as ±2,000 does. -/
def exp2To (t : TyCode) (rm : BitVec 2) (a : Fp) : Nat :=
  match a with
  | .nan => qnan t
  | .inf s => if s then zeroBits t false else infBits t false
  | .fin s m e =>
    let mag := if 2000 * fixOne < toFix m (min e 20) ∨ 20 < e then 2000 * fixOne else toFix m e
    let whole : Int := if s then -((mag + fixOne - 1) / fixOne : Nat) else (mag / fixOne : Nat)
    let part := if s then ((mag + fixOne - 1) / fixOne) * fixOne - mag else mag % fixOne
    if part = 0 then roundTo t rm false 1 whole false
    else fromFix t rm false (fixExp (part * ln2Short / fixOne)) whole

/-- log2 a: a power of two gives its exponent exactly. -/
def log2To (t : TyCode) (rm : BitVec 2) (a : Fp) : Nat :=
  match a with
  | .nan => qnan t
  | .inf s => if s then qnan t else infBits t false
  | .fin s m e =>
    if m = 0 then infBits t true
    else if s then qnan t
    else
      let k := m.log2
      let whole : Int := e + k
      if m = 2 ^ k then encodeFp t rm (fpOfInt whole)
      else
        let frac := fixLog (m * 2 ^ (fixBits - k)) * fixOne / ln2Short
        let v : Int := whole * fixOne + frac
        fromFix t rm (decide (v < 0)) (if v < 0 then v.natAbs - 1 else v.natAbs) 0

/-- The quadrant of a magnitude and its remainder over π/2. -/
def quadrant (m : Nat) (e : Int) : Nat × Nat :=
  let x := m * 2 ^ (e + 860).toNat
  let half := piFix / 2
  (x / half % 4, x % half / 2 ^ 160)
/-- sin or cos of a magnitude: the sign and the value, by quadrant (R354). -/
def waveAt (m : Nat) (e : Int) (shift : Nat) : Bool × Nat :=
  let r := quadrant m e
  match (r.1 + shift) % 4 with
  | 0 => (false, fixSin r.2)
  | 1 => (false, fixCos r.2)
  | 2 => (true, fixSin r.2)
  | _ => (true, fixCos r.2)
def sinTo (t : TyCode) (rm : BitVec 2) (a : Fp) : Nat :=
  match a with
  | .nan | .inf _ => qnan t
  | .fin s m e =>
    if m = 0 then zeroBits t s
    else
      let w := waveAt m e 0
      fromFix t rm (s != w.1) w.2 0
def cosTo (t : TyCode) (rm : BitVec 2) (a : Fp) : Nat :=
  match a with
  | .nan | .inf _ => qnan t
  | .fin _ m e =>
    if m = 0 then encodeFp t rm (fpOfInt 1)
    else
      let w := waveAt m e 1
      fromFix t rm w.1 w.2 0

/-- tanh a = (1 − e^(−2a)) / (1 + e^(−2a)); a magnitude beyond 200 rounds as 200 does. -/
def tanhTo (t : TyCode) (rm : BitVec 2) (a : Fp) : Nat :=
  match a with
  | .nan => qnan t
  | .inf s => encodeFp t rm (fpOfInt (if s then -1 else 1))
  | .fin s m e =>
    if m = 0 then zeroBits t s
    else
      let x := if 8 ≤ e then 200 * fixOne else min (toFix m e) (200 * fixOne)
      let k := 2 * x / ln2Short + 1
      let u := fixExp (k * ln2Short - 2 * x) / 2 ^ k
      fromFix t rm s ((fixOne - u) * fixOne / (fixOne + u)) 0

def vrcpOf (t : TyCode) (rm : BitVec 2) (_ : Bool) (a : Nat) : Nat := divTo t rm (fpOfInt 1) (fpOf t a)
def vrsqrtOf (t : TyCode) (rm : BitVec 2) (_ : Bool) (a : Nat) : Nat := rsqrtTo t rm (fpOf t a)
def vexp2Of (t : TyCode) (rm : BitVec 2) (_ : Bool) (a : Nat) : Nat := exp2To t rm (fpOf t a)
def vlog2Of (t : TyCode) (rm : BitVec 2) (_ : Bool) (a : Nat) : Nat := log2To t rm (fpOf t a)
def vsinOf (t : TyCode) (rm : BitVec 2) (_ : Bool) (a : Nat) : Nat := sinTo t rm (fpOf t a)
def vcosOf (t : TyCode) (rm : BitVec 2) (_ : Bool) (a : Nat) : Nat := cosTo t rm (fpOf t a)
def vtanhOf (t : TyCode) (rm : BitVec 2) (_ : Bool) (a : Nat) : Nat := tanhTo t rm (fpOf t a)

def execVrcp (x : Long) (s : State) : Out := issueL Shape.vrcp x (x.vec1 vrcpOf) s
def execVrsqrt (x : Long) (s : State) : Out := issueL Shape.vrsqrt x (x.vec1 vrsqrtOf) s
def execVexp2 (x : Long) (s : State) : Out := issueL Shape.vexp2 x (x.vec1 vexp2Of) s
def execVlog2 (x : Long) (s : State) : Out := issueL Shape.vlog2 x (x.vec1 vlog2Of) s
def execVsin (x : Long) (s : State) : Out := issueL Shape.vsin x (x.vec1 vsinOf) s
def execVcos (x : Long) (s : State) : Out := issueL Shape.vcos x (x.vec1 vcosOf) s
def execVtanh (x : Long) (s : State) : Out := issueL Shape.vtanh x (x.vec1 vtanhOf) s

end Sys2Proof.Machine
end

