-- ==== Sys2Proof/Machine/Dispatch.lean ====
section
/-! DEFINITION. The one dispatch: an arm per constructor of Instr, each a direct call of its meaning. -/
namespace Sys2Proof.Machine
open Sys2Proof

def exec (i : Instr) (s : State) : Host.Outcome State Fault Refusal :=
  match i with
  | .add x => Sys2Proof.Machine.execAdd x s
  | .addL32A x => Sys2Proof.Machine.execAddL32A x s
  | .addI64L32B x => Sys2Proof.Machine.execAddI64L32B x s
  | .addI32L32B x => Sys2Proof.Machine.execAddI32L32B x s
  | .addc x => Sys2Proof.Machine.execAddc x s
  | .addcL32A x => Sys2Proof.Machine.execAddcL32A x s
  | .sub x => Sys2Proof.Machine.execSub x s
  | .subL32A x => Sys2Proof.Machine.execSubL32A x s
  | .subb x => Sys2Proof.Machine.execSubb x s
  | .subbL32A x => Sys2Proof.Machine.execSubbL32A x s
  | .mul x => Sys2Proof.Machine.execMul x s
  | .mulL32A x => Sys2Proof.Machine.execMulL32A x s
  | .mulI64L32B x => Sys2Proof.Machine.execMulI64L32B x s
  | .mulI32L32B x => Sys2Proof.Machine.execMulI32L32B x s
  | .mulh x => Sys2Proof.Machine.execMulh x s
  | .mulhL32A x => Sys2Proof.Machine.execMulhL32A x s
  | .mulhn x => Sys2Proof.Machine.execMulhn x s
  | .mulhnL32A x => Sys2Proof.Machine.execMulhnL32A x s
  | .div x => Sys2Proof.Machine.execDiv x s
  | .divL32A x => Sys2Proof.Machine.execDivL32A x s
  | .divn x => Sys2Proof.Machine.execDivn x s
  | .divnL32A x => Sys2Proof.Machine.execDivnL32A x s
  | .rem x => Sys2Proof.Machine.execRem x s
  | .remL32A x => Sys2Proof.Machine.execRemL32A x s
  | .remn x => Sys2Proof.Machine.execRemn x s
  | .remnL32A x => Sys2Proof.Machine.execRemnL32A x s
  | .and x => Sys2Proof.Machine.execAnd x s
  | .andL32A x => Sys2Proof.Machine.execAndL32A x s
  | .andN64L32B x => Sys2Proof.Machine.execAndN64L32B x s
  | .andn x => Sys2Proof.Machine.execAndn x s
  | .andnL32A x => Sys2Proof.Machine.execAndnL32A x s
  | .andnN64L32B x => Sys2Proof.Machine.execAndnN64L32B x s
  | .or x => Sys2Proof.Machine.execOr x s
  | .orL32A x => Sys2Proof.Machine.execOrL32A x s
  | .orN64L32B x => Sys2Proof.Machine.execOrN64L32B x s
  | .xor x => Sys2Proof.Machine.execXor x s
  | .xorL32A x => Sys2Proof.Machine.execXorL32A x s
  | .xorN64L32B x => Sys2Proof.Machine.execXorN64L32B x s
  | .shl x => Sys2Proof.Machine.execShl x s
  | .shlL32A x => Sys2Proof.Machine.execShlL32A x s
  | .shlN64L32B x => Sys2Proof.Machine.execShlN64L32B x s
  | .shr x => Sys2Proof.Machine.execShr x s
  | .shrL32A x => Sys2Proof.Machine.execShrL32A x s
  | .shrN64L32B x => Sys2Proof.Machine.execShrN64L32B x s
  | .sha x => Sys2Proof.Machine.execSha x s
  | .shaL32A x => Sys2Proof.Machine.execShaL32A x s
  | .shaI64L32B x => Sys2Proof.Machine.execShaI64L32B x s
  | .rol x => Sys2Proof.Machine.execRol x s
  | .rolL32A x => Sys2Proof.Machine.execRolL32A x s
  | .rotr x => Sys2Proof.Machine.execRotr x s
  | .rotrL32A x => Sys2Proof.Machine.execRotrL32A x s
  | .rotrN64L32B x => Sys2Proof.Machine.execRotrN64L32B x s
  | .clz x => Sys2Proof.Machine.execClz x s
  | .clzL32A x => Sys2Proof.Machine.execClzL32A x s
  | .ctz x => Sys2Proof.Machine.execCtz x s
  | .ctzL32A x => Sys2Proof.Machine.execCtzL32A x s
  | .popc x => Sys2Proof.Machine.execPopc x s
  | .popcL32A x => Sys2Proof.Machine.execPopcL32A x s
  | .brev x => Sys2Proof.Machine.execBrev x s
  | .brevL32A x => Sys2Proof.Machine.execBrevL32A x s
  | .bswap x => Sys2Proof.Machine.execBswap x s
  | .bswapL32A x => Sys2Proof.Machine.execBswapL32A x s
  | .min x => Sys2Proof.Machine.execMin x s
  | .minL32A x => Sys2Proof.Machine.execMinL32A x s
  | .minI64L32B x => Sys2Proof.Machine.execMinI64L32B x s
  | .max x => Sys2Proof.Machine.execMax x s
  | .maxL32A x => Sys2Proof.Machine.execMaxL32A x s
  | .maxI64L32B x => Sys2Proof.Machine.execMaxI64L32B x s
  | .minn x => Sys2Proof.Machine.execMinn x s
  | .minnL32A x => Sys2Proof.Machine.execMinnL32A x s
  | .minnN64L32B x => Sys2Proof.Machine.execMinnN64L32B x s
  | .maxn x => Sys2Proof.Machine.execMaxn x s
  | .maxnL32A x => Sys2Proof.Machine.execMaxnL32A x s
  | .maxnN64L32B x => Sys2Proof.Machine.execMaxnN64L32B x s
  | .abs x => Sys2Proof.Machine.execAbs x s
  | .absL32A x => Sys2Proof.Machine.execAbsL32A x s
  | .bfx x => Sys2Proof.Machine.execBfx x s
  | .bfxN64L32B x => Sys2Proof.Machine.execBfxN64L32B x s
  | .bfxI64L32B x => Sys2Proof.Machine.execBfxI64L32B x s
  | .bfi x => Sys2Proof.Machine.execBfi x s
  | .sel x => Sys2Proof.Machine.execSel x s
  | .cmp x => Sys2Proof.Machine.execCmp x s
  | .cmpEqI64L32B x => Sys2Proof.Machine.execCmpEqI64L32B x s
  | .cmpNeI64L32B x => Sys2Proof.Machine.execCmpNeI64L32B x s
  | .cmpLtI64L32B x => Sys2Proof.Machine.execCmpLtI64L32B x s
  | .cmpLeI64L32B x => Sys2Proof.Machine.execCmpLeI64L32B x s
  | .cmpGtI64L32B x => Sys2Proof.Machine.execCmpGtI64L32B x s
  | .cmpGeI64L32B x => Sys2Proof.Machine.execCmpGeI64L32B x s
  | .cmpLtN64L32B x => Sys2Proof.Machine.execCmpLtN64L32B x s
  | .cmpLeN64L32B x => Sys2Proof.Machine.execCmpLeN64L32B x s
  | .cmpGtN64L32B x => Sys2Proof.Machine.execCmpGtN64L32B x s
  | .cmpGeN64L32B x => Sys2Proof.Machine.execCmpGeN64L32B x s
  | .mov x => Sys2Proof.Machine.execMov x s
  | .movL32A x => Sys2Proof.Machine.execMovL32A x s
  | .movRelSrcL32B x => Sys2Proof.Machine.execMovRelSrcL32B x s
  | .movRelDstL32B x => Sys2Proof.Machine.execMovRelDstL32B x s
  | .li x => Sys2Proof.Machine.execLi x s
  | .liI64L32B x => Sys2Proof.Machine.execLiI64L32B x s
  | .lih x => Sys2Proof.Machine.execLih x s
  | .lihL32B x => Sys2Proof.Machine.execLihL32B x s
  | .fadd x => Sys2Proof.Machine.execFadd x s
  | .faddL32A x => Sys2Proof.Machine.execFaddL32A x s
  | .fsub x => Sys2Proof.Machine.execFsub x s
  | .fsubL32A x => Sys2Proof.Machine.execFsubL32A x s
  | .fmul x => Sys2Proof.Machine.execFmul x s
  | .fmulL32A x => Sys2Proof.Machine.execFmulL32A x s
  | .ffma x => Sys2Proof.Machine.execFfma x s
  | .ffms x => Sys2Proof.Machine.execFfms x s
  | .fdiv x => Sys2Proof.Machine.execFdiv x s
  | .fdivL32A x => Sys2Proof.Machine.execFdivL32A x s
  | .fsqrt x => Sys2Proof.Machine.execFsqrt x s
  | .fsqrtL32A x => Sys2Proof.Machine.execFsqrtL32A x s
  | .fmin x => Sys2Proof.Machine.execFmin x s
  | .fminL32A x => Sys2Proof.Machine.execFminL32A x s
  | .fmax x => Sys2Proof.Machine.execFmax x s
  | .fmaxL32A x => Sys2Proof.Machine.execFmaxL32A x s
  | .fabs x => Sys2Proof.Machine.execFabs x s
  | .fabsL32A x => Sys2Proof.Machine.execFabsL32A x s
  | .fneg x => Sys2Proof.Machine.execFneg x s
  | .fnegL32A x => Sys2Proof.Machine.execFnegL32A x s
  | .fcpys x => Sys2Proof.Machine.execFcpys x s
  | .fcpysL32A x => Sys2Proof.Machine.execFcpysL32A x s
  | .fcmp x => Sys2Proof.Machine.execFcmp x s
  | .fclass x => Sys2Proof.Machine.execFclass x s
  | .fclassL32A x => Sys2Proof.Machine.execFclassL32A x s
  | .fcvt x => Sys2Proof.Machine.execFcvt x s
  | .fcvti x => Sys2Proof.Machine.execFcvti x s
  | .icvtf x => Sys2Proof.Machine.execIcvtf x s
  | .frnd x => Sys2Proof.Machine.execFrnd x s
  | .frndL32A x => Sys2Proof.Machine.execFrndL32A x s
  | .br x => Sys2Proof.Machine.execBr x s
  | .brL32B x => Sys2Proof.Machine.execBrL32B x s
  | .brNotL32B x => Sys2Proof.Machine.execBrNotL32B x s
  | .jmp x => Sys2Proof.Machine.execJmp x s
  | .jmpL32A x => Sys2Proof.Machine.execJmpL32A x s
  | .jmpi x => Sys2Proof.Machine.execJmpi x s
  | .jmpiL32A x => Sys2Proof.Machine.execJmpiL32A x s
  | .call x => Sys2Proof.Machine.execCall x s
  | .callL32B x => Sys2Proof.Machine.execCallL32B x s
  | .calli x => Sys2Proof.Machine.execCalli x s
  | .calliL32A x => Sys2Proof.Machine.execCalliL32A x s
  | .ret x => Sys2Proof.Machine.execRet x s
  | .retL32A x => Sys2Proof.Machine.execRetL32A x s
  | .loops x => Sys2Proof.Machine.execLoops x s
  | .endI x => Sys2Proof.Machine.execEnd x s
  | .endL32A x => Sys2Proof.Machine.execEndL32A x s
  | .nop x => Sys2Proof.Machine.execNop x s
  | .nopL32A x => Sys2Proof.Machine.execNopL32A x s
  | .gang x => Sys2Proof.Machine.execGang x s
  | .ungang x => Sys2Proof.Machine.execUngang x s
  | .ungangL32A x => Sys2Proof.Machine.execUngangL32A x s
  | .rejoin x => Sys2Proof.Machine.execRejoin x s
  | .rejoinL32A x => Sys2Proof.Machine.execRejoinL32A x s
  | .pand x => Sys2Proof.Machine.execPand x s
  | .pandL32A x => Sys2Proof.Machine.execPandL32A x s
  | .por x => Sys2Proof.Machine.execPor x s
  | .porL32A x => Sys2Proof.Machine.execPorL32A x s
  | .pxor x => Sys2Proof.Machine.execPxor x s
  | .pxorL32A x => Sys2Proof.Machine.execPxorL32A x s
  | .pnot x => Sys2Proof.Machine.execPnot x s
  | .pnotL32A x => Sys2Proof.Machine.execPnotL32A x s
  | .pmov x => Sys2Proof.Machine.execPmov x s
  | .pmovL32A x => Sys2Proof.Machine.execPmovL32A x s
  | .pmovFromG x => Sys2Proof.Machine.execPmovFromG x s
  | .pmovFromGL32A x => Sys2Proof.Machine.execPmovFromGL32A x s
  | .pmovToG x => Sys2Proof.Machine.execPmovToG x s
  | .pmovToGL32A x => Sys2Proof.Machine.execPmovToGL32A x s
  | .pcnt x => Sys2Proof.Machine.execPcnt x s
  | .pcntL32A x => Sys2Proof.Machine.execPcntL32A x s
  | .qinc x => Sys2Proof.Machine.execQinc x s
  | .qincL32A x => Sys2Proof.Machine.execQincL32A x s
  | .qadd x => Sys2Proof.Machine.execQadd x s
  | .qaddL32B x => Sys2Proof.Machine.execQaddL32B x s
  | .qrd x => Sys2Proof.Machine.execQrd x s
  | .qpost x => Sys2Proof.Machine.execQpost x s
  | .waitq x => Sys2Proof.Machine.execWaitq x s
  | .waitb x => Sys2Proof.Machine.execWaitb x s
  | .waitvis x => Sys2Proof.Machine.execWaitvis x s
  | .succhint x => Sys2Proof.Machine.execSucchint x s
  | .succhintL32A x => Sys2Proof.Machine.execSucchintL32A x s
  | .hwaitf x => Sys2Proof.Machine.execHwaitf x s
  | .hwaitfL32B x => Sys2Proof.Machine.execHwaitfL32B x s
  | .hwaite x => Sys2Proof.Machine.execHwaite x s
  | .hwaiteL32B x => Sys2Proof.Machine.execHwaiteL32B x s
  | .hld x => Sys2Proof.Machine.execHld x s
  | .hst x => Sys2Proof.Machine.execHst x s
  | .hadvc x => Sys2Proof.Machine.execHadvc x s
  | .hadvcL32B x => Sys2Proof.Machine.execHadvcL32B x s
  | .hadvp x => Sys2Proof.Machine.execHadvp x s
  | .hadvpL32B x => Sys2Proof.Machine.execHadvpL32B x s
  | .heos x => Sys2Proof.Machine.execHeos x s
  | .hstat x => Sys2Proof.Machine.execHstat x s
  | .hstatL32A x => Sys2Proof.Machine.execHstatL32A x s
  | .send x => Sys2Proof.Machine.execSend x s
  | .sendq x => Sys2Proof.Machine.execSendq x s
  | .cred x => Sys2Proof.Machine.execCred x s
  | .cderive x => Sys2Proof.Machine.execCderive x s
  | .cperm x => Sys2Proof.Machine.execCperm x s
  | .cseal x => Sys2Proof.Machine.execCseal x s
  | .csealL32A x => Sys2Proof.Machine.execCsealL32A x s
  | .cunseal x => Sys2Proof.Machine.execCunseal x s
  | .cunsealL32A x => Sys2Proof.Machine.execCunsealL32A x s
  | .cbase x => Sys2Proof.Machine.execCbase x s
  | .cbaseL32A x => Sys2Proof.Machine.execCbaseL32A x s
  | .clen x => Sys2Proof.Machine.execClen x s
  | .clenL32A x => Sys2Proof.Machine.execClenL32A x s
  | .cperms x => Sys2Proof.Machine.execCperms x s
  | .cpermsL32A x => Sys2Proof.Machine.execCpermsL32A x s
  | .ctype x => Sys2Proof.Machine.execCtype x s
  | .ctypeL32A x => Sys2Proof.Machine.execCtypeL32A x s
  | .ctag x => Sys2Proof.Machine.execCtag x s
  | .ctagL32A x => Sys2Proof.Machine.execCtagL32A x s
  | .cclr x => Sys2Proof.Machine.execCclr x s
  | .cclrL32A x => Sys2Proof.Machine.execCclrL32A x s
  | .cmov x => Sys2Proof.Machine.execCmov x s
  | .cmovL32A x => Sys2Proof.Machine.execCmovL32A x s
  | .cldc x => Sys2Proof.Machine.execCldc x s
  | .cldcL32B x => Sys2Proof.Machine.execCldcL32B x s
  | .cstc x => Sys2Proof.Machine.execCstc x s
  | .cstcL32B x => Sys2Proof.Machine.execCstcL32B x s
  | .cchk x => Sys2Proof.Machine.execCchk x s
  | .trap x => Sys2Proof.Machine.execTrap x s
  | .trapL32B x => Sys2Proof.Machine.execTrapL32B x s
  | .wick x => Sys2Proof.Machine.execWick x s
  | .wickL32A x => Sys2Proof.Machine.execWickL32A x s
  | .wid x => Sys2Proof.Machine.execWid x s
  | .widL32B x => Sys2Proof.Machine.execWidL32B x s
  | .who x => Sys2Proof.Machine.execWho x s
  | .query x => Sys2Proof.Machine.execQuery x s
  | .queryL32A x => Sys2Proof.Machine.execQueryL32A x s
  | .time x => Sys2Proof.Machine.execTime x s
  | .timeL32A x => Sys2Proof.Machine.execTimeL32A x s
  | .timeEnergy x => Sys2Proof.Machine.execTimeEnergy x s
  | .timeEnergyL32A x => Sys2Proof.Machine.execTimeEnergyL32A x s
  | .sysrd x => Sys2Proof.Machine.execSysrd x s
  | .syswr x => Sys2Proof.Machine.execSyswr x s
  | .yield x => Sys2Proof.Machine.execYield x s
  | .yieldL32A x => Sys2Proof.Machine.execYieldL32A x s
  | .gate x => Sys2Proof.Machine.execGate x s
  | .snuff x => Sys2Proof.Machine.execSnuff x s
  | .nameset x => Sys2Proof.Machine.execNameset x s
  | .leaseack x => Sys2Proof.Machine.execLeaseack x s
  | .fresume x => Sys2Proof.Machine.execFresume x s
  | .fresumeValue x => Sys2Proof.Machine.execFresumeValue x s
  | .fkill x => Sys2Proof.Machine.execFkill x s
  | .ld x => Sys2Proof.Machine.execLd x s
  | .ldN64L32B x => Sys2Proof.Machine.execLdN64L32B x s
  | .ldI32L32B x => Sys2Proof.Machine.execLdI32L32B x s
  | .ldN32L32B x => Sys2Proof.Machine.execLdN32L32B x s
  | .ldI16L32B x => Sys2Proof.Machine.execLdI16L32B x s
  | .ldN16L32B x => Sys2Proof.Machine.execLdN16L32B x s
  | .ldI8L32B x => Sys2Proof.Machine.execLdI8L32B x s
  | .ldN8L32B x => Sys2Proof.Machine.execLdN8L32B x s
  | .st x => Sys2Proof.Machine.execSt x s
  | .stN64L32B x => Sys2Proof.Machine.execStN64L32B x s
  | .stN32L32B x => Sys2Proof.Machine.execStN32L32B x s
  | .stN16L32B x => Sys2Proof.Machine.execStN16L32B x s
  | .stN8L32B x => Sys2Proof.Machine.execStN8L32B x s
  | .lda x => Sys2Proof.Machine.execLda x s
  | .stl x => Sys2Proof.Machine.execStl x s
  | .pf x => Sys2Proof.Machine.execPf x s
  | .pfL32B x => Sys2Proof.Machine.execPfL32B x s
  | .aadd x => Sys2Proof.Machine.execAadd x s
  | .amin x => Sys2Proof.Machine.execAmin x s
  | .amax x => Sys2Proof.Machine.execAmax x s
  | .aand x => Sys2Proof.Machine.execAand x s
  | .aor x => Sys2Proof.Machine.execAor x s
  | .axor x => Sys2Proof.Machine.execAxor x s
  | .aswp x => Sys2Proof.Machine.execAswp x s
  | .acas x => Sys2Proof.Machine.execAcas x s
  | .aaddf x => Sys2Proof.Machine.execAaddf x s
  | .fence x => Sys2Proof.Machine.execFence x s
  | .ojoin x => Sys2Proof.Machine.execOjoin x s
  | .cpy x => Sys2Proof.Machine.execCpy x s
  | .cpyHandle x => Sys2Proof.Machine.execCpyHandle x s
  | .cpy4 x => Sys2Proof.Machine.execCpy4 x s
  | .cpyg x => Sys2Proof.Machine.execCpyg x s
  | .batch x => Sys2Proof.Machine.execBatch x s
  | .stcfg x => Sys2Proof.Machine.execStcfg x s
  | .sbufw x => Sys2Proof.Machine.execSbufw x s
  | .sbufset x => Sys2Proof.Machine.execSbufset x s
  | .splice x => Sys2Proof.Machine.execSplice x s
  | .drd x => Sys2Proof.Machine.execDrd x s
  | .dwr x => Sys2Proof.Machine.execDwr x s
  | .dgath x => Sys2Proof.Machine.execDgath x s
  | .flush x => Sys2Proof.Machine.execFlush x s
  | .rowopen x => Sys2Proof.Machine.execRowopen x s
  | .rowhold x => Sys2Proof.Machine.execRowhold x s
  | .rowrel x => Sys2Proof.Machine.execRowrel x s
  | .rowrd x => Sys2Proof.Machine.execRowrd x s
  | .rowrdv x => Sys2Proof.Machine.execRowrdv x s
  | .rowwr x => Sys2Proof.Machine.execRowwr x s
  | .rowstat x => Sys2Proof.Machine.execRowstat x s
  | .scfg x => Sys2Proof.Machine.execScfg x s
  | .sbind x => Sys2Proof.Machine.execSbind x s
  | .sunbind x => Sys2Proof.Machine.execSunbind x s
  | .spredAttach x => Sys2Proof.Machine.execSpredAttach x s
  | .spredRead x => Sys2Proof.Machine.execSpredRead x s
  | .spos x => Sys2Proof.Machine.execSpos x s
  | .vld x => Sys2Proof.Machine.execVld x s
  | .vldL32B x => Sys2Proof.Machine.execVldL32B x s
  | .vst x => Sys2Proof.Machine.execVst x s
  | .vstL32B x => Sys2Proof.Machine.execVstL32B x s
  | .vldg x => Sys2Proof.Machine.execVldg x s
  | .vsts x => Sys2Proof.Machine.execVsts x s
  | .vbcast x => Sys2Proof.Machine.execVbcast x s
  | .vmov x => Sys2Proof.Machine.execVmov x s
  | .vmovmExtract x => Sys2Proof.Machine.execVmovmExtract x s
  | .vmovmInsert x => Sys2Proof.Machine.execVmovmInsert x s
  | .vperm x => Sys2Proof.Machine.execVperm x s
  | .vslide x => Sys2Proof.Machine.execVslide x s
  | .vadd x => Sys2Proof.Machine.execVadd x s
  | .vsub x => Sys2Proof.Machine.execVsub x s
  | .vmul x => Sys2Proof.Machine.execVmul x s
  | .vfma x => Sys2Proof.Machine.execVfma x s
  | .vmin x => Sys2Proof.Machine.execVmin x s
  | .vmax x => Sys2Proof.Machine.execVmax x s
  | .vabs x => Sys2Proof.Machine.execVabs x s
  | .vneg x => Sys2Proof.Machine.execVneg x s
  | .vdiv x => Sys2Proof.Machine.execVdiv x s
  | .vsqrt x => Sys2Proof.Machine.execVsqrt x s
  | .vrcp x => Sys2Proof.Machine.execVrcp x s
  | .vrsqrt x => Sys2Proof.Machine.execVrsqrt x s
  | .vexp2 x => Sys2Proof.Machine.execVexp2 x s
  | .vlog2 x => Sys2Proof.Machine.execVlog2 x s
  | .vsin x => Sys2Proof.Machine.execVsin x s
  | .vcos x => Sys2Proof.Machine.execVcos x s
  | .vtanh x => Sys2Proof.Machine.execVtanh x s
  | .vand x => Sys2Proof.Machine.execVand x s
  | .vor x => Sys2Proof.Machine.execVor x s
  | .vxor x => Sys2Proof.Machine.execVxor x s
  | .vshl x => Sys2Proof.Machine.execVshl x s
  | .vshr x => Sys2Proof.Machine.execVshr x s
  | .vsha x => Sys2Proof.Machine.execVsha x s
  | .vcmp x => Sys2Proof.Machine.execVcmp x s
  | .vsel x => Sys2Proof.Machine.execVsel x s
  | .vcvt x => Sys2Proof.Machine.execVcvt x s
  | .vpack x => Sys2Proof.Machine.execVpack x s
  | .vunpack x => Sys2Proof.Machine.execVunpack x s
  | .vred x => Sys2Proof.Machine.execVred x s
  | .vscan x => Sys2Proof.Machine.execVscan x s
  | .vdot x => Sys2Proof.Machine.execVdot x s
  | .mzero x => Sys2Proof.Machine.execMzero x s
  | .mma x => Sys2Proof.Machine.execMma x s
  | .mmaq x => Sys2Proof.Machine.execMmaq x s
  | .mmad x => Sys2Proof.Machine.execMmad x s
  | .mread x => Sys2Proof.Machine.execMread x s
  | .mreadk x => Sys2Proof.Machine.execMreadk x s
  | .macc x => Sys2Proof.Machine.execMacc x s
  | .maccMov x => Sys2Proof.Machine.execMaccMov x s
  | .mstat x => Sys2Proof.Machine.execMstat x s
  | .mmode x => Sys2Proof.Machine.execMmode x s
  | .rjoin x => Sys2Proof.Machine.execRjoin x s
  | .rleave x => Sys2Proof.Machine.execRleave x s
  | .rmset x => Sys2Proof.Machine.execRmset x s
  | .rmclr x => Sys2Proof.Machine.execRmclr x s
  | .rmclrAll x => Sys2Proof.Machine.execRmclrAll x s
  | .rinj x => Sys2Proof.Machine.execRinj x s
  | .rdrain x => Sys2Proof.Machine.execRdrain x s
  | .rstat x => Sys2Proof.Machine.execRstat x s
  | .relight x => Sys2Proof.Machine.execRelight x s
  | .ctrlRegisterWrite addr data => Sys2Proof.Machine.execCtrlRegisterWrite addr data s
  | .namePrefixWrite region value => Sys2Proof.Machine.execNamePrefixWrite region value s
  | .dirEntryWrite region name => Sys2Proof.Machine.execDirEntryWrite region name s
  | .routerArrival id => Sys2Proof.Machine.execRouterArrival id s
  | .coreMessageAccept id => Sys2Proof.Machine.execCoreMessageAccept id s
  | .lanternFloodBounce id => Sys2Proof.Machine.execLanternFloodBounce id s
  | .bounceReceived id => Sys2Proof.Machine.execBounceReceived id s
  | .tombstoneForward id => Sys2Proof.Machine.execTombstoneForward id s
  | .tombstoneWindowEnd core => Sys2Proof.Machine.execTombstoneWindowEnd core s
  | .l2TlbRequest id => Sys2Proof.Machine.execL2TlbRequest id s
  | .pageWalk walker => Sys2Proof.Machine.execPageWalk walker s
  | .tlbFillReply id => Sys2Proof.Machine.execTlbFillReply id s
  | .tlbInvalPage region value => Sys2Proof.Machine.execTlbInvalPage region value s
  | .tlbInvalContext region value => Sys2Proof.Machine.execTlbInvalContext region value s
  | .tlbInvalAll region value => Sys2Proof.Machine.execTlbInvalAll region value s
  | .tlbInvalComplete region => Sys2Proof.Machine.execTlbInvalComplete region s
  | .spliceCopyComplete region entry => Sys2Proof.Machine.execSpliceCopyComplete region entry s
  | .spliceFinish region entry => Sys2Proof.Machine.execSpliceFinish region entry s
  | .storeTileEvacuation source spare => Sys2Proof.Machine.execStoreTileEvacuation source spare s
  | .goneReply id => Sys2Proof.Machine.execGoneReply id s
  | .ownerFaultReply id => Sys2Proof.Machine.execOwnerFaultReply id s
  | .storeAccess id => Sys2Proof.Machine.execStoreAccess id s
  | .segCfgWrite tile seg value => Sys2Proof.Machine.execSegCfgWrite tile seg value s
  | .segmentReconfigure tile seg => Sys2Proof.Machine.execSegmentReconfigure tile seg s
  | .fifoRetry id => Sys2Proof.Machine.execFifoRetry id s
  | .queueSlotArrival id => Sys2Proof.Machine.execQueueSlotArrival id s
  | .eosMarkArrival id => Sys2Proof.Machine.execEosMarkArrival id s
  | .creditReturn id => Sys2Proof.Machine.execCreditReturn id s
  | .stagingSlotSend core handle => Sys2Proof.Machine.execStagingSlotSend core handle s
  | .copyCommandStart core chan => Sys2Proof.Machine.execCopyCommandStart core chan s
  | .copyBlockWrite core chan => Sys2Proof.Machine.execCopyBlockWrite core chan s
  | .linkAuditStart tile port lane => Sys2Proof.Machine.execLinkAuditStart tile port lane s
  | .linkAuditReply id => Sys2Proof.Machine.execLinkAuditReply id s
  | .flitEccDrop tile port lane => Sys2Proof.Machine.execFlitEccDrop tile port lane s
  | .drdRequest id => Sys2Proof.Machine.execDrdRequest id s
  | .dwrRequest id => Sys2Proof.Machine.execDwrRequest id s
  | .dgathRequest id => Sys2Proof.Machine.execDgathRequest id s
  | .rowopenRequest id => Sys2Proof.Machine.execRowopenRequest id s
  | .rowholdRequest id => Sys2Proof.Machine.execRowholdRequest id s
  | .rowrelRequest id => Sys2Proof.Machine.execRowrelRequest id s
  | .rowrdRequest id => Sys2Proof.Machine.execRowrdRequest id s
  | .rowwrRequest id => Sys2Proof.Machine.execRowwrRequest id s
  | .rowstatRequest id => Sys2Proof.Machine.execRowstatRequest id s
  | .flushRequest id => Sys2Proof.Machine.execFlushRequest id s
  | .atomicRequest id => Sys2Proof.Machine.execAtomicRequest id s
  | .reservedOpRequest id => Sys2Proof.Machine.execReservedOpRequest id s
  | .loadStoreReply id => Sys2Proof.Machine.execLoadStoreReply id s
  | .directWriteArrival id => Sys2Proof.Machine.execDirectWriteArrival id s
  | .rowLeaseExpiry stack lchan slot => Sys2Proof.Machine.execRowLeaseExpiry stack lchan slot s
  | .bankRefresh stack lchan bank => Sys2Proof.Machine.execBankRefresh stack lchan bank s
  | .channelMove stack lchan spare retire => Sys2Proof.Machine.execChannelMove stack lchan spare retire s
  | .entryFire core entry => Sys2Proof.Machine.execEntryFire core entry s
  | .activationStart core => Sys2Proof.Machine.execActivationStart core s
  | .continuationResume core tile record => Sys2Proof.Machine.execContinuationResume core tile record s
  | .runqPromotion core place => Sys2Proof.Machine.execRunqPromotion core place s
  | .notificationArrival id => Sys2Proof.Machine.execNotificationArrival id s
  | .counterPostArrival id => Sys2Proof.Machine.execCounterPostArrival id s
  | .continuationReady tile record => Sys2Proof.Machine.execContinuationReady tile record s
  | .faultedContinuationConvert core => Sys2Proof.Machine.execFaultedContinuationConvert core s
  | .gangMemberJoin core => Sys2Proof.Machine.execGangMemberJoin core s
  | .gangRelay core => Sys2Proof.Machine.execGangRelay core s
  | .ringTileArrival id => Sys2Proof.Machine.execRingTileArrival id s
  | .ringTileForward core slot => Sys2Proof.Machine.execRingTileForward core slot s
  | .ringFiring core => Sys2Proof.Machine.execRingFiring core s
  | .relightRequestSend core entry => Sys2Proof.Machine.execRelightRequestSend core entry s
  | .relightRequestServe id => Sys2Proof.Machine.execRelightRequestServe id s
  | .relitCopyArrival id => Sys2Proof.Machine.execRelitCopyArrival id s
  | .ringSealPost id => Sys2Proof.Machine.execRingSealPost id s
  | .ringDonePost id => Sys2Proof.Machine.execRingDonePost id s
  | .ringCompletion id => Sys2Proof.Machine.execRingCompletion id s
  | .ringCancel region ring reason => Sys2Proof.Machine.execRingCancel region ring reason s
  | .ringLeaseTimeout region ring => Sys2Proof.Machine.execRingLeaseTimeout region ring s
  | .ringRerun region ring => Sys2Proof.Machine.execRingRerun region ring s
  | .ringIdleRelease core widdershins => Sys2Proof.Machine.execRingIdleRelease core widdershins s
  | .streamElementFetch core slot => Sys2Proof.Machine.execStreamElementFetch core slot s
  | .streamPushWrite core slot => Sys2Proof.Machine.execStreamPushWrite core slot s
  | .scoreboardEntryStart core slot => Sys2Proof.Machine.execScoreboardEntryStart core slot s
  | .credResult id => Sys2Proof.Machine.execCredResult id s
  | .credContribution id => Sys2Proof.Machine.execCredContribution id s
  | .queryRequest id => Sys2Proof.Machine.execQueryRequest id s
  | .queryAnswer id => Sys2Proof.Machine.execQueryAnswer id s
  | .graphArming graph => Sys2Proof.Machine.execGraphArming graph s
  | .graphEnd graph => Sys2Proof.Machine.execGraphEnd graph s
  | .successorResident graph => Sys2Proof.Machine.execSuccessorResident graph s
  | .successorCoreArming graph core => Sys2Proof.Machine.execSuccessorCoreArming graph core s
  | .visibilityPost graph predecessor => Sys2Proof.Machine.execVisibilityPost graph predecessor s
  | .governorSample region => Sys2Proof.Machine.execGovernorSample region s
  | .stageCoreRelease tile stage => Sys2Proof.Machine.execStageCoreRelease tile stage s
  | .stageItemDelivery tile stage => Sys2Proof.Machine.execStageItemDelivery tile stage s
  | .moveReq region value => Sys2Proof.Machine.execMoveReq region value s
  | .moveCopy region => Sys2Proof.Machine.execMoveCopy region s
  | .markerRequest id => Sys2Proof.Machine.execMarkerRequest id s
  | .forwardEndMarker id => Sys2Proof.Machine.execForwardEndMarker id s
  | .faultMessageArrival id => Sys2Proof.Machine.execFaultMessageArrival id s
  | .snuffnoteArrival id => Sys2Proof.Machine.execSnuffnoteArrival id s
  | .graphPreempt region value => Sys2Proof.Machine.execGraphPreempt region value s
  | .graphPreemptHalt graph => Sys2Proof.Machine.execGraphPreemptHalt graph s
  | .graphPreemptQuiesce graph core => Sys2Proof.Machine.execGraphPreemptQuiesce graph core s
  | .contextSave graph => Sys2Proof.Machine.execContextSave graph s
  | .graphResume region value => Sys2Proof.Machine.execGraphResume region value s
  | .graphKill region value => Sys2Proof.Machine.execGraphKill region value s
  | .wickExpiry core => Sys2Proof.Machine.execWickExpiry core s
  | .coreSnuffClear core => Sys2Proof.Machine.execCoreSnuffClear core s
  | .hangFreeze region => Sys2Proof.Machine.execHangFreeze region s
  | .leaseReq region value => Sys2Proof.Machine.execLeaseReq region value s
  | .scoreCtlMismatch region => Sys2Proof.Machine.execScoreCtlMismatch region s
  | .scoreCtlRetire region => Sys2Proof.Machine.execScoreCtlRetire region s
  | .scoreHalving => Sys2Proof.Machine.execScoreHalving s
  | .sweepProposal region => Sys2Proof.Machine.execSweepProposal region s
  | .leaseAckTimeout region entry => Sys2Proof.Machine.execLeaseAckTimeout region entry s
  | .leaseDeferExpiry region entry => Sys2Proof.Machine.execLeaseDeferExpiry region entry s
  | .leaseStart region entry => Sys2Proof.Machine.execLeaseStart region entry s
  | .leaseEvacuationDone region entry => Sys2Proof.Machine.execLeaseEvacuationDone region entry s
  | .leaseTestingEnd region entry => Sys2Proof.Machine.execLeaseTestingEnd region entry s
  | .leaseRestoreDone region entry => Sys2Proof.Machine.execLeaseRestoreDone region entry s
  | .retirementCountersigned region entry => Sys2Proof.Machine.execRetirementCountersigned region entry s
  | .rqDoorbell host value => Sys2Proof.Machine.execRqDoorbell host value s
  | .read host => Sys2Proof.Machine.execRead host s
  | .write host => Sys2Proof.Machine.execWrite host s
  | .barrier host => Sys2Proof.Machine.execBarrier host s
  | .barrierForward id => Sys2Proof.Machine.execBarrierForward id s
  | .launch host => Sys2Proof.Machine.execLaunch host s
  | .graph host => Sys2Proof.Machine.execGraph host s
  | .attest host => Sys2Proof.Machine.execAttest host s
  | .keyload host => Sys2Proof.Machine.execKeyload host s
  | .keyclr host => Sys2Proof.Machine.execKeyclr host s
  | .cancel host => Sys2Proof.Machine.execCancel host s
  | .remoteTransferComplete place data tile counter => Sys2Proof.Machine.execRemoteTransferComplete place data tile counter s
  | .powerWindow watts hot => Sys2Proof.Machine.execPowerWindow watts hot s
  | .pwrQuiesce region cluster => Sys2Proof.Machine.execPwrQuiesce region cluster s
  | .clusterQuiesced region cluster => Sys2Proof.Machine.execClusterQuiesced region cluster s
  | .retSave region cluster => Sys2Proof.Machine.execRetSave region cluster s
  | .retentionSaveDone region cluster => Sys2Proof.Machine.execRetentionSaveDone region cluster s
  | .pwrWake region cluster => Sys2Proof.Machine.execPwrWake region cluster s
  | .clusterWakeArrival id => Sys2Proof.Machine.execClusterWakeArrival id s
  | .clusterWakeDone region cluster => Sys2Proof.Machine.execClusterWakeDone region cluster s
  | .railGoodTimeout region cluster => Sys2Proof.Machine.execRailGoodTimeout region cluster s
  | .coldBoot => Sys2Proof.Machine.execColdBoot s
  | .park => Sys2Proof.Machine.execPark s
  | .unpark => Sys2Proof.Machine.execUnpark s
  | .wearHourlyUpdate celsius => Sys2Proof.Machine.execWearHourlyUpdate celsius s
  | .creditCounterParityError tile port lane => Sys2Proof.Machine.execCreditCounterParityError tile port lane s
  | .matrixCompletion core => Sys2Proof.Machine.execMatrixCompletion core s
  | .ringOpReply id => Sys2Proof.Machine.execRingOpReply id s
  | .cqCtlHeadWrite host value => Sys2Proof.Machine.execCqCtlHeadWrite host value s
  | .retirementNoticeExpiry region unit => Sys2Proof.Machine.execRetirementNoticeExpiry region unit s
  | .transferEngineStart port pa length peer remote => Sys2Proof.Machine.execTransferEngineStart port pa length peer remote s
  | .testPatternResult region entry mismatch syndrome => Sys2Proof.Machine.execTestPatternResult region entry mismatch syndrome s

end Sys2Proof.Machine
end

