-- ==== Sys2Proof/Machine/Arbiter.lean ====
section
/-! DEFINITION. Which steps of other agents may be due (log entry 4): the default arbiter goes round them while the core in focus has
nothing to issue. Any other order of steps stands in `schedule`. A step that is listed here without being enabled does nothing. -/
namespace Sys2Proof.Machine
open Sys2Proof

/-- The steps that may be due for a message, by where it stands. -/
noncomputable def Msg.steps (m : Msg) (id : Nat) : List Instr :=
  match m.stage with
  | .router => [.routerArrival id]
  | .local => [.coreMessageAccept id, .tombstoneForward id]
  | .stash => [.coreMessageAccept id]
  | .accepted =>
    if m.handle = 19 then [.notificationArrival id]
    else if m.handle = 30 then [.faultMessageArrival id]
    else if m.handle = 31 then [.counterPostArrival id]
    else if m.eos then [.eosMarkArrival id]
    else [.queueSlotArrival id]
  | .lantern => if m.isFaultMessage then [.faultMessageArrival id] else [.lanternFloodBounce id]
  | .bounced => [.bounceReceived id]

/-- The step of a DRAM request by its code (R110). -/
noncomputable def requestStep (op id : Nat) : Instr :=
  match op with
  | 0 => .drdRequest id
  | 1 => .dwrRequest id
  | 2 => .dgathRequest id
  | 3 => .rowopenRequest id
  | 4 => .rowholdRequest id
  | 5 => .rowrelRequest id
  | 6 => .rowrdRequest id
  | 7 => .rowwrRequest id
  | 8 => .rowstatRequest id
  | 9 => .flushRequest id
  | 10 => .atomicRequest id
  | _ => .reservedOpRequest id

/-- The steps that may be due for an access. -/
noncomputable def Access.steps (a : Access) (id : Nat) : List Instr :=
  match a.stage with
  | .performed => [.loadStoreReply id]
  | .gone => [.goneReply id]
  | .refused => [.ownerFaultReply id]
  | .retry => [.fifoRetry id]
  | _ =>
    match a.owner with
    | .dram pa => [requestStep (a.request pa) id]
    | _ => [.storeAccess id]

/-- The steps that may be due for an item in flight. -/
noncomputable def Item.steps (i : Item) : List Instr :=
  match i.body with
  | .access a => a.steps i.id
  | .command _ _ => []
  | .message m => m.steps i.id
  | .directWrite _ => [.directWriteArrival i.id]
  | .credit _ _ _ => [.creditReturn i.id]
  | .l2Request _ => [.l2TlbRequest i.id]
  | .fill _ _ | .fillFault _ _ _ => [.tlbFillReply i.id]
  | .ringTile _ => [.ringTileArrival i.id]
  | .relight _ _ _ _ _ _ => [.relightRequestServe i.id]
  | .relit _ _ _ _ => [.relitCopyArrival i.id]
  | .seal _ _ _ _ => [.ringSealPost i.id]
  | .done _ _ _ => [.ringDonePost i.id]
  | .completion _ => [.ringCompletion i.id]
  | .ringOp _ _ _ => [.ringOpReply i.id]
  | .query _ _ _ => [.queryRequest i.id]
  | .answer _ _ _ => [.queryAnswer i.id]
  | .contribution _ _ _ _ _ _ _ _ _ _ => [.credContribution i.id]
  | .credResult _ _ _ _ => [.credResult i.id]
  | .snuffnote _ _ _ => [.snuffnoteArrival i.id]
  | .markerRequest _ _ _ => [.markerRequest i.id]
  | .marker _ _ _ => [.forwardEndMarker i.id]
  | .audit _ _ _ _ _ => [.linkAuditReply i.id]
  | .barrierForward _ _ _ => [.barrierForward i.id]
  | .arrival _ _ _ => [.clusterWakeArrival i.id]

noncomputable def orNone (b : Bool) (i : Instr) : List Instr := if b then [i] else []

/-- The steps that may be due for the engines of a core. -/
noncomputable def Core.steps (c : Core) : List Instr :=
  let p := c.psn
  (((List.range 20).filter c.fireable).map (fun e => .entryFire p e)) ++
    orNone (!c.runq.isEmpty) (.activationStart p) ++
    orNone (c.act.any (·.halted.isSome)) (.faultedContinuationConvert p) ++
    orNone (c.wickOn && c.wick == 0) (.wickExpiry p) ++
    orNone (c.act.any (fun a => a.gang.any (fun g => !g.relayed.isEmpty))) (.gangRelay p) ++
    ((c.staged.map (fun x => x.1)).eraseDups.map (fun h => .stagingSlotSend p h)) ++
    ((List.range 8).filter (fun k => !(c.channel k).queue.isEmpty)).flatMap (fun k => [.copyCommandStart p k, .copyBlockWrite p k]) ++
    ((List.range 4).filter (fun k => (at_ c.streams k none).isSome)).flatMap (fun k => [.streamElementFetch p k, .streamPushWrite p k]) ++
    ((List.range c.drains.length).map (fun k => .streamPushWrite p (4 + k))) ++
    (if c.matOps.isEmpty then [] else (List.range 4).map (fun k => .scoreboardEntryStart p k) ++ [.matrixCompletion p]) ++
    ((List.range 8).filter (fun k => c.slotState k != 0)).map (fun k => .ringTileForward p k) ++
    orNone (!c.firings.isEmpty) (.ringFiring p) ++
    ((List.range 64).filter (fun j => mState (c.entry j) == 3)).map (fun j => .relightRequestSend p j)

/-- The steps that may be due for a tile. -/
noncomputable def Tile.steps (t : Tile) : List Instr :=
  (t.reconf.map (fun x => x.1)).eraseDups.map (fun g => .segmentReconfigure t.psn g) ++
    t.records.flatMap (fun r => if r.doomed.isSome then [.faultedContinuationConvert r.src] else [.continuationReady t.psn r.index]) ++
    ((List.range 16).filter t.stageValid).map (fun g => .stageItemDelivery t.psn g) ++
    (t.stageBusy.map (fun x => .stageCoreRelease t.psn x.1))

/-- The steps that may be due for a Lantern. -/
noncomputable def Region.steps (r : Region) : List Instr :=
  (r.walks.filterMap (·.walker)).map (fun w => .pageWalk ⟨r.number, w⟩) ++
    orNone (bit r.invalStat 0) (.tlbInvalComplete r.number) ++
    orNone r.move.isSome (.moveCopy r.number) ++
    ((List.range 16).filter (fun e => bit (at_ r.splices e 0) 127)).flatMap (fun e => [.spliceCopyComplete r.number e, .spliceFinish r.number e]) ++
    r.tombs.map (fun t => .tombstoneWindowEnd t.core) ++
    r.evacs.map (fun e => .storeTileEvacuation e.source e.target) ++
    r.rings.flatMap (fun x => [.ringRerun r.number x.number, .ringCancel r.number x.number 2, .ringLeaseTimeout r.number x.number]) ++
    r.clusters.flatMap (fun x => [.clusterQuiesced r.number x.1, .retentionSaveDone r.number x.1, .clusterWakeDone r.number x.1,
      .railGoodTimeout r.number x.1]) ++
    r.leases.flatMap (fun l => [.leaseAckTimeout r.number l.index, .leaseDeferExpiry r.number l.index, .leaseStart r.number l.index,
      .leaseEvacuationDone r.number l.index, .leaseTestingEnd r.number l.index, .leaseRestoreDone r.number l.index]) ++
    r.retiring.map (fun x => .retirementNoticeExpiry r.number x.1)

/-- The audits that are due on the links a router sends on (R101). -/
noncomputable def routerSteps (now : Nat) (x : Psn × Router) : List Instr :=
  (x.2.links.filter (·.auditDue now)).map (fun l => .linkAuditStart x.1 l.port l.lane)

/-- The steps that may be due for a graph. -/
noncomputable def Graph.steps (g : Graph) : List Instr :=
  [.graphArming g.id, .graphEnd g.id, .successorResident g.id] ++ g.unarmed.map (fun p => .successorCoreArming g.id p) ++
    g.predEnded.map (fun i => .visibilityPost g.id i) ++ orNone g.haltAt.isSome (.graphPreemptHalt g.id) ++
    (if g.stat = 2 then g.cores.map (fun p => .graphPreemptQuiesce g.id p) ++ [.contextSave g.id] else [])

/-- The steps that may be due for a host-service core with a request queue. -/
noncomputable def HostCore.steps (h : HostCore) (n : Nat) : List Instr :=
  if fld h.rqCtl 63 48 = fld h.rqCtl 47 32 ∧ h.request.isNone then []
  else [.read n, .write n, .barrier n, .launch n, .graph n, .attest n, .keyload n, .keyclr n, .cancel n]

/-- Every step that may be due: the units in focus first. -/
noncomputable def State.due (s : State) : List Instr :=
  s.flight.flatMap Item.steps ++ s.core.steps ++ s.cores.flatMap Core.steps ++ s.tiles.flatMap Tile.steps ++
    ((s.core :: s.cores).flatMap (fun l => (l.act.map (fun a => a.joining.map (fun x => Instr.gangMemberJoin x.2))).getD [])) ++
    s.regions.flatMap Region.steps ++ s.routers.flatMap (routerSteps s.tsc.toNat) ++ s.graphs.flatMap Graph.steps ++ (s.hosts.toList.zipIdx.flatMap (fun x => x.1.steps x.2))

end Sys2Proof.Machine
end

