-- ==== Sys2Proof/Machine/Sources.lean ====
section
/-! DEFINITION. The unit that each step of another agent comes from (01 R19): events of one TSC value happen in the order of these numbers (00 R8). -/
namespace Sys2Proof.Machine
open Sys2Proof

/-- The unit that answers for an owner's place. -/
def Owner.unit (core : Psn) (o : Owner) : Psn :=
  match o with
  | .local _ => core
  | .tile t _ => t
  | .dram pa => actorPsn (dramStack pa)
  | .companion _ => hostPsn (quadrantOf (psnRegion core))
  | .ctrl a => (ctrlPlace a).getD (lanternPsn (ctrlRegion a) 0)
/-- The unit that an item in flight comes from. -/
def State.senderOf (s : State) (b : Body) : Psn :=
  match b with
  | .access a => if a.stage = .performed ∨ a.stage = .gone ∨ a.stage = .refused then a.owner.unit a.core else a.core
  | .command p _ | .relight p _ _ _ _ _ | .relit p _ _ _ | .ringOp p _ _ | .query p _ _ | .credit p _ _ | .contribution _ _ p _ _ _ _ _ _ _ => p
  | .message m => if m.stage = .bounced then m.tile else m.src
  | .directWrite a => actorPsn (dramStack a.phys)
  | .l2Request w => w.core
  | .fill w _ | .fillFault w _ _ => lanternPsn (psnRegion w.core) 5
  | .ringTile t => ((s.ringAt t.region t.ring).map t.from_).getD (lanternPsn t.region 0)
  | .seal r n m _ => ((s.ringAt r n).map (fun x => x.members.getD m x.origin)).getD (lanternPsn r 0)
  | .done r _ _ | .barrierForward r _ _ => lanternPsn r 0
  | .completion p => ((s.ringOf (s.getCore p)).map (·.origin)).getD p
  | .answer p _ _ | .credResult p _ _ _ | .markerRequest p _ _ | .marker p _ _ => lanternPsn (psnRegion p) 0
  | .snuffnote _ lost _ => lost
  | .audit t _ _ _ _ => t
  | .arrival _ p _ => p
def State.senderOfItem (s : State) (id : Nat) : Psn := ((s.item id).map s.senderOf).getD 0
/-- The Lantern of a graph's first region. -/
def State.graphUnit (s : State) (id : Nat) : Psn := lanternPsn (((s.graphById id).bind (fun g => g.regionList.head?)).getD 0) 0

/-- The unit that a step of another agent comes from. -/
def State.sourceOf (s : State) (e : Instr) : Psn :=
  match e with
  | .entryFire p _ | .activationStart p | .continuationResume p _ _ | .runqPromotion p _ | .faultedContinuationConvert p | .gangMemberJoin p
  | .ringTileForward p _ | .ringFiring p | .relightRequestSend p _ | .ringIdleRelease p _ | .streamElementFetch p _ | .streamPushWrite p _
  | .scoreboardEntryStart p _ | .matrixCompletion p | .copyCommandStart p _ | .copyBlockWrite p _ | .stagingSlotSend p _ | .wickExpiry p
  | .successorCoreArming _ p | .graphPreemptQuiesce _ p => p
  | .gangRelay p => (s.homeTile (s.getCore p)).getD p
  | .continuationReady t _ | .segmentReconfigure t _ | .stageCoreRelease t _ | .stageItemDelivery t _ | .linkAuditStart t _ _ | .flitEccDrop t _ _
  | .creditCounterParityError t _ _ => t
  | .segCfgWrite t _ _ => lanternPsn (psnRegion t) 1
  | .coreSnuffClear p => lanternPsn (psnRegion p) 1
  | .pageWalk w => walkerPsn w.region w.number
  | .tombstoneWindowEnd p => lanternPsn (psnRegion p) 0
  | .namePrefixWrite r _ | .dirEntryWrite r _ | .tlbInvalPage r _ | .tlbInvalContext r _ | .tlbInvalAll r _ | .moveReq r _ | .graphPreempt r _
  | .graphResume r _ | .graphKill r _ | .leaseReq r _ | .scoreCtlMismatch r | .scoreCtlRetire r | .pwrQuiesce r _ | .retSave r _ | .pwrWake r _ => lanternPsn r 1
  | .tlbInvalComplete r | .spliceCopyComplete r _ | .spliceFinish r _ | .ringCancel r _ _ | .ringLeaseTimeout r _ | .ringRerun r _ | .governorSample r
  | .moveCopy r | .hangFreeze r | .clusterQuiesced r _ | .retentionSaveDone r _ | .clusterWakeDone r _ | .railGoodTimeout r _ => lanternPsn r 0
  | .storeTileEvacuation t _ => lanternPsn (psnRegion t) 0
  | .sweepProposal r | .leaseAckTimeout r _ | .leaseDeferExpiry r _ | .leaseStart r _ | .leaseEvacuationDone r _ | .leaseTestingEnd r _
  | .leaseRestoreDone r _ | .retirementNoticeExpiry r _ | .testPatternResult r _ _ _ => lanternPsn r 2
  | .retirementCountersigned r _ => lanternPsn r 4
  | .rowLeaseExpiry k _ _ | .bankRefresh k _ _ | .channelMove k _ _ _ => actorPsn k
  | .graphArming g | .graphEnd g | .successorResident g | .visibilityPost g _ | .graphPreemptHalt g | .contextSave g => s.graphUnit g
  | .rqDoorbell h _ | .read h | .write h | .barrier h | .launch h | .graph h | .attest h | .keyload h | .keyclr h | .cancel h | .cqCtlHeadWrite h _ => hostPsn h
  | .remoteTransferComplete ⟨port, _⟩ _ _ _ | .transferEngineStart port _ _ _ _ => externalPsn (port / 256) (port % 256)
  | .routerArrival i | .coreMessageAccept i | .lanternFloodBounce i | .bounceReceived i | .tombstoneForward i | .l2TlbRequest i | .tlbFillReply i
  | .goneReply i | .ownerFaultReply i | .storeAccess i | .fifoRetry i | .queueSlotArrival i | .eosMarkArrival i | .creditReturn i | .linkAuditReply i
  | .drdRequest i | .dwrRequest i | .dgathRequest i | .rowopenRequest i | .rowholdRequest i | .rowrelRequest i | .rowrdRequest i | .rowwrRequest i
  | .rowstatRequest i | .flushRequest i | .atomicRequest i | .reservedOpRequest i | .loadStoreReply i | .directWriteArrival i | .notificationArrival i
  | .counterPostArrival i | .ringTileArrival i | .relightRequestServe i | .relitCopyArrival i | .ringSealPost i | .ringDonePost i | .ringCompletion i
  | .credResult i | .credContribution i | .queryRequest i | .queryAnswer i | .markerRequest i | .forwardEndMarker i | .faultMessageArrival i
  | .snuffnoteArrival i | .barrierForward i | .clusterWakeArrival i | .ringOpReply i => s.senderOfItem i
  | _ => lanternPsn 0 4

end Sys2Proof.Machine
end

