-- ==== Sys2Proof/Machine/Run.lean ====
section
/-! DEFINITION. What a step is made of (log entry 4): time, what a core settles at an instruction boundary (16 R418), the issue of the next
instruction (09 R243), the relaying of a gang's instructions (07 R194 to R197), and whose turn it is. -/
namespace Sys2Proof.Machine
open Sys2Proof

/-! Time. -/

/-- A wick counter after some ticks (R289): it counts while the activation is resident and running. -/
def Core.wickDown (c : Core) (n : Nat) : Core :=
  if c.wickOn ∧ c.act.any (·.halted.isNone) then { c with wick := BitVec.ofNat 64 (c.wick.toNat - n) } else c
/-- ENERGY_UJ after some ticks (R452): a free amount more while the rail is on. -/
def State.drawEnergy (s : State) (c : Core) : Core :=
  if isGridCore c.psn ∧ !s.gated c.psn ∧ !s.module.lowPower then { c with energy := satAdd c.energy (Config.energyStep (s.free + c.psn)) } else c
/-- Time passes. -/
def State.elapse (s : State) (n : Nat) : State :=
  let f (c : Core) : Core := s.drawEnergy (c.wickDown n)
  { s with tsc := s.tsc + BitVec.ofNat 64 n, core := f s.core, cores := s.cores.map f, free := s.free + 2 ^ 24, lastSource := 0 }

/-! Bit errors (R428, log entry 114). -/

/-- The unit a place of the memory belongs to (log entry 8): a DRAM channel, a store tile or bank, a core. -/
def State.errorUnit (s : State) (key : Nat) : UnitWord :=
  if key < 2 ^ 48 then chanUnit (dramStack key) (at_ (s.getActor (dramStack key)).chanMap (dramChan key) 0).toNat
  else if key < 2 ^ 49 then tileUnit (key / 2 ^ 19 % 2 ^ 29) else coreUnit (key % 2 ^ 49 / 2 ^ 17)
/-- The errors met since the last step count on the scores. -/
def State.tally (s : State) : State :=
  match s.eccSeen with
  | [] => s
  | l => l.foldl (fun s x => s.addScore (s.errorUnit x.1) x.2) { s with eccSeen := [] }
/-- A bit error befalls a word of LOCAL, of a tile or of DRAM; companion memory has none that the spec gives an effect. -/
def State.upset (s : State) (word : Nat) (fatal : Bool) : State :=
  if 2 ^ 46 ≤ 8 * word ∧ 8 * word < 2 ^ 48 then s else { s with upsets := upsert s.upsets (fun u => u.1 == word) (word, fatal) }
/-- The companion's processor stores to its own memory, within its window (R440, log entry 120). -/
def State.companionStore (s : State) (off : Nat) (bs : List Byte) : State :=
  if off + bs.length ≤ Config.companionWindow.toNat * 2 ^ 30 then s.poke (companionKey off) bs else s

/-! The boundary between two instructions (R418). -/

/-- What the core in focus settles before it issues: the oldest fault that waits for the boundary, then a wick counter at zero. -/
def State.boundary (s : State) : Option State :=
  match s.core.act with
  | none => none
  | some a =>
    if a.halted.isSome then none
    else match a.boundary with
    | f :: _ => some ((s.mapAct (fun a => { a with boundary := [] })).takeFault f)
    | [] => if s.core.wickOn ∧ s.core.wick = 0 ∧ s.canSnuff s.core.psn then some (s.snuffCore s.core.psn 1) else none

/-- The instruction that an attached member has received, if it has one. -/
def Act.received (a : Act) : Option Relay := a.gang.bind (fun g => if g.attached then g.received else none)
/-- Whether an activation fetches for itself: a member does once it is detached (R195). -/
def Act.fetches (a : Act) : Bool := !(a.gang.any (fun g => decide (g.position ≠ 0) && g.attached))
/-- Whether the core in focus may issue: an activation runs on it, its clock too, and no halt has reached it (R420). -/
def State.mayIssue (s : State) : Bool :=
  s.core.live && !s.module.lowPower && !s.gated s.core.psn && s.core.act.any (fun a =>
    a.halted.isNone && ((a.fetches && !s.core.halting) || a.received.isSome))

/-! Gangs. -/

/-- The attached members of the gang that an activation leads. -/
def State.attachedMembers (s : State) (a : Act) : List Psn :=
  match a.gang with
  | some g => if g.position = 0 then g.members.filter (fun p => (s.getCore p).act.any (fun m =>
      m.gang.any (fun h => h.leader == s.core.psn && h.attached))) else []
  | none => []
/-- An instruction goes to the members. -/
def State.relayTo (s : State) (members : List Psn) (r : Relay) : State :=
  members.foldl (fun s p => s.modCore p (fun c => { c with act := c.act.map (fun a => { a with gang := a.gang.map (fun g =>
    { g with relayed := g.relayed ++ [r] }) }) })) s
/-- Whether an instruction goes its way at the state before it: its guard, and the condition of BR and LOOPS (R277). Every other instruction does. -/
def State.transfers (s : State) (i : Instr) : Bool :=
  match i with
  | .br x => s.guardRuns (longForm Shape.br false x) && ((s.p x.a.toNat).getLsbD 0 != x.sub.getLsbD 0)
  | .brL32B x => (s.p x.a.toNat).getLsbD 0
  | .brNotL32B x => !(s.p x.a.toNat).getLsbD 0
  | .loops x => s.guardRuns (longForm Shape.loops false x) && x.d.toNat != 0 && s.g x.d.toNat != 1
  | .jmp x => s.guardRuns (longForm Shape.jmp false x)
  | .jmpi x => s.guardRuns (longForm Shape.jmpi false x)
  | .call x => s.guardRuns (longForm Shape.call false x)
  | .calli x => s.guardRuns (longForm Shape.calli false x)
  | .ret x => s.guardRuns (longForm Shape.ret false x)
  | .endI x => s.guardRuns (longForm Shape.endI false x)
  | _ => true
noncomputable def State.takes (s : State) (ps : List Parcel) : Bool := (decodeParcels (ps.getD 0 0) (ps.getD 1 0) (ps.getD 2 0)).all s.transfers
/-- After an instruction of a leader has committed (from `s` to `t`), its members receive it, while the gang stands (R194, R197). -/
noncomputable def State.relay (s t : State) (ps : List Parcel) : State :=
  match s.core.act, t.core.act with
  | some a, some b =>
    if a.serial = b.serial ∧ b.halted.isNone ∧ !t.core.waiting ∧ b.gang.any (fun g => g.position == 0) then
      t.relayTo (s.attachedMembers a) { p0 := ps.getD 0 0, p1 := ps.getD 1 0, p2 := ps.getD 2 0, pc := s.core.regs.pc, after := t.core.regs.pc,
                                        ended := false, taken := s.takes ps }
    else t
  | _, _ => t
/-- A member after a relayed instruction: it goes on attached when it took the leader's direction and stands where the leader stood, else alone (R195, R277);
it waits with the instruction still received. The gang may have ended meanwhile (R197). -/
noncomputable def State.settleMember (s t : State) (r : Relay) : State :=
  match s.core.act, t.core.act with
  | some a, some b =>
    if a.serial ≠ b.serial ∨ t.core.waiting then t
    else t.mapAct (fun b => { b with gang := b.gang.bind (fun g =>
      if g.attached ∧ t.core.regs.pc = r.after ∧ s.takes [r.p0, r.p1, r.p2] = r.taken then some { g with received := none }
      else if g.relayed.any (fun x => x.ended || x.alone) then none
      else some { g with received := none, relayed := [], attached := false }) })
  | _, _ => t

/-! Issue. -/

/-- The instruction that some parcels give is executed; with none, ILLEGAL (R243 step 2). -/
noncomputable def runParcels (ps : List Parcel) (s : State) : Out :=
  match decodeParcels (ps.getD 0 0) (ps.getD 1 0) (ps.getD 2 0) with
  | some i => exec i s
  | none => .next (s.takeFault ((Stop.illegal 2).info ps))
/-- What is done to the state that an outcome holds. -/
def onNext (f : State → State) (o : Out) : Out :=
  match o with
  | .next t => .next (f t)
  | .fault r => .fault r
  | .refused r => .refused r
/-- An instruction that has been issued and does not wait keeps the translations it waited with no longer (log entry 30). -/
def State.issued (s : State) : State := if s.core.waiting then s else s.mapCore (·.letGo 0)
/-- The next instruction of the activation in focus: fetched, or received from its leader. -/
noncomputable def State.issueNext (s : State) : Out :=
  match s.core.act.bind Act.received with
  | some r =>
    if r.ended then .next (s.endAct s.core.psn)
    else if r.alone then .next (s.mapAct (fun a => { a with gang := none }))
    else onNext (fun t => (s.settleMember t r).issued) (runParcels (([r.p0, r.p1, r.p2].take (parcelCount r.p0))) (s.setPc r.pc))
  | none =>
    match s.fetch with
    | .words ps t => onNext (fun u => (s.relay u ps).issued) (runParcels ps t)
    | .stay t => .next t
    | .fail f => .next (s.takeFault f)

/-! Whose turn it is. -/

/-- A step of another agent, by the schedule or the default arbiter. -/
noncomputable def State.occur (s : State) (e : Instr) : Out :=
  if hasEncoding e ∨ !operandsOk e then .fault .noSuchUnit else exec e s
/-- Whether a number names a core that runs instructions (R6): a grid core, a Lantern's sequencer, service or secure core, a host-service core. -/
def isIssuer (p : Psn) : Bool :=
  isCorePsn p || decide (psnClass p = 2 ∧ psnRegion p < 80 ∧
    (p = lanternPsn (psnRegion p) 0 ∨ p = lanternPsn (psnRegion p) 1 ∨ p = lanternPsn (psnRegion p) 4)) ||
    decide (p = hostPsn 0 ∨ p = hostPsn 1 ∨ p = hostPsn 2 ∨ p = hostPsn 3)
/-- A step of the schedule that follows one of a higher source number at the same TSC value comes a tick later (R8). -/
def State.comeFrom (s : State) (p : Psn) : State := { (if p < s.lastSource then s.elapse 1 else s) with lastSource := p }
noncomputable def State.takeTurn (s : State) (t : Turn) : Out :=
  match t with
  | .occur e => (s.comeFrom (s.sourceOf e)).occur e
  | .elapse n => .next (s.elapse n)
  | .upset w f => .next (s.upset w f)
  | .companion off bs => .next (s.companionStore off bs)
  | .switch p => if isIssuer p then .next (s.focus p) else .fault .noSuchUnit
/-- The cores that the arbiter looks at in turn: those with an activation. -/
def State.others (s : State) : List Psn := (s.cores.filter (·.act.isSome)).map (·.psn)
/-- The default arbiter: the core in focus settles its boundary or issues; while it waits or has nothing to issue, the steps that may be due and
the other cores get their turns, one a step, and its instruction is tried again in between. -/
noncomputable def State.arbitrate (s : State) : Out :=
  match s.boundary with
  | some t => .next t
  | none =>
    if s.mayIssue ∧ !s.core.waiting then s.issueNext
    else
      let due := s.due
      let others := s.others
      let n := s.cursor % (due.length + others.length + 1)
      let s : State := { s with cursor := s.cursor + 1 }
      match due[n]? with
      | some e => s.occur e
      | none => match others[n - due.length]? with
        | some p => .next (s.focus p)
        | none => if s.mayIssue then s.issueNext else .next s
/-- The end of the schedule: what follows it comes at a later TSC value than its last step (R8). -/
def State.afterTurn (s : State) (rest : List Turn) : State := if rest.isEmpty && s.lastSource != 0 then s.elapse 1 else s
/-- One step: the next turn of the schedule, or the default arbiter's choice, which takes one tick. Regions note their progress, and scores count the bit errors met. -/
noncomputable def State.advanceMachine (s : State) : Out :=
  match s.schedule with
  | t :: rest => onNext (fun u => (s.noteProgress u).tally.afterTurn rest) (({ s with schedule := rest } : State).takeTurn t)
  | [] => onNext (fun u => (s.noteProgress u).tally.elapse 1) s.arbitrate

/-! A program's first instruction (log entry 3). -/

/-- The code capability of a program placed in LOCAL: R, W, X and its first 96 KiB. -/
def codeCap : Cap := Cap.make 0 7 0 0x18000 0
/-- Whether the core in focus runs an activation whose code at the pc lies in LOCAL. -/
def State.runsLocal (s : State) : Bool :=
  s.core.act.any (fun a => a.halted.isNone && a.boundary.isEmpty && a.fetches) && s.core.regs.fetch.tag && s.core.regs.fetch.space == 0 &&
    decide (s.core.regs.fetch.base + s.core.regs.pc.toNat + 12 ≤ 0x18000)
/-- A resident activation on the core in focus, with its code in LOCAL: what a launch and a firing leave (R180). -/
def State.withActivation (s : State) : State :=
  if s.runsLocal then s
  else { s with
    core := { s.core with
      regs := { s.core.regs with pc := 0, fetch := codeCap, c := put s.core.regs.c 0 codeCap }
      wickOn := false
      act := some { serial := s.nextSerial, entry := 0, level := 0, window := 64, wid := 0, widShape := 0, actor := 0, ctx := 0, claims := 0,
                    gang := none, joining := [], halted := none, boundary := [], reissue := [], resumed := none, isResumed := false,
                    fences := [], acquires := [] }
      waiting := false, halting := false, homeStore := 0 }
    nextSerial := s.nextSerial + 1 }
/-- The bytes of an instruction of up to three parcels. -/
def wordBytes (nbits w : Nat) : List Byte := leBytes 12 (w % 2 ^ nbits)
/-- An instruction placed at the pc of the core in focus. -/
def State.placeWord (s : State) (nbits w : Nat) : State :=
  let t := s.withActivation
  let t : State := { t with core := { t.core with waiting := false }, schedule := [] }
  t.poke (localKey t.core.psn ((t.core.regs.fetch.base + t.core.regs.pc.toNat) % 2 ^ 17)) (wordBytes nbits w)

end Sys2Proof.Machine
end

