-- ==== Sys2Proof/Machine/Step.lean ====
section
/-! DEFINITION. One step of the machine. -/
namespace Sys2Proof.Machine
open Sys2Proof

/-- One step (Machine/Run.lean). -/
noncomputable def step (s : State) : Host.Outcome State Fault Refusal := s.advanceMachine

/-- The state with an instruction where the next step fetches: at the pc of the resident activation, in LOCAL (log entry 3). -/
def State.withFetchWord (s : State) (nbits w : Nat) : State := s.placeWord nbits w

end Sys2Proof.Machine
end

