-- ==== Sys2Proof/Safety.lean ====
section
/-! DEFINITION. The terms in which claims about runs are stated: when an instruction issues (09 R230, R231, R243), what a legal state is,
and what a safe step is. -/
namespace Sys2Proof
open Sys2Proof.Machine

/-- The instructions whose AFTER holds their accesses or messages and not their issue (R151, R231). -/
def holdsAfter (i : Instr) : Bool :=
  match i with
  | .ld _ | .st _ | .lda _ | .stl _ | .pf _ | .aadd _ | .amin _ | .amax _ | .aand _ | .aor _ | .axor _ | .aswp _ | .acas _ | .aaddf _
  | .cldc _ | .cstc _ | .fence _ | .cpy _ | .cpyHandle _ | .cpy4 _ | .cpyg _ | .drd _ | .dwr _ | .dgath _ | .flush _ | .rowopen _
  | .rowhold _ | .rowrel _ | .rowrd _ | .rowrdv _ | .rowwr _ | .rowstat _ | .qpost _ | .send _ | .sendq _ | .hadvp _ | .heos _
  | .sbind _ | .sunbind _ | .vld _ | .vst _ | .vldg _ | .vsts _ | .mma _ | .mmaq _ | .mmad _ | .mread _ | .rinj _ => true
  | _ => false

/-- The instructions that raise PRIV at graph level whatever their operands (R242). -/
def privileged (i : Instr) : Bool :=
  match i with
  | .gate _ | .snuff _ | .nameset _ | .leaseack _ | .fresume _ | .fresumeValue _ | .fkill _ | .splice _ => true
  | _ => false

/-- What the issue stage needs of an instruction; a step of another agent has no encoding and is not issued. -/
def formOf (i : Instr) : Option Form :=
  match encoding i with
  | .long r x => some (longForm r (holdsAfter i) x)
  | .shortA r x => some (shortAForm r x)
  | .shortB r x => some (shortBForm r x)
  | .event => none

/-- The length of an instruction in bytes (R222). -/
def byteLength (i : Instr) : Nat := ((formOf i).map (·.length)).getD 0

/-- The state in which an instruction's effect takes place: the pc stands past it and the core no longer waits. -/
def past (i : Instr) (s : State) : State := s.advance (byteLength i)

/-- An activation is resident and runs, and every direct g field lies in its window (R179). -/
def fieldsInWindow (f : Form) (s : State) : Bool :=
  match s.core.act with
  | none => false
  | some a => a.halted.isNone && f.gs.all (fun n => decide (n < a.window))

/-- What R243 asks of an instruction before its effect, on the state and the encoding alone: a running activation, the privilege, the
window, a guard that is written and true, AFTER's accesses gone where they hold the issue, and no register that is pending. -/
def readyForm (f : Form) (priv : Bool) (s : State) : Bool :=
  fieldsInWindow f s && !(priv && decide (s.level = .graph)) && !s.core.isPending (.p f.guard) && s.guardRuns f &&
    (f.holds || s.gone (s.tok f.after)) && !f.regs.any s.core.isPending
def issues (i : Instr) (s : State) : Bool :=
  match formOf i with
  | some f => readyForm f (privileged i) s
  | none => false

/-- The memory is in its one form: addresses strictly rising, and no cell equal to what an unlisted address reads as. -/
def memoryOk (s : State) : Bool := Mem.wf s.mem

/-- A step is safe when it answers a next state: no fault of the model, no refusal. -/
def safeStep (s : State) : Prop := ∃ t, Machine.step s = .next t

end Sys2Proof
end

