-- ==== Sys2Proof/Certificates/Slice0/Obligations.lean ====
section
/-! DEFINITION. The statements about the model that the provers are asked for (OBLIGATIONS.json), from the numbered rules of the spec. The parts
stand first, under the rules they formalise; a statement joins the parts of one subject. `issues i s` says that i gets to its own effect in s, and
`past i s` is s with the pc past i (Sys2Proof/Safety.lean). -/
namespace Sys2Proof.Claims
open Sys2Proof Sys2Proof.Machine

/-! Tables of the scalar instructions by shape: the constructor and what it computes (R254 to R268). -/

/-- What an instruction computes from its type, rounding, saturation and sources. -/
abbrev Fn1 := TyCode → BitVec 2 → Bool → Nat → Nat
abbrev Fn2 := TyCode → BitVec 2 → Bool → Nat → Nat → Nat
abbrev Fn3 := TyCode → BitVec 2 → Bool → Nat → Nat → Nat → Nat

noncomputable def long1 : List ((Long → Instr) × (Long → Fn1)) :=
  [(.brev, fun _ => brevOf), (.bswap, fun _ => bswapOf), (.abs, fun _ => absOf), (.fsqrt, fun _ => fsqrtOf), (.fabs, fun _ => fabsOf),
   (.fneg, fun _ => fnegOf), (.frnd, fun _ => frndOf), (.fcvt, fun x t rm _ a => elemCvt t (x.c.extractLsb' 0 4) rm false a),
   (.fcvti, fun x t rm _ a => elemCvt t (x.c.extractLsb' 0 4) rm false a), (.icvtf, fun x t rm _ a => elemCvt t (x.c.extractLsb' 0 4) rm false a)]
noncomputable def long2 : List ((Long → Instr) × Fn2) :=
  [(.add, elemAdd), (.sub, elemSub), (.mul, elemMul), (.mulh, mulHigh), (.mulhn, mulHigh), (.div, divOf), (.divn, divOf), (.rem, remOf),
   (.remn, remOf), (.and, andOf), (.andn, andnOf), (.or, orOf), (.xor, xorOf), (.shl, shlOf), (.shr, shrOf), (.sha, shaOf), (.rol, rolOf),
   (.rotr, rotrOf), (.min, minOfTwo), (.max, maxOfTwo), (.minn, minOfTwo), (.maxn, maxOfTwo), (.fadd, elemAdd), (.fsub, elemSub),
   (.fmul, elemMul), (.fdiv, fdivOf), (.fmin, fminOf), (.fmax, fmaxOf), (.fcpys, fcpysOf)]
noncomputable def long3 : List ((Long → Instr) × Fn3) := [(.ffma, fmaOf), (.ffms, fmsOf)]
noncomputable def count1 : List ((Long → Instr) × (TyCode → Nat → Nat)) := [(.clz, clzOf), (.ctz, ctzOf), (.popc, popcOf), (.fclass, fclassOf)]
noncomputable def count2 : List ((Long → Instr) × (TyCode → Nat → Nat → Nat)) := [(.addc, carryOf), (.subb, borrowOf)]
noncomputable def short1 : List ((ShortA → Instr) × Fn1) :=
  [(.brevL32A, brevOf), (.bswapL32A, bswapOf), (.absL32A, absOf), (.fsqrtL32A, fsqrtOf), (.fabsL32A, fabsOf), (.fnegL32A, fnegOf),
   (.frndL32A, frndOf)]
noncomputable def short2 : List ((ShortA → Instr) × Fn2) :=
  [(.addL32A, elemAdd), (.subL32A, elemSub), (.mulL32A, elemMul), (.mulhL32A, mulHigh), (.mulhnL32A, mulHigh), (.divL32A, divOf),
   (.divnL32A, divOf), (.remL32A, remOf), (.remnL32A, remOf), (.andL32A, andOf), (.andnL32A, andnOf), (.orL32A, orOf), (.xorL32A, xorOf),
   (.shlL32A, shlOf), (.shrL32A, shrOf), (.shaL32A, shaOf), (.rolL32A, rolOf), (.rotrL32A, rotrOf), (.minL32A, minOfTwo),
   (.maxL32A, maxOfTwo), (.minnL32A, minOfTwo), (.maxnL32A, maxOfTwo), (.faddL32A, elemAdd), (.fsubL32A, elemSub), (.fmulL32A, elemMul),
   (.fdivL32A, fdivOf), (.fminL32A, fminOf), (.fmaxL32A, fmaxOf), (.fcpysL32A, fcpysOf)]
noncomputable def shortCount1 : List ((ShortA → Instr) × (TyCode → Nat → Nat)) :=
  [(.clzL32A, clzOf), (.ctzL32A, ctzOf), (.popcL32A, popcOf), (.fclassL32A, fclassOf)]
noncomputable def shortCount2 : List ((ShortA → Instr) × (TyCode → Nat → Nat → Nat)) := [(.addcL32A, carryOf), (.subbL32A, borrowOf)]
noncomputable def immediate2 : List ((ShortB → Instr) × TyCode × Fn2) :=
  [(.addI64L32B, 3, elemAdd), (.addI32L32B, 2, elemAdd), (.mulI64L32B, 3, elemMul), (.mulI32L32B, 2, elemMul), (.andN64L32B, 7, andOf),
   (.andnN64L32B, 7, andnOf), (.orN64L32B, 7, orOf), (.xorN64L32B, 7, xorOf), (.shlN64L32B, 7, shlOf), (.shrN64L32B, 7, shrOf),
   (.shaI64L32B, 3, shaOf), (.rotrN64L32B, 7, rotrOf), (.minI64L32B, 3, minOfTwo), (.maxI64L32B, 3, maxOfTwo), (.minnN64L32B, 7, minOfTwo),
   (.maxnN64L32B, 7, maxOfTwo)]

/-- R230, R236, R237, R266, R269: every scalar arithmetic instruction of the long formats, with one, two or three sources (registers, a
literal or immediate, or relative registers): where it issues and its operands are read, the next state has its result, extended by
its type, in the destination register, and differs in nothing else but the pc past it. -/
def LongScalarResults : Prop :=
  (∀ e ∈ long1, ∀ x s a d, issues (e.1 x) s = true → x.srcA (past (e.1 x) s) = .ok a → x.dst (past (e.1 x) s) = .ok d →
    exec (e.1 x) s = .next ((past (e.1 x) s).setG d (extend x.opType (e.2 x x.opType x.opRm x.opSat a)))) ∧
  (∀ e ∈ long2, ∀ x s a b d, issues (e.1 x) s = true → x.srcA (past (e.1 x) s) = .ok a → x.srcB (past (e.1 x) s) = .ok b →
    x.dst (past (e.1 x) s) = .ok d →
    exec (e.1 x) s = .next ((past (e.1 x) s).setG d (extend x.opType (e.2 x.opType x.opRm x.opSat a b)))) ∧
  (∀ e ∈ long3, ∀ x s a b c d, issues (e.1 x) s = true → x.srcA (past (e.1 x) s) = .ok a → x.srcB (past (e.1 x) s) = .ok b →
    x.srcC (past (e.1 x) s) = .ok c → x.dst (past (e.1 x) s) = .ok d →
    exec (e.1 x) s = .next ((past (e.1 x) s).setG d (extend x.opType (e.2 x.opType x.opRm x.opSat a b c)))) ∧
  (∀ e ∈ count1, ∀ x s a d, issues (e.1 x) s = true → x.srcA (past (e.1 x) s) = .ok a → x.dst (past (e.1 x) s) = .ok d →
    exec (e.1 x) s = .next ((past (e.1 x) s).setG d (BitVec.ofNat 64 (e.2 x.opType a)))) ∧
  (∀ e ∈ count2, ∀ x s a b d, issues (e.1 x) s = true → x.srcA (past (e.1 x) s) = .ok a → x.srcB (past (e.1 x) s) = .ok b →
    x.dst (past (e.1 x) s) = .ok d →
    exec (e.1 x) s = .next ((past (e.1 x) s).setG d (BitVec.ofNat 64 (e.2 x.opType a b))))

/-- R224, R225, R226, R266, R269: every scalar arithmetic instruction of the one-parcel formats, with the type in SUB or fixed by its
short opcode, rounding RNE and no saturation: where it issues, the next state has the result in the destination register and differs in
nothing else but the pc past the parcel. -/
def ShortScalarResults : Prop :=
  (∀ e ∈ short1, ∀ x s, issues (e.1 x) s →
    exec (e.1 x) s = .next ((past (e.1 x) s).setG x.d.toNat (extend x.sub (e.2 x.sub 0 false (s.g x.a.toNat).toNat)))) ∧
  (∀ e ∈ short2, ∀ x s, issues (e.1 x) s →
    exec (e.1 x) s = .next ((past (e.1 x) s).setG x.d.toNat
      (extend x.sub (e.2 x.sub 0 false (s.g x.a.toNat).toNat (s.g x.b.toNat).toNat)))) ∧
  (∀ e ∈ shortCount1, ∀ x s, issues (e.1 x) s →
    exec (e.1 x) s = .next ((past (e.1 x) s).setG x.d.toNat (BitVec.ofNat 64 (e.2 x.sub (s.g x.a.toNat).toNat)))) ∧
  (∀ e ∈ shortCount2, ∀ x s, issues (e.1 x) s →
    exec (e.1 x) s = .next ((past (e.1 x) s).setG x.d.toNat
      (BitVec.ofNat 64 (e.2 x.sub (s.g x.a.toNat).toNat (s.g x.b.toNat).toNat)))) ∧
  (∀ e ∈ immediate2, ∀ x s, issues (e.1 x) s →
    exec (e.1 x) s = .next ((past (e.1 x) s).setG x.d.toNat
      (extend e.2.1 (e.2.2 e.2.1 0 false (s.g x.a.toNat).toNat (x.imm.signExtend 64).toNat))))

/-- The comparisons of the short opcodes: the constructor, its type and its condition code (R226). -/
noncomputable def comparisons : List ((ShortB → Instr) × TyCode × Nat) :=
  [(.cmpEqI64L32B, 3, 0), (.cmpNeI64L32B, 3, 1), (.cmpLtI64L32B, 3, 2), (.cmpLeI64L32B, 3, 3), (.cmpGtI64L32B, 3, 4),
   (.cmpGeI64L32B, 3, 5), (.cmpLtN64L32B, 7, 2), (.cmpLeN64L32B, 7, 3), (.cmpGtN64L32B, 7, 4), (.cmpGeN64L32B, 7, 5)]

/-- R264, R267, R270: a scalar comparison fills all 32 lanes of its predicate with the truth of its condition; a write to p0 is
discarded. Nothing else changes but the pc. -/
def ComparisonResults : Prop :=
  (∀ c ∈ [Instr.cmp, Instr.fcmp], ∀ x s a b, issues (c x) s → x.srcA (past (c x) s) = .ok a → x.srcB (past (c x) s) = .ok b →
    exec (c x) s = .next ((past (c x) s).setP (x.d.toNat % 8)
      (if elemCmp x.opType (x.d.toNat / 8) a b then BitVec.allOnes 32 else 0))) ∧
  (∀ e ∈ comparisons, ∀ x s, issues (e.1 x) s →
    exec (e.1 x) s = .next ((past (e.1 x) s).setP x.d.toNat
      (if elemCmp e.2.1 e.2.2 (s.g x.a.toNat).toNat (x.imm.signExtend 64).toNat then BitVec.allOnes 32 else 0)))

/-- R226, R237, R267: SEL, MOV, LI and LIH in every form. SEL takes its first source where lane 0 of its predicate is 1, else the second,
whose literal in L96 is sign-extended; the relative moves name their register by the value of a register plus the immediate; LIH shifts by 12 for
an immediate of 12 bits and by 32 for a literal or a register. -/
def MoveAndConstantResults : Prop :=
  (∀ x s a b d, issues (.sel x) s → x.srcA (past (.sel x) s) = .ok a →
    (if x.wide = true ∧ x.form = 1 then b = (x.lit.signExtend 64).toNat else x.srcB (past (.sel x) s) = .ok b) →
    x.dst (past (.sel x) s) = .ok d →
    exec (.sel x) s = .next ((past (.sel x) s).setG d (BitVec.ofNat 64 (if (s.p x.c.toNat).getLsbD 0 then a else b)))) ∧
  (∀ x s a d, issues (.mov x) s → x.srcA (past (.mov x) s) = .ok a → x.dst (past (.mov x) s) = .ok d →
    exec (.mov x) s = .next ((past (.mov x) s).setG d (BitVec.ofNat 64 a))) ∧
  (∀ x s, issues (.movL32A x) s → exec (.movL32A x) s = .next ((past (.movL32A x) s).setG x.d.toNat (s.g x.a.toNat))) ∧
  (∀ x s n, issues (.movRelSrcL32B x) s → (past (.movRelSrcL32B x) s).relative x.a x.imm.toInt = .ok n →
    exec (.movRelSrcL32B x) s = .next ((past (.movRelSrcL32B x) s).setG x.d.toNat (s.g n))) ∧
  (∀ x s n, issues (.movRelDstL32B x) s → (past (.movRelDstL32B x) s).relative x.d x.imm.toInt = .ok n →
    exec (.movRelDstL32B x) s = .next ((past (.movRelDstL32B x) s).setG n (s.g x.a.toNat))) ∧
  (∀ x s b, issues (.li x) s → x.srcB (past (.li x) s) = .ok b →
    exec (.li x) s = .next ((past (.li x) s).setG x.d.toNat (extend x.opType b))) ∧
  (∀ x s, issues (.liI64L32B x) s → exec (.liI64L32B x) s = .next ((past (.liI64L32B x) s).setG x.d.toNat (x.imm.signExtend 64))) ∧
  (∀ x s a b d, issues (.lih x) s → x.srcA (past (.lih x) s) = .ok a → x.srcB (past (.lih x) s) = .ok b →
    x.dst (past (.lih x) s) = .ok d →
    exec (.lih x) s = .next ((past (.lih x) s).setG d
      (if x.form = 1 ∧ x.wide = false then BitVec.ofNat 64 (a * 2 ^ 12) ||| x.hi.zeroExtend 64
       else BitVec.ofNat 64 (a * 2 ^ 32) ||| (if x.form = 1 then x.lit.zeroExtend 64 else BitVec.ofNat 64 (b % 2 ^ 32))))) ∧
  (∀ x s, issues (.lihL32B x) s →
    exec (.lihL32B x) s = .next ((past (.lihL32B x) s).setG x.d.toNat (s.g x.a.toNat <<< 12 ||| x.imm.zeroExtend 64)))

/-- R268: BFX and BFI on the field of length f[11:6] + 1 at position f[5:0] where it ends at or below bit 63; a field that runs past bit 63 raises
ILLEGAL, and the destination keeps its value. -/
def BitFieldResults : Prop :=
  (∀ x s a f d, issues (.bfx x) s → x.srcA (past (.bfx x) s) = .ok a → x.srcB (past (.bfx x) s) = .ok f → x.dst (past (.bfx x) s) = .ok d →
    exec (.bfx x) s = .next (if f % 64 + f / 64 % 64 + 1 ≤ 64 then (past (.bfx x) s).setG d (bfxOf x.opType a f)
      else s.takeFault { code := .illegal, detail := parcelDetail (encode (.bfx x)) 6 })) ∧
  (∀ x s a f d, issues (.bfi x) s → x.srcA (past (.bfi x) s) = .ok a → x.srcB (past (.bfi x) s) = .ok f → x.dst (past (.bfi x) s) = .ok d →
    exec (.bfi x) s = .next (if f % 64 + f / 64 % 64 + 1 ≤ 64 then (past (.bfi x) s).setG d (bfiOf (s.g d).toNat a f)
      else s.takeFault { code := .illegal, detail := parcelDetail (encode (.bfi x)) 6 })) ∧
  (∀ x s, issues (.bfxN64L32B x) s →
    exec (.bfxN64L32B x) s = .next ((past (.bfxN64L32B x) s).setG x.d.toNat (bfxOf 7 (s.g x.a.toNat).toNat x.imm.toNat))) ∧
  (∀ x s, issues (.bfxI64L32B x) s →
    exec (.bfxI64L32B x) s = .next ((past (.bfxI64L32B x) s).setG x.d.toNat (bfxOf 3 (s.g x.a.toNat).toNat x.imm.toNat)))

/-- R280: the predicate logic, each source inverted where its SUB bit says so, and the moves and counts between predicates and general
registers, in the long and the one-parcel formats. -/
def PredicateResults : Prop :=
  (∀ e ∈ [(Instr.pand, (· &&& ·)), (Instr.por, (· ||| ·)), (Instr.pxor, (· ^^^ ·))], ∀ x s, issues (e.1 x) s →
    exec (e.1 x) s = .next ((past (e.1 x) s).setP x.d.toNat
      (e.2 (s.pInv x.a.toNat (x.sub.getLsbD 0)) (s.pInv x.b.toNat (x.sub.getLsbD 1))))) ∧
  (∀ e ∈ [(Instr.pandL32A, (· &&& ·)), (Instr.porL32A, (· ||| ·)), (Instr.pxorL32A, (· ^^^ ·))], ∀ x s, issues (e.1 x) s →
    exec (e.1 x) s = .next ((past (e.1 x) s).setP x.d.toNat
      (e.2 (s.pInv x.a.toNat (x.sub.getLsbD 0)) (s.pInv x.b.toNat (x.sub.getLsbD 1))))) ∧
  (∀ e ∈ [(Instr.pnot, fun p : PWord => ~~~ p), (Instr.pmov, fun p => p)], ∀ x s, issues (e.1 x) s →
    exec (e.1 x) s = .next ((past (e.1 x) s).setP x.d.toNat (e.2 (s.p x.a.toNat)))) ∧
  (∀ e ∈ [(Instr.pnotL32A, fun p : PWord => ~~~ p), (Instr.pmovL32A, fun p => p)], ∀ x s, issues (e.1 x) s →
    exec (e.1 x) s = .next ((past (e.1 x) s).setP x.d.toNat (e.2 (s.p x.a.toNat)))) ∧
  (∀ x s, issues (.pmovFromG x) s →
    exec (.pmovFromG x) s = .next ((past (.pmovFromG x) s).setP x.d.toNat ((s.g x.a.toNat).truncate 32))) ∧
  (∀ x s, issues (.pmovFromGL32A x) s →
    exec (.pmovFromGL32A x) s = .next ((past (.pmovFromGL32A x) s).setP x.d.toNat ((s.g x.a.toNat).truncate 32))) ∧
  (∀ x s, issues (.pmovToG x) s →
    exec (.pmovToG x) s = .next ((past (.pmovToG x) s).setG x.d.toNat ((s.p x.a.toNat).zeroExtend 64))) ∧
  (∀ x s, issues (.pmovToGL32A x) s →
    exec (.pmovToGL32A x) s = .next ((past (.pmovToGL32A x) s).setG x.d.toNat ((s.p x.a.toNat).zeroExtend 64))) ∧
  (∀ x s, issues (.pcnt x) s →
    exec (.pcnt x) s = .next ((past (.pcnt x) s).setG x.d.toNat
      (BitVec.ofNat 64 ((List.range 32).countP (fun k => (s.p x.a.toNat).getLsbD k))))) ∧
  (∀ x s, issues (.pcntL32A x) s →
    exec (.pcntL32A x) s = .next ((past (.pcntL32A x) s).setG x.d.toNat
      (BitVec.ofNat 64 ((List.range 32).countP (fun k => (s.p x.a.toNat).getLsbD k)))))

/-- R223, R272, R273, R275: branches, jumps, calls and loops. A direct target is the address of parcel 0 plus 4 times the offset; a register
target is taken where its bits 1:0 are zero; a call writes the link register with the address of the next instruction, having read its
target before; LOOPS counts its register down and branches while the result is not zero. -/
def ControlTransfers : Prop :=
  (∀ x s, issues (.br x) s → exec (.br x) s = .next ((past (.br x) s).setPc
    (if (s.p x.a.toNat).getLsbD 0 != x.sub.getLsbD 0 then s.core.regs.pc + BitVec.ofInt 64 (4 * x.offset)
     else s.core.regs.pc + BitVec.ofNat 64 x.bytes))) ∧
  (∀ x s, issues (.brL32B x) s → exec (.brL32B x) s = .next ((past (.brL32B x) s).setPc
    (if (s.p x.a.toNat).getLsbD 0 then s.core.regs.pc + BitVec.ofInt 64 (4 * x.imm.toInt) else s.core.regs.pc + 4))) ∧
  (∀ x s, issues (.brNotL32B x) s → exec (.brNotL32B x) s = .next ((past (.brNotL32B x) s).setPc
    (if (s.p x.a.toNat).getLsbD 0 then s.core.regs.pc + 4 else s.core.regs.pc + BitVec.ofInt 64 (4 * x.imm.toInt)))) ∧
  (∀ x s, issues (.jmp x) s →
    exec (.jmp x) s = .next ((past (.jmp x) s).setPc (s.core.regs.pc + BitVec.ofInt 64 (4 * x.offset)))) ∧
  (∀ x s, issues (.jmpL32A x) s → exec (.jmpL32A x) s = .next ((past (.jmpL32A x) s).setPc
    (s.core.regs.pc + BitVec.ofInt 64 (4 * (x.sub ++ x.b ++ x.a ++ x.d : BitVec 22).toInt)))) ∧
  (∀ c ∈ [Instr.jmpi, Instr.ret], ∀ x s, issues (c x) s → (s.g x.a.toNat).toNat % 4 = 0 →
    exec (c x) s = .next ((past (c x) s).setPc (s.g x.a.toNat))) ∧
  (∀ c ∈ [Instr.jmpiL32A, Instr.retL32A], ∀ x s, issues (c x) s → (s.g x.a.toNat).toNat % 4 = 0 →
    exec (c x) s = .next ((past (c x) s).setPc (s.g x.a.toNat))) ∧
  (∀ x s, issues (.call x) s → exec (.call x) s = .next (((past (.call x) s).setG x.d.toNat
    (s.core.regs.pc + BitVec.ofNat 64 x.bytes)).setPc (s.core.regs.pc + BitVec.ofInt 64 (4 * x.offset)))) ∧
  (∀ x s, issues (.callL32B x) s → exec (.callL32B x) s = .next (((past (.callL32B x) s).setG x.d.toNat
    (s.core.regs.pc + 4)).setPc (s.core.regs.pc + BitVec.ofInt 64 (4 * x.imm.toInt)))) ∧
  (∀ x s, issues (.calli x) s → (s.g x.a.toNat).toNat % 4 = 0 → exec (.calli x) s = .next (((past (.calli x) s).setG x.d.toNat
    (s.core.regs.pc + BitVec.ofNat 64 x.bytes)).setPc (s.g x.a.toNat))) ∧
  (∀ x s, issues (.calliL32A x) s → (s.g x.a.toNat).toNat % 4 = 0 →
    exec (.calliL32A x) s = .next (((past (.calliL32A x) s).setG x.d.toNat (s.core.regs.pc + 4)).setPc (s.g x.a.toNat))) ∧
  (∀ x s, issues (.loops x) s → exec (.loops x) s = .next (((past (.loops x) s).setG x.d.toNat (s.g x.d.toNat - 1)).setPc
    (if x.d.toNat ≠ 0 ∧ x.d.toNat < 64 ∧ s.g x.d.toNat ≠ 1 then s.core.regs.pc + BitVec.ofInt 64 (4 * x.offset)
     else s.core.regs.pc + BitVec.ofNat 64 x.bytes)))

/-- R223, R415: a register target whose bits 1:0 are not zero raises ALIGN with the fetch access code and the offset, and nothing transfers:
the fault is taken in the state before the instruction, whose link register it leaves. -/
def MisalignedTargetFaults : Prop :=
  (∀ c ∈ [Instr.jmpi, Instr.ret, Instr.calli], ∀ x s, issues (c x) s → (s.g x.a.toNat).toNat % 4 ≠ 0 →
    exec (c x) s = .next (s.takeFault { code := .align, detail := capDetail 3 0xFF (s.g x.a.toNat).toNat })) ∧
  (∀ c ∈ [Instr.jmpiL32A, Instr.retL32A, Instr.calliL32A], ∀ x s, issues (c x) s → (s.g x.a.toNat).toNat % 4 ≠ 0 →
    exec (c x) s = .next (s.takeFault { code := .align, detail := capDetail 3 0xFF (s.g x.a.toNat).toNat }))

/-- R181, R276: END ends the running activation at once; NOP does nothing but advance the pc. -/
def EndAndNop : Prop :=
  (∀ x s, issues (.endI x) s → exec (.endI x) s = .next ((past (.endI x) s).endAct s.core.psn)) ∧
  (∀ x s, issues (.endL32A x) s → exec (.endL32A x) s = .next ((past (.endL32A x) s).endAct s.core.psn)) ∧
  (∀ x s, issues (.nop x) s → exec (.nop x) s = .next (past (.nop x) s)) ∧
  (∀ x s, issues (.nopL32A x) s → exec (.nopL32A x) s = .next (past (.nopL32A x) s))

/-- R193 to R197, R278, R279: GANG, UNGANG and REJOIN. GANG without an adjacent home tile reports every named core absent; with one, and its
own code not named, it forms the gang of the named cores that have joined once no other one can, and reports joined and absent. UNGANG outside a
gang reports 0, a leader dissolves its gang and reports its fault word, a member leaves it. REJOIN outside a gang and for an attached
member does nothing; a leader whose members have settled releases them, a detached member waits there. -/
def GangInstructions : Prop :=
  (∀ x s a, issues (.gang x) s → s.core.act = some a → a.gang = none → s.core.matMode = false →
    (s.homeTile s.core).bind (fun t => gangCode t s.core.psn) = none →
    exec (.gang x) s = .next ((past (.gang x) s).setG x.d.toNat (BitVec.ofNat 64 (x.hi.toNat % 16 * 16)))) ∧
  (∀ x s a t own asked here, issues (.gang x) s → s.core.act = some a → a.gang = none → s.core.matMode = false →
    s.homeTile s.core = some t → gangCode t s.core.psn = some own → x.hi.toNat % 16 / 2 ^ own % 2 = 0 →
    asked = (if a.joining = [] then ((((List.range 4).filter (fun k => x.hi.toNat % 16 / 2 ^ k % 2 == 1)).filterMap (fun k =>
      (gangCore t k).map (fun p => (k, p)))).filter (fun n => (past (.gang x) s).canJoin a n.2)) else a.joining) →
    here = asked.filter (fun n => (past (.gang x) s).hasJoined s.core.psn n.2) →
    (∀ n ∈ asked, (past (.gang x) s).hasJoined s.core.psn n.2 = true ∨ (past (.gang x) s).canJoin a n.2 = false) →
    exec (.gang x) s = .next ((if here = [] then (past (.gang x) s).mapAct (fun a => { a with joining := [] })
      else (past (.gang x) s).formGang here).setG x.d.toNat
      (BitVec.ofNat 64 (codesMask here + (x.hi.toNat % 16 - codesMask here) * 16)))) ∧
  (∀ x s a, issues (.ungang x) s → s.core.act = some a →
    exec (.ungang x) s = .next (match a.gang with
      | none => (past (.ungang x) s).setG x.d.toNat 0
      | some g => if g.position = 0
        then (((past (.ungang x) s).dissolve { g with leader := s.core.psn }).mapAct (fun a => { a with gang := none })).setG x.d.toNat
          (g.faults &&& 0xF)
        else ((past (.ungang x) s).mapAct (fun a => { a with gang := none })).setG x.d.toNat 0)) ∧
  (∀ x s a, issues (.ungangL32A x) s → s.core.act = some a →
    exec (.ungangL32A x) s = .next (match a.gang with
      | none => (past (.ungangL32A x) s).setG x.d.toNat 0
      | some g => if g.position = 0
        then (((past (.ungangL32A x) s).dissolve { g with leader := s.core.psn }).mapAct (fun a => { a with gang := none })).setG x.d.toNat
          (g.faults &&& 0xF)
        else ((past (.ungangL32A x) s).mapAct (fun a => { a with gang := none })).setG x.d.toNat 0)) ∧
  (∀ x s a, issues (.rejoin x) s → s.core.act = some a →
    (∀ g, a.gang = some g → g.position = 0 → g.members.all ((past (.rejoin x) s).memberSettled s.core.psn) = true) →
    exec (.rejoin x) s = .next (match a.gang with
      | none => past (.rejoin x) s
      | some g => if g.position = 0 then (past (.rejoin x) s).releaseMembers g x.hi.toNat
        else if g.attached then past (.rejoin x) s
        else ((past (.rejoin x) s).mapAct (fun a => { a with gang := some { g with rejoin := some (x.hi.toNat, 8) } })).stay 8)) ∧
  (∀ x s a, issues (.rejoinL32A x) s → s.core.act = some a →
    (∀ g, a.gang = some g → g.position = 0 → g.members.all ((past (.rejoinL32A x) s).memberSettled s.core.psn) = true) →
    exec (.rejoinL32A x) s = .next (match a.gang with
      | none => past (.rejoinL32A x) s
      | some g => if g.position = 0 then (past (.rejoinL32A x) s).releaseMembers g (x.b ++ x.a : BitVec 12).toNat
        else if g.attached then past (.rejoinL32A x) s
        else ((past (.rejoinL32A x) s).mapAct (fun a =>
          { a with gang := some { g with rejoin := some ((x.b ++ x.a : BitVec 12).toNat, 4) } })).stay 4))

/-- R284: the inspectors read a capability whether it is tagged, untagged or sealed, and never fault on its contents: BASE, LENGTH, PERMS, OTYPE or the tag,
zero-extended, goes to the general register; CCLR writes all zeros without a tag, and CMOV copies bits and tag. -/
def CapabilityInspection : Prop :=
  (∀ e ∈ [(Instr.cbase, Cap.base), (Instr.clen, Cap.length), (Instr.cperms, Cap.perms), (Instr.ctype, Cap.otype),
      (Instr.ctag, fun c : Cap => c.tag.toNat)], ∀ x s, issues (e.1 x) s →
    exec (e.1 x) s = .next ((past (e.1 x) s).setG x.d.toNat (BitVec.ofNat 64 (e.2 (s.c x.a.toNat))))) ∧
  (∀ e ∈ [(Instr.cbaseL32A, Cap.base), (Instr.clenL32A, Cap.length), (Instr.cpermsL32A, Cap.perms), (Instr.ctypeL32A, Cap.otype),
      (Instr.ctagL32A, fun c : Cap => c.tag.toNat)], ∀ x s, issues (e.1 x) s →
    exec (e.1 x) s = .next ((past (e.1 x) s).setG x.d.toNat (BitVec.ofNat 64 (e.2 (s.c x.a.toNat))))) ∧
  (∀ x s, issues (.cclr x) s → exec (.cclr x) s = .next ((past (.cclr x) s).setC x.d.toNat Cap.null)) ∧
  (∀ x s, issues (.cclrL32A x) s → exec (.cclrL32A x) s = .next ((past (.cclrL32A x) s).setC x.d.toNat Cap.null)) ∧
  (∀ x s, issues (.cmov x) s → exec (.cmov x) s = .next ((past (.cmov x) s).setC x.d.toNat (s.c x.a.toNat))) ∧
  (∀ x s, issues (.cmovL32A x) s → exec (.cmovL32A x) s = .next ((past (.cmovL32A x) s).setC x.d.toNat (s.c x.a.toNat)))

/-- R282: CDERIVE and CPERM, their parent read from ca. An untagged parent raises CAPTAG, a sealed one or a key CAPPERM, and for CDERIVE a part that does not lie in
the parent, its offset and length added as unsigned numbers without wrap, CAPBOUND; nothing is written then. Otherwise the child is the parent with its base moved
and its length set, or with its permissions narrowed by the mask, in which L alone can be added. -/
def CapabilityDerivation : Prop :=
  (∀ x s o l, issues (.cderive x) s → o = (s.g x.b.toNat).toNat → l = (if x.wide then x.lit.toNat else (s.g x.c.toNat).toNat) →
    ((s.c x.a.toNat).tag = false → exec (.cderive x) s = .next (s.takeFault { code := .captag, detail := capDetail 0 x.a.toNat o })) ∧
    ((s.c x.a.toNat).tag = true → (s.c x.a.toNat).otype ≠ 0 →
      exec (.cderive x) s = .next (s.takeFault { code := .capperm, detail := capDetail 0 x.a.toNat o })) ∧
    ((s.c x.a.toNat).tag = true → (s.c x.a.toNat).otype = 0 → (s.c x.a.toNat).length < o + l →
      exec (.cderive x) s = .next (s.takeFault { code := .capbound, detail := capDetail 0 x.a.toNat o })) ∧
    ((s.c x.a.toNat).tag = true → (s.c x.a.toNat).otype = 0 → o + l ≤ (s.c x.a.toNat).length →
      exec (.cderive x) s = .next ((past (.cderive x) s).setC x.d.toNat
        ((s.c x.a.toNat).withBounds ((s.c x.a.toNat).base + o) l)))) ∧
  (∀ x s p m, issues (.cperm x) s → p = (s.c x.a.toNat).perms → m = x.hi.toNat % 128 →
    ((s.c x.a.toNat).tag = false → exec (.cperm x) s = .next (s.takeFault { code := .captag, detail := capDetail 0 x.a.toNat 0 })) ∧
    ((s.c x.a.toNat).tag = true → (s.c x.a.toNat).otype ≠ 0 →
      exec (.cperm x) s = .next (s.takeFault { code := .capperm, detail := capDetail 0 x.a.toNat 0 })) ∧
    ((s.c x.a.toNat).tag = true → (s.c x.a.toNat).otype = 0 → exec (.cperm x) s =
      .next ((past (.cperm x) s).setC x.d.toNat ((s.c x.a.toNat).withPerms ((p &&& m &&& 0x5F) ||| ((p ||| m) &&& 0x20))))))

/-- The outcome of CSEAL and CUNSEAL on a capability k of register a and a key y of register b: the conditions of R283 in their order, each with its fault. -/
def sealed (i : Instr) (sealing : Bool) (a b d : Nat) (s : State) : State :=
  let k := s.c a
  let y := s.c b
  let fault (code : Code) (n : Nat) : State := s.takeFault { code, detail := capDetail 0 n 0 }
  if y.tag = false then fault .captag b
  else if y.isKey = false then fault .capperm b
  else if k.tag = false then fault .captag a
  else if k.isKey = true then fault .capperm a
  else if k.otype ≠ (if sealing then 0 else y.otype) then fault .capperm a
  else (past i s).setC d (k.withOtype (if sealing then y.otype else 0))
/-- R283: CSEAL and CUNSEAL test their conditions in this order, the key's tag, its being a sealing key, the capability's tag, its being no key, and its seal number; the first one
that fails raises its fault, naming the register, and leaves the destination. Otherwise the destination is the capability with the key's seal number, or unsealed. -/
def Sealing : Prop :=
  (∀ e ∈ [(Instr.cseal, true), (Instr.cunseal, false)], ∀ x s, issues (e.1 x) s →
    exec (e.1 x) s = .next (sealed (e.1 x) e.2 x.a.toNat x.b.toNat x.d.toNat s)) ∧
  (∀ e ∈ [(Instr.csealL32A, true), (Instr.cunsealL32A, false)], ∀ x s, issues (e.1 x) s →
    exec (e.1 x) s = .next (sealed (e.1 x) e.2 x.a.toNat x.b.toNat x.d.toNat s))

/-- R51, R286: CCHK writes the outcome of CheckAccess for its kind and size, what the core can decide of CheckSpace with it, and raises nothing. -/
def CapabilityCheck : Prop :=
  ∀ x s, issues (.cchk x) s → exec (.cchk x) s = .next ((past (.cchk x) s).setG x.d.toNat
    (BitVec.ofNat 64 (s.cchk (s.c x.a.toNat) (s.g x.b.toNat).toInt (x.hi.toNat % 128 + 1) x.sub.toNat)))

/-- R94, R189, R289, R290, R292: the readers of the core's own state. WHO and WID fields, the time stamp counter and the energy counter into a
general register; SYSRD of a register below 0x100, and of every register above graph level; WICK restarts the wick of its handler's index and does
nothing without one. -/
def SystemReads : Prop :=
  (∀ x s, issues (.who x) s → exec (.who x) s = .next ((past (.who x) s).setG x.d.toNat (s.who x.hi.toNat))) ∧
  (∀ x s a, issues (.wid x) s → s.core.act = some a →
    exec (.wid x) s = .next ((past (.wid x) s).setG x.d.toNat (widField a.wid a.widShape x.hi.toNat))) ∧
  (∀ x s a, issues (.widL32B x) s → s.core.act = some a →
    exec (.widL32B x) s = .next ((past (.widL32B x) s).setG x.d.toNat (widField a.wid a.widShape x.imm.toNat))) ∧
  (∀ x s, issues (.time x) s → exec (.time x) s = .next ((past (.time x) s).setG x.d.toNat s.tsc)) ∧
  (∀ x s, issues (.timeL32A x) s → exec (.timeL32A x) s = .next ((past (.timeL32A x) s).setG x.d.toNat s.tsc)) ∧
  (∀ x s, issues (.timeEnergy x) s → exec (.timeEnergy x) s = .next ((past (.timeEnergy x) s).setG x.d.toNat s.core.energy)) ∧
  (∀ x s, issues (.timeEnergyL32A x) s →
    exec (.timeEnergyL32A x) s = .next ((past (.timeEnergyL32A x) s).setG x.d.toNat s.core.energy)) ∧
  (∀ x s v, issues (.sysrd x) s → (x.hi.toNat < 0x100 ∨ s.level ≠ .graph) → (past (.sysrd x) s).sysRead x.hi.toNat = .ok v →
    exec (.sysrd x) s = .next ((past (.sysrd x) s).setG x.d.toNat v)) ∧
  (∀ x s, issues (.sysrd x) s → x.hi = 0 → exec (.sysrd x) s = .next ((past (.sysrd x) s).setG x.d.toNat s.tsc)) ∧
  (∀ x s a, issues (.wick x) s → s.core.act = some a →
    exec (.wick x) s = .next (if hWick (s.core.handler a.entry) = 0 then past (.wick x) s
      else (past (.wick x) s).mapCore (fun c => { c with wick := s.wickInterval (psnRegion s.core.psn) a.ctx (hWick (s.core.handler a.entry)) }))) ∧
  (∀ x s a, issues (.wickL32A x) s → s.core.act = some a →
    exec (.wickL32A x) s = .next (if hWick (s.core.handler a.entry) = 0 then past (.wickL32A x) s
      else (past (.wickL32A x) s).mapCore (fun c =>
        { c with wick := s.wickInterval (psnRegion s.core.psn) a.ctx (hWick (s.core.handler a.entry)) })))

/-- R6, R291 to R294: SYSWR above graph level writes the region's limits, each inside its range, and ignores a write to a read-only register;
QUERY sends its word and leaves its register pending until the answer; YIELD without a home store tile or a free short record suspends
nothing (an attached member of a gang is detached by it, R279), and with them, once the activation's accesses have drained, suspends it with the registers its mask names. -/
def SystemEffects : Prop :=
  (∀ x s, issues (.syswr x) s → s.level ≠ .graph → exec (.syswr x) s = .next (match x.hi.toNat with
    | 0x100 => (past (.syswr x) s).modRegion (psnRegion s.core.psn) (·.setRunqAge (s.g x.a.toNat))
    | 0x101 => (past (.syswr x) s).modRegion (psnRegion s.core.psn) (·.setRingIdle (s.g x.a.toNat))
    | 0x102 => (past (.syswr x) s).modRegion (psnRegion s.core.psn) (·.setTombWindow (s.g x.a.toNat))
    | _ => past (.syswr x) s)) ∧
  (∀ x s, issues (.query x) s → queryOk (s.g x.a.toNat) = true →
    exec (.query x) s = .next (((past (.query x) s).launchItem (.query s.core.psn x.d.toNat (s.g x.a.toNat))).setPending
      (.g x.d.toNat) s.nextId)) ∧
  (∀ x s, issues (.queryL32A x) s → queryOk (s.g x.a.toNat) = true →
    exec (.queryL32A x) s = .next (((past (.queryL32A x) s).launchItem (.query s.core.psn x.d.toNat (s.g x.a.toNat))).setPending
      (.g x.d.toNat) s.nextId)) ∧
  (∀ i a act s, (∃ x, i = Instr.yield x ∧ a = x.a.toNat) ∨ (∃ x, i = Instr.yieldL32A x ∧ a = x.a.toNat) →
    issues i s → s.core.act = some act → s.core.bindsAny act.entry = false → maskOk (s.g a) act.window = true →
    ((s.homeTile s.core).bind (fun t => (s.getTile t).shortFor s.core.psn) = none → exec i s = .next (past i s).detach) ∧
    (∀ t k, s.homeTile s.core = some t → (s.getTile t).shortFor s.core.psn = some k → (past i s).drained s.core.psn act.serial = true →
      exec i s = .next ((past i s).leaveGang.suspend t k [] (s.g a) true)))

/-- R288, R414: TRAP n raises TRAP with n as its detail; the fault is taken with the pc past the instruction. -/
def TrapTakesItsFault : Prop :=
  (∀ x s, issues (.trap x) s →
    exec (.trap x) s = .next ((past (.trap x) s).takeFault { code := .trap, detail := BitVec.ofNat 256 x.hi.toNat })) ∧
  (∀ x s, issues (.trapL32B x) s →
    exec (.trapL32B x) s = .next ((past (.trapL32B x) s).takeFault { code := .trap, detail := BitVec.ofNat 256 x.imm.toNat }))

/-- R6, R242, R296 to R300, R331: the privileged instructions above graph level. Each has the effect of its Lantern operation and answers in a
predicate or a general register: GATE and NAMESET and SNUFF on their region, LEASEACK, the replies to a fault, and SPLICE on a Lantern's
service core. -/
def PrivilegedInstructions : Prop :=
  (∀ x s, issues (.gate x) s → psnClass s.core.psn ≠ 3 → (s.g x.a.toNat).toNat < 36 →
    exec (.gate x) s = .next (((past (.gate x) s).gate (psnRegion s.core.psn) (s.g x.a.toNat).toNat).2.setP x.d.toNat
      (allLanes ((past (.gate x) s).gate (psnRegion s.core.psn) (s.g x.a.toNat).toNat).1))) ∧
  (∀ x s p, issues (.snuff x) s → psnClass s.core.psn ≠ 3 → p = (s.g x.a.toNat).toNat → p < 2 ^ 24 →
    (past (.snuff x) s).canSnuff p = true → psnRegion p = psnRegion s.core.psn →
    (((past (.snuff x) s).getCore p).act.isSome ∨ (past (.snuff x) s).canNotice p = true) →
    exec (.snuff x) s = .next (((past (.snuff x) s).snuffCore p 2).setP x.d.toNat (BitVec.allOnes 32))) ∧
  (∀ x s p, issues (.snuff x) s → psnClass s.core.psn ≠ 3 → p = (s.g x.a.toNat).toNat → p < 2 ^ 24 →
    ((past (.snuff x) s).canSnuff p = false ∨ psnRegion p ≠ psnRegion s.core.psn) →
    exec (.snuff x) s = .next ((past (.snuff x) s).setP x.d.toNat 0)) ∧
  (∀ x s p n, issues (.nameset x) s → psnClass s.core.psn ≠ 3 → p = (s.g x.a.toNat).toNat → n = (s.g x.b.toNat).toNat →
    p < 2 ^ 24 → n < 2 ^ 24 →
    exec (.nameset x) s = .next (((past (.nameset x) s).rename (psnRegion s.core.psn) p (BitVec.ofNat 24 n)).2.setP x.d.toNat
      (allLanes ((past (.nameset x) s).rename (psnRegion s.core.psn) p (BitVec.ofNat 24 n)).1))) ∧
  (∀ x s n, issues (.leaseack x) s → (s.g x.b.toNat).toNat < 3 → n = (s.g x.a.toNat).toNat % 2 ^ 16 →
    exec (.leaseack x) s = .next (((past (.leaseack x) s).leaseAck ((past (.leaseack x) s).lampRegion n) n
        (s.g x.b.toNat).toNat).2.setG x.d.toNat
      (BitVec.ofNat 64 ((past (.leaseack x) s).leaseAck ((past (.leaseack x) s).lampRegion n) n (s.g x.b.toNat).toNat).1))) ∧
  (∀ e ∈ [(Instr.fresume, false), (Instr.fkill, true)], ∀ x s, issues (e.1 x) s →
    exec (e.1 x) s = .next (((past (e.1 x) s).reply s.core.psn (s.g x.a.toNat) e.2 none).2.setP x.d.toNat
      (allLanes ((past (e.1 x) s).reply s.core.psn (s.g x.a.toNat) e.2 none).1))) ∧
  (∀ x s, issues (.fresumeValue x) s →
    exec (.fresumeValue x) s = .next (((past (.fresumeValue x) s).reply s.core.psn (s.g x.a.toNat) false
        (some (leBytes 64 (s.v x.b.toNat).toNat))).2.setP x.d.toNat
      (allLanes ((past (.fresumeValue x) s).reply s.core.psn (s.g x.a.toNat) false (some (leBytes 64 (s.v x.b.toNat).toNat))).1))) ∧
  (∀ x s, issues (.splice x) s → psnClass s.core.psn = 2 → s.core.psn / 512 % 16 = 1 → fld (s.g x.a.toNat) 63 48 = 0 →
    fld (s.g x.a.toNat) 15 0 = 0 → fld (s.g x.b.toNat) 63 32 = 0 →
    exec (.splice x) s = .next (((past (.splice x) s).spliceStart (psnRegion s.core.psn) (s.g x.a.toNat).toNat (s.g x.b.toNat).toNat
        (x.hi.toNat % 32)).2.setG x.d.toNat
      ((past (.splice x) s).spliceStart (psnRegion s.core.psn) (s.g x.a.toNat).toNat (s.g x.b.toNat).toNat (x.hi.toNat % 32)).1))

/-- R6, R242, R243: a privileged instruction at graph level, in an activation that runs, raises PRIV whatever its operands, with its parcels and the check
step 3 in the detail; so do SYSWR, SYSRD of a register from 0x100 on, and a counter operation on q48 to q63, at their execution. -/
def PrivilegeFaults : Prop :=
  (∀ c ∈ [Instr.gate, Instr.snuff, Instr.nameset, Instr.leaseack, Instr.fresume, Instr.fresumeValue, Instr.fkill, Instr.splice],
    ∀ x s a, s.level = .graph → s.core.act = some a → a.halted = none →
    exec (c x) s = .next (s.takeFault { code := .priv, detail := parcelDetail (encode (c x)) 3 })) ∧
  (∀ x s, issues (.syswr x) s → s.level = .graph →
    exec (.syswr x) s = .next (s.takeFault { code := .priv, detail := parcelDetail (encode (.syswr x)) 6 })) ∧
  (∀ x s, issues (.sysrd x) s → s.level = .graph → 0x100 ≤ x.hi.toNat →
    exec (.sysrd x) s = .next (s.takeFault { code := .priv, detail := parcelDetail (encode (.sysrd x)) 6 })) ∧
  (∀ x s, issues (.qinc x) s → s.level = .graph → 48 ≤ x.d.toNat →
    exec (.qinc x) s = .next (s.takeFault { code := .priv, detail := parcelDetail (encode (.qinc x)) 6 }))

/-- R185, R309: a counter of the executing core is incremented with saturation at 2^64 − 1. -/
def CounterIncrements : Prop :=
  (∀ e ∈ [(Instr.qinc, fun (_ : Long) (_ : State) => 1), (Instr.qadd, fun x s => if x.wide then x.lit.toNat else
      if x.sub = 1 then (s.g x.b.toNat).toNat else x.hi.toNat)], ∀ x s, issues (e.1 x) s → (x.d.toNat < 48 ∨ s.level ≠ .graph) →
    ∃ t, exec (e.1 x) s = .next t ∧ t = (past (e.1 x) s).mapCore (·.addQ x.d.toNat (e.2 x s)) ∧
      (at_ t.core.q x.d.toNat 0).toNat = min ((at_ s.core.q x.d.toNat 0).toNat + e.2 x s) (2 ^ 64 - 1)) ∧
  (∀ x s, issues (.qincL32A x) s → (x.d.toNat < 48 ∨ s.level ≠ .graph) →
    exec (.qincL32A x) s = .next ((past (.qincL32A x) s).mapCore (·.addQ x.d.toNat 1))) ∧
  (∀ x s, issues (.qaddL32B x) s → (x.d.toNat < 48 ∨ s.level ≠ .graph) →
    exec (.qaddL32B x) s = .next ((past (.qaddL32B x) s).mapCore (·.addQ x.d.toNat x.imm.toNat)))

/-- R187, R309 to R314, R99: reading and posting counters, waiting on them, and the batch and visibility waits. A read of a core's counter is
immediate; a read or post of a store counter is an access of a tile; a post to a core is a message on handle 31. WAITQ goes on where its counters are
reached, and else, with a free short record and nothing outstanding, suspends the activation. SUCCHINT marks a graph whose header has SUCC (R394). The words read hold no error beyond correction, and a corrected one is noted (R76). -/
def CounterReadsAndWaits : Prop :=
  (∀ x s, issues (.qrd x) s → x.hi.toNat % 128 < 64 →
    exec (.qrd x) s = .next ((past (.qrd x) s).setG x.d.toNat (s.core.getQ (x.hi.toNat % 128)))) ∧
  (∀ x s a t, issues (.qrd x) s → 64 ≤ x.hi.toNat % 128 → s.core.act = some a → s.homeTile s.core = some t →
    (past (.qrd x) s).hasRoom a Order.none [] = true →
    exec (.qrd x) s = .next (((past (.qrd x) s).setG x.d.toNat 0).tileAccess a 0xFF t 0 opCounterRead (x.hi.toNat % 128 - 64) []
      (.gpr x.d.toNat 0 7) Order.none)) ∧
  (∀ x s a n, issues (.qpost x) s → s.core.act = some a → n = (if x.wide then x.lit.toNat else (s.g x.b.toNat).toNat) →
    (x.postRef < 48 ∨ s.level ≠ .graph) → x.postRef < 64 → fld (s.g x.a.toNat) 63 24 = 0 →
    exec (.qpost x) s = .next (((past (.qpost x) s).launchItem (.message
      { message s.core.psn (psnRegion s.core.psn) s.core.name ((s.g x.a.toNat).extractLsb' 0 24) 31 (postPayload n true x.postRef) with
        deps := (x.order s).after, acks := s.nextId })).leaveTokens (x.order s) [s.nextId])) ∧
  (∀ x s a t n, issues (.qpost x) s → s.core.act = some a → n = (if x.wide then x.lit.toNat else (s.g x.b.toNat).toNat) →
    64 ≤ x.postRef → fld (s.g x.a.toNat) 63 8 = 0 → s.storeTile s.core (fld (s.g x.a.toNat) 7 0) = some t →
    (past (.qpost x) s).hasRoom a (x.order s) [] = true →
    exec (.qpost x) s = .next ((past (.qpost x) s).tileAccess a (fld (s.g x.a.toNat) 7 0) t 0 opCounterPost (x.postRef - 64)
      (leBytes 8 n) .none (x.order s))) ∧
  (∀ x s a pairs, issues (.waitq x) s → s.core.act = some a → x.sub ≠ 1 → pairs = [(x.hi.toNat % 128, s.g x.b.toNat)] →
    x.hi.toNat % 128 < 80 → maskOk (s.g x.c.toNat) a.window = true → s.core.bindsAny a.entry = false →
    (x.hi.toNat % 128 < 64 ∨ (s.homeTile s.core).isSome) →
    (s.homeTile s.core).bind (fun t => (s.getTile t).reservedBy s.core.psn) = none →
    ((past (.waitq x) s).allReached s.core.psn ((s.homeTile s.core).getD 0) pairs = true →
      exec (.waitq x) s = .next ((past (.waitq x) s).mapAct (fun a => { a with waits := [] }))) ∧
    ((past (.waitq x) s).allReached s.core.psn ((s.homeTile s.core).getD 0) pairs = false →
      ∀ t k, s.homeTile s.core = some t → (s.getTile t).freeShort = some k → (past (.waitq x) s).drained s.core.psn a.serial = true →
      exec (.waitq x) s = .next ((past (.waitq x) s).leaveGang.suspend t k pairs (s.g x.c.toNat) false))) ∧
  (∀ x s p n t, issues (.waitq x) s → x.sub = 1 → p = (s.g x.a.toNat).toNat → p % 8 = 0 → p + 8 ≤ 0x18000 → (past (.waitq x) s).localBusy = false →
    n = ofLe (s.bytes (localKey s.core.psn p) 8) → 1 ≤ n → n ≤ 4 → p + 8 + 16 * n ≤ 0x18000 →
    (∀ k < n, ofLe (s.bytes (localKey s.core.psn p + 8 + 16 * k) 8) < 80) → s.spoiled (localKey s.core.psn p) (8 + 16 * n) = false →
    waitOn x.bytes ((List.range n).map (fun k => (ofLe (s.bytes (localKey s.core.psn p + 8 + 16 * k) 8),
      BitVec.ofNat 64 (ofLe (s.bytes (localKey s.core.psn p + 16 + 16 * k) 8))))) (s.g x.c.toNat) (past (.waitq x) s) = .ok t →
    exec (.waitq x) s = .next (t.noteRead (localKey s.core.psn p) (8 + 16 * n))) ∧
  (∀ x s t, issues (.batch x) s → closeBatch (past (.batch x) s) = .ok t → exec (.batch x) s = .next t) ∧
  (∀ x s, issues (.batch x) s → s.core.batch = [] →
    exec (.batch x) s = .next ((past (.batch x) s).mapCore (fun c => { c with batches := s.core.outstanding }))) ∧
  (∀ x s t, issues (.waitb x) s → closeBatch (past (.waitb x) s) = .ok t → t.core.outstanding.length ≤ x.hi.toNat →
    exec (.waitb x) s = .next t) ∧
  (∀ x s, issues (.waitvis x) s → x.hi.toNat ≤ (s.core.getQ 50).toNat → exec (.waitvis x) s = .next (past (.waitvis x) s)) ∧
  (∀ x s, issues (.succhint x) s → exec (.succhint x) s = .next (match s.graphOn s.core.psn with
    | none => past (.succhint x) s
    | some g => if g.header.getLsbD 21 then (past (.succhint x) s).putGraph { g with hinted := true }
      else past (.succhint x) s)) ∧
  (∀ x s, issues (.succhintL32A x) s → exec (.succhintL32A x) s = .next (match s.graphOn s.core.psn with
    | none => past (.succhintL32A x) s
    | some g => if g.header.getLsbD 21 then (past (.succhintL32A x) s).putGraph { g with hinted := true }
      else past (.succhintL32A x) s))

/-- R94, R95, R315 to R317, R319: the waits and reads of a handle of its direction whose descriptor is valid, in their long and short forms. HWAITF
goes on once its count of slots is filled, or the queue has ended, and says which in a predicate; HWAITE once its count of staging slots is free; HLD reads the
bytes of a filled slot in presentation order and HSTAT the handle's status word. The words read hold no error beyond correction, and a corrected one is noted (R76). -/
def HandleWaitsAndReads : Prop :=
  (∀ x s h n, issues (.hwaitf x) s → h = x.a.toNat → n = x.count s → h < 20 → s.core.queueOk.getLsbD h = true → 1 ≤ n → n ≤ 256 →
    n ≤ qDepth (s.core.queue h) → (n ≤ s.core.filled h ∨ qEnded (s.core.queue h) = true) →
    exec (.hwaitf x) s = .next ((past (.hwaitf x) s).setP x.d.toNat (if n ≤ s.core.filled h then BitVec.allOnes 32 else 0))) ∧
  (∀ x s h n, issues (.hwaitfL32B x) s → h = x.a.toNat → n = x.imm.toNat → h < 20 → s.core.queueOk.getLsbD h = true → 1 ≤ n → n ≤ 256 →
    n ≤ qDepth (s.core.queue h) → (n ≤ s.core.filled h ∨ qEnded (s.core.queue h) = true) →
    exec (.hwaitfL32B x) s = .next (past (.hwaitfL32B x) s)) ∧
  (∀ x s h n, issues (.hwaite x) s → h = x.a.toNat → n = x.count s → 20 ≤ h → s.core.queueOk.getLsbD h = true → 1 ≤ n → n ≤ 256 →
    n ≤ oDepth (s.core.queue h) → n ≤ oFree (s.core.queue h) → exec (.hwaite x) s = .next (past (.hwaite x) s)) ∧
  (∀ x s h n, issues (.hwaiteL32B x) s → h = x.a.toNat → n = x.imm.toNat → 20 ≤ h → s.core.queueOk.getLsbD h = true → 1 ≤ n → n ≤ 256 →
    n ≤ oDepth (s.core.queue h) → n ≤ oFree (s.core.queue h) → exec (.hwaiteL32B x) s = .next (past (.hwaiteL32B x) s)) ∧
  (∀ x s h n k place, issues (.hld x) s → h = x.a.toNat → n = (s.g x.b.toNat).toNat → h < 20 → s.core.queueOk.getLsbD h = true →
    x.hi.toNat % elemBytes x.sub = 0 → x.hi.toNat + elemBytes x.sub ≤ qSlotBytes (s.core.queue h) → n < qDepth (s.core.queue h) →
    (past (.hld x) s).localBusy = false → (s.core.presented h)[n]? = some (k, place) →
    s.spoiled (localKey s.core.psn (slotAddr (s.core.queue h) k place + x.hi.toNat)) (elemBytes x.sub) = false →
    exec (.hld x) s = .next (((past (.hld x) s).setG x.d.toNat (extend x.sub
      (ofLe (s.bytes (localKey s.core.psn (slotAddr (s.core.queue h) k place + x.hi.toNat)) (elemBytes x.sub))))).noteRead
      (localKey s.core.psn (slotAddr (s.core.queue h) k place + x.hi.toNat)) (elemBytes x.sub))) ∧
  (∀ x s, issues (.hstat x) s → s.core.queueOk.getLsbD x.a.toNat = true →
    exec (.hstat x) s = .next ((past (.hstat x) s).setG x.d.toNat (hstatWord s.core x.a.toNat))) ∧
  (∀ x s, issues (.hstatL32A x) s → s.core.queueOk.getLsbD x.a.toNat = true →
    exec (.hstatL32A x) s = .next ((past (.hstatL32A x) s).setG x.d.toNat (hstatWord s.core x.a.toNat)))

/-- R315: an input handle where an instruction writes a queue, an output handle where it reads or waits for one, and a handle whose descriptor is
invalid, raise ILLEGAL at execution. -/
def HandleFaults : Prop :=
  (∀ e ∈ [(Instr.hwaitf, true), (Instr.hwaite, false), (Instr.hld, true), (Instr.hst, false), (Instr.hadvc, true), (Instr.hadvp, false),
      (Instr.heos, false)], ∀ x s, issues (e.1 x) s → (s.core.queueOk.getLsbD x.a.toNat = false ∨ (x.a.toNat < 20 ↔ e.2 = false)) →
    exec (e.1 x) s = .next (s.takeFault { code := .illegal, detail := parcelDetail (encode (e.1 x)) 6 })) ∧
  (∀ e ∈ [(Instr.hwaitfL32B, true), (Instr.hwaiteL32B, false), (Instr.hadvcL32B, true), (Instr.hadvpL32B, false)], ∀ x s, issues (e.1 x) s →
    (s.core.queueOk.getLsbD x.a.toNat = false ∨ (x.a.toNat < 20 ↔ e.2 = false)) →
    exec (e.1 x) s = .next (s.takeFault { code := .illegal, detail := parcelDetail (encode (e.1 x)) 6 }))

/-- What HADVC leaves (R318, R93, R94): RD_PTR has grown by n, the n oldest presented slots are gone, the turn is the one after the producer of the last of
them, a credit for each slot goes to the producer that filled it, grouped by producer, and the queue's end is looked for (R95). -/
def advanced (h n : Nat) (s : State) : State :=
  let q := s.core.queue h
  let freed : List (Nat × Nat) := (s.core.presented h).take n
  let c : Core := { (s.core.setQueue h (setFld q 63 32 (qRead q + n))) with
             arrivals := s.core.arrivals.filter (fun x => x.1 != h || !freed.contains x.2)
             turns := upsert s.core.turns (·.1 == h) (h, (freed.getLast?.map (fun e => (e.1 + 1) % qProducers q)).getD (s.core.turnOf h)) }
  ((List.range (qProducers q)).foldl (fun (t : State) k => match s.producerEnd s.core h k with
    | some (p, o) => if freed.countP (·.1 == k) = 0 then t else t.launchItem (.credit p o (freed.countP (·.1 == k)))
    | none => t) { s with core := c }).endCheck s.core.psn h

/-- R93, R94, R317, R318: the writers of a handle of their direction whose descriptor is valid. HST stores into a free staging slot of the LOCAL ring; HADVP
closes staging slots in order, HEOS appends the end mark, and both leave the sending to the core; HADVC frees the oldest presented slots,
remembers whose turn is next, and returns one credit for each to the producer that filled it. -/
def HandleWriters : Prop :=
  (∀ x s h n, issues (.hst x) s → h = x.a.toNat → n = (s.g x.b.toNat).toNat → 20 ≤ h → s.core.queueOk.getLsbD h = true →
    x.hi.toNat % elemBytes x.sub = 0 → x.hi.toNat + elemBytes x.sub ≤ oSlotBytes (s.core.queue h) → n < oDepth (s.core.queue h) →
    (past (.hst x) s).localBusy = false → s.core.copying h = false → n < oFree (s.core.queue h) →
    exec (.hst x) s = .next ((past (.hst x) s).poke (localKey s.core.psn (oBase (s.core.queue h) +
      (oProd (s.core.queue h) + n) % oDepth (s.core.queue h) * oSlotBytes (s.core.queue h) + x.hi.toNat))
      (leBytes (elemBytes x.sub) (s.g x.d.toNat).toNat))) ∧
  (∀ x s h n, issues (.hadvp x) s → h = x.a.toNat → n = x.count s → 20 ≤ h → s.core.queueOk.getLsbD h = true → 1 ≤ n → n ≤ 256 →
    oEosSent (s.core.queue h) = false → s.core.copying h = false → n ≤ oFree (s.core.queue h) →
    exec (.hadvp x) s = .next ((past (.hadvp x) s).mapCore (fun c =>
      { (c.setQueue h (setFld (s.core.queue h) 31 16 (oProd (s.core.queue h) + n))) with
        staged := c.staged ++ List.replicate n (h, false, x.afterSet s) }))) ∧
  (∀ x s h n, issues (.hadvpL32B x) s → h = x.a.toNat → n = x.imm.toNat → 20 ≤ h → s.core.queueOk.getLsbD h = true → 1 ≤ n → n ≤ 256 →
    oEosSent (s.core.queue h) = false → s.core.copying h = false → n ≤ oFree (s.core.queue h) →
    exec (.hadvpL32B x) s = .next ((past (.hadvpL32B x) s).mapCore (fun c =>
      { (c.setQueue h (setFld (s.core.queue h) 31 16 (oProd (s.core.queue h) + n))) with
        staged := c.staged ++ List.replicate n (h, false, []) }))) ∧
  (∀ x s h, issues (.heos x) s → h = x.a.toNat → 20 ≤ h → s.core.queueOk.getLsbD h = true → oEosSent (s.core.queue h) = false →
    s.core.copying h = false →
    exec (.heos x) s = .next ((past (.heos x) s).mapCore (fun c => { (c.setQueue h (setBit (s.core.queue h) 81 true)) with
      staged := c.staged ++ [(h, true, x.afterSet s)] }))) ∧
  (∀ x s h n, issues (.hadvc x) s → h = x.a.toNat → n = x.count s → h < 20 → s.core.queueOk.getLsbD h = true → 1 ≤ n → n ≤ 256 →
    n ≤ (s.core.presented h).length → exec (.hadvc x) s = .next (advanced h n (past (.hadvc x) s))) ∧
  (∀ x s h n, issues (.hadvcL32B x) s → h = x.a.toNat → n = x.imm.toNat → h < 20 → s.core.queueOk.getLsbD h = true → 1 ≤ n → n ≤ 256 →
    n ≤ (s.core.presented h).length → exec (.hadvcL32B x) s = .next (advanced h n (past (.hadvcL32B x) s)))

/-- R93, R320 to R322, R363: the senders of whole messages. SEND takes its slot from LOCAL through a capability and SENDQ from vector registers;
each spends a credit of its handle, once nothing is staged before it. CRED posts its value as the core's contribution to the next round of
its tree and leaves its register pending. The words read hold no error beyond correction, and a corrected one is noted (R76). -/
def MessageSenders : Prop :=
  (∀ x s h a, issues (.send x) s → h = x.a.toNat → 20 ≤ h → (past (.send x) s).canSend h = .ok () → s.core.queueOk.getLsbD h = true →
    (s.c x.b.toNat).space = 0 →
    (past (.send x) s).checkCap { Ask.load x.b.toNat with answers := false } (s.c x.b.toNat) (s.offset x.c.toNat x.hi.toInt)
      (oSlotBytes (s.core.queue h)) = .ok a →
    a % oSlotBytes (s.core.queue h) = 0 → (past (.send x) s).localBusy = false →
    s.spoiled (localKey s.core.psn a) (oSlotBytes (s.core.queue h)) = false →
    exec (.send x) s = .next (((past (.send x) s).sendSlot s.core.psn h
      ((past (.send x) s).localBytes (past (.send x) s).core a (oSlotBytes (s.core.queue h))) (x.afterSet s)).noteRead
      (localKey s.core.psn a) (oSlotBytes (s.core.queue h)))) ∧
  (∀ x s h n u, issues (.sendq x) s → h = x.a.toNat → 20 ≤ h → n = (oSlotBytes (s.core.queue h) + 63) / 64 → s.core.queueOk.getLsbD h = true →
    x.b.toNat + n ≤ 32 → (past (.sendq x) s).canSend h = .ok () → (∀ k < n, s.core.isPending (.v (x.b.toNat + k)) = false) →
    (past (.sendq x) s).popAll ((List.range n).map (fun k => (x.b.toNat + k, none))) = .ok u →
    exec (.sendq x) s = .next (u.sendSlot u.core.psn h (((List.range n).flatMap (fun k =>
      leBytes 64 (u.vin (x.b.toNat + k)).toNat)).take (oSlotBytes (s.core.queue h))) (x.afterSet u))) ∧
  (∀ x s a tr l round, issues (.cred x) s → s.core.act = some a →
    (s.getRegion (psnRegion s.core.psn)).trees.find? (fun t => t.number == x.hi.toNat % 16 && t.ctx == a.ctx) = some tr →
    s.logicalOf s.core.psn = some l → tr.leaves.contains l = true →
    round = ((s.core.credRound.find? (·.1 == x.hi.toNat % 16)).map (·.2)).getD 0 →
    exec (.cred x) s = .next ((((past (.cred x) s).mapCore (fun c =>
        { c with credRound := upsert c.credRound (·.1 == x.hi.toNat % 16) (x.hi.toNat % 16, round + 1) })).launchItem
      (.contribution (psnRegion s.core.psn) (x.hi.toNat % 16) s.core.psn round (x.c.toNat % 8) x.sub.toNat (x.c.toNat / 8 % 4) (x.c.getLsbD 5)
        (s.g x.a.toNat) (encode (.cred x)))).setPending (.g x.d.toNat) s.nextId))

/-- A form of a memory instruction: what it asks, its capability register, offset, size in bytes, order, what it does with each part, and the
general register that reads pending meanwhile (R301 to R307, R285). -/
structure MemForm where
  instr : Instr
  ask : State → Ask
  cap : Nat
  off : State → Int
  size : Nat
  order : State → Order
  errand : State → Errand
  clears : Nat

def loadErrand (d : Nat) (t : TyCode) : Errand := { kind := .load, data := [], tagv := false, aop := 0, operand2 := [], landing := .gpr d 0 t }
def storeErrand (data : List Byte) : Errand := { kind := .store, data, tagv := false, aop := 0, operand2 := [], landing := .none }
def atomicErrand (n d op : Nat) (t : TyCode) (rm : BitVec 2) (s : State) : Errand :=
  { kind := .atomic, data := leBytes n (s.g d).toNat, tagv := false, aop := atomicCode op t rm, operand2 := if op = 7 then leBytes n (s.g (d + 1)).toNat else [],
    landing := .gpr d 0 t }
def capLoadErrand (d : Nat) (keep : Bool) : Errand :=
  { kind := .capLoad, data := [], tagv := false, aop := 0, operand2 := [], landing := .cap d keep }
def capStoreErrand (c : Cap) : Errand :=
  { kind := .capStore, data := leBytes 16 c.bits.toNat, tagv := c.tag, aop := 0, operand2 := [], landing := .none }

def longLoad (c : Long → Instr) (x : Long) (o : State → Order) : MemForm :=
  { instr := c x, ask := fun _ => Ask.load x.a.toNat, cap := x.a.toNat, off := x.memOff, size := elemBytes x.sub, order := o,
    errand := fun _ => loadErrand x.d.toNat x.sub, clears := x.d.toNat }
def longStore (c : Long → Instr) (x : Long) (o : State → Order) : MemForm :=
  { instr := c x, ask := fun _ => Ask.store x.a.toNat, cap := x.a.toNat, off := x.memOff, size := elemBytes x.sub, order := o,
    errand := fun s => storeErrand (leBytes (elemBytes x.sub) (s.g x.d.toNat).toNat), clears := 0 }
def longAtomic (c : Long → Instr) (op : Nat) (t : TyCode) (rm : BitVec 2) (x : Long) : MemForm :=
  { instr := c x, ask := fun _ => Ask.atomic x.a.toNat, cap := x.a.toNat, off := x.memOff, size := elemBytes t, order := x.order,
    errand := atomicErrand (elemBytes t) x.d.toNat op t rm, clears := x.d.toNat }
def shortLoad (c : ShortB → Instr) (t : TyCode) (x : ShortB) : MemForm :=
  { instr := c x, ask := fun _ => Ask.load x.a.toNat, cap := x.a.toNat, off := fun s => s.offset 0 x.imm.toInt, size := elemBytes t,
    order := fun _ => Order.none, errand := fun _ => loadErrand x.d.toNat t, clears := x.d.toNat }
def shortStore (c : ShortB → Instr) (n : Nat) (x : ShortB) : MemForm :=
  { instr := c x, ask := fun _ => Ask.store x.a.toNat, cap := x.a.toNat, off := fun s => s.offset 0 x.imm.toInt, size := n,
    order := fun _ => Order.none, errand := fun s => storeErrand (leBytes n (s.g x.d.toNat).toNat), clears := 0 }
def capLoadForm (i : Instr) (a d : Nat) (off : State → Int) (o : State → Order) (s : State) : MemForm :=
  { instr := i, ask := fun _ => Ask.capLoad a, cap := a, off, size := 16, order := o, errand := fun _ => capLoadErrand d (s.c a).hasC, clears := 0 }
def capStoreForm (i : Instr) (a d : Nat) (off : State → Int) (o : State → Order) : MemForm :=
  { instr := i, ask := fun s => Ask.capStore a (s.c d), cap := a, off, size := 16, order := o, errand := fun s => capStoreErrand (s.c d), clears := 0 }

/-- The forms of the loads and stores of general registers. -/
noncomputable def loadForms (x : Long) (y : ShortB) : List MemForm :=
  [longLoad .ld x x.order, longLoad .lda x (fun s => { x.order s with lda := some x.scope }), shortLoad .ldN64L32B 7 y,
   shortLoad .ldI32L32B 2 y, shortLoad .ldN32L32B 6 y, shortLoad .ldI16L32B 1 y, shortLoad .ldN16L32B 5 y, shortLoad .ldI8L32B 0 y,
   shortLoad .ldN8L32B 4 y]
noncomputable def storeForms (x : Long) (y : ShortB) : List MemForm :=
  [longStore .st x x.order, longStore .stl x (fun s => { x.order s with stl := some x.scope }), shortStore .stN64L32B 8 y,
   shortStore .stN32L32B 4 y, shortStore .stN16L32B 2 y, shortStore .stN8L32B 1 y]
/-- The atomics, of which ACAS takes its second operand from the next register. -/
noncomputable def atomicForms (x : Long) : List MemForm :=
  [longAtomic .aadd 0 x.sub 0 x, longAtomic .amin 1 x.sub 0 x, longAtomic .amax 2 x.sub 0 x, longAtomic .aand 3 x.sub 0 x,
   longAtomic .aor 4 x.sub 0 x, longAtomic .axor 5 x.sub 0 x, longAtomic .aswp 6 x.sub 0 x, longAtomic .acas 7 x.sub 0 x,
   longAtomic .aaddf 8 x.sub (if x.wide then x.rm else 0) x]
noncomputable def capForms (x : Long) (y : ShortB) (s : State) : List MemForm :=
  [capLoadForm (.cldc x) x.a.toNat x.d.toNat x.memOff x.order s,
   capLoadForm (.cldcL32B y) y.a.toNat y.d.toNat (fun s => s.offset 0 (y.imm.toInt * 16)) (fun _ => Order.none) s,
   capStoreForm (.cstc x) x.a.toNat x.d.toNat x.memOff x.order,
   capStoreForm (.cstcL32B y) y.a.toNat y.d.toNat (fun s => s.offset 0 (y.imm.toInt * 16)) (fun _ => Order.none)]

/-- None of the LOCAL words that some parts name holds an error beyond correction (R76). -/
def readable (s : State) (ps : List Part) : Prop :=
  ∀ p ∈ ps, ∀ addr, p.owner = .local addr → s.spoiled (localKey s.core.psn addr) p.size = false
/-- The instruction is not one that a RESUME with value has answered (R67), its access passes CheckAccess (R51), it is translated to parts
(R52, R55), and the order queue and the DRAM requests have room (R108, R152); what it reads of LOCAL can be read. -/
def MemForm.passes (m : MemForm) (s : State) (act : Act) (ps : List Part) : Prop :=
  let u := past m.instr s
  issues m.instr s ∧ s.core.act = some act ∧ act.resumed = none ∧
    (∃ a, u.checkCap (m.ask s) (s.c m.cap) (m.off s) m.size = .ok a ∧ u.resolve (m.ask s) (s.c m.cap).space a m.size = .parts ps) ∧
    ((u.touch ps).setG m.clears 0).hasRoom act (m.order s) ps = true ∧
    ((m.errand s).kind ≠ .store → (m.errand s).kind ≠ .capStore → readable s ps)

/-- The state an access leaves: its register reads 0 until the parts come, each part is performed at once where it may be or is in flight, and the
tokens it emits name the items in flight. -/
def MemForm.sent (m : MemForm) (s : State) (act : Act) (ps : List Part) : State :=
  let r := (((past m.instr s).touch ps).setG m.clears 0).sendAll act (m.order s) (ps.map (fun p => (p, m.errand s)))
  r.2.leaveTokens (m.order s) r.1

/-- R51, R52, R143, R149, R285, R301 to R307: every load, store, atomic and capability access whose checks pass and for which there is room sends
its parts and goes on. ACAS needs its second register inside the window and written. The words read hold no error beyond correction (R76). -/
def AccessesAreSent : Prop :=
  ∀ x y s act ps, ∀ m ∈ loadForms x y ++ storeForms x y ++ atomicForms x ++ capForms x y s, m.passes s act ps →
    (m.instr = .acas x → x.d.toNat + 1 < act.window ∧ s.core.isPending (.g (x.d.toNat + 1)) = false) →
    exec m.instr s = .next (m.sent s act ps)

/-- R67: where a RESUME with value has answered the instruction at the pc, it counts as performed with the bytes supplied: a load or an atomic extends
them by its type into its register, a capability load takes them without a tag, a store has nothing left to do. -/
def AnsweredAccesses : Prop :=
  ∀ x y s act v, s.core.act = some act → act.resumed = some v →
    (∀ m ∈ loadForms x y ++ atomicForms x, issues m.instr s →
      (m.instr = .acas x → x.d.toNat + 1 < act.window ∧ s.core.isPending (.g (x.d.toNat + 1)) = false) →
      ∃ t, (m.errand s).landing = .gpr m.clears 0 t ∧
        exec m.instr s = .next (((past m.instr s).consume (m.order s)).setG m.clears (extend t (ofLe (v.take m.size))))) ∧
    (∀ m ∈ storeForms x y, issues m.instr s → exec m.instr s = .next ((past m.instr s).consume (m.order s))) ∧
    (issues (.cldc x) s → exec (.cldc x) s = .next (((past (.cldc x) s).consume (x.order s)).setC x.d.toNat
      { tag := false, bits := BitVec.ofNat 128 (ofLe (v.take 16)) })) ∧
    (issues (.cstc x) s → exec (.cstc x) s = .next ((past (.cstc x) s).consume (x.order s)))

/-- The one part of a LOCAL access (R35). -/
def localPart (a n : Nat) : Part :=
  { owner := .local a, space := 0, addr := a, phys := a, place := 0, size := n, pkind := 1, key := 0, tags := decide (a + n ≤ 0x18000),
    spliced := false }

/-- What a LOCAL access asks beside its form: it issues, its capability is one of LOCAL and passes CheckAccess with the address a, and nothing it is
ordered after is under way, while the order queue has room (R152). -/
def MemForm.atLocal (m : MemForm) (s : State) (act : Act) (a : Nat) : Prop :=
  issues m.instr s ∧ s.core.act = some act ∧ act.resumed = none ∧ (s.c m.cap).space = 0 ∧
    (past m.instr s).checkCap (m.ask s) (s.c m.cap) (m.off s) m.size = .ok a ∧
    (past m.instr s).orderDeps act (m.order s) (localPart a m.size) = [] ∧ s.heldCount s.core.psn < 32

/-- R35, R145, R304: a load from LOCAL that waits for nothing is performed at once (log entry 7): its register takes the little-endian bytes, extended by
the type; a load into g0 is discarded. Every other register, all memory, all tags and all items in flight are as they were, and the pc stands
past the instruction. The words read hold no error beyond correction (R76). -/
def LocalLoads : Prop :=
  ∀ x y s act a, ∀ m ∈ loadForms x y, m.atLocal s act a → s.core.isPending (.g m.clears) = false →
    s.spoiled (localKey s.core.psn a) m.size = false →
    ∃ t ty, (m.errand s).landing = .gpr m.clears 0 ty ∧ exec m.instr s = .next t ∧
      (∀ n, t.g n = if n = m.clears ∧ n ≠ 0 then extend ty (ofLe (s.localBytes s.core a m.size)) else s.g n) ∧
      (∀ n, t.v n = s.v n ∧ t.p n = s.p n ∧ t.c n = s.c n) ∧ t.mem = s.mem ∧ t.tags = s.tags ∧ t.flight = s.flight ∧
      t.core.regs.pc = s.core.regs.pc + BitVec.ofNat 64 (byteLength m.instr)

/-- R35, R45, R145, R304: a store to LOCAL that waits for nothing is performed at once (log entry 7). Every byte of memory reads as before but those
from the checked address on, as many as the type has, which read the register's low bytes, the least significant first; a granule keeps its tag
exactly where the store does not touch it. No general, vector, predicate or capability register changes. -/
def LocalStores : Prop :=
  ∀ x y s act a, ∀ m ∈ storeForms x y, m.atLocal s act a →
    ∃ t d, (m.errand s).data = leBytes m.size (s.g d).toNat ∧ exec m.instr s = .next t ∧
      (∀ k, Mem.read t.mem k = if localKey s.core.psn a ≤ k ∧ k < localKey s.core.psn a + m.size
        then BitVec.ofNat 8 ((s.g d).toNat / 256 ^ (k - localKey s.core.psn a)) else Mem.read s.mem k) ∧
      (∀ k, k ∈ t.tags ↔ k ∈ s.tags ∧ ¬(localKey s.core.psn a < k * 16 + 16 ∧ k * 16 < localKey s.core.psn a + m.size)) ∧
      (∀ n, t.g n = s.g n ∧ t.v n = s.v n ∧ t.p n = s.p n ∧ t.c n = s.c n) ∧ t.flight = s.flight ∧
      t.core.regs.pc = s.core.regs.pc + BitVec.ofNat 64 (byteLength m.instr)

/-- R45, R47, R285: a capability loaded from LOCAL is the granule with its tag, which is kept only through a capability with C; a capability stored to
LOCAL sets the granule's 16 bytes and its tag as one unit. Reading the granule after the store gives the capability stored.
The words read hold no error beyond correction (R76). -/
def LocalCapabilities : Prop :=
  (∀ x y s act a, ∀ m ∈ [capLoadForm (.cldc x) x.a.toNat x.d.toNat x.memOff x.order s,
      capLoadForm (.cldcL32B y) y.a.toNat y.d.toNat (fun s => s.offset 0 (y.imm.toInt * 16)) (fun _ => Order.none) s],
    m.atLocal s act a → a < 0x18000 → s.spoiled (localKey s.core.psn a) 16 = false → ∃ t d, (m.errand s).landing = .cap d (s.c m.cap).hasC ∧ exec m.instr s = .next t ∧
      (d < 16 → t.c d = { tag := (s.peekCap (localKey s.core.psn a)).tag && (s.c m.cap).hasC,
                          bits := (s.peekCap (localKey s.core.psn a)).bits }) ∧
      (∀ n, n ≠ d → t.c n = s.c n) ∧ (∀ n, t.g n = s.g n ∧ t.v n = s.v n ∧ t.p n = s.p n) ∧ t.mem = s.mem ∧ t.tags = s.tags) ∧
  (∀ x y s act a, ∀ m ∈ [capStoreForm (.cstc x) x.a.toNat x.d.toNat x.memOff x.order,
      capStoreForm (.cstcL32B y) y.a.toNat y.d.toNat (fun s => s.offset 0 (y.imm.toInt * 16)) (fun _ => Order.none)],
    m.atLocal s act a → a % 16 = 0 → ∃ t d, (m.errand s) = capStoreErrand (s.c d) ∧ exec m.instr s = .next t ∧
      t.peekCap (localKey s.core.psn a) = s.c d ∧
      (∀ k, ¬(localKey s.core.psn a ≤ k ∧ k < localKey s.core.psn a + 16) → Mem.read t.mem k = Mem.read s.mem k) ∧
      (∀ n, t.g n = s.g n ∧ t.v n = s.v n ∧ t.p n = s.p n ∧ t.c n = s.c n))

/-- R160: FENCE.core holds nothing and its token is satisfied at once; a wider FENCE adds to the activation's fences its scope with the accesses
of its scope not yet complete and what its AFTER waits for. -/
def Fences : Prop :=
  (∀ x s act, issues (.fence x) s → s.core.act = some act → x.scope = 0 →
    exec (.fence x) s = .next ((past (.fence x) s).leaveTokens (x.order s) [])) ∧
  (∀ x s act held, issues (.fence x) s → s.core.act = some act → x.scope ≠ 0 →
    held = ((((s.accessesOf s.core.psn).filter (fun y => !y.2.engine && y.2.serial == act.serial &&
        decide (y.2.scope s.core.homeStore.toNat ≤ x.scope))).map (·.1)) ++ (x.order s).after.filter (fun i => !s.gone [i])).eraseDups →
    exec (.fence x) s = .next (((past (.fence x) s).mapAct (fun a =>
      { a with fences := a.fences.filter (fun f => !s.gone f.2) ++ [(x.scope, held)] })).leaveTokens (x.order s) held))

/-- R153: OJOIN sets its destination token to the union of the sets of its two sources, read at its issue, any of the three of which may be one token; token 0 contributes
the empty set, and a write to it is discarded. It waits for nothing beyond its issue and performs no access. -/
def TokenJoin : Prop :=
  (∀ x s, issues (.ojoin x) s → ∃ t, exec (.ojoin x) s = .next t ∧
    t = (past (.ojoin x) s).setTok x.d.toNat (s.tok x.a.toNat ++ s.tok x.b.toNat).eraseDups ∧
    (∀ i, x.d ≠ 0 → x.d.toNat < 8 → (i ∈ t.tok x.d.toNat ↔ i ∈ s.tok x.a.toNat ∨ i ∈ s.tok x.b.toNat)) ∧
    (∀ n, n ≠ x.d.toNat → t.tok n = s.tok n) ∧ t.flight = s.flight ∧ t.mem = s.mem) ∧
  (∀ s : State, s.tok 0 = [])

/-- What a prefetch asks: 8 bytes for a load, or for a store where it intends a write; nothing waits for its answer (R305). -/
def prefetchAsk (cap : Nat) (write : Bool) : Ask :=
  { (if write then Ask.store cap else Ask.load cap) with code := prefetchCode, answers := false }
/-- What a prefetch leaves of itself. -/
def prefetched (i : Instr) (o : Order) (s : State) : State := ((past i s).mapAct (fun a => { a with resumed := none })).leaveTokens o []
/-- A prefetch with its order drops where its check or translation fails, and otherwise activates the rows of its parts in DRAM, each by a request
that reads no byte. -/
def prefetches (i : Instr) (cap : Nat) (off : Int) (write : Bool) (o : Order) (s : State) : Prop :=
  ∀ act, s.core.act = some act → issues i s →
    (act.resumed.isSome → exec i s = .next (prefetched i o s)) ∧
    (∀ st, (past i s).checkCap (prefetchAsk cap write) (s.c cap) off 8 = .error st → exec i s = .next (prefetched i o s)) ∧
    (∀ a, act.resumed = none → (past i s).checkCap (prefetchAsk cap write) (s.c cap) off 8 = .ok a →
      (∀ st, (past i s).resolve (prefetchAsk cap write) (s.c cap).space a 8 = .stop st → exec i s = .next (prefetched i o s)) ∧
      (∀ ps rows, (past i s).resolve (prefetchAsk cap write) (s.c cap).space a 8 = .parts ps →
        rows = ps.filter (fun p => isDram p.owner && p.pkind != 3) → (past i s).hasRoom act Order.none rows = true →
        exec i s = .next (rows.foldl (fun t p => t.launchItem (.access
            { p.access (past i s) act .load (if p.pkind = 2 then [] else o.after) with size := 0, engine := true }))
          ((prefetched i o s).touch ps))))
/-- R68, R305: PF in both forms. -/
def Prefetches : Prop :=
  ∀ s, (∀ x, prefetches (.pf x) x.a.toNat (x.memOff s) (x.c.getLsbD 3) (x.order s) s) ∧
    (∀ x, prefetches (.pfL32B x) x.a.toNat (s.offset 0 x.imm.toInt) false Order.none s)

/-- R97, R325 to R327, R87: a copy instruction whose operands pass their checks, whose pages are translated, and whose channel holds fewer than 8
commands, adds its command at the end of the channel: CPY between two memories, CPY into an output handle whose slot size divides the length, CPY4
with one side patterned by a descriptor in LOCAL, CPYG with its source elements listed in LOCAL. The pages found become the most recently used (R62). A CPY of no bytes completes at once. The words of a descriptor or list are read in LOCAL, and a corrected error in them is noted (R76). -/
def CopyCommands : Prop :=
  (∀ x s u v n a b e f, u = past (.cpy x) s → issues (.cpy x) s → n = x.copyLength s → n < 2 ^ 32 →
    u.checkCopy (askCopyRead x.b.toNat) (s.c x.b.toNat) 0 n = .ok a → u.checkCopy (askCopyWrite x.a.toNat) (s.c x.a.toNat) 0 n = .ok b →
    u.scanPages (askCopyRead x.b.toNat) (pageStarts (s.c x.b.toNat).space a n) = .ok e →
    v = u.touchPages (pageStarts (s.c x.b.toNat).space a n) →
    v.scanPages (askCopyWrite x.a.toNat) (pageStarts (s.c x.a.toNat).space b n) = .ok f →
    (n ≠ 0 → (at_ s.core.copies x.d.toNat { queue := [] }).queue.length < 8) →
    exec (.cpy x) s = .next (if n = 0 then u.leaveTokens (x.order s) [] else (v.touchPages (pageStarts (s.c x.a.toNat).space b n)).pushCopy x.d.toNat (x.order s)
      (Copy.fresh (.run (s.c x.b.toNat).space a) (.run (s.c x.a.toNat).space b) n 64 x.copyFill (e ++ f)))) ∧
  (∀ x s u n a e, u = past (.cpyHandle x) s → issues (.cpyHandle x) s → n = x.copyLength s → n < 2 ^ 32 →
    s.core.queueOk.getLsbD x.a.toNat = true → n % oSlotBytes (s.core.queue x.a.toNat) = 0 →
    u.checkCopy (askCopyRead x.b.toNat) (s.c x.b.toNat) 0 n = .ok a →
    u.scanPages (askCopyRead x.b.toNat) (pageStarts (s.c x.b.toNat).space a n) = .ok e →
    (n ≠ 0 → (at_ s.core.copies x.d.toNat { queue := [] }).queue.length < 8) →
    exec (.cpyHandle x) s = .next (if n = 0 then u.leaveTokens (x.order s) [] else (u.touchPages (pageStarts (s.c x.b.toNat).space a n)).pushCopy x.d.toNat (x.order s)
      { Copy.fresh (.run (s.c x.b.toNat).space a) (.handle x.a.toNat) n (oSlotBytes (s.core.queue x.a.toNat)) x.copyFill e with
        handle := some x.a.toNat })) ∧
  (∀ x s u k p n a e, u = past (.cpy4 x) s → issues (.cpy4 x) s → x.sub.getLsbD 0 = true →
    s.localList (s.g x.c.toNat).toNat 8 24 = .ok k →
    patternOf ((s.c x.a.toNat).base / 2 ^ 19 * 2 ^ 19) (ofLe (s.bytes k 8)) (ofLe (s.bytes (k + 8) 8)) (ofLe (s.bytes (k + 16) 8)) = some p →
    n = p.elements * 2 ^ p.elog → n < 2 ^ 32 → u.checkCopy (askCopyRead x.b.toNat) (s.c x.b.toNat) 0 n = .ok a →
    u.checkPattern (askCopyWrite x.a.toNat) (s.c x.a.toNat) p = .ok () →
    u.scanPages (askCopyRead x.b.toNat) (pageStarts (s.c x.b.toNat).space a n) = .ok e →
    (at_ s.core.copies x.d.toNat { queue := [] }).queue.length < 8 →
    exec (.cpy4 x) s = .next (((u.touchPages (pageStarts (s.c x.b.toNat).space a n)).pushCopy x.d.toNat (x.order s)
      (Copy.fresh (.run (s.c x.b.toNat).space a) (.pattern 1 p) n (2 ^ p.elog) false e)).noteRead k 24)) ∧
  (∀ x s u k p n b e, u = past (.cpy4 x) s → issues (.cpy4 x) s → x.sub.getLsbD 0 = false →
    s.localList (s.g x.c.toNat).toNat 8 24 = .ok k →
    patternOf ((s.c x.b.toNat).base / 2 ^ 19 * 2 ^ 19) (ofLe (s.bytes k 8)) (ofLe (s.bytes (k + 8) 8)) (ofLe (s.bytes (k + 16) 8)) = some p →
    n = p.elements * 2 ^ p.elog → n < 2 ^ 32 → u.checkPattern (askCopyRead x.b.toNat) (s.c x.b.toNat) p = .ok () →
    u.checkCopy (askCopyWrite x.a.toNat) (s.c x.a.toNat) 0 n = .ok b →
    u.scanPages (askCopyWrite x.a.toNat) (pageStarts (s.c x.a.toNat).space b n) = .ok e →
    (at_ s.core.copies x.d.toNat { queue := [] }).queue.length < 8 →
    exec (.cpy4 x) s = .next (((u.touchPages (pageStarts (s.c x.a.toNat).space b n)).pushCopy x.d.toNat (x.order s)
      (Copy.fresh (.pattern 1 p) (.run (s.c x.a.toNat).space b) n (2 ^ p.elog) false e)).noteRead k 24)) ∧
  (∀ x s u v k n z l b e f, u = past (.cpyg x) s → issues (.cpyg x) s → n = x.hi.toNat / 8 + 1 → z = 2 ^ (x.hi.toNat % 8) →
    s.localList (s.g x.c.toNat).toNat 4 (4 * n) = .ok k →
    u.checkElements (askCopyRead x.b.toNat) (s.c x.b.toNat) z ((List.range n).map (fun i => ((ofLe (s.bytes (k + 4 * i) 4) : Nat) : Int))) true
      = .ok l →
    u.checkCopy (askCopyWrite x.a.toNat) (s.c x.a.toNat) 0 (n * z) = .ok b →
    u.scanPages (askCopyRead x.b.toNat) (l.flatMap (fun a => pageStarts (s.c x.b.toNat).space a z)) = .ok e →
    v = u.touchPages (l.flatMap (fun a => pageStarts (s.c x.b.toNat).space a z)) →
    v.scanPages (askCopyWrite x.a.toNat) (pageStarts (s.c x.a.toNat).space b (n * z)) = .ok f →
    (at_ s.core.copies x.d.toNat { queue := [] }).queue.length < 8 →
    exec (.cpyg x) s = .next (((v.touchPages (pageStarts (s.c x.a.toNat).space b (n * z))).pushCopy x.d.toNat (x.order s)
      (Copy.fresh (.listed (s.c x.b.toNat).space l) (.run (s.c x.a.toNat).space b) (n * z) z false (e ++ f))).noteRead k (4 * n)))

/-- R329, R330: STCFG sends the new configuration of a segment to its store tile, where only MODE, UNIT_M1 and COUNT_M1 are set and the operand is a
whole segment; SBUFSET sends the full bit of a buffer; SBUFW, with no STCFG of its activation open at the tile and the tile not withdrawn, goes on once the
buffer's full bit has the value it asks for, and waits before. -/
def StoreTileInstructions : Prop :=
  (∀ x s u act a b t, u = past (.stcfg x) s → issues (.stcfg x) s → s.core.act = some act → s.g x.c.toNat &&& ~~~ stcfgMask = 0 →
    u.checkStore { Ask.store x.a.toNat with answers := false } (s.c x.a.toNat) (x.indexB s) 1 = .ok a → a % 65536 = 0 →
    u.checkStore { Ask.store x.a.toNat with answers := false } (s.c x.a.toNat) (x.indexB s) 65536 = .ok b →
    s.storeTile s.core (a / 2 ^ 19) = some t → u.hasRoom act Order.none [] = true →
    exec (.stcfg x) s = .next (u.tileAccess act (a / 2 ^ 19) t (a % 2 ^ 19) opStcfg (a / 65536 % 8) (leBytes 8 (s.g x.c.toNat).toNat) .none
      Order.none)) ∧
  (∀ x s u act a t, u = past (.sbufset x) s → issues (.sbufset x) s → s.core.act = some act →
    u.checkStore { Ask.store x.a.toNat with answers := false } (s.c x.a.toNat) (x.indexB s) 1 = .ok a →
    s.storeTile s.core (a / 2 ^ 19) = some t → u.hasRoom act Order.none [] = true →
    exec (.sbufset x) s = .next (u.tileAccess act (a / 2 ^ 19) t (a % 2 ^ 19) opSbufset (x.hi.getLsbD 0).toNat [] .none Order.none)) ∧
  (∀ x s u act a t, u = past (.sbufw x) s → issues (.sbufw x) s → s.core.act = some act →
    u.checkStore { Ask.load x.a.toNat with answers := false } (s.c x.a.toNat) (x.indexB s) 1 = .ok a →
    s.storeTile s.core (a / 2 ^ 19) = some t → u.stcfgOpen act t = false → (s.getTile t).withdrawn = false → bufferRefusal ((s.getTile t).seg (a / 65536 % 8)) a = none →
    exec (.sbufw x) s = .next (if (at_ (s.getTile t).full (a / 65536 % 8) 0).getLsbD
      (bufferOf ((s.getTile t).seg (a / 65536 % 8)) a) = x.hi.getLsbD 0 then u else s.hold))

/-- R107, R108, R332 to R334: DRD and DWR with an operand in one row of a class 00 page put one request in flight to the actor of its stack, with its
way to answer, the bytes a DWR takes from its vector register (popped from its stream where the register is bound), and their order. -/
def DramAccesses : Prop :=
  (∀ x s n u w a p r, u = past (.drd x) s → n = x.hi.toNat % 1024 + 1 → issues (.drd x) s →
    u.checkGlobal (askDram x.a.toNat 0 false) (s.c x.a.toNat) (x.indexB s) n = .ok a →
    u.target x.sub.toNat x.d.toNat x.c.toNat n n = .ok r →
    u.resolve (askDram x.a.toNat 0 false) 3 a n = .parts [p] → isDram p.owner → w = u.touch [p] → w.requestRoom (x.order s) r 1 = .ok () →
    exec (.drd x) s = .next ((w.request (x.order s) p 0 .load r 0 [] [] [] .none).leaveTokens (x.order s) (w.requestToken (x.order s) p))) ∧
  (∀ x s n u v w y a p, u = past (.dwr x) s → n = x.hi.toNat % 64 + 1 → issues (.dwr x) s → u.popAll [(x.c.toNat, none)] = .ok v →
    u.checkGlobal (askDram x.a.toNat 1 true) (s.c x.a.toNat) (x.indexB s) n = .ok a →
    u.resolve (askDram x.a.toNat 1 true) 3 a n = .parts [p] → isDram p.owner → w = u.touch [p] →
    w.requestRoom (x.order s) Reply.unit 1 = .ok () → w.popAll [(x.c.toNat, none)] = .ok y →
    exec (.dwr x) s = .next ((y.request (x.order y) p 1 .store Reply.unit 0 ((leBytes 64 (y.vin x.c.toNat).toNat).take n) [] [] .none).leaveTokens
      (x.order y) (y.requestToken (x.order y) p)))

/-- The requests of a DGATH: one to each stack, in the order the stacks are first named, each with its elements' numbers and addresses in order. -/
def gatherRequests (s : State) (o : Order) (ps : List Part) (n : Nat) (r : Reply) : List Nat × State :=
  (ps.map (fun p => dramStack p.phys)).eraseDups.foldl (fun (acc : List Nat × State) st =>
    match ps.zipIdx.filter (fun e => dramStack e.1.phys == st) with
    | [] => acc
    | (p, i) :: more =>
      (acc.1 ++ acc.2.requestToken o p,
       acc.2.request o { p with size := n } 2 .load r 0 [] (((p, i) :: more).map (fun e => (e.2, e.1.phys)))
         (((p, i) :: more).map (fun e => (e.1.addr, e.1.psize))) .none)) ([], s)
/-- R110, R332, R334: DGATH reads its offsets from LOCAL, checks and translates each element, and sends one request to each stack it touches. The words of a descriptor or list are read in LOCAL, and a corrected error in them is noted (R76). -/
def DramGather : Prop :=
  ∀ x s n m u k offs as ps r, u = past (.dgath x) s → n = x.hi.toNat % 128 + 1 → m = x.hi.toNat / 128 % 8 + 1 → issues (.dgath x) s →
    s.localList (s.g x.b.toNat).toNat 8 (8 * m) = .ok k → offs = (List.range m).map (fun i => signedOf 64 (ofLe (s.bytes (k + 8 * i) 8))) →
    ((s.c x.a.toNat).tag = true ∧ (s.c x.a.toNat).otype = 0 → (s.c x.a.toNat).space = 3 ∨ (s.c x.a.toNat).space = 5 ∧ s.level = .graph) →
    u.checkElements (askDram x.a.toNat 0 false) (s.c x.a.toNat) n offs false = .ok as →
    u.target x.sub.toNat x.d.toNat x.c.toNat n (n * m) = .ok r →
    u.gatherParts (askDram x.a.toNat 0 false) n (as.zip offs) = .ok (.parts ps) →
    u.requestRoom (x.order s) r (ps.map (fun p => dramStack p.phys)).eraseDups.length = .ok () →
    exec (.dgath x) s = .next (((gatherRequests (u.touch ps) (x.order s) ps n r).2.leaveTokens (x.order s)
      (gatherRequests (u.touch ps) (x.order s) ps n r).1).noteRead k (8 * m))

/-- R334, R335: FLUSH without EMIT is a NOP and otherwise asks its stack for a reply when its writes are done; ROWOPEN on an aligned row sends its
request, whose reply lands in the destination register. -/
def FlushAndRowOpen : Prop :=
  (∀ x s, issues (.flush x) s → x.emit = 0 → exec (.flush x) s = .next (past (.flush x) s)) ∧
  (∀ x s u, u = past (.flush x) s → issues (.flush x) s → x.emit ≠ 0 → u.requestRoom (x.order s) Reply.unit 1 = .ok () →
    exec (.flush x) s = .next ((u.request (x.order s) (actorPart (x.hi.toNat % 32 * 2 ^ 10) 0) 9 .load Reply.unit 0 [] [] [] .none).leaveTokens
      (x.order s) [s.nextId])) ∧
  (∀ x s u w a b p, u = past (.rowopen x) s → issues (.rowopen x) s →
    u.checkGlobal (askDram x.a.toNat 6 true) (s.c x.a.toNat) (x.indexB s) 1 = .ok a → a % 1024 = 0 →
    u.checkGlobal (askDram x.a.toNat 6 true) (s.c x.a.toNat) (x.indexB s) 1024 = .ok b →
    u.resolve (askDram x.a.toNat 6 true) 3 b 1024 = .parts [p] → isDram p.owner → w = u.touch [p] →
    w.requestRoom (x.order s) Reply.unit 1 = .ok () →
    exec (.rowopen x) s = .next ((w.request (x.order s) p 3 .load Reply.unit 0 [] [] [] (.result x.d.toNat)).leaveTokens (x.order s)
      (w.requestToken (x.order s) p)))

/-- A request through a line handle: what it is, its place in the row, how it is answered, what it carries, and where its reply lands. -/
def lineRequest (s : State) (o : Order) (h off n op : Nat) (kind : AccKind) (r : Reply) (data : List Byte) (l : Landing) : State :=
  (s.request o { actorPart (handlePlace h) n with place := off, addr := off } op kind r h data [] [] l).leaveTokens o [s.nextId]
/-- R332, R335: the instructions through a line handle whose handle has its upper bits clear, whose bytes lie inside the row, and for which there is
room, send their request. ROWRDV reads into a vector register or pushes what it reads; ROWWR carries the first bytes of one, popped where it is
bound. -/
def LineRequests : Prop :=
  (∀ e ∈ [(Instr.rowhold, 4, AccKind.load, true), (Instr.rowrel, 5, AccKind.store, false), (Instr.rowstat, 8, AccKind.load, true)],
    ∀ x s, issues (e.1 x) s → fld (s.g x.a.toNat) 63 16 = 0 → (past (e.1 x) s).requestRoom (x.order s) Reply.unit 1 = .ok () →
    exec (e.1 x) s = .next (lineRequest (past (e.1 x) s) (x.order s) (fld (s.g x.a.toNat) 15 0) 0 0 e.2.1 e.2.2.1 Reply.unit []
      (if e.2.2.2 then .result x.d.toNat else .none))) ∧
  (∀ x s n u r, u = past (.rowrd x) s → n = x.hi.toNat % 1024 + 1 → issues (.rowrd x) s → fld (s.g x.a.toNat) 63 16 = 0 →
    (s.g x.b.toNat).toNat + n ≤ 1024 → u.target x.sub.toNat x.d.toNat x.c.toNat n n = .ok r → u.requestRoom (x.order s) r 1 = .ok () →
    exec (.rowrd x) s = .next (lineRequest u (x.order s) (fld (s.g x.a.toNat) 15 0) (s.g x.b.toNat).toNat n 6 .load r [] .none)) ∧
  (∀ x s u v w, u = past (.rowrdv x) s → issues (.rowrdv x) s → u.vland x.d.toNat none 0 64 0 = .ok v → fld (s.g x.a.toNat) 63 16 = 0 →
    (s.g x.b.toNat).toNat + 64 ≤ 1024 → u.requestRoom (x.order s) Reply.unit 1 = .ok () →
    u.vland x.d.toNat none (u.vold x.d.toNat) 64 (BitVec.allOnes 64) = .ok w →
    exec (.rowrdv x) s = .next (lineRequest w.2 (x.order w.2) (fld (s.g x.a.toNat) 15 0) (w.2.g x.b.toNat).toNat 64 6 .load Reply.unit [] w.1)) ∧
  (∀ x s n u w, u = past (.rowwr x) s → n = x.hi.toNat % 64 + 1 → issues (.rowwr x) s → u.popAll [(x.c.toNat, none)] = .ok w →
    fld (s.g x.a.toNat) 63 16 = 0 → (s.g x.b.toNat).toNat + n ≤ 1024 → u.requestRoom (x.order s) Reply.unit 1 = .ok () →
    exec (.rowwr x) s = .next (lineRequest w (x.order w) (fld (s.g x.a.toNat) 15 0) (w.g x.b.toNat).toNat n 7 .store Reply.unit
      ((leBytes 64 (w.vin x.c.toNat).toNat).take n) .none))

/-- R341: the stream a descriptor of four words configures, for the activation whose entry is given: its direction in bit 63, its type in bits 62:59 and
its first offset in bits 47:0 of the first word, four counts and four strides in the second and third. -/
def configured (entry : Nat) (w0 w1 w2 : Nat) : Stream :=
  let f (w k : Nat) : Nat := w / 2 ^ (16 * k) % 65536
  { owner := entry, bound := false, output := decide (2 ^ 63 ≤ w0), ty := BitVec.ofNat 4 (w0 / 2 ^ 59), first := w0 % 2 ^ 48,
    counts := [f w1 1 + 1, f w1 3 + 1, f w2 1 + 1, f w2 3 + 1],
    strides := [signed16 (f w1 0), signed16 (f w1 2), signed16 (f w2 0), signed16 (f w2 2)],
    cap := Cap.null, pred := none, position := 0, fetched := [], deps := [], token := 0, unbind := 0, pushed := [], live := 0, head := 0,
    fault := none, tile := none, serial := 0, ctx := 0 }
/-- A stream bound for an activation: from its first element, with its capability and its unit of data movement. -/
def boundStream (st : Stream) (act : Act) (c : Cap) (deps : List Nat) (id : Nat) (tile : Option Psn) : Stream :=
  { st with owner := act.entry, bound := true, cap := c, position := 0, deps, token := id, tile, serial := act.serial, ctx := act.ctx }
def streamAsk (st : Stream) (cap : Nat) : Ask := { (if st.output then Ask.store cap else Ask.load cap) with answers := false }

/-- R341, R342, R345, R346: SCFG with a well-formed descriptor in LOCAL configures its slot; SBIND binds a configured slot whose every element passes
its check, takes a generator of the store tile it reads or writes, starts an input stream after its AFTER, and makes an output stream wait for it;
SUNBIND frees the slot, of an input stream after its AFTER, and its token names what is still to be written; SPRED attaches governing bits in memory to a slot not bound, or reads those
of the last pop into a predicate; SPOS reads the position. The words of a descriptor or list are read in LOCAL, and a corrected error in them is noted (R76). -/
def StreamInstructions : Prop :=
  (∀ x s u k w, u = past (.scfg x) s → issues (.scfg x) s → s.slotKept x.d.toNat = false → s.slotClosing x.d.toNat = false → s.bound x.d.toNat = none →
    s.localList (s.g x.a.toNat).toNat 8 32 = .ok k → w = (fun i => ofLe (s.bytes (k + 8 * i) 8)) →
    isScalar (BitVec.ofNat 4 (w 0 / 2 ^ 59)) = true → w 0 / 2 ^ 48 % 2 ^ 11 = 0 → w 3 = 0 →
    exec (.scfg x) s = .next ((u.setStream x.d.toNat (some (configured ((s.core.act.map (·.entry)).getD 0) (w 0) (w 1) (w 2)))).noteRead k 32)) ∧
  (∀ x s u act st lo hi tile (v : State), u = past (.sbind x) s → issues (.sbind x) s → s.core.act = some act → s.slotKept x.d.toNat = false →
    at_ s.core.streams x.d.toNat none = some st → st.bound = false → (st.output = true → s.gone (x.order s).after = true) →
    u.checkCopy (streamAsk st x.b.toNat) (s.c x.b.toNat) st.reach.1 st.bytes = .ok lo →
    u.checkCopy (streamAsk st x.b.toNat) (s.c x.b.toNat) st.reach.2 st.bytes = .ok hi → lo % st.bytes = 0 →
    ((s.c x.b.toNat).space = 1 → s.streamSegments lo (hi + st.bytes - 1) = true) →
    tile = (if (s.c x.b.toNat).space = 1 then s.storeTile s.core (lo / 2 ^ 19) else none) →
    (∀ t, tile = some t → (s.getTile t).generators.length < 4) →
    v = (match tile with
      | some t => u.modTile t (fun y => { y with generators := y.generators ++ [s.nextId] })
      | none => u).launchItem (.command s.core.psn act.serial) →
    exec (.sbind x) s = .next (if st.output
      then (((v.dropItem s.nextId).setStream x.d.toNat (some (boundStream st act (s.c x.b.toNat) [] s.nextId tile))).leaveTokens (x.order s) [])
      else ((v.setStream x.d.toNat (some (boundStream st act (s.c x.b.toNat) (x.order s).after s.nextId tile))).leaveTokens (x.order s)
        [s.nextId]))) ∧
  (∀ x s u act st, u = past (.sunbind x) s → issues (.sunbind x) s → s.core.act = some act → s.bound x.d.toNat = some st →
    (st.output = false → s.gone (x.order s).after = true) →
    exec (.sunbind x) s = .next (if st.pushed = [] then (u.unbindSlot s.core.psn x.d.toNat 0 (x.order s).after).leaveTokens (x.order s) []
      else ((u.launchItem (.command s.core.psn act.serial)).unbindSlot s.core.psn x.d.toNat s.nextId (x.order s).after).leaveTokens (x.order s)
        [s.nextId])) ∧
  (∀ x s u b st a, u = past (.spredAttach x) s → issues (.spredAttach x) s → s.slotKept x.d.toNat = false → b = (s.g x.b.toNat).toNat →
    at_ s.core.streams x.d.toNat none = some st → st.bound = false → st.pred = none → (st.output = true → b % 8 = 0) →
    u.checkCopy (streamAsk st x.a.toNat) (s.c x.a.toNat) ((b / 8 : Nat) : Int) ((b + st.total - 1) / 8 + 1 - b / 8) = .ok a →
    exec (.spredAttach x) s = .next (u.setStream x.d.toNat (some { st with pred := some (s.c x.a.toNat, b) }))) ∧
  (∀ x s st, issues (.spredRead x) s → s.bound x.a.toNat = some st → (elemBits st.ty = 8 → x.d.toNat % 2 = 0) →
    exec (.spredRead x) s = .next ((past (.spredRead x) s).setPredLanes st.ty x.d.toNat (fun k => st.live.getLsbD k))) ∧
  (∀ x s st, issues (.spos x) s → s.bound x.a.toNat = some st →
    exec (.spos x) s = .next ((past (.spos x) s).setG x.d.toNat (BitVec.ofNat 64 st.position)))

/-- R343: a pop takes the next VL elements of a bound input stream whose elements are of the instruction's type: the position moves past them, the lanes
whose governing bit is 0 read zero, and the register reads the vector. A register that is not bound is read as it stands. -/
def StreamPops : Prop :=
  (∀ (s : State) n size, s.bound n = none → s.pop n size = .ok s ∧ s.vin n = s.v n) ∧
  (∀ (s : State) n size (st : Stream), s.bound n = some st → st.output = false → (size = none ∨ size = some (elemBits st.ty)) → st.position < st.total →
    st.vl ≤ st.fetched.length → st.cap.space ≠ 1 →
    ∃ q, s.pop n size = .ok (s.setStream n (some q)) ∧ q.position = st.position + st.vl ∧ q.fetched = st.fetched.drop st.vl ∧
      q.live = laneMask st.vl (fun k => ((st.fetched.take st.vl).getD k (0, false)).2) ∧
      q.head = BitVec.ofNat 512 (packLanes (elemBits st.ty) st.vl (fun k =>
        if ((st.fetched.take st.vl).getD k (0, false)).2 then ((st.fetched.take st.vl).getD k (0, false)).1 else 0)))

/-- The governing predicates of a vector instruction are written: PM, and the next one for 8-bit lanes (R147, R337). -/
def governorsWritten (x : Long) (s : State) : Prop :=
  s.core.isPending (.p x.pm) = false ∧ (x.width = 8 → s.core.isPending (.p (x.pm + 1)) = false)

abbrev Sources := Long → List (Nat × Option Nat)
abbrev LaneFn := Long → State → Nat → Nat
def lane1 (f : Fn1) : Sources × LaneFn := (fun x => x.srcA1, fun x t k => f x.ty x.rm x.sat (x.va t k))
def lane2 (f : Fn2) : Sources × LaneFn := (fun x => x.srcAB, fun x t k => f x.ty x.rm x.sat (x.va t k) (x.vb t k))
def lane3 (f : Fn3) : Sources × LaneFn := (fun x => x.srcABC, fun x t k => f x.ty x.rm x.sat (x.va t k) (x.vb t k) (x.vc t k))

/-- The instructions that compute each governed lane by itself: the registers they read and what they compute for a lane (R351 to R355, R361). -/
noncomputable def laneForms : List ((Long → Instr) × Sources × LaneFn) :=
  [(.vadd, lane2 elemAdd), (.vsub, lane2 elemSub), (.vmul, lane2 elemMul), (.vmin, lane2 fun t _ _ => elemMin t false),
   (.vmax, lane2 fun t _ _ => elemMin t true), (.vdiv, lane2 fun t r _ => elemDiv t r), (.vand, lane2 fun _ _ _ a b => a &&& b),
   (.vor, lane2 fun _ _ _ a b => a ||| b), (.vxor, lane2 fun _ _ _ a b => a ^^^ b), (.vshl, lane2 fun t _ c => elemShl t c),
   (.vshr, lane2 fun t _ _ => elemShr t), (.vsha, lane2 fun t _ _ => elemSha t), (.vabs, lane1 fun t _ c => elemAbs t c),
   (.vneg, lane1 fun t _ c => elemNeg t c), (.vsqrt, lane1 fun t r _ => elemSqrt t r), (.vrcp, lane1 vrcpOf), (.vrsqrt, lane1 vrsqrtOf),
   (.vexp2, lane1 vexp2Of), (.vlog2, lane1 vlog2Of), (.vsin, lane1 vsinOf), (.vcos, lane1 vcosOf), (.vtanh, lane1 vtanhOf),
   (.vfma, lane3 fun t r c => elemFma t r c false), (.vmov, fun x => x.srcA1, fun x => x.va),
   (.vbcast, fun _ => [], fun x t _ => if x.wide then literal x.ty x.lit else (t.g x.a.toNat).toNat),
   (.vperm, fun x => x.srcAB, fun x t k => x.va t (x.vb t k % lanes x.ty)),
   (.vslide, fun x => x.srcAB, fun x t k =>
     if k + x.c.toNat < lanes x.ty then x.va t (k + x.c.toNat) else x.vb t (k + x.c.toNat - lanes x.ty)),
   (.vscan, fun x => x.srcA1, fun x t k => reduceLanes x.ty x.rm x.sat (x.c.toNat % 8) (x.governed t (x.va t) (k + 1)))]

/-- The vector r holds in each lane what the lane computes where PM governs it, and elsewhere zero or the destination's old value (R339). -/
def holdsLanes (x : Long) (t : State) (f : Nat → Nat) (r : VWord) : Prop :=
  ∀ k, k < lanes x.ty → laneOf x.width r k =
    (if x.governs t k then f k % 2 ^ x.width else if x.zero then 0 else laneOf x.width (t.vold x.d.toNat) k)
/-- What a vector instruction does once its sources are popped (R339, R343): its register takes the result, or the result is pushed into the stream
bound to it. -/
def writesLanes (i : Instr) (x : Long) (s t : State) (f : Nat → Nat) : Prop :=
  ∃ r, holdsLanes x t f r ∧ (t.bound x.d.toNat = none → exec i s = .next (t.setV x.d.toNat r)) ∧
    (∀ st v, t.bound x.d.toNat = some st →
      t.push x.d.toNat st (some x.width) r 0 (laneMask (lanes x.ty) (x.governs t)) = .ok v → exec i s = .next v)

/-- R337 to R339, R351 to R355, R361: every instruction that works lane by lane. VSEL takes each lane from its first or second source as its selecting
predicate says. -/
def VectorLanes : Prop :=
  (∀ e ∈ laneForms, ∀ x s t, issues (e.1 x) s → governorsWritten x (past (e.1 x) s) → (past (e.1 x) s).popAll (e.2.1 x) = .ok t →
    writesLanes (e.1 x) x s t (e.2.2 x t)) ∧
  (∀ x s t, issues (.vsel x) s → governorsWritten x (past (.vsel x) s) →
    (x.width = 8 → s.core.isPending (.p (x.c.toNat + 1)) = false) → (past (.vsel x) s).popAll x.srcAB = .ok t →
    writesLanes (.vsel x) x s t (fun k => if t.predLane x.ty x.c.toNat k then x.va t k else x.vb t k))

/-- R264, R351, R356, R360, R362: VCMP writes the comparison of each governed lane into its predicate; VMOVM takes one lane into a general register, or
writes one lane and leaves the others; VRED and VDOT reduce the governed lanes into a general register. -/
def VectorReductions : Prop :=
  (∀ x s t, issues (.vcmp x) s → governorsWritten x (past (.vcmp x) s) →
    (x.width = 8 → s.core.isPending (.p (x.d.toNat % 8 + 1)) = false) → (past (.vcmp x) s).popAll x.srcAB = .ok t →
    exec (.vcmp x) s = .next (t.setPredLanes x.ty (x.d.toNat % 8) (fun k => if x.governs t k
      then elemCmp x.ty (x.d.toNat / 8) (x.va t k) (x.vb t k)
      else if x.zero then false else if x.d.toNat % 8 = 0 then false else t.predLane x.ty (x.d.toNat % 8) k))) ∧
  (∀ x s t, issues (.vmovmExtract x) s → (past (.vmovmExtract x) s).popAll x.srcA1 = .ok t →
    exec (.vmovmExtract x) s = .next (t.setG x.d.toNat (extend x.ty (laneOf x.width (t.vin x.a.toNat) x.c.toNat)))) ∧
  (∀ x s, issues (.vmovmInsert x) s → s.bound x.d.toNat = none →
    ∃ r, exec (.vmovmInsert x) s = .next ((past (.vmovmInsert x) s).setV x.d.toNat r) ∧ ∀ k, k < lanes x.ty →
      laneOf x.width r k = if k = x.c.toNat then (s.g x.a.toNat).toNat % 2 ^ x.width else laneOf x.width (s.v x.d.toNat) k) ∧
  (∀ x s t, issues (.vred x) s → governorsWritten x (past (.vred x) s) → (past (.vred x) s).popAll x.srcA1 = .ok t →
    exec (.vred x) s = .next (t.setG x.d.toNat (extend x.ty
      (reduceLanes x.ty x.rm x.sat (x.c.toNat % 8) (((List.range (lanes x.ty)).filter (x.governs t)).map (x.va t)))))) ∧
  (∀ x s t, issues (.vdot x) s → governorsWritten x (past (.vdot x) s) → (past (.vdot x) s).popAll x.srcAB = .ok t →
    exec (.vdot x) s = .next (t.setG x.d.toNat
      (dotLanes x.ty x.rm x.sat (((List.range (lanes x.ty)).filter (x.governs t)).map (fun k => (x.va t k, x.vb t k))))))

/-- The lane of a conversion's source that a destination lane takes; none outside PART (R357). -/
def convertedLane (x : Long) (k : Nat) : Option Nat :=
  let n := lanes x.ty
  let m := lanes (x.c.extractLsb' 0 4)
  let p := x.c.toNat / 16
  if n < m then some (p * n + k) else if p * m ≤ k ∧ k < p * m + m then some (k - p * m) else none
/-- R357 to R359: VCVT converts the governed lanes of PART and leaves the lanes outside it; VPACK lays a packed group, with its code, scale and zero
bytes where it makes a block, over the old bytes; VUNPACK, of a group or of a block that passes the check, writes the 16 lanes of PART. Each with a
destination that is not bound. -/
def VectorConversions : Prop :=
  (∀ x s t (y : TyCode), issues (.vcvt x) s → governorsWritten x (past (.vcvt x) s) → y = x.c.extractLsb' 0 4 →
    (past (.vcvt x) s).popAll [(x.a.toNat, some (elemBits y))] = .ok t → t.bound x.d.toNat = none →
    ∃ r, exec (.vcvt x) s = .next (t.setV x.d.toNat r) ∧ ∀ k, k < lanes x.ty → laneOf x.width r k =
      match convertedLane x k with
      | none => laneOf x.width (t.v x.d.toNat) k
      | some j => if x.governs t k then elemCvt x.ty y x.rm x.sat (laneOf (elemBits y) (t.vin x.a.toNat) j) % 2 ^ x.width
        else if x.zero then 0 else laneOf x.width (t.v x.d.toNat) k) ∧
  (∀ x s t, issues (.vpack x) s → x.ty = 15 → fld (s.g x.c.toNat) 63 20 = 0 →
    (past (.vpack x) s).popAll [(x.a.toNat, some 32)] = .ok t → t.bound x.d.toNat = none →
    exec (.vpack x) s = .next (t.setV x.d.toNat (overlay (t.v x.d.toNat) (packQ4g x (fld (s.g x.c.toNat) 15 0) (fld (s.g x.c.toNat) 19 16)
      (packLanes 4 16 (fun i => toQ4g x.rm (fld (s.g x.c.toNat) 15 0) (fld (s.g x.c.toNat) 19 16)
        (fpOf 10 (laneOf 32 (t.vin x.a.toNat) i)))))))) ∧
  (∀ x s t (y : TyCode), issues (.vpack x) s → x.ty ≠ 15 → y = x.c.extractLsb' 0 4 →
    (past (.vpack x) s).popAll [(x.a.toNat, some (elemBits y))] = .ok t → t.bound x.d.toNat = none →
    exec (.vpack x) s = .next (t.setV x.d.toNat (overlay (t.v x.d.toNat) (packSx x (toSx x.ty x.rm x.sat
      ((List.range 16).map (fun i => valueOf y (laneOf (elemBits y) (t.vin x.a.toNat) (x.c.toNat / 16 * 16 + i))))))))) ∧
  (∀ x s t (y : TyCode) b value, issues (.vunpack x) s → y = x.c.extractLsb' 0 4 → (past (.vunpack x) s).popAll [(x.a.toNat, some 0)] = .ok t →
    b = (t.vin x.a.toNat).toNat → (x.flg = 1 → blockReason b y = none) → t.bound x.d.toNat = none →
    value = (fun i => if x.flg = 1 then blockValue b (16 * x.b.toNat + i)
      else sxValue y 0 (b / 256 ^ (sxBytes y * x.b.toNat) % 256 ^ sxBytes y) i) →
    ∃ r, exec (.vunpack x) s = .next (t.setV x.d.toNat r) ∧ ∀ k, k < lanes x.ty → laneOf x.width r k =
      if x.c.toNat / 16 * 16 ≤ k ∧ k < x.c.toNat / 16 * 16 + 16
        then narrow x.ty x.rm (value (k - x.c.toNat / 16 * 16)) % 2 ^ x.width else laneOf x.width (t.v x.d.toNat) k)

/-- A form of VLD or VST: its first register, how many, its capability register and offset, CONSUME, and its order (R349). -/
structure RunForm where
  instr : Instr
  d : Nat
  n : Nat
  cap : Nat
  consume : Bool
  off : State → Int
  order : State → Order

noncomputable def runLoad (x : Long) : RunForm :=
  { instr := .vld x, d := x.d.toNat, n := x.runLength, cap := x.a.toNat, consume := x.c.getLsbD 5, off := x.memOff, order := x.order }
noncomputable def runLoadShort (y : ShortB) : RunForm :=
  { instr := .vldL32B y, d := y.d.toNat, n := 1, cap := y.a.toNat, consume := false, off := fun s => s.offset 0 (y.imm.toInt * 64),
    order := fun _ => Order.none }
noncomputable def runStore (x : Long) : RunForm :=
  { instr := .vst x, d := x.d.toNat, n := x.runLength, cap := x.a.toNat, consume := false, off := x.memOff, order := x.order }
noncomputable def runStoreShort (y : ShortB) : RunForm :=
  { instr := .vstL32B y, d := y.d.toNat, n := 1, cap := y.a.toNat, consume := false, off := fun s => s.offset 0 (y.imm.toInt * 64),
    order := fun _ => Order.none }

/-- The run issues: every register of it is written, and none is bound where there are several (R147, R349). -/
def RunForm.runs (m : RunForm) (s : State) : Prop :=
  issues m.instr s ∧ (1 < m.n → ∀ j, j < m.n → s.bound (m.d + j) = none) ∧ ∀ j, j < m.n → s.core.isPending (.v (m.d + j)) = false
/-- Every register's 64 bytes pass CheckAccess, aligned, and all of them are translated to parts (R52, R349). -/
def RunForm.reaches (m : RunForm) (q : Ask) (s : State) (as : List Nat) (ps : List Part) : Prop :=
  (past m.instr s).checkAligned q (s.c m.cap) 64 (runOffsets (m.off s) m.n) = .ok as ∧
    (past m.instr s).resolveAll q (s.c m.cap).space (runPlaces as) = .parts ps
/-- An activation's accesses sent with their order, and the tokens they leave. -/
def sends (s : State) (act : Act) (o : Order) (l : List (Part × Errand)) : State :=
  let r := s.sendAll act o l
  r.2.leaveTokens o r.1

def vectorErrand (consume : Bool) (l : Landing) : Errand :=
  { kind := .load, data := [], tagv := false, aop := if consume then consumeMark else 0, operand2 := [], landing := l }

/-- R52, R84, R147, R343, R349: a vector load of one register fills it from zero, or pushes what comes into the stream bound to it; one of several
registers fills each from its own 64 bytes. CONSUME asks for a STORE capability and a full buffer.
The words read hold no error beyond correction (R76). -/
def VectorLoads : Prop :=
  ∀ x y s act as ps, ∀ m ∈ [runLoad x, runLoadShort y], m.runs s → s.core.act = some act → act.resumed = none → m.reaches (Ask.load m.cap) s as ps →
    (m.consume = true → (s.c m.cap).space = 1 ∧ (past m.instr s).consumeReady (Ask.load m.cap) (s.c m.cap) (m.off s) (as.getD 0 0) = .ok ()) →
    (∀ v l t, m.n = 1 → (past m.instr s).vland m.d none 0 64 0 = .ok v → ((past m.instr s).touch ps).vland m.d none 0 64 (BitVec.allOnes 64) = .ok (l, t) →
      t.core.act = some act → t.hasRoom act (m.order s) ps = true → readable t ps →
      exec m.instr s = .next (sends t act (m.order s) (ps.map (fun p => (p, vectorErrand m.consume l))))) ∧
    (∀ t, 1 < m.n → t = (List.range m.n).foldl (fun t j => t.setV (m.d + j) 0) ((past m.instr s).touch ps) → t.core.act = some act →
      t.hasRoom act (m.order s) (ps.map (fun p => { p with place := p.place % 64 })) = true → readable t ps →
      exec m.instr s = .next (sends t act (m.order s) (ps.map (fun p =>
        ({ p with place := p.place % 64 }, vectorErrand m.consume (.vec (m.d + p.place / 64) 0))))))

/-- R343, R349: a vector store sends the bytes of its registers, in order, each part with its own; a register that is bound is popped. -/
def VectorStores : Prop :=
  ∀ x y s act as ps v t, ∀ m ∈ [runStore x, runStoreShort y], m.runs s → s.core.act = some act → act.resumed = none →
    (past m.instr s).popAll [(m.d, none)] = .ok v → m.reaches (Ask.store m.cap) s as ps → ((past m.instr s).touch ps).popAll [(m.d, none)] = .ok t →
    t.core.act = some act → t.hasRoom act (m.order s) ps = true →
    exec m.instr s = .next (sends t act (m.order s) (ps.map (fun p =>
      (p, storeErrand ((List.range m.n).flatMap (fun j => leBytes 64 (t.vin (m.d + j)).toNat))))))

/-- R337, R350: VLDG sends one access for each governed lane below 16 at the offset its index lane gives, and starts its register with those lanes and,
where ZERO asks for it, every other lane zero; VSTS sends the governed lanes' bytes, of lanes with one address the highest alone.
The words read hold no error beyond correction (R76). -/
def GathersAndScatters : Prop :=
  (∀ x s act t v ks as ps l w, issues (.vldg x) s → governorsWritten x (past (.vldg x) s) → s.core.act = some act → act.resumed = none →
    (past (.vldg x) s).popAll [(x.b.toNat, some 32)] = .ok t → t.vland x.d.toNat (some x.width) 0 64 0 = .ok v → ks = gatherLanes x t →
    t.checkAligned (askGather x.a.toNat) (t.c x.a.toNat) (x.width / 8) (ks.map (gatherOffset x t)) = .ok as →
    t.resolveAll (askGather x.a.toNat) (t.c x.a.toNat).space ((as.zip ks).map (fun e => (e.1, x.width / 8 * e.2, x.width / 8))) = .parts ps →
    (t.touch ps).vland x.d.toNat (some x.width) (BitVec.ofNat 512 (packLanes x.width (lanes x.ty) (fun k =>
      if ks.contains k || x.zero then 0 else laneOf x.width (t.vold x.d.toNat) k))) (x.width / 8 * ks.length) (laneMask 64 ks.contains)
      = .ok (l, w) →
    w.core.act = some act → w.hasRoom act (x.order t) ps = true → readable w ps →
    exec (.vldg x) s = .next (sends w act (x.order t) (ps.map (fun p => (p, vectorErrand false l))))) ∧
  (∀ x s act t ks as ps kept, issues (.vsts x) s → governorsWritten x (past (.vsts x) s) → s.core.act = some act → act.resumed = none →
    (past (.vsts x) s).popAll [(x.b.toNat, some 32), (x.d.toNat, some x.width)] = .ok t → t.core.act = some act → ks = gatherLanes x t →
    t.checkAligned (askScatter x.a.toNat) (t.c x.a.toNat) (x.width / 8) (ks.map (gatherOffset x t)) = .ok as →
    t.resolveAll (askScatter x.a.toNat) (t.c x.a.toNat).space ((as.zip ks).map (fun e => (e.1, x.width / 8 * e.2, x.width / 8))) = .parts ps →
    kept = ps.filter (fun p => ps.all (fun r => r.addr != p.addr || decide (r.place ≤ p.place))) →
    (t.touch ps).hasRoom act (x.order t) kept = true →
    exec (.vsts x) s = .next (sends (t.touch ps) act (x.order t) (kept.map (fun p => (p, storeErrand (leBytes 64 (t.vin x.d.toNat).toNat))))))

/-- R67: a vector load, store, gather or scatter that a RESUME with value answered counts as performed: a load fills its registers with the bytes
supplied and zeros beyond them, a gather its one register. -/
def AnsweredVectorAccesses : Prop :=
  ∀ x y s act v, s.core.act = some act → act.resumed = some v →
    (∀ m ∈ [runLoad x, runLoadShort y], m.runs s → exec m.instr s = .next (((past m.instr s).consume (m.order s)).fillRun m.d m.n v)) ∧
    (∀ m ∈ [runStore x, runStoreShort y], m.runs s → exec m.instr s = .next ((past m.instr s).consume (m.order s))) ∧
    (issues (.vldg x) s → governorsWritten x (past (.vldg x) s) → ((past (.vldg x) s).consume (x.order s)).bound x.d.toNat = none →
      exec (.vldg x) s = .next (((past (.vldg x) s).consume (x.order s)).setV x.d.toNat (BitVec.ofNat 512 (ofLe (slice v 0 64))))) ∧
    (issues (.vsts x) s → governorsWritten x (past (.vsts x) s) → exec (.vsts x) s = .next ((past (.vsts x) s).consume (x.order s)))

/-- The running activation of a state goes on: it has not faulted. -/
def runs (s : State) : Prop := s.core.act.map (·.halted.isNone) = some true
/-- A matrix instruction in normal mode whose unit is free: its claim, descriptors and capabilities are those of m, and its AFTER is gone
(R366, R371, R381). -/
def unitTakes (i : Instr) (x : Long) (op descs : Nat) (s : State) (m : MatOp) : Prop :=
  issues i s ∧ s.core.matMode = false ∧ s.core.matOps.any (·.busy) = false ∧
    (∃ act, s.core.act = some act ∧ (past i s).newMatOp act x op descs = .ok m) ∧ (op ≠ 0x208 → (past i s).gone m.deps = true)

/-- R372: MZERO sets every element of its accumulator to zero, clears its flags and PROGRESS, and sets its kind: EXACT for SUB 0 and F64 for SUB 0xB; no word with another SUB
is read as MZERO. -/
def AccumulatorZero : Prop :=
  (∀ x s m t, unitTakes (.mzero x) x 0x200 0 s m → t = ((past (.mzero x) s).setAcc x.d.toNat (Acc.zeroOf (x.sub == 0xB))).claimFor m → runs t →
    exec (.mzero x) s = .next t) ∧
  (∀ (f : Bool) (z : Acc), z = Acc.zeroOf f → z.f64 = f ∧ (∀ k, at_ z.cells k 0 = 0) ∧ z.nan = 0 ∧ z.pinf = 0 ∧ z.ninf = 0 ∧ z.progress = 0) ∧
  (∀ x : Long, x.sub ≠ 0 → x.sub ≠ 0xB → wellFormed (.mzero x) = false) ∧ (∀ p0 p1 p2 x, decodeParcels p0 p1 p2 = some (.mzero x) → x.sub = 0 ∨ x.sub = 0xB)

/-- R371, R378: MACC adds one accumulator to another of the same format, with a
rounding in F64 alone, and MACC.mov copies one; each claims its destination. -/
def AccumulatorResults : Prop :=
  (∀ x s m t, unitTakes (.macc x) x 0x20A 0 s m → x.sub ≠ 1 →
    (s.core.getAcc x.d.toNat).f64 = (s.core.getAcc x.b.toNat).f64 → ((s.core.getAcc x.d.toNat).f64 = false → x.c.extractLsb' 0 2 = 0) →
    t = ((past (.macc x) s).setAcc x.d.toNat ((s.core.getAcc x.d.toNat).add (s.core.getAcc x.b.toNat) (x.c.extractLsb' 0 2))).claimFor m →
    runs t → exec (.macc x) s = .next t) ∧
  (∀ x s m t, unitTakes (.maccMov x) x 0x20A 0 s m → x.sub = 1 →
    t = ((past (.maccMov x) s).setAcc x.d.toNat (s.core.getAcc x.b.toNat)).claimFor m → runs t → exec (.maccMov x) s = .next t)

/-- What MMAD does with its operands: the next step of R375, and at the last one its completion. -/
def mmadStep (x : Long) (m : MatOp) (u v : List (List Fp)) (s : State) : State :=
  let r := m.stepF64 u v (s.claimFor m)
  let t := r.2.mapCore (fun c => { c with matOps := c.matOps.filter (·.stage != .stepping) })
  if r.1 then t.leaveMatOp { m with stage := .computing, rows := [] } (x.order s)
  else (t.addMatOp { m with stage := .stepping, rows := u ++ v }).stay 8

/-- R366 to R369, R373 to R375: MMA and MMAQ add to their accumulator the exact product of the operands they fetch, having checked their types and
shapes; MMAD on an F64 accumulator fetches its operands at its first step and makes one step after another, the pc on it until the last. -/
def MatrixProducts : Prop :=
  (∀ e ∈ [(Instr.mma, 0x201), (Instr.mmaq, 0x202)], ∀ x s m t a b u, unitTakes (e.1 x) x e.2 2 s m →
    (s.core.getAcc x.d.toNat).f64 = false → checkPair e.2 m.ca m.cb m.da m.db ((x.hi.toNat + 1) * 16) = .ok () →
    m.fetch (past (e.1 x) s) = .ok (a, b, u) →
    t = ((u.setAcc x.d.toNat ((s.core.getAcc x.d.toNat).addProduct a b)).claimFor m).leaveMatOp { m with stage := .computing } (x.order s) →
    runs t → exec (e.1 x) s = .next t) ∧
  (∀ x s act m t a b u, unitTakes (.mmad x) x 0x203 2 s m → s.core.act = some act →
    s.core.matOps.find? (fun m => m.stage == .stepping && m.serial == act.serial && m.pc == (past (.mmad x) s).pc0 8) = none →
    (s.core.getAcc x.d.toNat).f64 = true → checkPair 0x203 m.ca m.cb m.da m.db (x.hi.toNat + 1) = .ok () →
    m.fetch (past (.mmad x) s) = .ok (a, b, u) → t = mmadStep x m a b u → runs t → exec (.mmad x) s = .next t) ∧
  (∀ x s act m t, issues (.mmad x) s → s.core.matMode = false → s.core.act = some act →
    s.core.matOps.find? (fun m => m.stage == .stepping && m.serial == act.serial && m.pc == (past (.mmad x) s).pc0 8) = some m →
    t = mmadStep x m (m.rows.take 16) (m.rows.drop 16) (past (.mmad x) s) → runs t → exec (.mmad x) s = .next t)

/-- R367, R376, R377: MREAD with a destination in memory hands the 16 rows of its result to its writes, in order, and with a stream pushes them; MREADK
reads one row into a vector register, or two of 64-bit lanes. SAT with an F64 accumulator is refused. -/
def MatrixReadouts : Prop :=
  (∀ x s act m t acc rows, unitTakes (.mread x) x 0x208 1 s m → s.core.act = some act → acc = s.core.getAcc x.b.toNat →
    (acc.f64 = true → x.sat = false) → dSource m.da < 2 → dTy m.da = 0 → dDesc m.da = false →
    m.rowParts (past (.mread x) s) acc 0 16 = .ok rows →
    t = (((past (.mread x) s).writeRows act m.deps rows).2.claimFor m).leaveMatOp
      { m with writes := ((past (.mread x) s).writeRows act m.deps rows).1, stage := .writing } (x.order s) →
    runs t → exec (.mread x) s = .next t) ∧
  (∀ x s m t acc w u, unitTakes (.mread x) x 0x208 1 s m → acc = s.core.getAcc x.b.toNat →
    (acc.f64 = true → x.sat = false) → dSource m.da = 2 → dTy m.da = 0 → dDesc m.da = false →
    m.pushRows (past (.mread x) s) acc = .ok (w, u) →
    t = (u.claimFor m).leaveMatOp { w with stage := .writing } (x.order s) → runs t → exec (.mread x) s = .next t) ∧
  (∀ x s m acc v, unitTakes (.mreadk x) x 0x209 0 s m → acc = s.core.getAcc x.b.toNat → (acc.f64 = true → x.sat = false) → x.width ≠ 64 →
    s.bound x.d.toNat = none →
    v = (past (.mreadk x) s).mapCore (fun c => (c.settled (.v x.d.toNat) 0).settled (.v (x.d.toNat + 1)) 0) →
    ∃ r, (∀ k, k < lanes x.ty → laneOf x.width r k = if k < 16 then acc.readout x.ty x.rm x.sat (16 * x.c.toNat + k) % 2 ^ x.width
      else laneOf x.width (s.v x.d.toNat) k) ∧ (runs ((v.setV x.d.toNat r).claimFor m) →
      exec (.mreadk x) s = .next ((v.setV x.d.toNat r).claimFor m))) ∧
  (∀ x s m acc v, unitTakes (.mreadk x) x 0x209 0 s m → acc = s.core.getAcc x.b.toNat → (acc.f64 = true → x.sat = false) → x.width = 64 →
    s.bound x.d.toNat = none → s.bound (x.d.toNat + 1) = none →
    v = (past (.mreadk x) s).mapCore (fun c => (c.settled (.v x.d.toNat) 0).settled (.v (x.d.toNat + 1)) 0) →
    ∃ q r, (∀ k, k < 8 → laneOf 64 q k = acc.readout x.ty x.rm x.sat (16 * x.c.toNat + k) % 2 ^ 64 ∧
        laneOf 64 r k = acc.readout x.ty x.rm x.sat (16 * x.c.toNat + (8 + k)) % 2 ^ 64) ∧
      (runs (((v.setV x.d.toNat q).setV (x.d.toNat + 1) r).claimFor m) →
        exec (.mreadk x) s = .next (((v.setV x.d.toNat q).setV (x.d.toNat + 1) r).claimFor m)))

/-- R381: in diagnostic mode a matrix instruction enters the scoreboard while fewer than four entries are queued or computing, claims its destination,
and its token names the entry; MREADK's registers read pending until it has run. -/
def DiagnosticQueue : Prop :=
  ∀ e ∈ [(Instr.mzero, 0x200, 0), (Instr.mma, 0x201, 2), (Instr.mmaq, 0x202, 2), (Instr.mmad, 0x203, 2), (Instr.mread, 0x208, 1),
      (Instr.mreadk, 0x209, 0), (Instr.macc, 0x20A, 0), (Instr.maccMov, 0x20A, 0)],
    ∀ x s act m u v w t, issues (e.1 x) s → s.core.act = some act → s.core.matMode = true →
    (past (e.1 x) s).newMatOp act x e.2.1 e.2.2 = .ok m → (s.core.matOps.filter (·.busy)).length < 4 →
    u = (((past (e.1 x) s).launchItem (.command s.core.psn act.serial)).leaveTokens (x.order s) [s.nextId]).claimFor m →
    v = (if e.2.1 = 0x209 then u.setPending (.v x.d.toNat) s.nextId else u) →
    w = (if e.2.1 = 0x209 ∧ elemBits x.ty = 64 then v.setPending (.v (x.d.toNat + 1)) s.nextId else v) →
    t = w.addMatOp { m with id := s.nextId } → runs t → exec (e.1 x) s = .next t

/-- R379, R380: MSTAT samples an accumulator that no other claims: its claims, format, mode, the exceptional values a sum holds, the entries queued on
it in diagnostic mode, and PROGRESS. MMODE sets the mode once the activation has nothing under way, and reports the one before; diagnostic mode needs
the core's own permission, and no gang. -/
def MatrixStatus : Prop :=
  (∀ x s act acc t, issues (.mstat x) s → s.core.act = some act → acc = s.core.getAcc x.b.toNat → s.accClaimed x.b.toNat = false →
    (s.core.matMode = false → s.core.matOps.any (·.busy) = false) →
    t = (past (.mstat x) s).setG x.d.toNat (BitVec.ofNat 64 ((act.claims.getLsbD x.b.toNat).toNat * 2 ^ 63 +
      (s.core.ringClaims.getLsbD x.b.toNat).toNat * 2 ^ 62 + acc.f64.toNat * 2 ^ 61 + s.core.matMode.toNat * 2 ^ 60 +
      (!acc.f64 && acc.nan != 0).toNat * 2 ^ 59 + (!acc.f64 && acc.pinf != 0).toNat * 2 ^ 58 + (!acc.f64 && acc.ninf != 0).toNat * 2 ^ 57 +
      (if s.core.matMode then min (s.core.matOps.filter (fun m => m.busy && m.names x.b.toNat)).length 4 else 0) * 2 ^ 46 +
      acc.progress * 2 ^ 40)) → runs t → exec (.mstat x) s = .next t) ∧
  (∀ x s act t, issues (.mmode x) s → s.core.act = some act → (x.hi.getLsbD 0 = true → s.core.diag = true ∧ act.gang = none) →
    s.core.matOps.any (fun m => m.busy && m.serial == act.serial) = false →
    t = ((past (.mmode x) s).mapCore (fun c => { c with matMode := x.hi.getLsbD 0 })).setG x.d.toNat (BitVec.ofNat 64 s.core.matMode.toNat) →
    runs t → exec (.mmode x) s = .next t)

/-- The core is a member of the ring r, whose operation is idle or running and which no member leaves (R385). -/
def ringMemberOf (s : State) (r : Ring) : Prop := s.ringOf s.core = some r ∧ s.core.ringState < 2 ∧ r.leavers = []
/-- The entry an RMSET or RMCLR names: its literal, or a register below 64 (R384). -/
def namesEntry (x : Long) (s : State) (j : Nat) : Prop :=
  if x.sub = 1 then fld (s.g x.b.toNat) 63 6 = 0 ∧ j = (s.g x.b.toNat).toNat else j = x.hi.toNat

/-- R384 to R387, R389: on a member whose operation goes on and which has not sealed, RMSET arms a free entry with the tags, the accumulator and the
format its word gives, in the current operation; RMCLR frees one entry and RMCLR.all every one; RJOIN, once no lease change is pending and no other
activation claims an accumulator its entries name, seals and reports how many entries are still to fire, and the operation's number. -/
def RingEntries : Prop :=
  (∀ x s r j w, issues (.rmset x) s → ringMemberOf s r → s.core.sealed = false → namesEntry x s j → w = s.g x.a.toNat → fld w 63 46 = 0 →
    ringFormats.contains (fld w 45 42) = true → mState (s.core.entry j) = 0 →
    exec (.rmset x) s = .next ((past (.rmset x) s).mapCore (·.setEntry j (BitVec.ofNat 128 (2 ^ 61 + fld w 41 40 * 2 ^ 55 + fld w 45 42 * 2 ^ 51 +
      fld w 39 32 * 2 ^ 40 + fld w 31 0 + s.core.opnum * 2 ^ 121))))) ∧
  (∀ x s r j, issues (.rmclr x) s → ringMemberOf s r → s.core.sealed = false → namesEntry x s j →
    exec (.rmclr x) s = .next ((past (.rmclr x) s).mapCore (·.freeEntry j))) ∧
  (∀ x s r, issues (.rmclrAll x) s → ringMemberOf s r → s.core.sealed = false →
    exec (.rmclrAll x) s = .next ((past (.rmclrAll x) s).mapCore (fun c => (List.range 64).foldl Core.freeEntry c))) ∧
  (∀ x s r, issues (.rjoin x) s → ringMemberOf s r → s.core.sealed = false → s.core.leasePend = false →
    s.core.namedAccs &&& s.foreignClaims s.core = 0 →
    exec (.rjoin x) s = .next ((((past (.rjoin x) s).seal s.core.psn).mapAct (fun a =>
      { a with claims := a.claims &&& ~~~ s.core.namedAccs })).setG x.d.toNat
        (BitVec.ofNat 64 (s.core.armedCount + s.core.opnum * 2 ^ 8))))

/-- The 2048 bytes of a store tile that an injection reads. -/
def tileSource (home : Psn) (addr : Nat) : Part :=
  { owner := .tile home (addr % 2 ^ 19), space := 1, addr, phys := addr, place := 0, size := 2048, pkind := 1, key := 0, tags := true, spliced := false }
/-- R388: RINJ of a header word whose reserved bits are clear and whose laps are not zero, from an aligned tile of 2048 bytes of the home store tile, all
in RAW or OPERAND segments with its buffers full, with two slots of the family free and promised to no tile, and an injection record free, reads the tile, puts it in the first free slot under a
header of the current operation, and records the injection. -/
def RingInjection : Prop :=
  ∀ x s act u v f r w addr home slot rest place bytes, issues (.rinj x) s → s.core.act = some act → ringMemberOf s r → u = past (.rinj x) s →
    w = s.g x.c.toNat → fld w 63 27 = 0 → fld w 21 16 ≠ 0 → ringFormats.contains (fld w 25 22) = true →
    (∀ q ∈ s.core.inject.toList, ¬(recLive q = true ∧ recFam q = bit w 26 ∧ recTag q = fld w 15 0)) →
    u.checkCap { Ask.load x.a.toNat with answers := false } (s.c x.a.toNat) (s.offset x.b.toNat 0) 2048 = .ok addr → addr % 64 = 0 →
    (s.c x.a.toNat).space = 1 → s.storeTile s.core (addr / 2 ^ 19) = some home → s.homeTile s.core = some home →
    addr / 2 ^ 19 = (addr + 2047) / 2 ^ 19 →
    segMode ((s.getTile home).seg (addr % 2 ^ 19 / 65536)) < 2 → segMode ((s.getTile home).seg ((addr % 2 ^ 19 + 2047) / 65536)) < 2 →
    s.gone (x.order s).after = true → (s.getTile home).isFull (addr % 2 ^ 19) 2048 = true → 2 ≤ s.openSlots s.core (bit w 26) →
    s.core.freeSlots (bit w 26) = slot :: rest →
    (List.range 16).find? (fun i => !recLive (at_ s.core.inject i 0)) = some place →
    u.readPart act (tileSource home addr) = .ok (bytes, v) →
    f = v.fillSlot s.core.psn slot 1 (makeHdr (bit w 26) s.core.opnum (fld w 21 16) (fld w 25 22) (fld w 15 0) s.core.name) bytes →
    exec (.rinj x) s = .next ((f.mapCore (fun c => { c with inject := put c.inject place (makeRec (bit w 26) c.opnum (fld w 21 16) (fld w 25 22)
      (fld w 15 0) (c.homeStore.toNat * 2 ^ 19 + addr % 2 ^ 19)) })).leaveTokens (x.order f) [])

/-- R390 to R393: RELIGHT of an entry that waits for tiles not resident asks for each with a slot reserved, and otherwise reports 0; RDRAIN, when the
operation neither runs nor drains, empties every member and begins the next operation; RLEAVE of a member with nothing left leaves, and the last one
dissolves the ring; RSTAT reads the membership, the operation by a request to the origin, the slots, or the counts of the entries. -/
def RingMembership : Prop :=
  (∀ x s r m missing u, issues (.relight x) s → ringMemberOf s r → u = past (.relight x) s → m = s.core.entry x.hi.toNat →
    missing = [false, true].filter (fun w => (s.core.residentAt w (mTag m w)).isNone) →
    ((mState m ≠ 1 ∧ mState m ≠ 3) ∨ missing = [] → exec (.relight x) s = .next (u.setG x.d.toNat 0)) ∧
    ((mState m = 1 ∨ mState m = 3) → missing ≠ [] → (∀ w ∈ missing, s.reservable s.core w ≠ none) →
      exec (.relight x) s = .next (((missing.foldl (fun t w => t.askRelight r s.core.psn x.hi.toNat w ((t.reservable s.core w).getD 0)) u).mapCore
        (fun c => c.setEntry x.hi.toNat (setMState (c.entry x.hi.toNat) 4))).setG x.d.toNat (BitVec.ofNat 64 missing.length)))) ∧
  (∀ x s r, issues (.rdrain x) s → s.ringOf s.core = some r → (s.core.ringState = 0 ∨ 3 ≤ s.core.ringState) → s.ringCompleting r = false →
    exec (.rdrain x) s = .next (((((past (.rdrain x) s).dropRelights r).dropSeals (psnRegion s.core.psn) r).modMembers r (fun c => ({ (c.emptySlots.releaseRing) with
      matches_ := Vector.replicate 64 0, inject := Vector.replicate 16 0 } : Core).nextOp 0 (opCancels c.ringOp))).setG x.d.toNat
        (BitVec.ofNat 64 s.core.ringState))) ∧
  (∀ x s r left q u, issues (.rleave x) s → u = past (.rleave x) s → s.ringOf s.core = some r → s.core.ringState = 0 →
    (∀ j, j < 64 → mState (s.core.entry j) = 0) → (∀ q ∈ s.core.inject.toList, recLive q = false) → r.leavers.contains s.core.psn = false →
    q = { r with leavers := r.leavers ++ [s.core.psn] } → left = r.members.length - (r.leavers.length + 1) →
    exec (.rleave x) s = .next ((if left = 0 then u.dissolveRing (psnRegion s.core.psn) q else u.putRing (psnRegion s.core.psn) q).setG x.d.toNat
      (BitVec.ofNat 64 left))) ∧
  (∀ x s u, issues (.rstat x) s → u = past (.rstat x) s →
    (s.ringOf s.core = none → exec (.rstat x) s = .next (u.setG x.d.toNat (if x.hi.toNat = 0 then s.core.ringMember else 0))) ∧
    (∀ r, s.ringOf s.core = some r →
      (x.hi.toNat = 0 → exec (.rstat x) s = .next (u.setG x.d.toNat s.core.ringMember)) ∧
      (x.hi.toNat = 1 → exec (.rstat x) s = .next ((u.launchItem (.ringOp s.core.psn x.d.toNat (u.getCore r.origin).ringOp)).setPending
        (.g x.d.toNat) s.nextId)) ∧
      (x.hi.toNat = 2 → exec (.rstat x) s = .next (u.setG x.d.toNat s.core.ringSlotsWord)) ∧
      (x.hi.toNat = 3 → ∃ n : Nat → Nat, (∀ k, n k = ((List.range 64).filter (fun j => mState (s.core.entry j) == k)).length) ∧
        exec (.rstat x) s = .next (u.setG x.d.toNat (BitVec.ofNat 64 (n 1 + n 2 * 2 ^ 8 + n 3 * 2 ^ 16 + n 4 * 2 ^ 24 +
          (s.core.inject.toList.filter recLive).length * 2 ^ 32))))))

/-- Whether a core of a region hosts an actor of a resident or parked graph, or a tombstone of the region is live (R28). -/
def regionInUse (s : State) (region : Nat) : Prop :=
  (∃ g ∈ s.graphs, g.stat ≠ 0 ∧ ∃ a ∈ g.actors, psnRegion a.2.1 = region) ∨
  ∃ t ∈ (s.getRegion region).tombs, s.tsc.toNat < t.until_

/-- R28, R40, R27: NAME_PREFIX is taken while the region is in no use, and every core gets its default name; it is ignored otherwise. DIR_ENTRY.NAME names the
selected core where NAMESET could, else only DIR_SEL.REFUSED is set. A control write of one whole register reaches its unit. -/
def NameRegisters : Prop :=
  (∀ s region v, region < 80 → ¬ regionInUse s region → exec (.namePrefixWrite region v) s =
    .next ((s.modRegion region (fun r => { r with namePrefix := v.extractLsb' 0 6 })).defaultNames region)) ∧
  (∀ s region v, region < 80 → regionInUse s region → exec (.namePrefixWrite region v) s = .next s) ∧
  (∀ (s : State) region n p, region < 80 → p = corePsn region (fld (s.getRegion region).dirSel 8 0) →
    isGridCore p = true → psnRegion p = region → psnIndex p < 288 → (s.getCore p).live = true → (s.getCore p).act = none → s.nameOk region p n = true →
    exec (.dirEntryWrite region n) s = .next (s.putCore { s.getCore p with name := n })) ∧
  (∀ (s : State) region n p, region < 80 → p = corePsn region (fld (s.getRegion region).dirSel 8 0) → s.nameOk region p n = false →
    exec (.dirEntryWrite region n) s = .next (s.modRegion region (fun g => { g with dirSel := setBit g.dirSel 63 true }))) ∧
  (∀ (s : State) (addr : BitVec 40) data, addr.toNat % 8 = 0 → data.length = 8 → ctrlExists addr.toNat = true →
    ctrlDenied .firmware true addr.toNat 8 = false → (∀ p, ctrlPlace addr.toNat = some p → s.gated p = false) →
    exec (.ctrlRegisterWrite addr data) s =
      .next (s.ctrlWriteWord .firmware addr.toNat { value := BitVec.ofNat 64 (ofLe data), mask := BitVec.allOnes 64 }))

/-- A message as a router sends it on, and the state once the router has learned its source (R29): a counter post takes its number in its channel at the
router of its source (log entry 122). -/
def numbered (s : State) (m : Msg) : Msg := if m.unnumbered then { m with seq := ((s.getRegion m.region).postChannel m.name m.dest).1 } else m
def learned (s : State) (m : Msg) : State :=
  let u := s.putRouter m.tile ((s.getRouter m.tile).learn s.tsc.toNat m.port m.name)
  if m.unnumbered then u.countPost m.region m.name m.dest else u
/-- R29 to R33, R410: a router learns the source's port and passes the first message of a buffer on by the port it knows for the destination, as soon as the next lane
takes it, to the local port where that is port 0 and the name is held there; a flood that it has forwarded goes no further; a flood for a name the directory does not hold comes
back with reason 1, and a message for a name its core does not have goes back to the router; the next expected message of a channel is accepted and the
channel advances; a bounce releases the credit of its slot and posts BOUNCE; a tombstone forwards to the actor's new core and, at
the end of its window, marks the sources and goes; a forward-end marker opens the source's channel. -/
def MessageRouting : Prop :=
  (∀ (s : State) id (m k : Msg) u port t, s.msg id = some m → m.stage = .router → s.first id m = true → s.whole m = true →
    isAgentName m.dest = false → m.flood = none → u = learned s m → k = numbered s m →
    ((s.getRouter m.tile).learn s.tsc.toNat m.port m.name).lookup s.tsc.toNat m.dest = some port →
    (port = 0 → u.takesName m.tile m.dest = true → exec (.routerArrival id) s = .next (u.setItem id (.message { k with stage := .local }))) ∧
    (port ≠ 0 → neighbour m.tile port = some t → (s.getRouter m.tile).cut.contains port = false → u.laneOpen m.tile port k.nextLane k.flits = true →
      exec (.routerArrival id) s = .next (((u.leaveBuffer k).carry m.tile port k.nextLane k.flits).requeue id
        (.message { k with tile := t, port := opposite port, lane := k.nextLane })))) ∧
  (∀ (s : State) id (m : Msg) hops, s.msg id = some m → m.stage = .router → s.first id m = true → s.whole m = true →
    isAgentName m.dest = false → m.flood = some hops → (s.getRouter m.tile).floods.contains m.identity = true →
    exec (.routerArrival id) s = .next (((learned s m).leaveBuffer m).dropItem id)) ∧
  (∀ (s : State) id (m : Msg) u v, s.msg id = some m → m.stage = .local → s.first id m = true → s.whole m = true → s.gated m.tile = false →
    u = s.touchCluster m.tile → (u.getCore m.tile).name = m.dest → u.bounceReason m.tile m = none → m.handle < 19 → m.reply = false →
    v = u.leaveBuffer m → v.awaitsMarker m.tile m = false → m.seq = (v.getCore m.tile).expected m.handle m.name →
    exec (.coreMessageAccept id) s =
      .next (((v.unstash m.tile id).modCore m.tile (·.advance m.handle m.name)).setItem id (.message { m with stage := .accepted }))) ∧
  (∀ (s : State) id (m : Msg) u, s.msg id = some m → m.stage = .local → s.first id m = true → s.whole m = true → s.gated m.tile = false →
    u = s.touchCluster m.tile → (u.getCore m.tile).name ≠ m.dest → isAgentName m.dest = false → u.takesName m.tile m.dest = false →
    exec (.coreMessageAccept id) s = .next (if m.flood.isSome then (u.leaveBuffer m).dropItem id
      else u.setItem id (.message { m with stage := .router }))) ∧
  (∀ (s : State) id (m : Msg) hops, s.msg id = some m → m.stage = .lantern → m.flood = some hops → m.isFaultMessage = false →
    s.holder m.region m.dest = none → s.tombFor m.region m.dest = none →
    exec (.lanternFloodBounce id) s = .next (s.setItem id (.message { m with stage := .bounced, reason := 1, payload := 1 :: m.payload.drop 1, tile := lanternPsn m.region 0 }))) ∧
  (∀ (s : State) id (m : Msg) u o, s.msg id = some m → m.stage = .bounced → m.reply = false → m.eos = false → isGridCore m.src = true →
    (s.getCore m.src).unsent.length < 4 → u = s.finish id m → 20 ≤ o → o < 32 →
    (∀ k, 20 ≤ k → k < 32 → (((u.getCore m.src).queueOk.getLsbD k = true ∧ oDest ((u.getCore m.src).queue k) = m.dest ∧
      oHandle ((u.getCore m.src).queue k) = m.handle) ↔ k = o)) →
    exec (.bounceReceived id) s = .next ((u.modCore m.src (fun c => c.setQueue o (setFld (c.queue o) 47 39 (oCredits (c.queue o) + 1)))).coreNotice
      m.src .bounce (bounceDetail m))) ∧
  (∀ (s : State) id (m : Msg) t, s.msg id = some m → m.stage = .local → s.first id m = true → s.whole m = true →
    (s.getRegion m.region).tombs.find? (fun t => t.core == m.tile && t.name == m.dest && decide (s.tsc.toNat < t.until_)) = some t →
    exec (.tombstoneForward id) s = .next (((s.leaveBuffer m).requeue id (.message { m with tile := t.target, port := 0, forwarded := true })).modRegion m.region (fun r => { r with
      tombs := r.tombs.map (fun x => if x = t then { x with
        next := x.next.filter (fun e => !(e.1 == m.name && e.2.1 == m.handle)) ++ (if m.handle < 19 then [(m.name, m.handle, m.seq + 1)] else []) }
        else x) }))) ∧
  (∀ (s : State) core t, (s.getRegion (psnRegion core)).tombs.find? (·.core == core) = some t → t.until_ ≤ s.tsc.toNat → t.next = [] →
    (s.getCore t.target).moved = [] →
    exec (.tombstoneWindowEnd core) s = .next (s.modRegion (psnRegion core) (fun r => { r with tombs := r.tombs.filter (·.core != core) }))) ∧
  (∀ (s : State) id asker old source t, s.item id = some (.markerRequest asker old source) →
    (s.getRegion (psnRegion old)).tombs.find? (·.core == old) = some t → t.marked.contains source = false →
    (∀ i ∈ s.flight, ∀ m, i.body = .message m → ¬ (m.stage = .local ∧ m.tile = old ∧ m.dest = t.name ∧ m.name = source)) →
    exec (.markerRequest id) s = .next ((s.dropItem id).mark t source)) ∧
  (∀ (s : State) id p source next, s.item id = some (.marker p source next) →
    exec (.forwardEndMarker id) s = .next ((s.dropItem id).modCore p (fun c => { c with moved := c.moved.filter (·.1 != source) ++ [(source, true)] })))

/-- R92 to R95, R113, R184, R310, R415, R416: an accepted slot is written whole in its place of the queue and counted, and an end-of-stream mark is counted, each after what its channel carried before it; a
returned credit adds to CREDITS; the oldest staged slot of a handle, once complete, is sent for one credit; a notification fills a slot of
h19; a counter post adds to its counter and saturates; the Lantern's inbox keeps a fault message; SNUFFNOTE counts in q52. What an engine reads of LOCAL is noted or reported where it holds bit errors (R76). -/
def QueueArrivals : Prop :=
  (∀ (s : State) id (m : Msg) q place, s.msg id = some m → m.stage = .accepted → m.handle < 19 → m.eos = false → m.reply = true →
    q = (s.getCore m.tile).queue m.handle → qProducers q = 1 → place = qArrived q % qDepth q →
    ((s.getCore m.tile).arrivals.filter (·.1 == m.handle)).length < qDepth q → s.replyFirst id m.tile m.chans = true →
    exec (.queueSlotArrival id) s = .next ((((s.poke (localKey m.tile (slotAddr q noProducer place)) (slice m.payload 0 (qSlotBytes q))).modCore m.tile
      (fun c => { (c.setQueue m.handle (setFld q 31 0 (qArrived q + 1))) with
        arrivals := c.arrivals ++ [(m.handle, noProducer, place)]
        chans := c.chans.map (fun x => if x.handle == m.handle && x.name == m.name then { x with filled := x.filled + 1 } else x) })).finish id m))) ∧
  (∀ (s : State) id (m : Msg) q k place, s.msg id = some m → m.stage = .accepted → m.handle < 19 → m.eos = false → m.reply = false →
    q = (s.getCore m.tile).queue m.handle → (s.getCore m.tile).producerOf m.handle m.name = some k → qProducers q ≠ 1 →
    place = (((s.getCore m.tile).producers m.handle)[k]?.map (·.filled)).getD 0 % (qDepth q / qProducers q) →
    ((s.getCore m.tile).arrivals.filter (·.1 == m.handle)).length < qDepth q → s.channelFirst m = true →
    exec (.queueSlotArrival id) s = .next ((((s.poke (localKey m.tile (slotAddr q k place)) (slice m.payload 0 (qSlotBytes q))).modCore m.tile
      (fun c => { (c.setQueue m.handle (setFld q 31 0 (qArrived q + 1))) with
        arrivals := c.arrivals ++ [(m.handle, k, place)]
        chans := c.chans.map (fun x => if x.handle == m.handle && x.name == m.name then { x with filled := x.filled + 1 } else x) })).finish id m))) ∧
  (∀ (s : State) id (m : Msg), s.msg id = some m → m.stage = .accepted → m.handle < 19 → m.eos = true → s.channelFirst m = true →
    exec (.eosMarkArrival id) s = .next ((((s.modCore m.tile (fun c =>
      { (c.setQueue m.handle (setFld (c.queue m.handle) 111 106 (qEos (c.queue m.handle) + 1))) with
        chans := c.chans.map (fun x => if x.handle == m.handle && x.name == m.name then { x with eos := true } else x) })).endCheck m.tile m.handle).finish
          id m))) ∧
  (∀ (s : State) id p h n, s.item id = some (.credit p h n) → exec (.creditReturn id) s =
    .next ((s.dropItem id).modCore p (fun c => c.setQueue h (setFld (c.queue h) 47 39 (oCredits (c.queue h) + n))))) ∧
  (∀ (s : State) core h deps q a data, isGridCore core = true → 20 ≤ h → h ≤ 31 → (s.getCore core).staged.find? (·.1 == h) = some (h, false, deps) →
    s.gone deps = true → oCredits ((s.getCore core).queue h) ≠ 0 → (s.getCore core).snuffed = false → (s.getCore core).halting = false →
    q = (s.getCore core).queue h → a = oBase q + oSent q % oDepth q * oSlotBytes q → data = s.bytes (localKey core a) (oSlotBytes q) →
    s.canRead core (localKey core a) (oSlotBytes q) = true →
    exec (.stagingSlotSend core h) s = .next ((((s.putCore { s.getCore core with staged := (s.getCore core).staged.erase (h, false, deps) }).sendSlot core h
      data []).modCore core (fun c => c.setQueue h (setFld (c.queue h) 15 0 (oSent q + 1)))).engineRead core a (oSlotBytes q))) ∧
  (∀ (s : State) id (m : Msg), s.msg id = some m → m.stage = .accepted → m.handle = 19 → hValid ((s.getCore m.tile).handler 19) = false →
    numAt m.payload 0 1 ≠ 1 → exec (.notificationArrival id) s = .next (s.finish id m)) ∧
  (∀ (s : State) id (m : Msg) q place, s.msg id = some m → m.stage = .accepted → m.handle = 19 → hValid ((s.getCore m.tile).handler 19) = true →
    numAt m.payload 0 1 ≠ 1 → q = (s.getCore m.tile).queue 19 → place = qArrived q % qDepth q →
    ((s.getCore m.tile).arrivals.filter (·.1 == 19)).length < qDepth q →
    exec (.notificationArrival id) s = .next (((s.poke (localKey m.tile (slotAddr q noProducer place)) (slice m.payload 0 (qSlotBytes q))).modCore m.tile
      (fun c => { (c.setQueue 19 (setFld q 31 0 (qArrived q + 1))) with arrivals := c.arrivals ++ [(19, noProducer, place)] })).finish id m)) ∧
  (∀ (s : State) id (m : Msg) ref, s.msg id = some m → m.stage = .accepted → m.handle = 31 → ref = numAt m.payload 8 1 % 128 → ref < 48 →
    exec (.counterPostArrival id) s = .next ((s.modCore m.tile (·.addQ ref (numAt m.payload 0 8))).finish id m)) ∧
  (∀ (s : State) id (m : Msg), s.msg id = some m → m.stage = .lantern → m.isFaultMessage = true → (s.getRegion m.region).inbox.length < 512 →
    exec (.faultMessageArrival id) s =
      .next ((s.modRegion m.region (fun r => { r with inbox := r.inbox ++ [m.payload] })).finish id m)) ∧
  (∀ (s : State) id p lost, s.item id = some (.snuffnote p lost false) → s.gated p = false → exec (.snuffnoteArrival id) s =
    .next (((s.touchCluster p).dropItem id).modCore p (·.addQ 52 1))) ∧
  (∀ (s : State) id p lost, s.item id = some (.snuffnote p lost true) → s.gated p = false → exec (.snuffnoteArrival id) s =
    .next ((((s.touchCluster p).dropItem id).modCore p (·.addQ 52 1)).gangLost p lost))

/-- R101 to R103: an audit that is due carries the lane's RECEIVED and FREED; a reply that finds every flit landed and the credits right only records the
audit; a lost flit asks for an audit at once; a resynchronisation resends what the replay store of 64 still holds, sets the credits to the depth less the occupancy,
adds 64 to the link's score and records the flits; with more missing the link is withdrawn. -/
def LinkFlowControl : Prop :=
  (∀ (s : State) tile port lane l, laneExists tile port lane = true → s.linkCut tile port = false → l = (s.getRouter tile).lane port lane →
    (l.auditDue s.tsc.toNat = true → exec (.linkAuditStart tile port lane) s =
      .next ((s.putRouter tile ((s.getRouter tile).setLane { l with unaudited := 0, idle := true })).launchItem
        (.audit tile port lane l.received.toNat l.freed.toNat))) ∧
    (∀ w r k, w = s.addScore (linkUnit tile port) 64 → r = w.getRouter tile → k = r.lane port lane →
      exec (.creditCounterParityError tile port lane) s = .next (if 64 < k.missing then w.withdrawLink tile port else
        w.putRouter tile ((r.setLane { k with received := k.sent, occupancy := k.occupancy + k.missing, spent := k.occupancy + k.missing }).note port
          w.tsc.toNat (some k.missing)))) ∧
    (∀ u k, 0 < l.occupancy → u = s.putRouter tile ((s.getRouter tile).setLane { l with received := l.received - 1, occupancy := l.occupancy - 1 }) →
      k = (u.getRouter tile).lane port lane → exec (.flitEccDrop tile port lane) s =
        .next ((u.putRouter tile ((u.getRouter tile).setLane { k with unaudited := 0, idle := true })).launchItem
          (.audit tile port lane k.received.toNat k.freed.toNat)))) ∧
  (∀ (s : State) id tile port lane a b u r l, s.item id = some (.audit tile port lane a b) → u = s.dropItem id → u.linkCut tile port = false →
    r = u.getRouter tile → l = r.lane port lane → l.sent = l.received → l.spent = (l.received - l.freed).toNat →
    exec (.linkAuditReply id) s = .next (u.putRouter tile (r.note port s.tsc.toNat none)))

/-- R63, R64, R66: an L2 translation answers a request at once; without one the request joins the walks. A free walker of the eight takes the oldest walk that has none, and
answers its requesters: a leaf that grants the access fills the L2, has its ACCESSED bit (and DIRTY for a write) set and goes to the core; a failure goes as one. A fill enters the core's TLB; a failure faults the waiting instruction. An entry with an error beyond correction is reported as ECCFATAL too. -/
def TranslationSteps : Prop :=
  (∀ (s : State) id w e r, s.item id = some (.l2Request w) → r = s.getRegion (psnRegion w.core) →
    r.l2.find? (fun e => e.covers w.ctx w.va && (!w.write || leafDirty e.leaf)) = some e → exec (.l2TlbRequest id) s =
      .next ((s.modRegion (psnRegion w.core) (fun r => { r with l2 := touchTlb r.l2 w.ctx w.va })).setItem id (.fill w e))) ∧
  (∀ (s : State) id w r, s.item id = some (.l2Request w) → r = s.getRegion (psnRegion w.core) →
    (∀ e ∈ r.l2, e.covers w.ctx w.va = true → w.write = true ∧ leafDirty e.leaf = false) →
    (∀ k ∈ r.walks, ¬ (k.ctx = w.ctx ∧ k.vpage = w.va / 65536)) → r.walks.length < 64 → exec (.l2TlbRequest id) s =
      .next ((s.dropItem id).modRegion (psnRegion w.core) (fun r =>
        ({ r with walks := r.walks ++ [{ ctx := w.ctx, vpage := w.va / 65536, waiters := [w] }] } : Region).takeWalk))) ∧
  (∀ (r : Region) a b, (∀ k ∈ r.walks, k.walker ≠ some a ∧ k.walker ≠ none) → a < 8 → (∀ i < a, ∃ k ∈ r.walks, k.walker = some i) →
    b.walker = none → ({ r with walks := r.walks ++ [b] } : Region).takeWalk = { r with walks := r.walks ++ [{ b with walker := some a }] }) ∧
  (∀ (s : State) region i k w leaf size addr lv leaf' u v entry, region < 80 → i < 8 →
    (s.getRegion region).walks.find? (fun k => k.walker == some i) = some k → k.waiters = [w] → s.lostEntry region k = none →
    u = s.modRegion region (fun r => ({ r with walks := r.walks.filter (· != k) } : Region).takeWalk) → lv = levelOf w.core →
    u.findLeaf region w.ctx w.va = .leaf leaf size addr → leafCause lv leaf w.access w.write w.tagged = none →
    v = u.readEntries (u.entriesTo region w.ctx w.va (if size = 29 then 1 else 2)) → leaf' = leaf ||| (if w.write then 0x30000 else 0x10000) →
    entry = Tlb.ofLeaf w.ctx w.va size leaf' → exec (.pageWalk ⟨region, i⟩) s =
      .next (((if leaf' = leaf then v else v.dramWrite 0 addr (leBytes 8 leaf'.toNat)).modRegion region
        (fun r => { r with l2 := fillL2 r.l2 (entry.part w.va) })).launchItem (.fill w entry))) ∧
  (∀ (s : State) region i k w level cause u v, region < 80 → i < 8 →
    (s.getRegion region).walks.find? (fun k => k.walker == some i) = some k → k.waiters = [w] →
    (∀ x, s.lostEntry region k = some x → s.canNotice x.2 = true) →
    u = s.modRegion region (fun r => ({ r with walks := r.walks.filter (· != k) } : Region).takeWalk) →
    v = (match s.lostEntry region k with
      | some x => (u.noteFatal x.1).coreNotice x.2 .eccfatal (eccDetail x.1 1)
      | none => u) → v.findLeaf region w.ctx w.va = .bad level cause →
    exec (.pageWalk ⟨region, i⟩) s = .next ((if v.contextLive region w.ctx then v.readEntries (v.entriesTo region w.ctx w.va level) else v).launchItem
      (.fillFault w level cause))) ∧
  (∀ (s : State) id w e, s.item id = some (.fill w e) → exec (.tlbFillReply id) s = .next ((s.dropItem id).modCore w.core (·.fill w e))) ∧
  (∀ (s : State) id w level cause c a, s.item id = some (.fillFault w level cause) → w.unit = 0 → w.access ≠ 10 → c = s.getCore w.core → c.waiting = true →
    c.act = some a → a.serial = w.serial → a.halted = none → exec (.tlbFillReply id) s =
      .next ((s.dropItem id).faultCore w.core { code := .page, detail := pageDetail w.va w.access level cause w.ctx, answer := if w.answers then .instr else .nothing }))

/-- R65: an invalidation of a page, a context or everything drops the translations in its scope at once and sets BUSY until every access that used one is
over; a write while BUSY only sets DROPPED. -/
def Invalidation : Prop :=
  (∀ (s : State) region v u rs, region < 80 → bit (s.getRegion region).invalStat 0 = false →
    rs = s.invalRegions region v →
    u = (s.dropTlbs rs v).modRegion region (fun r => { r with invalStat := setBit r.invalStat 0 true, invalWaits := s.usersOf rs v }) →
    (fld v 63 62 = 0 → exec (.tlbInvalPage region v) s = .next u) ∧ (fld v 63 62 = 1 → exec (.tlbInvalContext region v) s = .next u) ∧
    (fld v 63 62 = 2 → exec (.tlbInvalAll region v) s = .next u)) ∧
  (∀ (s : State) region v u, region < 80 → bit (s.getRegion region).invalStat 0 = true →
    u = s.modRegion region (fun r => { r with invalStat := setBit r.invalStat 1 true }) →
    (fld v 63 62 = 0 → exec (.tlbInvalPage region v) s = .next u) ∧ (fld v 63 62 = 1 → exec (.tlbInvalContext region v) s = .next u) ∧
    (fld v 63 62 = 2 → exec (.tlbInvalAll region v) s = .next u)) ∧
  (∀ (s : State) region, region < 80 → bit (s.getRegion region).invalStat 0 = true → (∀ i ∈ (s.getRegion region).invalWaits, s.userDone i = true) →
    exec (.tlbInvalComplete region) s = .next (s.modRegion region (fun r => { r with invalStat := setBit r.invalStat 0 false, invalWaits := [] }))) ∧
  (∀ (s : State) region v e, e.ctx = fld v 55 51 → e.vpage = fld v 47 16 → e.size = 16 → fld v 63 62 < 2 →
    e ∉ ((s.dropTlbs [region] v).getRegion region).l2)

/-- R70 to R72: a splice copies a block at a time, READ_PTR and WRITE_PTR counting; when its copy is whole the leaf names the new frame with its splice mark and an
invalidation starts; when that is over the mark goes, the entry is free and the old frame's held rows with it. A store tile under evacuation is copied a block at a
time, then the map names the spare, and the source is withdrawn once what was on its way to it is over. -/
def SplicesAndEvacuation : Prop :=
  (∀ (s : State) region i e va leaf size addr, region < 80 → i < 16 → e = at_ (s.getRegion region).splices i 0 → bit e 127 = true → spliceState e = 1 →
    va = s.spliceVaOf region i → s.findLeaf region (spliceCtx e) va = .leaf leaf size addr →
    (fld e 90 80 < 1024 → exec (.spliceCopyComplete region i) s = .next ((s.copyBlock (leafKey leaf) (spliceOld e * 65536 + orderedBlock (fld e 90 80) * 64)
      (spliceNew e * 65536 + orderedBlock (fld e 90 80) * 64)).modRegion region (fun r =>
        { r with splices := put r.splices i (setFld (setFld e 90 80 (fld e 90 80 + 1)) 74 64 (fld e 90 80 + 1)) }))) ∧
    (1024 ≤ fld e 90 80 → bit (s.getRegion region).invalStat 0 = false → exec (.spliceCopyComplete region i) s =
      .next (((s.dramWrite 0 addr (leBytes 8 (setFld (setFld leaf 63 32 (spliceNew e)) 19 18 2).toNat)).modRegion region (fun r =>
        { r with splices := put r.splices i (setFld e 126 125 2) })).invalidate region
          (BitVec.ofNat 64 (spliceCtx e * 2 ^ 51 + va / 65536 * 2 ^ 16 + 1))))) ∧
  (∀ (s : State) region i e va leaf size addr, region < 80 → i < 16 → e = at_ (s.getRegion region).splices i 0 → bit e 127 = true → spliceState e = 2 →
    bit (s.getRegion region).invalStat 0 = false → va = s.spliceVaOf region i → s.findLeaf region (spliceCtx e) va = .leaf leaf size addr →
    exec (.spliceFinish region i) s = .next (((s.dramWrite 0 addr (leBytes 8 (setFld leaf 19 18 0).toNat)).modRegion region (fun r => { r with
      splices := put r.splices i (setFld (setBit e 127 false) 126 125 0), spliceVa := r.spliceVa.filter (·.1 != i) })).expireFrame (spliceOld e))) ∧
  (∀ (s : State) source spare e, isTilePsn source = true → isTilePsn spare = true → s.evac source = some e → e.target = spare →
    (e.waits = none → e.done < 8192 → s.canReadTile e.source (64 * e.done) 64 = true → exec (.storeTileEvacuation source spare) s =
      .next (((s.tileRead e.source (64 * e.done) 64).copyTagged (tileKey e.source (64 * e.done)) (tileKey e.target (64 * e.done)) 64).putEvac
        { e with done := e.done + 1 })) ∧
    (e.waits = none → e.done = 8192 →
      exec (.storeTileEvacuation source spare) s = .next (s.evacMap e)) ∧
    (∀ ids, e.waits = some ids → (∀ i ∈ ids, s.userDone i = true) → exec (.storeTileEvacuation source spare) s = .next (s.evacEnd e)))

/-- An access reaches a byte of a tile that is there and under no evacuation, inside one segment that no SYS bit closes; `u` is the state with its cluster
awake. -/
def reachesTile (s : State) (id : Nat) (a : Access) (t : Psn) (off : Nat) (u : State) : Prop :=
  s.item id = some (.access a) ∧ a.stage = .sent ∧ s.gone a.deps = true ∧ a.owner = .tile t off ∧ s.gated t = false ∧ u = s.touchCluster t ∧
  (u.getTile t).withdrawn = false ∧ u.evac t = none ∧ a.op < opCounterRead ∧ a.aop = 0 ∧ 0 < a.size ∧ off % 65536 + a.size ≤ 65536 ∧
  segSys ((u.getTile t).seg (off / 65536)) = false
/-- It does so behind no other that waits. -/
def arrivesAtTile (s : State) (id : Nat) (a : Access) (t : Psn) (off : Nat) (u : State) : Prop := reachesTile s id a t off u ∧ u.fifoBehind id a = false
/-- The access performed, its reply's bytes after those of an earlier part. -/
def performed (u : State) (id : Nat) (a : Access) (bs : List Byte) : State := u.setItem id (.access { a with stage := .performed, reply := a.reply ++ bs, tagv := false })

/-- R79, R83 to R86: at a RAW segment a load answers the bytes and a store writes them; a FIFO's pop answers the slot at HEAD and its push fills the slot at
TAIL, each then stepping its counter, and an access with nothing to take, or behind others that wait, waits, the seventeenth being returned; a LINE's store fills the line COUNT names and counts
it when the line's last byte is written, and its load reads line j back from the newest, zeros where there is none; an OPERAND buffer is read and
written within its bounds; a corrected error met is noted. The words read hold no error beyond correction (R76). -/
def TileAccesses : Prop :=
  (∀ (s : State) id a t off u, reachesTile s id a t off u → u.fifoBehind id a = true →
    (u.fifoWaiters t (off / 65536) < 16 → exec (.storeAccess id) s =
      .next { u.dropItem id with flight := (u.dropItem id).flight ++ [{ id, body := .access { a with stage := .fifoHeld } }] }) ∧
    (16 ≤ u.fifoWaiters t (off / 65536) → exec (.storeAccess id) s = .next (u.setItem id (.access { a with stage := .retry })))) ∧
  ∀ (s : State) id a t off u seg cfg tile, arrivesAtTile s id a t off u → seg = off / 65536 → tile = u.getTile t → cfg = tile.seg seg →
    (segMode cfg = 0 ∨ (segMode cfg = 1 ∧ off % 65536 + a.size ≤ segUnit cfg * segCount cfg) → a.kind = .load →
      u.spoiled (tileKey t off) a.size = false →
      exec (.storeAccess id) s = .next (performed (u.noteRead (tileKey t off) a.size) id a (u.bytes (tileKey t off) a.size))) ∧
    (segMode cfg = 0 ∨ (segMode cfg = 1 ∧ off % 65536 + a.size ≤ segUnit cfg * segCount cfg) → a.kind = .store →
      exec (.storeAccess id) s = .next (performed (u.poke (tileKey t off) a.data) id a [])) ∧
    (segMode cfg = 1 → a.kind ≠ .atomic → ¬ (a.kind = .capStore ∧ a.tagv = true) → segUnit cfg * segCount cfg < off % 65536 + a.size →
      exec (.storeAccess id) s = .next (u.setItem id (.access { a with stage := .refused, fault := some (a.refusal id .capbound) }))) ∧
    (∀ place, place = tileKey t (seg * 65536 + (at_ tile.head seg 0).toNat % fifoSlots cfg * segUnit cfg) → segMode cfg = 2 → off % 65536 = 0 →
      a.size = segUnit cfg → a.kind = .load → fifoHeld tile seg ≠ 0 → u.spoiled place a.size = false →
      exec (.storeAccess id) s = .next (performed ((u.noteRead place a.size).modTile t (fun x => { x with head := put x.head seg (at_ x.head seg 0 + 1) })) id a
        (u.bytes place a.size))) ∧
    (segMode cfg = 2 → off % 65536 = 0 → a.size = segUnit cfg → a.kind = .store → fifoHeld tile seg < fifoSlots cfg →
      exec (.storeAccess id) s = .next (performed ((u.poke (tileKey t (seg * 65536 + (at_ tile.tail seg 0).toNat % fifoSlots cfg * segUnit cfg))
        a.data).modTile t (fun x => { x with tail := put x.tail seg (at_ x.tail seg 0 + 1) })) id a [])) ∧
    (segMode cfg = 2 → off % 65536 = 0 → a.size = segUnit cfg → a.kind = .load → fifoHeld tile seg = 0 → u.fifoWaiters t seg < 16 →
      exec (.storeAccess id) s =
        .next { u.dropItem id with flight := (u.dropItem id).flight ++ [{ id, body := .access { a with stage := .fifoHeld } }] }) ∧
    (∀ w n count, w = segUnit cfg → n = segCount cfg → count = (at_ tile.lcount seg 0).toNat → segMode cfg = 3 → cfgFits cfg = true → a.kind = .store →
      off % 65536 + a.size ≤ w →
      exec (.storeAccess id) s = .next (performed (if off % 65536 + a.size = w
        then (u.poke (tileKey t (seg * 65536 + count % n * w + off % 65536 % w)) a.data).modTile t (fun x => { x with
          lcount := put x.lcount seg (at_ x.lcount seg 0 + 1)
          lineWrap := if count + 1 = 2 ^ 32 then x.lineWrap ||| BitVec.ofNat 8 (2 ^ seg) else x.lineWrap })
        else u.poke (tileKey t (seg * 65536 + count % n * w + off % 65536 % w)) a.data) id a [])) ∧
    (∀ w n count j b place, w = segUnit cfg → n = segCount cfg → count = (at_ tile.lcount seg 0).toNat → j = off % 65536 / w → b = off % 65536 % w →
      place = tileKey t (seg * 65536 + (((count : Int) - 1 - j) % n).toNat * w + b) → segMode cfg = 3 → cfgFits cfg = true → a.kind = .load → j < n → b + a.size ≤ w →
      (count ≤ j → tile.lineWrap.getLsbD seg = false → exec (.storeAccess id) s = .next (performed u id a (List.replicate a.size 0))) ∧
      (j < count ∨ tile.lineWrap.getLsbD seg = true → u.spoiled place a.size = false →
        exec (.storeAccess id) s = .next (performed (u.noteRead place a.size) id a (u.bytes place a.size))))

/-- R85, R333, R74, R75, R82, R80: a returned FIFO access is sent again; a reply completes its access at its core, those of one DRAM channel in the order of their requests; GONE and an owner's fault of the
resident activation count in q52 and are due at its next boundary, with the access to be issued again; a change of configuration waits in order, takes effect between
accesses, and clears the segment when its shape changes. -/
def AccessReplies : Prop :=
  (∀ (s : State) id a, s.item id = some (.access a) → a.stage = .retry →
    exec (.fifoRetry id) s = .next (s.setItem id (.access { a with stage := .sent }))) ∧
  (∀ (s : State) id a r, s.item id = some (.access a) → a.stage = .performed → a.unit < 8 → s.replyFirst id a.core a.replyChans = true → (∀ slot token place, a.landing ≠ .push slot token place) →
    a.landing.reg = some r → (((s.dropItem id).getCore a.core).awaits r id = true) →
    exec (.loadStoreReply id) s = .next ((s.dropItem id).modCore a.core (·.land a.landing a.reply a.tagv id))) ∧
  (∀ (s : State) id a c act, s.item id = some (.access a) → c = s.getCore a.core → c.act = some act → act.serial = a.serial → act.halted = none →
    act.reissue.contains id = false → a.unit < 8 →
    (a.stage = .gone → exec (.goneReply id) s = .next ((s.setItem id (.access { a with again := true })).modCore a.core (fun c => { (c.addQ 52 1) with act := c.act.map (fun r => { r with
      boundary := if r.halted.isSome then r.boundary else r.boundary ++ [{ a.goneFault with answer := if a.engine then .nothing else .item id, counted := true }]
      reissue := r.reissue ++ [id] }) }))) ∧
    (∀ f, a.stage = .refused → a.fault = some f → exec (.ownerFaultReply id) s = .next (s.modCore a.core (fun c => { (c.addQ 52 1) with act := c.act.map (fun r => { r with
      boundary := if r.halted.isSome then r.boundary else r.boundary ++ [{ f with answer := if a.engine then .nothing else .item id, counted := true }]
      reissue := r.reissue ++ [id] }) })))) ∧
  (∀ (s : State) id a f, s.item id = some (.access a) → a.stage = .refused → a.fault = some f → a.unit < 8 → (s.getCore a.core).act = none →
    (s.getCore a.core).unsent.length < 4 →
    exec (.ownerFaultReply id) s = .next ((s.dropItem id).graphFault a.core f.code a.ctx (s.actorOn a.core) f.detail)) ∧
  (∀ (s : State) t seg v, isTilePsn t = true → seg < 8 → interior (psnIndex t) = true → cfgFits (cfgValue seg v) = true →
    exec (.segCfgWrite t seg v) s = .next (s.modTile t (fun tile => { tile with reconf := tile.reconf ++ [(seg, cfgValue seg v)] }))) ∧
  (∀ (s : State) t seg v, isTilePsn t = true → seg < 8 → cfgFits (cfgValue seg v) = false → exec (.segCfgWrite t seg v) s = .next s) ∧
  (∀ (s : State) t seg x u, isTilePsn t = true → seg < 8 → (s.getTile t).reconf.find? (fun x => x.1 == seg) = some x → s.evac t = none →
    u = s.modTile t (fun tile => { tile with reconf := tile.reconf.erase x }) →
    (cfgShape x.2 = cfgShape ((u.getTile t).seg seg) →
      exec (.segmentReconfigure t seg) s = .next (u.modTile t (fun tile => { tile with segCfg := put tile.segCfg seg x.2 }))) ∧
    (cfgShape x.2 ≠ cfgShape ((u.getTile t).seg seg) → exec (.segmentReconfigure t seg) s =
      .next (((u.clearRange (tileKey t (seg * 65536)) 65536).refuseWaiters t seg).putTile { u.getTile t with
        segCfg := put (u.getTile t).segCfg seg x.2, full := put (u.getTile t).full seg 0, head := put (u.getTile t).head seg 0
        tail := put (u.getTile t).tail seg 0, lcount := put (u.getTile t).lcount seg 0
        lineWrap := (u.getTile t).lineWrap &&& ~~~ (BitVec.ofNat 8 (2 ^ seg)) })))

/-- A request reaches its actor in its turn on its channels: what it waits for is complete and no earlier request of its core goes first (R113). -/
def inTurn (s : State) (id : Nat) (a : Access) (pa op : Nat) : Prop :=
  s.item id = some (.access a) ∧ a.owner = .dram pa ∧ (a.stage = .held ∨ a.stage = .sent) ∧ s.gone a.deps = true ∧ a.op = op ∧
  s.dramBehind id a pa = false
/-- A request in its turn within its limits. -/
def turnOf (s : State) (id : Nat) (a : Access) (pa op : Nat) : Prop := inTurn s id a pa op ∧ a.sound pa = true
/-- A request performed with status 0. -/
def fine (result : Word) (data : List Byte) (tag : Bool) : Answered := { status := 0, result, data, tag }
/-- A line the requester owns. -/
def ownsLine (s : State) (a : Access) (w : BitVec 128) : Prop :=
  (s.getActor (a.handle / 2 ^ 11 % 32)).findSlot (a.handle / 2 ^ 6 % 32) (a.handle % 64) = some w ∧ slotCtx w = a.ctx ∧ slotName w = a.name
/-- The state in which the row of an address is in its buffer. -/
def rowTouched (s : State) (pa : Nat) : State := s.putActor ((s.getActor (dramStack pa)).touchRow pa)

/-- R110, R113, R114: within its limits and with its key loaded, DRD reads, DWR writes, DGATH reads its elements in order, ATOMIC reads and writes as one operation, and
FLUSH is answered; each is answered by its mode. A request that breaks its limits performs nothing and is answered with status 5.
The words read hold no error beyond correction (R76). -/
def DramRequests : Prop :=
  (∀ (s : State) id a pa, turnOf s id a pa 0 → s.hasKey a.key = true → a.kind = .load → s.spoiled pa a.size = false → exec (.drdRequest id) s =
    .next (((rowTouched s pa).noteRead pa a.size).answerRequest id a pa (fine 0 (s.dramRead a.key pa a.size) false))) ∧
  (∀ (s : State) id a pa, turnOf s id a pa 1 → s.hasKey a.key = true → a.kind = .store → s.mergeFails a.key pa a.data.length = none → exec (.dwrRequest id) s =
    .next ((((rowTouched s pa).merged a.key pa a.data.length).dramWrite a.key pa a.data).answerRequest id a pa (fine 0 [] false))) ∧
  (∀ (s : State) id a pa, turnOf s id a pa 2 → s.hasKey a.key = true → (∀ e ∈ a.gather, s.spoiled e.2 a.size = false) → exec (.dgathRequest id) s =
    .next ((a.gather.foldl (fun (t : State) e => (rowTouched t e.2).noteRead e.2 a.size) s).answerRequest id a pa (fine 0 (a.gather.flatMap (fun e => s.dramRead a.key e.2 a.size)) false))) ∧
  (∀ (s : State) id a pa old v, turnOf s id a pa 0xA → s.hasKey a.key = true → a.kind = .atomic → old = s.dramRead a.key pa a.size →
    atomicNew a.aop (ofLe old) (ofLe a.data) (ofLe a.operand2) = some v → s.spoiled pa a.size = false → exec (.atomicRequest id) s =
    .next ((((rowTouched s pa).noteRead pa a.size).dramWrite a.key pa (leBytes a.size v)).answerRequest id a pa (fine 0 old false))) ∧
  (∀ (s : State) id a pa old, turnOf s id a pa 0xA → s.hasKey a.key = true → a.kind = .atomic → old = s.dramRead a.key pa a.size →
    atomicNew a.aop (ofLe old) (ofLe a.data) (ofLe a.operand2) = none → s.spoiled pa a.size = false → exec (.atomicRequest id) s =
    .next (((rowTouched s pa).noteRead pa a.size).answerRequest id a pa (fine 0 old false))) ∧
  (∀ (s : State) id a pa, turnOf s id a pa 9 → exec (.flushRequest id) s = .next (s.answerRequest id a pa (fine 0 [] false))) ∧
  (∀ (s : State) id a pa op, inTurn s id a pa op → a.sound pa = false →
    exec (.reservedOpRequest id) s = .next (s.answerRequest id a pa { status := 5, result := 0, data := [], tag := false }))

/-- R116 to R118: ROWOPEN takes the lowest free slot of the channel for the row while the context is below its quota, and is refused with reason 1 at
the quota and 2 without a slot; through a line its requester owns, ROWHOLD answers with the handle and renews the lease of a kept line, ROWREL frees it, ROWRD and ROWWR read and write inside the row, and ROWSTAT
reports it; a line of another is answered with status 2, and by ROWSTAT with 0. The words read hold no error beyond correction (R76). -/
def RowRequests : Prop :=
  (∀ (s : State) id a pa act, turnOf s id a pa 3 → pa % 1024 = 0 → act = s.getActor (dramStack pa) →
    (fld (at_ act.quota a.ctx 0) 11 0 ≤ act.used a.ctx →
      exec (.rowopenRequest id) s = .next (s.answerRequest id a pa { status := 3, result := rowRefused 1, data := [], tag := false })) ∧
    (act.used a.ctx < fld (at_ act.quota a.ctx 0) 11 0 → (∀ i < 64, act.findSlot (dramChan pa) i ≠ none) →
      exec (.rowopenRequest id) s = .next (s.answerRequest id a pa { status := 3, result := rowRefused 2, data := [], tag := false })) ∧
    (∀ i, act.used a.ctx < fld (at_ act.quota a.ctx 0) 11 0 → i < 64 → act.findSlot (dramChan pa) i = none → (∀ j < i, act.findSlot (dramChan pa) j ≠ none) →
      exec (.rowopenRequest id) s = .next ((s.putActor ((act.setSlot (dramChan pa) i (makeSlot a.ctx a.name pa a.key (s.tsc.toNat + act.holdTicks))).touchRow
        pa)).answerRequest id a pa (fine (BitVec.ofNat 64 (dramStack pa * 2 ^ 11 + dramChan pa * 2 ^ 6 + i)) [] false)))) ∧
  (∀ (s : State) id a pa w act chan slot, act = s.getActor (a.handle / 2 ^ 11 % 32) → chan = a.handle / 2 ^ 6 % 32 → slot = a.handle % 64 →
    ownsLine s a w →
    (turnOf s id a pa 4 → slotKeep w = true → exec (.rowholdRequest id) s =
      .next ((s.putActor (act.setSlot chan slot (setFld w 115 64 (s.tsc.toNat + act.holdTicks)))).answerRequest id a pa
        (fine (BitVec.ofNat 64 (act.stack * 2 ^ 11 + chan * 2 ^ 6 + slot)) [] false))) ∧
    (turnOf s id a pa 4 → slotKeep w = false → (∀ r ∈ act.keptIn chan (dramBank (slotRow w)) (dramSub (slotRow w)), r = dramRow (slotRow w)) →
      ((List.range 4).filter (fun sub => sub != dramSub (slotRow w) && act.keptIn chan (dramBank (slotRow w)) sub != [])).length < 2 →
      exec (.rowholdRequest id) s =
        .next ((s.putActor (act.setSlot chan slot (setBit (setFld w 115 64 (s.tsc.toNat + act.holdTicks)) 62 true))).answerRequest id a pa
          (fine (BitVec.ofNat 64 (act.stack * 2 ^ 11 + chan * 2 ^ 6 + slot)) [] false))) ∧
    (turnOf s id a pa 5 → exec (.rowrelRequest id) s = .next ((s.putActor (act.freeSlot chan slot)).answerRequest id a pa (fine 0 [] false))) ∧
    (turnOf s id a pa 6 → s.hasKey (slotKey w) = true → s.spoiled (slotRow w + a.addr) a.size = false → exec (.rowrdRequest id) s =
      .next (((s.putActor (act.touchRow (slotRow w + a.addr))).noteRead (slotRow w + a.addr) a.size).answerRequest id a pa (fine 0 (s.dramRead (slotKey w) (slotRow w + a.addr) a.size) false))) ∧
    (turnOf s id a pa 7 → s.hasKey (slotKey w) = true → s.mergeFails (slotKey w) (slotRow w + a.addr) a.data.length = none → exec (.rowwrRequest id) s =
      .next ((((s.putActor (act.touchRow (slotRow w + a.addr))).merged (slotKey w) (slotRow w + a.addr) a.data.length).dramWrite (slotKey w)
        (slotRow w + a.addr) a.data).answerRequest id a pa (fine 0 [] false))) ∧
    (turnOf s id a pa 8 → exec (.rowstatRequest id) s = .next (s.answerRequest id a pa (fine (s.rowStat act w) [] false)))) ∧
  (∀ (s : State) id a pa, (∀ w, ¬ ownsLine s a w) →
    (turnOf s id a pa 8 → exec (.rowstatRequest id) s = .next (s.answerRequest id a pa (fine 0 [] false))) ∧
    (turnOf s id a pa 5 → exec (.rowrelRequest id) s = .next (s.answerRequest id a pa { status := 2, result := 0, data := [], tag := false })) ∧
    (turnOf s id a pa 4 → exec (.rowholdRequest id) s = .next (s.answerRequest id a pa { status := 2, result := 0, data := [], tag := false })))

/-- R111, R112, R33: a request is answered by a message to its queue (mode 0), by a direct write of its data (1, 2), or by a reply to the load-store unit (3); a
direct write into LOCAL puts the bytes at DEST and then adds their number to the counter, one into STORE does so at the tile. -/
def DramReplies : Prop :=
  (∀ (s : State) id a pa (r : Answered), a.rmode = 3 → r.status = 0 ∨ r.status = 3 → s.answerRequest id a pa r =
    s.setItem id (.access { a with stage := .performed, tagv := r.tag, reply := match a.landing with
      | .result _ => leBytes 8 r.result.toNat
      | _ => r.data })) ∧
  (∀ (s : State) id a pa (r : Answered), a.rmode = 1 ∨ a.rmode = 2 → r.status = 0 →
    s.answerRequest id a pa r = s.setItem id (.directWrite { a with stage := .performed, reply := r.data })) ∧
  (∀ (s : State) id a pa (r : Answered), a.rmode = 0 → ∃ m : Msg, s.answerRequest id a pa r = s.setItem id (.message m) ∧ m.dest = a.name ∧
    m.handle = a.rhandle ∧ m.reply = true ∧ m.payload.drop 16 = r.data ∧
    m.payload.take 16 = leBytes 8 (id % 2 ^ 16 * 2 ^ 48 + r.status % 256 * 2 ^ 40 + a.op % 16 * 2 ^ 36 + r.data.length % 2 ^ 11 * 2 ^ 25 +
      (if r.status = 0 ∧ (a.op = 0 ∨ a.op = 6) then s.readTags (s.readFrom a pa) a.size else 0)) ++ leBytes 8 r.result.toNat) ∧
  (∀ (s : State) id a p, s.item id = some (.directWrite a) → a.rmode = 1 → a.op ≠ 2 → s.requester a = some p → (s.getCore p).snuffed = false → s.gated p = false →
    exec (.directWriteArrival id) s = .next (((((s.touchCluster p).dropItem id).poke (localKey p a.dest) a.reply)).modCore p (·.addQ a.ctr a.reply.length))) ∧
  (∀ (s : State) id a u t (tile : List Byte × Bool), s.item id = some (.directWrite a) → a.rmode = 2 → a.op ≠ 2 → 0 < a.reply.length →
    a.dest % 2 ^ 19 + a.reply.length ≤ 2 ^ 19 → (s.getRegion (psnRegion a.core)).storeAt (a.dest / 2 ^ 19) = some t →
    s.tileAct { a with kind := .store, op := 1, aop := 0, size := a.reply.length, data := a.reply, addr := a.dest } t (a.dest % 2 ^ 19) = .done tile.1 tile.2 u →
    (u.getRegion (psnRegion a.core)).storeAt (a.dest / 2 ^ 19) = some t →
    exec (.directWriteArrival id) s =
      .next ((u.dropItem id).modTile t (fun x => { x with sq := put x.sq a.ctr (satAdd (at_ x.sq a.ctr 0) a.reply.length) })))

/-- R120, R121, R125, R127: a line whose deadline the TSC has reached is freed; a refresh leaves in the bank's buffers only the rows under KEEP; a channel
marked splice source moves to the spare marked as its target, and CHAN_MAP and the states say so. -/
def LinesAndChannels : Prop :=
  (∀ (s : State) stack lchan slot w, stack < 32 → lchan < 32 → slot < 64 → (s.getActor stack).findSlot lchan slot = some w → slotDeadline w ≤ s.tsc.toNat →
    s.tsc.toNat < slotDeadline w + 2 ^ 51 → slotKeep w = false →
    exec (.rowLeaseExpiry stack lchan slot) s = .next (s.putActor ((s.getActor stack).freeSlot lchan slot))) ∧
  (∀ (s : State) stack lchan bank kept, stack < 32 → lchan < 32 → bank < 16 →
    kept = (((s.getActor stack).slots.filter (fun x => x.1 == lchan && slotKeep x.2.2 && !slotParked x.2.2 && dramBank (slotRow x.2.2) == bank)).map
      (fun x => (lchan, bank, dramSub (slotRow x.2.2), dramRow (slotRow x.2.2)))).eraseDups →
    exec (.bankRefresh stack lchan bank) s = .next (s.modActor stack (fun a => { a with
      rows := a.rows.filter (fun r => !(r.1 == lchan && r.2.1 == bank)) ++ kept }))) ∧
  (∀ (s : State) stack lchan spare retire a old, stack < 32 → lchan < 32 → spare < 34 → a = s.getActor stack → old = (at_ a.chanMap lchan 0).toNat →
    at_ a.chanState old 0 = 2 → at_ a.chanState spare 0 = 3 →
    (if retire then s.retiringUnit (chanUnit stack old) else s.hasLease (chanUnit stack old)) = true → ∃ b : Actor, exec (.channelMove stack lchan spare retire) s = .next (s.putActor b) ∧
      b.chanMap = put a.chanMap lchan (BitVec.ofNat 8 spare) ∧
      b.chanState = put (put a.chanState old (if retire then 5 else 4)) spare 0 ∧ b.slots = a.slots)

/-- A command that moves: it has started, its channel has not stopped or halted, and no access of its own is at a FIFO. -/
def copyMoves (s : State) (core : Psn) (chan : Nat) (k : Copy) (rest : List Copy) : Prop :=
  chan < 8 ∧ ((s.getCore core).channel chan).queue = k :: rest ∧ k.started = true ∧ k.stopped = false ∧ k.access = none ∧ (s.getCore core).halting = false
/-- R85, R97 to R100, R325: a copy command starts once what it waits for is complete, claiming an address generator where a side is a pattern; each block is read
and written, and the channel's counter follows the write pointer; the last one ends the command. At a FIFO segment the channel sends an access for the
item, which the tile holds as any other, and takes its answer. -/
def CopySteps : Prop :=
  (∀ (s : State) core chan k rest, chan < 8 → ((s.getCore core).channel chan).queue = k :: rest → k.started = false → s.gone k.deps = true → k.handle = none →
    (s.getCore core).halting = false →
    (s.copyTile core k = none →
      exec (.copyCommandStart core chan) s = .next (s.modCore core (fun c => c.setHead chan { k with started := true }))) ∧
    (∀ t, s.copyTile core k = some t → (s.getTile t).generators.length < 4 → exec (.copyCommandStart core chan) s =
      .next ((s.modCore core (fun c => c.setHead chan { k with started := true })).modTile t (fun x => { x with generators := x.generators ++ [k.id] })))) ∧
  (∀ (s : State) core chan k k' rest n ps qs bs t u done v, copyMoves s core chan k rest → k.held = [] → 0 < n →
    n = s.writeSize core k → n = s.readSize core k → s.copyParts core k false n = .ok ps → s.atFifo ps = none →
    s.copyRead core k n = .ok (bs, t) → bs.length = n → k' = { k with held := bs, noted := false } →
    t.copyParts core k' true n = .ok qs → t.atFifo qs = none → t.copyWrite core k' bs = .ok u → done = k.done + n →
    v = u.modCore core (fun c => (c.addQ (56 + chan) (pointerAt k.length done - pointerAt k.length k.done)).setHead chan
      { k with done, held := [], noted := false }) →
    (done < k.length → exec (.copyBlockWrite core chan) s = .next v) ∧
    (k.length ≤ done → exec (.copyBlockWrite core chan) s = .next (v.endCopy core chan k'))) ∧
  (∀ (s : State) core chan k rest n ps p, copyMoves s core chan k rest → k.held.length < s.writeSize core k → n = s.readSize core k →
    s.copyParts core k false n = .ok ps → s.atFifo ps = some p → exec (.copyBlockWrite core chan) s =
      .next ((s.launchItem (.access { p.accessOf (s.getCore core) k.serial k.ctx .load [] with data := [], engine := true, unit := 8 + chan })).modCore core
        (fun c => c.setHead chan { k with access := some s.nextId }))) ∧
  (∀ (s : State) core chan k rest id a, chan < 8 → ((s.getCore core).channel chan).queue = k :: rest → k.access = some id →
    s.item id = some (.access a) → a.stage = .performed → a.reads = true → exec (.copyBlockWrite core chan) s =
      .next ((s.dropItem id).modCore core (fun c => c.setHead chan { k with access := none, held := k.held ++ a.reply })))

/-- R343, R344, R381, R383: a bound input stream whose next element is there takes it, and its last element satisfies the bind's token; an output stream
writes the oldest element pushed once what its push waits for is complete; a matrix instruction that no earlier one blocks starts in the diagnostic scoreboard; the oldest finished one leaves, and the gang's
q48 counts it. -/
def EngineSteps : Prop :=
  (∀ (s : State) core slot st i bs t, slot < 4 → at_ (s.getCore core).streams slot none = some st → st.bound = true → st.output = false → st.fault = none →
    s.gone st.deps = true → i = st.position + st.fetched.length → i < st.total → (s.getCore core).halting = false →
    s.elementFull core st (st.cap.base + st.offset i).toNat = true → st.pred = none →
    s.reach core st st.cap false (st.cap.base + st.offset i).toNat st.bytes [] = .done bs t →
    (i + 1 ≠ st.total → exec (.streamElementFetch core slot) s = .next (t.putStream core slot { st with fetched := st.fetched ++ [(ofLe bs, true)] })) ∧
    (i + 1 = st.total → exec (.streamElementFetch core slot) s =
      .next ((t.putStream core slot { st with fetched := st.fetched ++ [(ofLe bs, true)] }).dropItem st.token))) ∧
  (∀ (s : State) core slot st p rest bs t, slot < 4 → at_ (s.getCore core).streams slot none = some st → st.output = true → st.fault = none →
    st.closing = none → st.pushed = p :: rest → p.missing = 0 → s.gone p.deps = true → p.written < p.count →
    s.reach core st st.cap true (st.cap.base + st.offset (p.start + p.written)).toNat st.bytes (leBytes st.bytes (laneOf (elemBits st.ty) p.data p.written)) = .done bs t →
    exec (.streamPushWrite core slot) s = .next (t.putStream core slot { st with
      pushed := if p.written + 1 = p.count ∧ p.bitsDone = true then rest else { p with written := p.written + 1 } :: rest })) ∧
  (∀ (s : State) core slot u m r, u = s.focus core → u.core.matOps[slot]? = some m → m.stage = .queued → s.gone m.deps = true → u.core.halting = false →
    (∀ e ∈ u.core.matOps.take slot, (e.busy = true ∨ e.stage = .stalled) → e.blocks m = false) → u.runMatOp m = .ok r →
    exec (.scoreboardEntryStart core slot) s = .next ((r.2.startedMatOp m r.1).focus s.core.psn)) ∧
  (∀ (s : State) core m, (s.getCore core).matOps.find? (fun m => m.stage == .computing || (m.stage == .writing && s.matWritten (s.getCore core) m)) = some m →
    (m.isLong = false → exec (.matrixCompletion core) s = .next ((s.dropItem m.id).modCore core (fun c => { c with matOps := c.matOps.erase m }))) ∧
    (m.isLong = true → exec (.matrixCompletion core) s =
      .next (((s.dropItem m.id).modCore core (fun c => { c with matOps := c.matOps.erase m })).postGang m.leader)))

/-- What an activation begins with (R180): g1 and g2 its argument and entry, every other register zero, the capabilities of its descriptor, the pc of its handler. -/
def startsFresh (s : State) (c d : Core) (e level : Nat) (g1 wid : Word) : Prop :=
  d.regs.g = ((Vector.replicate 64 0).set 1 g1).set 2 (BitVec.ofNat 64 e) ∧ d.regs.v = Vector.replicate 32 0 ∧ d.regs.p = Vector.replicate 8 0 ∧
  d.regs.c = s.descriptorCaps c.psn (hDesc (c.handler e)) ∧ d.regs.pc = BitVec.ofNat 64 (hEntry (c.handler e)) ∧ d.regs.tok = Vector.replicate 8 [] ∧
  ∃ a, d.act = some a ∧ a.entry = e ∧ a.level = level ∧ a.window = hWindow (c.handler e) ∧ a.wid = wid ∧ a.actor = hActor (c.handler e) ∧
    a.serial = s.nextSerial ∧ a.halted = none

/-- R177, R180 to R183, R190, R191: a fireable entry joins the run queue ACTIVE with the slots it then has; the entry that comes first starts a fresh activation; a waiting entry
rises a level each RUNQ_AGE; a record whose pairs are all reached is offered to the cores that may resume it, and resumes with its saved registers and is freed; an
activation that waits for a full record takes it. What an engine reads of LOCAL is noted or reported where it holds bit errors (R76). -/
def RunQueueSteps : Prop :=
  (∀ (s : State) core e c, isGridCore core = true → e < 20 → c = s.getCore core → c.fireable e = true → c.runq.length < 32 → c.live = true → c.halting = false →
    exec (.entryFire core e) s = .next (s.putCore (({ c with
      runq := c.runq ++ [{ level := hPrio (c.handler e), ready := s.tsc.toNat, entry := e, cont := none, start := none, promoted := s.tsc.toNat
                           filled := c.filled e, ending := c.endOwed.getLsbD e && decide (c.filled e = 0) }] } : Core).setActive e true))) ∧
  (∀ (s : State) core r c, c = s.getCore core → c.nextEntry = some r → s.canStart core = true → r.cont = none → r.start = none → r.entry < 19 →
    r.ending = false →
    ∃ d : Core, exec (.activationStart core) s = .next (({ s.putCore d with nextSerial := s.nextSerial + 1 } : State).engineRead core (hDesc (c.handler r.entry)) 272) ∧
      d.psn = core ∧
      startsFresh s { c with runq := c.runq.filter (· != r) } d r.entry r.level (BitVec.ofNat 64 r.filled)
        (s.descriptorWord core (hDesc (c.handler r.entry)) 256 + BitVec.ofNat 64 (hFirings (c.handler r.entry)))) ∧
  (∀ (s : State) core place r c, c = s.getCore core → c.runq[place]? = some r → r.level < 3 →
    r.promoted + (s.getRegion (psnRegion core)).runqAge.toNat ≤ s.tsc.toNat → exec (.runqPromotion core place) s =
      .next (s.putCore { c with runq := c.runq.set place { r with level := r.level + 1, promoted := r.promoted + (s.getRegion (psnRegion core)).runqAge.toNat } })) ∧
  (∀ (s : State) tile i r, (s.getTile tile).record i = some r → r.doomed = none → (r.ready = true ∨ (r.full = none ∧ s.allReached r.src tile r.pairs = true)) →
    exec (.continuationReady tile i) s = .next (s.offer tile i)) ∧
  (∀ (s : State) core tile i r e c u, c = s.getCore core → c.nextEntry = some e → s.canStart core = true → e.cont = some (tile, i) →
    (s.getTile tile).record i = some r → r.ready = true → r.full = none → r.gang = none → r.offered = [] →
    u = (s.modCore core (fun c => { c with runq := c.runq.filter (· != e) })).modTile tile (·.dropRecord i) →
    exec (.continuationResume core tile i) s =
      .next (({ u.putCore (u.resumeShort (u.getCore core) r e.level) with nextSerial := s.nextSerial + 1 } : State).engineRead core (hDesc (c.handler r.entry)) 272)) ∧
  (∀ (s : State) core act f, (s.getCore core).act = some act → act.halted = some f → s.canConvert core = true →
    exec (.faultedContinuationConvert core) s = .next (s.faultCore core f))

/-- R193, R194: a core that the waiting leader has named starts a member activation with the leader's WID; an attached member
receives the next relayed instruction and stands in focus. What an engine reads of LOCAL is noted or reported where it holds bit errors (R76). -/
def GangSteps : Prop :=
  (∀ (s : State) core l a g, s.askedBy core = some l → l.act = some a → (s.getCore core).act = none → s.canJoin a core = true →
    (s.getCore core).unsent.length < 4 → (s.getCore core).halting = false →
    g = ({ leader := l.psn, position := 1, attached := true, members := [], faults := 0, rejoin := none, relayed := [], received := none } : Gang) →
    exec (.gangMemberJoin core) s = .next (({ s.putCore ((s.freshAct (s.getCore core) a.entry (hPrio ((s.getCore core).handler a.entry)) 0 a.wid (some g)).setActive
      a.entry true) with nextSerial := s.nextSerial + 1 } : State).engineRead core (hDesc ((s.getCore core).handler a.entry)) 272)) ∧
  (∀ (s : State) core a g r rest, (s.getCore core).act = some a → a.halted = none → a.gang = some g → g.attached = true → g.relayed = r :: rest → g.received = none →
    exec (.gangRelay core) s = .next ((s.putCore { s.getCore core with act := some { a with gang := some { g with received := some r, relayed := rest } } }).focus core))

/-- Every flit of the channel that a tile came by has landed (R102). -/
def tileWhole (s : State) (r : Ring) (t : RingTile) : Prop :=
  ((s.getRouter (t.from_ r)).lane ((s.getCore (t.from_ r)).ringPort (hdrFam t.header)) (hdrFam t.header).toNat).landed = true
/-- R201, R205 to R210: a tile of another operation is discarded; one of the current operation is put in a slot with its payload, and its channel has the room again; a tile in an idle slot goes to the next
member of its family with its hops counted, when the channel has room and the member a slot, or is absorbed when its laps are over; a sealed member's oldest firing adds its tiles' product to its accumulator, fires its entry and
posts to the origin. -/
def RingTiles : Prop :=
  (∀ (s : State) id t r p d, s.item id = some (.ringTile t) → s.ringAt t.region t.ring = some r → p = r.members.getD t.member r.origin →
    hdrOp t.header = (s.getCore p).opnum → (s.getCore p).wrongFormat t.header = false → (s.getCore p).freeSlots (hdrFam t.header) ≠ [] →
    d = (s.getCore p).arrive t.header s.tsc.toNat → tileWhole s r t →
    exec (.ringTileArrival id) s = .next ((((s.dropItem id).landTile r t).poke (localKey p (slotBase d.1)) t.payload).putCore d.2)) ∧
  (∀ (s : State) id t r, s.item id = some (.ringTile t) → s.ringAt t.region t.ring = some r →
    hdrOp t.header ≠ (s.getCore (r.members.getD t.member r.origin)).opnum → tileWhole s r t →
    exec (.ringTileArrival id) s = .next ((s.dropItem id).landTile r t)) ∧
  (∀ (s : State) core slot c r h n, isGridCore core = true → slot < 8 → c = s.getCore core → s.ringOf c = some r → h = at_ c.ringHdr slot 0 → n = c.nextMember (hdrFam h) →
    c.slotIdle slot = true →
    (hdrLaps h = 0 → exec (.ringTileForward core slot) s = .next (s.putCore (c.clearSlot slot))) ∧
    (hdrLaps h ≠ 0 → r.formed = true → s.laneOpen core (c.ringPort (hdrFam h)) (hdrFam h).toNat tileTransfers = true →
      s.tilesTo (psnRegion core) r.number n (hdrFam h) < ((s.getCore (r.members.getD n r.origin)).freeSlots (hdrFam h)).length →
      exec (.ringTileForward core slot) s = .next (((s.carry core (c.ringPort (hdrFam h)) (hdrFam h).toNat tileTransfers).putCore (c.clearSlot slot)).launchItem (.ringTile
        { header := setFld h 49 44 (hdrHops h + 1), payload := s.slotPayload core slot, region := psnRegion core, ring := r.number, member := n })))) ∧
  (∀ (s : State) core c j a b rest m k d, c = s.getCore core → c.firings = (j, a, b) :: rest → c.sealed = true → c.isMember = true → m = c.entry j →
    k = ringK (mFmt m) →
    d = { c.setEntry j (setMState (setHeld (setHeld m false false) true false) 2) with
      firings := rest
      acc := put c.acc (mAcc m) ((at_ c.acc (mAcc m) Acc.zero).addProduct (tileRows (mFmt m) k (s.slotPayload core a)) (tileRows (mFmt m) k (s.slotPayload core b))) } →
    exec (.ringFiring core) s = .next ((s.putCore d.settleHolds.dropCopies).launchItem (.done (psnRegion core) c.ringNumber (BitVec.ofNat 7 c.opnum)))) ∧
  (∀ (s : State) core w c last, isGridCore core = true → c = s.getCore core → last = (if w then c.oppositeAt.1 else c.oppositeAt.2) →
    last + (s.getRegion (psnRegion core)).ringIdle.toNat ≤ s.tsc.toNat → exec (.ringIdleRelease core w) s = .next (s.putCore ((List.range 64).foldl (fun c j =>
      if mState (c.entry j) = 1 then (if mHeld (c.entry j) w then c.setEntry j (setFld (setHeld (c.entry j) w false) 39 32 0) else c) else c) c).settleHolds))

/-- R211 to R216, R393: a missed entry asks for its tiles; the injector's record answers with a copy of the source, which the reserved slot takes; a seal and a done post
count at the origin; a completion lets each member go on to the next operation; the origin's RING_OP reaches its register. -/
def RingControl : Prop :=
  (∀ (s : State) core j r, isGridCore core = true → j < 64 → s.ringOf (s.getCore core) = some r → mState ((s.getCore core).entry j) = 3 →
    (s.getCore core).queued j = false → exec (.relightRequestSend core j) s = .next (s.sendRelights r core j)) ∧
  (∀ (s : State) id p fam tag opnum inj slot ring q w t, s.item id = some (.relight p fam tag opnum inj slot) → s.ringOf (s.getCore p) = some ring →
    (s.getCore p).opnum = opnum.toNat → s.holder (psnRegion p) inj = some q →
    (s.getCore q).inject.toList.find? (fun w => recLive w && recFam w == fam && recTag w == tag.toNat && recOp w == opnum.toNat) = some w →
    s.homeTile (s.getCore q) = some t → s.canReadTile t (recSrc w % 2 ^ 19) 2048 = true →
    exec (.relightRequestServe id) s = .next (((s.dropItem id).tileRead t (recSrc w % 2 ^ 19) 2048).launchItem (.relit p slot
      (makeHdr (recFam w) (recOp w) (recLaps w) (recFmt w) (recTag w) (s.getCore q).name) (s.bytes (tileKey t (recSrc w % 2 ^ 19)) 2048)))) ∧
  (∀ (s : State) id p slot h payload, s.item id = some (.relit p slot h payload) → hdrOp h = (s.getCore p).opnum → (s.getCore p).slotState slot = 3 →
    (s.getCore p).ringCome.getLsbD slot = false → (s.getCore p).wrongFormat h = false → exec (.relitCopyArrival id) s = .next (((s.dropItem id).fillSlot p slot 3 h payload).modCore p (fun c =>
      (({ c with ringCome := c.ringCome ||| BitVec.ofNat 8 (2 ^ slot) } : Core).relitFires h slot).dropCopies))) ∧
  (∀ (s : State) id region n x count r w, s.item id = some (.seal region n x count) → s.ringAt region n = some r → w = (s.getCore r.origin).ringOp →
    opSeals w ≠ r.members.length → exec (.ringSealPost id) s = .next ((((s.dropItem id).modCurrent r (setOpState 1)).modCore r.origin (fun c =>
      { c with ringOp := setFld (setFld c.ringOp 54 49 (opSeals w + 1)) 48 37 (opExpect w + count) })).completeCheck r)) ∧
  (∀ (s : State) id region n opnum r, s.item id = some (.done region n opnum) → s.ringAt region n = some r → (s.getCore r.origin).opnum = opnum.toNat →
    exec (.ringDonePost id) s = .next (((s.dropItem id).modCore r.origin (fun c => { c with ringOp := setFld c.ringOp 36 25 (opDone c.ringOp + 1) })).completeCheck r)) ∧
  (∀ (s : State) id p r, s.item id = some (.completion p) → s.ringOf (s.getCore p) = some r → r.origin = p →
    exec (.ringCompletion id) s = .next ((s.dropItem id).modCore p (·.complete 0))) ∧
  (∀ (s : State) id p n v, s.item id = some (.ringOp p n v) → (s.getCore p).awaits (.g n) id = true →
    exec (.ringOpReply id) s = .next ((s.dropItem id).modCore p (fun c => (c.setG n v).settled (.g n) id)))

/-- R217, R218: an operation whose cause of cancellation stands is cancelled, a lease pending for 10,000,000 ticks among the causes; a re-run
starts when it may, and then injects again. -/
def RingCancellation : Prop :=
  (∀ (s : State) region n reason r, s.ringAt region n = some r → s.cancelDue region r reason = true → s.canCancel r reason = true →
    exec (.ringCancel region n reason) s = .next (s.cancelRing region r reason)) ∧
  (∀ (s : State) region n r t, s.ringAt region n = some r → s.ringOpen r = true → r.leaseAt = some t → t + 10000000 ≤ s.tsc.toNat →
    s.ringCompleting r = false → s.canCancel r 1 = true →
    exec (.ringLeaseTimeout region n) s = .next (s.cancelRing region r 1)) ∧
  (∀ (s : State) region n r, s.ringAt region n = some r →
    (s.canRerun region r = true → exec (.ringRerun region n) s = .next (s.startRerun r)) ∧
    (∀ p, s.canRerun region r = false → r.members.find? (fun p => (s.nextReinject (s.getCore p)).isSome) = some p → s.canReinject p = true →
      exec (.ringRerun region n) s = .next (s.injectAgain p)))

/-- R321 to R323, R439: a leaf's contribution joins its round while the graph runs; the root's result reaches the waiting register of each leaf; the Lantern answers a
query by the unit as it then is, and the word reaches its register. -/
def CollectivesAndQueries : Prop :=
  (∀ (s : State) id region n p k ty op rm sat v ws t g, s.item id = some (.contribution region n p k ty op rm sat v ws) →
    (s.getRegion region).trees.find? (fun t => t.number == n && t.ctx == s.ctxOf p) = some t →
    (∀ r ∈ t.rounds, ∀ e ∈ r.2, e.2.2 ≠ id) → s.graphOn p = some g → g.stat = 1 →
    exec (.credContribution id) s = .next (s.joinRound region t p k id v)) ∧
  (∀ (s : State) id p reg v, s.item id = some (.credResult p reg v none) → (s.getCore p).awaits (.g reg) id = true →
    exec (.credResult id) s = .next ((s.dropItem id).putCore (((s.getCore p).setG reg v).settled (.g reg) id))) ∧
  (∀ (s : State) id p reg w, s.item id = some (.query p reg w) → exec (.queryRequest id) s = .next (s.setItem id (.answer p reg (s.queryAnswer p w)))) ∧
  (∀ (s : State) asker w, (80 ≤ fld w 22 16 → s.queryAnswer asker w = 0)) ∧
  (∀ (s : State) id p reg w, s.item id = some (.answer p reg w) → (s.getCore p).awaits (.g reg) id = true →
    exec (.queryAnswer id) s = .next ((s.dropItem id).modCore p (fun c => (c.setG reg w).settled (.g reg) id)))

/-- R400 to R403, R313, R396: when the last core has loaded, a graph is armed and its launch is answered with the context; an ended graph
releases what it holds; a pending graph that may load becomes resident, unless one of higher priority may; an early successor's core is armed when its
predecessor has left it; each armed core's q50 counts the end of a predecessor once. -/
def GraphLifeSteps : Prop :=
  (∀ (s : State) id g, s.graphById id = some g → g.stat = 1 → g.armed = false → g.unarmed = [] → g.haltAt = none →
    (g.launcher = none → exec (.graphArming id) s = .next (s.armGraph g)) ∧
    (∀ n, g.launcher = some n → exec (.graphArming id) s = .next ((s.armGraph g).complete n 0 (g.ctx * 2 ^ 8)))) ∧
  (∀ (s : State) id g, s.graphById id = some g → s.hasEnded g = true → exec (.graphEnd id) s = .next ((s.releaseGraph g).showStat g.regionList false 0 false)) ∧
  (∀ (s : State) id g, s.graphById id = some g → g.stat = 0 → s.mayLoad g = true →
    (∀ h ∈ s.graphs, h.stat = 0 → s.mayLoad h = true → lhPrio h.header ≤ lhPrio g.header) → exec (.successorResident id) s = .next (s.succeed g)) ∧
  (∀ (s : State) id g core, isCorePsn core = true → s.graphById id = some g → g.stat = 1 → core ∈ g.unarmed → (s.getCore core).released = true →
    s.idleCore core = true → exec (.successorCoreArming id core) s = .next (s.armSuccessor g core)) ∧
  (∀ (s : State) id pred g ps, s.graphById id = some g → g.stat = 1 → g.armed = true → pred ∈ g.predEnded →
    ps = g.cores.filter (fun p => !g.unarmed.contains p && !g.posted.contains (pred, p)) → ps ≠ [] →
    exec (.visibilityPost id pred) s = .next ((ps.foldl (fun s p => s.modCore p (·.addQ 50 1)) s).putGraph { g with
      posted := g.posted ++ ps.map (fun p => (pred, p)) })) ∧
  (∀ (s : State) (g : Graph), ∀ h ∈ (s.releaseGraph g).graphs, h.id ≠ g.id)

/-- R405 to R407: every 4,096 ticks the governor looks at each stage of the region; a core that leaves a stage goes when its entry is not ACTIVE; an item of the
stage's segment goes to ITEM_ADDR of the first core that can fire, and the firing enters its run queue with g1 = 1. -/
def StageSteps : Prop :=
  (∀ (s : State) region, region < 80 → (s.getRegion region).governed + 4096 ≤ s.tsc.toNat → exec (.governorSample region) s =
    .next (((((s.tiles.filter (fun t => psnRegion t.psn == region)).map (·.psn)).foldl (fun s t => (List.range 16).foldl (fun s n => s.governStage t n) s) s)).modRegion
      region (fun r => { r with governed := s.tsc.toNat }))) ∧
  (∀ (s : State) tile n t d b, isTilePsn tile = true → n < 16 → t = s.getTile tile → d = t.stage n → t.stageBusy.find? (fun b => b.1 == n) = some b → b.2 < 16 →
    (∀ p, s.stageCore t d b.2 = some p → hActive ((s.getCore p).handler (sgEntry d)) = false) → exec (.stageCoreRelease tile n) s =
      .next (s.putTile { t.setStage n (setBit d (12 + b.2) false) with stageBusy := t.stageBusy.filter (· != b) })) ∧
  (∀ (s : State) tile n t d seg size p place, isTilePsn tile = true → n < 16 → t = s.getTile tile → d = t.stage n → seg = sgSeg d → size = segUnit (t.seg seg) →
    s.stageTarget t d = some p → t.stageValid n = true → fifoHeld t seg ≠ 0 → sgItem d + size ≤ 0x18000 →
    place = seg * 65536 + (at_ t.head seg 0).toNat % fifoSlots (t.seg seg) * size → s.canRead p (tileKey tile place) size = true →
    exec (.stageItemDelivery tile n) s = .next ((((s.readFor p (tileKey tile place) place size).poke (localKey p (sgItem d)) (s.bytes (tileKey tile place) size)).modTile
      tile (fun t => { t with head := put t.head seg (at_ t.head seg 0 + 1) })).fireEntry p (sgEntry d) (some 1)))

/-- R408, R409, R411: a move of a running graph's core to a free one in the region begins with BUSY, MOVING and HOLD of its entries; once its core has
drained, its registers, memory and name go to the other core, which gets its HOLD bits back, and RESULT is 0 (an error beyond correction is reported first, R76); a request against the rate limit, or of an absent core, only sets its RESULT. -/
def MoveSteps : Prop :=
  (∀ (s : State) region v p q ctx, region < 80 → bit v 63 = true → ctx = fld v 36 32 → bit (s.getRegion region).moveStat 63 = false →
    (s.getRegion region).move = none → s.logicalCore (fld v 29 15) = some p → s.logicalCore (fld v 14 0) = some q →
    s.moveRefusal region ctx (some p) (some q) = none → exec (.moveReq region v) s = .next (((s.modRegion region (fun r => { r with
      moveStat := BitVec.ofNat 64 (2 ^ 63)
      move := some { ctx, from_ := p, to_ := q, holds := (s.getCore p).holds, lease := none } })).setMoving p true).holdActor p)) ∧
  (∀ (s : State) region v n, region < 80 → bit v 63 = true → bit (s.getRegion region).moveStat 63 = false → (s.getRegion region).move = none →
    s.moveRefusal region (fld v 36 32) (s.logicalCore (fld v 29 15)) (s.logicalCore (fld v 14 0)) = some n → exec (.moveReq region v) s =
      .next (s.modRegion region (fun r => { r with moveStat := BitVec.ofNat 64 (n * 2 ^ 56 + s.tsc.toNat % 2 ^ 32) }))) ∧
  (∀ (s : State) region m, region < 80 → (s.getRegion region).move = some m → m.lease = none → s.actorDrained m.from_ = true →
    (s.getCore m.from_).halting = false → s.canRead m.from_ (localKey m.from_ 0) 0x18000 = true → exec (.moveCopy region) s =
      .next (((((((s.logMove region m.ctx (s.actorOn m.from_) ([m.from_].filter s.servesAny)).setMoving m.from_ false).moveActor m.from_ m.to_).modCore m.to_
        (·.restoreHolds m.holds)).modRegion region (fun r => { r with move := none })).moveDone region 0)))

/-- R419 to R423: GRAPH_CTL while no operation is in progress warns a running graph's cores and sets the halt time, resumes a parked graph that has its place, or kills; on a graph in
the wrong state it only sets DONE_TSC. At the halt time the cores halt; each drained core quiesces; when all have, the context is saved. -/
def GraphControlSteps : Prop :=
  (∀ (s : State) region v g, region < 80 → bit v 63 = true → bit (s.getRegion region).graphStat 63 = false → s.graphOf region (fld v 36 32) = some g →
    (fld v 62 60 = 1 → g.stat = 1 → g.haltAt = none → exec (.graphPreempt region v) s = .next (s.preempt g (fld v 31 0))) ∧
    (fld v 62 60 = 1 → g.stat ≠ 1 → exec (.graphPreempt region v) s =
      .next (s.modRegion region (fun r => { r with graphStat := setFld r.graphStat 31 0 s.tsc.toNat }))) ∧
    (fld v 62 60 = 2 → g.stat = 3 → s.canResume g = true → exec (.graphResume region v) s = .next (s.resumeGraph g)) ∧
    (fld v 62 60 = 2 → g.stat ≠ 3 → exec (.graphResume region v) s =
      .next (s.modRegion region (fun r => { r with graphStat := setFld r.graphStat 31 0 s.tsc.toNat }))) ∧
    (fld v 62 60 = 3 → exec (.graphKill region v) s = .next (s.killGraph g))) ∧
  (∀ (s : State) region v, region < 80 → bit v 63 = true → bit (s.getRegion region).graphStat 63 = true →
    (fld v 62 60 = 1 → exec (.graphPreempt region v) s = .next s) ∧ (fld v 62 60 = 2 → exec (.graphResume region v) s = .next s) ∧
    (fld v 62 60 = 3 → exec (.graphKill region v) s = .next s)) ∧
  (∀ (s : State) id g t, s.graphById id = some g → g.haltAt = some t → t ≤ s.tsc.toNat → exec (.graphPreemptHalt id) s = .next (s.haltGraph g)) ∧
  (∀ (s : State) id core g, isCorePsn core = true → s.graphById id = some g → g.stat = 2 → core ∈ g.cores → core ∉ g.halted → s.coreQuiet core = true →
    exec (.graphPreemptQuiesce id core) s = .next ((s.quiesceCore core).putGraph { g with halted := g.halted ++ [core] })) ∧
  (∀ (s : State) id g, s.graphById id = some g → g.stat = 2 → s.graphQuiet g = true → s.canSave g = true →
    exec (.contextSave id) s = .next (s.saveContext g))

/-- R424, R425: a wick counter at zero snuffs its core; CORE_SNUFF clears while nothing is resident and no record is pinned; a region that has made no progress for
its limit while a port is blocked is frozen. -/
def SnuffAndHangSteps : Prop :=
  (∀ (s : State) core a, (s.getCore core).wickOn = true → (s.getCore core).wick = 0 → (s.getCore core).act = some a → a.halted = none → isCorePsn core = true →
    (s.getCore core).live = true → (s.getCore core).snuffed = false → exec (.wickExpiry core) s = .next (s.snuffCore core 1)) ∧
  (∀ (s : State) core, isCorePsn core = true → (s.getCore core).act = none → s.pinnedRecords core = false →
    exec (.coreSnuffClear core) s = .next (s.putCore { s.getCore core with snuff := 0 })) ∧
  (∀ (s : State) core a, isCorePsn core = true → (s.getCore core).act = some a → exec (.coreSnuffClear core) s = .next s) ∧
  (∀ (s : State) region r, region < 80 → r = s.getRegion region → bit r.hangCfg 63 = true → r.progress + 2 ^ fld r.hangCfg 4 0 ≤ s.tsc.toNat →
    s.blockedPorts region ≠ [] → exec (.hangFreeze region) s = .next (s.freeze region))

/-- R428 to R432: a lease request in order gets a number and is scheduled at START, a wrong one only its code; the Lamplighter's sweep proposes the next unit at most every 2^20
ticks; a proposal unanswered for 2^26 ticks counts as accepted, and a deferred one is proposed again after 2^30; a mismatch adds 1,024 to the selected unit's score, and a
retirement begins with reason 3; scores halve at each multiple of 2^30 of the TSC. -/
def LeaseRequests : Prop :=
  (∀ (s : State) region w n, region < 80 → bit w 63 = true → s.leaseRefusal region w (s.getRegion region).leaseStart = some n →
    exec (.leaseReq region w) s = .next (s.modRegion region (fun r => { r with leaseResult := BitVec.ofNat 64 (n * 2 ^ 56) }))) ∧
  (∀ (s : State) region w r u t l, region < 80 → bit w 63 = true → r = s.getRegion region → u = w.extractLsb' 0 32 →
    s.leaseRefusal region w r.leaseStart = none →
    t = (s.newLease region u 2 0 (fld w 47 32) (fld w 62 48) r.leaseStart none).modRegion region (fun x => { x with leaseResult := BitVec.ofNat 64 r.nextLease }) →
    (t.getRegion region).leases.find? (fun l => leaseUnit l == u) = some l →
    exec (.leaseReq region w) s = .next (t.scheduleLease region l r.leaseStart)) ∧
  (∀ (s : State) region u, region < 80 → s.selected region = some u →
    exec (.scoreCtlMismatch region) s = .next (s.addScore u 1024) ∧ exec (.scoreCtlRetire region) s = .next (s.retire u 3)) ∧
  (∀ (s : State) region, region < 80 → s.selected region = none →
    exec (.scoreCtlMismatch region) s = .next s ∧ exec (.scoreCtlRetire region) s = .next s) ∧
  (∀ (s : State) due, due = s.tsc.toNat / 2 ^ 30 - s.module.halved → due ≠ 0 → exec .scoreHalving s = .next { s with module := { s.module with
    halved := s.tsc.toNat / 2 ^ 30
    scores := s.module.scores.map (fun (x : BitVec 32 × BitVec 16) => if s.isRetired x.1 then x else (x.1, x.2 >>> due)) } }) ∧
  (∀ (s : State) region u i, region < 80 → s.sweepUnit region = some u → (s.getRegion region).lastSweep + 2 ^ 20 ≤ s.tsc.toNat →
    (s.getRegion region).freeLease = some i →
    exec (.sweepProposal region) s = .next ((s.propose u 2).modRegion region (fun r => { r with lastSweep := s.tsc.toNat }))) ∧
  (∀ (s : State) region e l, region < 80 → e < 64 → (s.getRegion region).lease e = some l →
    (leaseState l = 0 → l.since + 2 ^ 26 ≤ s.tsc.toNat → exec (.leaseAckTimeout region e) s = .next (s.scheduleLease region l (s.tsc + 1000000))) ∧
    (leaseState l = 1 → l.since + 2 ^ 30 ≤ s.tsc.toNat → exec (.leaseDeferExpiry region e) s =
      .next (s.setLease region { (l.enter 0 s.tsc.toNat) with w0 := setFld (setFld l.w0 62 60 0) 57 55 (leaseDefers l + 1) })))

/-- R431, R433 to R438: at START a lease that may start begins evacuation, after LEASE_PEND where a ring runs over the unit; when evacuation is over, the contents go to the spare and the entry tests
or, at a score of 32,768, retires; a pattern's mismatch adds 4,096; the end of testing restores or, at that score or by request, retires; a restored unit serves again and the entry is free, unless it is to retire; a countersigned retirement is recorded, and a notice that
has run out begins the evacuation of the unit. -/
def LeaseSteps : Prop :=
  (∀ (s : State) region e l, region < 80 → e < 64 → (s.getRegion region).lease e = some l →
    (∀ r, s.unitRing (leaseUnit l) = some r → s.leaseDue region l = true → r.leaseAt = none → exec (.leaseStart region e) s = .next (s.pendRing region r true)) ∧
    (s.unitRing (leaseUnit l) = none → s.leaseCanStart region l = true →
      (∀ m ∈ (s.getRegion region).leases, leaseNumber m < leaseNumber l → s.leaseCanStart region m = false) →
      exec (.leaseStart region e) s = .next (s.beginEvacuation cancelForLease region l))) ∧
  (∀ (s : State) region e l t, region < 80 → e < 64 → (s.getRegion region).lease e = some l → leaseState l = 3 → s.evacuated region l = true →
    t = s.moveContents region l → t.retiringUnit (leaseUnit l) = false → t.score (leaseUnit l) < 32768 → unitKind (leaseUnit l) < 4 → unitKind (leaseUnit l) ≠ 0 →
    exec (.leaseEvacuationDone region e) s = .next ((t.setLease region { (l.enter 4 t.tsc.toNat) with started := true }).announceUnit (leaseSubject l) 5 s.tsc.toNat
      (s.capacity (leaseUnit l)) (s.capacity (leaseSpare l)))) ∧
  (∀ (s : State) region e l syn, region < 80 → e < 64 → (s.getRegion region).lease e = some l → leaseState l = 4 →
    exec (.testPatternResult region e false syn) s = .next (s.setLease region { l with passed := true }) ∧
    exec (.testPatternResult region e true syn) s = .next ((s.setLease region { l with
      passed := true, failing := BitVec.ofNat 16 (fld l.w0 47 32), syndrome := syn }).addScore (leaseUnit l) 4096)) ∧
  (∀ (s : State) region e l next, region < 80 → e < 64 → (s.getRegion region).lease e = some l → leaseState l = 4 →
    (l.passed = true ∨ l.since + leaseDuration l * 2 ^ 20 ≤ s.tsc.toNat) → unitKind (leaseUnit l) ≠ 0 → next = (if s.retiringUnit (leaseUnit l) = true ∨ 32768 ≤ s.score (leaseUnit l) then 6 else 5) →
    exec (.leaseTestingEnd region e) s = .next ((s.setLease region (l.enter next s.tsc.toNat)).modRegion region (fun r => { r with
      tested := r.tested.filter (fun (x : BitVec 32 × Nat) => x.1 != leaseUnit l) ++ [(leaseUnit l, s.tsc.toNat)] }))) ∧
  (∀ (s : State) region e l, region < 80 → e < 64 → (s.getRegion region).lease e = some l → leaseState l = 5 → s.retiringUnit (leaseUnit l) = true →
    exec (.leaseRestoreDone region e) s = .next (s.setLease region (l.enter 6 s.tsc.toNat))) ∧
  (∀ (s : State) region e l t, region < 80 → e < 64 → (s.getRegion region).lease e = some l → leaseState l = 5 → s.retiringUnit (leaseUnit l) = false →
    unitKind (leaseUnit l) = 1 → t = (s.modRegion region (·.dropLease l.index)).modTile (unitPsn (leaseUnit l)) (fun x => { x with withdrawn := false }) →
    exec (.leaseRestoreDone region e) s = .next (t.announceUnit (leaseSubject l) 2 s.tsc.toNat (s.capacity (leaseSubject l)) (t.capacity (leaseSubject l)))) ∧
  (∀ (s : State) region e l, region < 80 → e < 64 → (s.getRegion region).lease e = some l → leaseState l = 6 → s.module.xmssSpent = false → l.started = true →
    ∃ t, exec (.retirementCountersigned region e) s = .next t ∧ t.module.recordSeq = s.module.recordSeq + 1 ∧
      leaseUnit l ∈ t.module.retired ∧ t.module.xmssIndex = s.module.xmssIndex + 1) ∧
  (∀ (s : State) region u x i t l, region < 80 → (s.getRegion region).retiring.find? (fun x => x.1 == u) = some x → x.2.1 ≤ s.tsc.toNat → s.hasLease u = false →
    s.carries u = true → s.cannotLeave u = false → (s.getRegion region).freeLease = some i → s.leaseReady u = true → s.moveFree region u = true →
    s.unitRing u = none → t = s.newLease region u 3 0 0xFFFF 0 0 (some 0) → (t.getRegion region).leases.find? (fun l => leaseUnit l == u) = some l →
    exec (.retirementNoticeExpiry region u) s = .next (t.beginEvacuation cancelForLease region l))

/-- A host-service core has a request of one kind to take, its zero fields zero. -/
def requested (s : State) (n op : Nat) (r : Request) : Prop :=
  n < 4 ∧ s.canTake (s.getHost n) = true ∧ r = s.nextRequest (s.getHost n) ∧ rqOp r = op ∧ rqZeros r = true
/-- A host-service core has a request of one kind under way. -/
def underWay (s : State) (n op : Nat) (r : Request) : Prop := n < 4 ∧ (s.getHost n).request = some r ∧ rqOp r = op

/-- R441 to R444, R403: a doorbell write moves TAIL and wakes the module; a request is taken in order; READ and WRITE copy in 64-byte pieces once their status is 0, else complete with
it; a BARRIER goes to the three other cores and completes when each has acknowledged; CANCEL withdraws a pending graph; a reserved field or OP completes with 5. -/
def HostRequests : Prop :=
  (∀ (s : State) n v, n < 4 → exec (.rqDoorbell n v) s =
      .next (s.putHost n { s.getHost n with rqCtl := setFld (s.getHost n).rqCtl 63 48 v.toNat }).unpark ∧
    exec (.cqCtlHeadWrite n v) s = .next (s.putHost n { s.getHost n with cqCtl := setFld (s.getHost n).cqCtl 47 32 v.toNat })) ∧
  (∀ (s : State) n r st, st = (s.takeRequest n).copyStatus n r →
    (requested s n 1 r → exec (.read n) s = .next (if st = 0 then s.takeRequest n else (s.takeRequest n).complete n st 0)) ∧
    (requested s n 2 r → exec (.write n) s = .next (if st = 0 then s.takeRequest n else (s.takeRequest n).complete n st 0))) ∧
  (∀ (s : State) n r, (underWay s n 1 r → exec (.read n) s = .next (s.copyPiece n r false)) ∧ (underWay s n 2 r → exec (.write n) s = .next (s.copyPiece n r true)) ∧
    (underWay s n 3 r → (s.getHost n).acks.length = 3 → exec (.barrier n) s = .next (s.complete n 0 0)) ∧
    (underWay s n 3 r → (s.getHost n).acks.length ≠ 3 → exec (.barrier n) s = .next s)) ∧
  (∀ (s : State) n r, requested s n 3 r → exec (.barrier n) s =
    .next (((List.range 4).filter (· != n)).foldl (fun s t => s.launchItem (.barrierForward t n [])) (s.takeRequest n))) ∧
  (∀ (s : State) id t origin, s.item id = some (.barrierForward t origin []) → (s.getHost t).request = none →
    exec (.barrierForward id) s = .next ((s.dropItem id).putHost origin { s.getHost origin with acks := (s.getHost origin).acks ++ [t] })) ∧
  (∀ (s : State) n r g, requested s n 9 r → (s.takeRequest n).graphById (rqArg r 24 2) = some g → g.stat = 0 → exec (.cancel n) s =
    .next (State.complete { s.takeRequest n with graphs := (s.takeRequest n).graphs.filter (·.id != g.id) } n 0 0)) ∧
  (∀ (s : State) n r, requested s n 9 r → (s.takeRequest n).graphById (rqArg r 24 2) = none → exec (.cancel n) s = .next ((s.takeRequest n).complete n 5 0)) ∧
  (∀ (s : State) n r, n < 4 → s.canTake (s.getHost n) = true → (s.getHost n).request = none → r = s.nextRequest (s.getHost n) → ¬ (1 ≤ rqOp r ∧ rqOp r ≤ 9) →
    exec (.read n) s = .next ((s.takeRequest n).complete n 5 0))

/-- R395, R419, R447, R448, R445: LAUNCH places the graph of its header and completes at arming or with its refusal; GRAPH acts as a write of GRAPH_CTL, or completes with 4 while one is in progress; ATTEST signs a
quote over the nonce while indices are left; KEYLOAD unwraps a key into a free slot that no context uses and KEYCLR clears one; a transfer engine takes its words, and what another
module sends lands and posts its length. -/
def MonitorAndLaunchRequests : Prop :=
  (∀ (s : State) n r st ctx t, requested s n 4 r → (s.takeRequest n).inWindow n (rqHost r) 128 = true →
    (st, ctx, t) = (s.takeRequest n).launch n (BitVec.ofNat 1024 (ofLe ((s.takeRequest n).bytes (companionKey (rqHost r)) 128))) →
    exec (.launch n) s = .next (if st = 0 then t else t.complete n 0 (st + ctx * 2 ^ 8))) ∧
  (∀ (s : State) n r g, underWay s n 4 r → s.graphs.find? (fun g => g.launcher == some n) = some g → g.armed = true →
    exec (.launch n) s = .next ((s.putGraph { g with launcher := none }).complete n 0 (g.ctx * 2 ^ 8))) ∧
  (∀ (s : State) n r v region, requested s n 5 r → v = BitVec.ofNat 64 (rqArg r 24 8) → region = (s.takeRequest n).graphTarget n (fld v 36 32) →
    (bit ((s.takeRequest n).getRegion region).graphStat 63 = true → exec (.graph n) s = .next ((s.takeRequest n).complete n 4 0)) ∧
    (bit ((s.takeRequest n).getRegion region).graphStat 63 = false → exec (.graph n) s = .next (((s.takeRequest n).graphCtl region v).complete n 0 0))) ∧
  (∀ (s : State) n r q g, requested s n 6 r → (s.takeRequest n).inWindow n (rqHost r) 2948 = true → (s.takeRequest n).module.xmssSpent = false →
    q = (s.takeRequest n).quote (rqArg r 24 32) → g = (s.takeRequest n).sign q →
    exec (.attest n) s = .next ((g.2.poke (companionKey (rqHost r)) (q ++ slice g.1 0 2820)).complete n 0 2948)) ∧
  (∀ (s : State) n r slot k u, requested s n 7 r → u = s.takeRequest n → slot = rqArg r 24 2 → 0 < slot → slot < 4096 → u.inWindow n (rqHost r) 72 = true →
    unwrapKey u.module.kek (u.bytes (companionKey (rqHost r)) 72) = some k → u.keyLoaded slot = false → u.keyUsed slot = false →
    exec (.keyload n) s = .next (State.complete { u with module := { u.module with keySlots := u.module.keySlots ++ [(slot, k)] } } n 0 0)) ∧
  (∀ (s : State) n r slot u, requested s n 8 r → u = s.takeRequest n → slot = rqArg r 24 2 → 0 < slot → slot < 4096 → u.keyUsed slot = false →
    exec (.keyclr n) s = .next (State.complete { u with module := { u.module with keySlots := u.module.keySlots.filter (fun (x : Nat × BitVec 512) => x.1 != slot) } } n 0 0)) ∧
  (∀ (s : State) port pa len peer remote, port < 32 → peer < 2 ^ 20 → len < 2 ^ 44 → transferable pa.toNat len = true → exec (.transferEngineStart port pa len peer remote) s =
    .next { s with
      module := { s.module with
        ports := upsert s.module.ports (fun p => p.1 == port) (port, BitVec.ofNat 64 pa.toNat, BitVec.ofNat 64 remote.toNat, BitVec.ofNat 64 (len * 2 ^ 20 + peer)) } }) ∧
  (∀ (s : State) port pa data tile ctr t, portExists port = true → isTilePsn tile = true → ctr < 16 → transferable pa.toNat data.length = true →
    s.landTransfer (externalPsn (port / 256) (port % 256)) (pieces pa.toNat data.length 1024) data = some t → exec (.remoteTransferComplete ⟨port, pa⟩ data tile ctr) s =
      .next (t.modTile tile (fun x => { x with sq := put x.sq ctr (satAdd (at_ x.sq ctr 0) data.length) })))

/-- R453 to R456: QUIESCE of a cluster not in use sets the request, of one in use records event 8; a quiet cluster becomes QUIESCED; RET_SAVE of a quiesced cluster starts the save, which sets
RET_DONE; a wake of a gated cluster starts, for a write or for an arrival, which is held; a PWR_WAKE of a cluster that is not gated is kept for a GATE of that instant; a wake ends with the image restored; 100,000 ticks without the rails end it with
event 7. -/
def ClusterSteps : Prop :=
  (∀ (s : State) r n c, r < 80 → n < 36 → c = s.getCluster r n → clGated c = false →
    (clQuiesce c = false → s.clusterUsed r n = true → exec (.pwrQuiesce r n) s = .next (s.powerEvent r n 8 0)) ∧
    (clQuiesce c = false → s.clusterUsed r n = false → exec (.pwrQuiesce r n) s = .next (s.modCluster r n (fun c => { c with ctl := setBit c.ctl 63 true }))) ∧
    (clQuiesced c = true → exec (.retSave r n) s = .next (s.modCluster r n (fun c => { c with ctl := setBit c.ctl 62 true, saving := true }))) ∧
    (clQuiesced c = false → exec (.retSave r n) s = .next s) ∧
    (clQuiesce c = true → clQuiesced c = false → s.clusterQuiet r n = true → exec (.clusterQuiesced r n) s =
      .next ((s.modCluster r n (fun c => { c with stat := setBit c.stat 63 true })).powerEvent r n 1 0))) ∧
  (∀ (s : State) r n, r < 80 → n < 36 → (s.getCluster r n).saving = true → s.canRetain r n = true → exec (.retentionSaveDone r n) s = .next (s.saveRetention r n)) ∧
  (∀ (s : State) r n c, r < 80 → n < 36 → c = s.getCluster r n → clGated c = true → c.wake = none →
    exec (.pwrWake r n) s = .next ((s.modCluster r n (fun c => { c with wake := some s.tsc.toNat })).powerEvent r n 5 0)) ∧
  (∀ (s : State) r n, r < 80 → n < 36 → clGated (s.getCluster r n) = false →
    exec (.pwrWake r n) s = .next (s.modCluster r n (fun c => { c with wakeAt := some s.tsc.toNat }))) ∧
  (∀ (s : State) id b p source, s.item id = some b → s.arrivesAt b = some (p, source) → s.gated p = true →
    (s.getCluster (psnRegion p) (clusterOf p)).held.contains id = false →
    exec (.clusterWakeArrival id) s = .next ((s.modCluster (psnRegion p) (clusterOf p) (fun c => { c with held := c.held ++ [id] })).wakeCluster (psnRegion p) (clusterOf p) 6 source)) ∧
  (∀ (s : State) r n t, r < 80 → n < 36 → (s.getCluster r n).wake = some t → exec (.clusterWakeDone r n) s = .next (s.restoreCluster r n) ∧
    (t + 100000 ≤ s.tsc.toNat → exec (.railGoodTimeout r n) s = .next (s.railFault r n)))

/-- R451, R457 to R460: a power window above 25 kW lowers the caps of the region with the highest RUN by a bin, and no cluster is above its temperature; a cold boot with a sound archive leaves the machine booted, once; PARK is refused while a graph runs and
else lowers the power, UNPARK ends it; each hour's temperature counts in its band. -/
def ModuleSteps : Prop :=
  (∀ (s : State) watts r, 25000 < watts → r = s.hottestRegion → exec (.powerWindow watts []) s =
    .next (let t := s.recap (allCores r) (allTiles r) (· - 1)
      { t with module := { t.module with underWindows := 0 } })) ∧
  (∀ (s : State) watts, 23000 ≤ watts → watts ≤ 25000 → exec (.powerWindow watts []) s = .next { s with module := { s.module with underWindows := 0 } }) ∧
  (∀ (s : State), s.module.booted = false → s.module.monitorOnly = false → exec .coldBoot s = .next s.boot) ∧
  (∀ (s : State), s.module.booted = true → exec .coldBoot s = .next s) ∧
  (∀ (s : State) g, g ∈ s.graphs → g.stat = 1 → exec .park s = .next s) ∧
  (∀ (s : State), (∀ g ∈ s.graphs, g.stat ≠ 1 ∧ g.stat ≠ 2 ∧ g.stat ≠ 4) → s.module.lowPower = false →
    exec .park s = .next { s with module := { s.module with lowPower := true, pwr := setBit s.module.pwr 0 true } }) ∧
  (∀ (s : State), exec .unpark s = .next { s with module := { s.module with lowPower := false, pwr := 0 } }) ∧
  (∀ (s : State) u t, u < 112 → exec (.wearHourlyUpdate [(u, t)]) s = .next ((s.thermal u t).addWear u (2 + hourBand t)))

/-- An attached member of a gang runs the instructions that its leader's tile relays (R194). -/
def attachedMember (a : Act) : Bool := (a.gang.map (fun g => decide (g.position ≠ 0) && g.attached)).getD false

/-- R149, R179, R230, R242, R243, R301: what an instruction does before its own effect. Nothing issues without a running activation. Above that the order is
that of R243: PRIV for a privileged instruction at graph level; WINDOW for the first direct general register at or above W; a guard that is pending
waits; a false guard lets the instruction end at once, past it, with no other change; then a token that holds the issue, or a pending register, waits with
nothing done. -/
def IssueOutcomes : Prop :=
  ∀ (i : Instr) f (s : State), formOf i = some f →
    (s.core.act = none → exec i s = .next s) ∧
    (∀ a, s.core.act = some a → a.halted.isSome → exec i s = .next s) ∧
    (∀ a, s.core.act = some a → a.halted = none → attachedMember a = false →
      (privileged i = true → s.level = .graph →
        exec i s = .next (s.takeFault { code := .priv, detail := parcelDetail f.words 3 })) ∧
      (∀ n, (privileged i = false ∨ s.level ≠ .graph) → f.gs.find? (fun n => decide (a.window ≤ n)) = some n →
        exec i s = .next (s.takeFault { code := .window, detail := capDetail 0 0xFF n }))) ∧
    (∀ a, s.core.act = some a → a.halted = none → (privileged i = false ∨ s.level ≠ .graph) → (∀ n ∈ f.gs, n < a.window) →
      (s.core.isPending (.p f.guard) = true → exec i s = .next s.hold) ∧
      (s.core.isPending (.p f.guard) = false → s.guardRuns f = false → exec i s = .next (past i s)) ∧
      (s.core.isPending (.p f.guard) = false → s.guardRuns f = true → f.holds = false → s.gone (s.tok f.after) = false → exec i s = .next s.hold) ∧
      (s.core.isPending (.p f.guard) = false → s.guardRuns f = true → (∃ r ∈ f.regs, s.core.isPending r = true) → exec i s = .next s.hold))

/-- R179, R237: a relative operand names the register whose number is the index register's value, as a signed number, plus its offset; outside 0 to W − 1 it
raises WINDOW. An instruction of two sources with such an operand takes the fault with nothing committed; the destination, too, is
checked before anything is written. -/
def RelativeOperands : Prop :=
  (∀ (s : State) idx k, (s.g idx.toNat).toInt + k < 0 ∨ (s.window : Int) ≤ (s.g idx.toNat).toInt + k →
    s.relative idx k = .error (.window (BitVec.ofInt 64 ((s.g idx.toNat).toInt + k)).toNat)) ∧
  (∀ (s : State) idx k n, (s.g idx.toNat).toInt + k = (n : Nat) → n < s.window → s.core.isPending (.g n) = false → s.relative idx k = .ok n) ∧
  (∀ e ∈ long2, ∀ x s n, issues (e.1 x) s = true →
    (x.srcA (past (e.1 x) s) = .error (.window n) ∨
      (∃ a, x.srcA (past (e.1 x) s) = .ok a ∧ x.srcB (past (e.1 x) s) = .error (.window n)) ∨
      (∃ a b, x.srcA (past (e.1 x) s) = .ok a ∧ x.srcB (past (e.1 x) s) = .ok b ∧ x.dst (past (e.1 x) s) = .error (.window n))) →
    exec (e.1 x) s = .next (s.takeFault { code := .window, detail := capDetail 0 0xFF n })) ∧
  (∀ (x : Long) (s : State), x.isRel = true → x.relA = true → x.srcA s = (s.relative x.a x.kA.toInt).map (fun n => (s.g n).toNat)) ∧
  (∀ (x : Long) (s : State), x.isRel = true → x.relB = true → x.srcB s = (s.relative x.b x.kB.toInt).map (fun n => (s.g n).toNat)) ∧
  (∀ (x : Long) (s : State), x.isRel = true → x.relD = true → x.dst s = s.relative x.d x.kD.toInt) ∧
  (∀ (x : Long) (s : State), x.isRel = false → x.srcA s = .ok (s.g x.a.toNat).toNat ∧ x.srcC s = .ok (s.g x.c.toNat).toNat ∧ x.dst s = .ok x.d.toNat ∧
    (x.form ≠ 1 → x.srcB s = .ok (s.g x.b.toNat).toNat) ∧ (x.form = 1 → x.wide = false → x.srcB s = .ok (x.hi.signExtend 64).toNat) ∧
    (x.form = 1 → x.wide = true → isSigned x.ty = true → x.srcB s = .ok (x.lit.signExtend 64).toNat) ∧
    (x.form = 1 → x.wide = true → isUnsigned x.ty = true → x.srcB s = .ok x.lit.toNat))

/-- R66, R191, R414, R416: taking a fault on a core of a graph. With a full record free at the home tile, the activation's accesses drained and fewer than
four messages unsent, the record takes the pc, the window's registers and the fault, FHOLD keeps the entry from firing, q52 counts the fault (but a
TRAP, or one its reply has counted), and the core is free. With no full record free, or while accesses drain, the activation stays, halted,
its registers and its pc as they are. No memory changes. -/
def TakingAFault : Prop :=
  (∀ (s : State) f a tile i, s.level = .graph → s.core.act = some a → a.entry < 20 → a.gang = none → s.homeTile s.core = some tile →
    (s.getTile tile).freeFull = some i → s.drained s.core.psn a.serial = true → s.core.unsent.length < 4 →
    ((s.takeFault f).getTile tile).record i = some (faultedRecord s.core a f a.reissue i) ∧ (s.takeFault f).core.act = none ∧
    (s.takeFault f).core.handler a.entry = setBit (s.core.handler a.entry) 124 true ∧
    at_ (s.takeFault f).core.q 52 0 = (if f.code = .trap ∨ f.counted = true then at_ s.core.q 52 0 else satAdd (at_ s.core.q 52 0) 1) ∧
    (s.takeFault f).mem = s.mem ∧ (s.takeFault f).tags = s.tags) ∧
  (∀ (s : State) f a tile, s.level = .graph → s.core.act = some a → s.homeTile s.core = some tile → a.halted = none →
    (s.getTile tile).freeFull = none ∨ s.drained s.core.psn a.serial = false ∨ 4 ≤ s.core.unsent.length →
    (s.takeFault f).core.act = some { a with halted := some f } ∧ (s.takeFault f).core.regs = s.core.regs ∧ (s.takeFault f).mem = s.mem)

/-- R234, R235: g0 reads 0 and p0 all ones in every state, and a write to either is discarded. So an instruction of the one-parcel formats with two sources and g0
as its destination changes nothing but the pc. -/
def HardwiredRegisters : Prop :=
  (∀ (s : State) v w, s.g 0 = 0 ∧ s.p 0 = BitVec.allOnes 32 ∧ s.setG 0 v = s ∧ s.setP 0 w = s) ∧
  (∀ e ∈ short2, ∀ x s, issues (e.1 x) s = true → x.d = 0 → exec (e.1 x) s = .next (past (e.1 x) s))

/-- What an instruction with a general register as its destination may change: that register, the pc, and the note that the instruction waits. -/
def onlyRegister (d : Nat) (s t : State) : Prop :=
  (∀ n, n ≠ d → t.g n = s.g n) ∧
  t = { s with core := { s.core with regs := { s.core.regs with g := t.core.regs.g, pc := t.core.regs.pc }, waiting := false, since := t.core.since } } ∧
  (∀ k, Mem.read t.mem k = Mem.read s.mem k)

/-- The frame of the scalar instructions (R266, R269, R235): every general register but the destination, every predicate, vector, capability, accumulator and
token, every queue, handler and counter, every special register, every byte of memory and its tags, and every other unit are as before. The machine has no flags: its
status bits are predicates. -/
def ScalarFrame : Prop :=
  (∀ e ∈ long1, ∀ x s a d t, issues (e.1 x) s = true → x.srcA (past (e.1 x) s) = .ok a → x.dst (past (e.1 x) s) = .ok d →
    exec (e.1 x) s = .next t → onlyRegister d s t) ∧
  (∀ e ∈ long2, ∀ x s a b d t, issues (e.1 x) s = true → x.srcA (past (e.1 x) s) = .ok a → x.srcB (past (e.1 x) s) = .ok b →
    x.dst (past (e.1 x) s) = .ok d → exec (e.1 x) s = .next t → onlyRegister d s t) ∧
  (∀ e ∈ long3, ∀ x s a b c d t, issues (e.1 x) s = true → x.srcA (past (e.1 x) s) = .ok a → x.srcB (past (e.1 x) s) = .ok b →
    x.srcC (past (e.1 x) s) = .ok c → x.dst (past (e.1 x) s) = .ok d → exec (e.1 x) s = .next t → onlyRegister d s t) ∧
  (∀ e ∈ short1, ∀ x s t, issues (e.1 x) s = true → exec (e.1 x) s = .next t → onlyRegister x.d.toNat s t) ∧
  (∀ e ∈ short2, ∀ x s t, issues (e.1 x) s = true → exec (e.1 x) s = .next t → onlyRegister x.d.toNat s t) ∧
  (∀ e ∈ immediate2, ∀ x s t, issues (e.1 x) s = true → exec (e.1 x) s = .next t → onlyRegister x.d.toNat s t)

/-- The registers to which a rule of the spec gives a reset value other than zero: HANG_CFG (R425), LP_CFG (R430), RUNQ_AGE (R183), RING_IDLE (R217), TOMB_WINDOW
(R33), the handler table (R176), the queue descriptors (R90, R91), RAIL_GOOD (R454); and those it gives as empty: every capability register untagged (R43), no
memory tag. The memory is in its one form. The TSC starts at 0 and no activation is resident. -/
def ResetValues : Prop :=
  (∀ r, ((State.reset.getRegion r).hangCfg = 0x8000000000000018#64 ∧ (State.reset.getRegion r).lpCfg = 0x80004E94914F0000#64 ∧
    (State.reset.getRegion r).runqAge = 65536 ∧ (State.reset.getRegion r).ringIdle = 16384 ∧ (State.reset.getRegion r).tombWindow = 64000)) ∧
  (∀ p e, e < 19 → hValid ((State.reset.getCore p).handler e) = false ∧ fld ((State.reset.getCore p).handler e) 116 111 = 7) ∧
  (∀ p n, ((State.reset.getCore p).getC n).tag = false) ∧ (∀ p, (State.reset.getCore p).act = none) ∧
  State.reset.tags = [] ∧ State.reset.tsc = 0 ∧ Mem.wf State.reset.mem = true ∧ fld Cluster.reset.stat 59 59 = 1

/-- R222 to R228, R243, R335, R370: words written out bit by bit from the encodings, each read as the instruction it stands for; and one with a reserved bit set,
which no instruction has. -/
def DecodedWords : Prop :=
  decodeTableWord 32 0x21C61404 = some (.addL32A { sub := 2, b := 7, a := 6, d := 5 }) ∧
  decodeTableWord 32 0xFFD18501 = some (.addI64L32B { imm := 0xFFD, a := 6, d := 5 }) ∧
  decodeTableWord 96 0x000013882000010000185007 = some (.add { wide := true, b := 0, a := 6, d := 5, hi := 0x200, after := 0, emit := 0, ginv := false, guard := 0, sub := 4, c := 0, lit := 5000 }) ∧
  decodeTableWord 64 0x0102AD8007089406 = some (.st { wide := false, b := 7, a := 2, d := 9, hi := 16, after := 1, emit := 2, ginv := true, guard := 3, sub := 6, c := 0, lit := 0 }) ∧
  decodeTableWord 64 0x0102AD8047089406 = none ∧
  decodeTableWord 64 0x00F0000007084582 = some (.drd { wide := false, b := 7, a := 2, d := 4, hi := 15, after := 0, emit := 0, ginv := false, guard := 0, sub := 0, c := 0, lit := 0 }) ∧
  decodeTableWord 64 0x005000000018090A = some (.rmset { wide := false, b := 0, a := 6, d := 0, hi := 5, after := 0, emit := 0, ginv := false, guard := 0, sub := 0, c := 0, lit := 0 })

/-- R222 to R229, R243: decoding what the encoder writes for a well-formed instruction gives that instruction, with every field at every value its encoding admits,
and leaves no parcel over. -/
def DecodeAfterEncode : Prop :=
  ∀ i : Instr, wellFormed i = true → hasEncoding i = true → decode (encode i) = some (i, [])

/-- R222 to R229, R243: no two words of the same length read as one instruction: what decodes is well formed, and encoding it gives back the parcels it was read from. -/
def DecodingIsExact : Prop :=
  ∀ ps (i : Instr) rest, decode ps = some (i, rest) → wellFormed i = true ∧ hasEncoding i = true ∧ ps = encode i ++ rest

/-- R222, R243, and the model's choice of whose turn it is (log entry 4): where no other turn is scheduled, no fault waits at the boundary, and the activation in focus
may issue, waits for nothing and has no relayed instruction, a step fetches the parcels at the pc and runs the instruction that they decode to; then the gang's members
receive it, the translations the instruction has waited with are let go (log entry 30), the region's progress is noted, the bit errors met count on the scores (log entry 114) and one tick passes. Parcels that no instruction has raise ILLEGAL. Code in LOCAL is the bytes at
the address that c0 and the pc give, where memory holds no error. -/
def StepRunsDecoded : Prop :=
  (∀ (s : State) ps t i u, s.schedule = [] → s.boundary = none → s.mayIssue = true → s.core.waiting = false → s.core.act.bind Act.received = none →
    s.fetch = .words ps t → decodeParcels (ps.getD 0 0) (ps.getD 1 0) (ps.getD 2 0) = some i → exec i t = .next u →
    step s = .next ((s.noteProgress (s.relay u ps).issued).tally.elapse 1)) ∧
  (∀ (s : State) ps t, s.schedule = [] → s.boundary = none → s.mayIssue = true → s.core.waiting = false → s.core.act.bind Act.received = none →
    s.fetch = .words ps t → decodeParcels (ps.getD 0 0) (ps.getD 1 0) (ps.getD 2 0) = none →
    step s = .next ((s.noteProgress (s.relay (t.takeFault { code := .illegal, detail := parcelDetail ps 2 }) ps).issued).tally.elapse 1)) ∧
  (∀ (s : State) a addr n, s.core.act = some a → s.core.regs.fetch.space = 0 → s.upsets = [] →
    (∀ k ∈ [0, 4, 8], s.checkCap Ask.fetch s.core.regs.fetch (s.core.regs.pc + BitVec.ofNat 64 k).toInt 4 = .ok (addr + k)) →
    n = parcelCount (BitVec.ofNat 32 (ofLe (s.localBytes s.core addr 4))) →
    s.fetch = .words ((List.range n).map (fun k => BitVec.ofNat 32 (ofLe (s.localBytes s.core (addr + 4 * k) 4)))) s)

/-- R66, R76, R79, R112, R114: a read of a word whose error is beyond correction (log entry 114 says how errors come). A load from LOCAL takes
ECCFATAL with the address; a store tile refuses the read with ECCFATAL; a DRAM actor answers it with status 1 and the channel's score is to grow by
1,024; a walk that meets one in its root entry ends with cause 9. -/
def UncorrectableErrors : Prop :=
  (∀ x y s act a, ∀ m ∈ loadForms x y, m.atLocal s act a → s.core.isPending (.g m.clears) = false →
    (((past m.instr s).touch [localPart a m.size]).setG m.clears 0).hasRoom act (m.order s) [localPart a m.size] = true →
    s.spoiled (localKey s.core.psn a) m.size = true →
    exec m.instr s = .next (s.takeFault { code := .eccfatal, detail := eccDetail a 0, answer := .instr })) ∧
  (∀ (s : State) id a t off u, arrivesAtTile s id a t off u → segMode ((u.getTile t).seg (off / 65536)) = 0 → a.kind = .load →
    u.spoiled (tileKey t off) a.size = true →
    exec (.storeAccess id) s = .next (u.setItem id (.access { a with stage := .refused, fault := some (a.refusal id .eccfatal) }))) ∧
  (∀ (s : State) id a pa, turnOf s id a pa 0 → s.hasKey a.key = true → a.kind = .load → s.spoiled pa a.size = true → exec (.drdRequest id) s =
    .next (((rowTouched s pa).noteFatal pa).answerRequest id a pa { status := 1, result := 0, data := [], tag := false })) ∧
  (∀ (s : State) region ctx va root, root = at_ (s.getRegion region).graphRoot ctx 0 → bit root 0 = true →
    s.spoiled (fld root 47 9 * 512 + 8 * (va / 2 ^ 42 % 64)) 8 = true → s.findLeaf region ctx va = .bad 0 9)

/-- R34, R35, R45: the local stores keep the memory in its one form: addresses strictly rising, no cell equal to what an unlisted address reads as. -/
def LocalStoresKeepTheForm : Prop :=
  ∀ x y s act a, ∀ m ∈ storeForms x y, m.atLocal s act a → memoryOk s = true → ∃ t, exec m.instr s = .next t ∧ memoryOk t = true

end Sys2Proof.Claims

open Sys2Proof Sys2Proof.Machine Sys2Proof.Claims

/-- Every scalar arithmetic instruction of the long formats writes its result and moves the pc past it, and changes nothing else. -/
def Obligations.LongScalarResults : Prop :=
  Sys2Proof.Claims.LongScalarResults

/-- Every scalar arithmetic instruction and comparison of the one-parcel formats, and CMP and FCMP, has its result and no other effect. -/
def Obligations.ShortScalarResults : Prop :=
  Sys2Proof.Claims.ShortScalarResults ∧ Sys2Proof.Claims.ComparisonResults

/-- SEL, MOV, LI, LIH, BFX and BFI in every form have their result, and a bit field past bit 63 raises ILLEGAL. -/
def Obligations.MovesConstantsAndFields : Prop :=
  Sys2Proof.Claims.MoveAndConstantResults ∧ Sys2Proof.Claims.BitFieldResults

/-- The predicate instructions in both formats work lane by lane and change only their destination. -/
def Obligations.PredicateResults : Prop :=
  Sys2Proof.Claims.PredicateResults

/-- Branches, jumps, calls, returns and LOOPS: where they go, what they link, and ALIGN for a register target not on a parcel. -/
def Obligations.ControlTransfers : Prop :=
  Sys2Proof.Claims.ControlTransfers ∧ Sys2Proof.Claims.MisalignedTargetFaults

/-- END ends the activation, NOP does nothing, and GANG, UNGANG and REJOIN form, dissolve and rejoin a gang. -/
def Obligations.EndNopAndGangs : Prop :=
  Sys2Proof.Claims.EndAndNop ∧ Sys2Proof.Claims.GangInstructions

/-- The capability inspectors, CCLR and CMOV read any capability and never fault on its contents. -/
def Obligations.CapabilityInspectors : Prop :=
  Sys2Proof.Claims.CapabilityInspection

/-- CDERIVE and CPERM derive a child from a parent, or raise CAPTAG, CAPPERM or CAPBOUND. -/
def Obligations.CapabilityDerivation : Prop :=
  Sys2Proof.Claims.CapabilityDerivation

/-- CSEAL and CUNSEAL test their conditions in order and seal or unseal. -/
def Obligations.Sealing : Prop :=
  Sys2Proof.Claims.Sealing

/-- At graph level the privileged instructions, SYSWR, SYSRD from 0x100 on and counters q48 to q63 raise PRIV. -/
def Obligations.PrivilegeFaults : Prop :=
  Sys2Proof.Claims.PrivilegeFaults

/-- CCHK, WHO, WID, TIME, SYSRD, WICK, SYSWR, QUERY and YIELD have their effect. -/
def Obligations.SystemInstructions : Prop :=
  Sys2Proof.Claims.CapabilityCheck ∧ Sys2Proof.Claims.SystemReads ∧ Sys2Proof.Claims.SystemEffects

/-- TRAP n takes the TRAP fault with n as its detail, the pc past the instruction. -/
def Obligations.TrapTakesItsFault : Prop :=
  Sys2Proof.Claims.TrapTakesItsFault

/-- GATE, SNUFF, NAMESET, LEASEACK, FRESUME, FKILL and SPLICE above graph level have their effect. -/
def Obligations.PrivilegedInstructions : Prop :=
  Sys2Proof.Claims.PrivilegedInstructions

/-- QINC, QADD, QRD, QPOST, WAITQ, BATCH, WAITB, WAITVIS and SUCCHINT have their effect on counters, batches and hints. -/
def Obligations.CounterInstructions : Prop :=
  Sys2Proof.Claims.CounterIncrements ∧ Sys2Proof.Claims.CounterReadsAndWaits

/-- HWAITF, HWAITE, HLD and HSTAT in every form go on with their result on a valid handle of their direction, and raise ILLEGAL on another. -/
def Obligations.HandleInstructions : Prop :=
  Sys2Proof.Claims.HandleWaitsAndReads ∧ Sys2Proof.Claims.HandleFaults

/-- HST, HADVP, HEOS and HADVC in every form write, close and end staging slots and free presented ones. -/
def Obligations.HandleWriters : Prop :=
  Sys2Proof.Claims.HandleWriters

/-- SEND, SENDQ and CRED send a slot or a contribution once their conditions hold. -/
def Obligations.MessageSenders : Prop :=
  Sys2Proof.Claims.MessageSenders

/-- Every load, store, atomic and capability access whose checks pass sends its parts; an answered one completes with the bytes supplied. -/
def Obligations.AccessesAreSent : Prop :=
  Sys2Proof.Claims.AccessesAreSent ∧ Sys2Proof.Claims.AnsweredAccesses

/-- A load from LOCAL that waits for nothing fills its register and changes nothing else. -/
def Obligations.LocalLoads : Prop :=
  Sys2Proof.Claims.LocalLoads

/-- A store to LOCAL writes the bytes from its checked address on, and every other byte of memory reads as before. -/
def Obligations.LocalStores : Prop :=
  Sys2Proof.Claims.LocalStores

/-- Capabilities loaded from and stored to LOCAL keep their 16 bytes and their tag as one unit. -/
def Obligations.LocalCapabilities : Prop :=
  Sys2Proof.Claims.LocalCapabilities

/-- OJOIN sets a token to the union of two, waits for nothing and performs no access. -/
def Obligations.TokenJoin : Prop :=
  Sys2Proof.Claims.TokenJoin

/-- FENCE holds the accesses of its scope; PF is dropped where it fails and else touches its rows. -/
def Obligations.FencesAndPrefetches : Prop :=
  Sys2Proof.Claims.Fences ∧ Sys2Proof.Claims.Prefetches

/-- The copy instructions queue their command; STCFG, SBUFSET and SBUFW act on their store tile. -/
def Obligations.CopyAndTileInstructions : Prop :=
  Sys2Proof.Claims.CopyCommands ∧ Sys2Proof.Claims.StoreTileInstructions

/-- DRD, DWR and DGATH send their requests to the actors of their stacks. -/
def Obligations.DramInstructions : Prop :=
  Sys2Proof.Claims.DramAccesses ∧ Sys2Proof.Claims.DramGather

/-- FLUSH, ROWOPEN and the instructions through a line handle send their request. -/
def Obligations.LineInstructions : Prop :=
  Sys2Proof.Claims.FlushAndRowOpen ∧ Sys2Proof.Claims.LineRequests

/-- The stream instructions configure, bind, unbind and read a slot, and a pop takes the next vector of elements. -/
def Obligations.StreamInstructions : Prop :=
  Sys2Proof.Claims.StreamInstructions ∧ Sys2Proof.Claims.StreamPops

/-- Every instruction that works lane by lane writes its governed lanes and zeroes or keeps the others. -/
def Obligations.VectorLanes : Prop :=
  Sys2Proof.Claims.VectorLanes

/-- VCMP, VMOVM, VRED, VDOT, VCVT, VPACK and VUNPACK have their result lane by lane. -/
def Obligations.VectorReductionsAndConversions : Prop :=
  Sys2Proof.Claims.VectorReductions ∧ Sys2Proof.Claims.VectorConversions

/-- VLD, VST, VLDG and VSTS send their accesses, or complete with the bytes of a RESUME. -/
def Obligations.VectorMemory : Prop :=
  Sys2Proof.Claims.VectorLoads ∧ Sys2Proof.Claims.VectorStores ∧ Sys2Proof.Claims.GathersAndScatters ∧ Sys2Proof.Claims.AnsweredVectorAccesses

/-- MZERO clears an accumulator with its flags and PROGRESS and sets its kind. -/
def Obligations.AccumulatorZero : Prop :=
  Sys2Proof.Claims.AccumulatorZero

/-- MACC, MMA, MMAQ, MMAD, MREAD and MREADK in normal mode have their effect on their accumulator or destination. -/
def Obligations.MatrixInstructions : Prop :=
  Sys2Proof.Claims.AccumulatorResults ∧ Sys2Proof.Claims.MatrixProducts ∧ Sys2Proof.Claims.MatrixReadouts

/-- In diagnostic mode a matrix instruction is queued; MSTAT and MMODE read the accumulator and set the mode. -/
def Obligations.MatrixModes : Prop :=
  Sys2Proof.Claims.DiagnosticQueue ∧ Sys2Proof.Claims.MatrixStatus

/-- RMSET, RMCLR, RJOIN, RINJ, RELIGHT, RDRAIN, RLEAVE and RSTAT have their effect on their ring. -/
def Obligations.RingInstructions : Prop :=
  Sys2Proof.Claims.RingEntries ∧ Sys2Proof.Claims.RingInjection ∧ Sys2Proof.Claims.RingMembership

/-- Name registers are written in their conditions, and messages are routed, accepted, bounced and forwarded. -/
def Obligations.NameAndRoutingSteps : Prop :=
  Sys2Proof.Claims.NameRegisters ∧ Sys2Proof.Claims.MessageRouting

/-- What arrives at a queue is counted and stored whole, and links audit and resend their flits. -/
def Obligations.QueueAndLinkSteps : Prop :=
  Sys2Proof.Claims.QueueArrivals ∧ Sys2Proof.Claims.LinkFlowControl

/-- Translations are answered, walked, filled, faulted and invalidated, and frames and tiles move. -/
def Obligations.TranslationSteps : Prop :=
  Sys2Proof.Claims.TranslationSteps ∧ Sys2Proof.Claims.Invalidation ∧ Sys2Proof.Claims.SplicesAndEvacuation

/-- A store tile performs accesses by its segment's mode, and replies, faults and reconfigurations take their effect. -/
def Obligations.TileSteps : Prop :=
  Sys2Proof.Claims.TileAccesses ∧ Sys2Proof.Claims.AccessReplies

/-- The DRAM actors perform requests in their turn, hold rows, reply, and refresh and move channels. -/
def Obligations.DramSteps : Prop :=
  Sys2Proof.Claims.DramRequests ∧ Sys2Proof.Claims.RowRequests ∧ Sys2Proof.Claims.DramReplies ∧ Sys2Proof.Claims.LinesAndChannels

/-- Copy channels, stream engines and the matrix scoreboard advance their work. -/
def Obligations.EngineSteps : Prop :=
  Sys2Proof.Claims.CopySteps ∧ Sys2Proof.Claims.EngineSteps

/-- Entries fire, activations start and resume, faulted ones convert, and gang members join and receive. -/
def Obligations.ActivationSteps : Prop :=
  Sys2Proof.Claims.RunQueueSteps ∧ Sys2Proof.Claims.GangSteps

/-- Ring tiles move and fire, operations complete and are cancelled, and trees and queries answer. -/
def Obligations.RingSteps : Prop :=
  Sys2Proof.Claims.RingTiles ∧ Sys2Proof.Claims.RingControl ∧ Sys2Proof.Claims.RingCancellation ∧ Sys2Proof.Claims.CollectivesAndQueries

/-- Graphs arm, end, succeed, and are pre-empted, saved, resumed and killed. -/
def Obligations.GraphSteps : Prop :=
  Sys2Proof.Claims.GraphLifeSteps ∧ Sys2Proof.Claims.GraphControlSteps

/-- Stages are governed and deliver items, and a core's actor moves. -/
def Obligations.StageAndMoveSteps : Prop :=
  Sys2Proof.Claims.StageSteps ∧ Sys2Proof.Claims.MoveSteps

/-- A wick that runs out snuffs its core, and a region without progress and with a blocked port freezes. -/
def Obligations.SnuffAndHangSteps : Prop :=
  Sys2Proof.Claims.SnuffAndHangSteps

/-- Test leases are requested, proposed, started, tested, ended and retired. -/
def Obligations.LeaseSteps : Prop :=
  Sys2Proof.Claims.LeaseRequests ∧ Sys2Proof.Claims.LeaseSteps

/-- The requests of a host-service core and the transfer engine complete with their effect. -/
def Obligations.HostSteps : Prop :=
  Sys2Proof.Claims.HostRequests ∧ Sys2Proof.Claims.MonitorAndLaunchRequests

/-- Clusters quiesce, save and wake, and the module boots, parks and governs its power. -/
def Obligations.PowerSteps : Prop :=
  Sys2Proof.Claims.ClusterSteps ∧ Sys2Proof.Claims.ModuleSteps

/-- What every instruction does before its own effect: no activation, PRIV, WINDOW, its guard, its tokens and its pending registers. -/
def Obligations.IssueOutcomes : Prop :=
  Sys2Proof.Claims.IssueOutcomes

/-- A relative operand names the register its index and offset give, or raises WINDOW with nothing committed. -/
def Obligations.RelativeOperands : Prop :=
  Sys2Proof.Claims.RelativeOperands

/-- Taking a fault saves the activation in a full record and frees the core, or halts it until it can. -/
def Obligations.TakingAFault : Prop :=
  Sys2Proof.Claims.TakingAFault

/-- g0 reads 0 and p0 all ones, and writes to them are discarded. -/
def Obligations.HardwiredRegisters : Prop :=
  Sys2Proof.Claims.HardwiredRegisters

/-- The frame of the scalar instructions: only the destination register, the pc and the waiting note change, and no byte of memory. -/
def Obligations.ScalarFrame : Prop :=
  Sys2Proof.Claims.ScalarFrame

/-- The reset state has the nonzero values the spec gives, and memory in its one form. -/
def Obligations.ResetValues : Prop :=
  Sys2Proof.Claims.ResetValues

/-- Words written out from the encodings decode to the instructions they stand for, and a reserved bit is refused. -/
def Obligations.DecodedWords : Prop :=
  Sys2Proof.Claims.DecodedWords

/-- Decoding the encoding of a well-formed instruction gives it back, for every instruction and every operand. -/
def Obligations.DecodeAfterEncode : Prop :=
  Sys2Proof.Claims.DecodeAfterEncode

/-- What decodes is well formed and encodes to the parcels it was read from. -/
def Obligations.DecodingIsExact : Prop :=
  Sys2Proof.Claims.DecodingIsExact

/-- A step runs the instruction that the parcels at the pc decode to, or takes ILLEGAL. -/
def Obligations.StepRunsDecoded : Prop :=
  Sys2Proof.Claims.StepRunsDecoded

/-- The local stores complete and keep the memory in its one form. -/
def Obligations.LocalStoresKeepTheForm : Prop :=
  Sys2Proof.Claims.LocalStoresKeepTheForm

/-- A read of a word with an error beyond correction raises ECCFATAL, is refused, is answered with status 1, or fails a walk. -/
def Obligations.UncorrectableErrors : Prop :=
  Sys2Proof.Claims.UncorrectableErrors
end

