-- ==== Sys2Proof/Laws/Dispatch.lean ====
section
/-! SUPPORT. What exec answers for each instruction: its meaning. Proofs rewrite with these and never unfold the dispatch. -/
namespace Sys2Proof.Machine
open Sys2Proof

@[simp] theorem exec_add (x : Long) (s : State) : exec (.add x) s = execAdd x s := rfl
@[simp] theorem exec_addL32A (x : ShortA) (s : State) : exec (.addL32A x) s = execAddL32A x s := rfl
@[simp] theorem exec_addI64L32B (x : ShortB) (s : State) : exec (.addI64L32B x) s = execAddI64L32B x s := rfl
@[simp] theorem exec_addI32L32B (x : ShortB) (s : State) : exec (.addI32L32B x) s = execAddI32L32B x s := rfl
@[simp] theorem exec_addc (x : Long) (s : State) : exec (.addc x) s = execAddc x s := rfl
@[simp] theorem exec_addcL32A (x : ShortA) (s : State) : exec (.addcL32A x) s = execAddcL32A x s := rfl
@[simp] theorem exec_sub (x : Long) (s : State) : exec (.sub x) s = execSub x s := rfl
@[simp] theorem exec_subL32A (x : ShortA) (s : State) : exec (.subL32A x) s = execSubL32A x s := rfl
@[simp] theorem exec_subb (x : Long) (s : State) : exec (.subb x) s = execSubb x s := rfl
@[simp] theorem exec_subbL32A (x : ShortA) (s : State) : exec (.subbL32A x) s = execSubbL32A x s := rfl
@[simp] theorem exec_mul (x : Long) (s : State) : exec (.mul x) s = execMul x s := rfl
@[simp] theorem exec_mulL32A (x : ShortA) (s : State) : exec (.mulL32A x) s = execMulL32A x s := rfl
@[simp] theorem exec_mulI64L32B (x : ShortB) (s : State) : exec (.mulI64L32B x) s = execMulI64L32B x s := rfl
@[simp] theorem exec_mulI32L32B (x : ShortB) (s : State) : exec (.mulI32L32B x) s = execMulI32L32B x s := rfl
@[simp] theorem exec_mulh (x : Long) (s : State) : exec (.mulh x) s = execMulh x s := rfl
@[simp] theorem exec_mulhL32A (x : ShortA) (s : State) : exec (.mulhL32A x) s = execMulhL32A x s := rfl
@[simp] theorem exec_mulhn (x : Long) (s : State) : exec (.mulhn x) s = execMulhn x s := rfl
@[simp] theorem exec_mulhnL32A (x : ShortA) (s : State) : exec (.mulhnL32A x) s = execMulhnL32A x s := rfl
@[simp] theorem exec_div (x : Long) (s : State) : exec (.div x) s = execDiv x s := rfl
@[simp] theorem exec_divL32A (x : ShortA) (s : State) : exec (.divL32A x) s = execDivL32A x s := rfl
@[simp] theorem exec_divn (x : Long) (s : State) : exec (.divn x) s = execDivn x s := rfl
@[simp] theorem exec_divnL32A (x : ShortA) (s : State) : exec (.divnL32A x) s = execDivnL32A x s := rfl
@[simp] theorem exec_rem (x : Long) (s : State) : exec (.rem x) s = execRem x s := rfl
@[simp] theorem exec_remL32A (x : ShortA) (s : State) : exec (.remL32A x) s = execRemL32A x s := rfl
@[simp] theorem exec_remn (x : Long) (s : State) : exec (.remn x) s = execRemn x s := rfl
@[simp] theorem exec_remnL32A (x : ShortA) (s : State) : exec (.remnL32A x) s = execRemnL32A x s := rfl
@[simp] theorem exec_and (x : Long) (s : State) : exec (.and x) s = execAnd x s := rfl
@[simp] theorem exec_andL32A (x : ShortA) (s : State) : exec (.andL32A x) s = execAndL32A x s := rfl
@[simp] theorem exec_andN64L32B (x : ShortB) (s : State) : exec (.andN64L32B x) s = execAndN64L32B x s := rfl
@[simp] theorem exec_andn (x : Long) (s : State) : exec (.andn x) s = execAndn x s := rfl
@[simp] theorem exec_andnL32A (x : ShortA) (s : State) : exec (.andnL32A x) s = execAndnL32A x s := rfl
@[simp] theorem exec_andnN64L32B (x : ShortB) (s : State) : exec (.andnN64L32B x) s = execAndnN64L32B x s := rfl
@[simp] theorem exec_or (x : Long) (s : State) : exec (.or x) s = execOr x s := rfl
@[simp] theorem exec_orL32A (x : ShortA) (s : State) : exec (.orL32A x) s = execOrL32A x s := rfl
@[simp] theorem exec_orN64L32B (x : ShortB) (s : State) : exec (.orN64L32B x) s = execOrN64L32B x s := rfl
@[simp] theorem exec_xor (x : Long) (s : State) : exec (.xor x) s = execXor x s := rfl
@[simp] theorem exec_xorL32A (x : ShortA) (s : State) : exec (.xorL32A x) s = execXorL32A x s := rfl
@[simp] theorem exec_xorN64L32B (x : ShortB) (s : State) : exec (.xorN64L32B x) s = execXorN64L32B x s := rfl
@[simp] theorem exec_shl (x : Long) (s : State) : exec (.shl x) s = execShl x s := rfl
@[simp] theorem exec_shlL32A (x : ShortA) (s : State) : exec (.shlL32A x) s = execShlL32A x s := rfl
@[simp] theorem exec_shlN64L32B (x : ShortB) (s : State) : exec (.shlN64L32B x) s = execShlN64L32B x s := rfl
@[simp] theorem exec_shr (x : Long) (s : State) : exec (.shr x) s = execShr x s := rfl
@[simp] theorem exec_shrL32A (x : ShortA) (s : State) : exec (.shrL32A x) s = execShrL32A x s := rfl
@[simp] theorem exec_shrN64L32B (x : ShortB) (s : State) : exec (.shrN64L32B x) s = execShrN64L32B x s := rfl
@[simp] theorem exec_sha (x : Long) (s : State) : exec (.sha x) s = execSha x s := rfl
@[simp] theorem exec_shaL32A (x : ShortA) (s : State) : exec (.shaL32A x) s = execShaL32A x s := rfl
@[simp] theorem exec_shaI64L32B (x : ShortB) (s : State) : exec (.shaI64L32B x) s = execShaI64L32B x s := rfl
@[simp] theorem exec_rol (x : Long) (s : State) : exec (.rol x) s = execRol x s := rfl
@[simp] theorem exec_rolL32A (x : ShortA) (s : State) : exec (.rolL32A x) s = execRolL32A x s := rfl
@[simp] theorem exec_rotr (x : Long) (s : State) : exec (.rotr x) s = execRotr x s := rfl
@[simp] theorem exec_rotrL32A (x : ShortA) (s : State) : exec (.rotrL32A x) s = execRotrL32A x s := rfl
@[simp] theorem exec_rotrN64L32B (x : ShortB) (s : State) : exec (.rotrN64L32B x) s = execRotrN64L32B x s := rfl
@[simp] theorem exec_clz (x : Long) (s : State) : exec (.clz x) s = execClz x s := rfl
@[simp] theorem exec_clzL32A (x : ShortA) (s : State) : exec (.clzL32A x) s = execClzL32A x s := rfl
@[simp] theorem exec_ctz (x : Long) (s : State) : exec (.ctz x) s = execCtz x s := rfl
@[simp] theorem exec_ctzL32A (x : ShortA) (s : State) : exec (.ctzL32A x) s = execCtzL32A x s := rfl
@[simp] theorem exec_popc (x : Long) (s : State) : exec (.popc x) s = execPopc x s := rfl
@[simp] theorem exec_popcL32A (x : ShortA) (s : State) : exec (.popcL32A x) s = execPopcL32A x s := rfl
@[simp] theorem exec_brev (x : Long) (s : State) : exec (.brev x) s = execBrev x s := rfl
@[simp] theorem exec_brevL32A (x : ShortA) (s : State) : exec (.brevL32A x) s = execBrevL32A x s := rfl
@[simp] theorem exec_bswap (x : Long) (s : State) : exec (.bswap x) s = execBswap x s := rfl
@[simp] theorem exec_bswapL32A (x : ShortA) (s : State) : exec (.bswapL32A x) s = execBswapL32A x s := rfl
@[simp] theorem exec_min (x : Long) (s : State) : exec (.min x) s = execMin x s := rfl
@[simp] theorem exec_minL32A (x : ShortA) (s : State) : exec (.minL32A x) s = execMinL32A x s := rfl
@[simp] theorem exec_minI64L32B (x : ShortB) (s : State) : exec (.minI64L32B x) s = execMinI64L32B x s := rfl
@[simp] theorem exec_max (x : Long) (s : State) : exec (.max x) s = execMax x s := rfl
@[simp] theorem exec_maxL32A (x : ShortA) (s : State) : exec (.maxL32A x) s = execMaxL32A x s := rfl
@[simp] theorem exec_maxI64L32B (x : ShortB) (s : State) : exec (.maxI64L32B x) s = execMaxI64L32B x s := rfl
@[simp] theorem exec_minn (x : Long) (s : State) : exec (.minn x) s = execMinn x s := rfl
@[simp] theorem exec_minnL32A (x : ShortA) (s : State) : exec (.minnL32A x) s = execMinnL32A x s := rfl
@[simp] theorem exec_minnN64L32B (x : ShortB) (s : State) : exec (.minnN64L32B x) s = execMinnN64L32B x s := rfl
@[simp] theorem exec_maxn (x : Long) (s : State) : exec (.maxn x) s = execMaxn x s := rfl
@[simp] theorem exec_maxnL32A (x : ShortA) (s : State) : exec (.maxnL32A x) s = execMaxnL32A x s := rfl
@[simp] theorem exec_maxnN64L32B (x : ShortB) (s : State) : exec (.maxnN64L32B x) s = execMaxnN64L32B x s := rfl
@[simp] theorem exec_abs (x : Long) (s : State) : exec (.abs x) s = execAbs x s := rfl
@[simp] theorem exec_absL32A (x : ShortA) (s : State) : exec (.absL32A x) s = execAbsL32A x s := rfl
@[simp] theorem exec_bfx (x : Long) (s : State) : exec (.bfx x) s = execBfx x s := rfl
@[simp] theorem exec_bfxN64L32B (x : ShortB) (s : State) : exec (.bfxN64L32B x) s = execBfxN64L32B x s := rfl
@[simp] theorem exec_bfxI64L32B (x : ShortB) (s : State) : exec (.bfxI64L32B x) s = execBfxI64L32B x s := rfl
@[simp] theorem exec_bfi (x : Long) (s : State) : exec (.bfi x) s = execBfi x s := rfl
@[simp] theorem exec_sel (x : Long) (s : State) : exec (.sel x) s = execSel x s := rfl
@[simp] theorem exec_cmp (x : Long) (s : State) : exec (.cmp x) s = execCmp x s := rfl
@[simp] theorem exec_cmpEqI64L32B (x : ShortB) (s : State) : exec (.cmpEqI64L32B x) s = execCmpEqI64L32B x s := rfl
@[simp] theorem exec_cmpNeI64L32B (x : ShortB) (s : State) : exec (.cmpNeI64L32B x) s = execCmpNeI64L32B x s := rfl
@[simp] theorem exec_cmpLtI64L32B (x : ShortB) (s : State) : exec (.cmpLtI64L32B x) s = execCmpLtI64L32B x s := rfl
@[simp] theorem exec_cmpLeI64L32B (x : ShortB) (s : State) : exec (.cmpLeI64L32B x) s = execCmpLeI64L32B x s := rfl
@[simp] theorem exec_cmpGtI64L32B (x : ShortB) (s : State) : exec (.cmpGtI64L32B x) s = execCmpGtI64L32B x s := rfl
@[simp] theorem exec_cmpGeI64L32B (x : ShortB) (s : State) : exec (.cmpGeI64L32B x) s = execCmpGeI64L32B x s := rfl
@[simp] theorem exec_cmpLtN64L32B (x : ShortB) (s : State) : exec (.cmpLtN64L32B x) s = execCmpLtN64L32B x s := rfl
@[simp] theorem exec_cmpLeN64L32B (x : ShortB) (s : State) : exec (.cmpLeN64L32B x) s = execCmpLeN64L32B x s := rfl
@[simp] theorem exec_cmpGtN64L32B (x : ShortB) (s : State) : exec (.cmpGtN64L32B x) s = execCmpGtN64L32B x s := rfl
@[simp] theorem exec_cmpGeN64L32B (x : ShortB) (s : State) : exec (.cmpGeN64L32B x) s = execCmpGeN64L32B x s := rfl
@[simp] theorem exec_mov (x : Long) (s : State) : exec (.mov x) s = execMov x s := rfl
@[simp] theorem exec_movL32A (x : ShortA) (s : State) : exec (.movL32A x) s = execMovL32A x s := rfl
@[simp] theorem exec_movRelSrcL32B (x : ShortB) (s : State) : exec (.movRelSrcL32B x) s = execMovRelSrcL32B x s := rfl
@[simp] theorem exec_movRelDstL32B (x : ShortB) (s : State) : exec (.movRelDstL32B x) s = execMovRelDstL32B x s := rfl
@[simp] theorem exec_li (x : Long) (s : State) : exec (.li x) s = execLi x s := rfl
@[simp] theorem exec_liI64L32B (x : ShortB) (s : State) : exec (.liI64L32B x) s = execLiI64L32B x s := rfl
@[simp] theorem exec_lih (x : Long) (s : State) : exec (.lih x) s = execLih x s := rfl
@[simp] theorem exec_lihL32B (x : ShortB) (s : State) : exec (.lihL32B x) s = execLihL32B x s := rfl
@[simp] theorem exec_fadd (x : Long) (s : State) : exec (.fadd x) s = execFadd x s := rfl
@[simp] theorem exec_faddL32A (x : ShortA) (s : State) : exec (.faddL32A x) s = execFaddL32A x s := rfl
@[simp] theorem exec_fsub (x : Long) (s : State) : exec (.fsub x) s = execFsub x s := rfl
@[simp] theorem exec_fsubL32A (x : ShortA) (s : State) : exec (.fsubL32A x) s = execFsubL32A x s := rfl
@[simp] theorem exec_fmul (x : Long) (s : State) : exec (.fmul x) s = execFmul x s := rfl
@[simp] theorem exec_fmulL32A (x : ShortA) (s : State) : exec (.fmulL32A x) s = execFmulL32A x s := rfl
@[simp] theorem exec_ffma (x : Long) (s : State) : exec (.ffma x) s = execFfma x s := rfl
@[simp] theorem exec_ffms (x : Long) (s : State) : exec (.ffms x) s = execFfms x s := rfl
@[simp] theorem exec_fdiv (x : Long) (s : State) : exec (.fdiv x) s = execFdiv x s := rfl
@[simp] theorem exec_fdivL32A (x : ShortA) (s : State) : exec (.fdivL32A x) s = execFdivL32A x s := rfl
@[simp] theorem exec_fsqrt (x : Long) (s : State) : exec (.fsqrt x) s = execFsqrt x s := rfl
@[simp] theorem exec_fsqrtL32A (x : ShortA) (s : State) : exec (.fsqrtL32A x) s = execFsqrtL32A x s := rfl
@[simp] theorem exec_fmin (x : Long) (s : State) : exec (.fmin x) s = execFmin x s := rfl
@[simp] theorem exec_fminL32A (x : ShortA) (s : State) : exec (.fminL32A x) s = execFminL32A x s := rfl
@[simp] theorem exec_fmax (x : Long) (s : State) : exec (.fmax x) s = execFmax x s := rfl
@[simp] theorem exec_fmaxL32A (x : ShortA) (s : State) : exec (.fmaxL32A x) s = execFmaxL32A x s := rfl
@[simp] theorem exec_fabs (x : Long) (s : State) : exec (.fabs x) s = execFabs x s := rfl
@[simp] theorem exec_fabsL32A (x : ShortA) (s : State) : exec (.fabsL32A x) s = execFabsL32A x s := rfl
@[simp] theorem exec_fneg (x : Long) (s : State) : exec (.fneg x) s = execFneg x s := rfl
@[simp] theorem exec_fnegL32A (x : ShortA) (s : State) : exec (.fnegL32A x) s = execFnegL32A x s := rfl
@[simp] theorem exec_fcpys (x : Long) (s : State) : exec (.fcpys x) s = execFcpys x s := rfl
@[simp] theorem exec_fcpysL32A (x : ShortA) (s : State) : exec (.fcpysL32A x) s = execFcpysL32A x s := rfl
@[simp] theorem exec_fcmp (x : Long) (s : State) : exec (.fcmp x) s = execFcmp x s := rfl
@[simp] theorem exec_fclass (x : Long) (s : State) : exec (.fclass x) s = execFclass x s := rfl
@[simp] theorem exec_fclassL32A (x : ShortA) (s : State) : exec (.fclassL32A x) s = execFclassL32A x s := rfl
@[simp] theorem exec_fcvt (x : Long) (s : State) : exec (.fcvt x) s = execFcvt x s := rfl
@[simp] theorem exec_fcvti (x : Long) (s : State) : exec (.fcvti x) s = execFcvti x s := rfl
@[simp] theorem exec_icvtf (x : Long) (s : State) : exec (.icvtf x) s = execIcvtf x s := rfl
@[simp] theorem exec_frnd (x : Long) (s : State) : exec (.frnd x) s = execFrnd x s := rfl
@[simp] theorem exec_frndL32A (x : ShortA) (s : State) : exec (.frndL32A x) s = execFrndL32A x s := rfl
@[simp] theorem exec_br (x : Long) (s : State) : exec (.br x) s = execBr x s := rfl
@[simp] theorem exec_brL32B (x : ShortB) (s : State) : exec (.brL32B x) s = execBrL32B x s := rfl
@[simp] theorem exec_brNotL32B (x : ShortB) (s : State) : exec (.brNotL32B x) s = execBrNotL32B x s := rfl
@[simp] theorem exec_jmp (x : Long) (s : State) : exec (.jmp x) s = execJmp x s := rfl
@[simp] theorem exec_jmpL32A (x : ShortA) (s : State) : exec (.jmpL32A x) s = execJmpL32A x s := rfl
@[simp] theorem exec_jmpi (x : Long) (s : State) : exec (.jmpi x) s = execJmpi x s := rfl
@[simp] theorem exec_jmpiL32A (x : ShortA) (s : State) : exec (.jmpiL32A x) s = execJmpiL32A x s := rfl
@[simp] theorem exec_call (x : Long) (s : State) : exec (.call x) s = execCall x s := rfl
@[simp] theorem exec_callL32B (x : ShortB) (s : State) : exec (.callL32B x) s = execCallL32B x s := rfl
@[simp] theorem exec_calli (x : Long) (s : State) : exec (.calli x) s = execCalli x s := rfl
@[simp] theorem exec_calliL32A (x : ShortA) (s : State) : exec (.calliL32A x) s = execCalliL32A x s := rfl
@[simp] theorem exec_ret (x : Long) (s : State) : exec (.ret x) s = execRet x s := rfl
@[simp] theorem exec_retL32A (x : ShortA) (s : State) : exec (.retL32A x) s = execRetL32A x s := rfl
@[simp] theorem exec_loops (x : Long) (s : State) : exec (.loops x) s = execLoops x s := rfl
@[simp] theorem exec_endI (x : Long) (s : State) : exec (.endI x) s = execEnd x s := rfl
@[simp] theorem exec_endL32A (x : ShortA) (s : State) : exec (.endL32A x) s = execEndL32A x s := rfl
@[simp] theorem exec_nop (x : Long) (s : State) : exec (.nop x) s = execNop x s := rfl
@[simp] theorem exec_nopL32A (x : ShortA) (s : State) : exec (.nopL32A x) s = execNopL32A x s := rfl
@[simp] theorem exec_gang (x : Long) (s : State) : exec (.gang x) s = execGang x s := rfl
@[simp] theorem exec_ungang (x : Long) (s : State) : exec (.ungang x) s = execUngang x s := rfl
@[simp] theorem exec_ungangL32A (x : ShortA) (s : State) : exec (.ungangL32A x) s = execUngangL32A x s := rfl
@[simp] theorem exec_rejoin (x : Long) (s : State) : exec (.rejoin x) s = execRejoin x s := rfl
@[simp] theorem exec_rejoinL32A (x : ShortA) (s : State) : exec (.rejoinL32A x) s = execRejoinL32A x s := rfl
@[simp] theorem exec_pand (x : Long) (s : State) : exec (.pand x) s = execPand x s := rfl
@[simp] theorem exec_pandL32A (x : ShortA) (s : State) : exec (.pandL32A x) s = execPandL32A x s := rfl
@[simp] theorem exec_por (x : Long) (s : State) : exec (.por x) s = execPor x s := rfl
@[simp] theorem exec_porL32A (x : ShortA) (s : State) : exec (.porL32A x) s = execPorL32A x s := rfl
@[simp] theorem exec_pxor (x : Long) (s : State) : exec (.pxor x) s = execPxor x s := rfl
@[simp] theorem exec_pxorL32A (x : ShortA) (s : State) : exec (.pxorL32A x) s = execPxorL32A x s := rfl
@[simp] theorem exec_pnot (x : Long) (s : State) : exec (.pnot x) s = execPnot x s := rfl
@[simp] theorem exec_pnotL32A (x : ShortA) (s : State) : exec (.pnotL32A x) s = execPnotL32A x s := rfl
@[simp] theorem exec_pmov (x : Long) (s : State) : exec (.pmov x) s = execPmov x s := rfl
@[simp] theorem exec_pmovL32A (x : ShortA) (s : State) : exec (.pmovL32A x) s = execPmovL32A x s := rfl
@[simp] theorem exec_pmovFromG (x : Long) (s : State) : exec (.pmovFromG x) s = execPmovFromG x s := rfl
@[simp] theorem exec_pmovFromGL32A (x : ShortA) (s : State) : exec (.pmovFromGL32A x) s = execPmovFromGL32A x s := rfl
@[simp] theorem exec_pmovToG (x : Long) (s : State) : exec (.pmovToG x) s = execPmovToG x s := rfl
@[simp] theorem exec_pmovToGL32A (x : ShortA) (s : State) : exec (.pmovToGL32A x) s = execPmovToGL32A x s := rfl
@[simp] theorem exec_pcnt (x : Long) (s : State) : exec (.pcnt x) s = execPcnt x s := rfl
@[simp] theorem exec_pcntL32A (x : ShortA) (s : State) : exec (.pcntL32A x) s = execPcntL32A x s := rfl
@[simp] theorem exec_qinc (x : Long) (s : State) : exec (.qinc x) s = execQinc x s := rfl
@[simp] theorem exec_qincL32A (x : ShortA) (s : State) : exec (.qincL32A x) s = execQincL32A x s := rfl
@[simp] theorem exec_qadd (x : Long) (s : State) : exec (.qadd x) s = execQadd x s := rfl
@[simp] theorem exec_qaddL32B (x : ShortB) (s : State) : exec (.qaddL32B x) s = execQaddL32B x s := rfl
@[simp] theorem exec_qrd (x : Long) (s : State) : exec (.qrd x) s = execQrd x s := rfl
@[simp] theorem exec_qpost (x : Long) (s : State) : exec (.qpost x) s = execQpost x s := rfl
@[simp] theorem exec_waitq (x : Long) (s : State) : exec (.waitq x) s = execWaitq x s := rfl
@[simp] theorem exec_waitb (x : Long) (s : State) : exec (.waitb x) s = execWaitb x s := rfl
@[simp] theorem exec_waitvis (x : Long) (s : State) : exec (.waitvis x) s = execWaitvis x s := rfl
@[simp] theorem exec_succhint (x : Long) (s : State) : exec (.succhint x) s = execSucchint x s := rfl
@[simp] theorem exec_succhintL32A (x : ShortA) (s : State) : exec (.succhintL32A x) s = execSucchintL32A x s := rfl
@[simp] theorem exec_hwaitf (x : Long) (s : State) : exec (.hwaitf x) s = execHwaitf x s := rfl
@[simp] theorem exec_hwaitfL32B (x : ShortB) (s : State) : exec (.hwaitfL32B x) s = execHwaitfL32B x s := rfl
@[simp] theorem exec_hwaite (x : Long) (s : State) : exec (.hwaite x) s = execHwaite x s := rfl
@[simp] theorem exec_hwaiteL32B (x : ShortB) (s : State) : exec (.hwaiteL32B x) s = execHwaiteL32B x s := rfl
@[simp] theorem exec_hld (x : Long) (s : State) : exec (.hld x) s = execHld x s := rfl
@[simp] theorem exec_hst (x : Long) (s : State) : exec (.hst x) s = execHst x s := rfl
@[simp] theorem exec_hadvc (x : Long) (s : State) : exec (.hadvc x) s = execHadvc x s := rfl
@[simp] theorem exec_hadvcL32B (x : ShortB) (s : State) : exec (.hadvcL32B x) s = execHadvcL32B x s := rfl
@[simp] theorem exec_hadvp (x : Long) (s : State) : exec (.hadvp x) s = execHadvp x s := rfl
@[simp] theorem exec_hadvpL32B (x : ShortB) (s : State) : exec (.hadvpL32B x) s = execHadvpL32B x s := rfl
@[simp] theorem exec_heos (x : Long) (s : State) : exec (.heos x) s = execHeos x s := rfl
@[simp] theorem exec_hstat (x : Long) (s : State) : exec (.hstat x) s = execHstat x s := rfl
@[simp] theorem exec_hstatL32A (x : ShortA) (s : State) : exec (.hstatL32A x) s = execHstatL32A x s := rfl
@[simp] theorem exec_send (x : Long) (s : State) : exec (.send x) s = execSend x s := rfl
@[simp] theorem exec_sendq (x : Long) (s : State) : exec (.sendq x) s = execSendq x s := rfl
@[simp] theorem exec_cred (x : Long) (s : State) : exec (.cred x) s = execCred x s := rfl
@[simp] theorem exec_cderive (x : Long) (s : State) : exec (.cderive x) s = execCderive x s := rfl
@[simp] theorem exec_cperm (x : Long) (s : State) : exec (.cperm x) s = execCperm x s := rfl
@[simp] theorem exec_cseal (x : Long) (s : State) : exec (.cseal x) s = execCseal x s := rfl
@[simp] theorem exec_csealL32A (x : ShortA) (s : State) : exec (.csealL32A x) s = execCsealL32A x s := rfl
@[simp] theorem exec_cunseal (x : Long) (s : State) : exec (.cunseal x) s = execCunseal x s := rfl
@[simp] theorem exec_cunsealL32A (x : ShortA) (s : State) : exec (.cunsealL32A x) s = execCunsealL32A x s := rfl
@[simp] theorem exec_cbase (x : Long) (s : State) : exec (.cbase x) s = execCbase x s := rfl
@[simp] theorem exec_cbaseL32A (x : ShortA) (s : State) : exec (.cbaseL32A x) s = execCbaseL32A x s := rfl
@[simp] theorem exec_clen (x : Long) (s : State) : exec (.clen x) s = execClen x s := rfl
@[simp] theorem exec_clenL32A (x : ShortA) (s : State) : exec (.clenL32A x) s = execClenL32A x s := rfl
@[simp] theorem exec_cperms (x : Long) (s : State) : exec (.cperms x) s = execCperms x s := rfl
@[simp] theorem exec_cpermsL32A (x : ShortA) (s : State) : exec (.cpermsL32A x) s = execCpermsL32A x s := rfl
@[simp] theorem exec_ctype (x : Long) (s : State) : exec (.ctype x) s = execCtype x s := rfl
@[simp] theorem exec_ctypeL32A (x : ShortA) (s : State) : exec (.ctypeL32A x) s = execCtypeL32A x s := rfl
@[simp] theorem exec_ctag (x : Long) (s : State) : exec (.ctag x) s = execCtag x s := rfl
@[simp] theorem exec_ctagL32A (x : ShortA) (s : State) : exec (.ctagL32A x) s = execCtagL32A x s := rfl
@[simp] theorem exec_cclr (x : Long) (s : State) : exec (.cclr x) s = execCclr x s := rfl
@[simp] theorem exec_cclrL32A (x : ShortA) (s : State) : exec (.cclrL32A x) s = execCclrL32A x s := rfl
@[simp] theorem exec_cmov (x : Long) (s : State) : exec (.cmov x) s = execCmov x s := rfl
@[simp] theorem exec_cmovL32A (x : ShortA) (s : State) : exec (.cmovL32A x) s = execCmovL32A x s := rfl
@[simp] theorem exec_cldc (x : Long) (s : State) : exec (.cldc x) s = execCldc x s := rfl
@[simp] theorem exec_cldcL32B (x : ShortB) (s : State) : exec (.cldcL32B x) s = execCldcL32B x s := rfl
@[simp] theorem exec_cstc (x : Long) (s : State) : exec (.cstc x) s = execCstc x s := rfl
@[simp] theorem exec_cstcL32B (x : ShortB) (s : State) : exec (.cstcL32B x) s = execCstcL32B x s := rfl
@[simp] theorem exec_cchk (x : Long) (s : State) : exec (.cchk x) s = execCchk x s := rfl
@[simp] theorem exec_trap (x : Long) (s : State) : exec (.trap x) s = execTrap x s := rfl
@[simp] theorem exec_trapL32B (x : ShortB) (s : State) : exec (.trapL32B x) s = execTrapL32B x s := rfl
@[simp] theorem exec_wick (x : Long) (s : State) : exec (.wick x) s = execWick x s := rfl
@[simp] theorem exec_wickL32A (x : ShortA) (s : State) : exec (.wickL32A x) s = execWickL32A x s := rfl
@[simp] theorem exec_wid (x : Long) (s : State) : exec (.wid x) s = execWid x s := rfl
@[simp] theorem exec_widL32B (x : ShortB) (s : State) : exec (.widL32B x) s = execWidL32B x s := rfl
@[simp] theorem exec_who (x : Long) (s : State) : exec (.who x) s = execWho x s := rfl
@[simp] theorem exec_query (x : Long) (s : State) : exec (.query x) s = execQuery x s := rfl
@[simp] theorem exec_queryL32A (x : ShortA) (s : State) : exec (.queryL32A x) s = execQueryL32A x s := rfl
@[simp] theorem exec_time (x : Long) (s : State) : exec (.time x) s = execTime x s := rfl
@[simp] theorem exec_timeL32A (x : ShortA) (s : State) : exec (.timeL32A x) s = execTimeL32A x s := rfl
@[simp] theorem exec_timeEnergy (x : Long) (s : State) : exec (.timeEnergy x) s = execTimeEnergy x s := rfl
@[simp] theorem exec_timeEnergyL32A (x : ShortA) (s : State) : exec (.timeEnergyL32A x) s = execTimeEnergyL32A x s := rfl
@[simp] theorem exec_sysrd (x : Long) (s : State) : exec (.sysrd x) s = execSysrd x s := rfl
@[simp] theorem exec_syswr (x : Long) (s : State) : exec (.syswr x) s = execSyswr x s := rfl
@[simp] theorem exec_yield (x : Long) (s : State) : exec (.yield x) s = execYield x s := rfl
@[simp] theorem exec_yieldL32A (x : ShortA) (s : State) : exec (.yieldL32A x) s = execYieldL32A x s := rfl
@[simp] theorem exec_gate (x : Long) (s : State) : exec (.gate x) s = execGate x s := rfl
@[simp] theorem exec_snuff (x : Long) (s : State) : exec (.snuff x) s = execSnuff x s := rfl
@[simp] theorem exec_nameset (x : Long) (s : State) : exec (.nameset x) s = execNameset x s := rfl
@[simp] theorem exec_leaseack (x : Long) (s : State) : exec (.leaseack x) s = execLeaseack x s := rfl
@[simp] theorem exec_fresume (x : Long) (s : State) : exec (.fresume x) s = execFresume x s := rfl
@[simp] theorem exec_fresumeValue (x : Long) (s : State) : exec (.fresumeValue x) s = execFresumeValue x s := rfl
@[simp] theorem exec_fkill (x : Long) (s : State) : exec (.fkill x) s = execFkill x s := rfl
@[simp] theorem exec_ld (x : Long) (s : State) : exec (.ld x) s = execLd x s := rfl
@[simp] theorem exec_ldN64L32B (x : ShortB) (s : State) : exec (.ldN64L32B x) s = execLdN64L32B x s := rfl
@[simp] theorem exec_ldI32L32B (x : ShortB) (s : State) : exec (.ldI32L32B x) s = execLdI32L32B x s := rfl
@[simp] theorem exec_ldN32L32B (x : ShortB) (s : State) : exec (.ldN32L32B x) s = execLdN32L32B x s := rfl
@[simp] theorem exec_ldI16L32B (x : ShortB) (s : State) : exec (.ldI16L32B x) s = execLdI16L32B x s := rfl
@[simp] theorem exec_ldN16L32B (x : ShortB) (s : State) : exec (.ldN16L32B x) s = execLdN16L32B x s := rfl
@[simp] theorem exec_ldI8L32B (x : ShortB) (s : State) : exec (.ldI8L32B x) s = execLdI8L32B x s := rfl
@[simp] theorem exec_ldN8L32B (x : ShortB) (s : State) : exec (.ldN8L32B x) s = execLdN8L32B x s := rfl
@[simp] theorem exec_st (x : Long) (s : State) : exec (.st x) s = execSt x s := rfl
@[simp] theorem exec_stN64L32B (x : ShortB) (s : State) : exec (.stN64L32B x) s = execStN64L32B x s := rfl
@[simp] theorem exec_stN32L32B (x : ShortB) (s : State) : exec (.stN32L32B x) s = execStN32L32B x s := rfl
@[simp] theorem exec_stN16L32B (x : ShortB) (s : State) : exec (.stN16L32B x) s = execStN16L32B x s := rfl
@[simp] theorem exec_stN8L32B (x : ShortB) (s : State) : exec (.stN8L32B x) s = execStN8L32B x s := rfl
@[simp] theorem exec_lda (x : Long) (s : State) : exec (.lda x) s = execLda x s := rfl
@[simp] theorem exec_stl (x : Long) (s : State) : exec (.stl x) s = execStl x s := rfl
@[simp] theorem exec_pf (x : Long) (s : State) : exec (.pf x) s = execPf x s := rfl
@[simp] theorem exec_pfL32B (x : ShortB) (s : State) : exec (.pfL32B x) s = execPfL32B x s := rfl
@[simp] theorem exec_aadd (x : Long) (s : State) : exec (.aadd x) s = execAadd x s := rfl
@[simp] theorem exec_amin (x : Long) (s : State) : exec (.amin x) s = execAmin x s := rfl
@[simp] theorem exec_amax (x : Long) (s : State) : exec (.amax x) s = execAmax x s := rfl
@[simp] theorem exec_aand (x : Long) (s : State) : exec (.aand x) s = execAand x s := rfl
@[simp] theorem exec_aor (x : Long) (s : State) : exec (.aor x) s = execAor x s := rfl
@[simp] theorem exec_axor (x : Long) (s : State) : exec (.axor x) s = execAxor x s := rfl
@[simp] theorem exec_aswp (x : Long) (s : State) : exec (.aswp x) s = execAswp x s := rfl
@[simp] theorem exec_acas (x : Long) (s : State) : exec (.acas x) s = execAcas x s := rfl
@[simp] theorem exec_aaddf (x : Long) (s : State) : exec (.aaddf x) s = execAaddf x s := rfl
@[simp] theorem exec_fence (x : Long) (s : State) : exec (.fence x) s = execFence x s := rfl
@[simp] theorem exec_ojoin (x : Long) (s : State) : exec (.ojoin x) s = execOjoin x s := rfl
@[simp] theorem exec_cpy (x : Long) (s : State) : exec (.cpy x) s = execCpy x s := rfl
@[simp] theorem exec_cpyHandle (x : Long) (s : State) : exec (.cpyHandle x) s = execCpyHandle x s := rfl
@[simp] theorem exec_cpy4 (x : Long) (s : State) : exec (.cpy4 x) s = execCpy4 x s := rfl
@[simp] theorem exec_cpyg (x : Long) (s : State) : exec (.cpyg x) s = execCpyg x s := rfl
@[simp] theorem exec_batch (x : Long) (s : State) : exec (.batch x) s = execBatch x s := rfl
@[simp] theorem exec_stcfg (x : Long) (s : State) : exec (.stcfg x) s = execStcfg x s := rfl
@[simp] theorem exec_sbufw (x : Long) (s : State) : exec (.sbufw x) s = execSbufw x s := rfl
@[simp] theorem exec_sbufset (x : Long) (s : State) : exec (.sbufset x) s = execSbufset x s := rfl
@[simp] theorem exec_splice (x : Long) (s : State) : exec (.splice x) s = execSplice x s := rfl
@[simp] theorem exec_drd (x : Long) (s : State) : exec (.drd x) s = execDrd x s := rfl
@[simp] theorem exec_dwr (x : Long) (s : State) : exec (.dwr x) s = execDwr x s := rfl
@[simp] theorem exec_dgath (x : Long) (s : State) : exec (.dgath x) s = execDgath x s := rfl
@[simp] theorem exec_flush (x : Long) (s : State) : exec (.flush x) s = execFlush x s := rfl
@[simp] theorem exec_rowopen (x : Long) (s : State) : exec (.rowopen x) s = execRowopen x s := rfl
@[simp] theorem exec_rowhold (x : Long) (s : State) : exec (.rowhold x) s = execRowhold x s := rfl
@[simp] theorem exec_rowrel (x : Long) (s : State) : exec (.rowrel x) s = execRowrel x s := rfl
@[simp] theorem exec_rowrd (x : Long) (s : State) : exec (.rowrd x) s = execRowrd x s := rfl
@[simp] theorem exec_rowrdv (x : Long) (s : State) : exec (.rowrdv x) s = execRowrdv x s := rfl
@[simp] theorem exec_rowwr (x : Long) (s : State) : exec (.rowwr x) s = execRowwr x s := rfl
@[simp] theorem exec_rowstat (x : Long) (s : State) : exec (.rowstat x) s = execRowstat x s := rfl
@[simp] theorem exec_scfg (x : Long) (s : State) : exec (.scfg x) s = execScfg x s := rfl
@[simp] theorem exec_sbind (x : Long) (s : State) : exec (.sbind x) s = execSbind x s := rfl
@[simp] theorem exec_sunbind (x : Long) (s : State) : exec (.sunbind x) s = execSunbind x s := rfl
@[simp] theorem exec_spredAttach (x : Long) (s : State) : exec (.spredAttach x) s = execSpredAttach x s := rfl
@[simp] theorem exec_spredRead (x : Long) (s : State) : exec (.spredRead x) s = execSpredRead x s := rfl
@[simp] theorem exec_spos (x : Long) (s : State) : exec (.spos x) s = execSpos x s := rfl
@[simp] theorem exec_vld (x : Long) (s : State) : exec (.vld x) s = execVld x s := rfl
@[simp] theorem exec_vldL32B (x : ShortB) (s : State) : exec (.vldL32B x) s = execVldL32B x s := rfl
@[simp] theorem exec_vst (x : Long) (s : State) : exec (.vst x) s = execVst x s := rfl
@[simp] theorem exec_vstL32B (x : ShortB) (s : State) : exec (.vstL32B x) s = execVstL32B x s := rfl
@[simp] theorem exec_vldg (x : Long) (s : State) : exec (.vldg x) s = execVldg x s := rfl
@[simp] theorem exec_vsts (x : Long) (s : State) : exec (.vsts x) s = execVsts x s := rfl
@[simp] theorem exec_vbcast (x : Long) (s : State) : exec (.vbcast x) s = execVbcast x s := rfl
@[simp] theorem exec_vmov (x : Long) (s : State) : exec (.vmov x) s = execVmov x s := rfl
@[simp] theorem exec_vmovmExtract (x : Long) (s : State) : exec (.vmovmExtract x) s = execVmovmExtract x s := rfl
@[simp] theorem exec_vmovmInsert (x : Long) (s : State) : exec (.vmovmInsert x) s = execVmovmInsert x s := rfl
@[simp] theorem exec_vperm (x : Long) (s : State) : exec (.vperm x) s = execVperm x s := rfl
@[simp] theorem exec_vslide (x : Long) (s : State) : exec (.vslide x) s = execVslide x s := rfl
@[simp] theorem exec_vadd (x : Long) (s : State) : exec (.vadd x) s = execVadd x s := rfl
@[simp] theorem exec_vsub (x : Long) (s : State) : exec (.vsub x) s = execVsub x s := rfl
@[simp] theorem exec_vmul (x : Long) (s : State) : exec (.vmul x) s = execVmul x s := rfl
@[simp] theorem exec_vfma (x : Long) (s : State) : exec (.vfma x) s = execVfma x s := rfl
@[simp] theorem exec_vmin (x : Long) (s : State) : exec (.vmin x) s = execVmin x s := rfl
@[simp] theorem exec_vmax (x : Long) (s : State) : exec (.vmax x) s = execVmax x s := rfl
@[simp] theorem exec_vabs (x : Long) (s : State) : exec (.vabs x) s = execVabs x s := rfl
@[simp] theorem exec_vneg (x : Long) (s : State) : exec (.vneg x) s = execVneg x s := rfl
@[simp] theorem exec_vdiv (x : Long) (s : State) : exec (.vdiv x) s = execVdiv x s := rfl
@[simp] theorem exec_vsqrt (x : Long) (s : State) : exec (.vsqrt x) s = execVsqrt x s := rfl
@[simp] theorem exec_vrcp (x : Long) (s : State) : exec (.vrcp x) s = execVrcp x s := rfl
@[simp] theorem exec_vrsqrt (x : Long) (s : State) : exec (.vrsqrt x) s = execVrsqrt x s := rfl
@[simp] theorem exec_vexp2 (x : Long) (s : State) : exec (.vexp2 x) s = execVexp2 x s := rfl
@[simp] theorem exec_vlog2 (x : Long) (s : State) : exec (.vlog2 x) s = execVlog2 x s := rfl
@[simp] theorem exec_vsin (x : Long) (s : State) : exec (.vsin x) s = execVsin x s := rfl
@[simp] theorem exec_vcos (x : Long) (s : State) : exec (.vcos x) s = execVcos x s := rfl
@[simp] theorem exec_vtanh (x : Long) (s : State) : exec (.vtanh x) s = execVtanh x s := rfl
@[simp] theorem exec_vand (x : Long) (s : State) : exec (.vand x) s = execVand x s := rfl
@[simp] theorem exec_vor (x : Long) (s : State) : exec (.vor x) s = execVor x s := rfl
@[simp] theorem exec_vxor (x : Long) (s : State) : exec (.vxor x) s = execVxor x s := rfl
@[simp] theorem exec_vshl (x : Long) (s : State) : exec (.vshl x) s = execVshl x s := rfl
@[simp] theorem exec_vshr (x : Long) (s : State) : exec (.vshr x) s = execVshr x s := rfl
@[simp] theorem exec_vsha (x : Long) (s : State) : exec (.vsha x) s = execVsha x s := rfl
@[simp] theorem exec_vcmp (x : Long) (s : State) : exec (.vcmp x) s = execVcmp x s := rfl
@[simp] theorem exec_vsel (x : Long) (s : State) : exec (.vsel x) s = execVsel x s := rfl
@[simp] theorem exec_vcvt (x : Long) (s : State) : exec (.vcvt x) s = execVcvt x s := rfl
@[simp] theorem exec_vpack (x : Long) (s : State) : exec (.vpack x) s = execVpack x s := rfl
@[simp] theorem exec_vunpack (x : Long) (s : State) : exec (.vunpack x) s = execVunpack x s := rfl
@[simp] theorem exec_vred (x : Long) (s : State) : exec (.vred x) s = execVred x s := rfl
@[simp] theorem exec_vscan (x : Long) (s : State) : exec (.vscan x) s = execVscan x s := rfl
@[simp] theorem exec_vdot (x : Long) (s : State) : exec (.vdot x) s = execVdot x s := rfl
@[simp] theorem exec_mzero (x : Long) (s : State) : exec (.mzero x) s = execMzero x s := rfl
@[simp] theorem exec_mma (x : Long) (s : State) : exec (.mma x) s = execMma x s := rfl
@[simp] theorem exec_mmaq (x : Long) (s : State) : exec (.mmaq x) s = execMmaq x s := rfl
@[simp] theorem exec_mmad (x : Long) (s : State) : exec (.mmad x) s = execMmad x s := rfl
@[simp] theorem exec_mread (x : Long) (s : State) : exec (.mread x) s = execMread x s := rfl
@[simp] theorem exec_mreadk (x : Long) (s : State) : exec (.mreadk x) s = execMreadk x s := rfl
@[simp] theorem exec_macc (x : Long) (s : State) : exec (.macc x) s = execMacc x s := rfl
@[simp] theorem exec_maccMov (x : Long) (s : State) : exec (.maccMov x) s = execMaccMov x s := rfl
@[simp] theorem exec_mstat (x : Long) (s : State) : exec (.mstat x) s = execMstat x s := rfl
@[simp] theorem exec_mmode (x : Long) (s : State) : exec (.mmode x) s = execMmode x s := rfl
@[simp] theorem exec_rjoin (x : Long) (s : State) : exec (.rjoin x) s = execRjoin x s := rfl
@[simp] theorem exec_rleave (x : Long) (s : State) : exec (.rleave x) s = execRleave x s := rfl
@[simp] theorem exec_rmset (x : Long) (s : State) : exec (.rmset x) s = execRmset x s := rfl
@[simp] theorem exec_rmclr (x : Long) (s : State) : exec (.rmclr x) s = execRmclr x s := rfl
@[simp] theorem exec_rmclrAll (x : Long) (s : State) : exec (.rmclrAll x) s = execRmclrAll x s := rfl
@[simp] theorem exec_rinj (x : Long) (s : State) : exec (.rinj x) s = execRinj x s := rfl
@[simp] theorem exec_rdrain (x : Long) (s : State) : exec (.rdrain x) s = execRdrain x s := rfl
@[simp] theorem exec_rstat (x : Long) (s : State) : exec (.rstat x) s = execRstat x s := rfl
@[simp] theorem exec_relight (x : Long) (s : State) : exec (.relight x) s = execRelight x s := rfl
@[simp] theorem exec_ctrlRegisterWrite (addr : BitVec 40) (data : List Byte) (s : State) : exec (.ctrlRegisterWrite addr data) s = execCtrlRegisterWrite addr data s := rfl
@[simp] theorem exec_namePrefixWrite (region : Nat) (value : Word) (s : State) : exec (.namePrefixWrite region value) s = execNamePrefixWrite region value s := rfl
@[simp] theorem exec_dirEntryWrite (region : Nat) (name : BitVec 24) (s : State) : exec (.dirEntryWrite region name) s = execDirEntryWrite region name s := rfl
@[simp] theorem exec_routerArrival (id : Nat) (s : State) : exec (.routerArrival id) s = execRouterArrival id s := rfl
@[simp] theorem exec_coreMessageAccept (id : Nat) (s : State) : exec (.coreMessageAccept id) s = execCoreMessageAccept id s := rfl
@[simp] theorem exec_lanternFloodBounce (id : Nat) (s : State) : exec (.lanternFloodBounce id) s = execLanternFloodBounce id s := rfl
@[simp] theorem exec_bounceReceived (id : Nat) (s : State) : exec (.bounceReceived id) s = execBounceReceived id s := rfl
@[simp] theorem exec_tombstoneForward (id : Nat) (s : State) : exec (.tombstoneForward id) s = execTombstoneForward id s := rfl
@[simp] theorem exec_tombstoneWindowEnd (core : Psn) (s : State) : exec (.tombstoneWindowEnd core) s = execTombstoneWindowEnd core s := rfl
@[simp] theorem exec_l2TlbRequest (id : Nat) (s : State) : exec (.l2TlbRequest id) s = execL2TlbRequest id s := rfl
@[simp] theorem exec_pageWalk (walker : Walker) (s : State) : exec (.pageWalk walker) s = execPageWalk walker s := rfl
@[simp] theorem exec_tlbFillReply (id : Nat) (s : State) : exec (.tlbFillReply id) s = execTlbFillReply id s := rfl
@[simp] theorem exec_tlbInvalPage (region : Nat) (value : Word) (s : State) : exec (.tlbInvalPage region value) s = execTlbInvalPage region value s := rfl
@[simp] theorem exec_tlbInvalContext (region : Nat) (value : Word) (s : State) : exec (.tlbInvalContext region value) s = execTlbInvalContext region value s := rfl
@[simp] theorem exec_tlbInvalAll (region : Nat) (value : Word) (s : State) : exec (.tlbInvalAll region value) s = execTlbInvalAll region value s := rfl
@[simp] theorem exec_tlbInvalComplete (region : Nat) (s : State) : exec (.tlbInvalComplete region) s = execTlbInvalComplete region s := rfl
@[simp] theorem exec_spliceCopyComplete (region entry : Nat) (s : State) : exec (.spliceCopyComplete region entry) s = execSpliceCopyComplete region entry s := rfl
@[simp] theorem exec_spliceFinish (region entry : Nat) (s : State) : exec (.spliceFinish region entry) s = execSpliceFinish region entry s := rfl
@[simp] theorem exec_storeTileEvacuation (source spare : Psn) (s : State) : exec (.storeTileEvacuation source spare) s = execStoreTileEvacuation source spare s := rfl
@[simp] theorem exec_goneReply (id : Nat) (s : State) : exec (.goneReply id) s = execGoneReply id s := rfl
@[simp] theorem exec_ownerFaultReply (id : Nat) (s : State) : exec (.ownerFaultReply id) s = execOwnerFaultReply id s := rfl
@[simp] theorem exec_storeAccess (id : Nat) (s : State) : exec (.storeAccess id) s = execStoreAccess id s := rfl
@[simp] theorem exec_segCfgWrite (tile : Psn) (seg : Nat) (value : Word) (s : State) : exec (.segCfgWrite tile seg value) s = execSegCfgWrite tile seg value s := rfl
@[simp] theorem exec_segmentReconfigure (tile : Psn) (seg : Nat) (s : State) : exec (.segmentReconfigure tile seg) s = execSegmentReconfigure tile seg s := rfl
@[simp] theorem exec_fifoRetry (id : Nat) (s : State) : exec (.fifoRetry id) s = execFifoRetry id s := rfl
@[simp] theorem exec_queueSlotArrival (id : Nat) (s : State) : exec (.queueSlotArrival id) s = execQueueSlotArrival id s := rfl
@[simp] theorem exec_eosMarkArrival (id : Nat) (s : State) : exec (.eosMarkArrival id) s = execEosMarkArrival id s := rfl
@[simp] theorem exec_creditReturn (id : Nat) (s : State) : exec (.creditReturn id) s = execCreditReturn id s := rfl
@[simp] theorem exec_stagingSlotSend (core : Psn) (handle : Nat) (s : State) : exec (.stagingSlotSend core handle) s = execStagingSlotSend core handle s := rfl
@[simp] theorem exec_copyCommandStart (core : Psn) (chan : Nat) (s : State) : exec (.copyCommandStart core chan) s = execCopyCommandStart core chan s := rfl
@[simp] theorem exec_copyBlockWrite (core : Psn) (chan : Nat) (s : State) : exec (.copyBlockWrite core chan) s = execCopyBlockWrite core chan s := rfl
@[simp] theorem exec_linkAuditStart (tile : Psn) (port lane : Nat) (s : State) : exec (.linkAuditStart tile port lane) s = execLinkAuditStart tile port lane s := rfl
@[simp] theorem exec_linkAuditReply (id : Nat) (s : State) : exec (.linkAuditReply id) s = execLinkAuditReply id s := rfl
@[simp] theorem exec_flitEccDrop (tile : Psn) (port lane : Nat) (s : State) : exec (.flitEccDrop tile port lane) s = execFlitEccDrop tile port lane s := rfl
@[simp] theorem exec_drdRequest (id : Nat) (s : State) : exec (.drdRequest id) s = execDrdRequest id s := rfl
@[simp] theorem exec_dwrRequest (id : Nat) (s : State) : exec (.dwrRequest id) s = execDwrRequest id s := rfl
@[simp] theorem exec_dgathRequest (id : Nat) (s : State) : exec (.dgathRequest id) s = execDgathRequest id s := rfl
@[simp] theorem exec_rowopenRequest (id : Nat) (s : State) : exec (.rowopenRequest id) s = execRowopenRequest id s := rfl
@[simp] theorem exec_rowholdRequest (id : Nat) (s : State) : exec (.rowholdRequest id) s = execRowholdRequest id s := rfl
@[simp] theorem exec_rowrelRequest (id : Nat) (s : State) : exec (.rowrelRequest id) s = execRowrelRequest id s := rfl
@[simp] theorem exec_rowrdRequest (id : Nat) (s : State) : exec (.rowrdRequest id) s = execRowrdRequest id s := rfl
@[simp] theorem exec_rowwrRequest (id : Nat) (s : State) : exec (.rowwrRequest id) s = execRowwrRequest id s := rfl
@[simp] theorem exec_rowstatRequest (id : Nat) (s : State) : exec (.rowstatRequest id) s = execRowstatRequest id s := rfl
@[simp] theorem exec_flushRequest (id : Nat) (s : State) : exec (.flushRequest id) s = execFlushRequest id s := rfl
@[simp] theorem exec_atomicRequest (id : Nat) (s : State) : exec (.atomicRequest id) s = execAtomicRequest id s := rfl
@[simp] theorem exec_reservedOpRequest (id : Nat) (s : State) : exec (.reservedOpRequest id) s = execReservedOpRequest id s := rfl
@[simp] theorem exec_loadStoreReply (id : Nat) (s : State) : exec (.loadStoreReply id) s = execLoadStoreReply id s := rfl
@[simp] theorem exec_directWriteArrival (id : Nat) (s : State) : exec (.directWriteArrival id) s = execDirectWriteArrival id s := rfl
@[simp] theorem exec_rowLeaseExpiry (stack lchan slot : Nat) (s : State) : exec (.rowLeaseExpiry stack lchan slot) s = execRowLeaseExpiry stack lchan slot s := rfl
@[simp] theorem exec_bankRefresh (stack lchan bank : Nat) (s : State) : exec (.bankRefresh stack lchan bank) s = execBankRefresh stack lchan bank s := rfl
@[simp] theorem exec_channelMove (stack lchan spare : Nat) (retire : Bool) (s : State) : exec (.channelMove stack lchan spare retire) s = execChannelMove stack lchan spare retire s := rfl
@[simp] theorem exec_entryFire (core : Psn) (entry : Nat) (s : State) : exec (.entryFire core entry) s = execEntryFire core entry s := rfl
@[simp] theorem exec_activationStart (core : Psn) (s : State) : exec (.activationStart core) s = execActivationStart core s := rfl
@[simp] theorem exec_continuationResume (core tile : Psn) (record : Nat) (s : State) : exec (.continuationResume core tile record) s = execContinuationResume core tile record s := rfl
@[simp] theorem exec_runqPromotion (core : Psn) (place : Nat) (s : State) : exec (.runqPromotion core place) s = execRunqPromotion core place s := rfl
@[simp] theorem exec_notificationArrival (id : Nat) (s : State) : exec (.notificationArrival id) s = execNotificationArrival id s := rfl
@[simp] theorem exec_counterPostArrival (id : Nat) (s : State) : exec (.counterPostArrival id) s = execCounterPostArrival id s := rfl
@[simp] theorem exec_continuationReady (tile : Psn) (record : Nat) (s : State) : exec (.continuationReady tile record) s = execContinuationReady tile record s := rfl
@[simp] theorem exec_faultedContinuationConvert (core : Psn) (s : State) : exec (.faultedContinuationConvert core) s = execFaultedContinuationConvert core s := rfl
@[simp] theorem exec_gangMemberJoin (core : Psn) (s : State) : exec (.gangMemberJoin core) s = execGangMemberJoin core s := rfl
@[simp] theorem exec_gangRelay (core : Psn) (s : State) : exec (.gangRelay core) s = execGangRelay core s := rfl
@[simp] theorem exec_ringTileArrival (id : Nat) (s : State) : exec (.ringTileArrival id) s = execRingTileArrival id s := rfl
@[simp] theorem exec_ringTileForward (core : Psn) (slot : Nat) (s : State) : exec (.ringTileForward core slot) s = execRingTileForward core slot s := rfl
@[simp] theorem exec_ringFiring (core : Psn) (s : State) : exec (.ringFiring core) s = execRingFiring core s := rfl
@[simp] theorem exec_relightRequestSend (core : Psn) (entry : Nat) (s : State) : exec (.relightRequestSend core entry) s = execRelightRequestSend core entry s := rfl
@[simp] theorem exec_relightRequestServe (id : Nat) (s : State) : exec (.relightRequestServe id) s = execRelightRequestServe id s := rfl
@[simp] theorem exec_relitCopyArrival (id : Nat) (s : State) : exec (.relitCopyArrival id) s = execRelitCopyArrival id s := rfl
@[simp] theorem exec_ringSealPost (id : Nat) (s : State) : exec (.ringSealPost id) s = execRingSealPost id s := rfl
@[simp] theorem exec_ringDonePost (id : Nat) (s : State) : exec (.ringDonePost id) s = execRingDonePost id s := rfl
@[simp] theorem exec_ringCompletion (id : Nat) (s : State) : exec (.ringCompletion id) s = execRingCompletion id s := rfl
@[simp] theorem exec_ringCancel (region ring reason : Nat) (s : State) : exec (.ringCancel region ring reason) s = execRingCancel region ring reason s := rfl
@[simp] theorem exec_ringLeaseTimeout (region ring : Nat) (s : State) : exec (.ringLeaseTimeout region ring) s = execRingLeaseTimeout region ring s := rfl
@[simp] theorem exec_ringRerun (region ring : Nat) (s : State) : exec (.ringRerun region ring) s = execRingRerun region ring s := rfl
@[simp] theorem exec_ringIdleRelease (core : Psn) (widdershins : Bool) (s : State) : exec (.ringIdleRelease core widdershins) s = execRingIdleRelease core widdershins s := rfl
@[simp] theorem exec_streamElementFetch (core : Psn) (slot : Nat) (s : State) : exec (.streamElementFetch core slot) s = execStreamElementFetch core slot s := rfl
@[simp] theorem exec_streamPushWrite (core : Psn) (slot : Nat) (s : State) : exec (.streamPushWrite core slot) s = execStreamPushWrite core slot s := rfl
@[simp] theorem exec_scoreboardEntryStart (core : Psn) (slot : Nat) (s : State) : exec (.scoreboardEntryStart core slot) s = execScoreboardEntryStart core slot s := rfl
@[simp] theorem exec_credResult (id : Nat) (s : State) : exec (.credResult id) s = execCredResult id s := rfl
@[simp] theorem exec_credContribution (id : Nat) (s : State) : exec (.credContribution id) s = execCredContribution id s := rfl
@[simp] theorem exec_queryRequest (id : Nat) (s : State) : exec (.queryRequest id) s = execQueryRequest id s := rfl
@[simp] theorem exec_queryAnswer (id : Nat) (s : State) : exec (.queryAnswer id) s = execQueryAnswer id s := rfl
@[simp] theorem exec_graphArming (graph : Nat) (s : State) : exec (.graphArming graph) s = execGraphArming graph s := rfl
@[simp] theorem exec_graphEnd (graph : Nat) (s : State) : exec (.graphEnd graph) s = execGraphEnd graph s := rfl
@[simp] theorem exec_successorResident (graph : Nat) (s : State) : exec (.successorResident graph) s = execSuccessorResident graph s := rfl
@[simp] theorem exec_successorCoreArming (graph : Nat) (core : Psn) (s : State) : exec (.successorCoreArming graph core) s = execSuccessorCoreArming graph core s := rfl
@[simp] theorem exec_visibilityPost (graph predecessor : Nat) (s : State) : exec (.visibilityPost graph predecessor) s = execVisibilityPost graph predecessor s := rfl
@[simp] theorem exec_governorSample (region : Nat) (s : State) : exec (.governorSample region) s = execGovernorSample region s := rfl
@[simp] theorem exec_stageCoreRelease (tile : Psn) (stage : Nat) (s : State) : exec (.stageCoreRelease tile stage) s = execStageCoreRelease tile stage s := rfl
@[simp] theorem exec_stageItemDelivery (tile : Psn) (stage : Nat) (s : State) : exec (.stageItemDelivery tile stage) s = execStageItemDelivery tile stage s := rfl
@[simp] theorem exec_moveReq (region : Nat) (value : Word) (s : State) : exec (.moveReq region value) s = execMoveReq region value s := rfl
@[simp] theorem exec_moveCopy (region : Nat) (s : State) : exec (.moveCopy region) s = execMoveCopy region s := rfl
@[simp] theorem exec_markerRequest (id : Nat) (s : State) : exec (.markerRequest id) s = execMarkerRequest id s := rfl
@[simp] theorem exec_forwardEndMarker (id : Nat) (s : State) : exec (.forwardEndMarker id) s = execForwardEndMarker id s := rfl
@[simp] theorem exec_faultMessageArrival (id : Nat) (s : State) : exec (.faultMessageArrival id) s = execFaultMessageArrival id s := rfl
@[simp] theorem exec_snuffnoteArrival (id : Nat) (s : State) : exec (.snuffnoteArrival id) s = execSnuffnoteArrival id s := rfl
@[simp] theorem exec_graphPreempt (region : Nat) (value : Word) (s : State) : exec (.graphPreempt region value) s = execGraphPreempt region value s := rfl
@[simp] theorem exec_graphPreemptHalt (graph : Nat) (s : State) : exec (.graphPreemptHalt graph) s = execGraphPreemptHalt graph s := rfl
@[simp] theorem exec_graphPreemptQuiesce (graph : Nat) (core : Psn) (s : State) : exec (.graphPreemptQuiesce graph core) s = execGraphPreemptQuiesce graph core s := rfl
@[simp] theorem exec_contextSave (graph : Nat) (s : State) : exec (.contextSave graph) s = execContextSave graph s := rfl
@[simp] theorem exec_graphResume (region : Nat) (value : Word) (s : State) : exec (.graphResume region value) s = execGraphResume region value s := rfl
@[simp] theorem exec_graphKill (region : Nat) (value : Word) (s : State) : exec (.graphKill region value) s = execGraphKill region value s := rfl
@[simp] theorem exec_wickExpiry (core : Psn) (s : State) : exec (.wickExpiry core) s = execWickExpiry core s := rfl
@[simp] theorem exec_coreSnuffClear (core : Psn) (s : State) : exec (.coreSnuffClear core) s = execCoreSnuffClear core s := rfl
@[simp] theorem exec_hangFreeze (region : Nat) (s : State) : exec (.hangFreeze region) s = execHangFreeze region s := rfl
@[simp] theorem exec_leaseReq (region : Nat) (value : Word) (s : State) : exec (.leaseReq region value) s = execLeaseReq region value s := rfl
@[simp] theorem exec_scoreCtlMismatch (region : Nat) (s : State) : exec (.scoreCtlMismatch region) s = execScoreCtlMismatch region s := rfl
@[simp] theorem exec_scoreCtlRetire (region : Nat) (s : State) : exec (.scoreCtlRetire region) s = execScoreCtlRetire region s := rfl
@[simp] theorem exec_scoreHalving (s : State) : exec (.scoreHalving) s = execScoreHalving s := rfl
@[simp] theorem exec_sweepProposal (region : Nat) (s : State) : exec (.sweepProposal region) s = execSweepProposal region s := rfl
@[simp] theorem exec_leaseAckTimeout (region entry : Nat) (s : State) : exec (.leaseAckTimeout region entry) s = execLeaseAckTimeout region entry s := rfl
@[simp] theorem exec_leaseDeferExpiry (region entry : Nat) (s : State) : exec (.leaseDeferExpiry region entry) s = execLeaseDeferExpiry region entry s := rfl
@[simp] theorem exec_leaseStart (region entry : Nat) (s : State) : exec (.leaseStart region entry) s = execLeaseStart region entry s := rfl
@[simp] theorem exec_leaseEvacuationDone (region entry : Nat) (s : State) : exec (.leaseEvacuationDone region entry) s = execLeaseEvacuationDone region entry s := rfl
@[simp] theorem exec_leaseTestingEnd (region entry : Nat) (s : State) : exec (.leaseTestingEnd region entry) s = execLeaseTestingEnd region entry s := rfl
@[simp] theorem exec_leaseRestoreDone (region entry : Nat) (s : State) : exec (.leaseRestoreDone region entry) s = execLeaseRestoreDone region entry s := rfl
@[simp] theorem exec_retirementCountersigned (region entry : Nat) (s : State) : exec (.retirementCountersigned region entry) s = execRetirementCountersigned region entry s := rfl
@[simp] theorem exec_rqDoorbell (host : Nat) (value : BitVec 16) (s : State) : exec (.rqDoorbell host value) s = execRqDoorbell host value s := rfl
@[simp] theorem exec_read (host : Nat) (s : State) : exec (.read host) s = execRead host s := rfl
@[simp] theorem exec_write (host : Nat) (s : State) : exec (.write host) s = execWrite host s := rfl
@[simp] theorem exec_barrier (host : Nat) (s : State) : exec (.barrier host) s = execBarrier host s := rfl
@[simp] theorem exec_barrierForward (id : Nat) (s : State) : exec (.barrierForward id) s = execBarrierForward id s := rfl
@[simp] theorem exec_launch (host : Nat) (s : State) : exec (.launch host) s = execLaunch host s := rfl
@[simp] theorem exec_graph (host : Nat) (s : State) : exec (.graph host) s = execGraph host s := rfl
@[simp] theorem exec_attest (host : Nat) (s : State) : exec (.attest host) s = execAttest host s := rfl
@[simp] theorem exec_keyload (host : Nat) (s : State) : exec (.keyload host) s = execKeyload host s := rfl
@[simp] theorem exec_keyclr (host : Nat) (s : State) : exec (.keyclr host) s = execKeyclr host s := rfl
@[simp] theorem exec_cancel (host : Nat) (s : State) : exec (.cancel host) s = execCancel host s := rfl
@[simp] theorem exec_remoteTransferComplete (place : Inbound) (data : List Byte) (tile : Psn) (counter : Nat) (s : State) : exec (.remoteTransferComplete place data tile counter) s = execRemoteTransferComplete place data tile counter s := rfl
@[simp] theorem exec_powerWindow (watts : Nat) (hot : List (Nat × Nat × Int)) (s : State) : exec (.powerWindow watts hot) s = execPowerWindow watts hot s := rfl
@[simp] theorem exec_pwrQuiesce (region cluster : Nat) (s : State) : exec (.pwrQuiesce region cluster) s = execPwrQuiesce region cluster s := rfl
@[simp] theorem exec_clusterQuiesced (region cluster : Nat) (s : State) : exec (.clusterQuiesced region cluster) s = execClusterQuiesced region cluster s := rfl
@[simp] theorem exec_retSave (region cluster : Nat) (s : State) : exec (.retSave region cluster) s = execRetSave region cluster s := rfl
@[simp] theorem exec_retentionSaveDone (region cluster : Nat) (s : State) : exec (.retentionSaveDone region cluster) s = execRetentionSaveDone region cluster s := rfl
@[simp] theorem exec_pwrWake (region cluster : Nat) (s : State) : exec (.pwrWake region cluster) s = execPwrWake region cluster s := rfl
@[simp] theorem exec_clusterWakeArrival (id : Nat) (s : State) : exec (.clusterWakeArrival id) s = execClusterWakeArrival id s := rfl
@[simp] theorem exec_clusterWakeDone (region cluster : Nat) (s : State) : exec (.clusterWakeDone region cluster) s = execClusterWakeDone region cluster s := rfl
@[simp] theorem exec_railGoodTimeout (region cluster : Nat) (s : State) : exec (.railGoodTimeout region cluster) s = execRailGoodTimeout region cluster s := rfl
@[simp] theorem exec_coldBoot (s : State) : exec (.coldBoot) s = execColdBoot s := rfl
@[simp] theorem exec_park (s : State) : exec (.park) s = execPark s := rfl
@[simp] theorem exec_unpark (s : State) : exec (.unpark) s = execUnpark s := rfl
@[simp] theorem exec_wearHourlyUpdate (celsius : List (Nat × Int)) (s : State) : exec (.wearHourlyUpdate celsius) s = execWearHourlyUpdate celsius s := rfl
@[simp] theorem exec_creditCounterParityError (tile : Psn) (port lane : Nat) (s : State) : exec (.creditCounterParityError tile port lane) s = execCreditCounterParityError tile port lane s := rfl
@[simp] theorem exec_matrixCompletion (core : Psn) (s : State) : exec (.matrixCompletion core) s = execMatrixCompletion core s := rfl
@[simp] theorem exec_ringOpReply (id : Nat) (s : State) : exec (.ringOpReply id) s = execRingOpReply id s := rfl
@[simp] theorem exec_cqCtlHeadWrite (host : Nat) (value : BitVec 16) (s : State) : exec (.cqCtlHeadWrite host value) s = execCqCtlHeadWrite host value s := rfl
@[simp] theorem exec_retirementNoticeExpiry (region : Nat) (unit : BitVec 32) (s : State) : exec (.retirementNoticeExpiry region unit) s = execRetirementNoticeExpiry region unit s := rfl
@[simp] theorem exec_transferEngineStart (port : Nat) (pa : BitVec 48) (length peer : Nat) (remote : BitVec 48) (s : State) : exec (.transferEngineStart port pa length peer remote) s = execTransferEngineStart port pa length peer remote s := rfl
@[simp] theorem exec_testPatternResult (region entry : Nat) (mismatch : Bool) (syndrome : Word) (s : State) : exec (.testPatternResult region entry mismatch syndrome) s = execTestPatternResult region entry mismatch syndrome s := rfl

end Sys2Proof.Machine
end

