-- ==== Sys2Proof/Laws/Forms.lean ====
section
/-! SUPPORT. The form of every instruction, what asks for its issue, and the state its effect starts from, one lemma each per constructor. -/
namespace Sys2Proof.Laws
open Sys2Proof Sys2Proof.Machine

theorem issues_add (x : Long) (s : State) : issues (.add x) s = readyForm (longForm Shape.add false x) false s := rfl
theorem past_add (x : Long) (s : State) : past (.add x) s = s.advance (if x.wide then 12 else 8) := rfl
theorem formOf_add (x : Long) : formOf (.add x) = some (longForm Shape.add false x) := rfl
theorem issues_addL32A (x : ShortA) (s : State) : issues (.addL32A x) s = readyForm (shortAForm Shape.addL32A x) false s := rfl
theorem past_addL32A (x : ShortA) (s : State) : past (.addL32A x) s = s.advance (4) := rfl
theorem formOf_addL32A (x : ShortA) : formOf (.addL32A x) = some (shortAForm Shape.addL32A x) := rfl
theorem issues_addI64L32B (x : ShortB) (s : State) : issues (.addI64L32B x) s = readyForm (shortBForm Shape.addI64L32B x) false s := rfl
theorem past_addI64L32B (x : ShortB) (s : State) : past (.addI64L32B x) s = s.advance (4) := rfl
theorem formOf_addI64L32B (x : ShortB) : formOf (.addI64L32B x) = some (shortBForm Shape.addI64L32B x) := rfl
theorem issues_addI32L32B (x : ShortB) (s : State) : issues (.addI32L32B x) s = readyForm (shortBForm Shape.addI32L32B x) false s := rfl
theorem past_addI32L32B (x : ShortB) (s : State) : past (.addI32L32B x) s = s.advance (4) := rfl
theorem formOf_addI32L32B (x : ShortB) : formOf (.addI32L32B x) = some (shortBForm Shape.addI32L32B x) := rfl
theorem issues_addc (x : Long) (s : State) : issues (.addc x) s = readyForm (longForm Shape.addc false x) false s := rfl
theorem past_addc (x : Long) (s : State) : past (.addc x) s = s.advance (if x.wide then 12 else 8) := rfl
theorem formOf_addc (x : Long) : formOf (.addc x) = some (longForm Shape.addc false x) := rfl
theorem issues_addcL32A (x : ShortA) (s : State) : issues (.addcL32A x) s = readyForm (shortAForm Shape.addcL32A x) false s := rfl
theorem past_addcL32A (x : ShortA) (s : State) : past (.addcL32A x) s = s.advance (4) := rfl
theorem formOf_addcL32A (x : ShortA) : formOf (.addcL32A x) = some (shortAForm Shape.addcL32A x) := rfl
theorem issues_sub (x : Long) (s : State) : issues (.sub x) s = readyForm (longForm Shape.sub false x) false s := rfl
theorem past_sub (x : Long) (s : State) : past (.sub x) s = s.advance (if x.wide then 12 else 8) := rfl
theorem formOf_sub (x : Long) : formOf (.sub x) = some (longForm Shape.sub false x) := rfl
theorem issues_subL32A (x : ShortA) (s : State) : issues (.subL32A x) s = readyForm (shortAForm Shape.subL32A x) false s := rfl
theorem past_subL32A (x : ShortA) (s : State) : past (.subL32A x) s = s.advance (4) := rfl
theorem formOf_subL32A (x : ShortA) : formOf (.subL32A x) = some (shortAForm Shape.subL32A x) := rfl
theorem issues_subb (x : Long) (s : State) : issues (.subb x) s = readyForm (longForm Shape.subb false x) false s := rfl
theorem past_subb (x : Long) (s : State) : past (.subb x) s = s.advance (if x.wide then 12 else 8) := rfl
theorem formOf_subb (x : Long) : formOf (.subb x) = some (longForm Shape.subb false x) := rfl
theorem issues_subbL32A (x : ShortA) (s : State) : issues (.subbL32A x) s = readyForm (shortAForm Shape.subbL32A x) false s := rfl
theorem past_subbL32A (x : ShortA) (s : State) : past (.subbL32A x) s = s.advance (4) := rfl
theorem formOf_subbL32A (x : ShortA) : formOf (.subbL32A x) = some (shortAForm Shape.subbL32A x) := rfl
theorem issues_mul (x : Long) (s : State) : issues (.mul x) s = readyForm (longForm Shape.mul false x) false s := rfl
theorem past_mul (x : Long) (s : State) : past (.mul x) s = s.advance (if x.wide then 12 else 8) := rfl
theorem formOf_mul (x : Long) : formOf (.mul x) = some (longForm Shape.mul false x) := rfl
theorem issues_mulL32A (x : ShortA) (s : State) : issues (.mulL32A x) s = readyForm (shortAForm Shape.mulL32A x) false s := rfl
theorem past_mulL32A (x : ShortA) (s : State) : past (.mulL32A x) s = s.advance (4) := rfl
theorem formOf_mulL32A (x : ShortA) : formOf (.mulL32A x) = some (shortAForm Shape.mulL32A x) := rfl
theorem issues_mulI64L32B (x : ShortB) (s : State) : issues (.mulI64L32B x) s = readyForm (shortBForm Shape.mulI64L32B x) false s := rfl
theorem past_mulI64L32B (x : ShortB) (s : State) : past (.mulI64L32B x) s = s.advance (4) := rfl
theorem formOf_mulI64L32B (x : ShortB) : formOf (.mulI64L32B x) = some (shortBForm Shape.mulI64L32B x) := rfl
theorem issues_mulI32L32B (x : ShortB) (s : State) : issues (.mulI32L32B x) s = readyForm (shortBForm Shape.mulI32L32B x) false s := rfl
theorem past_mulI32L32B (x : ShortB) (s : State) : past (.mulI32L32B x) s = s.advance (4) := rfl
theorem formOf_mulI32L32B (x : ShortB) : formOf (.mulI32L32B x) = some (shortBForm Shape.mulI32L32B x) := rfl
theorem issues_mulh (x : Long) (s : State) : issues (.mulh x) s = readyForm (longForm Shape.mulh false x) false s := rfl
theorem past_mulh (x : Long) (s : State) : past (.mulh x) s = s.advance (if x.wide then 12 else 8) := rfl
theorem formOf_mulh (x : Long) : formOf (.mulh x) = some (longForm Shape.mulh false x) := rfl
theorem issues_mulhL32A (x : ShortA) (s : State) : issues (.mulhL32A x) s = readyForm (shortAForm Shape.mulhL32A x) false s := rfl
theorem past_mulhL32A (x : ShortA) (s : State) : past (.mulhL32A x) s = s.advance (4) := rfl
theorem formOf_mulhL32A (x : ShortA) : formOf (.mulhL32A x) = some (shortAForm Shape.mulhL32A x) := rfl
theorem issues_mulhn (x : Long) (s : State) : issues (.mulhn x) s = readyForm (longForm Shape.mulhn false x) false s := rfl
theorem past_mulhn (x : Long) (s : State) : past (.mulhn x) s = s.advance (if x.wide then 12 else 8) := rfl
theorem formOf_mulhn (x : Long) : formOf (.mulhn x) = some (longForm Shape.mulhn false x) := rfl
theorem issues_mulhnL32A (x : ShortA) (s : State) : issues (.mulhnL32A x) s = readyForm (shortAForm Shape.mulhnL32A x) false s := rfl
theorem past_mulhnL32A (x : ShortA) (s : State) : past (.mulhnL32A x) s = s.advance (4) := rfl
theorem formOf_mulhnL32A (x : ShortA) : formOf (.mulhnL32A x) = some (shortAForm Shape.mulhnL32A x) := rfl
theorem issues_div (x : Long) (s : State) : issues (.div x) s = readyForm (longForm Shape.div false x) false s := rfl
theorem past_div (x : Long) (s : State) : past (.div x) s = s.advance (if x.wide then 12 else 8) := rfl
theorem formOf_div (x : Long) : formOf (.div x) = some (longForm Shape.div false x) := rfl
theorem issues_divL32A (x : ShortA) (s : State) : issues (.divL32A x) s = readyForm (shortAForm Shape.divL32A x) false s := rfl
theorem past_divL32A (x : ShortA) (s : State) : past (.divL32A x) s = s.advance (4) := rfl
theorem formOf_divL32A (x : ShortA) : formOf (.divL32A x) = some (shortAForm Shape.divL32A x) := rfl
theorem issues_divn (x : Long) (s : State) : issues (.divn x) s = readyForm (longForm Shape.divn false x) false s := rfl
theorem past_divn (x : Long) (s : State) : past (.divn x) s = s.advance (if x.wide then 12 else 8) := rfl
theorem formOf_divn (x : Long) : formOf (.divn x) = some (longForm Shape.divn false x) := rfl
theorem issues_divnL32A (x : ShortA) (s : State) : issues (.divnL32A x) s = readyForm (shortAForm Shape.divnL32A x) false s := rfl
theorem past_divnL32A (x : ShortA) (s : State) : past (.divnL32A x) s = s.advance (4) := rfl
theorem formOf_divnL32A (x : ShortA) : formOf (.divnL32A x) = some (shortAForm Shape.divnL32A x) := rfl
theorem issues_rem (x : Long) (s : State) : issues (.rem x) s = readyForm (longForm Shape.rem false x) false s := rfl
theorem past_rem (x : Long) (s : State) : past (.rem x) s = s.advance (if x.wide then 12 else 8) := rfl
theorem formOf_rem (x : Long) : formOf (.rem x) = some (longForm Shape.rem false x) := rfl
theorem issues_remL32A (x : ShortA) (s : State) : issues (.remL32A x) s = readyForm (shortAForm Shape.remL32A x) false s := rfl
theorem past_remL32A (x : ShortA) (s : State) : past (.remL32A x) s = s.advance (4) := rfl
theorem formOf_remL32A (x : ShortA) : formOf (.remL32A x) = some (shortAForm Shape.remL32A x) := rfl
theorem issues_remn (x : Long) (s : State) : issues (.remn x) s = readyForm (longForm Shape.remn false x) false s := rfl
theorem past_remn (x : Long) (s : State) : past (.remn x) s = s.advance (if x.wide then 12 else 8) := rfl
theorem formOf_remn (x : Long) : formOf (.remn x) = some (longForm Shape.remn false x) := rfl
theorem issues_remnL32A (x : ShortA) (s : State) : issues (.remnL32A x) s = readyForm (shortAForm Shape.remnL32A x) false s := rfl
theorem past_remnL32A (x : ShortA) (s : State) : past (.remnL32A x) s = s.advance (4) := rfl
theorem formOf_remnL32A (x : ShortA) : formOf (.remnL32A x) = some (shortAForm Shape.remnL32A x) := rfl
theorem issues_and (x : Long) (s : State) : issues (.and x) s = readyForm (longForm Shape.and false x) false s := rfl
theorem past_and (x : Long) (s : State) : past (.and x) s = s.advance (if x.wide then 12 else 8) := rfl
theorem formOf_and (x : Long) : formOf (.and x) = some (longForm Shape.and false x) := rfl
theorem issues_andL32A (x : ShortA) (s : State) : issues (.andL32A x) s = readyForm (shortAForm Shape.andL32A x) false s := rfl
theorem past_andL32A (x : ShortA) (s : State) : past (.andL32A x) s = s.advance (4) := rfl
theorem formOf_andL32A (x : ShortA) : formOf (.andL32A x) = some (shortAForm Shape.andL32A x) := rfl
theorem issues_andN64L32B (x : ShortB) (s : State) : issues (.andN64L32B x) s = readyForm (shortBForm Shape.andN64L32B x) false s := rfl
theorem past_andN64L32B (x : ShortB) (s : State) : past (.andN64L32B x) s = s.advance (4) := rfl
theorem formOf_andN64L32B (x : ShortB) : formOf (.andN64L32B x) = some (shortBForm Shape.andN64L32B x) := rfl
theorem issues_andn (x : Long) (s : State) : issues (.andn x) s = readyForm (longForm Shape.andn false x) false s := rfl
theorem past_andn (x : Long) (s : State) : past (.andn x) s = s.advance (if x.wide then 12 else 8) := rfl
theorem formOf_andn (x : Long) : formOf (.andn x) = some (longForm Shape.andn false x) := rfl
theorem issues_andnL32A (x : ShortA) (s : State) : issues (.andnL32A x) s = readyForm (shortAForm Shape.andnL32A x) false s := rfl
theorem past_andnL32A (x : ShortA) (s : State) : past (.andnL32A x) s = s.advance (4) := rfl
theorem formOf_andnL32A (x : ShortA) : formOf (.andnL32A x) = some (shortAForm Shape.andnL32A x) := rfl
theorem issues_andnN64L32B (x : ShortB) (s : State) : issues (.andnN64L32B x) s = readyForm (shortBForm Shape.andnN64L32B x) false s := rfl
theorem past_andnN64L32B (x : ShortB) (s : State) : past (.andnN64L32B x) s = s.advance (4) := rfl
theorem formOf_andnN64L32B (x : ShortB) : formOf (.andnN64L32B x) = some (shortBForm Shape.andnN64L32B x) := rfl
theorem issues_or (x : Long) (s : State) : issues (.or x) s = readyForm (longForm Shape.or false x) false s := rfl
theorem past_or (x : Long) (s : State) : past (.or x) s = s.advance (if x.wide then 12 else 8) := rfl
theorem formOf_or (x : Long) : formOf (.or x) = some (longForm Shape.or false x) := rfl
theorem issues_orL32A (x : ShortA) (s : State) : issues (.orL32A x) s = readyForm (shortAForm Shape.orL32A x) false s := rfl
theorem past_orL32A (x : ShortA) (s : State) : past (.orL32A x) s = s.advance (4) := rfl
theorem formOf_orL32A (x : ShortA) : formOf (.orL32A x) = some (shortAForm Shape.orL32A x) := rfl
theorem issues_orN64L32B (x : ShortB) (s : State) : issues (.orN64L32B x) s = readyForm (shortBForm Shape.orN64L32B x) false s := rfl
theorem past_orN64L32B (x : ShortB) (s : State) : past (.orN64L32B x) s = s.advance (4) := rfl
theorem formOf_orN64L32B (x : ShortB) : formOf (.orN64L32B x) = some (shortBForm Shape.orN64L32B x) := rfl
theorem issues_xor (x : Long) (s : State) : issues (.xor x) s = readyForm (longForm Shape.xor false x) false s := rfl
theorem past_xor (x : Long) (s : State) : past (.xor x) s = s.advance (if x.wide then 12 else 8) := rfl
theorem formOf_xor (x : Long) : formOf (.xor x) = some (longForm Shape.xor false x) := rfl
theorem issues_xorL32A (x : ShortA) (s : State) : issues (.xorL32A x) s = readyForm (shortAForm Shape.xorL32A x) false s := rfl
theorem past_xorL32A (x : ShortA) (s : State) : past (.xorL32A x) s = s.advance (4) := rfl
theorem formOf_xorL32A (x : ShortA) : formOf (.xorL32A x) = some (shortAForm Shape.xorL32A x) := rfl
theorem issues_xorN64L32B (x : ShortB) (s : State) : issues (.xorN64L32B x) s = readyForm (shortBForm Shape.xorN64L32B x) false s := rfl
theorem past_xorN64L32B (x : ShortB) (s : State) : past (.xorN64L32B x) s = s.advance (4) := rfl
theorem formOf_xorN64L32B (x : ShortB) : formOf (.xorN64L32B x) = some (shortBForm Shape.xorN64L32B x) := rfl
theorem issues_shl (x : Long) (s : State) : issues (.shl x) s = readyForm (longForm Shape.shl false x) false s := rfl
theorem past_shl (x : Long) (s : State) : past (.shl x) s = s.advance (if x.wide then 12 else 8) := rfl
theorem formOf_shl (x : Long) : formOf (.shl x) = some (longForm Shape.shl false x) := rfl
theorem issues_shlL32A (x : ShortA) (s : State) : issues (.shlL32A x) s = readyForm (shortAForm Shape.shlL32A x) false s := rfl
theorem past_shlL32A (x : ShortA) (s : State) : past (.shlL32A x) s = s.advance (4) := rfl
theorem formOf_shlL32A (x : ShortA) : formOf (.shlL32A x) = some (shortAForm Shape.shlL32A x) := rfl
theorem issues_shlN64L32B (x : ShortB) (s : State) : issues (.shlN64L32B x) s = readyForm (shortBForm Shape.shlN64L32B x) false s := rfl
theorem past_shlN64L32B (x : ShortB) (s : State) : past (.shlN64L32B x) s = s.advance (4) := rfl
theorem formOf_shlN64L32B (x : ShortB) : formOf (.shlN64L32B x) = some (shortBForm Shape.shlN64L32B x) := rfl
theorem issues_shr (x : Long) (s : State) : issues (.shr x) s = readyForm (longForm Shape.shr false x) false s := rfl
theorem past_shr (x : Long) (s : State) : past (.shr x) s = s.advance (if x.wide then 12 else 8) := rfl
theorem formOf_shr (x : Long) : formOf (.shr x) = some (longForm Shape.shr false x) := rfl
theorem issues_shrL32A (x : ShortA) (s : State) : issues (.shrL32A x) s = readyForm (shortAForm Shape.shrL32A x) false s := rfl
theorem past_shrL32A (x : ShortA) (s : State) : past (.shrL32A x) s = s.advance (4) := rfl
theorem formOf_shrL32A (x : ShortA) : formOf (.shrL32A x) = some (shortAForm Shape.shrL32A x) := rfl
theorem issues_shrN64L32B (x : ShortB) (s : State) : issues (.shrN64L32B x) s = readyForm (shortBForm Shape.shrN64L32B x) false s := rfl
theorem past_shrN64L32B (x : ShortB) (s : State) : past (.shrN64L32B x) s = s.advance (4) := rfl
theorem formOf_shrN64L32B (x : ShortB) : formOf (.shrN64L32B x) = some (shortBForm Shape.shrN64L32B x) := rfl
theorem issues_sha (x : Long) (s : State) : issues (.sha x) s = readyForm (longForm Shape.sha false x) false s := rfl
theorem past_sha (x : Long) (s : State) : past (.sha x) s = s.advance (if x.wide then 12 else 8) := rfl
theorem formOf_sha (x : Long) : formOf (.sha x) = some (longForm Shape.sha false x) := rfl
theorem issues_shaL32A (x : ShortA) (s : State) : issues (.shaL32A x) s = readyForm (shortAForm Shape.shaL32A x) false s := rfl
theorem past_shaL32A (x : ShortA) (s : State) : past (.shaL32A x) s = s.advance (4) := rfl
theorem formOf_shaL32A (x : ShortA) : formOf (.shaL32A x) = some (shortAForm Shape.shaL32A x) := rfl
theorem issues_shaI64L32B (x : ShortB) (s : State) : issues (.shaI64L32B x) s = readyForm (shortBForm Shape.shaI64L32B x) false s := rfl
theorem past_shaI64L32B (x : ShortB) (s : State) : past (.shaI64L32B x) s = s.advance (4) := rfl
theorem formOf_shaI64L32B (x : ShortB) : formOf (.shaI64L32B x) = some (shortBForm Shape.shaI64L32B x) := rfl
theorem issues_rol (x : Long) (s : State) : issues (.rol x) s = readyForm (longForm Shape.rol false x) false s := rfl
theorem past_rol (x : Long) (s : State) : past (.rol x) s = s.advance (if x.wide then 12 else 8) := rfl
theorem formOf_rol (x : Long) : formOf (.rol x) = some (longForm Shape.rol false x) := rfl
theorem issues_rolL32A (x : ShortA) (s : State) : issues (.rolL32A x) s = readyForm (shortAForm Shape.rolL32A x) false s := rfl
theorem past_rolL32A (x : ShortA) (s : State) : past (.rolL32A x) s = s.advance (4) := rfl
theorem formOf_rolL32A (x : ShortA) : formOf (.rolL32A x) = some (shortAForm Shape.rolL32A x) := rfl
theorem issues_rotr (x : Long) (s : State) : issues (.rotr x) s = readyForm (longForm Shape.rotr false x) false s := rfl
theorem past_rotr (x : Long) (s : State) : past (.rotr x) s = s.advance (if x.wide then 12 else 8) := rfl
theorem formOf_rotr (x : Long) : formOf (.rotr x) = some (longForm Shape.rotr false x) := rfl
theorem issues_rotrL32A (x : ShortA) (s : State) : issues (.rotrL32A x) s = readyForm (shortAForm Shape.rotrL32A x) false s := rfl
theorem past_rotrL32A (x : ShortA) (s : State) : past (.rotrL32A x) s = s.advance (4) := rfl
theorem formOf_rotrL32A (x : ShortA) : formOf (.rotrL32A x) = some (shortAForm Shape.rotrL32A x) := rfl
theorem issues_rotrN64L32B (x : ShortB) (s : State) : issues (.rotrN64L32B x) s = readyForm (shortBForm Shape.rotrN64L32B x) false s := rfl
theorem past_rotrN64L32B (x : ShortB) (s : State) : past (.rotrN64L32B x) s = s.advance (4) := rfl
theorem formOf_rotrN64L32B (x : ShortB) : formOf (.rotrN64L32B x) = some (shortBForm Shape.rotrN64L32B x) := rfl
theorem issues_clz (x : Long) (s : State) : issues (.clz x) s = readyForm (longForm Shape.clz false x) false s := rfl
theorem past_clz (x : Long) (s : State) : past (.clz x) s = s.advance (if x.wide then 12 else 8) := rfl
theorem formOf_clz (x : Long) : formOf (.clz x) = some (longForm Shape.clz false x) := rfl
theorem issues_clzL32A (x : ShortA) (s : State) : issues (.clzL32A x) s = readyForm (shortAForm Shape.clzL32A x) false s := rfl
theorem past_clzL32A (x : ShortA) (s : State) : past (.clzL32A x) s = s.advance (4) := rfl
theorem formOf_clzL32A (x : ShortA) : formOf (.clzL32A x) = some (shortAForm Shape.clzL32A x) := rfl
theorem issues_ctz (x : Long) (s : State) : issues (.ctz x) s = readyForm (longForm Shape.ctz false x) false s := rfl
theorem past_ctz (x : Long) (s : State) : past (.ctz x) s = s.advance (if x.wide then 12 else 8) := rfl
theorem formOf_ctz (x : Long) : formOf (.ctz x) = some (longForm Shape.ctz false x) := rfl
theorem issues_ctzL32A (x : ShortA) (s : State) : issues (.ctzL32A x) s = readyForm (shortAForm Shape.ctzL32A x) false s := rfl
theorem past_ctzL32A (x : ShortA) (s : State) : past (.ctzL32A x) s = s.advance (4) := rfl
theorem formOf_ctzL32A (x : ShortA) : formOf (.ctzL32A x) = some (shortAForm Shape.ctzL32A x) := rfl
theorem issues_popc (x : Long) (s : State) : issues (.popc x) s = readyForm (longForm Shape.popc false x) false s := rfl
theorem past_popc (x : Long) (s : State) : past (.popc x) s = s.advance (if x.wide then 12 else 8) := rfl
theorem formOf_popc (x : Long) : formOf (.popc x) = some (longForm Shape.popc false x) := rfl
theorem issues_popcL32A (x : ShortA) (s : State) : issues (.popcL32A x) s = readyForm (shortAForm Shape.popcL32A x) false s := rfl
theorem past_popcL32A (x : ShortA) (s : State) : past (.popcL32A x) s = s.advance (4) := rfl
theorem formOf_popcL32A (x : ShortA) : formOf (.popcL32A x) = some (shortAForm Shape.popcL32A x) := rfl
theorem issues_brev (x : Long) (s : State) : issues (.brev x) s = readyForm (longForm Shape.brev false x) false s := rfl
theorem past_brev (x : Long) (s : State) : past (.brev x) s = s.advance (if x.wide then 12 else 8) := rfl
theorem formOf_brev (x : Long) : formOf (.brev x) = some (longForm Shape.brev false x) := rfl
theorem issues_brevL32A (x : ShortA) (s : State) : issues (.brevL32A x) s = readyForm (shortAForm Shape.brevL32A x) false s := rfl
theorem past_brevL32A (x : ShortA) (s : State) : past (.brevL32A x) s = s.advance (4) := rfl
theorem formOf_brevL32A (x : ShortA) : formOf (.brevL32A x) = some (shortAForm Shape.brevL32A x) := rfl
theorem issues_bswap (x : Long) (s : State) : issues (.bswap x) s = readyForm (longForm Shape.bswap false x) false s := rfl
theorem past_bswap (x : Long) (s : State) : past (.bswap x) s = s.advance (if x.wide then 12 else 8) := rfl
theorem formOf_bswap (x : Long) : formOf (.bswap x) = some (longForm Shape.bswap false x) := rfl
theorem issues_bswapL32A (x : ShortA) (s : State) : issues (.bswapL32A x) s = readyForm (shortAForm Shape.bswapL32A x) false s := rfl
theorem past_bswapL32A (x : ShortA) (s : State) : past (.bswapL32A x) s = s.advance (4) := rfl
theorem formOf_bswapL32A (x : ShortA) : formOf (.bswapL32A x) = some (shortAForm Shape.bswapL32A x) := rfl
theorem issues_min (x : Long) (s : State) : issues (.min x) s = readyForm (longForm Shape.min false x) false s := rfl
theorem past_min (x : Long) (s : State) : past (.min x) s = s.advance (if x.wide then 12 else 8) := rfl
theorem formOf_min (x : Long) : formOf (.min x) = some (longForm Shape.min false x) := rfl
theorem issues_minL32A (x : ShortA) (s : State) : issues (.minL32A x) s = readyForm (shortAForm Shape.minL32A x) false s := rfl
theorem past_minL32A (x : ShortA) (s : State) : past (.minL32A x) s = s.advance (4) := rfl
theorem formOf_minL32A (x : ShortA) : formOf (.minL32A x) = some (shortAForm Shape.minL32A x) := rfl
theorem issues_minI64L32B (x : ShortB) (s : State) : issues (.minI64L32B x) s = readyForm (shortBForm Shape.minI64L32B x) false s := rfl
theorem past_minI64L32B (x : ShortB) (s : State) : past (.minI64L32B x) s = s.advance (4) := rfl
theorem formOf_minI64L32B (x : ShortB) : formOf (.minI64L32B x) = some (shortBForm Shape.minI64L32B x) := rfl
theorem issues_max (x : Long) (s : State) : issues (.max x) s = readyForm (longForm Shape.max false x) false s := rfl
theorem past_max (x : Long) (s : State) : past (.max x) s = s.advance (if x.wide then 12 else 8) := rfl
theorem formOf_max (x : Long) : formOf (.max x) = some (longForm Shape.max false x) := rfl
theorem issues_maxL32A (x : ShortA) (s : State) : issues (.maxL32A x) s = readyForm (shortAForm Shape.maxL32A x) false s := rfl
theorem past_maxL32A (x : ShortA) (s : State) : past (.maxL32A x) s = s.advance (4) := rfl
theorem formOf_maxL32A (x : ShortA) : formOf (.maxL32A x) = some (shortAForm Shape.maxL32A x) := rfl
theorem issues_maxI64L32B (x : ShortB) (s : State) : issues (.maxI64L32B x) s = readyForm (shortBForm Shape.maxI64L32B x) false s := rfl
theorem past_maxI64L32B (x : ShortB) (s : State) : past (.maxI64L32B x) s = s.advance (4) := rfl
theorem formOf_maxI64L32B (x : ShortB) : formOf (.maxI64L32B x) = some (shortBForm Shape.maxI64L32B x) := rfl
theorem issues_minn (x : Long) (s : State) : issues (.minn x) s = readyForm (longForm Shape.minn false x) false s := rfl
theorem past_minn (x : Long) (s : State) : past (.minn x) s = s.advance (if x.wide then 12 else 8) := rfl
theorem formOf_minn (x : Long) : formOf (.minn x) = some (longForm Shape.minn false x) := rfl
theorem issues_minnL32A (x : ShortA) (s : State) : issues (.minnL32A x) s = readyForm (shortAForm Shape.minnL32A x) false s := rfl
theorem past_minnL32A (x : ShortA) (s : State) : past (.minnL32A x) s = s.advance (4) := rfl
theorem formOf_minnL32A (x : ShortA) : formOf (.minnL32A x) = some (shortAForm Shape.minnL32A x) := rfl
theorem issues_minnN64L32B (x : ShortB) (s : State) : issues (.minnN64L32B x) s = readyForm (shortBForm Shape.minnN64L32B x) false s := rfl
theorem past_minnN64L32B (x : ShortB) (s : State) : past (.minnN64L32B x) s = s.advance (4) := rfl
theorem formOf_minnN64L32B (x : ShortB) : formOf (.minnN64L32B x) = some (shortBForm Shape.minnN64L32B x) := rfl
theorem issues_maxn (x : Long) (s : State) : issues (.maxn x) s = readyForm (longForm Shape.maxn false x) false s := rfl
theorem past_maxn (x : Long) (s : State) : past (.maxn x) s = s.advance (if x.wide then 12 else 8) := rfl
theorem formOf_maxn (x : Long) : formOf (.maxn x) = some (longForm Shape.maxn false x) := rfl
theorem issues_maxnL32A (x : ShortA) (s : State) : issues (.maxnL32A x) s = readyForm (shortAForm Shape.maxnL32A x) false s := rfl
theorem past_maxnL32A (x : ShortA) (s : State) : past (.maxnL32A x) s = s.advance (4) := rfl
theorem formOf_maxnL32A (x : ShortA) : formOf (.maxnL32A x) = some (shortAForm Shape.maxnL32A x) := rfl
theorem issues_maxnN64L32B (x : ShortB) (s : State) : issues (.maxnN64L32B x) s = readyForm (shortBForm Shape.maxnN64L32B x) false s := rfl
theorem past_maxnN64L32B (x : ShortB) (s : State) : past (.maxnN64L32B x) s = s.advance (4) := rfl
theorem formOf_maxnN64L32B (x : ShortB) : formOf (.maxnN64L32B x) = some (shortBForm Shape.maxnN64L32B x) := rfl
theorem issues_abs (x : Long) (s : State) : issues (.abs x) s = readyForm (longForm Shape.abs false x) false s := rfl
theorem past_abs (x : Long) (s : State) : past (.abs x) s = s.advance (if x.wide then 12 else 8) := rfl
theorem formOf_abs (x : Long) : formOf (.abs x) = some (longForm Shape.abs false x) := rfl
theorem issues_absL32A (x : ShortA) (s : State) : issues (.absL32A x) s = readyForm (shortAForm Shape.absL32A x) false s := rfl
theorem past_absL32A (x : ShortA) (s : State) : past (.absL32A x) s = s.advance (4) := rfl
theorem formOf_absL32A (x : ShortA) : formOf (.absL32A x) = some (shortAForm Shape.absL32A x) := rfl
theorem issues_bfx (x : Long) (s : State) : issues (.bfx x) s = readyForm (longForm Shape.bfx false x) false s := rfl
theorem past_bfx (x : Long) (s : State) : past (.bfx x) s = s.advance (if x.wide then 12 else 8) := rfl
theorem formOf_bfx (x : Long) : formOf (.bfx x) = some (longForm Shape.bfx false x) := rfl
theorem issues_bfxN64L32B (x : ShortB) (s : State) : issues (.bfxN64L32B x) s = readyForm (shortBForm Shape.bfxN64L32B x) false s := rfl
theorem past_bfxN64L32B (x : ShortB) (s : State) : past (.bfxN64L32B x) s = s.advance (4) := rfl
theorem formOf_bfxN64L32B (x : ShortB) : formOf (.bfxN64L32B x) = some (shortBForm Shape.bfxN64L32B x) := rfl
theorem issues_bfxI64L32B (x : ShortB) (s : State) : issues (.bfxI64L32B x) s = readyForm (shortBForm Shape.bfxI64L32B x) false s := rfl
theorem past_bfxI64L32B (x : ShortB) (s : State) : past (.bfxI64L32B x) s = s.advance (4) := rfl
theorem formOf_bfxI64L32B (x : ShortB) : formOf (.bfxI64L32B x) = some (shortBForm Shape.bfxI64L32B x) := rfl
theorem issues_bfi (x : Long) (s : State) : issues (.bfi x) s = readyForm (longForm Shape.bfi false x) false s := rfl
theorem past_bfi (x : Long) (s : State) : past (.bfi x) s = s.advance (if x.wide then 12 else 8) := rfl
theorem formOf_bfi (x : Long) : formOf (.bfi x) = some (longForm Shape.bfi false x) := rfl
theorem issues_sel (x : Long) (s : State) : issues (.sel x) s = readyForm (longForm Shape.sel false x) false s := rfl
theorem past_sel (x : Long) (s : State) : past (.sel x) s = s.advance (if x.wide then 12 else 8) := rfl
theorem formOf_sel (x : Long) : formOf (.sel x) = some (longForm Shape.sel false x) := rfl
theorem issues_cmp (x : Long) (s : State) : issues (.cmp x) s = readyForm (longForm Shape.cmp false x) false s := rfl
theorem past_cmp (x : Long) (s : State) : past (.cmp x) s = s.advance (if x.wide then 12 else 8) := rfl
theorem formOf_cmp (x : Long) : formOf (.cmp x) = some (longForm Shape.cmp false x) := rfl
theorem issues_cmpEqI64L32B (x : ShortB) (s : State) : issues (.cmpEqI64L32B x) s = readyForm (shortBForm Shape.cmpEqI64L32B x) false s := rfl
theorem past_cmpEqI64L32B (x : ShortB) (s : State) : past (.cmpEqI64L32B x) s = s.advance (4) := rfl
theorem formOf_cmpEqI64L32B (x : ShortB) : formOf (.cmpEqI64L32B x) = some (shortBForm Shape.cmpEqI64L32B x) := rfl
theorem issues_cmpNeI64L32B (x : ShortB) (s : State) : issues (.cmpNeI64L32B x) s = readyForm (shortBForm Shape.cmpNeI64L32B x) false s := rfl
theorem past_cmpNeI64L32B (x : ShortB) (s : State) : past (.cmpNeI64L32B x) s = s.advance (4) := rfl
theorem formOf_cmpNeI64L32B (x : ShortB) : formOf (.cmpNeI64L32B x) = some (shortBForm Shape.cmpNeI64L32B x) := rfl
theorem issues_cmpLtI64L32B (x : ShortB) (s : State) : issues (.cmpLtI64L32B x) s = readyForm (shortBForm Shape.cmpLtI64L32B x) false s := rfl
theorem past_cmpLtI64L32B (x : ShortB) (s : State) : past (.cmpLtI64L32B x) s = s.advance (4) := rfl
theorem formOf_cmpLtI64L32B (x : ShortB) : formOf (.cmpLtI64L32B x) = some (shortBForm Shape.cmpLtI64L32B x) := rfl
theorem issues_cmpLeI64L32B (x : ShortB) (s : State) : issues (.cmpLeI64L32B x) s = readyForm (shortBForm Shape.cmpLeI64L32B x) false s := rfl
theorem past_cmpLeI64L32B (x : ShortB) (s : State) : past (.cmpLeI64L32B x) s = s.advance (4) := rfl
theorem formOf_cmpLeI64L32B (x : ShortB) : formOf (.cmpLeI64L32B x) = some (shortBForm Shape.cmpLeI64L32B x) := rfl
theorem issues_cmpGtI64L32B (x : ShortB) (s : State) : issues (.cmpGtI64L32B x) s = readyForm (shortBForm Shape.cmpGtI64L32B x) false s := rfl
theorem past_cmpGtI64L32B (x : ShortB) (s : State) : past (.cmpGtI64L32B x) s = s.advance (4) := rfl
theorem formOf_cmpGtI64L32B (x : ShortB) : formOf (.cmpGtI64L32B x) = some (shortBForm Shape.cmpGtI64L32B x) := rfl
theorem issues_cmpGeI64L32B (x : ShortB) (s : State) : issues (.cmpGeI64L32B x) s = readyForm (shortBForm Shape.cmpGeI64L32B x) false s := rfl
theorem past_cmpGeI64L32B (x : ShortB) (s : State) : past (.cmpGeI64L32B x) s = s.advance (4) := rfl
theorem formOf_cmpGeI64L32B (x : ShortB) : formOf (.cmpGeI64L32B x) = some (shortBForm Shape.cmpGeI64L32B x) := rfl
theorem issues_cmpLtN64L32B (x : ShortB) (s : State) : issues (.cmpLtN64L32B x) s = readyForm (shortBForm Shape.cmpLtN64L32B x) false s := rfl
theorem past_cmpLtN64L32B (x : ShortB) (s : State) : past (.cmpLtN64L32B x) s = s.advance (4) := rfl
theorem formOf_cmpLtN64L32B (x : ShortB) : formOf (.cmpLtN64L32B x) = some (shortBForm Shape.cmpLtN64L32B x) := rfl
theorem issues_cmpLeN64L32B (x : ShortB) (s : State) : issues (.cmpLeN64L32B x) s = readyForm (shortBForm Shape.cmpLeN64L32B x) false s := rfl
theorem past_cmpLeN64L32B (x : ShortB) (s : State) : past (.cmpLeN64L32B x) s = s.advance (4) := rfl
theorem formOf_cmpLeN64L32B (x : ShortB) : formOf (.cmpLeN64L32B x) = some (shortBForm Shape.cmpLeN64L32B x) := rfl
theorem issues_cmpGtN64L32B (x : ShortB) (s : State) : issues (.cmpGtN64L32B x) s = readyForm (shortBForm Shape.cmpGtN64L32B x) false s := rfl
theorem past_cmpGtN64L32B (x : ShortB) (s : State) : past (.cmpGtN64L32B x) s = s.advance (4) := rfl
theorem formOf_cmpGtN64L32B (x : ShortB) : formOf (.cmpGtN64L32B x) = some (shortBForm Shape.cmpGtN64L32B x) := rfl
theorem issues_cmpGeN64L32B (x : ShortB) (s : State) : issues (.cmpGeN64L32B x) s = readyForm (shortBForm Shape.cmpGeN64L32B x) false s := rfl
theorem past_cmpGeN64L32B (x : ShortB) (s : State) : past (.cmpGeN64L32B x) s = s.advance (4) := rfl
theorem formOf_cmpGeN64L32B (x : ShortB) : formOf (.cmpGeN64L32B x) = some (shortBForm Shape.cmpGeN64L32B x) := rfl
theorem issues_mov (x : Long) (s : State) : issues (.mov x) s = readyForm (longForm Shape.mov false x) false s := rfl
theorem past_mov (x : Long) (s : State) : past (.mov x) s = s.advance (if x.wide then 12 else 8) := rfl
theorem formOf_mov (x : Long) : formOf (.mov x) = some (longForm Shape.mov false x) := rfl
theorem issues_movL32A (x : ShortA) (s : State) : issues (.movL32A x) s = readyForm (shortAForm Shape.movL32A x) false s := rfl
theorem past_movL32A (x : ShortA) (s : State) : past (.movL32A x) s = s.advance (4) := rfl
theorem formOf_movL32A (x : ShortA) : formOf (.movL32A x) = some (shortAForm Shape.movL32A x) := rfl
theorem issues_movRelSrcL32B (x : ShortB) (s : State) : issues (.movRelSrcL32B x) s = readyForm (shortBForm Shape.movRelSrcL32B x) false s := rfl
theorem past_movRelSrcL32B (x : ShortB) (s : State) : past (.movRelSrcL32B x) s = s.advance (4) := rfl
theorem formOf_movRelSrcL32B (x : ShortB) : formOf (.movRelSrcL32B x) = some (shortBForm Shape.movRelSrcL32B x) := rfl
theorem issues_movRelDstL32B (x : ShortB) (s : State) : issues (.movRelDstL32B x) s = readyForm (shortBForm Shape.movRelDstL32B x) false s := rfl
theorem past_movRelDstL32B (x : ShortB) (s : State) : past (.movRelDstL32B x) s = s.advance (4) := rfl
theorem formOf_movRelDstL32B (x : ShortB) : formOf (.movRelDstL32B x) = some (shortBForm Shape.movRelDstL32B x) := rfl
theorem issues_li (x : Long) (s : State) : issues (.li x) s = readyForm (longForm Shape.li false x) false s := rfl
theorem past_li (x : Long) (s : State) : past (.li x) s = s.advance (if x.wide then 12 else 8) := rfl
theorem formOf_li (x : Long) : formOf (.li x) = some (longForm Shape.li false x) := rfl
theorem issues_liI64L32B (x : ShortB) (s : State) : issues (.liI64L32B x) s = readyForm (shortBForm Shape.liI64L32B x) false s := rfl
theorem past_liI64L32B (x : ShortB) (s : State) : past (.liI64L32B x) s = s.advance (4) := rfl
theorem formOf_liI64L32B (x : ShortB) : formOf (.liI64L32B x) = some (shortBForm Shape.liI64L32B x) := rfl
theorem issues_lih (x : Long) (s : State) : issues (.lih x) s = readyForm (longForm Shape.lih false x) false s := rfl
theorem past_lih (x : Long) (s : State) : past (.lih x) s = s.advance (if x.wide then 12 else 8) := rfl
theorem formOf_lih (x : Long) : formOf (.lih x) = some (longForm Shape.lih false x) := rfl
theorem issues_lihL32B (x : ShortB) (s : State) : issues (.lihL32B x) s = readyForm (shortBForm Shape.lihL32B x) false s := rfl
theorem past_lihL32B (x : ShortB) (s : State) : past (.lihL32B x) s = s.advance (4) := rfl
theorem formOf_lihL32B (x : ShortB) : formOf (.lihL32B x) = some (shortBForm Shape.lihL32B x) := rfl
theorem issues_fadd (x : Long) (s : State) : issues (.fadd x) s = readyForm (longForm Shape.fadd false x) false s := rfl
theorem past_fadd (x : Long) (s : State) : past (.fadd x) s = s.advance (if x.wide then 12 else 8) := rfl
theorem formOf_fadd (x : Long) : formOf (.fadd x) = some (longForm Shape.fadd false x) := rfl
theorem issues_faddL32A (x : ShortA) (s : State) : issues (.faddL32A x) s = readyForm (shortAForm Shape.faddL32A x) false s := rfl
theorem past_faddL32A (x : ShortA) (s : State) : past (.faddL32A x) s = s.advance (4) := rfl
theorem formOf_faddL32A (x : ShortA) : formOf (.faddL32A x) = some (shortAForm Shape.faddL32A x) := rfl
theorem issues_fsub (x : Long) (s : State) : issues (.fsub x) s = readyForm (longForm Shape.fsub false x) false s := rfl
theorem past_fsub (x : Long) (s : State) : past (.fsub x) s = s.advance (if x.wide then 12 else 8) := rfl
theorem formOf_fsub (x : Long) : formOf (.fsub x) = some (longForm Shape.fsub false x) := rfl
theorem issues_fsubL32A (x : ShortA) (s : State) : issues (.fsubL32A x) s = readyForm (shortAForm Shape.fsubL32A x) false s := rfl
theorem past_fsubL32A (x : ShortA) (s : State) : past (.fsubL32A x) s = s.advance (4) := rfl
theorem formOf_fsubL32A (x : ShortA) : formOf (.fsubL32A x) = some (shortAForm Shape.fsubL32A x) := rfl
theorem issues_fmul (x : Long) (s : State) : issues (.fmul x) s = readyForm (longForm Shape.fmul false x) false s := rfl
theorem past_fmul (x : Long) (s : State) : past (.fmul x) s = s.advance (if x.wide then 12 else 8) := rfl
theorem formOf_fmul (x : Long) : formOf (.fmul x) = some (longForm Shape.fmul false x) := rfl
theorem issues_fmulL32A (x : ShortA) (s : State) : issues (.fmulL32A x) s = readyForm (shortAForm Shape.fmulL32A x) false s := rfl
theorem past_fmulL32A (x : ShortA) (s : State) : past (.fmulL32A x) s = s.advance (4) := rfl
theorem formOf_fmulL32A (x : ShortA) : formOf (.fmulL32A x) = some (shortAForm Shape.fmulL32A x) := rfl
theorem issues_ffma (x : Long) (s : State) : issues (.ffma x) s = readyForm (longForm Shape.ffma false x) false s := rfl
theorem past_ffma (x : Long) (s : State) : past (.ffma x) s = s.advance (if x.wide then 12 else 8) := rfl
theorem formOf_ffma (x : Long) : formOf (.ffma x) = some (longForm Shape.ffma false x) := rfl
theorem issues_ffms (x : Long) (s : State) : issues (.ffms x) s = readyForm (longForm Shape.ffms false x) false s := rfl
theorem past_ffms (x : Long) (s : State) : past (.ffms x) s = s.advance (if x.wide then 12 else 8) := rfl
theorem formOf_ffms (x : Long) : formOf (.ffms x) = some (longForm Shape.ffms false x) := rfl
theorem issues_fdiv (x : Long) (s : State) : issues (.fdiv x) s = readyForm (longForm Shape.fdiv false x) false s := rfl
theorem past_fdiv (x : Long) (s : State) : past (.fdiv x) s = s.advance (if x.wide then 12 else 8) := rfl
theorem formOf_fdiv (x : Long) : formOf (.fdiv x) = some (longForm Shape.fdiv false x) := rfl
theorem issues_fdivL32A (x : ShortA) (s : State) : issues (.fdivL32A x) s = readyForm (shortAForm Shape.fdivL32A x) false s := rfl
theorem past_fdivL32A (x : ShortA) (s : State) : past (.fdivL32A x) s = s.advance (4) := rfl
theorem formOf_fdivL32A (x : ShortA) : formOf (.fdivL32A x) = some (shortAForm Shape.fdivL32A x) := rfl
theorem issues_fsqrt (x : Long) (s : State) : issues (.fsqrt x) s = readyForm (longForm Shape.fsqrt false x) false s := rfl
theorem past_fsqrt (x : Long) (s : State) : past (.fsqrt x) s = s.advance (if x.wide then 12 else 8) := rfl
theorem formOf_fsqrt (x : Long) : formOf (.fsqrt x) = some (longForm Shape.fsqrt false x) := rfl
theorem issues_fsqrtL32A (x : ShortA) (s : State) : issues (.fsqrtL32A x) s = readyForm (shortAForm Shape.fsqrtL32A x) false s := rfl
theorem past_fsqrtL32A (x : ShortA) (s : State) : past (.fsqrtL32A x) s = s.advance (4) := rfl
theorem formOf_fsqrtL32A (x : ShortA) : formOf (.fsqrtL32A x) = some (shortAForm Shape.fsqrtL32A x) := rfl
theorem issues_fmin (x : Long) (s : State) : issues (.fmin x) s = readyForm (longForm Shape.fmin false x) false s := rfl
theorem past_fmin (x : Long) (s : State) : past (.fmin x) s = s.advance (if x.wide then 12 else 8) := rfl
theorem formOf_fmin (x : Long) : formOf (.fmin x) = some (longForm Shape.fmin false x) := rfl
theorem issues_fminL32A (x : ShortA) (s : State) : issues (.fminL32A x) s = readyForm (shortAForm Shape.fminL32A x) false s := rfl
theorem past_fminL32A (x : ShortA) (s : State) : past (.fminL32A x) s = s.advance (4) := rfl
theorem formOf_fminL32A (x : ShortA) : formOf (.fminL32A x) = some (shortAForm Shape.fminL32A x) := rfl
theorem issues_fmax (x : Long) (s : State) : issues (.fmax x) s = readyForm (longForm Shape.fmax false x) false s := rfl
theorem past_fmax (x : Long) (s : State) : past (.fmax x) s = s.advance (if x.wide then 12 else 8) := rfl
theorem formOf_fmax (x : Long) : formOf (.fmax x) = some (longForm Shape.fmax false x) := rfl
theorem issues_fmaxL32A (x : ShortA) (s : State) : issues (.fmaxL32A x) s = readyForm (shortAForm Shape.fmaxL32A x) false s := rfl
theorem past_fmaxL32A (x : ShortA) (s : State) : past (.fmaxL32A x) s = s.advance (4) := rfl
theorem formOf_fmaxL32A (x : ShortA) : formOf (.fmaxL32A x) = some (shortAForm Shape.fmaxL32A x) := rfl
theorem issues_fabs (x : Long) (s : State) : issues (.fabs x) s = readyForm (longForm Shape.fabs false x) false s := rfl
theorem past_fabs (x : Long) (s : State) : past (.fabs x) s = s.advance (if x.wide then 12 else 8) := rfl
theorem formOf_fabs (x : Long) : formOf (.fabs x) = some (longForm Shape.fabs false x) := rfl
theorem issues_fabsL32A (x : ShortA) (s : State) : issues (.fabsL32A x) s = readyForm (shortAForm Shape.fabsL32A x) false s := rfl
theorem past_fabsL32A (x : ShortA) (s : State) : past (.fabsL32A x) s = s.advance (4) := rfl
theorem formOf_fabsL32A (x : ShortA) : formOf (.fabsL32A x) = some (shortAForm Shape.fabsL32A x) := rfl
theorem issues_fneg (x : Long) (s : State) : issues (.fneg x) s = readyForm (longForm Shape.fneg false x) false s := rfl
theorem past_fneg (x : Long) (s : State) : past (.fneg x) s = s.advance (if x.wide then 12 else 8) := rfl
theorem formOf_fneg (x : Long) : formOf (.fneg x) = some (longForm Shape.fneg false x) := rfl
theorem issues_fnegL32A (x : ShortA) (s : State) : issues (.fnegL32A x) s = readyForm (shortAForm Shape.fnegL32A x) false s := rfl
theorem past_fnegL32A (x : ShortA) (s : State) : past (.fnegL32A x) s = s.advance (4) := rfl
theorem formOf_fnegL32A (x : ShortA) : formOf (.fnegL32A x) = some (shortAForm Shape.fnegL32A x) := rfl
theorem issues_fcpys (x : Long) (s : State) : issues (.fcpys x) s = readyForm (longForm Shape.fcpys false x) false s := rfl
theorem past_fcpys (x : Long) (s : State) : past (.fcpys x) s = s.advance (if x.wide then 12 else 8) := rfl
theorem formOf_fcpys (x : Long) : formOf (.fcpys x) = some (longForm Shape.fcpys false x) := rfl
theorem issues_fcpysL32A (x : ShortA) (s : State) : issues (.fcpysL32A x) s = readyForm (shortAForm Shape.fcpysL32A x) false s := rfl
theorem past_fcpysL32A (x : ShortA) (s : State) : past (.fcpysL32A x) s = s.advance (4) := rfl
theorem formOf_fcpysL32A (x : ShortA) : formOf (.fcpysL32A x) = some (shortAForm Shape.fcpysL32A x) := rfl
theorem issues_fcmp (x : Long) (s : State) : issues (.fcmp x) s = readyForm (longForm Shape.fcmp false x) false s := rfl
theorem past_fcmp (x : Long) (s : State) : past (.fcmp x) s = s.advance (if x.wide then 12 else 8) := rfl
theorem formOf_fcmp (x : Long) : formOf (.fcmp x) = some (longForm Shape.fcmp false x) := rfl
theorem issues_fclass (x : Long) (s : State) : issues (.fclass x) s = readyForm (longForm Shape.fclass false x) false s := rfl
theorem past_fclass (x : Long) (s : State) : past (.fclass x) s = s.advance (if x.wide then 12 else 8) := rfl
theorem formOf_fclass (x : Long) : formOf (.fclass x) = some (longForm Shape.fclass false x) := rfl
theorem issues_fclassL32A (x : ShortA) (s : State) : issues (.fclassL32A x) s = readyForm (shortAForm Shape.fclassL32A x) false s := rfl
theorem past_fclassL32A (x : ShortA) (s : State) : past (.fclassL32A x) s = s.advance (4) := rfl
theorem formOf_fclassL32A (x : ShortA) : formOf (.fclassL32A x) = some (shortAForm Shape.fclassL32A x) := rfl
theorem issues_fcvt (x : Long) (s : State) : issues (.fcvt x) s = readyForm (longForm Shape.fcvt false x) false s := rfl
theorem past_fcvt (x : Long) (s : State) : past (.fcvt x) s = s.advance (if x.wide then 12 else 8) := rfl
theorem formOf_fcvt (x : Long) : formOf (.fcvt x) = some (longForm Shape.fcvt false x) := rfl
theorem issues_fcvti (x : Long) (s : State) : issues (.fcvti x) s = readyForm (longForm Shape.fcvti false x) false s := rfl
theorem past_fcvti (x : Long) (s : State) : past (.fcvti x) s = s.advance (if x.wide then 12 else 8) := rfl
theorem formOf_fcvti (x : Long) : formOf (.fcvti x) = some (longForm Shape.fcvti false x) := rfl
theorem issues_icvtf (x : Long) (s : State) : issues (.icvtf x) s = readyForm (longForm Shape.icvtf false x) false s := rfl
theorem past_icvtf (x : Long) (s : State) : past (.icvtf x) s = s.advance (if x.wide then 12 else 8) := rfl
theorem formOf_icvtf (x : Long) : formOf (.icvtf x) = some (longForm Shape.icvtf false x) := rfl
theorem issues_frnd (x : Long) (s : State) : issues (.frnd x) s = readyForm (longForm Shape.frnd false x) false s := rfl
theorem past_frnd (x : Long) (s : State) : past (.frnd x) s = s.advance (if x.wide then 12 else 8) := rfl
theorem formOf_frnd (x : Long) : formOf (.frnd x) = some (longForm Shape.frnd false x) := rfl
theorem issues_frndL32A (x : ShortA) (s : State) : issues (.frndL32A x) s = readyForm (shortAForm Shape.frndL32A x) false s := rfl
theorem past_frndL32A (x : ShortA) (s : State) : past (.frndL32A x) s = s.advance (4) := rfl
theorem formOf_frndL32A (x : ShortA) : formOf (.frndL32A x) = some (shortAForm Shape.frndL32A x) := rfl
theorem issues_br (x : Long) (s : State) : issues (.br x) s = readyForm (longForm Shape.br false x) false s := rfl
theorem past_br (x : Long) (s : State) : past (.br x) s = s.advance (if x.wide then 12 else 8) := rfl
theorem formOf_br (x : Long) : formOf (.br x) = some (longForm Shape.br false x) := rfl
theorem issues_brL32B (x : ShortB) (s : State) : issues (.brL32B x) s = readyForm (shortBForm Shape.brL32B x) false s := rfl
theorem past_brL32B (x : ShortB) (s : State) : past (.brL32B x) s = s.advance (4) := rfl
theorem formOf_brL32B (x : ShortB) : formOf (.brL32B x) = some (shortBForm Shape.brL32B x) := rfl
theorem issues_brNotL32B (x : ShortB) (s : State) : issues (.brNotL32B x) s = readyForm (shortBForm Shape.brNotL32B x) false s := rfl
theorem past_brNotL32B (x : ShortB) (s : State) : past (.brNotL32B x) s = s.advance (4) := rfl
theorem formOf_brNotL32B (x : ShortB) : formOf (.brNotL32B x) = some (shortBForm Shape.brNotL32B x) := rfl
theorem issues_jmp (x : Long) (s : State) : issues (.jmp x) s = readyForm (longForm Shape.jmp false x) false s := rfl
theorem past_jmp (x : Long) (s : State) : past (.jmp x) s = s.advance (if x.wide then 12 else 8) := rfl
theorem formOf_jmp (x : Long) : formOf (.jmp x) = some (longForm Shape.jmp false x) := rfl
theorem issues_jmpL32A (x : ShortA) (s : State) : issues (.jmpL32A x) s = readyForm (shortAForm Shape.jmpL32A x) false s := rfl
theorem past_jmpL32A (x : ShortA) (s : State) : past (.jmpL32A x) s = s.advance (4) := rfl
theorem formOf_jmpL32A (x : ShortA) : formOf (.jmpL32A x) = some (shortAForm Shape.jmpL32A x) := rfl
theorem issues_jmpi (x : Long) (s : State) : issues (.jmpi x) s = readyForm (longForm Shape.jmpi false x) false s := rfl
theorem past_jmpi (x : Long) (s : State) : past (.jmpi x) s = s.advance (if x.wide then 12 else 8) := rfl
theorem formOf_jmpi (x : Long) : formOf (.jmpi x) = some (longForm Shape.jmpi false x) := rfl
theorem issues_jmpiL32A (x : ShortA) (s : State) : issues (.jmpiL32A x) s = readyForm (shortAForm Shape.jmpiL32A x) false s := rfl
theorem past_jmpiL32A (x : ShortA) (s : State) : past (.jmpiL32A x) s = s.advance (4) := rfl
theorem formOf_jmpiL32A (x : ShortA) : formOf (.jmpiL32A x) = some (shortAForm Shape.jmpiL32A x) := rfl
theorem issues_call (x : Long) (s : State) : issues (.call x) s = readyForm (longForm Shape.call false x) false s := rfl
theorem past_call (x : Long) (s : State) : past (.call x) s = s.advance (if x.wide then 12 else 8) := rfl
theorem formOf_call (x : Long) : formOf (.call x) = some (longForm Shape.call false x) := rfl
theorem issues_callL32B (x : ShortB) (s : State) : issues (.callL32B x) s = readyForm (shortBForm Shape.callL32B x) false s := rfl
theorem past_callL32B (x : ShortB) (s : State) : past (.callL32B x) s = s.advance (4) := rfl
theorem formOf_callL32B (x : ShortB) : formOf (.callL32B x) = some (shortBForm Shape.callL32B x) := rfl
theorem issues_calli (x : Long) (s : State) : issues (.calli x) s = readyForm (longForm Shape.calli false x) false s := rfl
theorem past_calli (x : Long) (s : State) : past (.calli x) s = s.advance (if x.wide then 12 else 8) := rfl
theorem formOf_calli (x : Long) : formOf (.calli x) = some (longForm Shape.calli false x) := rfl
theorem issues_calliL32A (x : ShortA) (s : State) : issues (.calliL32A x) s = readyForm (shortAForm Shape.calliL32A x) false s := rfl
theorem past_calliL32A (x : ShortA) (s : State) : past (.calliL32A x) s = s.advance (4) := rfl
theorem formOf_calliL32A (x : ShortA) : formOf (.calliL32A x) = some (shortAForm Shape.calliL32A x) := rfl
theorem issues_ret (x : Long) (s : State) : issues (.ret x) s = readyForm (longForm Shape.ret false x) false s := rfl
theorem past_ret (x : Long) (s : State) : past (.ret x) s = s.advance (if x.wide then 12 else 8) := rfl
theorem formOf_ret (x : Long) : formOf (.ret x) = some (longForm Shape.ret false x) := rfl
theorem issues_retL32A (x : ShortA) (s : State) : issues (.retL32A x) s = readyForm (shortAForm Shape.retL32A x) false s := rfl
theorem past_retL32A (x : ShortA) (s : State) : past (.retL32A x) s = s.advance (4) := rfl
theorem formOf_retL32A (x : ShortA) : formOf (.retL32A x) = some (shortAForm Shape.retL32A x) := rfl
theorem issues_loops (x : Long) (s : State) : issues (.loops x) s = readyForm (longForm Shape.loops false x) false s := rfl
theorem past_loops (x : Long) (s : State) : past (.loops x) s = s.advance (if x.wide then 12 else 8) := rfl
theorem formOf_loops (x : Long) : formOf (.loops x) = some (longForm Shape.loops false x) := rfl
theorem issues_endI (x : Long) (s : State) : issues (.endI x) s = readyForm (longForm Shape.endI false x) false s := rfl
theorem past_endI (x : Long) (s : State) : past (.endI x) s = s.advance (if x.wide then 12 else 8) := rfl
theorem formOf_endI (x : Long) : formOf (.endI x) = some (longForm Shape.endI false x) := rfl
theorem issues_endL32A (x : ShortA) (s : State) : issues (.endL32A x) s = readyForm (shortAForm Shape.endL32A x) false s := rfl
theorem past_endL32A (x : ShortA) (s : State) : past (.endL32A x) s = s.advance (4) := rfl
theorem formOf_endL32A (x : ShortA) : formOf (.endL32A x) = some (shortAForm Shape.endL32A x) := rfl
theorem issues_nop (x : Long) (s : State) : issues (.nop x) s = readyForm (longForm Shape.nop false x) false s := rfl
theorem past_nop (x : Long) (s : State) : past (.nop x) s = s.advance (if x.wide then 12 else 8) := rfl
theorem formOf_nop (x : Long) : formOf (.nop x) = some (longForm Shape.nop false x) := rfl
theorem issues_nopL32A (x : ShortA) (s : State) : issues (.nopL32A x) s = readyForm (shortAForm Shape.nopL32A x) false s := rfl
theorem past_nopL32A (x : ShortA) (s : State) : past (.nopL32A x) s = s.advance (4) := rfl
theorem formOf_nopL32A (x : ShortA) : formOf (.nopL32A x) = some (shortAForm Shape.nopL32A x) := rfl
theorem issues_gang (x : Long) (s : State) : issues (.gang x) s = readyForm (longForm Shape.gang false x) false s := rfl
theorem past_gang (x : Long) (s : State) : past (.gang x) s = s.advance (if x.wide then 12 else 8) := rfl
theorem formOf_gang (x : Long) : formOf (.gang x) = some (longForm Shape.gang false x) := rfl
theorem issues_ungang (x : Long) (s : State) : issues (.ungang x) s = readyForm (longForm Shape.ungang false x) false s := rfl
theorem past_ungang (x : Long) (s : State) : past (.ungang x) s = s.advance (if x.wide then 12 else 8) := rfl
theorem formOf_ungang (x : Long) : formOf (.ungang x) = some (longForm Shape.ungang false x) := rfl
theorem issues_ungangL32A (x : ShortA) (s : State) : issues (.ungangL32A x) s = readyForm (shortAForm Shape.ungangL32A x) false s := rfl
theorem past_ungangL32A (x : ShortA) (s : State) : past (.ungangL32A x) s = s.advance (4) := rfl
theorem formOf_ungangL32A (x : ShortA) : formOf (.ungangL32A x) = some (shortAForm Shape.ungangL32A x) := rfl
theorem issues_rejoin (x : Long) (s : State) : issues (.rejoin x) s = readyForm (longForm Shape.rejoin false x) false s := rfl
theorem past_rejoin (x : Long) (s : State) : past (.rejoin x) s = s.advance (if x.wide then 12 else 8) := rfl
theorem formOf_rejoin (x : Long) : formOf (.rejoin x) = some (longForm Shape.rejoin false x) := rfl
theorem issues_rejoinL32A (x : ShortA) (s : State) : issues (.rejoinL32A x) s = readyForm (shortAForm Shape.rejoinL32A x) false s := rfl
theorem past_rejoinL32A (x : ShortA) (s : State) : past (.rejoinL32A x) s = s.advance (4) := rfl
theorem formOf_rejoinL32A (x : ShortA) : formOf (.rejoinL32A x) = some (shortAForm Shape.rejoinL32A x) := rfl
theorem issues_pand (x : Long) (s : State) : issues (.pand x) s = readyForm (longForm Shape.pand false x) false s := rfl
theorem past_pand (x : Long) (s : State) : past (.pand x) s = s.advance (if x.wide then 12 else 8) := rfl
theorem formOf_pand (x : Long) : formOf (.pand x) = some (longForm Shape.pand false x) := rfl
theorem issues_pandL32A (x : ShortA) (s : State) : issues (.pandL32A x) s = readyForm (shortAForm Shape.pandL32A x) false s := rfl
theorem past_pandL32A (x : ShortA) (s : State) : past (.pandL32A x) s = s.advance (4) := rfl
theorem formOf_pandL32A (x : ShortA) : formOf (.pandL32A x) = some (shortAForm Shape.pandL32A x) := rfl
theorem issues_por (x : Long) (s : State) : issues (.por x) s = readyForm (longForm Shape.por false x) false s := rfl
theorem past_por (x : Long) (s : State) : past (.por x) s = s.advance (if x.wide then 12 else 8) := rfl
theorem formOf_por (x : Long) : formOf (.por x) = some (longForm Shape.por false x) := rfl
theorem issues_porL32A (x : ShortA) (s : State) : issues (.porL32A x) s = readyForm (shortAForm Shape.porL32A x) false s := rfl
theorem past_porL32A (x : ShortA) (s : State) : past (.porL32A x) s = s.advance (4) := rfl
theorem formOf_porL32A (x : ShortA) : formOf (.porL32A x) = some (shortAForm Shape.porL32A x) := rfl
theorem issues_pxor (x : Long) (s : State) : issues (.pxor x) s = readyForm (longForm Shape.pxor false x) false s := rfl
theorem past_pxor (x : Long) (s : State) : past (.pxor x) s = s.advance (if x.wide then 12 else 8) := rfl
theorem formOf_pxor (x : Long) : formOf (.pxor x) = some (longForm Shape.pxor false x) := rfl
theorem issues_pxorL32A (x : ShortA) (s : State) : issues (.pxorL32A x) s = readyForm (shortAForm Shape.pxorL32A x) false s := rfl
theorem past_pxorL32A (x : ShortA) (s : State) : past (.pxorL32A x) s = s.advance (4) := rfl
theorem formOf_pxorL32A (x : ShortA) : formOf (.pxorL32A x) = some (shortAForm Shape.pxorL32A x) := rfl
theorem issues_pnot (x : Long) (s : State) : issues (.pnot x) s = readyForm (longForm Shape.pnot false x) false s := rfl
theorem past_pnot (x : Long) (s : State) : past (.pnot x) s = s.advance (if x.wide then 12 else 8) := rfl
theorem formOf_pnot (x : Long) : formOf (.pnot x) = some (longForm Shape.pnot false x) := rfl
theorem issues_pnotL32A (x : ShortA) (s : State) : issues (.pnotL32A x) s = readyForm (shortAForm Shape.pnotL32A x) false s := rfl
theorem past_pnotL32A (x : ShortA) (s : State) : past (.pnotL32A x) s = s.advance (4) := rfl
theorem formOf_pnotL32A (x : ShortA) : formOf (.pnotL32A x) = some (shortAForm Shape.pnotL32A x) := rfl
theorem issues_pmov (x : Long) (s : State) : issues (.pmov x) s = readyForm (longForm Shape.pmov false x) false s := rfl
theorem past_pmov (x : Long) (s : State) : past (.pmov x) s = s.advance (if x.wide then 12 else 8) := rfl
theorem formOf_pmov (x : Long) : formOf (.pmov x) = some (longForm Shape.pmov false x) := rfl
theorem issues_pmovL32A (x : ShortA) (s : State) : issues (.pmovL32A x) s = readyForm (shortAForm Shape.pmovL32A x) false s := rfl
theorem past_pmovL32A (x : ShortA) (s : State) : past (.pmovL32A x) s = s.advance (4) := rfl
theorem formOf_pmovL32A (x : ShortA) : formOf (.pmovL32A x) = some (shortAForm Shape.pmovL32A x) := rfl
theorem issues_pmovFromG (x : Long) (s : State) : issues (.pmovFromG x) s = readyForm (longForm Shape.pmovFromG false x) false s := rfl
theorem past_pmovFromG (x : Long) (s : State) : past (.pmovFromG x) s = s.advance (if x.wide then 12 else 8) := rfl
theorem formOf_pmovFromG (x : Long) : formOf (.pmovFromG x) = some (longForm Shape.pmovFromG false x) := rfl
theorem issues_pmovFromGL32A (x : ShortA) (s : State) : issues (.pmovFromGL32A x) s = readyForm (shortAForm Shape.pmovFromGL32A x) false s := rfl
theorem past_pmovFromGL32A (x : ShortA) (s : State) : past (.pmovFromGL32A x) s = s.advance (4) := rfl
theorem formOf_pmovFromGL32A (x : ShortA) : formOf (.pmovFromGL32A x) = some (shortAForm Shape.pmovFromGL32A x) := rfl
theorem issues_pmovToG (x : Long) (s : State) : issues (.pmovToG x) s = readyForm (longForm Shape.pmovToG false x) false s := rfl
theorem past_pmovToG (x : Long) (s : State) : past (.pmovToG x) s = s.advance (if x.wide then 12 else 8) := rfl
theorem formOf_pmovToG (x : Long) : formOf (.pmovToG x) = some (longForm Shape.pmovToG false x) := rfl
theorem issues_pmovToGL32A (x : ShortA) (s : State) : issues (.pmovToGL32A x) s = readyForm (shortAForm Shape.pmovToGL32A x) false s := rfl
theorem past_pmovToGL32A (x : ShortA) (s : State) : past (.pmovToGL32A x) s = s.advance (4) := rfl
theorem formOf_pmovToGL32A (x : ShortA) : formOf (.pmovToGL32A x) = some (shortAForm Shape.pmovToGL32A x) := rfl
theorem issues_pcnt (x : Long) (s : State) : issues (.pcnt x) s = readyForm (longForm Shape.pcnt false x) false s := rfl
theorem past_pcnt (x : Long) (s : State) : past (.pcnt x) s = s.advance (if x.wide then 12 else 8) := rfl
theorem formOf_pcnt (x : Long) : formOf (.pcnt x) = some (longForm Shape.pcnt false x) := rfl
theorem issues_pcntL32A (x : ShortA) (s : State) : issues (.pcntL32A x) s = readyForm (shortAForm Shape.pcntL32A x) false s := rfl
theorem past_pcntL32A (x : ShortA) (s : State) : past (.pcntL32A x) s = s.advance (4) := rfl
theorem formOf_pcntL32A (x : ShortA) : formOf (.pcntL32A x) = some (shortAForm Shape.pcntL32A x) := rfl
theorem issues_qinc (x : Long) (s : State) : issues (.qinc x) s = readyForm (longForm Shape.qinc false x) false s := rfl
theorem past_qinc (x : Long) (s : State) : past (.qinc x) s = s.advance (if x.wide then 12 else 8) := rfl
theorem formOf_qinc (x : Long) : formOf (.qinc x) = some (longForm Shape.qinc false x) := rfl
theorem issues_qincL32A (x : ShortA) (s : State) : issues (.qincL32A x) s = readyForm (shortAForm Shape.qincL32A x) false s := rfl
theorem past_qincL32A (x : ShortA) (s : State) : past (.qincL32A x) s = s.advance (4) := rfl
theorem formOf_qincL32A (x : ShortA) : formOf (.qincL32A x) = some (shortAForm Shape.qincL32A x) := rfl
theorem issues_qadd (x : Long) (s : State) : issues (.qadd x) s = readyForm (longForm Shape.qadd false x) false s := rfl
theorem past_qadd (x : Long) (s : State) : past (.qadd x) s = s.advance (if x.wide then 12 else 8) := rfl
theorem formOf_qadd (x : Long) : formOf (.qadd x) = some (longForm Shape.qadd false x) := rfl
theorem issues_qaddL32B (x : ShortB) (s : State) : issues (.qaddL32B x) s = readyForm (shortBForm Shape.qaddL32B x) false s := rfl
theorem past_qaddL32B (x : ShortB) (s : State) : past (.qaddL32B x) s = s.advance (4) := rfl
theorem formOf_qaddL32B (x : ShortB) : formOf (.qaddL32B x) = some (shortBForm Shape.qaddL32B x) := rfl
theorem issues_qrd (x : Long) (s : State) : issues (.qrd x) s = readyForm (longForm Shape.qrd false x) false s := rfl
theorem past_qrd (x : Long) (s : State) : past (.qrd x) s = s.advance (if x.wide then 12 else 8) := rfl
theorem formOf_qrd (x : Long) : formOf (.qrd x) = some (longForm Shape.qrd false x) := rfl
theorem issues_qpost (x : Long) (s : State) : issues (.qpost x) s = readyForm (longForm Shape.qpost true x) false s := rfl
theorem past_qpost (x : Long) (s : State) : past (.qpost x) s = s.advance (if x.wide then 12 else 8) := rfl
theorem formOf_qpost (x : Long) : formOf (.qpost x) = some (longForm Shape.qpost true x) := rfl
theorem issues_waitq (x : Long) (s : State) : issues (.waitq x) s = readyForm (longForm Shape.waitq false x) false s := rfl
theorem past_waitq (x : Long) (s : State) : past (.waitq x) s = s.advance (if x.wide then 12 else 8) := rfl
theorem formOf_waitq (x : Long) : formOf (.waitq x) = some (longForm Shape.waitq false x) := rfl
theorem issues_waitb (x : Long) (s : State) : issues (.waitb x) s = readyForm (longForm Shape.waitb false x) false s := rfl
theorem past_waitb (x : Long) (s : State) : past (.waitb x) s = s.advance (if x.wide then 12 else 8) := rfl
theorem formOf_waitb (x : Long) : formOf (.waitb x) = some (longForm Shape.waitb false x) := rfl
theorem issues_waitvis (x : Long) (s : State) : issues (.waitvis x) s = readyForm (longForm Shape.waitvis false x) false s := rfl
theorem past_waitvis (x : Long) (s : State) : past (.waitvis x) s = s.advance (if x.wide then 12 else 8) := rfl
theorem formOf_waitvis (x : Long) : formOf (.waitvis x) = some (longForm Shape.waitvis false x) := rfl
theorem issues_succhint (x : Long) (s : State) : issues (.succhint x) s = readyForm (longForm Shape.succhint false x) false s := rfl
theorem past_succhint (x : Long) (s : State) : past (.succhint x) s = s.advance (if x.wide then 12 else 8) := rfl
theorem formOf_succhint (x : Long) : formOf (.succhint x) = some (longForm Shape.succhint false x) := rfl
theorem issues_succhintL32A (x : ShortA) (s : State) : issues (.succhintL32A x) s = readyForm (shortAForm Shape.succhintL32A x) false s := rfl
theorem past_succhintL32A (x : ShortA) (s : State) : past (.succhintL32A x) s = s.advance (4) := rfl
theorem formOf_succhintL32A (x : ShortA) : formOf (.succhintL32A x) = some (shortAForm Shape.succhintL32A x) := rfl
theorem issues_hwaitf (x : Long) (s : State) : issues (.hwaitf x) s = readyForm (longForm Shape.hwaitf false x) false s := rfl
theorem past_hwaitf (x : Long) (s : State) : past (.hwaitf x) s = s.advance (if x.wide then 12 else 8) := rfl
theorem formOf_hwaitf (x : Long) : formOf (.hwaitf x) = some (longForm Shape.hwaitf false x) := rfl
theorem issues_hwaitfL32B (x : ShortB) (s : State) : issues (.hwaitfL32B x) s = readyForm (shortBForm Shape.hwaitfL32B x) false s := rfl
theorem past_hwaitfL32B (x : ShortB) (s : State) : past (.hwaitfL32B x) s = s.advance (4) := rfl
theorem formOf_hwaitfL32B (x : ShortB) : formOf (.hwaitfL32B x) = some (shortBForm Shape.hwaitfL32B x) := rfl
theorem issues_hwaite (x : Long) (s : State) : issues (.hwaite x) s = readyForm (longForm Shape.hwaite false x) false s := rfl
theorem past_hwaite (x : Long) (s : State) : past (.hwaite x) s = s.advance (if x.wide then 12 else 8) := rfl
theorem formOf_hwaite (x : Long) : formOf (.hwaite x) = some (longForm Shape.hwaite false x) := rfl
theorem issues_hwaiteL32B (x : ShortB) (s : State) : issues (.hwaiteL32B x) s = readyForm (shortBForm Shape.hwaiteL32B x) false s := rfl
theorem past_hwaiteL32B (x : ShortB) (s : State) : past (.hwaiteL32B x) s = s.advance (4) := rfl
theorem formOf_hwaiteL32B (x : ShortB) : formOf (.hwaiteL32B x) = some (shortBForm Shape.hwaiteL32B x) := rfl
theorem issues_hld (x : Long) (s : State) : issues (.hld x) s = readyForm (longForm Shape.hld false x) false s := rfl
theorem past_hld (x : Long) (s : State) : past (.hld x) s = s.advance (if x.wide then 12 else 8) := rfl
theorem formOf_hld (x : Long) : formOf (.hld x) = some (longForm Shape.hld false x) := rfl
theorem issues_hst (x : Long) (s : State) : issues (.hst x) s = readyForm (longForm Shape.hst false x) false s := rfl
theorem past_hst (x : Long) (s : State) : past (.hst x) s = s.advance (if x.wide then 12 else 8) := rfl
theorem formOf_hst (x : Long) : formOf (.hst x) = some (longForm Shape.hst false x) := rfl
theorem issues_hadvc (x : Long) (s : State) : issues (.hadvc x) s = readyForm (longForm Shape.hadvc false x) false s := rfl
theorem past_hadvc (x : Long) (s : State) : past (.hadvc x) s = s.advance (if x.wide then 12 else 8) := rfl
theorem formOf_hadvc (x : Long) : formOf (.hadvc x) = some (longForm Shape.hadvc false x) := rfl
theorem issues_hadvcL32B (x : ShortB) (s : State) : issues (.hadvcL32B x) s = readyForm (shortBForm Shape.hadvcL32B x) false s := rfl
theorem past_hadvcL32B (x : ShortB) (s : State) : past (.hadvcL32B x) s = s.advance (4) := rfl
theorem formOf_hadvcL32B (x : ShortB) : formOf (.hadvcL32B x) = some (shortBForm Shape.hadvcL32B x) := rfl
theorem issues_hadvp (x : Long) (s : State) : issues (.hadvp x) s = readyForm (longForm Shape.hadvp true x) false s := rfl
theorem past_hadvp (x : Long) (s : State) : past (.hadvp x) s = s.advance (if x.wide then 12 else 8) := rfl
theorem formOf_hadvp (x : Long) : formOf (.hadvp x) = some (longForm Shape.hadvp true x) := rfl
theorem issues_hadvpL32B (x : ShortB) (s : State) : issues (.hadvpL32B x) s = readyForm (shortBForm Shape.hadvpL32B x) false s := rfl
theorem past_hadvpL32B (x : ShortB) (s : State) : past (.hadvpL32B x) s = s.advance (4) := rfl
theorem formOf_hadvpL32B (x : ShortB) : formOf (.hadvpL32B x) = some (shortBForm Shape.hadvpL32B x) := rfl
theorem issues_heos (x : Long) (s : State) : issues (.heos x) s = readyForm (longForm Shape.heos true x) false s := rfl
theorem past_heos (x : Long) (s : State) : past (.heos x) s = s.advance (if x.wide then 12 else 8) := rfl
theorem formOf_heos (x : Long) : formOf (.heos x) = some (longForm Shape.heos true x) := rfl
theorem issues_hstat (x : Long) (s : State) : issues (.hstat x) s = readyForm (longForm Shape.hstat false x) false s := rfl
theorem past_hstat (x : Long) (s : State) : past (.hstat x) s = s.advance (if x.wide then 12 else 8) := rfl
theorem formOf_hstat (x : Long) : formOf (.hstat x) = some (longForm Shape.hstat false x) := rfl
theorem issues_hstatL32A (x : ShortA) (s : State) : issues (.hstatL32A x) s = readyForm (shortAForm Shape.hstatL32A x) false s := rfl
theorem past_hstatL32A (x : ShortA) (s : State) : past (.hstatL32A x) s = s.advance (4) := rfl
theorem formOf_hstatL32A (x : ShortA) : formOf (.hstatL32A x) = some (shortAForm Shape.hstatL32A x) := rfl
theorem issues_send (x : Long) (s : State) : issues (.send x) s = readyForm (longForm Shape.send true x) false s := rfl
theorem past_send (x : Long) (s : State) : past (.send x) s = s.advance (if x.wide then 12 else 8) := rfl
theorem formOf_send (x : Long) : formOf (.send x) = some (longForm Shape.send true x) := rfl
theorem issues_sendq (x : Long) (s : State) : issues (.sendq x) s = readyForm (longForm Shape.sendq true x) false s := rfl
theorem past_sendq (x : Long) (s : State) : past (.sendq x) s = s.advance (if x.wide then 12 else 8) := rfl
theorem formOf_sendq (x : Long) : formOf (.sendq x) = some (longForm Shape.sendq true x) := rfl
theorem issues_cred (x : Long) (s : State) : issues (.cred x) s = readyForm (longForm Shape.cred false x) false s := rfl
theorem past_cred (x : Long) (s : State) : past (.cred x) s = s.advance (if x.wide then 12 else 8) := rfl
theorem formOf_cred (x : Long) : formOf (.cred x) = some (longForm Shape.cred false x) := rfl
theorem issues_cderive (x : Long) (s : State) : issues (.cderive x) s = readyForm (longForm Shape.cderive false x) false s := rfl
theorem past_cderive (x : Long) (s : State) : past (.cderive x) s = s.advance (if x.wide then 12 else 8) := rfl
theorem formOf_cderive (x : Long) : formOf (.cderive x) = some (longForm Shape.cderive false x) := rfl
theorem issues_cperm (x : Long) (s : State) : issues (.cperm x) s = readyForm (longForm Shape.cperm false x) false s := rfl
theorem past_cperm (x : Long) (s : State) : past (.cperm x) s = s.advance (if x.wide then 12 else 8) := rfl
theorem formOf_cperm (x : Long) : formOf (.cperm x) = some (longForm Shape.cperm false x) := rfl
theorem issues_cseal (x : Long) (s : State) : issues (.cseal x) s = readyForm (longForm Shape.cseal false x) false s := rfl
theorem past_cseal (x : Long) (s : State) : past (.cseal x) s = s.advance (if x.wide then 12 else 8) := rfl
theorem formOf_cseal (x : Long) : formOf (.cseal x) = some (longForm Shape.cseal false x) := rfl
theorem issues_csealL32A (x : ShortA) (s : State) : issues (.csealL32A x) s = readyForm (shortAForm Shape.csealL32A x) false s := rfl
theorem past_csealL32A (x : ShortA) (s : State) : past (.csealL32A x) s = s.advance (4) := rfl
theorem formOf_csealL32A (x : ShortA) : formOf (.csealL32A x) = some (shortAForm Shape.csealL32A x) := rfl
theorem issues_cunseal (x : Long) (s : State) : issues (.cunseal x) s = readyForm (longForm Shape.cunseal false x) false s := rfl
theorem past_cunseal (x : Long) (s : State) : past (.cunseal x) s = s.advance (if x.wide then 12 else 8) := rfl
theorem formOf_cunseal (x : Long) : formOf (.cunseal x) = some (longForm Shape.cunseal false x) := rfl
theorem issues_cunsealL32A (x : ShortA) (s : State) : issues (.cunsealL32A x) s = readyForm (shortAForm Shape.cunsealL32A x) false s := rfl
theorem past_cunsealL32A (x : ShortA) (s : State) : past (.cunsealL32A x) s = s.advance (4) := rfl
theorem formOf_cunsealL32A (x : ShortA) : formOf (.cunsealL32A x) = some (shortAForm Shape.cunsealL32A x) := rfl
theorem issues_cbase (x : Long) (s : State) : issues (.cbase x) s = readyForm (longForm Shape.cbase false x) false s := rfl
theorem past_cbase (x : Long) (s : State) : past (.cbase x) s = s.advance (if x.wide then 12 else 8) := rfl
theorem formOf_cbase (x : Long) : formOf (.cbase x) = some (longForm Shape.cbase false x) := rfl
theorem issues_cbaseL32A (x : ShortA) (s : State) : issues (.cbaseL32A x) s = readyForm (shortAForm Shape.cbaseL32A x) false s := rfl
theorem past_cbaseL32A (x : ShortA) (s : State) : past (.cbaseL32A x) s = s.advance (4) := rfl
theorem formOf_cbaseL32A (x : ShortA) : formOf (.cbaseL32A x) = some (shortAForm Shape.cbaseL32A x) := rfl
theorem issues_clen (x : Long) (s : State) : issues (.clen x) s = readyForm (longForm Shape.clen false x) false s := rfl
theorem past_clen (x : Long) (s : State) : past (.clen x) s = s.advance (if x.wide then 12 else 8) := rfl
theorem formOf_clen (x : Long) : formOf (.clen x) = some (longForm Shape.clen false x) := rfl
theorem issues_clenL32A (x : ShortA) (s : State) : issues (.clenL32A x) s = readyForm (shortAForm Shape.clenL32A x) false s := rfl
theorem past_clenL32A (x : ShortA) (s : State) : past (.clenL32A x) s = s.advance (4) := rfl
theorem formOf_clenL32A (x : ShortA) : formOf (.clenL32A x) = some (shortAForm Shape.clenL32A x) := rfl
theorem issues_cperms (x : Long) (s : State) : issues (.cperms x) s = readyForm (longForm Shape.cperms false x) false s := rfl
theorem past_cperms (x : Long) (s : State) : past (.cperms x) s = s.advance (if x.wide then 12 else 8) := rfl
theorem formOf_cperms (x : Long) : formOf (.cperms x) = some (longForm Shape.cperms false x) := rfl
theorem issues_cpermsL32A (x : ShortA) (s : State) : issues (.cpermsL32A x) s = readyForm (shortAForm Shape.cpermsL32A x) false s := rfl
theorem past_cpermsL32A (x : ShortA) (s : State) : past (.cpermsL32A x) s = s.advance (4) := rfl
theorem formOf_cpermsL32A (x : ShortA) : formOf (.cpermsL32A x) = some (shortAForm Shape.cpermsL32A x) := rfl
theorem issues_ctype (x : Long) (s : State) : issues (.ctype x) s = readyForm (longForm Shape.ctype false x) false s := rfl
theorem past_ctype (x : Long) (s : State) : past (.ctype x) s = s.advance (if x.wide then 12 else 8) := rfl
theorem formOf_ctype (x : Long) : formOf (.ctype x) = some (longForm Shape.ctype false x) := rfl
theorem issues_ctypeL32A (x : ShortA) (s : State) : issues (.ctypeL32A x) s = readyForm (shortAForm Shape.ctypeL32A x) false s := rfl
theorem past_ctypeL32A (x : ShortA) (s : State) : past (.ctypeL32A x) s = s.advance (4) := rfl
theorem formOf_ctypeL32A (x : ShortA) : formOf (.ctypeL32A x) = some (shortAForm Shape.ctypeL32A x) := rfl
theorem issues_ctag (x : Long) (s : State) : issues (.ctag x) s = readyForm (longForm Shape.ctag false x) false s := rfl
theorem past_ctag (x : Long) (s : State) : past (.ctag x) s = s.advance (if x.wide then 12 else 8) := rfl
theorem formOf_ctag (x : Long) : formOf (.ctag x) = some (longForm Shape.ctag false x) := rfl
theorem issues_ctagL32A (x : ShortA) (s : State) : issues (.ctagL32A x) s = readyForm (shortAForm Shape.ctagL32A x) false s := rfl
theorem past_ctagL32A (x : ShortA) (s : State) : past (.ctagL32A x) s = s.advance (4) := rfl
theorem formOf_ctagL32A (x : ShortA) : formOf (.ctagL32A x) = some (shortAForm Shape.ctagL32A x) := rfl
theorem issues_cclr (x : Long) (s : State) : issues (.cclr x) s = readyForm (longForm Shape.cclr false x) false s := rfl
theorem past_cclr (x : Long) (s : State) : past (.cclr x) s = s.advance (if x.wide then 12 else 8) := rfl
theorem formOf_cclr (x : Long) : formOf (.cclr x) = some (longForm Shape.cclr false x) := rfl
theorem issues_cclrL32A (x : ShortA) (s : State) : issues (.cclrL32A x) s = readyForm (shortAForm Shape.cclrL32A x) false s := rfl
theorem past_cclrL32A (x : ShortA) (s : State) : past (.cclrL32A x) s = s.advance (4) := rfl
theorem formOf_cclrL32A (x : ShortA) : formOf (.cclrL32A x) = some (shortAForm Shape.cclrL32A x) := rfl
theorem issues_cmov (x : Long) (s : State) : issues (.cmov x) s = readyForm (longForm Shape.cmov false x) false s := rfl
theorem past_cmov (x : Long) (s : State) : past (.cmov x) s = s.advance (if x.wide then 12 else 8) := rfl
theorem formOf_cmov (x : Long) : formOf (.cmov x) = some (longForm Shape.cmov false x) := rfl
theorem issues_cmovL32A (x : ShortA) (s : State) : issues (.cmovL32A x) s = readyForm (shortAForm Shape.cmovL32A x) false s := rfl
theorem past_cmovL32A (x : ShortA) (s : State) : past (.cmovL32A x) s = s.advance (4) := rfl
theorem formOf_cmovL32A (x : ShortA) : formOf (.cmovL32A x) = some (shortAForm Shape.cmovL32A x) := rfl
theorem issues_cldc (x : Long) (s : State) : issues (.cldc x) s = readyForm (longForm Shape.cldc true x) false s := rfl
theorem past_cldc (x : Long) (s : State) : past (.cldc x) s = s.advance (if x.wide then 12 else 8) := rfl
theorem formOf_cldc (x : Long) : formOf (.cldc x) = some (longForm Shape.cldc true x) := rfl
theorem issues_cldcL32B (x : ShortB) (s : State) : issues (.cldcL32B x) s = readyForm (shortBForm Shape.cldcL32B x) false s := rfl
theorem past_cldcL32B (x : ShortB) (s : State) : past (.cldcL32B x) s = s.advance (4) := rfl
theorem formOf_cldcL32B (x : ShortB) : formOf (.cldcL32B x) = some (shortBForm Shape.cldcL32B x) := rfl
theorem issues_cstc (x : Long) (s : State) : issues (.cstc x) s = readyForm (longForm Shape.cstc true x) false s := rfl
theorem past_cstc (x : Long) (s : State) : past (.cstc x) s = s.advance (if x.wide then 12 else 8) := rfl
theorem formOf_cstc (x : Long) : formOf (.cstc x) = some (longForm Shape.cstc true x) := rfl
theorem issues_cstcL32B (x : ShortB) (s : State) : issues (.cstcL32B x) s = readyForm (shortBForm Shape.cstcL32B x) false s := rfl
theorem past_cstcL32B (x : ShortB) (s : State) : past (.cstcL32B x) s = s.advance (4) := rfl
theorem formOf_cstcL32B (x : ShortB) : formOf (.cstcL32B x) = some (shortBForm Shape.cstcL32B x) := rfl
theorem issues_cchk (x : Long) (s : State) : issues (.cchk x) s = readyForm (longForm Shape.cchk false x) false s := rfl
theorem past_cchk (x : Long) (s : State) : past (.cchk x) s = s.advance (if x.wide then 12 else 8) := rfl
theorem formOf_cchk (x : Long) : formOf (.cchk x) = some (longForm Shape.cchk false x) := rfl
theorem issues_trap (x : Long) (s : State) : issues (.trap x) s = readyForm (longForm Shape.trap false x) false s := rfl
theorem past_trap (x : Long) (s : State) : past (.trap x) s = s.advance (if x.wide then 12 else 8) := rfl
theorem formOf_trap (x : Long) : formOf (.trap x) = some (longForm Shape.trap false x) := rfl
theorem issues_trapL32B (x : ShortB) (s : State) : issues (.trapL32B x) s = readyForm (shortBForm Shape.trapL32B x) false s := rfl
theorem past_trapL32B (x : ShortB) (s : State) : past (.trapL32B x) s = s.advance (4) := rfl
theorem formOf_trapL32B (x : ShortB) : formOf (.trapL32B x) = some (shortBForm Shape.trapL32B x) := rfl
theorem issues_wick (x : Long) (s : State) : issues (.wick x) s = readyForm (longForm Shape.wick false x) false s := rfl
theorem past_wick (x : Long) (s : State) : past (.wick x) s = s.advance (if x.wide then 12 else 8) := rfl
theorem formOf_wick (x : Long) : formOf (.wick x) = some (longForm Shape.wick false x) := rfl
theorem issues_wickL32A (x : ShortA) (s : State) : issues (.wickL32A x) s = readyForm (shortAForm Shape.wickL32A x) false s := rfl
theorem past_wickL32A (x : ShortA) (s : State) : past (.wickL32A x) s = s.advance (4) := rfl
theorem formOf_wickL32A (x : ShortA) : formOf (.wickL32A x) = some (shortAForm Shape.wickL32A x) := rfl
theorem issues_wid (x : Long) (s : State) : issues (.wid x) s = readyForm (longForm Shape.wid false x) false s := rfl
theorem past_wid (x : Long) (s : State) : past (.wid x) s = s.advance (if x.wide then 12 else 8) := rfl
theorem formOf_wid (x : Long) : formOf (.wid x) = some (longForm Shape.wid false x) := rfl
theorem issues_widL32B (x : ShortB) (s : State) : issues (.widL32B x) s = readyForm (shortBForm Shape.widL32B x) false s := rfl
theorem past_widL32B (x : ShortB) (s : State) : past (.widL32B x) s = s.advance (4) := rfl
theorem formOf_widL32B (x : ShortB) : formOf (.widL32B x) = some (shortBForm Shape.widL32B x) := rfl
theorem issues_who (x : Long) (s : State) : issues (.who x) s = readyForm (longForm Shape.who false x) false s := rfl
theorem past_who (x : Long) (s : State) : past (.who x) s = s.advance (if x.wide then 12 else 8) := rfl
theorem formOf_who (x : Long) : formOf (.who x) = some (longForm Shape.who false x) := rfl
theorem issues_query (x : Long) (s : State) : issues (.query x) s = readyForm (longForm Shape.query false x) false s := rfl
theorem past_query (x : Long) (s : State) : past (.query x) s = s.advance (if x.wide then 12 else 8) := rfl
theorem formOf_query (x : Long) : formOf (.query x) = some (longForm Shape.query false x) := rfl
theorem issues_queryL32A (x : ShortA) (s : State) : issues (.queryL32A x) s = readyForm (shortAForm Shape.queryL32A x) false s := rfl
theorem past_queryL32A (x : ShortA) (s : State) : past (.queryL32A x) s = s.advance (4) := rfl
theorem formOf_queryL32A (x : ShortA) : formOf (.queryL32A x) = some (shortAForm Shape.queryL32A x) := rfl
theorem issues_time (x : Long) (s : State) : issues (.time x) s = readyForm (longForm Shape.time false x) false s := rfl
theorem past_time (x : Long) (s : State) : past (.time x) s = s.advance (if x.wide then 12 else 8) := rfl
theorem formOf_time (x : Long) : formOf (.time x) = some (longForm Shape.time false x) := rfl
theorem issues_timeL32A (x : ShortA) (s : State) : issues (.timeL32A x) s = readyForm (shortAForm Shape.timeL32A x) false s := rfl
theorem past_timeL32A (x : ShortA) (s : State) : past (.timeL32A x) s = s.advance (4) := rfl
theorem formOf_timeL32A (x : ShortA) : formOf (.timeL32A x) = some (shortAForm Shape.timeL32A x) := rfl
theorem issues_timeEnergy (x : Long) (s : State) : issues (.timeEnergy x) s = readyForm (longForm Shape.timeEnergy false x) false s := rfl
theorem past_timeEnergy (x : Long) (s : State) : past (.timeEnergy x) s = s.advance (if x.wide then 12 else 8) := rfl
theorem formOf_timeEnergy (x : Long) : formOf (.timeEnergy x) = some (longForm Shape.timeEnergy false x) := rfl
theorem issues_timeEnergyL32A (x : ShortA) (s : State) : issues (.timeEnergyL32A x) s = readyForm (shortAForm Shape.timeEnergyL32A x) false s := rfl
theorem past_timeEnergyL32A (x : ShortA) (s : State) : past (.timeEnergyL32A x) s = s.advance (4) := rfl
theorem formOf_timeEnergyL32A (x : ShortA) : formOf (.timeEnergyL32A x) = some (shortAForm Shape.timeEnergyL32A x) := rfl
theorem issues_sysrd (x : Long) (s : State) : issues (.sysrd x) s = readyForm (longForm Shape.sysrd false x) false s := rfl
theorem past_sysrd (x : Long) (s : State) : past (.sysrd x) s = s.advance (if x.wide then 12 else 8) := rfl
theorem formOf_sysrd (x : Long) : formOf (.sysrd x) = some (longForm Shape.sysrd false x) := rfl
theorem issues_syswr (x : Long) (s : State) : issues (.syswr x) s = readyForm (longForm Shape.syswr false x) false s := rfl
theorem past_syswr (x : Long) (s : State) : past (.syswr x) s = s.advance (if x.wide then 12 else 8) := rfl
theorem formOf_syswr (x : Long) : formOf (.syswr x) = some (longForm Shape.syswr false x) := rfl
theorem issues_yield (x : Long) (s : State) : issues (.yield x) s = readyForm (longForm Shape.yield false x) false s := rfl
theorem past_yield (x : Long) (s : State) : past (.yield x) s = s.advance (if x.wide then 12 else 8) := rfl
theorem formOf_yield (x : Long) : formOf (.yield x) = some (longForm Shape.yield false x) := rfl
theorem issues_yieldL32A (x : ShortA) (s : State) : issues (.yieldL32A x) s = readyForm (shortAForm Shape.yieldL32A x) false s := rfl
theorem past_yieldL32A (x : ShortA) (s : State) : past (.yieldL32A x) s = s.advance (4) := rfl
theorem formOf_yieldL32A (x : ShortA) : formOf (.yieldL32A x) = some (shortAForm Shape.yieldL32A x) := rfl
theorem issues_gate (x : Long) (s : State) : issues (.gate x) s = readyForm (longForm Shape.gate false x) true s := rfl
theorem past_gate (x : Long) (s : State) : past (.gate x) s = s.advance (if x.wide then 12 else 8) := rfl
theorem formOf_gate (x : Long) : formOf (.gate x) = some (longForm Shape.gate false x) := rfl
theorem issues_snuff (x : Long) (s : State) : issues (.snuff x) s = readyForm (longForm Shape.snuff false x) true s := rfl
theorem past_snuff (x : Long) (s : State) : past (.snuff x) s = s.advance (if x.wide then 12 else 8) := rfl
theorem formOf_snuff (x : Long) : formOf (.snuff x) = some (longForm Shape.snuff false x) := rfl
theorem issues_nameset (x : Long) (s : State) : issues (.nameset x) s = readyForm (longForm Shape.nameset false x) true s := rfl
theorem past_nameset (x : Long) (s : State) : past (.nameset x) s = s.advance (if x.wide then 12 else 8) := rfl
theorem formOf_nameset (x : Long) : formOf (.nameset x) = some (longForm Shape.nameset false x) := rfl
theorem issues_leaseack (x : Long) (s : State) : issues (.leaseack x) s = readyForm (longForm Shape.leaseack false x) true s := rfl
theorem past_leaseack (x : Long) (s : State) : past (.leaseack x) s = s.advance (if x.wide then 12 else 8) := rfl
theorem formOf_leaseack (x : Long) : formOf (.leaseack x) = some (longForm Shape.leaseack false x) := rfl
theorem issues_fresume (x : Long) (s : State) : issues (.fresume x) s = readyForm (longForm Shape.fresume false x) true s := rfl
theorem past_fresume (x : Long) (s : State) : past (.fresume x) s = s.advance (if x.wide then 12 else 8) := rfl
theorem formOf_fresume (x : Long) : formOf (.fresume x) = some (longForm Shape.fresume false x) := rfl
theorem issues_fresumeValue (x : Long) (s : State) : issues (.fresumeValue x) s = readyForm (longForm Shape.fresumeValue false x) true s := rfl
theorem past_fresumeValue (x : Long) (s : State) : past (.fresumeValue x) s = s.advance (if x.wide then 12 else 8) := rfl
theorem formOf_fresumeValue (x : Long) : formOf (.fresumeValue x) = some (longForm Shape.fresumeValue false x) := rfl
theorem issues_fkill (x : Long) (s : State) : issues (.fkill x) s = readyForm (longForm Shape.fkill false x) true s := rfl
theorem past_fkill (x : Long) (s : State) : past (.fkill x) s = s.advance (if x.wide then 12 else 8) := rfl
theorem formOf_fkill (x : Long) : formOf (.fkill x) = some (longForm Shape.fkill false x) := rfl
theorem issues_ld (x : Long) (s : State) : issues (.ld x) s = readyForm (longForm Shape.ld true x) false s := rfl
theorem past_ld (x : Long) (s : State) : past (.ld x) s = s.advance (if x.wide then 12 else 8) := rfl
theorem formOf_ld (x : Long) : formOf (.ld x) = some (longForm Shape.ld true x) := rfl
theorem issues_ldN64L32B (x : ShortB) (s : State) : issues (.ldN64L32B x) s = readyForm (shortBForm Shape.ldN64L32B x) false s := rfl
theorem past_ldN64L32B (x : ShortB) (s : State) : past (.ldN64L32B x) s = s.advance (4) := rfl
theorem formOf_ldN64L32B (x : ShortB) : formOf (.ldN64L32B x) = some (shortBForm Shape.ldN64L32B x) := rfl
theorem issues_ldI32L32B (x : ShortB) (s : State) : issues (.ldI32L32B x) s = readyForm (shortBForm Shape.ldI32L32B x) false s := rfl
theorem past_ldI32L32B (x : ShortB) (s : State) : past (.ldI32L32B x) s = s.advance (4) := rfl
theorem formOf_ldI32L32B (x : ShortB) : formOf (.ldI32L32B x) = some (shortBForm Shape.ldI32L32B x) := rfl
theorem issues_ldN32L32B (x : ShortB) (s : State) : issues (.ldN32L32B x) s = readyForm (shortBForm Shape.ldN32L32B x) false s := rfl
theorem past_ldN32L32B (x : ShortB) (s : State) : past (.ldN32L32B x) s = s.advance (4) := rfl
theorem formOf_ldN32L32B (x : ShortB) : formOf (.ldN32L32B x) = some (shortBForm Shape.ldN32L32B x) := rfl
theorem issues_ldI16L32B (x : ShortB) (s : State) : issues (.ldI16L32B x) s = readyForm (shortBForm Shape.ldI16L32B x) false s := rfl
theorem past_ldI16L32B (x : ShortB) (s : State) : past (.ldI16L32B x) s = s.advance (4) := rfl
theorem formOf_ldI16L32B (x : ShortB) : formOf (.ldI16L32B x) = some (shortBForm Shape.ldI16L32B x) := rfl
theorem issues_ldN16L32B (x : ShortB) (s : State) : issues (.ldN16L32B x) s = readyForm (shortBForm Shape.ldN16L32B x) false s := rfl
theorem past_ldN16L32B (x : ShortB) (s : State) : past (.ldN16L32B x) s = s.advance (4) := rfl
theorem formOf_ldN16L32B (x : ShortB) : formOf (.ldN16L32B x) = some (shortBForm Shape.ldN16L32B x) := rfl
theorem issues_ldI8L32B (x : ShortB) (s : State) : issues (.ldI8L32B x) s = readyForm (shortBForm Shape.ldI8L32B x) false s := rfl
theorem past_ldI8L32B (x : ShortB) (s : State) : past (.ldI8L32B x) s = s.advance (4) := rfl
theorem formOf_ldI8L32B (x : ShortB) : formOf (.ldI8L32B x) = some (shortBForm Shape.ldI8L32B x) := rfl
theorem issues_ldN8L32B (x : ShortB) (s : State) : issues (.ldN8L32B x) s = readyForm (shortBForm Shape.ldN8L32B x) false s := rfl
theorem past_ldN8L32B (x : ShortB) (s : State) : past (.ldN8L32B x) s = s.advance (4) := rfl
theorem formOf_ldN8L32B (x : ShortB) : formOf (.ldN8L32B x) = some (shortBForm Shape.ldN8L32B x) := rfl
theorem issues_st (x : Long) (s : State) : issues (.st x) s = readyForm (longForm Shape.st true x) false s := rfl
theorem past_st (x : Long) (s : State) : past (.st x) s = s.advance (if x.wide then 12 else 8) := rfl
theorem formOf_st (x : Long) : formOf (.st x) = some (longForm Shape.st true x) := rfl
theorem issues_stN64L32B (x : ShortB) (s : State) : issues (.stN64L32B x) s = readyForm (shortBForm Shape.stN64L32B x) false s := rfl
theorem past_stN64L32B (x : ShortB) (s : State) : past (.stN64L32B x) s = s.advance (4) := rfl
theorem formOf_stN64L32B (x : ShortB) : formOf (.stN64L32B x) = some (shortBForm Shape.stN64L32B x) := rfl
theorem issues_stN32L32B (x : ShortB) (s : State) : issues (.stN32L32B x) s = readyForm (shortBForm Shape.stN32L32B x) false s := rfl
theorem past_stN32L32B (x : ShortB) (s : State) : past (.stN32L32B x) s = s.advance (4) := rfl
theorem formOf_stN32L32B (x : ShortB) : formOf (.stN32L32B x) = some (shortBForm Shape.stN32L32B x) := rfl
theorem issues_stN16L32B (x : ShortB) (s : State) : issues (.stN16L32B x) s = readyForm (shortBForm Shape.stN16L32B x) false s := rfl
theorem past_stN16L32B (x : ShortB) (s : State) : past (.stN16L32B x) s = s.advance (4) := rfl
theorem formOf_stN16L32B (x : ShortB) : formOf (.stN16L32B x) = some (shortBForm Shape.stN16L32B x) := rfl
theorem issues_stN8L32B (x : ShortB) (s : State) : issues (.stN8L32B x) s = readyForm (shortBForm Shape.stN8L32B x) false s := rfl
theorem past_stN8L32B (x : ShortB) (s : State) : past (.stN8L32B x) s = s.advance (4) := rfl
theorem formOf_stN8L32B (x : ShortB) : formOf (.stN8L32B x) = some (shortBForm Shape.stN8L32B x) := rfl
theorem issues_lda (x : Long) (s : State) : issues (.lda x) s = readyForm (longForm Shape.lda true x) false s := rfl
theorem past_lda (x : Long) (s : State) : past (.lda x) s = s.advance (if x.wide then 12 else 8) := rfl
theorem formOf_lda (x : Long) : formOf (.lda x) = some (longForm Shape.lda true x) := rfl
theorem issues_stl (x : Long) (s : State) : issues (.stl x) s = readyForm (longForm Shape.stl true x) false s := rfl
theorem past_stl (x : Long) (s : State) : past (.stl x) s = s.advance (if x.wide then 12 else 8) := rfl
theorem formOf_stl (x : Long) : formOf (.stl x) = some (longForm Shape.stl true x) := rfl
theorem issues_pf (x : Long) (s : State) : issues (.pf x) s = readyForm (longForm Shape.pf true x) false s := rfl
theorem past_pf (x : Long) (s : State) : past (.pf x) s = s.advance (if x.wide then 12 else 8) := rfl
theorem formOf_pf (x : Long) : formOf (.pf x) = some (longForm Shape.pf true x) := rfl
theorem issues_pfL32B (x : ShortB) (s : State) : issues (.pfL32B x) s = readyForm (shortBForm Shape.pfL32B x) false s := rfl
theorem past_pfL32B (x : ShortB) (s : State) : past (.pfL32B x) s = s.advance (4) := rfl
theorem formOf_pfL32B (x : ShortB) : formOf (.pfL32B x) = some (shortBForm Shape.pfL32B x) := rfl
theorem issues_aadd (x : Long) (s : State) : issues (.aadd x) s = readyForm (longForm Shape.aadd true x) false s := rfl
theorem past_aadd (x : Long) (s : State) : past (.aadd x) s = s.advance (if x.wide then 12 else 8) := rfl
theorem formOf_aadd (x : Long) : formOf (.aadd x) = some (longForm Shape.aadd true x) := rfl
theorem issues_amin (x : Long) (s : State) : issues (.amin x) s = readyForm (longForm Shape.amin true x) false s := rfl
theorem past_amin (x : Long) (s : State) : past (.amin x) s = s.advance (if x.wide then 12 else 8) := rfl
theorem formOf_amin (x : Long) : formOf (.amin x) = some (longForm Shape.amin true x) := rfl
theorem issues_amax (x : Long) (s : State) : issues (.amax x) s = readyForm (longForm Shape.amax true x) false s := rfl
theorem past_amax (x : Long) (s : State) : past (.amax x) s = s.advance (if x.wide then 12 else 8) := rfl
theorem formOf_amax (x : Long) : formOf (.amax x) = some (longForm Shape.amax true x) := rfl
theorem issues_aand (x : Long) (s : State) : issues (.aand x) s = readyForm (longForm Shape.aand true x) false s := rfl
theorem past_aand (x : Long) (s : State) : past (.aand x) s = s.advance (if x.wide then 12 else 8) := rfl
theorem formOf_aand (x : Long) : formOf (.aand x) = some (longForm Shape.aand true x) := rfl
theorem issues_aor (x : Long) (s : State) : issues (.aor x) s = readyForm (longForm Shape.aor true x) false s := rfl
theorem past_aor (x : Long) (s : State) : past (.aor x) s = s.advance (if x.wide then 12 else 8) := rfl
theorem formOf_aor (x : Long) : formOf (.aor x) = some (longForm Shape.aor true x) := rfl
theorem issues_axor (x : Long) (s : State) : issues (.axor x) s = readyForm (longForm Shape.axor true x) false s := rfl
theorem past_axor (x : Long) (s : State) : past (.axor x) s = s.advance (if x.wide then 12 else 8) := rfl
theorem formOf_axor (x : Long) : formOf (.axor x) = some (longForm Shape.axor true x) := rfl
theorem issues_aswp (x : Long) (s : State) : issues (.aswp x) s = readyForm (longForm Shape.aswp true x) false s := rfl
theorem past_aswp (x : Long) (s : State) : past (.aswp x) s = s.advance (if x.wide then 12 else 8) := rfl
theorem formOf_aswp (x : Long) : formOf (.aswp x) = some (longForm Shape.aswp true x) := rfl
theorem issues_acas (x : Long) (s : State) : issues (.acas x) s = readyForm (longForm Shape.acas true x) false s := rfl
theorem past_acas (x : Long) (s : State) : past (.acas x) s = s.advance (if x.wide then 12 else 8) := rfl
theorem formOf_acas (x : Long) : formOf (.acas x) = some (longForm Shape.acas true x) := rfl
theorem issues_aaddf (x : Long) (s : State) : issues (.aaddf x) s = readyForm (longForm Shape.aaddf true x) false s := rfl
theorem past_aaddf (x : Long) (s : State) : past (.aaddf x) s = s.advance (if x.wide then 12 else 8) := rfl
theorem formOf_aaddf (x : Long) : formOf (.aaddf x) = some (longForm Shape.aaddf true x) := rfl
theorem issues_fence (x : Long) (s : State) : issues (.fence x) s = readyForm (longForm Shape.fence true x) false s := rfl
theorem past_fence (x : Long) (s : State) : past (.fence x) s = s.advance (if x.wide then 12 else 8) := rfl
theorem formOf_fence (x : Long) : formOf (.fence x) = some (longForm Shape.fence true x) := rfl
theorem issues_ojoin (x : Long) (s : State) : issues (.ojoin x) s = readyForm (longForm Shape.ojoin false x) false s := rfl
theorem past_ojoin (x : Long) (s : State) : past (.ojoin x) s = s.advance (if x.wide then 12 else 8) := rfl
theorem formOf_ojoin (x : Long) : formOf (.ojoin x) = some (longForm Shape.ojoin false x) := rfl
theorem issues_cpy (x : Long) (s : State) : issues (.cpy x) s = readyForm (longForm Shape.cpy true x) false s := rfl
theorem past_cpy (x : Long) (s : State) : past (.cpy x) s = s.advance (if x.wide then 12 else 8) := rfl
theorem formOf_cpy (x : Long) : formOf (.cpy x) = some (longForm Shape.cpy true x) := rfl
theorem issues_cpyHandle (x : Long) (s : State) : issues (.cpyHandle x) s = readyForm (longForm Shape.cpyHandle true x) false s := rfl
theorem past_cpyHandle (x : Long) (s : State) : past (.cpyHandle x) s = s.advance (if x.wide then 12 else 8) := rfl
theorem formOf_cpyHandle (x : Long) : formOf (.cpyHandle x) = some (longForm Shape.cpyHandle true x) := rfl
theorem issues_cpy4 (x : Long) (s : State) : issues (.cpy4 x) s = readyForm (longForm Shape.cpy4 true x) false s := rfl
theorem past_cpy4 (x : Long) (s : State) : past (.cpy4 x) s = s.advance (if x.wide then 12 else 8) := rfl
theorem formOf_cpy4 (x : Long) : formOf (.cpy4 x) = some (longForm Shape.cpy4 true x) := rfl
theorem issues_cpyg (x : Long) (s : State) : issues (.cpyg x) s = readyForm (longForm Shape.cpyg true x) false s := rfl
theorem past_cpyg (x : Long) (s : State) : past (.cpyg x) s = s.advance (if x.wide then 12 else 8) := rfl
theorem formOf_cpyg (x : Long) : formOf (.cpyg x) = some (longForm Shape.cpyg true x) := rfl
theorem issues_batch (x : Long) (s : State) : issues (.batch x) s = readyForm (longForm Shape.batch false x) false s := rfl
theorem past_batch (x : Long) (s : State) : past (.batch x) s = s.advance (if x.wide then 12 else 8) := rfl
theorem formOf_batch (x : Long) : formOf (.batch x) = some (longForm Shape.batch false x) := rfl
theorem issues_stcfg (x : Long) (s : State) : issues (.stcfg x) s = readyForm (longForm Shape.stcfg false x) false s := rfl
theorem past_stcfg (x : Long) (s : State) : past (.stcfg x) s = s.advance (if x.wide then 12 else 8) := rfl
theorem formOf_stcfg (x : Long) : formOf (.stcfg x) = some (longForm Shape.stcfg false x) := rfl
theorem issues_sbufw (x : Long) (s : State) : issues (.sbufw x) s = readyForm (longForm Shape.sbufw false x) false s := rfl
theorem past_sbufw (x : Long) (s : State) : past (.sbufw x) s = s.advance (if x.wide then 12 else 8) := rfl
theorem formOf_sbufw (x : Long) : formOf (.sbufw x) = some (longForm Shape.sbufw false x) := rfl
theorem issues_sbufset (x : Long) (s : State) : issues (.sbufset x) s = readyForm (longForm Shape.sbufset false x) false s := rfl
theorem past_sbufset (x : Long) (s : State) : past (.sbufset x) s = s.advance (if x.wide then 12 else 8) := rfl
theorem formOf_sbufset (x : Long) : formOf (.sbufset x) = some (longForm Shape.sbufset false x) := rfl
theorem issues_splice (x : Long) (s : State) : issues (.splice x) s = readyForm (longForm Shape.splice false x) true s := rfl
theorem past_splice (x : Long) (s : State) : past (.splice x) s = s.advance (if x.wide then 12 else 8) := rfl
theorem formOf_splice (x : Long) : formOf (.splice x) = some (longForm Shape.splice false x) := rfl
theorem issues_drd (x : Long) (s : State) : issues (.drd x) s = readyForm (longForm Shape.drd true x) false s := rfl
theorem past_drd (x : Long) (s : State) : past (.drd x) s = s.advance (if x.wide then 12 else 8) := rfl
theorem formOf_drd (x : Long) : formOf (.drd x) = some (longForm Shape.drd true x) := rfl
theorem issues_dwr (x : Long) (s : State) : issues (.dwr x) s = readyForm (longForm Shape.dwr true x) false s := rfl
theorem past_dwr (x : Long) (s : State) : past (.dwr x) s = s.advance (if x.wide then 12 else 8) := rfl
theorem formOf_dwr (x : Long) : formOf (.dwr x) = some (longForm Shape.dwr true x) := rfl
theorem issues_dgath (x : Long) (s : State) : issues (.dgath x) s = readyForm (longForm Shape.dgath true x) false s := rfl
theorem past_dgath (x : Long) (s : State) : past (.dgath x) s = s.advance (if x.wide then 12 else 8) := rfl
theorem formOf_dgath (x : Long) : formOf (.dgath x) = some (longForm Shape.dgath true x) := rfl
theorem issues_flush (x : Long) (s : State) : issues (.flush x) s = readyForm (longForm Shape.flush true x) false s := rfl
theorem past_flush (x : Long) (s : State) : past (.flush x) s = s.advance (if x.wide then 12 else 8) := rfl
theorem formOf_flush (x : Long) : formOf (.flush x) = some (longForm Shape.flush true x) := rfl
theorem issues_rowopen (x : Long) (s : State) : issues (.rowopen x) s = readyForm (longForm Shape.rowopen true x) false s := rfl
theorem past_rowopen (x : Long) (s : State) : past (.rowopen x) s = s.advance (if x.wide then 12 else 8) := rfl
theorem formOf_rowopen (x : Long) : formOf (.rowopen x) = some (longForm Shape.rowopen true x) := rfl
theorem issues_rowhold (x : Long) (s : State) : issues (.rowhold x) s = readyForm (longForm Shape.rowhold true x) false s := rfl
theorem past_rowhold (x : Long) (s : State) : past (.rowhold x) s = s.advance (if x.wide then 12 else 8) := rfl
theorem formOf_rowhold (x : Long) : formOf (.rowhold x) = some (longForm Shape.rowhold true x) := rfl
theorem issues_rowrel (x : Long) (s : State) : issues (.rowrel x) s = readyForm (longForm Shape.rowrel true x) false s := rfl
theorem past_rowrel (x : Long) (s : State) : past (.rowrel x) s = s.advance (if x.wide then 12 else 8) := rfl
theorem formOf_rowrel (x : Long) : formOf (.rowrel x) = some (longForm Shape.rowrel true x) := rfl
theorem issues_rowrd (x : Long) (s : State) : issues (.rowrd x) s = readyForm (longForm Shape.rowrd true x) false s := rfl
theorem past_rowrd (x : Long) (s : State) : past (.rowrd x) s = s.advance (if x.wide then 12 else 8) := rfl
theorem formOf_rowrd (x : Long) : formOf (.rowrd x) = some (longForm Shape.rowrd true x) := rfl
theorem issues_rowrdv (x : Long) (s : State) : issues (.rowrdv x) s = readyForm (longForm Shape.rowrdv true x) false s := rfl
theorem past_rowrdv (x : Long) (s : State) : past (.rowrdv x) s = s.advance (if x.wide then 12 else 8) := rfl
theorem formOf_rowrdv (x : Long) : formOf (.rowrdv x) = some (longForm Shape.rowrdv true x) := rfl
theorem issues_rowwr (x : Long) (s : State) : issues (.rowwr x) s = readyForm (longForm Shape.rowwr true x) false s := rfl
theorem past_rowwr (x : Long) (s : State) : past (.rowwr x) s = s.advance (if x.wide then 12 else 8) := rfl
theorem formOf_rowwr (x : Long) : formOf (.rowwr x) = some (longForm Shape.rowwr true x) := rfl
theorem issues_rowstat (x : Long) (s : State) : issues (.rowstat x) s = readyForm (longForm Shape.rowstat true x) false s := rfl
theorem past_rowstat (x : Long) (s : State) : past (.rowstat x) s = s.advance (if x.wide then 12 else 8) := rfl
theorem formOf_rowstat (x : Long) : formOf (.rowstat x) = some (longForm Shape.rowstat true x) := rfl
theorem issues_scfg (x : Long) (s : State) : issues (.scfg x) s = readyForm (longForm Shape.scfg false x) false s := rfl
theorem past_scfg (x : Long) (s : State) : past (.scfg x) s = s.advance (if x.wide then 12 else 8) := rfl
theorem formOf_scfg (x : Long) : formOf (.scfg x) = some (longForm Shape.scfg false x) := rfl
theorem issues_sbind (x : Long) (s : State) : issues (.sbind x) s = readyForm (longForm Shape.sbind true x) false s := rfl
theorem past_sbind (x : Long) (s : State) : past (.sbind x) s = s.advance (if x.wide then 12 else 8) := rfl
theorem formOf_sbind (x : Long) : formOf (.sbind x) = some (longForm Shape.sbind true x) := rfl
theorem issues_sunbind (x : Long) (s : State) : issues (.sunbind x) s = readyForm (longForm Shape.sunbind true x) false s := rfl
theorem past_sunbind (x : Long) (s : State) : past (.sunbind x) s = s.advance (if x.wide then 12 else 8) := rfl
theorem formOf_sunbind (x : Long) : formOf (.sunbind x) = some (longForm Shape.sunbind true x) := rfl
theorem issues_spredAttach (x : Long) (s : State) : issues (.spredAttach x) s = readyForm (longForm Shape.spredAttach false x) false s := rfl
theorem past_spredAttach (x : Long) (s : State) : past (.spredAttach x) s = s.advance (if x.wide then 12 else 8) := rfl
theorem formOf_spredAttach (x : Long) : formOf (.spredAttach x) = some (longForm Shape.spredAttach false x) := rfl
theorem issues_spredRead (x : Long) (s : State) : issues (.spredRead x) s = readyForm (longForm Shape.spredRead false x) false s := rfl
theorem past_spredRead (x : Long) (s : State) : past (.spredRead x) s = s.advance (if x.wide then 12 else 8) := rfl
theorem formOf_spredRead (x : Long) : formOf (.spredRead x) = some (longForm Shape.spredRead false x) := rfl
theorem issues_spos (x : Long) (s : State) : issues (.spos x) s = readyForm (longForm Shape.spos false x) false s := rfl
theorem past_spos (x : Long) (s : State) : past (.spos x) s = s.advance (if x.wide then 12 else 8) := rfl
theorem formOf_spos (x : Long) : formOf (.spos x) = some (longForm Shape.spos false x) := rfl
theorem issues_vld (x : Long) (s : State) : issues (.vld x) s = readyForm (longForm Shape.vld true x) false s := rfl
theorem past_vld (x : Long) (s : State) : past (.vld x) s = s.advance (if x.wide then 12 else 8) := rfl
theorem formOf_vld (x : Long) : formOf (.vld x) = some (longForm Shape.vld true x) := rfl
theorem issues_vldL32B (x : ShortB) (s : State) : issues (.vldL32B x) s = readyForm (shortBForm Shape.vldL32B x) false s := rfl
theorem past_vldL32B (x : ShortB) (s : State) : past (.vldL32B x) s = s.advance (4) := rfl
theorem formOf_vldL32B (x : ShortB) : formOf (.vldL32B x) = some (shortBForm Shape.vldL32B x) := rfl
theorem issues_vst (x : Long) (s : State) : issues (.vst x) s = readyForm (longForm Shape.vst true x) false s := rfl
theorem past_vst (x : Long) (s : State) : past (.vst x) s = s.advance (if x.wide then 12 else 8) := rfl
theorem formOf_vst (x : Long) : formOf (.vst x) = some (longForm Shape.vst true x) := rfl
theorem issues_vstL32B (x : ShortB) (s : State) : issues (.vstL32B x) s = readyForm (shortBForm Shape.vstL32B x) false s := rfl
theorem past_vstL32B (x : ShortB) (s : State) : past (.vstL32B x) s = s.advance (4) := rfl
theorem formOf_vstL32B (x : ShortB) : formOf (.vstL32B x) = some (shortBForm Shape.vstL32B x) := rfl
theorem issues_vldg (x : Long) (s : State) : issues (.vldg x) s = readyForm (longForm Shape.vldg true x) false s := rfl
theorem past_vldg (x : Long) (s : State) : past (.vldg x) s = s.advance (if x.wide then 12 else 8) := rfl
theorem formOf_vldg (x : Long) : formOf (.vldg x) = some (longForm Shape.vldg true x) := rfl
theorem issues_vsts (x : Long) (s : State) : issues (.vsts x) s = readyForm (longForm Shape.vsts true x) false s := rfl
theorem past_vsts (x : Long) (s : State) : past (.vsts x) s = s.advance (if x.wide then 12 else 8) := rfl
theorem formOf_vsts (x : Long) : formOf (.vsts x) = some (longForm Shape.vsts true x) := rfl
theorem issues_vbcast (x : Long) (s : State) : issues (.vbcast x) s = readyForm (longForm Shape.vbcast false x) false s := rfl
theorem past_vbcast (x : Long) (s : State) : past (.vbcast x) s = s.advance (if x.wide then 12 else 8) := rfl
theorem formOf_vbcast (x : Long) : formOf (.vbcast x) = some (longForm Shape.vbcast false x) := rfl
theorem issues_vmov (x : Long) (s : State) : issues (.vmov x) s = readyForm (longForm Shape.vmov false x) false s := rfl
theorem past_vmov (x : Long) (s : State) : past (.vmov x) s = s.advance (if x.wide then 12 else 8) := rfl
theorem formOf_vmov (x : Long) : formOf (.vmov x) = some (longForm Shape.vmov false x) := rfl
theorem issues_vmovmExtract (x : Long) (s : State) : issues (.vmovmExtract x) s = readyForm (longForm Shape.vmovmExtract false x) false s := rfl
theorem past_vmovmExtract (x : Long) (s : State) : past (.vmovmExtract x) s = s.advance (if x.wide then 12 else 8) := rfl
theorem formOf_vmovmExtract (x : Long) : formOf (.vmovmExtract x) = some (longForm Shape.vmovmExtract false x) := rfl
theorem issues_vmovmInsert (x : Long) (s : State) : issues (.vmovmInsert x) s = readyForm (longForm Shape.vmovmInsert false x) false s := rfl
theorem past_vmovmInsert (x : Long) (s : State) : past (.vmovmInsert x) s = s.advance (if x.wide then 12 else 8) := rfl
theorem formOf_vmovmInsert (x : Long) : formOf (.vmovmInsert x) = some (longForm Shape.vmovmInsert false x) := rfl
theorem issues_vperm (x : Long) (s : State) : issues (.vperm x) s = readyForm (longForm Shape.vperm false x) false s := rfl
theorem past_vperm (x : Long) (s : State) : past (.vperm x) s = s.advance (if x.wide then 12 else 8) := rfl
theorem formOf_vperm (x : Long) : formOf (.vperm x) = some (longForm Shape.vperm false x) := rfl
theorem issues_vslide (x : Long) (s : State) : issues (.vslide x) s = readyForm (longForm Shape.vslide false x) false s := rfl
theorem past_vslide (x : Long) (s : State) : past (.vslide x) s = s.advance (if x.wide then 12 else 8) := rfl
theorem formOf_vslide (x : Long) : formOf (.vslide x) = some (longForm Shape.vslide false x) := rfl
theorem issues_vadd (x : Long) (s : State) : issues (.vadd x) s = readyForm (longForm Shape.vadd false x) false s := rfl
theorem past_vadd (x : Long) (s : State) : past (.vadd x) s = s.advance (if x.wide then 12 else 8) := rfl
theorem formOf_vadd (x : Long) : formOf (.vadd x) = some (longForm Shape.vadd false x) := rfl
theorem issues_vsub (x : Long) (s : State) : issues (.vsub x) s = readyForm (longForm Shape.vsub false x) false s := rfl
theorem past_vsub (x : Long) (s : State) : past (.vsub x) s = s.advance (if x.wide then 12 else 8) := rfl
theorem formOf_vsub (x : Long) : formOf (.vsub x) = some (longForm Shape.vsub false x) := rfl
theorem issues_vmul (x : Long) (s : State) : issues (.vmul x) s = readyForm (longForm Shape.vmul false x) false s := rfl
theorem past_vmul (x : Long) (s : State) : past (.vmul x) s = s.advance (if x.wide then 12 else 8) := rfl
theorem formOf_vmul (x : Long) : formOf (.vmul x) = some (longForm Shape.vmul false x) := rfl
theorem issues_vfma (x : Long) (s : State) : issues (.vfma x) s = readyForm (longForm Shape.vfma false x) false s := rfl
theorem past_vfma (x : Long) (s : State) : past (.vfma x) s = s.advance (if x.wide then 12 else 8) := rfl
theorem formOf_vfma (x : Long) : formOf (.vfma x) = some (longForm Shape.vfma false x) := rfl
theorem issues_vmin (x : Long) (s : State) : issues (.vmin x) s = readyForm (longForm Shape.vmin false x) false s := rfl
theorem past_vmin (x : Long) (s : State) : past (.vmin x) s = s.advance (if x.wide then 12 else 8) := rfl
theorem formOf_vmin (x : Long) : formOf (.vmin x) = some (longForm Shape.vmin false x) := rfl
theorem issues_vmax (x : Long) (s : State) : issues (.vmax x) s = readyForm (longForm Shape.vmax false x) false s := rfl
theorem past_vmax (x : Long) (s : State) : past (.vmax x) s = s.advance (if x.wide then 12 else 8) := rfl
theorem formOf_vmax (x : Long) : formOf (.vmax x) = some (longForm Shape.vmax false x) := rfl
theorem issues_vabs (x : Long) (s : State) : issues (.vabs x) s = readyForm (longForm Shape.vabs false x) false s := rfl
theorem past_vabs (x : Long) (s : State) : past (.vabs x) s = s.advance (if x.wide then 12 else 8) := rfl
theorem formOf_vabs (x : Long) : formOf (.vabs x) = some (longForm Shape.vabs false x) := rfl
theorem issues_vneg (x : Long) (s : State) : issues (.vneg x) s = readyForm (longForm Shape.vneg false x) false s := rfl
theorem past_vneg (x : Long) (s : State) : past (.vneg x) s = s.advance (if x.wide then 12 else 8) := rfl
theorem formOf_vneg (x : Long) : formOf (.vneg x) = some (longForm Shape.vneg false x) := rfl
theorem issues_vdiv (x : Long) (s : State) : issues (.vdiv x) s = readyForm (longForm Shape.vdiv false x) false s := rfl
theorem past_vdiv (x : Long) (s : State) : past (.vdiv x) s = s.advance (if x.wide then 12 else 8) := rfl
theorem formOf_vdiv (x : Long) : formOf (.vdiv x) = some (longForm Shape.vdiv false x) := rfl
theorem issues_vsqrt (x : Long) (s : State) : issues (.vsqrt x) s = readyForm (longForm Shape.vsqrt false x) false s := rfl
theorem past_vsqrt (x : Long) (s : State) : past (.vsqrt x) s = s.advance (if x.wide then 12 else 8) := rfl
theorem formOf_vsqrt (x : Long) : formOf (.vsqrt x) = some (longForm Shape.vsqrt false x) := rfl
theorem issues_vrcp (x : Long) (s : State) : issues (.vrcp x) s = readyForm (longForm Shape.vrcp false x) false s := rfl
theorem past_vrcp (x : Long) (s : State) : past (.vrcp x) s = s.advance (if x.wide then 12 else 8) := rfl
theorem formOf_vrcp (x : Long) : formOf (.vrcp x) = some (longForm Shape.vrcp false x) := rfl
theorem issues_vrsqrt (x : Long) (s : State) : issues (.vrsqrt x) s = readyForm (longForm Shape.vrsqrt false x) false s := rfl
theorem past_vrsqrt (x : Long) (s : State) : past (.vrsqrt x) s = s.advance (if x.wide then 12 else 8) := rfl
theorem formOf_vrsqrt (x : Long) : formOf (.vrsqrt x) = some (longForm Shape.vrsqrt false x) := rfl
theorem issues_vexp2 (x : Long) (s : State) : issues (.vexp2 x) s = readyForm (longForm Shape.vexp2 false x) false s := rfl
theorem past_vexp2 (x : Long) (s : State) : past (.vexp2 x) s = s.advance (if x.wide then 12 else 8) := rfl
theorem formOf_vexp2 (x : Long) : formOf (.vexp2 x) = some (longForm Shape.vexp2 false x) := rfl
theorem issues_vlog2 (x : Long) (s : State) : issues (.vlog2 x) s = readyForm (longForm Shape.vlog2 false x) false s := rfl
theorem past_vlog2 (x : Long) (s : State) : past (.vlog2 x) s = s.advance (if x.wide then 12 else 8) := rfl
theorem formOf_vlog2 (x : Long) : formOf (.vlog2 x) = some (longForm Shape.vlog2 false x) := rfl
theorem issues_vsin (x : Long) (s : State) : issues (.vsin x) s = readyForm (longForm Shape.vsin false x) false s := rfl
theorem past_vsin (x : Long) (s : State) : past (.vsin x) s = s.advance (if x.wide then 12 else 8) := rfl
theorem formOf_vsin (x : Long) : formOf (.vsin x) = some (longForm Shape.vsin false x) := rfl
theorem issues_vcos (x : Long) (s : State) : issues (.vcos x) s = readyForm (longForm Shape.vcos false x) false s := rfl
theorem past_vcos (x : Long) (s : State) : past (.vcos x) s = s.advance (if x.wide then 12 else 8) := rfl
theorem formOf_vcos (x : Long) : formOf (.vcos x) = some (longForm Shape.vcos false x) := rfl
theorem issues_vtanh (x : Long) (s : State) : issues (.vtanh x) s = readyForm (longForm Shape.vtanh false x) false s := rfl
theorem past_vtanh (x : Long) (s : State) : past (.vtanh x) s = s.advance (if x.wide then 12 else 8) := rfl
theorem formOf_vtanh (x : Long) : formOf (.vtanh x) = some (longForm Shape.vtanh false x) := rfl
theorem issues_vand (x : Long) (s : State) : issues (.vand x) s = readyForm (longForm Shape.vand false x) false s := rfl
theorem past_vand (x : Long) (s : State) : past (.vand x) s = s.advance (if x.wide then 12 else 8) := rfl
theorem formOf_vand (x : Long) : formOf (.vand x) = some (longForm Shape.vand false x) := rfl
theorem issues_vor (x : Long) (s : State) : issues (.vor x) s = readyForm (longForm Shape.vor false x) false s := rfl
theorem past_vor (x : Long) (s : State) : past (.vor x) s = s.advance (if x.wide then 12 else 8) := rfl
theorem formOf_vor (x : Long) : formOf (.vor x) = some (longForm Shape.vor false x) := rfl
theorem issues_vxor (x : Long) (s : State) : issues (.vxor x) s = readyForm (longForm Shape.vxor false x) false s := rfl
theorem past_vxor (x : Long) (s : State) : past (.vxor x) s = s.advance (if x.wide then 12 else 8) := rfl
theorem formOf_vxor (x : Long) : formOf (.vxor x) = some (longForm Shape.vxor false x) := rfl
theorem issues_vshl (x : Long) (s : State) : issues (.vshl x) s = readyForm (longForm Shape.vshl false x) false s := rfl
theorem past_vshl (x : Long) (s : State) : past (.vshl x) s = s.advance (if x.wide then 12 else 8) := rfl
theorem formOf_vshl (x : Long) : formOf (.vshl x) = some (longForm Shape.vshl false x) := rfl
theorem issues_vshr (x : Long) (s : State) : issues (.vshr x) s = readyForm (longForm Shape.vshr false x) false s := rfl
theorem past_vshr (x : Long) (s : State) : past (.vshr x) s = s.advance (if x.wide then 12 else 8) := rfl
theorem formOf_vshr (x : Long) : formOf (.vshr x) = some (longForm Shape.vshr false x) := rfl
theorem issues_vsha (x : Long) (s : State) : issues (.vsha x) s = readyForm (longForm Shape.vsha false x) false s := rfl
theorem past_vsha (x : Long) (s : State) : past (.vsha x) s = s.advance (if x.wide then 12 else 8) := rfl
theorem formOf_vsha (x : Long) : formOf (.vsha x) = some (longForm Shape.vsha false x) := rfl
theorem issues_vcmp (x : Long) (s : State) : issues (.vcmp x) s = readyForm (longForm Shape.vcmp false x) false s := rfl
theorem past_vcmp (x : Long) (s : State) : past (.vcmp x) s = s.advance (if x.wide then 12 else 8) := rfl
theorem formOf_vcmp (x : Long) : formOf (.vcmp x) = some (longForm Shape.vcmp false x) := rfl
theorem issues_vsel (x : Long) (s : State) : issues (.vsel x) s = readyForm (longForm Shape.vsel false x) false s := rfl
theorem past_vsel (x : Long) (s : State) : past (.vsel x) s = s.advance (if x.wide then 12 else 8) := rfl
theorem formOf_vsel (x : Long) : formOf (.vsel x) = some (longForm Shape.vsel false x) := rfl
theorem issues_vcvt (x : Long) (s : State) : issues (.vcvt x) s = readyForm (longForm Shape.vcvt false x) false s := rfl
theorem past_vcvt (x : Long) (s : State) : past (.vcvt x) s = s.advance (if x.wide then 12 else 8) := rfl
theorem formOf_vcvt (x : Long) : formOf (.vcvt x) = some (longForm Shape.vcvt false x) := rfl
theorem issues_vpack (x : Long) (s : State) : issues (.vpack x) s = readyForm (longForm Shape.vpack false x) false s := rfl
theorem past_vpack (x : Long) (s : State) : past (.vpack x) s = s.advance (if x.wide then 12 else 8) := rfl
theorem formOf_vpack (x : Long) : formOf (.vpack x) = some (longForm Shape.vpack false x) := rfl
theorem issues_vunpack (x : Long) (s : State) : issues (.vunpack x) s = readyForm (longForm Shape.vunpack false x) false s := rfl
theorem past_vunpack (x : Long) (s : State) : past (.vunpack x) s = s.advance (if x.wide then 12 else 8) := rfl
theorem formOf_vunpack (x : Long) : formOf (.vunpack x) = some (longForm Shape.vunpack false x) := rfl
theorem issues_vred (x : Long) (s : State) : issues (.vred x) s = readyForm (longForm Shape.vred false x) false s := rfl
theorem past_vred (x : Long) (s : State) : past (.vred x) s = s.advance (if x.wide then 12 else 8) := rfl
theorem formOf_vred (x : Long) : formOf (.vred x) = some (longForm Shape.vred false x) := rfl
theorem issues_vscan (x : Long) (s : State) : issues (.vscan x) s = readyForm (longForm Shape.vscan false x) false s := rfl
theorem past_vscan (x : Long) (s : State) : past (.vscan x) s = s.advance (if x.wide then 12 else 8) := rfl
theorem formOf_vscan (x : Long) : formOf (.vscan x) = some (longForm Shape.vscan false x) := rfl
theorem issues_vdot (x : Long) (s : State) : issues (.vdot x) s = readyForm (longForm Shape.vdot false x) false s := rfl
theorem past_vdot (x : Long) (s : State) : past (.vdot x) s = s.advance (if x.wide then 12 else 8) := rfl
theorem formOf_vdot (x : Long) : formOf (.vdot x) = some (longForm Shape.vdot false x) := rfl
theorem issues_mzero (x : Long) (s : State) : issues (.mzero x) s = readyForm (longForm Shape.mzero false x) false s := rfl
theorem past_mzero (x : Long) (s : State) : past (.mzero x) s = s.advance (if x.wide then 12 else 8) := rfl
theorem formOf_mzero (x : Long) : formOf (.mzero x) = some (longForm Shape.mzero false x) := rfl
theorem issues_mma (x : Long) (s : State) : issues (.mma x) s = readyForm (longForm Shape.mma true x) false s := rfl
theorem past_mma (x : Long) (s : State) : past (.mma x) s = s.advance (if x.wide then 12 else 8) := rfl
theorem formOf_mma (x : Long) : formOf (.mma x) = some (longForm Shape.mma true x) := rfl
theorem issues_mmaq (x : Long) (s : State) : issues (.mmaq x) s = readyForm (longForm Shape.mmaq true x) false s := rfl
theorem past_mmaq (x : Long) (s : State) : past (.mmaq x) s = s.advance (if x.wide then 12 else 8) := rfl
theorem formOf_mmaq (x : Long) : formOf (.mmaq x) = some (longForm Shape.mmaq true x) := rfl
theorem issues_mmad (x : Long) (s : State) : issues (.mmad x) s = readyForm (longForm Shape.mmad true x) false s := rfl
theorem past_mmad (x : Long) (s : State) : past (.mmad x) s = s.advance (if x.wide then 12 else 8) := rfl
theorem formOf_mmad (x : Long) : formOf (.mmad x) = some (longForm Shape.mmad true x) := rfl
theorem issues_mread (x : Long) (s : State) : issues (.mread x) s = readyForm (longForm Shape.mread true x) false s := rfl
theorem past_mread (x : Long) (s : State) : past (.mread x) s = s.advance (if x.wide then 12 else 8) := rfl
theorem formOf_mread (x : Long) : formOf (.mread x) = some (longForm Shape.mread true x) := rfl
theorem issues_mreadk (x : Long) (s : State) : issues (.mreadk x) s = readyForm (longForm Shape.mreadk false x) false s := rfl
theorem past_mreadk (x : Long) (s : State) : past (.mreadk x) s = s.advance (if x.wide then 12 else 8) := rfl
theorem formOf_mreadk (x : Long) : formOf (.mreadk x) = some (longForm Shape.mreadk false x) := rfl
theorem issues_macc (x : Long) (s : State) : issues (.macc x) s = readyForm (longForm Shape.macc false x) false s := rfl
theorem past_macc (x : Long) (s : State) : past (.macc x) s = s.advance (if x.wide then 12 else 8) := rfl
theorem formOf_macc (x : Long) : formOf (.macc x) = some (longForm Shape.macc false x) := rfl
theorem issues_maccMov (x : Long) (s : State) : issues (.maccMov x) s = readyForm (longForm Shape.maccMov false x) false s := rfl
theorem past_maccMov (x : Long) (s : State) : past (.maccMov x) s = s.advance (if x.wide then 12 else 8) := rfl
theorem formOf_maccMov (x : Long) : formOf (.maccMov x) = some (longForm Shape.maccMov false x) := rfl
theorem issues_mstat (x : Long) (s : State) : issues (.mstat x) s = readyForm (longForm Shape.mstat false x) false s := rfl
theorem past_mstat (x : Long) (s : State) : past (.mstat x) s = s.advance (if x.wide then 12 else 8) := rfl
theorem formOf_mstat (x : Long) : formOf (.mstat x) = some (longForm Shape.mstat false x) := rfl
theorem issues_mmode (x : Long) (s : State) : issues (.mmode x) s = readyForm (longForm Shape.mmode false x) false s := rfl
theorem past_mmode (x : Long) (s : State) : past (.mmode x) s = s.advance (if x.wide then 12 else 8) := rfl
theorem formOf_mmode (x : Long) : formOf (.mmode x) = some (longForm Shape.mmode false x) := rfl
theorem issues_rjoin (x : Long) (s : State) : issues (.rjoin x) s = readyForm (longForm Shape.rjoin false x) false s := rfl
theorem past_rjoin (x : Long) (s : State) : past (.rjoin x) s = s.advance (if x.wide then 12 else 8) := rfl
theorem formOf_rjoin (x : Long) : formOf (.rjoin x) = some (longForm Shape.rjoin false x) := rfl
theorem issues_rleave (x : Long) (s : State) : issues (.rleave x) s = readyForm (longForm Shape.rleave false x) false s := rfl
theorem past_rleave (x : Long) (s : State) : past (.rleave x) s = s.advance (if x.wide then 12 else 8) := rfl
theorem formOf_rleave (x : Long) : formOf (.rleave x) = some (longForm Shape.rleave false x) := rfl
theorem issues_rmset (x : Long) (s : State) : issues (.rmset x) s = readyForm (longForm Shape.rmset false x) false s := rfl
theorem past_rmset (x : Long) (s : State) : past (.rmset x) s = s.advance (if x.wide then 12 else 8) := rfl
theorem formOf_rmset (x : Long) : formOf (.rmset x) = some (longForm Shape.rmset false x) := rfl
theorem issues_rmclr (x : Long) (s : State) : issues (.rmclr x) s = readyForm (longForm Shape.rmclr false x) false s := rfl
theorem past_rmclr (x : Long) (s : State) : past (.rmclr x) s = s.advance (if x.wide then 12 else 8) := rfl
theorem formOf_rmclr (x : Long) : formOf (.rmclr x) = some (longForm Shape.rmclr false x) := rfl
theorem issues_rmclrAll (x : Long) (s : State) : issues (.rmclrAll x) s = readyForm (longForm Shape.rmclrAll false x) false s := rfl
theorem past_rmclrAll (x : Long) (s : State) : past (.rmclrAll x) s = s.advance (if x.wide then 12 else 8) := rfl
theorem formOf_rmclrAll (x : Long) : formOf (.rmclrAll x) = some (longForm Shape.rmclrAll false x) := rfl
theorem issues_rinj (x : Long) (s : State) : issues (.rinj x) s = readyForm (longForm Shape.rinj true x) false s := rfl
theorem past_rinj (x : Long) (s : State) : past (.rinj x) s = s.advance (if x.wide then 12 else 8) := rfl
theorem formOf_rinj (x : Long) : formOf (.rinj x) = some (longForm Shape.rinj true x) := rfl
theorem issues_rdrain (x : Long) (s : State) : issues (.rdrain x) s = readyForm (longForm Shape.rdrain false x) false s := rfl
theorem past_rdrain (x : Long) (s : State) : past (.rdrain x) s = s.advance (if x.wide then 12 else 8) := rfl
theorem formOf_rdrain (x : Long) : formOf (.rdrain x) = some (longForm Shape.rdrain false x) := rfl
theorem issues_rstat (x : Long) (s : State) : issues (.rstat x) s = readyForm (longForm Shape.rstat false x) false s := rfl
theorem past_rstat (x : Long) (s : State) : past (.rstat x) s = s.advance (if x.wide then 12 else 8) := rfl
theorem formOf_rstat (x : Long) : formOf (.rstat x) = some (longForm Shape.rstat false x) := rfl
theorem issues_relight (x : Long) (s : State) : issues (.relight x) s = readyForm (longForm Shape.relight false x) false s := rfl
theorem past_relight (x : Long) (s : State) : past (.relight x) s = s.advance (if x.wide then 12 else 8) := rfl
theorem formOf_relight (x : Long) : formOf (.relight x) = some (longForm Shape.relight false x) := rfl

end Sys2Proof.Laws
end

