-- ==== Sys2Proof/Laws/Bodies.lean ====
section
/-! SUPPORT. Every instruction with an encoding is issued as R243 says: one body each, and for all of them together. -/
namespace Sys2Proof.Laws
open Sys2Proof Sys2Proof.Machine
theorem body_add (x : Long) : ∃ body, ∀ s, exec (.add x) s = issue (longForm Shape.add false x) false body s := by
  simp only [exec_add, execAdd, issueL]; exact ⟨_, fun _ => rfl⟩
theorem body_addL32A (x : ShortA) : ∃ body, ∀ s, exec (.addL32A x) s = issue (shortAForm Shape.addL32A x) false body s := by
  simp only [exec_addL32A, execAddL32A, issueA]; exact ⟨_, fun _ => rfl⟩
theorem body_addI64L32B (x : ShortB) : ∃ body, ∀ s, exec (.addI64L32B x) s = issue (shortBForm Shape.addI64L32B x) false body s := by
  simp only [exec_addI64L32B, execAddI64L32B, issueB]; exact ⟨_, fun _ => rfl⟩
theorem body_addI32L32B (x : ShortB) : ∃ body, ∀ s, exec (.addI32L32B x) s = issue (shortBForm Shape.addI32L32B x) false body s := by
  simp only [exec_addI32L32B, execAddI32L32B, issueB]; exact ⟨_, fun _ => rfl⟩
theorem body_addc (x : Long) : ∃ body, ∀ s, exec (.addc x) s = issue (longForm Shape.addc false x) false body s := by
  simp only [exec_addc, execAddc, issueL]; exact ⟨_, fun _ => rfl⟩
theorem body_addcL32A (x : ShortA) : ∃ body, ∀ s, exec (.addcL32A x) s = issue (shortAForm Shape.addcL32A x) false body s := by
  simp only [exec_addcL32A, execAddcL32A, issueA]; exact ⟨_, fun _ => rfl⟩
theorem body_sub (x : Long) : ∃ body, ∀ s, exec (.sub x) s = issue (longForm Shape.sub false x) false body s := by
  simp only [exec_sub, execSub, issueL]; exact ⟨_, fun _ => rfl⟩
theorem body_subL32A (x : ShortA) : ∃ body, ∀ s, exec (.subL32A x) s = issue (shortAForm Shape.subL32A x) false body s := by
  simp only [exec_subL32A, execSubL32A, issueA]; exact ⟨_, fun _ => rfl⟩
theorem body_subb (x : Long) : ∃ body, ∀ s, exec (.subb x) s = issue (longForm Shape.subb false x) false body s := by
  simp only [exec_subb, execSubb, issueL]; exact ⟨_, fun _ => rfl⟩
theorem body_subbL32A (x : ShortA) : ∃ body, ∀ s, exec (.subbL32A x) s = issue (shortAForm Shape.subbL32A x) false body s := by
  simp only [exec_subbL32A, execSubbL32A, issueA]; exact ⟨_, fun _ => rfl⟩
theorem body_mul (x : Long) : ∃ body, ∀ s, exec (.mul x) s = issue (longForm Shape.mul false x) false body s := by
  simp only [exec_mul, execMul, issueL]; exact ⟨_, fun _ => rfl⟩
theorem body_mulL32A (x : ShortA) : ∃ body, ∀ s, exec (.mulL32A x) s = issue (shortAForm Shape.mulL32A x) false body s := by
  simp only [exec_mulL32A, execMulL32A, issueA]; exact ⟨_, fun _ => rfl⟩
theorem body_mulI64L32B (x : ShortB) : ∃ body, ∀ s, exec (.mulI64L32B x) s = issue (shortBForm Shape.mulI64L32B x) false body s := by
  simp only [exec_mulI64L32B, execMulI64L32B, issueB]; exact ⟨_, fun _ => rfl⟩
theorem body_mulI32L32B (x : ShortB) : ∃ body, ∀ s, exec (.mulI32L32B x) s = issue (shortBForm Shape.mulI32L32B x) false body s := by
  simp only [exec_mulI32L32B, execMulI32L32B, issueB]; exact ⟨_, fun _ => rfl⟩
theorem body_mulh (x : Long) : ∃ body, ∀ s, exec (.mulh x) s = issue (longForm Shape.mulh false x) false body s := by
  simp only [exec_mulh, execMulh, issueL]; exact ⟨_, fun _ => rfl⟩
theorem body_mulhL32A (x : ShortA) : ∃ body, ∀ s, exec (.mulhL32A x) s = issue (shortAForm Shape.mulhL32A x) false body s := by
  simp only [exec_mulhL32A, execMulhL32A, issueA]; exact ⟨_, fun _ => rfl⟩
theorem body_mulhn (x : Long) : ∃ body, ∀ s, exec (.mulhn x) s = issue (longForm Shape.mulhn false x) false body s := by
  simp only [exec_mulhn, execMulhn, issueL]; exact ⟨_, fun _ => rfl⟩
theorem body_mulhnL32A (x : ShortA) : ∃ body, ∀ s, exec (.mulhnL32A x) s = issue (shortAForm Shape.mulhnL32A x) false body s := by
  simp only [exec_mulhnL32A, execMulhnL32A, issueA]; exact ⟨_, fun _ => rfl⟩
theorem body_div (x : Long) : ∃ body, ∀ s, exec (.div x) s = issue (longForm Shape.div false x) false body s := by
  simp only [exec_div, execDiv, issueL]; exact ⟨_, fun _ => rfl⟩
theorem body_divL32A (x : ShortA) : ∃ body, ∀ s, exec (.divL32A x) s = issue (shortAForm Shape.divL32A x) false body s := by
  simp only [exec_divL32A, execDivL32A, issueA]; exact ⟨_, fun _ => rfl⟩
theorem body_divn (x : Long) : ∃ body, ∀ s, exec (.divn x) s = issue (longForm Shape.divn false x) false body s := by
  simp only [exec_divn, execDivn, issueL]; exact ⟨_, fun _ => rfl⟩
theorem body_divnL32A (x : ShortA) : ∃ body, ∀ s, exec (.divnL32A x) s = issue (shortAForm Shape.divnL32A x) false body s := by
  simp only [exec_divnL32A, execDivnL32A, issueA]; exact ⟨_, fun _ => rfl⟩
theorem body_rem (x : Long) : ∃ body, ∀ s, exec (.rem x) s = issue (longForm Shape.rem false x) false body s := by
  simp only [exec_rem, execRem, issueL]; exact ⟨_, fun _ => rfl⟩
theorem body_remL32A (x : ShortA) : ∃ body, ∀ s, exec (.remL32A x) s = issue (shortAForm Shape.remL32A x) false body s := by
  simp only [exec_remL32A, execRemL32A, issueA]; exact ⟨_, fun _ => rfl⟩
theorem body_remn (x : Long) : ∃ body, ∀ s, exec (.remn x) s = issue (longForm Shape.remn false x) false body s := by
  simp only [exec_remn, execRemn, issueL]; exact ⟨_, fun _ => rfl⟩
theorem body_remnL32A (x : ShortA) : ∃ body, ∀ s, exec (.remnL32A x) s = issue (shortAForm Shape.remnL32A x) false body s := by
  simp only [exec_remnL32A, execRemnL32A, issueA]; exact ⟨_, fun _ => rfl⟩
theorem body_and (x : Long) : ∃ body, ∀ s, exec (.and x) s = issue (longForm Shape.and false x) false body s := by
  simp only [exec_and, execAnd, issueL]; exact ⟨_, fun _ => rfl⟩
theorem body_andL32A (x : ShortA) : ∃ body, ∀ s, exec (.andL32A x) s = issue (shortAForm Shape.andL32A x) false body s := by
  simp only [exec_andL32A, execAndL32A, issueA]; exact ⟨_, fun _ => rfl⟩
theorem body_andN64L32B (x : ShortB) : ∃ body, ∀ s, exec (.andN64L32B x) s = issue (shortBForm Shape.andN64L32B x) false body s := by
  simp only [exec_andN64L32B, execAndN64L32B, issueB]; exact ⟨_, fun _ => rfl⟩
theorem body_andn (x : Long) : ∃ body, ∀ s, exec (.andn x) s = issue (longForm Shape.andn false x) false body s := by
  simp only [exec_andn, execAndn, issueL]; exact ⟨_, fun _ => rfl⟩
theorem body_andnL32A (x : ShortA) : ∃ body, ∀ s, exec (.andnL32A x) s = issue (shortAForm Shape.andnL32A x) false body s := by
  simp only [exec_andnL32A, execAndnL32A, issueA]; exact ⟨_, fun _ => rfl⟩
theorem body_andnN64L32B (x : ShortB) : ∃ body, ∀ s, exec (.andnN64L32B x) s = issue (shortBForm Shape.andnN64L32B x) false body s := by
  simp only [exec_andnN64L32B, execAndnN64L32B, issueB]; exact ⟨_, fun _ => rfl⟩
theorem body_or (x : Long) : ∃ body, ∀ s, exec (.or x) s = issue (longForm Shape.or false x) false body s := by
  simp only [exec_or, execOr, issueL]; exact ⟨_, fun _ => rfl⟩
theorem body_orL32A (x : ShortA) : ∃ body, ∀ s, exec (.orL32A x) s = issue (shortAForm Shape.orL32A x) false body s := by
  simp only [exec_orL32A, execOrL32A, issueA]; exact ⟨_, fun _ => rfl⟩
theorem body_orN64L32B (x : ShortB) : ∃ body, ∀ s, exec (.orN64L32B x) s = issue (shortBForm Shape.orN64L32B x) false body s := by
  simp only [exec_orN64L32B, execOrN64L32B, issueB]; exact ⟨_, fun _ => rfl⟩
theorem body_xor (x : Long) : ∃ body, ∀ s, exec (.xor x) s = issue (longForm Shape.xor false x) false body s := by
  simp only [exec_xor, execXor, issueL]; exact ⟨_, fun _ => rfl⟩
theorem body_xorL32A (x : ShortA) : ∃ body, ∀ s, exec (.xorL32A x) s = issue (shortAForm Shape.xorL32A x) false body s := by
  simp only [exec_xorL32A, execXorL32A, issueA]; exact ⟨_, fun _ => rfl⟩
theorem body_xorN64L32B (x : ShortB) : ∃ body, ∀ s, exec (.xorN64L32B x) s = issue (shortBForm Shape.xorN64L32B x) false body s := by
  simp only [exec_xorN64L32B, execXorN64L32B, issueB]; exact ⟨_, fun _ => rfl⟩
theorem body_shl (x : Long) : ∃ body, ∀ s, exec (.shl x) s = issue (longForm Shape.shl false x) false body s := by
  simp only [exec_shl, execShl, issueL]; exact ⟨_, fun _ => rfl⟩
theorem body_shlL32A (x : ShortA) : ∃ body, ∀ s, exec (.shlL32A x) s = issue (shortAForm Shape.shlL32A x) false body s := by
  simp only [exec_shlL32A, execShlL32A, issueA]; exact ⟨_, fun _ => rfl⟩
theorem body_shlN64L32B (x : ShortB) : ∃ body, ∀ s, exec (.shlN64L32B x) s = issue (shortBForm Shape.shlN64L32B x) false body s := by
  simp only [exec_shlN64L32B, execShlN64L32B, issueB]; exact ⟨_, fun _ => rfl⟩
theorem body_shr (x : Long) : ∃ body, ∀ s, exec (.shr x) s = issue (longForm Shape.shr false x) false body s := by
  simp only [exec_shr, execShr, issueL]; exact ⟨_, fun _ => rfl⟩
theorem body_shrL32A (x : ShortA) : ∃ body, ∀ s, exec (.shrL32A x) s = issue (shortAForm Shape.shrL32A x) false body s := by
  simp only [exec_shrL32A, execShrL32A, issueA]; exact ⟨_, fun _ => rfl⟩
theorem body_shrN64L32B (x : ShortB) : ∃ body, ∀ s, exec (.shrN64L32B x) s = issue (shortBForm Shape.shrN64L32B x) false body s := by
  simp only [exec_shrN64L32B, execShrN64L32B, issueB]; exact ⟨_, fun _ => rfl⟩
theorem body_sha (x : Long) : ∃ body, ∀ s, exec (.sha x) s = issue (longForm Shape.sha false x) false body s := by
  simp only [exec_sha, execSha, issueL]; exact ⟨_, fun _ => rfl⟩
theorem body_shaL32A (x : ShortA) : ∃ body, ∀ s, exec (.shaL32A x) s = issue (shortAForm Shape.shaL32A x) false body s := by
  simp only [exec_shaL32A, execShaL32A, issueA]; exact ⟨_, fun _ => rfl⟩
theorem body_shaI64L32B (x : ShortB) : ∃ body, ∀ s, exec (.shaI64L32B x) s = issue (shortBForm Shape.shaI64L32B x) false body s := by
  simp only [exec_shaI64L32B, execShaI64L32B, issueB]; exact ⟨_, fun _ => rfl⟩
theorem body_rol (x : Long) : ∃ body, ∀ s, exec (.rol x) s = issue (longForm Shape.rol false x) false body s := by
  simp only [exec_rol, execRol, issueL]; exact ⟨_, fun _ => rfl⟩
theorem body_rolL32A (x : ShortA) : ∃ body, ∀ s, exec (.rolL32A x) s = issue (shortAForm Shape.rolL32A x) false body s := by
  simp only [exec_rolL32A, execRolL32A, issueA]; exact ⟨_, fun _ => rfl⟩
theorem body_rotr (x : Long) : ∃ body, ∀ s, exec (.rotr x) s = issue (longForm Shape.rotr false x) false body s := by
  simp only [exec_rotr, execRotr, issueL]; exact ⟨_, fun _ => rfl⟩
theorem body_rotrL32A (x : ShortA) : ∃ body, ∀ s, exec (.rotrL32A x) s = issue (shortAForm Shape.rotrL32A x) false body s := by
  simp only [exec_rotrL32A, execRotrL32A, issueA]; exact ⟨_, fun _ => rfl⟩
theorem body_rotrN64L32B (x : ShortB) : ∃ body, ∀ s, exec (.rotrN64L32B x) s = issue (shortBForm Shape.rotrN64L32B x) false body s := by
  simp only [exec_rotrN64L32B, execRotrN64L32B, issueB]; exact ⟨_, fun _ => rfl⟩
theorem body_clz (x : Long) : ∃ body, ∀ s, exec (.clz x) s = issue (longForm Shape.clz false x) false body s := by
  simp only [exec_clz, execClz, issueL]; exact ⟨_, fun _ => rfl⟩
theorem body_clzL32A (x : ShortA) : ∃ body, ∀ s, exec (.clzL32A x) s = issue (shortAForm Shape.clzL32A x) false body s := by
  simp only [exec_clzL32A, execClzL32A, issueA]; exact ⟨_, fun _ => rfl⟩
theorem body_ctz (x : Long) : ∃ body, ∀ s, exec (.ctz x) s = issue (longForm Shape.ctz false x) false body s := by
  simp only [exec_ctz, execCtz, issueL]; exact ⟨_, fun _ => rfl⟩
theorem body_ctzL32A (x : ShortA) : ∃ body, ∀ s, exec (.ctzL32A x) s = issue (shortAForm Shape.ctzL32A x) false body s := by
  simp only [exec_ctzL32A, execCtzL32A, issueA]; exact ⟨_, fun _ => rfl⟩
theorem body_popc (x : Long) : ∃ body, ∀ s, exec (.popc x) s = issue (longForm Shape.popc false x) false body s := by
  simp only [exec_popc, execPopc, issueL]; exact ⟨_, fun _ => rfl⟩
theorem body_popcL32A (x : ShortA) : ∃ body, ∀ s, exec (.popcL32A x) s = issue (shortAForm Shape.popcL32A x) false body s := by
  simp only [exec_popcL32A, execPopcL32A, issueA]; exact ⟨_, fun _ => rfl⟩
theorem body_brev (x : Long) : ∃ body, ∀ s, exec (.brev x) s = issue (longForm Shape.brev false x) false body s := by
  simp only [exec_brev, execBrev, issueL]; exact ⟨_, fun _ => rfl⟩
theorem body_brevL32A (x : ShortA) : ∃ body, ∀ s, exec (.brevL32A x) s = issue (shortAForm Shape.brevL32A x) false body s := by
  simp only [exec_brevL32A, execBrevL32A, issueA]; exact ⟨_, fun _ => rfl⟩
theorem body_bswap (x : Long) : ∃ body, ∀ s, exec (.bswap x) s = issue (longForm Shape.bswap false x) false body s := by
  simp only [exec_bswap, execBswap, issueL]; exact ⟨_, fun _ => rfl⟩
theorem body_bswapL32A (x : ShortA) : ∃ body, ∀ s, exec (.bswapL32A x) s = issue (shortAForm Shape.bswapL32A x) false body s := by
  simp only [exec_bswapL32A, execBswapL32A, issueA]; exact ⟨_, fun _ => rfl⟩
theorem body_min (x : Long) : ∃ body, ∀ s, exec (.min x) s = issue (longForm Shape.min false x) false body s := by
  simp only [exec_min, execMin, issueL]; exact ⟨_, fun _ => rfl⟩
theorem body_minL32A (x : ShortA) : ∃ body, ∀ s, exec (.minL32A x) s = issue (shortAForm Shape.minL32A x) false body s := by
  simp only [exec_minL32A, execMinL32A, issueA]; exact ⟨_, fun _ => rfl⟩
theorem body_minI64L32B (x : ShortB) : ∃ body, ∀ s, exec (.minI64L32B x) s = issue (shortBForm Shape.minI64L32B x) false body s := by
  simp only [exec_minI64L32B, execMinI64L32B, issueB]; exact ⟨_, fun _ => rfl⟩
theorem body_max (x : Long) : ∃ body, ∀ s, exec (.max x) s = issue (longForm Shape.max false x) false body s := by
  simp only [exec_max, execMax, issueL]; exact ⟨_, fun _ => rfl⟩
theorem body_maxL32A (x : ShortA) : ∃ body, ∀ s, exec (.maxL32A x) s = issue (shortAForm Shape.maxL32A x) false body s := by
  simp only [exec_maxL32A, execMaxL32A, issueA]; exact ⟨_, fun _ => rfl⟩
theorem body_maxI64L32B (x : ShortB) : ∃ body, ∀ s, exec (.maxI64L32B x) s = issue (shortBForm Shape.maxI64L32B x) false body s := by
  simp only [exec_maxI64L32B, execMaxI64L32B, issueB]; exact ⟨_, fun _ => rfl⟩
theorem body_minn (x : Long) : ∃ body, ∀ s, exec (.minn x) s = issue (longForm Shape.minn false x) false body s := by
  simp only [exec_minn, execMinn, issueL]; exact ⟨_, fun _ => rfl⟩
theorem body_minnL32A (x : ShortA) : ∃ body, ∀ s, exec (.minnL32A x) s = issue (shortAForm Shape.minnL32A x) false body s := by
  simp only [exec_minnL32A, execMinnL32A, issueA]; exact ⟨_, fun _ => rfl⟩
theorem body_minnN64L32B (x : ShortB) : ∃ body, ∀ s, exec (.minnN64L32B x) s = issue (shortBForm Shape.minnN64L32B x) false body s := by
  simp only [exec_minnN64L32B, execMinnN64L32B, issueB]; exact ⟨_, fun _ => rfl⟩
theorem body_maxn (x : Long) : ∃ body, ∀ s, exec (.maxn x) s = issue (longForm Shape.maxn false x) false body s := by
  simp only [exec_maxn, execMaxn, issueL]; exact ⟨_, fun _ => rfl⟩
theorem body_maxnL32A (x : ShortA) : ∃ body, ∀ s, exec (.maxnL32A x) s = issue (shortAForm Shape.maxnL32A x) false body s := by
  simp only [exec_maxnL32A, execMaxnL32A, issueA]; exact ⟨_, fun _ => rfl⟩
theorem body_maxnN64L32B (x : ShortB) : ∃ body, ∀ s, exec (.maxnN64L32B x) s = issue (shortBForm Shape.maxnN64L32B x) false body s := by
  simp only [exec_maxnN64L32B, execMaxnN64L32B, issueB]; exact ⟨_, fun _ => rfl⟩
theorem body_abs (x : Long) : ∃ body, ∀ s, exec (.abs x) s = issue (longForm Shape.abs false x) false body s := by
  simp only [exec_abs, execAbs, issueL]; exact ⟨_, fun _ => rfl⟩
theorem body_absL32A (x : ShortA) : ∃ body, ∀ s, exec (.absL32A x) s = issue (shortAForm Shape.absL32A x) false body s := by
  simp only [exec_absL32A, execAbsL32A, issueA]; exact ⟨_, fun _ => rfl⟩
theorem body_bfx (x : Long) : ∃ body, ∀ s, exec (.bfx x) s = issue (longForm Shape.bfx false x) false body s := by
  simp only [exec_bfx, execBfx, issueL]; exact ⟨_, fun _ => rfl⟩
theorem body_bfxN64L32B (x : ShortB) : ∃ body, ∀ s, exec (.bfxN64L32B x) s = issue (shortBForm Shape.bfxN64L32B x) false body s := by
  simp only [exec_bfxN64L32B, execBfxN64L32B, issueB]; exact ⟨_, fun _ => rfl⟩
theorem body_bfxI64L32B (x : ShortB) : ∃ body, ∀ s, exec (.bfxI64L32B x) s = issue (shortBForm Shape.bfxI64L32B x) false body s := by
  simp only [exec_bfxI64L32B, execBfxI64L32B, issueB]; exact ⟨_, fun _ => rfl⟩
theorem body_bfi (x : Long) : ∃ body, ∀ s, exec (.bfi x) s = issue (longForm Shape.bfi false x) false body s := by
  simp only [exec_bfi, execBfi, issueL]; exact ⟨_, fun _ => rfl⟩
theorem body_sel (x : Long) : ∃ body, ∀ s, exec (.sel x) s = issue (longForm Shape.sel false x) false body s := by
  simp only [exec_sel, execSel, issueL]; exact ⟨_, fun _ => rfl⟩
theorem body_cmp (x : Long) : ∃ body, ∀ s, exec (.cmp x) s = issue (longForm Shape.cmp false x) false body s := by
  simp only [exec_cmp, execCmp, issueL]; exact ⟨_, fun _ => rfl⟩
theorem body_cmpEqI64L32B (x : ShortB) : ∃ body, ∀ s, exec (.cmpEqI64L32B x) s = issue (shortBForm Shape.cmpEqI64L32B x) false body s := by
  simp only [exec_cmpEqI64L32B, execCmpEqI64L32B, issueB]; exact ⟨_, fun _ => rfl⟩
theorem body_cmpNeI64L32B (x : ShortB) : ∃ body, ∀ s, exec (.cmpNeI64L32B x) s = issue (shortBForm Shape.cmpNeI64L32B x) false body s := by
  simp only [exec_cmpNeI64L32B, execCmpNeI64L32B, issueB]; exact ⟨_, fun _ => rfl⟩
theorem body_cmpLtI64L32B (x : ShortB) : ∃ body, ∀ s, exec (.cmpLtI64L32B x) s = issue (shortBForm Shape.cmpLtI64L32B x) false body s := by
  simp only [exec_cmpLtI64L32B, execCmpLtI64L32B, issueB]; exact ⟨_, fun _ => rfl⟩
theorem body_cmpLeI64L32B (x : ShortB) : ∃ body, ∀ s, exec (.cmpLeI64L32B x) s = issue (shortBForm Shape.cmpLeI64L32B x) false body s := by
  simp only [exec_cmpLeI64L32B, execCmpLeI64L32B, issueB]; exact ⟨_, fun _ => rfl⟩
theorem body_cmpGtI64L32B (x : ShortB) : ∃ body, ∀ s, exec (.cmpGtI64L32B x) s = issue (shortBForm Shape.cmpGtI64L32B x) false body s := by
  simp only [exec_cmpGtI64L32B, execCmpGtI64L32B, issueB]; exact ⟨_, fun _ => rfl⟩
theorem body_cmpGeI64L32B (x : ShortB) : ∃ body, ∀ s, exec (.cmpGeI64L32B x) s = issue (shortBForm Shape.cmpGeI64L32B x) false body s := by
  simp only [exec_cmpGeI64L32B, execCmpGeI64L32B, issueB]; exact ⟨_, fun _ => rfl⟩
theorem body_cmpLtN64L32B (x : ShortB) : ∃ body, ∀ s, exec (.cmpLtN64L32B x) s = issue (shortBForm Shape.cmpLtN64L32B x) false body s := by
  simp only [exec_cmpLtN64L32B, execCmpLtN64L32B, issueB]; exact ⟨_, fun _ => rfl⟩
theorem body_cmpLeN64L32B (x : ShortB) : ∃ body, ∀ s, exec (.cmpLeN64L32B x) s = issue (shortBForm Shape.cmpLeN64L32B x) false body s := by
  simp only [exec_cmpLeN64L32B, execCmpLeN64L32B, issueB]; exact ⟨_, fun _ => rfl⟩
theorem body_cmpGtN64L32B (x : ShortB) : ∃ body, ∀ s, exec (.cmpGtN64L32B x) s = issue (shortBForm Shape.cmpGtN64L32B x) false body s := by
  simp only [exec_cmpGtN64L32B, execCmpGtN64L32B, issueB]; exact ⟨_, fun _ => rfl⟩
theorem body_cmpGeN64L32B (x : ShortB) : ∃ body, ∀ s, exec (.cmpGeN64L32B x) s = issue (shortBForm Shape.cmpGeN64L32B x) false body s := by
  simp only [exec_cmpGeN64L32B, execCmpGeN64L32B, issueB]; exact ⟨_, fun _ => rfl⟩
theorem body_mov (x : Long) : ∃ body, ∀ s, exec (.mov x) s = issue (longForm Shape.mov false x) false body s := by
  simp only [exec_mov, execMov, issueL]; exact ⟨_, fun _ => rfl⟩
theorem body_movL32A (x : ShortA) : ∃ body, ∀ s, exec (.movL32A x) s = issue (shortAForm Shape.movL32A x) false body s := by
  simp only [exec_movL32A, execMovL32A, issueA]; exact ⟨_, fun _ => rfl⟩
theorem body_movRelSrcL32B (x : ShortB) : ∃ body, ∀ s, exec (.movRelSrcL32B x) s = issue (shortBForm Shape.movRelSrcL32B x) false body s := by
  simp only [exec_movRelSrcL32B, execMovRelSrcL32B, issueB]; exact ⟨_, fun _ => rfl⟩
theorem body_movRelDstL32B (x : ShortB) : ∃ body, ∀ s, exec (.movRelDstL32B x) s = issue (shortBForm Shape.movRelDstL32B x) false body s := by
  simp only [exec_movRelDstL32B, execMovRelDstL32B, issueB]; exact ⟨_, fun _ => rfl⟩
theorem body_li (x : Long) : ∃ body, ∀ s, exec (.li x) s = issue (longForm Shape.li false x) false body s := by
  simp only [exec_li, execLi, issueL]; exact ⟨_, fun _ => rfl⟩
theorem body_liI64L32B (x : ShortB) : ∃ body, ∀ s, exec (.liI64L32B x) s = issue (shortBForm Shape.liI64L32B x) false body s := by
  simp only [exec_liI64L32B, execLiI64L32B, issueB]; exact ⟨_, fun _ => rfl⟩
theorem body_lih (x : Long) : ∃ body, ∀ s, exec (.lih x) s = issue (longForm Shape.lih false x) false body s := by
  simp only [exec_lih, execLih, issueL]; exact ⟨_, fun _ => rfl⟩
theorem body_lihL32B (x : ShortB) : ∃ body, ∀ s, exec (.lihL32B x) s = issue (shortBForm Shape.lihL32B x) false body s := by
  simp only [exec_lihL32B, execLihL32B, issueB]; exact ⟨_, fun _ => rfl⟩
theorem body_fadd (x : Long) : ∃ body, ∀ s, exec (.fadd x) s = issue (longForm Shape.fadd false x) false body s := by
  simp only [exec_fadd, execFadd, issueL]; exact ⟨_, fun _ => rfl⟩
theorem body_faddL32A (x : ShortA) : ∃ body, ∀ s, exec (.faddL32A x) s = issue (shortAForm Shape.faddL32A x) false body s := by
  simp only [exec_faddL32A, execFaddL32A, issueA]; exact ⟨_, fun _ => rfl⟩
theorem body_fsub (x : Long) : ∃ body, ∀ s, exec (.fsub x) s = issue (longForm Shape.fsub false x) false body s := by
  simp only [exec_fsub, execFsub, issueL]; exact ⟨_, fun _ => rfl⟩
theorem body_fsubL32A (x : ShortA) : ∃ body, ∀ s, exec (.fsubL32A x) s = issue (shortAForm Shape.fsubL32A x) false body s := by
  simp only [exec_fsubL32A, execFsubL32A, issueA]; exact ⟨_, fun _ => rfl⟩
theorem body_fmul (x : Long) : ∃ body, ∀ s, exec (.fmul x) s = issue (longForm Shape.fmul false x) false body s := by
  simp only [exec_fmul, execFmul, issueL]; exact ⟨_, fun _ => rfl⟩
theorem body_fmulL32A (x : ShortA) : ∃ body, ∀ s, exec (.fmulL32A x) s = issue (shortAForm Shape.fmulL32A x) false body s := by
  simp only [exec_fmulL32A, execFmulL32A, issueA]; exact ⟨_, fun _ => rfl⟩
theorem body_ffma (x : Long) : ∃ body, ∀ s, exec (.ffma x) s = issue (longForm Shape.ffma false x) false body s := by
  simp only [exec_ffma, execFfma, issueL]; exact ⟨_, fun _ => rfl⟩
theorem body_ffms (x : Long) : ∃ body, ∀ s, exec (.ffms x) s = issue (longForm Shape.ffms false x) false body s := by
  simp only [exec_ffms, execFfms, issueL]; exact ⟨_, fun _ => rfl⟩
theorem body_fdiv (x : Long) : ∃ body, ∀ s, exec (.fdiv x) s = issue (longForm Shape.fdiv false x) false body s := by
  simp only [exec_fdiv, execFdiv, issueL]; exact ⟨_, fun _ => rfl⟩
theorem body_fdivL32A (x : ShortA) : ∃ body, ∀ s, exec (.fdivL32A x) s = issue (shortAForm Shape.fdivL32A x) false body s := by
  simp only [exec_fdivL32A, execFdivL32A, issueA]; exact ⟨_, fun _ => rfl⟩
theorem body_fsqrt (x : Long) : ∃ body, ∀ s, exec (.fsqrt x) s = issue (longForm Shape.fsqrt false x) false body s := by
  simp only [exec_fsqrt, execFsqrt, issueL]; exact ⟨_, fun _ => rfl⟩
theorem body_fsqrtL32A (x : ShortA) : ∃ body, ∀ s, exec (.fsqrtL32A x) s = issue (shortAForm Shape.fsqrtL32A x) false body s := by
  simp only [exec_fsqrtL32A, execFsqrtL32A, issueA]; exact ⟨_, fun _ => rfl⟩
theorem body_fmin (x : Long) : ∃ body, ∀ s, exec (.fmin x) s = issue (longForm Shape.fmin false x) false body s := by
  simp only [exec_fmin, execFmin, issueL]; exact ⟨_, fun _ => rfl⟩
theorem body_fminL32A (x : ShortA) : ∃ body, ∀ s, exec (.fminL32A x) s = issue (shortAForm Shape.fminL32A x) false body s := by
  simp only [exec_fminL32A, execFminL32A, issueA]; exact ⟨_, fun _ => rfl⟩
theorem body_fmax (x : Long) : ∃ body, ∀ s, exec (.fmax x) s = issue (longForm Shape.fmax false x) false body s := by
  simp only [exec_fmax, execFmax, issueL]; exact ⟨_, fun _ => rfl⟩
theorem body_fmaxL32A (x : ShortA) : ∃ body, ∀ s, exec (.fmaxL32A x) s = issue (shortAForm Shape.fmaxL32A x) false body s := by
  simp only [exec_fmaxL32A, execFmaxL32A, issueA]; exact ⟨_, fun _ => rfl⟩
theorem body_fabs (x : Long) : ∃ body, ∀ s, exec (.fabs x) s = issue (longForm Shape.fabs false x) false body s := by
  simp only [exec_fabs, execFabs, issueL]; exact ⟨_, fun _ => rfl⟩
theorem body_fabsL32A (x : ShortA) : ∃ body, ∀ s, exec (.fabsL32A x) s = issue (shortAForm Shape.fabsL32A x) false body s := by
  simp only [exec_fabsL32A, execFabsL32A, issueA]; exact ⟨_, fun _ => rfl⟩
theorem body_fneg (x : Long) : ∃ body, ∀ s, exec (.fneg x) s = issue (longForm Shape.fneg false x) false body s := by
  simp only [exec_fneg, execFneg, issueL]; exact ⟨_, fun _ => rfl⟩
theorem body_fnegL32A (x : ShortA) : ∃ body, ∀ s, exec (.fnegL32A x) s = issue (shortAForm Shape.fnegL32A x) false body s := by
  simp only [exec_fnegL32A, execFnegL32A, issueA]; exact ⟨_, fun _ => rfl⟩
theorem body_fcpys (x : Long) : ∃ body, ∀ s, exec (.fcpys x) s = issue (longForm Shape.fcpys false x) false body s := by
  simp only [exec_fcpys, execFcpys, issueL]; exact ⟨_, fun _ => rfl⟩
theorem body_fcpysL32A (x : ShortA) : ∃ body, ∀ s, exec (.fcpysL32A x) s = issue (shortAForm Shape.fcpysL32A x) false body s := by
  simp only [exec_fcpysL32A, execFcpysL32A, issueA]; exact ⟨_, fun _ => rfl⟩
theorem body_fcmp (x : Long) : ∃ body, ∀ s, exec (.fcmp x) s = issue (longForm Shape.fcmp false x) false body s := by
  simp only [exec_fcmp, execFcmp, issueL]; exact ⟨_, fun _ => rfl⟩
theorem body_fclass (x : Long) : ∃ body, ∀ s, exec (.fclass x) s = issue (longForm Shape.fclass false x) false body s := by
  simp only [exec_fclass, execFclass, issueL]; exact ⟨_, fun _ => rfl⟩
theorem body_fclassL32A (x : ShortA) : ∃ body, ∀ s, exec (.fclassL32A x) s = issue (shortAForm Shape.fclassL32A x) false body s := by
  simp only [exec_fclassL32A, execFclassL32A, issueA]; exact ⟨_, fun _ => rfl⟩
theorem body_fcvt (x : Long) : ∃ body, ∀ s, exec (.fcvt x) s = issue (longForm Shape.fcvt false x) false body s := by
  simp only [exec_fcvt, execFcvt, issueL]; exact ⟨_, fun _ => rfl⟩
theorem body_fcvti (x : Long) : ∃ body, ∀ s, exec (.fcvti x) s = issue (longForm Shape.fcvti false x) false body s := by
  simp only [exec_fcvti, execFcvti, issueL]; exact ⟨_, fun _ => rfl⟩
theorem body_icvtf (x : Long) : ∃ body, ∀ s, exec (.icvtf x) s = issue (longForm Shape.icvtf false x) false body s := by
  simp only [exec_icvtf, execIcvtf, issueL]; exact ⟨_, fun _ => rfl⟩
theorem body_frnd (x : Long) : ∃ body, ∀ s, exec (.frnd x) s = issue (longForm Shape.frnd false x) false body s := by
  simp only [exec_frnd, execFrnd, issueL]; exact ⟨_, fun _ => rfl⟩
theorem body_frndL32A (x : ShortA) : ∃ body, ∀ s, exec (.frndL32A x) s = issue (shortAForm Shape.frndL32A x) false body s := by
  simp only [exec_frndL32A, execFrndL32A, issueA]; exact ⟨_, fun _ => rfl⟩
theorem body_br (x : Long) : ∃ body, ∀ s, exec (.br x) s = issue (longForm Shape.br false x) false body s := by
  simp only [exec_br, execBr, issueL]; exact ⟨_, fun _ => rfl⟩
theorem body_brL32B (x : ShortB) : ∃ body, ∀ s, exec (.brL32B x) s = issue (shortBForm Shape.brL32B x) false body s := by
  simp only [exec_brL32B, execBrL32B, issueB]; exact ⟨_, fun _ => rfl⟩
theorem body_brNotL32B (x : ShortB) : ∃ body, ∀ s, exec (.brNotL32B x) s = issue (shortBForm Shape.brNotL32B x) false body s := by
  simp only [exec_brNotL32B, execBrNotL32B, issueB]; exact ⟨_, fun _ => rfl⟩
theorem body_jmp (x : Long) : ∃ body, ∀ s, exec (.jmp x) s = issue (longForm Shape.jmp false x) false body s := by
  simp only [exec_jmp, execJmp, issueL]; exact ⟨_, fun _ => rfl⟩
theorem body_jmpL32A (x : ShortA) : ∃ body, ∀ s, exec (.jmpL32A x) s = issue (shortAForm Shape.jmpL32A x) false body s := by
  simp only [exec_jmpL32A, execJmpL32A, issueA]; exact ⟨_, fun _ => rfl⟩
theorem body_jmpi (x : Long) : ∃ body, ∀ s, exec (.jmpi x) s = issue (longForm Shape.jmpi false x) false body s := by
  simp only [exec_jmpi, execJmpi, issueL]; exact ⟨_, fun _ => rfl⟩
theorem body_jmpiL32A (x : ShortA) : ∃ body, ∀ s, exec (.jmpiL32A x) s = issue (shortAForm Shape.jmpiL32A x) false body s := by
  simp only [exec_jmpiL32A, execJmpiL32A, issueA]; exact ⟨_, fun _ => rfl⟩
theorem body_call (x : Long) : ∃ body, ∀ s, exec (.call x) s = issue (longForm Shape.call false x) false body s := by
  simp only [exec_call, execCall, issueL]; exact ⟨_, fun _ => rfl⟩
theorem body_callL32B (x : ShortB) : ∃ body, ∀ s, exec (.callL32B x) s = issue (shortBForm Shape.callL32B x) false body s := by
  simp only [exec_callL32B, execCallL32B, issueB]; exact ⟨_, fun _ => rfl⟩
theorem body_calli (x : Long) : ∃ body, ∀ s, exec (.calli x) s = issue (longForm Shape.calli false x) false body s := by
  simp only [exec_calli, execCalli, issueL]; exact ⟨_, fun _ => rfl⟩
theorem body_calliL32A (x : ShortA) : ∃ body, ∀ s, exec (.calliL32A x) s = issue (shortAForm Shape.calliL32A x) false body s := by
  simp only [exec_calliL32A, execCalliL32A, issueA]; exact ⟨_, fun _ => rfl⟩
theorem body_ret (x : Long) : ∃ body, ∀ s, exec (.ret x) s = issue (longForm Shape.ret false x) false body s := by
  simp only [exec_ret, execRet, issueL]; exact ⟨_, fun _ => rfl⟩
theorem body_retL32A (x : ShortA) : ∃ body, ∀ s, exec (.retL32A x) s = issue (shortAForm Shape.retL32A x) false body s := by
  simp only [exec_retL32A, execRetL32A, issueA]; exact ⟨_, fun _ => rfl⟩
theorem body_loops (x : Long) : ∃ body, ∀ s, exec (.loops x) s = issue (longForm Shape.loops false x) false body s := by
  simp only [exec_loops, execLoops, issueL]; exact ⟨_, fun _ => rfl⟩
theorem body_endI (x : Long) : ∃ body, ∀ s, exec (.endI x) s = issue (longForm Shape.endI false x) false body s := by
  simp only [exec_endI, execEnd, issueL]; exact ⟨_, fun _ => rfl⟩
theorem body_endL32A (x : ShortA) : ∃ body, ∀ s, exec (.endL32A x) s = issue (shortAForm Shape.endL32A x) false body s := by
  simp only [exec_endL32A, execEndL32A, issueA]; exact ⟨_, fun _ => rfl⟩
theorem body_nop (x : Long) : ∃ body, ∀ s, exec (.nop x) s = issue (longForm Shape.nop false x) false body s := by
  simp only [exec_nop, execNop, issueL]; exact ⟨_, fun _ => rfl⟩
theorem body_nopL32A (x : ShortA) : ∃ body, ∀ s, exec (.nopL32A x) s = issue (shortAForm Shape.nopL32A x) false body s := by
  simp only [exec_nopL32A, execNopL32A, issueA]; exact ⟨_, fun _ => rfl⟩
theorem body_gang (x : Long) : ∃ body, ∀ s, exec (.gang x) s = issue (longForm Shape.gang false x) false body s := by
  simp only [exec_gang, execGang, issueL]; exact ⟨_, fun _ => rfl⟩
theorem body_ungang (x : Long) : ∃ body, ∀ s, exec (.ungang x) s = issue (longForm Shape.ungang false x) false body s := by
  simp only [exec_ungang, execUngang, issueL]; exact ⟨_, fun _ => rfl⟩
theorem body_ungangL32A (x : ShortA) : ∃ body, ∀ s, exec (.ungangL32A x) s = issue (shortAForm Shape.ungangL32A x) false body s := by
  simp only [exec_ungangL32A, execUngangL32A, issueA]; exact ⟨_, fun _ => rfl⟩
theorem body_rejoin (x : Long) : ∃ body, ∀ s, exec (.rejoin x) s = issue (longForm Shape.rejoin false x) false body s := by
  simp only [exec_rejoin, execRejoin, issueL]; exact ⟨_, fun _ => rfl⟩
theorem body_rejoinL32A (x : ShortA) : ∃ body, ∀ s, exec (.rejoinL32A x) s = issue (shortAForm Shape.rejoinL32A x) false body s := by
  simp only [exec_rejoinL32A, execRejoinL32A, issueA]; exact ⟨_, fun _ => rfl⟩
theorem body_pand (x : Long) : ∃ body, ∀ s, exec (.pand x) s = issue (longForm Shape.pand false x) false body s := by
  simp only [exec_pand, execPand, issueL]; exact ⟨_, fun _ => rfl⟩
theorem body_pandL32A (x : ShortA) : ∃ body, ∀ s, exec (.pandL32A x) s = issue (shortAForm Shape.pandL32A x) false body s := by
  simp only [exec_pandL32A, execPandL32A, issueA]; exact ⟨_, fun _ => rfl⟩
theorem body_por (x : Long) : ∃ body, ∀ s, exec (.por x) s = issue (longForm Shape.por false x) false body s := by
  simp only [exec_por, execPor, issueL]; exact ⟨_, fun _ => rfl⟩
theorem body_porL32A (x : ShortA) : ∃ body, ∀ s, exec (.porL32A x) s = issue (shortAForm Shape.porL32A x) false body s := by
  simp only [exec_porL32A, execPorL32A, issueA]; exact ⟨_, fun _ => rfl⟩
theorem body_pxor (x : Long) : ∃ body, ∀ s, exec (.pxor x) s = issue (longForm Shape.pxor false x) false body s := by
  simp only [exec_pxor, execPxor, issueL]; exact ⟨_, fun _ => rfl⟩
theorem body_pxorL32A (x : ShortA) : ∃ body, ∀ s, exec (.pxorL32A x) s = issue (shortAForm Shape.pxorL32A x) false body s := by
  simp only [exec_pxorL32A, execPxorL32A, issueA]; exact ⟨_, fun _ => rfl⟩
theorem body_pnot (x : Long) : ∃ body, ∀ s, exec (.pnot x) s = issue (longForm Shape.pnot false x) false body s := by
  simp only [exec_pnot, execPnot, issueL]; exact ⟨_, fun _ => rfl⟩
theorem body_pnotL32A (x : ShortA) : ∃ body, ∀ s, exec (.pnotL32A x) s = issue (shortAForm Shape.pnotL32A x) false body s := by
  simp only [exec_pnotL32A, execPnotL32A, issueA]; exact ⟨_, fun _ => rfl⟩
theorem body_pmov (x : Long) : ∃ body, ∀ s, exec (.pmov x) s = issue (longForm Shape.pmov false x) false body s := by
  simp only [exec_pmov, execPmov, issueL]; exact ⟨_, fun _ => rfl⟩
theorem body_pmovL32A (x : ShortA) : ∃ body, ∀ s, exec (.pmovL32A x) s = issue (shortAForm Shape.pmovL32A x) false body s := by
  simp only [exec_pmovL32A, execPmovL32A, issueA]; exact ⟨_, fun _ => rfl⟩
theorem body_pmovFromG (x : Long) : ∃ body, ∀ s, exec (.pmovFromG x) s = issue (longForm Shape.pmovFromG false x) false body s := by
  simp only [exec_pmovFromG, execPmovFromG, issueL]; exact ⟨_, fun _ => rfl⟩
theorem body_pmovFromGL32A (x : ShortA) : ∃ body, ∀ s, exec (.pmovFromGL32A x) s = issue (shortAForm Shape.pmovFromGL32A x) false body s := by
  simp only [exec_pmovFromGL32A, execPmovFromGL32A, issueA]; exact ⟨_, fun _ => rfl⟩
theorem body_pmovToG (x : Long) : ∃ body, ∀ s, exec (.pmovToG x) s = issue (longForm Shape.pmovToG false x) false body s := by
  simp only [exec_pmovToG, execPmovToG, issueL]; exact ⟨_, fun _ => rfl⟩
theorem body_pmovToGL32A (x : ShortA) : ∃ body, ∀ s, exec (.pmovToGL32A x) s = issue (shortAForm Shape.pmovToGL32A x) false body s := by
  simp only [exec_pmovToGL32A, execPmovToGL32A, issueA]; exact ⟨_, fun _ => rfl⟩
theorem body_pcnt (x : Long) : ∃ body, ∀ s, exec (.pcnt x) s = issue (longForm Shape.pcnt false x) false body s := by
  simp only [exec_pcnt, execPcnt, issueL]; exact ⟨_, fun _ => rfl⟩
theorem body_pcntL32A (x : ShortA) : ∃ body, ∀ s, exec (.pcntL32A x) s = issue (shortAForm Shape.pcntL32A x) false body s := by
  simp only [exec_pcntL32A, execPcntL32A, issueA]; exact ⟨_, fun _ => rfl⟩
theorem body_qinc (x : Long) : ∃ body, ∀ s, exec (.qinc x) s = issue (longForm Shape.qinc false x) false body s := by
  simp only [exec_qinc, execQinc, issueL]; exact ⟨_, fun _ => rfl⟩
theorem body_qincL32A (x : ShortA) : ∃ body, ∀ s, exec (.qincL32A x) s = issue (shortAForm Shape.qincL32A x) false body s := by
  simp only [exec_qincL32A, execQincL32A, issueA]; exact ⟨_, fun _ => rfl⟩
theorem body_qadd (x : Long) : ∃ body, ∀ s, exec (.qadd x) s = issue (longForm Shape.qadd false x) false body s := by
  simp only [exec_qadd, execQadd, issueL]; exact ⟨_, fun _ => rfl⟩
theorem body_qaddL32B (x : ShortB) : ∃ body, ∀ s, exec (.qaddL32B x) s = issue (shortBForm Shape.qaddL32B x) false body s := by
  simp only [exec_qaddL32B, execQaddL32B, issueB]; exact ⟨_, fun _ => rfl⟩
theorem body_qrd (x : Long) : ∃ body, ∀ s, exec (.qrd x) s = issue (longForm Shape.qrd false x) false body s := by
  simp only [exec_qrd, execQrd, issueL]; exact ⟨_, fun _ => rfl⟩
theorem body_qpost (x : Long) : ∃ body, ∀ s, exec (.qpost x) s = issue (longForm Shape.qpost true x) false body s := by
  simp only [exec_qpost, execQpost, issueM]; exact ⟨_, fun _ => rfl⟩
theorem body_waitq (x : Long) : ∃ body, ∀ s, exec (.waitq x) s = issue (longForm Shape.waitq false x) false body s := by
  simp only [exec_waitq, execWaitq, issueL]; exact ⟨_, fun _ => rfl⟩
theorem body_waitb (x : Long) : ∃ body, ∀ s, exec (.waitb x) s = issue (longForm Shape.waitb false x) false body s := by
  simp only [exec_waitb, execWaitb, issueL]; exact ⟨_, fun _ => rfl⟩
theorem body_waitvis (x : Long) : ∃ body, ∀ s, exec (.waitvis x) s = issue (longForm Shape.waitvis false x) false body s := by
  simp only [exec_waitvis, execWaitvis, issueL]; exact ⟨_, fun _ => rfl⟩
theorem body_succhint (x : Long) : ∃ body, ∀ s, exec (.succhint x) s = issue (longForm Shape.succhint false x) false body s := by
  simp only [exec_succhint, execSucchint, issueL]; exact ⟨_, fun _ => rfl⟩
theorem body_succhintL32A (x : ShortA) : ∃ body, ∀ s, exec (.succhintL32A x) s = issue (shortAForm Shape.succhintL32A x) false body s := by
  simp only [exec_succhintL32A, execSucchintL32A, issueA]; exact ⟨_, fun _ => rfl⟩
theorem body_hwaitf (x : Long) : ∃ body, ∀ s, exec (.hwaitf x) s = issue (longForm Shape.hwaitf false x) false body s := by
  simp only [exec_hwaitf, execHwaitf, issueL]; exact ⟨_, fun _ => rfl⟩
theorem body_hwaitfL32B (x : ShortB) : ∃ body, ∀ s, exec (.hwaitfL32B x) s = issue (shortBForm Shape.hwaitfL32B x) false body s := by
  simp only [exec_hwaitfL32B, execHwaitfL32B, issueB]; exact ⟨_, fun _ => rfl⟩
theorem body_hwaite (x : Long) : ∃ body, ∀ s, exec (.hwaite x) s = issue (longForm Shape.hwaite false x) false body s := by
  simp only [exec_hwaite, execHwaite, issueL]; exact ⟨_, fun _ => rfl⟩
theorem body_hwaiteL32B (x : ShortB) : ∃ body, ∀ s, exec (.hwaiteL32B x) s = issue (shortBForm Shape.hwaiteL32B x) false body s := by
  simp only [exec_hwaiteL32B, execHwaiteL32B, issueB]; exact ⟨_, fun _ => rfl⟩
theorem body_hld (x : Long) : ∃ body, ∀ s, exec (.hld x) s = issue (longForm Shape.hld false x) false body s := by
  simp only [exec_hld, execHld, issueL]; exact ⟨_, fun _ => rfl⟩
theorem body_hst (x : Long) : ∃ body, ∀ s, exec (.hst x) s = issue (longForm Shape.hst false x) false body s := by
  simp only [exec_hst, execHst, issueL]; exact ⟨_, fun _ => rfl⟩
theorem body_hadvc (x : Long) : ∃ body, ∀ s, exec (.hadvc x) s = issue (longForm Shape.hadvc false x) false body s := by
  simp only [exec_hadvc, execHadvc, issueL]; exact ⟨_, fun _ => rfl⟩
theorem body_hadvcL32B (x : ShortB) : ∃ body, ∀ s, exec (.hadvcL32B x) s = issue (shortBForm Shape.hadvcL32B x) false body s := by
  simp only [exec_hadvcL32B, execHadvcL32B, issueB]; exact ⟨_, fun _ => rfl⟩
theorem body_hadvp (x : Long) : ∃ body, ∀ s, exec (.hadvp x) s = issue (longForm Shape.hadvp true x) false body s := by
  simp only [exec_hadvp, execHadvp, issueM]; exact ⟨_, fun _ => rfl⟩
theorem body_hadvpL32B (x : ShortB) : ∃ body, ∀ s, exec (.hadvpL32B x) s = issue (shortBForm Shape.hadvpL32B x) false body s := by
  simp only [exec_hadvpL32B, execHadvpL32B, issueB]; exact ⟨_, fun _ => rfl⟩
theorem body_heos (x : Long) : ∃ body, ∀ s, exec (.heos x) s = issue (longForm Shape.heos true x) false body s := by
  simp only [exec_heos, execHeos, issueM]; exact ⟨_, fun _ => rfl⟩
theorem body_hstat (x : Long) : ∃ body, ∀ s, exec (.hstat x) s = issue (longForm Shape.hstat false x) false body s := by
  simp only [exec_hstat, execHstat, issueL]; exact ⟨_, fun _ => rfl⟩
theorem body_hstatL32A (x : ShortA) : ∃ body, ∀ s, exec (.hstatL32A x) s = issue (shortAForm Shape.hstatL32A x) false body s := by
  simp only [exec_hstatL32A, execHstatL32A, issueA]; exact ⟨_, fun _ => rfl⟩
theorem body_send (x : Long) : ∃ body, ∀ s, exec (.send x) s = issue (longForm Shape.send true x) false body s := by
  simp only [exec_send, execSend, issueM]; exact ⟨_, fun _ => rfl⟩
theorem body_sendq (x : Long) : ∃ body, ∀ s, exec (.sendq x) s = issue (longForm Shape.sendq true x) false body s := by
  simp only [exec_sendq, execSendq, issueM]; exact ⟨_, fun _ => rfl⟩
theorem body_cred (x : Long) : ∃ body, ∀ s, exec (.cred x) s = issue (longForm Shape.cred false x) false body s := by
  simp only [exec_cred, execCred, issueL]; exact ⟨_, fun _ => rfl⟩
theorem body_cderive (x : Long) : ∃ body, ∀ s, exec (.cderive x) s = issue (longForm Shape.cderive false x) false body s := by
  simp only [exec_cderive, execCderive, issueL]; exact ⟨_, fun _ => rfl⟩
theorem body_cperm (x : Long) : ∃ body, ∀ s, exec (.cperm x) s = issue (longForm Shape.cperm false x) false body s := by
  simp only [exec_cperm, execCperm, issueL]; exact ⟨_, fun _ => rfl⟩
theorem body_cseal (x : Long) : ∃ body, ∀ s, exec (.cseal x) s = issue (longForm Shape.cseal false x) false body s := by
  simp only [exec_cseal, execCseal, issueL]; exact ⟨_, fun _ => rfl⟩
theorem body_csealL32A (x : ShortA) : ∃ body, ∀ s, exec (.csealL32A x) s = issue (shortAForm Shape.csealL32A x) false body s := by
  simp only [exec_csealL32A, execCsealL32A, issueA]; exact ⟨_, fun _ => rfl⟩
theorem body_cunseal (x : Long) : ∃ body, ∀ s, exec (.cunseal x) s = issue (longForm Shape.cunseal false x) false body s := by
  simp only [exec_cunseal, execCunseal, issueL]; exact ⟨_, fun _ => rfl⟩
theorem body_cunsealL32A (x : ShortA) : ∃ body, ∀ s, exec (.cunsealL32A x) s = issue (shortAForm Shape.cunsealL32A x) false body s := by
  simp only [exec_cunsealL32A, execCunsealL32A, issueA]; exact ⟨_, fun _ => rfl⟩
theorem body_cbase (x : Long) : ∃ body, ∀ s, exec (.cbase x) s = issue (longForm Shape.cbase false x) false body s := by
  simp only [exec_cbase, execCbase, issueL]; exact ⟨_, fun _ => rfl⟩
theorem body_cbaseL32A (x : ShortA) : ∃ body, ∀ s, exec (.cbaseL32A x) s = issue (shortAForm Shape.cbaseL32A x) false body s := by
  simp only [exec_cbaseL32A, execCbaseL32A, issueA]; exact ⟨_, fun _ => rfl⟩
theorem body_clen (x : Long) : ∃ body, ∀ s, exec (.clen x) s = issue (longForm Shape.clen false x) false body s := by
  simp only [exec_clen, execClen, issueL]; exact ⟨_, fun _ => rfl⟩
theorem body_clenL32A (x : ShortA) : ∃ body, ∀ s, exec (.clenL32A x) s = issue (shortAForm Shape.clenL32A x) false body s := by
  simp only [exec_clenL32A, execClenL32A, issueA]; exact ⟨_, fun _ => rfl⟩
theorem body_cperms (x : Long) : ∃ body, ∀ s, exec (.cperms x) s = issue (longForm Shape.cperms false x) false body s := by
  simp only [exec_cperms, execCperms, issueL]; exact ⟨_, fun _ => rfl⟩
theorem body_cpermsL32A (x : ShortA) : ∃ body, ∀ s, exec (.cpermsL32A x) s = issue (shortAForm Shape.cpermsL32A x) false body s := by
  simp only [exec_cpermsL32A, execCpermsL32A, issueA]; exact ⟨_, fun _ => rfl⟩
theorem body_ctype (x : Long) : ∃ body, ∀ s, exec (.ctype x) s = issue (longForm Shape.ctype false x) false body s := by
  simp only [exec_ctype, execCtype, issueL]; exact ⟨_, fun _ => rfl⟩
theorem body_ctypeL32A (x : ShortA) : ∃ body, ∀ s, exec (.ctypeL32A x) s = issue (shortAForm Shape.ctypeL32A x) false body s := by
  simp only [exec_ctypeL32A, execCtypeL32A, issueA]; exact ⟨_, fun _ => rfl⟩
theorem body_ctag (x : Long) : ∃ body, ∀ s, exec (.ctag x) s = issue (longForm Shape.ctag false x) false body s := by
  simp only [exec_ctag, execCtag, issueL]; exact ⟨_, fun _ => rfl⟩
theorem body_ctagL32A (x : ShortA) : ∃ body, ∀ s, exec (.ctagL32A x) s = issue (shortAForm Shape.ctagL32A x) false body s := by
  simp only [exec_ctagL32A, execCtagL32A, issueA]; exact ⟨_, fun _ => rfl⟩
theorem body_cclr (x : Long) : ∃ body, ∀ s, exec (.cclr x) s = issue (longForm Shape.cclr false x) false body s := by
  simp only [exec_cclr, execCclr, issueL]; exact ⟨_, fun _ => rfl⟩
theorem body_cclrL32A (x : ShortA) : ∃ body, ∀ s, exec (.cclrL32A x) s = issue (shortAForm Shape.cclrL32A x) false body s := by
  simp only [exec_cclrL32A, execCclrL32A, issueA]; exact ⟨_, fun _ => rfl⟩
theorem body_cmov (x : Long) : ∃ body, ∀ s, exec (.cmov x) s = issue (longForm Shape.cmov false x) false body s := by
  simp only [exec_cmov, execCmov, issueL]; exact ⟨_, fun _ => rfl⟩
theorem body_cmovL32A (x : ShortA) : ∃ body, ∀ s, exec (.cmovL32A x) s = issue (shortAForm Shape.cmovL32A x) false body s := by
  simp only [exec_cmovL32A, execCmovL32A, issueA]; exact ⟨_, fun _ => rfl⟩
theorem body_cldc (x : Long) : ∃ body, ∀ s, exec (.cldc x) s = issue (longForm Shape.cldc true x) false body s := by
  simp only [exec_cldc, execCldc, issueM]; exact ⟨_, fun _ => rfl⟩
theorem body_cldcL32B (x : ShortB) : ∃ body, ∀ s, exec (.cldcL32B x) s = issue (shortBForm Shape.cldcL32B x) false body s := by
  simp only [exec_cldcL32B, execCldcL32B, issueB]; exact ⟨_, fun _ => rfl⟩
theorem body_cstc (x : Long) : ∃ body, ∀ s, exec (.cstc x) s = issue (longForm Shape.cstc true x) false body s := by
  simp only [exec_cstc, execCstc, issueM]; exact ⟨_, fun _ => rfl⟩
theorem body_cstcL32B (x : ShortB) : ∃ body, ∀ s, exec (.cstcL32B x) s = issue (shortBForm Shape.cstcL32B x) false body s := by
  simp only [exec_cstcL32B, execCstcL32B, issueB]; exact ⟨_, fun _ => rfl⟩
theorem body_cchk (x : Long) : ∃ body, ∀ s, exec (.cchk x) s = issue (longForm Shape.cchk false x) false body s := by
  simp only [exec_cchk, execCchk, issueL]; exact ⟨_, fun _ => rfl⟩
theorem body_trap (x : Long) : ∃ body, ∀ s, exec (.trap x) s = issue (longForm Shape.trap false x) false body s := by
  simp only [exec_trap, execTrap, issueL]; exact ⟨_, fun _ => rfl⟩
theorem body_trapL32B (x : ShortB) : ∃ body, ∀ s, exec (.trapL32B x) s = issue (shortBForm Shape.trapL32B x) false body s := by
  simp only [exec_trapL32B, execTrapL32B, issueB]; exact ⟨_, fun _ => rfl⟩
theorem body_wick (x : Long) : ∃ body, ∀ s, exec (.wick x) s = issue (longForm Shape.wick false x) false body s := by
  simp only [exec_wick, execWick, issueL]; exact ⟨_, fun _ => rfl⟩
theorem body_wickL32A (x : ShortA) : ∃ body, ∀ s, exec (.wickL32A x) s = issue (shortAForm Shape.wickL32A x) false body s := by
  simp only [exec_wickL32A, execWickL32A, issueA]; exact ⟨_, fun _ => rfl⟩
theorem body_wid (x : Long) : ∃ body, ∀ s, exec (.wid x) s = issue (longForm Shape.wid false x) false body s := by
  simp only [exec_wid, execWid, issueL]; exact ⟨_, fun _ => rfl⟩
theorem body_widL32B (x : ShortB) : ∃ body, ∀ s, exec (.widL32B x) s = issue (shortBForm Shape.widL32B x) false body s := by
  simp only [exec_widL32B, execWidL32B, issueB]; exact ⟨_, fun _ => rfl⟩
theorem body_who (x : Long) : ∃ body, ∀ s, exec (.who x) s = issue (longForm Shape.who false x) false body s := by
  simp only [exec_who, execWho, issueL]; exact ⟨_, fun _ => rfl⟩
theorem body_query (x : Long) : ∃ body, ∀ s, exec (.query x) s = issue (longForm Shape.query false x) false body s := by
  simp only [exec_query, execQuery, issueL]; exact ⟨_, fun _ => rfl⟩
theorem body_queryL32A (x : ShortA) : ∃ body, ∀ s, exec (.queryL32A x) s = issue (shortAForm Shape.queryL32A x) false body s := by
  simp only [exec_queryL32A, execQueryL32A, issueA]; exact ⟨_, fun _ => rfl⟩
theorem body_time (x : Long) : ∃ body, ∀ s, exec (.time x) s = issue (longForm Shape.time false x) false body s := by
  simp only [exec_time, execTime, issueL]; exact ⟨_, fun _ => rfl⟩
theorem body_timeL32A (x : ShortA) : ∃ body, ∀ s, exec (.timeL32A x) s = issue (shortAForm Shape.timeL32A x) false body s := by
  simp only [exec_timeL32A, execTimeL32A, issueA]; exact ⟨_, fun _ => rfl⟩
theorem body_timeEnergy (x : Long) : ∃ body, ∀ s, exec (.timeEnergy x) s = issue (longForm Shape.timeEnergy false x) false body s := by
  simp only [exec_timeEnergy, execTimeEnergy, issueL]; exact ⟨_, fun _ => rfl⟩
theorem body_timeEnergyL32A (x : ShortA) : ∃ body, ∀ s, exec (.timeEnergyL32A x) s = issue (shortAForm Shape.timeEnergyL32A x) false body s := by
  simp only [exec_timeEnergyL32A, execTimeEnergyL32A, issueA]; exact ⟨_, fun _ => rfl⟩
theorem body_sysrd (x : Long) : ∃ body, ∀ s, exec (.sysrd x) s = issue (longForm Shape.sysrd false x) false body s := by
  simp only [exec_sysrd, execSysrd, issueL]; exact ⟨_, fun _ => rfl⟩
theorem body_syswr (x : Long) : ∃ body, ∀ s, exec (.syswr x) s = issue (longForm Shape.syswr false x) false body s := by
  simp only [exec_syswr, execSyswr, issueL]; exact ⟨_, fun _ => rfl⟩
theorem body_yield (x : Long) : ∃ body, ∀ s, exec (.yield x) s = issue (longForm Shape.yield false x) false body s := by
  simp only [exec_yield, execYield, issueL]; exact ⟨_, fun _ => rfl⟩
theorem body_yieldL32A (x : ShortA) : ∃ body, ∀ s, exec (.yieldL32A x) s = issue (shortAForm Shape.yieldL32A x) false body s := by
  simp only [exec_yieldL32A, execYieldL32A, issueA]; exact ⟨_, fun _ => rfl⟩
theorem body_gate (x : Long) : ∃ body, ∀ s, exec (.gate x) s = issue (longForm Shape.gate false x) true body s := by
  simp only [exec_gate, execGate, issueP]; exact ⟨_, fun _ => rfl⟩
theorem body_snuff (x : Long) : ∃ body, ∀ s, exec (.snuff x) s = issue (longForm Shape.snuff false x) true body s := by
  simp only [exec_snuff, execSnuff, issueP]; exact ⟨_, fun _ => rfl⟩
theorem body_nameset (x : Long) : ∃ body, ∀ s, exec (.nameset x) s = issue (longForm Shape.nameset false x) true body s := by
  simp only [exec_nameset, execNameset, issueP]; exact ⟨_, fun _ => rfl⟩
theorem body_leaseack (x : Long) : ∃ body, ∀ s, exec (.leaseack x) s = issue (longForm Shape.leaseack false x) true body s := by
  simp only [exec_leaseack, execLeaseack, issueP]; exact ⟨_, fun _ => rfl⟩
theorem body_fresume (x : Long) : ∃ body, ∀ s, exec (.fresume x) s = issue (longForm Shape.fresume false x) true body s := by
  simp only [exec_fresume, execFresume, issueP]; exact ⟨_, fun _ => rfl⟩
theorem body_fresumeValue (x : Long) : ∃ body, ∀ s, exec (.fresumeValue x) s = issue (longForm Shape.fresumeValue false x) true body s := by
  simp only [exec_fresumeValue, execFresumeValue, issueP]; exact ⟨_, fun _ => rfl⟩
theorem body_fkill (x : Long) : ∃ body, ∀ s, exec (.fkill x) s = issue (longForm Shape.fkill false x) true body s := by
  simp only [exec_fkill, execFkill, issueP]; exact ⟨_, fun _ => rfl⟩
theorem body_ld (x : Long) : ∃ body, ∀ s, exec (.ld x) s = issue (longForm Shape.ld true x) false body s := by
  simp only [exec_ld, execLd, issueM]; exact ⟨_, fun _ => rfl⟩
theorem body_ldN64L32B (x : ShortB) : ∃ body, ∀ s, exec (.ldN64L32B x) s = issue (shortBForm Shape.ldN64L32B x) false body s := by
  simp only [exec_ldN64L32B, execLdN64L32B, issueB]; exact ⟨_, fun _ => rfl⟩
theorem body_ldI32L32B (x : ShortB) : ∃ body, ∀ s, exec (.ldI32L32B x) s = issue (shortBForm Shape.ldI32L32B x) false body s := by
  simp only [exec_ldI32L32B, execLdI32L32B, issueB]; exact ⟨_, fun _ => rfl⟩
theorem body_ldN32L32B (x : ShortB) : ∃ body, ∀ s, exec (.ldN32L32B x) s = issue (shortBForm Shape.ldN32L32B x) false body s := by
  simp only [exec_ldN32L32B, execLdN32L32B, issueB]; exact ⟨_, fun _ => rfl⟩
theorem body_ldI16L32B (x : ShortB) : ∃ body, ∀ s, exec (.ldI16L32B x) s = issue (shortBForm Shape.ldI16L32B x) false body s := by
  simp only [exec_ldI16L32B, execLdI16L32B, issueB]; exact ⟨_, fun _ => rfl⟩
theorem body_ldN16L32B (x : ShortB) : ∃ body, ∀ s, exec (.ldN16L32B x) s = issue (shortBForm Shape.ldN16L32B x) false body s := by
  simp only [exec_ldN16L32B, execLdN16L32B, issueB]; exact ⟨_, fun _ => rfl⟩
theorem body_ldI8L32B (x : ShortB) : ∃ body, ∀ s, exec (.ldI8L32B x) s = issue (shortBForm Shape.ldI8L32B x) false body s := by
  simp only [exec_ldI8L32B, execLdI8L32B, issueB]; exact ⟨_, fun _ => rfl⟩
theorem body_ldN8L32B (x : ShortB) : ∃ body, ∀ s, exec (.ldN8L32B x) s = issue (shortBForm Shape.ldN8L32B x) false body s := by
  simp only [exec_ldN8L32B, execLdN8L32B, issueB]; exact ⟨_, fun _ => rfl⟩
theorem body_st (x : Long) : ∃ body, ∀ s, exec (.st x) s = issue (longForm Shape.st true x) false body s := by
  simp only [exec_st, execSt, issueM]; exact ⟨_, fun _ => rfl⟩
theorem body_stN64L32B (x : ShortB) : ∃ body, ∀ s, exec (.stN64L32B x) s = issue (shortBForm Shape.stN64L32B x) false body s := by
  simp only [exec_stN64L32B, execStN64L32B, issueB]; exact ⟨_, fun _ => rfl⟩
theorem body_stN32L32B (x : ShortB) : ∃ body, ∀ s, exec (.stN32L32B x) s = issue (shortBForm Shape.stN32L32B x) false body s := by
  simp only [exec_stN32L32B, execStN32L32B, issueB]; exact ⟨_, fun _ => rfl⟩
theorem body_stN16L32B (x : ShortB) : ∃ body, ∀ s, exec (.stN16L32B x) s = issue (shortBForm Shape.stN16L32B x) false body s := by
  simp only [exec_stN16L32B, execStN16L32B, issueB]; exact ⟨_, fun _ => rfl⟩
theorem body_stN8L32B (x : ShortB) : ∃ body, ∀ s, exec (.stN8L32B x) s = issue (shortBForm Shape.stN8L32B x) false body s := by
  simp only [exec_stN8L32B, execStN8L32B, issueB]; exact ⟨_, fun _ => rfl⟩
theorem body_lda (x : Long) : ∃ body, ∀ s, exec (.lda x) s = issue (longForm Shape.lda true x) false body s := by
  simp only [exec_lda, execLda, issueM]; exact ⟨_, fun _ => rfl⟩
theorem body_stl (x : Long) : ∃ body, ∀ s, exec (.stl x) s = issue (longForm Shape.stl true x) false body s := by
  simp only [exec_stl, execStl, issueM]; exact ⟨_, fun _ => rfl⟩
theorem body_pf (x : Long) : ∃ body, ∀ s, exec (.pf x) s = issue (longForm Shape.pf true x) false body s := by
  simp only [exec_pf, execPf, issueM]; exact ⟨_, fun _ => rfl⟩
theorem body_pfL32B (x : ShortB) : ∃ body, ∀ s, exec (.pfL32B x) s = issue (shortBForm Shape.pfL32B x) false body s := by
  simp only [exec_pfL32B, execPfL32B, issueB]; exact ⟨_, fun _ => rfl⟩
theorem body_aadd (x : Long) : ∃ body, ∀ s, exec (.aadd x) s = issue (longForm Shape.aadd true x) false body s := by
  simp only [exec_aadd, execAadd, issueM]; exact ⟨_, fun _ => rfl⟩
theorem body_amin (x : Long) : ∃ body, ∀ s, exec (.amin x) s = issue (longForm Shape.amin true x) false body s := by
  simp only [exec_amin, execAmin, issueM]; exact ⟨_, fun _ => rfl⟩
theorem body_amax (x : Long) : ∃ body, ∀ s, exec (.amax x) s = issue (longForm Shape.amax true x) false body s := by
  simp only [exec_amax, execAmax, issueM]; exact ⟨_, fun _ => rfl⟩
theorem body_aand (x : Long) : ∃ body, ∀ s, exec (.aand x) s = issue (longForm Shape.aand true x) false body s := by
  simp only [exec_aand, execAand, issueM]; exact ⟨_, fun _ => rfl⟩
theorem body_aor (x : Long) : ∃ body, ∀ s, exec (.aor x) s = issue (longForm Shape.aor true x) false body s := by
  simp only [exec_aor, execAor, issueM]; exact ⟨_, fun _ => rfl⟩
theorem body_axor (x : Long) : ∃ body, ∀ s, exec (.axor x) s = issue (longForm Shape.axor true x) false body s := by
  simp only [exec_axor, execAxor, issueM]; exact ⟨_, fun _ => rfl⟩
theorem body_aswp (x : Long) : ∃ body, ∀ s, exec (.aswp x) s = issue (longForm Shape.aswp true x) false body s := by
  simp only [exec_aswp, execAswp, issueM]; exact ⟨_, fun _ => rfl⟩
theorem body_acas (x : Long) : ∃ body, ∀ s, exec (.acas x) s = issue (longForm Shape.acas true x) false body s := by
  simp only [exec_acas, execAcas, issueM]; exact ⟨_, fun _ => rfl⟩
theorem body_aaddf (x : Long) : ∃ body, ∀ s, exec (.aaddf x) s = issue (longForm Shape.aaddf true x) false body s := by
  simp only [exec_aaddf, execAaddf, issueM]; exact ⟨_, fun _ => rfl⟩
theorem body_fence (x : Long) : ∃ body, ∀ s, exec (.fence x) s = issue (longForm Shape.fence true x) false body s := by
  simp only [exec_fence, execFence, issueM]; exact ⟨_, fun _ => rfl⟩
theorem body_ojoin (x : Long) : ∃ body, ∀ s, exec (.ojoin x) s = issue (longForm Shape.ojoin false x) false body s := by
  simp only [exec_ojoin, execOjoin, issueL]; exact ⟨_, fun _ => rfl⟩
theorem body_cpy (x : Long) : ∃ body, ∀ s, exec (.cpy x) s = issue (longForm Shape.cpy true x) false body s := by
  simp only [exec_cpy, execCpy, issueM]; exact ⟨_, fun _ => rfl⟩
theorem body_cpyHandle (x : Long) : ∃ body, ∀ s, exec (.cpyHandle x) s = issue (longForm Shape.cpyHandle true x) false body s := by
  simp only [exec_cpyHandle, execCpyHandle, issueM]; exact ⟨_, fun _ => rfl⟩
theorem body_cpy4 (x : Long) : ∃ body, ∀ s, exec (.cpy4 x) s = issue (longForm Shape.cpy4 true x) false body s := by
  simp only [exec_cpy4, execCpy4, issueM]; exact ⟨_, fun _ => rfl⟩
theorem body_cpyg (x : Long) : ∃ body, ∀ s, exec (.cpyg x) s = issue (longForm Shape.cpyg true x) false body s := by
  simp only [exec_cpyg, execCpyg, issueM]; exact ⟨_, fun _ => rfl⟩
theorem body_batch (x : Long) : ∃ body, ∀ s, exec (.batch x) s = issue (longForm Shape.batch false x) false body s := by
  simp only [exec_batch, execBatch, issueL]; exact ⟨_, fun _ => rfl⟩
theorem body_stcfg (x : Long) : ∃ body, ∀ s, exec (.stcfg x) s = issue (longForm Shape.stcfg false x) false body s := by
  simp only [exec_stcfg, execStcfg, issueL]; exact ⟨_, fun _ => rfl⟩
theorem body_sbufw (x : Long) : ∃ body, ∀ s, exec (.sbufw x) s = issue (longForm Shape.sbufw false x) false body s := by
  simp only [exec_sbufw, execSbufw, issueL]; exact ⟨_, fun _ => rfl⟩
theorem body_sbufset (x : Long) : ∃ body, ∀ s, exec (.sbufset x) s = issue (longForm Shape.sbufset false x) false body s := by
  simp only [exec_sbufset, execSbufset, issueL]; exact ⟨_, fun _ => rfl⟩
theorem body_splice (x : Long) : ∃ body, ∀ s, exec (.splice x) s = issue (longForm Shape.splice false x) true body s := by
  simp only [exec_splice, execSplice, issueP]; exact ⟨_, fun _ => rfl⟩
theorem body_drd (x : Long) : ∃ body, ∀ s, exec (.drd x) s = issue (longForm Shape.drd true x) false body s := by
  simp only [exec_drd, execDrd, issueM]; exact ⟨_, fun _ => rfl⟩
theorem body_dwr (x : Long) : ∃ body, ∀ s, exec (.dwr x) s = issue (longForm Shape.dwr true x) false body s := by
  simp only [exec_dwr, execDwr, issueM]; exact ⟨_, fun _ => rfl⟩
theorem body_dgath (x : Long) : ∃ body, ∀ s, exec (.dgath x) s = issue (longForm Shape.dgath true x) false body s := by
  simp only [exec_dgath, execDgath, issueM]; exact ⟨_, fun _ => rfl⟩
theorem body_flush (x : Long) : ∃ body, ∀ s, exec (.flush x) s = issue (longForm Shape.flush true x) false body s := by
  simp only [exec_flush, execFlush, issueM]; exact ⟨_, fun _ => rfl⟩
theorem body_rowopen (x : Long) : ∃ body, ∀ s, exec (.rowopen x) s = issue (longForm Shape.rowopen true x) false body s := by
  simp only [exec_rowopen, execRowopen, issueM]; exact ⟨_, fun _ => rfl⟩
theorem body_rowhold (x : Long) : ∃ body, ∀ s, exec (.rowhold x) s = issue (longForm Shape.rowhold true x) false body s := by
  simp only [exec_rowhold, execRowhold, issueM]; exact ⟨_, fun _ => rfl⟩
theorem body_rowrel (x : Long) : ∃ body, ∀ s, exec (.rowrel x) s = issue (longForm Shape.rowrel true x) false body s := by
  simp only [exec_rowrel, execRowrel, issueM]; exact ⟨_, fun _ => rfl⟩
theorem body_rowrd (x : Long) : ∃ body, ∀ s, exec (.rowrd x) s = issue (longForm Shape.rowrd true x) false body s := by
  simp only [exec_rowrd, execRowrd, issueM]; exact ⟨_, fun _ => rfl⟩
theorem body_rowrdv (x : Long) : ∃ body, ∀ s, exec (.rowrdv x) s = issue (longForm Shape.rowrdv true x) false body s := by
  simp only [exec_rowrdv, execRowrdv, issueM]; exact ⟨_, fun _ => rfl⟩
theorem body_rowwr (x : Long) : ∃ body, ∀ s, exec (.rowwr x) s = issue (longForm Shape.rowwr true x) false body s := by
  simp only [exec_rowwr, execRowwr, issueM]; exact ⟨_, fun _ => rfl⟩
theorem body_rowstat (x : Long) : ∃ body, ∀ s, exec (.rowstat x) s = issue (longForm Shape.rowstat true x) false body s := by
  simp only [exec_rowstat, execRowstat, issueM]; exact ⟨_, fun _ => rfl⟩
theorem body_scfg (x : Long) : ∃ body, ∀ s, exec (.scfg x) s = issue (longForm Shape.scfg false x) false body s := by
  simp only [exec_scfg, execScfg, issueL]; exact ⟨_, fun _ => rfl⟩
theorem body_sbind (x : Long) : ∃ body, ∀ s, exec (.sbind x) s = issue (longForm Shape.sbind true x) false body s := by
  simp only [exec_sbind, execSbind, issueM]; exact ⟨_, fun _ => rfl⟩
theorem body_sunbind (x : Long) : ∃ body, ∀ s, exec (.sunbind x) s = issue (longForm Shape.sunbind true x) false body s := by
  simp only [exec_sunbind, execSunbind, issueM]; exact ⟨_, fun _ => rfl⟩
theorem body_spredAttach (x : Long) : ∃ body, ∀ s, exec (.spredAttach x) s = issue (longForm Shape.spredAttach false x) false body s := by
  simp only [exec_spredAttach, execSpredAttach, issueL]; exact ⟨_, fun _ => rfl⟩
theorem body_spredRead (x : Long) : ∃ body, ∀ s, exec (.spredRead x) s = issue (longForm Shape.spredRead false x) false body s := by
  simp only [exec_spredRead, execSpredRead, issueL]; exact ⟨_, fun _ => rfl⟩
theorem body_spos (x : Long) : ∃ body, ∀ s, exec (.spos x) s = issue (longForm Shape.spos false x) false body s := by
  simp only [exec_spos, execSpos, issueL]; exact ⟨_, fun _ => rfl⟩
theorem body_vld (x : Long) : ∃ body, ∀ s, exec (.vld x) s = issue (longForm Shape.vld true x) false body s := by
  simp only [exec_vld, execVld, issueM]; exact ⟨_, fun _ => rfl⟩
theorem body_vldL32B (x : ShortB) : ∃ body, ∀ s, exec (.vldL32B x) s = issue (shortBForm Shape.vldL32B x) false body s := by
  simp only [exec_vldL32B, execVldL32B, issueB]; exact ⟨_, fun _ => rfl⟩
theorem body_vst (x : Long) : ∃ body, ∀ s, exec (.vst x) s = issue (longForm Shape.vst true x) false body s := by
  simp only [exec_vst, execVst, issueM]; exact ⟨_, fun _ => rfl⟩
theorem body_vstL32B (x : ShortB) : ∃ body, ∀ s, exec (.vstL32B x) s = issue (shortBForm Shape.vstL32B x) false body s := by
  simp only [exec_vstL32B, execVstL32B, issueB]; exact ⟨_, fun _ => rfl⟩
theorem body_vldg (x : Long) : ∃ body, ∀ s, exec (.vldg x) s = issue (longForm Shape.vldg true x) false body s := by
  simp only [exec_vldg, execVldg, issueM]; exact ⟨_, fun _ => rfl⟩
theorem body_vsts (x : Long) : ∃ body, ∀ s, exec (.vsts x) s = issue (longForm Shape.vsts true x) false body s := by
  simp only [exec_vsts, execVsts, issueM]; exact ⟨_, fun _ => rfl⟩
theorem body_vbcast (x : Long) : ∃ body, ∀ s, exec (.vbcast x) s = issue (longForm Shape.vbcast false x) false body s := by
  simp only [exec_vbcast, execVbcast, issueL]; exact ⟨_, fun _ => rfl⟩
theorem body_vmov (x : Long) : ∃ body, ∀ s, exec (.vmov x) s = issue (longForm Shape.vmov false x) false body s := by
  simp only [exec_vmov, execVmov, issueL]; exact ⟨_, fun _ => rfl⟩
theorem body_vmovmExtract (x : Long) : ∃ body, ∀ s, exec (.vmovmExtract x) s = issue (longForm Shape.vmovmExtract false x) false body s := by
  simp only [exec_vmovmExtract, execVmovmExtract, issueL]; exact ⟨_, fun _ => rfl⟩
theorem body_vmovmInsert (x : Long) : ∃ body, ∀ s, exec (.vmovmInsert x) s = issue (longForm Shape.vmovmInsert false x) false body s := by
  simp only [exec_vmovmInsert, execVmovmInsert, issueL]; exact ⟨_, fun _ => rfl⟩
theorem body_vperm (x : Long) : ∃ body, ∀ s, exec (.vperm x) s = issue (longForm Shape.vperm false x) false body s := by
  simp only [exec_vperm, execVperm, issueL]; exact ⟨_, fun _ => rfl⟩
theorem body_vslide (x : Long) : ∃ body, ∀ s, exec (.vslide x) s = issue (longForm Shape.vslide false x) false body s := by
  simp only [exec_vslide, execVslide, issueL]; exact ⟨_, fun _ => rfl⟩
theorem body_vadd (x : Long) : ∃ body, ∀ s, exec (.vadd x) s = issue (longForm Shape.vadd false x) false body s := by
  simp only [exec_vadd, execVadd, issueL]; exact ⟨_, fun _ => rfl⟩
theorem body_vsub (x : Long) : ∃ body, ∀ s, exec (.vsub x) s = issue (longForm Shape.vsub false x) false body s := by
  simp only [exec_vsub, execVsub, issueL]; exact ⟨_, fun _ => rfl⟩
theorem body_vmul (x : Long) : ∃ body, ∀ s, exec (.vmul x) s = issue (longForm Shape.vmul false x) false body s := by
  simp only [exec_vmul, execVmul, issueL]; exact ⟨_, fun _ => rfl⟩
theorem body_vfma (x : Long) : ∃ body, ∀ s, exec (.vfma x) s = issue (longForm Shape.vfma false x) false body s := by
  simp only [exec_vfma, execVfma, issueL]; exact ⟨_, fun _ => rfl⟩
theorem body_vmin (x : Long) : ∃ body, ∀ s, exec (.vmin x) s = issue (longForm Shape.vmin false x) false body s := by
  simp only [exec_vmin, execVmin, issueL]; exact ⟨_, fun _ => rfl⟩
theorem body_vmax (x : Long) : ∃ body, ∀ s, exec (.vmax x) s = issue (longForm Shape.vmax false x) false body s := by
  simp only [exec_vmax, execVmax, issueL]; exact ⟨_, fun _ => rfl⟩
theorem body_vabs (x : Long) : ∃ body, ∀ s, exec (.vabs x) s = issue (longForm Shape.vabs false x) false body s := by
  simp only [exec_vabs, execVabs, issueL]; exact ⟨_, fun _ => rfl⟩
theorem body_vneg (x : Long) : ∃ body, ∀ s, exec (.vneg x) s = issue (longForm Shape.vneg false x) false body s := by
  simp only [exec_vneg, execVneg, issueL]; exact ⟨_, fun _ => rfl⟩
theorem body_vdiv (x : Long) : ∃ body, ∀ s, exec (.vdiv x) s = issue (longForm Shape.vdiv false x) false body s := by
  simp only [exec_vdiv, execVdiv, issueL]; exact ⟨_, fun _ => rfl⟩
theorem body_vsqrt (x : Long) : ∃ body, ∀ s, exec (.vsqrt x) s = issue (longForm Shape.vsqrt false x) false body s := by
  simp only [exec_vsqrt, execVsqrt, issueL]; exact ⟨_, fun _ => rfl⟩
theorem body_vrcp (x : Long) : ∃ body, ∀ s, exec (.vrcp x) s = issue (longForm Shape.vrcp false x) false body s := by
  simp only [exec_vrcp, execVrcp, issueL]; exact ⟨_, fun _ => rfl⟩
theorem body_vrsqrt (x : Long) : ∃ body, ∀ s, exec (.vrsqrt x) s = issue (longForm Shape.vrsqrt false x) false body s := by
  simp only [exec_vrsqrt, execVrsqrt, issueL]; exact ⟨_, fun _ => rfl⟩
theorem body_vexp2 (x : Long) : ∃ body, ∀ s, exec (.vexp2 x) s = issue (longForm Shape.vexp2 false x) false body s := by
  simp only [exec_vexp2, execVexp2, issueL]; exact ⟨_, fun _ => rfl⟩
theorem body_vlog2 (x : Long) : ∃ body, ∀ s, exec (.vlog2 x) s = issue (longForm Shape.vlog2 false x) false body s := by
  simp only [exec_vlog2, execVlog2, issueL]; exact ⟨_, fun _ => rfl⟩
theorem body_vsin (x : Long) : ∃ body, ∀ s, exec (.vsin x) s = issue (longForm Shape.vsin false x) false body s := by
  simp only [exec_vsin, execVsin, issueL]; exact ⟨_, fun _ => rfl⟩
theorem body_vcos (x : Long) : ∃ body, ∀ s, exec (.vcos x) s = issue (longForm Shape.vcos false x) false body s := by
  simp only [exec_vcos, execVcos, issueL]; exact ⟨_, fun _ => rfl⟩
theorem body_vtanh (x : Long) : ∃ body, ∀ s, exec (.vtanh x) s = issue (longForm Shape.vtanh false x) false body s := by
  simp only [exec_vtanh, execVtanh, issueL]; exact ⟨_, fun _ => rfl⟩
theorem body_vand (x : Long) : ∃ body, ∀ s, exec (.vand x) s = issue (longForm Shape.vand false x) false body s := by
  simp only [exec_vand, execVand, issueL]; exact ⟨_, fun _ => rfl⟩
theorem body_vor (x : Long) : ∃ body, ∀ s, exec (.vor x) s = issue (longForm Shape.vor false x) false body s := by
  simp only [exec_vor, execVor, issueL]; exact ⟨_, fun _ => rfl⟩
theorem body_vxor (x : Long) : ∃ body, ∀ s, exec (.vxor x) s = issue (longForm Shape.vxor false x) false body s := by
  simp only [exec_vxor, execVxor, issueL]; exact ⟨_, fun _ => rfl⟩
theorem body_vshl (x : Long) : ∃ body, ∀ s, exec (.vshl x) s = issue (longForm Shape.vshl false x) false body s := by
  simp only [exec_vshl, execVshl, issueL]; exact ⟨_, fun _ => rfl⟩
theorem body_vshr (x : Long) : ∃ body, ∀ s, exec (.vshr x) s = issue (longForm Shape.vshr false x) false body s := by
  simp only [exec_vshr, execVshr, issueL]; exact ⟨_, fun _ => rfl⟩
theorem body_vsha (x : Long) : ∃ body, ∀ s, exec (.vsha x) s = issue (longForm Shape.vsha false x) false body s := by
  simp only [exec_vsha, execVsha, issueL]; exact ⟨_, fun _ => rfl⟩
theorem body_vcmp (x : Long) : ∃ body, ∀ s, exec (.vcmp x) s = issue (longForm Shape.vcmp false x) false body s := by
  simp only [exec_vcmp, execVcmp, issueL]; exact ⟨_, fun _ => rfl⟩
theorem body_vsel (x : Long) : ∃ body, ∀ s, exec (.vsel x) s = issue (longForm Shape.vsel false x) false body s := by
  simp only [exec_vsel, execVsel, issueL]; exact ⟨_, fun _ => rfl⟩
theorem body_vcvt (x : Long) : ∃ body, ∀ s, exec (.vcvt x) s = issue (longForm Shape.vcvt false x) false body s := by
  simp only [exec_vcvt, execVcvt, issueL]; exact ⟨_, fun _ => rfl⟩
theorem body_vpack (x : Long) : ∃ body, ∀ s, exec (.vpack x) s = issue (longForm Shape.vpack false x) false body s := by
  simp only [exec_vpack, execVpack, issueL]; exact ⟨_, fun _ => rfl⟩
theorem body_vunpack (x : Long) : ∃ body, ∀ s, exec (.vunpack x) s = issue (longForm Shape.vunpack false x) false body s := by
  simp only [exec_vunpack, execVunpack, issueL]; exact ⟨_, fun _ => rfl⟩
theorem body_vred (x : Long) : ∃ body, ∀ s, exec (.vred x) s = issue (longForm Shape.vred false x) false body s := by
  simp only [exec_vred, execVred, issueL]; exact ⟨_, fun _ => rfl⟩
theorem body_vscan (x : Long) : ∃ body, ∀ s, exec (.vscan x) s = issue (longForm Shape.vscan false x) false body s := by
  simp only [exec_vscan, execVscan, issueL]; exact ⟨_, fun _ => rfl⟩
theorem body_vdot (x : Long) : ∃ body, ∀ s, exec (.vdot x) s = issue (longForm Shape.vdot false x) false body s := by
  simp only [exec_vdot, execVdot, issueL]; exact ⟨_, fun _ => rfl⟩
theorem body_mzero (x : Long) : ∃ body, ∀ s, exec (.mzero x) s = relayed s (issue (longForm Shape.mzero false x) false body s) := by
  simp only [exec_mzero, execMzero, issueL]; exact ⟨_, fun _ => rfl⟩
theorem body_mma (x : Long) : ∃ body, ∀ s, exec (.mma x) s = relayed s (issue (longForm Shape.mma true x) false body s) := by
  simp only [exec_mma, execMma, issueM]; exact ⟨_, fun _ => rfl⟩
theorem body_mmaq (x : Long) : ∃ body, ∀ s, exec (.mmaq x) s = relayed s (issue (longForm Shape.mmaq true x) false body s) := by
  simp only [exec_mmaq, execMmaq, issueM]; exact ⟨_, fun _ => rfl⟩
theorem body_mmad (x : Long) : ∃ body, ∀ s, exec (.mmad x) s = relayed s (issue (longForm Shape.mmad true x) false body s) := by
  simp only [exec_mmad, execMmad, issueM]; exact ⟨_, fun _ => rfl⟩
theorem body_mread (x : Long) : ∃ body, ∀ s, exec (.mread x) s = relayed s (issue (longForm Shape.mread true x) false body s) := by
  simp only [exec_mread, execMread, issueM]; exact ⟨_, fun _ => rfl⟩
theorem body_mreadk (x : Long) : ∃ body, ∀ s, exec (.mreadk x) s = relayed s (issue (longForm Shape.mreadk false x) false body s) := by
  simp only [exec_mreadk, execMreadk, issueL]; exact ⟨_, fun _ => rfl⟩
theorem body_macc (x : Long) : ∃ body, ∀ s, exec (.macc x) s = relayed s (issue (longForm Shape.macc false x) false body s) := by
  simp only [exec_macc, execMacc, issueL]; exact ⟨_, fun _ => rfl⟩
theorem body_maccMov (x : Long) : ∃ body, ∀ s, exec (.maccMov x) s = relayed s (issue (longForm Shape.maccMov false x) false body s) := by
  simp only [exec_maccMov, execMaccMov, issueL]; exact ⟨_, fun _ => rfl⟩
theorem body_mstat (x : Long) : ∃ body, ∀ s, exec (.mstat x) s = relayed s (issue (longForm Shape.mstat false x) false body s) := by
  simp only [exec_mstat, execMstat, issueL]; exact ⟨_, fun _ => rfl⟩
theorem body_mmode (x : Long) : ∃ body, ∀ s, exec (.mmode x) s = relayed s (issue (longForm Shape.mmode false x) false body s) := by
  simp only [exec_mmode, execMmode, issueL]; exact ⟨_, fun _ => rfl⟩
theorem body_rjoin (x : Long) : ∃ body, ∀ s, exec (.rjoin x) s = issue (longForm Shape.rjoin false x) false body s := by
  simp only [exec_rjoin, execRjoin, issueL]; exact ⟨_, fun _ => rfl⟩
theorem body_rleave (x : Long) : ∃ body, ∀ s, exec (.rleave x) s = issue (longForm Shape.rleave false x) false body s := by
  simp only [exec_rleave, execRleave, issueL]; exact ⟨_, fun _ => rfl⟩
theorem body_rmset (x : Long) : ∃ body, ∀ s, exec (.rmset x) s = issue (longForm Shape.rmset false x) false body s := by
  simp only [exec_rmset, execRmset, issueL]; exact ⟨_, fun _ => rfl⟩
theorem body_rmclr (x : Long) : ∃ body, ∀ s, exec (.rmclr x) s = issue (longForm Shape.rmclr false x) false body s := by
  simp only [exec_rmclr, execRmclr, issueL]; exact ⟨_, fun _ => rfl⟩
theorem body_rmclrAll (x : Long) : ∃ body, ∀ s, exec (.rmclrAll x) s = issue (longForm Shape.rmclrAll false x) false body s := by
  simp only [exec_rmclrAll, execRmclrAll, issueL]; exact ⟨_, fun _ => rfl⟩
theorem body_rinj (x : Long) : ∃ body, ∀ s, exec (.rinj x) s = issue (longForm Shape.rinj true x) false body s := by
  simp only [exec_rinj, execRinj, issueM]; exact ⟨_, fun _ => rfl⟩
theorem body_rdrain (x : Long) : ∃ body, ∀ s, exec (.rdrain x) s = issue (longForm Shape.rdrain false x) false body s := by
  simp only [exec_rdrain, execRdrain, issueL]; exact ⟨_, fun _ => rfl⟩
theorem body_rstat (x : Long) : ∃ body, ∀ s, exec (.rstat x) s = issue (longForm Shape.rstat false x) false body s := by
  simp only [exec_rstat, execRstat, issueL]; exact ⟨_, fun _ => rfl⟩
theorem body_relight (x : Long) : ∃ body, ∀ s, exec (.relight x) s = issue (longForm Shape.relight false x) false body s := by
  simp only [exec_relight, execRelight, issueL]; exact ⟨_, fun _ => rfl⟩
/-- Every instruction with an encoding runs a body behind the checks of its form; a matrix instruction tells its gang of a fault besides. -/
theorem exec_issued (i : Instr) (f : Form) (h : formOf i = some f) :
    (∃ body, ∀ s, exec i s = issue f (privileged i) body s) ∨ (∃ body, ∀ s, exec i s = relayed s (issue f (privileged i) body s)) := by
  cases i with
  | add x => exact Option.some.inj h ▸ .inl (body_add x)
  | addL32A x => exact Option.some.inj h ▸ .inl (body_addL32A x)
  | addI64L32B x => exact Option.some.inj h ▸ .inl (body_addI64L32B x)
  | addI32L32B x => exact Option.some.inj h ▸ .inl (body_addI32L32B x)
  | addc x => exact Option.some.inj h ▸ .inl (body_addc x)
  | addcL32A x => exact Option.some.inj h ▸ .inl (body_addcL32A x)
  | sub x => exact Option.some.inj h ▸ .inl (body_sub x)
  | subL32A x => exact Option.some.inj h ▸ .inl (body_subL32A x)
  | subb x => exact Option.some.inj h ▸ .inl (body_subb x)
  | subbL32A x => exact Option.some.inj h ▸ .inl (body_subbL32A x)
  | mul x => exact Option.some.inj h ▸ .inl (body_mul x)
  | mulL32A x => exact Option.some.inj h ▸ .inl (body_mulL32A x)
  | mulI64L32B x => exact Option.some.inj h ▸ .inl (body_mulI64L32B x)
  | mulI32L32B x => exact Option.some.inj h ▸ .inl (body_mulI32L32B x)
  | mulh x => exact Option.some.inj h ▸ .inl (body_mulh x)
  | mulhL32A x => exact Option.some.inj h ▸ .inl (body_mulhL32A x)
  | mulhn x => exact Option.some.inj h ▸ .inl (body_mulhn x)
  | mulhnL32A x => exact Option.some.inj h ▸ .inl (body_mulhnL32A x)
  | div x => exact Option.some.inj h ▸ .inl (body_div x)
  | divL32A x => exact Option.some.inj h ▸ .inl (body_divL32A x)
  | divn x => exact Option.some.inj h ▸ .inl (body_divn x)
  | divnL32A x => exact Option.some.inj h ▸ .inl (body_divnL32A x)
  | rem x => exact Option.some.inj h ▸ .inl (body_rem x)
  | remL32A x => exact Option.some.inj h ▸ .inl (body_remL32A x)
  | remn x => exact Option.some.inj h ▸ .inl (body_remn x)
  | remnL32A x => exact Option.some.inj h ▸ .inl (body_remnL32A x)
  | and x => exact Option.some.inj h ▸ .inl (body_and x)
  | andL32A x => exact Option.some.inj h ▸ .inl (body_andL32A x)
  | andN64L32B x => exact Option.some.inj h ▸ .inl (body_andN64L32B x)
  | andn x => exact Option.some.inj h ▸ .inl (body_andn x)
  | andnL32A x => exact Option.some.inj h ▸ .inl (body_andnL32A x)
  | andnN64L32B x => exact Option.some.inj h ▸ .inl (body_andnN64L32B x)
  | or x => exact Option.some.inj h ▸ .inl (body_or x)
  | orL32A x => exact Option.some.inj h ▸ .inl (body_orL32A x)
  | orN64L32B x => exact Option.some.inj h ▸ .inl (body_orN64L32B x)
  | xor x => exact Option.some.inj h ▸ .inl (body_xor x)
  | xorL32A x => exact Option.some.inj h ▸ .inl (body_xorL32A x)
  | xorN64L32B x => exact Option.some.inj h ▸ .inl (body_xorN64L32B x)
  | shl x => exact Option.some.inj h ▸ .inl (body_shl x)
  | shlL32A x => exact Option.some.inj h ▸ .inl (body_shlL32A x)
  | shlN64L32B x => exact Option.some.inj h ▸ .inl (body_shlN64L32B x)
  | shr x => exact Option.some.inj h ▸ .inl (body_shr x)
  | shrL32A x => exact Option.some.inj h ▸ .inl (body_shrL32A x)
  | shrN64L32B x => exact Option.some.inj h ▸ .inl (body_shrN64L32B x)
  | sha x => exact Option.some.inj h ▸ .inl (body_sha x)
  | shaL32A x => exact Option.some.inj h ▸ .inl (body_shaL32A x)
  | shaI64L32B x => exact Option.some.inj h ▸ .inl (body_shaI64L32B x)
  | rol x => exact Option.some.inj h ▸ .inl (body_rol x)
  | rolL32A x => exact Option.some.inj h ▸ .inl (body_rolL32A x)
  | rotr x => exact Option.some.inj h ▸ .inl (body_rotr x)
  | rotrL32A x => exact Option.some.inj h ▸ .inl (body_rotrL32A x)
  | rotrN64L32B x => exact Option.some.inj h ▸ .inl (body_rotrN64L32B x)
  | clz x => exact Option.some.inj h ▸ .inl (body_clz x)
  | clzL32A x => exact Option.some.inj h ▸ .inl (body_clzL32A x)
  | ctz x => exact Option.some.inj h ▸ .inl (body_ctz x)
  | ctzL32A x => exact Option.some.inj h ▸ .inl (body_ctzL32A x)
  | popc x => exact Option.some.inj h ▸ .inl (body_popc x)
  | popcL32A x => exact Option.some.inj h ▸ .inl (body_popcL32A x)
  | brev x => exact Option.some.inj h ▸ .inl (body_brev x)
  | brevL32A x => exact Option.some.inj h ▸ .inl (body_brevL32A x)
  | bswap x => exact Option.some.inj h ▸ .inl (body_bswap x)
  | bswapL32A x => exact Option.some.inj h ▸ .inl (body_bswapL32A x)
  | min x => exact Option.some.inj h ▸ .inl (body_min x)
  | minL32A x => exact Option.some.inj h ▸ .inl (body_minL32A x)
  | minI64L32B x => exact Option.some.inj h ▸ .inl (body_minI64L32B x)
  | max x => exact Option.some.inj h ▸ .inl (body_max x)
  | maxL32A x => exact Option.some.inj h ▸ .inl (body_maxL32A x)
  | maxI64L32B x => exact Option.some.inj h ▸ .inl (body_maxI64L32B x)
  | minn x => exact Option.some.inj h ▸ .inl (body_minn x)
  | minnL32A x => exact Option.some.inj h ▸ .inl (body_minnL32A x)
  | minnN64L32B x => exact Option.some.inj h ▸ .inl (body_minnN64L32B x)
  | maxn x => exact Option.some.inj h ▸ .inl (body_maxn x)
  | maxnL32A x => exact Option.some.inj h ▸ .inl (body_maxnL32A x)
  | maxnN64L32B x => exact Option.some.inj h ▸ .inl (body_maxnN64L32B x)
  | abs x => exact Option.some.inj h ▸ .inl (body_abs x)
  | absL32A x => exact Option.some.inj h ▸ .inl (body_absL32A x)
  | bfx x => exact Option.some.inj h ▸ .inl (body_bfx x)
  | bfxN64L32B x => exact Option.some.inj h ▸ .inl (body_bfxN64L32B x)
  | bfxI64L32B x => exact Option.some.inj h ▸ .inl (body_bfxI64L32B x)
  | bfi x => exact Option.some.inj h ▸ .inl (body_bfi x)
  | sel x => exact Option.some.inj h ▸ .inl (body_sel x)
  | cmp x => exact Option.some.inj h ▸ .inl (body_cmp x)
  | cmpEqI64L32B x => exact Option.some.inj h ▸ .inl (body_cmpEqI64L32B x)
  | cmpNeI64L32B x => exact Option.some.inj h ▸ .inl (body_cmpNeI64L32B x)
  | cmpLtI64L32B x => exact Option.some.inj h ▸ .inl (body_cmpLtI64L32B x)
  | cmpLeI64L32B x => exact Option.some.inj h ▸ .inl (body_cmpLeI64L32B x)
  | cmpGtI64L32B x => exact Option.some.inj h ▸ .inl (body_cmpGtI64L32B x)
  | cmpGeI64L32B x => exact Option.some.inj h ▸ .inl (body_cmpGeI64L32B x)
  | cmpLtN64L32B x => exact Option.some.inj h ▸ .inl (body_cmpLtN64L32B x)
  | cmpLeN64L32B x => exact Option.some.inj h ▸ .inl (body_cmpLeN64L32B x)
  | cmpGtN64L32B x => exact Option.some.inj h ▸ .inl (body_cmpGtN64L32B x)
  | cmpGeN64L32B x => exact Option.some.inj h ▸ .inl (body_cmpGeN64L32B x)
  | mov x => exact Option.some.inj h ▸ .inl (body_mov x)
  | movL32A x => exact Option.some.inj h ▸ .inl (body_movL32A x)
  | movRelSrcL32B x => exact Option.some.inj h ▸ .inl (body_movRelSrcL32B x)
  | movRelDstL32B x => exact Option.some.inj h ▸ .inl (body_movRelDstL32B x)
  | li x => exact Option.some.inj h ▸ .inl (body_li x)
  | liI64L32B x => exact Option.some.inj h ▸ .inl (body_liI64L32B x)
  | lih x => exact Option.some.inj h ▸ .inl (body_lih x)
  | lihL32B x => exact Option.some.inj h ▸ .inl (body_lihL32B x)
  | fadd x => exact Option.some.inj h ▸ .inl (body_fadd x)
  | faddL32A x => exact Option.some.inj h ▸ .inl (body_faddL32A x)
  | fsub x => exact Option.some.inj h ▸ .inl (body_fsub x)
  | fsubL32A x => exact Option.some.inj h ▸ .inl (body_fsubL32A x)
  | fmul x => exact Option.some.inj h ▸ .inl (body_fmul x)
  | fmulL32A x => exact Option.some.inj h ▸ .inl (body_fmulL32A x)
  | ffma x => exact Option.some.inj h ▸ .inl (body_ffma x)
  | ffms x => exact Option.some.inj h ▸ .inl (body_ffms x)
  | fdiv x => exact Option.some.inj h ▸ .inl (body_fdiv x)
  | fdivL32A x => exact Option.some.inj h ▸ .inl (body_fdivL32A x)
  | fsqrt x => exact Option.some.inj h ▸ .inl (body_fsqrt x)
  | fsqrtL32A x => exact Option.some.inj h ▸ .inl (body_fsqrtL32A x)
  | fmin x => exact Option.some.inj h ▸ .inl (body_fmin x)
  | fminL32A x => exact Option.some.inj h ▸ .inl (body_fminL32A x)
  | fmax x => exact Option.some.inj h ▸ .inl (body_fmax x)
  | fmaxL32A x => exact Option.some.inj h ▸ .inl (body_fmaxL32A x)
  | fabs x => exact Option.some.inj h ▸ .inl (body_fabs x)
  | fabsL32A x => exact Option.some.inj h ▸ .inl (body_fabsL32A x)
  | fneg x => exact Option.some.inj h ▸ .inl (body_fneg x)
  | fnegL32A x => exact Option.some.inj h ▸ .inl (body_fnegL32A x)
  | fcpys x => exact Option.some.inj h ▸ .inl (body_fcpys x)
  | fcpysL32A x => exact Option.some.inj h ▸ .inl (body_fcpysL32A x)
  | fcmp x => exact Option.some.inj h ▸ .inl (body_fcmp x)
  | fclass x => exact Option.some.inj h ▸ .inl (body_fclass x)
  | fclassL32A x => exact Option.some.inj h ▸ .inl (body_fclassL32A x)
  | fcvt x => exact Option.some.inj h ▸ .inl (body_fcvt x)
  | fcvti x => exact Option.some.inj h ▸ .inl (body_fcvti x)
  | icvtf x => exact Option.some.inj h ▸ .inl (body_icvtf x)
  | frnd x => exact Option.some.inj h ▸ .inl (body_frnd x)
  | frndL32A x => exact Option.some.inj h ▸ .inl (body_frndL32A x)
  | br x => exact Option.some.inj h ▸ .inl (body_br x)
  | brL32B x => exact Option.some.inj h ▸ .inl (body_brL32B x)
  | brNotL32B x => exact Option.some.inj h ▸ .inl (body_brNotL32B x)
  | jmp x => exact Option.some.inj h ▸ .inl (body_jmp x)
  | jmpL32A x => exact Option.some.inj h ▸ .inl (body_jmpL32A x)
  | jmpi x => exact Option.some.inj h ▸ .inl (body_jmpi x)
  | jmpiL32A x => exact Option.some.inj h ▸ .inl (body_jmpiL32A x)
  | call x => exact Option.some.inj h ▸ .inl (body_call x)
  | callL32B x => exact Option.some.inj h ▸ .inl (body_callL32B x)
  | calli x => exact Option.some.inj h ▸ .inl (body_calli x)
  | calliL32A x => exact Option.some.inj h ▸ .inl (body_calliL32A x)
  | ret x => exact Option.some.inj h ▸ .inl (body_ret x)
  | retL32A x => exact Option.some.inj h ▸ .inl (body_retL32A x)
  | loops x => exact Option.some.inj h ▸ .inl (body_loops x)
  | endI x => exact Option.some.inj h ▸ .inl (body_endI x)
  | endL32A x => exact Option.some.inj h ▸ .inl (body_endL32A x)
  | nop x => exact Option.some.inj h ▸ .inl (body_nop x)
  | nopL32A x => exact Option.some.inj h ▸ .inl (body_nopL32A x)
  | gang x => exact Option.some.inj h ▸ .inl (body_gang x)
  | ungang x => exact Option.some.inj h ▸ .inl (body_ungang x)
  | ungangL32A x => exact Option.some.inj h ▸ .inl (body_ungangL32A x)
  | rejoin x => exact Option.some.inj h ▸ .inl (body_rejoin x)
  | rejoinL32A x => exact Option.some.inj h ▸ .inl (body_rejoinL32A x)
  | pand x => exact Option.some.inj h ▸ .inl (body_pand x)
  | pandL32A x => exact Option.some.inj h ▸ .inl (body_pandL32A x)
  | por x => exact Option.some.inj h ▸ .inl (body_por x)
  | porL32A x => exact Option.some.inj h ▸ .inl (body_porL32A x)
  | pxor x => exact Option.some.inj h ▸ .inl (body_pxor x)
  | pxorL32A x => exact Option.some.inj h ▸ .inl (body_pxorL32A x)
  | pnot x => exact Option.some.inj h ▸ .inl (body_pnot x)
  | pnotL32A x => exact Option.some.inj h ▸ .inl (body_pnotL32A x)
  | pmov x => exact Option.some.inj h ▸ .inl (body_pmov x)
  | pmovL32A x => exact Option.some.inj h ▸ .inl (body_pmovL32A x)
  | pmovFromG x => exact Option.some.inj h ▸ .inl (body_pmovFromG x)
  | pmovFromGL32A x => exact Option.some.inj h ▸ .inl (body_pmovFromGL32A x)
  | pmovToG x => exact Option.some.inj h ▸ .inl (body_pmovToG x)
  | pmovToGL32A x => exact Option.some.inj h ▸ .inl (body_pmovToGL32A x)
  | pcnt x => exact Option.some.inj h ▸ .inl (body_pcnt x)
  | pcntL32A x => exact Option.some.inj h ▸ .inl (body_pcntL32A x)
  | qinc x => exact Option.some.inj h ▸ .inl (body_qinc x)
  | qincL32A x => exact Option.some.inj h ▸ .inl (body_qincL32A x)
  | qadd x => exact Option.some.inj h ▸ .inl (body_qadd x)
  | qaddL32B x => exact Option.some.inj h ▸ .inl (body_qaddL32B x)
  | qrd x => exact Option.some.inj h ▸ .inl (body_qrd x)
  | qpost x => exact Option.some.inj h ▸ .inl (body_qpost x)
  | waitq x => exact Option.some.inj h ▸ .inl (body_waitq x)
  | waitb x => exact Option.some.inj h ▸ .inl (body_waitb x)
  | waitvis x => exact Option.some.inj h ▸ .inl (body_waitvis x)
  | succhint x => exact Option.some.inj h ▸ .inl (body_succhint x)
  | succhintL32A x => exact Option.some.inj h ▸ .inl (body_succhintL32A x)
  | hwaitf x => exact Option.some.inj h ▸ .inl (body_hwaitf x)
  | hwaitfL32B x => exact Option.some.inj h ▸ .inl (body_hwaitfL32B x)
  | hwaite x => exact Option.some.inj h ▸ .inl (body_hwaite x)
  | hwaiteL32B x => exact Option.some.inj h ▸ .inl (body_hwaiteL32B x)
  | hld x => exact Option.some.inj h ▸ .inl (body_hld x)
  | hst x => exact Option.some.inj h ▸ .inl (body_hst x)
  | hadvc x => exact Option.some.inj h ▸ .inl (body_hadvc x)
  | hadvcL32B x => exact Option.some.inj h ▸ .inl (body_hadvcL32B x)
  | hadvp x => exact Option.some.inj h ▸ .inl (body_hadvp x)
  | hadvpL32B x => exact Option.some.inj h ▸ .inl (body_hadvpL32B x)
  | heos x => exact Option.some.inj h ▸ .inl (body_heos x)
  | hstat x => exact Option.some.inj h ▸ .inl (body_hstat x)
  | hstatL32A x => exact Option.some.inj h ▸ .inl (body_hstatL32A x)
  | send x => exact Option.some.inj h ▸ .inl (body_send x)
  | sendq x => exact Option.some.inj h ▸ .inl (body_sendq x)
  | cred x => exact Option.some.inj h ▸ .inl (body_cred x)
  | cderive x => exact Option.some.inj h ▸ .inl (body_cderive x)
  | cperm x => exact Option.some.inj h ▸ .inl (body_cperm x)
  | cseal x => exact Option.some.inj h ▸ .inl (body_cseal x)
  | csealL32A x => exact Option.some.inj h ▸ .inl (body_csealL32A x)
  | cunseal x => exact Option.some.inj h ▸ .inl (body_cunseal x)
  | cunsealL32A x => exact Option.some.inj h ▸ .inl (body_cunsealL32A x)
  | cbase x => exact Option.some.inj h ▸ .inl (body_cbase x)
  | cbaseL32A x => exact Option.some.inj h ▸ .inl (body_cbaseL32A x)
  | clen x => exact Option.some.inj h ▸ .inl (body_clen x)
  | clenL32A x => exact Option.some.inj h ▸ .inl (body_clenL32A x)
  | cperms x => exact Option.some.inj h ▸ .inl (body_cperms x)
  | cpermsL32A x => exact Option.some.inj h ▸ .inl (body_cpermsL32A x)
  | ctype x => exact Option.some.inj h ▸ .inl (body_ctype x)
  | ctypeL32A x => exact Option.some.inj h ▸ .inl (body_ctypeL32A x)
  | ctag x => exact Option.some.inj h ▸ .inl (body_ctag x)
  | ctagL32A x => exact Option.some.inj h ▸ .inl (body_ctagL32A x)
  | cclr x => exact Option.some.inj h ▸ .inl (body_cclr x)
  | cclrL32A x => exact Option.some.inj h ▸ .inl (body_cclrL32A x)
  | cmov x => exact Option.some.inj h ▸ .inl (body_cmov x)
  | cmovL32A x => exact Option.some.inj h ▸ .inl (body_cmovL32A x)
  | cldc x => exact Option.some.inj h ▸ .inl (body_cldc x)
  | cldcL32B x => exact Option.some.inj h ▸ .inl (body_cldcL32B x)
  | cstc x => exact Option.some.inj h ▸ .inl (body_cstc x)
  | cstcL32B x => exact Option.some.inj h ▸ .inl (body_cstcL32B x)
  | cchk x => exact Option.some.inj h ▸ .inl (body_cchk x)
  | trap x => exact Option.some.inj h ▸ .inl (body_trap x)
  | trapL32B x => exact Option.some.inj h ▸ .inl (body_trapL32B x)
  | wick x => exact Option.some.inj h ▸ .inl (body_wick x)
  | wickL32A x => exact Option.some.inj h ▸ .inl (body_wickL32A x)
  | wid x => exact Option.some.inj h ▸ .inl (body_wid x)
  | widL32B x => exact Option.some.inj h ▸ .inl (body_widL32B x)
  | who x => exact Option.some.inj h ▸ .inl (body_who x)
  | query x => exact Option.some.inj h ▸ .inl (body_query x)
  | queryL32A x => exact Option.some.inj h ▸ .inl (body_queryL32A x)
  | time x => exact Option.some.inj h ▸ .inl (body_time x)
  | timeL32A x => exact Option.some.inj h ▸ .inl (body_timeL32A x)
  | timeEnergy x => exact Option.some.inj h ▸ .inl (body_timeEnergy x)
  | timeEnergyL32A x => exact Option.some.inj h ▸ .inl (body_timeEnergyL32A x)
  | sysrd x => exact Option.some.inj h ▸ .inl (body_sysrd x)
  | syswr x => exact Option.some.inj h ▸ .inl (body_syswr x)
  | yield x => exact Option.some.inj h ▸ .inl (body_yield x)
  | yieldL32A x => exact Option.some.inj h ▸ .inl (body_yieldL32A x)
  | gate x => exact Option.some.inj h ▸ .inl (body_gate x)
  | snuff x => exact Option.some.inj h ▸ .inl (body_snuff x)
  | nameset x => exact Option.some.inj h ▸ .inl (body_nameset x)
  | leaseack x => exact Option.some.inj h ▸ .inl (body_leaseack x)
  | fresume x => exact Option.some.inj h ▸ .inl (body_fresume x)
  | fresumeValue x => exact Option.some.inj h ▸ .inl (body_fresumeValue x)
  | fkill x => exact Option.some.inj h ▸ .inl (body_fkill x)
  | ld x => exact Option.some.inj h ▸ .inl (body_ld x)
  | ldN64L32B x => exact Option.some.inj h ▸ .inl (body_ldN64L32B x)
  | ldI32L32B x => exact Option.some.inj h ▸ .inl (body_ldI32L32B x)
  | ldN32L32B x => exact Option.some.inj h ▸ .inl (body_ldN32L32B x)
  | ldI16L32B x => exact Option.some.inj h ▸ .inl (body_ldI16L32B x)
  | ldN16L32B x => exact Option.some.inj h ▸ .inl (body_ldN16L32B x)
  | ldI8L32B x => exact Option.some.inj h ▸ .inl (body_ldI8L32B x)
  | ldN8L32B x => exact Option.some.inj h ▸ .inl (body_ldN8L32B x)
  | st x => exact Option.some.inj h ▸ .inl (body_st x)
  | stN64L32B x => exact Option.some.inj h ▸ .inl (body_stN64L32B x)
  | stN32L32B x => exact Option.some.inj h ▸ .inl (body_stN32L32B x)
  | stN16L32B x => exact Option.some.inj h ▸ .inl (body_stN16L32B x)
  | stN8L32B x => exact Option.some.inj h ▸ .inl (body_stN8L32B x)
  | lda x => exact Option.some.inj h ▸ .inl (body_lda x)
  | stl x => exact Option.some.inj h ▸ .inl (body_stl x)
  | pf x => exact Option.some.inj h ▸ .inl (body_pf x)
  | pfL32B x => exact Option.some.inj h ▸ .inl (body_pfL32B x)
  | aadd x => exact Option.some.inj h ▸ .inl (body_aadd x)
  | amin x => exact Option.some.inj h ▸ .inl (body_amin x)
  | amax x => exact Option.some.inj h ▸ .inl (body_amax x)
  | aand x => exact Option.some.inj h ▸ .inl (body_aand x)
  | aor x => exact Option.some.inj h ▸ .inl (body_aor x)
  | axor x => exact Option.some.inj h ▸ .inl (body_axor x)
  | aswp x => exact Option.some.inj h ▸ .inl (body_aswp x)
  | acas x => exact Option.some.inj h ▸ .inl (body_acas x)
  | aaddf x => exact Option.some.inj h ▸ .inl (body_aaddf x)
  | fence x => exact Option.some.inj h ▸ .inl (body_fence x)
  | ojoin x => exact Option.some.inj h ▸ .inl (body_ojoin x)
  | cpy x => exact Option.some.inj h ▸ .inl (body_cpy x)
  | cpyHandle x => exact Option.some.inj h ▸ .inl (body_cpyHandle x)
  | cpy4 x => exact Option.some.inj h ▸ .inl (body_cpy4 x)
  | cpyg x => exact Option.some.inj h ▸ .inl (body_cpyg x)
  | batch x => exact Option.some.inj h ▸ .inl (body_batch x)
  | stcfg x => exact Option.some.inj h ▸ .inl (body_stcfg x)
  | sbufw x => exact Option.some.inj h ▸ .inl (body_sbufw x)
  | sbufset x => exact Option.some.inj h ▸ .inl (body_sbufset x)
  | splice x => exact Option.some.inj h ▸ .inl (body_splice x)
  | drd x => exact Option.some.inj h ▸ .inl (body_drd x)
  | dwr x => exact Option.some.inj h ▸ .inl (body_dwr x)
  | dgath x => exact Option.some.inj h ▸ .inl (body_dgath x)
  | flush x => exact Option.some.inj h ▸ .inl (body_flush x)
  | rowopen x => exact Option.some.inj h ▸ .inl (body_rowopen x)
  | rowhold x => exact Option.some.inj h ▸ .inl (body_rowhold x)
  | rowrel x => exact Option.some.inj h ▸ .inl (body_rowrel x)
  | rowrd x => exact Option.some.inj h ▸ .inl (body_rowrd x)
  | rowrdv x => exact Option.some.inj h ▸ .inl (body_rowrdv x)
  | rowwr x => exact Option.some.inj h ▸ .inl (body_rowwr x)
  | rowstat x => exact Option.some.inj h ▸ .inl (body_rowstat x)
  | scfg x => exact Option.some.inj h ▸ .inl (body_scfg x)
  | sbind x => exact Option.some.inj h ▸ .inl (body_sbind x)
  | sunbind x => exact Option.some.inj h ▸ .inl (body_sunbind x)
  | spredAttach x => exact Option.some.inj h ▸ .inl (body_spredAttach x)
  | spredRead x => exact Option.some.inj h ▸ .inl (body_spredRead x)
  | spos x => exact Option.some.inj h ▸ .inl (body_spos x)
  | vld x => exact Option.some.inj h ▸ .inl (body_vld x)
  | vldL32B x => exact Option.some.inj h ▸ .inl (body_vldL32B x)
  | vst x => exact Option.some.inj h ▸ .inl (body_vst x)
  | vstL32B x => exact Option.some.inj h ▸ .inl (body_vstL32B x)
  | vldg x => exact Option.some.inj h ▸ .inl (body_vldg x)
  | vsts x => exact Option.some.inj h ▸ .inl (body_vsts x)
  | vbcast x => exact Option.some.inj h ▸ .inl (body_vbcast x)
  | vmov x => exact Option.some.inj h ▸ .inl (body_vmov x)
  | vmovmExtract x => exact Option.some.inj h ▸ .inl (body_vmovmExtract x)
  | vmovmInsert x => exact Option.some.inj h ▸ .inl (body_vmovmInsert x)
  | vperm x => exact Option.some.inj h ▸ .inl (body_vperm x)
  | vslide x => exact Option.some.inj h ▸ .inl (body_vslide x)
  | vadd x => exact Option.some.inj h ▸ .inl (body_vadd x)
  | vsub x => exact Option.some.inj h ▸ .inl (body_vsub x)
  | vmul x => exact Option.some.inj h ▸ .inl (body_vmul x)
  | vfma x => exact Option.some.inj h ▸ .inl (body_vfma x)
  | vmin x => exact Option.some.inj h ▸ .inl (body_vmin x)
  | vmax x => exact Option.some.inj h ▸ .inl (body_vmax x)
  | vabs x => exact Option.some.inj h ▸ .inl (body_vabs x)
  | vneg x => exact Option.some.inj h ▸ .inl (body_vneg x)
  | vdiv x => exact Option.some.inj h ▸ .inl (body_vdiv x)
  | vsqrt x => exact Option.some.inj h ▸ .inl (body_vsqrt x)
  | vrcp x => exact Option.some.inj h ▸ .inl (body_vrcp x)
  | vrsqrt x => exact Option.some.inj h ▸ .inl (body_vrsqrt x)
  | vexp2 x => exact Option.some.inj h ▸ .inl (body_vexp2 x)
  | vlog2 x => exact Option.some.inj h ▸ .inl (body_vlog2 x)
  | vsin x => exact Option.some.inj h ▸ .inl (body_vsin x)
  | vcos x => exact Option.some.inj h ▸ .inl (body_vcos x)
  | vtanh x => exact Option.some.inj h ▸ .inl (body_vtanh x)
  | vand x => exact Option.some.inj h ▸ .inl (body_vand x)
  | vor x => exact Option.some.inj h ▸ .inl (body_vor x)
  | vxor x => exact Option.some.inj h ▸ .inl (body_vxor x)
  | vshl x => exact Option.some.inj h ▸ .inl (body_vshl x)
  | vshr x => exact Option.some.inj h ▸ .inl (body_vshr x)
  | vsha x => exact Option.some.inj h ▸ .inl (body_vsha x)
  | vcmp x => exact Option.some.inj h ▸ .inl (body_vcmp x)
  | vsel x => exact Option.some.inj h ▸ .inl (body_vsel x)
  | vcvt x => exact Option.some.inj h ▸ .inl (body_vcvt x)
  | vpack x => exact Option.some.inj h ▸ .inl (body_vpack x)
  | vunpack x => exact Option.some.inj h ▸ .inl (body_vunpack x)
  | vred x => exact Option.some.inj h ▸ .inl (body_vred x)
  | vscan x => exact Option.some.inj h ▸ .inl (body_vscan x)
  | vdot x => exact Option.some.inj h ▸ .inl (body_vdot x)
  | mzero x => exact Option.some.inj h ▸ .inr (body_mzero x)
  | mma x => exact Option.some.inj h ▸ .inr (body_mma x)
  | mmaq x => exact Option.some.inj h ▸ .inr (body_mmaq x)
  | mmad x => exact Option.some.inj h ▸ .inr (body_mmad x)
  | mread x => exact Option.some.inj h ▸ .inr (body_mread x)
  | mreadk x => exact Option.some.inj h ▸ .inr (body_mreadk x)
  | macc x => exact Option.some.inj h ▸ .inr (body_macc x)
  | maccMov x => exact Option.some.inj h ▸ .inr (body_maccMov x)
  | mstat x => exact Option.some.inj h ▸ .inr (body_mstat x)
  | mmode x => exact Option.some.inj h ▸ .inr (body_mmode x)
  | rjoin x => exact Option.some.inj h ▸ .inl (body_rjoin x)
  | rleave x => exact Option.some.inj h ▸ .inl (body_rleave x)
  | rmset x => exact Option.some.inj h ▸ .inl (body_rmset x)
  | rmclr x => exact Option.some.inj h ▸ .inl (body_rmclr x)
  | rmclrAll x => exact Option.some.inj h ▸ .inl (body_rmclrAll x)
  | rinj x => exact Option.some.inj h ▸ .inl (body_rinj x)
  | rdrain x => exact Option.some.inj h ▸ .inl (body_rdrain x)
  | rstat x => exact Option.some.inj h ▸ .inl (body_rstat x)
  | relight x => exact Option.some.inj h ▸ .inl (body_relight x)
  | ctrlRegisterWrite _ _ => exact absurd h (by intro h; cases h)
  | namePrefixWrite _ _ => exact absurd h (by intro h; cases h)
  | dirEntryWrite _ _ => exact absurd h (by intro h; cases h)
  | routerArrival _ => exact absurd h (by intro h; cases h)
  | coreMessageAccept _ => exact absurd h (by intro h; cases h)
  | lanternFloodBounce _ => exact absurd h (by intro h; cases h)
  | bounceReceived _ => exact absurd h (by intro h; cases h)
  | tombstoneForward _ => exact absurd h (by intro h; cases h)
  | tombstoneWindowEnd _ => exact absurd h (by intro h; cases h)
  | l2TlbRequest _ => exact absurd h (by intro h; cases h)
  | pageWalk _ => exact absurd h (by intro h; cases h)
  | tlbFillReply _ => exact absurd h (by intro h; cases h)
  | tlbInvalPage _ _ => exact absurd h (by intro h; cases h)
  | tlbInvalContext _ _ => exact absurd h (by intro h; cases h)
  | tlbInvalAll _ _ => exact absurd h (by intro h; cases h)
  | tlbInvalComplete _ => exact absurd h (by intro h; cases h)
  | spliceCopyComplete _ _ => exact absurd h (by intro h; cases h)
  | spliceFinish _ _ => exact absurd h (by intro h; cases h)
  | storeTileEvacuation _ _ => exact absurd h (by intro h; cases h)
  | goneReply _ => exact absurd h (by intro h; cases h)
  | ownerFaultReply _ => exact absurd h (by intro h; cases h)
  | storeAccess _ => exact absurd h (by intro h; cases h)
  | segCfgWrite _ _ _ => exact absurd h (by intro h; cases h)
  | segmentReconfigure _ _ => exact absurd h (by intro h; cases h)
  | fifoRetry _ => exact absurd h (by intro h; cases h)
  | queueSlotArrival _ => exact absurd h (by intro h; cases h)
  | eosMarkArrival _ => exact absurd h (by intro h; cases h)
  | creditReturn _ => exact absurd h (by intro h; cases h)
  | stagingSlotSend _ _ => exact absurd h (by intro h; cases h)
  | copyCommandStart _ _ => exact absurd h (by intro h; cases h)
  | copyBlockWrite _ _ => exact absurd h (by intro h; cases h)
  | linkAuditStart _ _ _ => exact absurd h (by intro h; cases h)
  | linkAuditReply _ => exact absurd h (by intro h; cases h)
  | flitEccDrop _ _ _ => exact absurd h (by intro h; cases h)
  | drdRequest _ => exact absurd h (by intro h; cases h)
  | dwrRequest _ => exact absurd h (by intro h; cases h)
  | dgathRequest _ => exact absurd h (by intro h; cases h)
  | rowopenRequest _ => exact absurd h (by intro h; cases h)
  | rowholdRequest _ => exact absurd h (by intro h; cases h)
  | rowrelRequest _ => exact absurd h (by intro h; cases h)
  | rowrdRequest _ => exact absurd h (by intro h; cases h)
  | rowwrRequest _ => exact absurd h (by intro h; cases h)
  | rowstatRequest _ => exact absurd h (by intro h; cases h)
  | flushRequest _ => exact absurd h (by intro h; cases h)
  | atomicRequest _ => exact absurd h (by intro h; cases h)
  | reservedOpRequest _ => exact absurd h (by intro h; cases h)
  | loadStoreReply _ => exact absurd h (by intro h; cases h)
  | directWriteArrival _ => exact absurd h (by intro h; cases h)
  | rowLeaseExpiry _ _ _ => exact absurd h (by intro h; cases h)
  | bankRefresh _ _ _ => exact absurd h (by intro h; cases h)
  | channelMove _ _ _ _ => exact absurd h (by intro h; cases h)
  | entryFire _ _ => exact absurd h (by intro h; cases h)
  | activationStart _ => exact absurd h (by intro h; cases h)
  | continuationResume _ _ _ => exact absurd h (by intro h; cases h)
  | runqPromotion _ _ => exact absurd h (by intro h; cases h)
  | notificationArrival _ => exact absurd h (by intro h; cases h)
  | counterPostArrival _ => exact absurd h (by intro h; cases h)
  | continuationReady _ _ => exact absurd h (by intro h; cases h)
  | faultedContinuationConvert _ => exact absurd h (by intro h; cases h)
  | gangMemberJoin _ => exact absurd h (by intro h; cases h)
  | gangRelay _ => exact absurd h (by intro h; cases h)
  | ringTileArrival _ => exact absurd h (by intro h; cases h)
  | ringTileForward _ _ => exact absurd h (by intro h; cases h)
  | ringFiring _ => exact absurd h (by intro h; cases h)
  | relightRequestSend _ _ => exact absurd h (by intro h; cases h)
  | relightRequestServe _ => exact absurd h (by intro h; cases h)
  | relitCopyArrival _ => exact absurd h (by intro h; cases h)
  | ringSealPost _ => exact absurd h (by intro h; cases h)
  | ringDonePost _ => exact absurd h (by intro h; cases h)
  | ringCompletion _ => exact absurd h (by intro h; cases h)
  | ringCancel _ _ _ => exact absurd h (by intro h; cases h)
  | ringLeaseTimeout _ _ => exact absurd h (by intro h; cases h)
  | ringRerun _ _ => exact absurd h (by intro h; cases h)
  | ringIdleRelease _ _ => exact absurd h (by intro h; cases h)
  | streamElementFetch _ _ => exact absurd h (by intro h; cases h)
  | streamPushWrite _ _ => exact absurd h (by intro h; cases h)
  | scoreboardEntryStart _ _ => exact absurd h (by intro h; cases h)
  | credResult _ => exact absurd h (by intro h; cases h)
  | credContribution _ => exact absurd h (by intro h; cases h)
  | queryRequest _ => exact absurd h (by intro h; cases h)
  | queryAnswer _ => exact absurd h (by intro h; cases h)
  | graphArming _ => exact absurd h (by intro h; cases h)
  | graphEnd _ => exact absurd h (by intro h; cases h)
  | successorResident _ => exact absurd h (by intro h; cases h)
  | successorCoreArming _ _ => exact absurd h (by intro h; cases h)
  | visibilityPost _ _ => exact absurd h (by intro h; cases h)
  | governorSample _ => exact absurd h (by intro h; cases h)
  | stageCoreRelease _ _ => exact absurd h (by intro h; cases h)
  | stageItemDelivery _ _ => exact absurd h (by intro h; cases h)
  | moveReq _ _ => exact absurd h (by intro h; cases h)
  | moveCopy _ => exact absurd h (by intro h; cases h)
  | markerRequest _ => exact absurd h (by intro h; cases h)
  | forwardEndMarker _ => exact absurd h (by intro h; cases h)
  | faultMessageArrival _ => exact absurd h (by intro h; cases h)
  | snuffnoteArrival _ => exact absurd h (by intro h; cases h)
  | graphPreempt _ _ => exact absurd h (by intro h; cases h)
  | graphPreemptHalt _ => exact absurd h (by intro h; cases h)
  | graphPreemptQuiesce _ _ => exact absurd h (by intro h; cases h)
  | contextSave _ => exact absurd h (by intro h; cases h)
  | graphResume _ _ => exact absurd h (by intro h; cases h)
  | graphKill _ _ => exact absurd h (by intro h; cases h)
  | wickExpiry _ => exact absurd h (by intro h; cases h)
  | coreSnuffClear _ => exact absurd h (by intro h; cases h)
  | hangFreeze _ => exact absurd h (by intro h; cases h)
  | leaseReq _ _ => exact absurd h (by intro h; cases h)
  | scoreCtlMismatch _ => exact absurd h (by intro h; cases h)
  | scoreCtlRetire _ => exact absurd h (by intro h; cases h)
  | scoreHalving => exact absurd h (by intro h; cases h)
  | sweepProposal _ => exact absurd h (by intro h; cases h)
  | leaseAckTimeout _ _ => exact absurd h (by intro h; cases h)
  | leaseDeferExpiry _ _ => exact absurd h (by intro h; cases h)
  | leaseStart _ _ => exact absurd h (by intro h; cases h)
  | leaseEvacuationDone _ _ => exact absurd h (by intro h; cases h)
  | leaseTestingEnd _ _ => exact absurd h (by intro h; cases h)
  | leaseRestoreDone _ _ => exact absurd h (by intro h; cases h)
  | retirementCountersigned _ _ => exact absurd h (by intro h; cases h)
  | rqDoorbell _ _ => exact absurd h (by intro h; cases h)
  | read _ => exact absurd h (by intro h; cases h)
  | write _ => exact absurd h (by intro h; cases h)
  | barrier _ => exact absurd h (by intro h; cases h)
  | barrierForward _ => exact absurd h (by intro h; cases h)
  | launch _ => exact absurd h (by intro h; cases h)
  | graph _ => exact absurd h (by intro h; cases h)
  | attest _ => exact absurd h (by intro h; cases h)
  | keyload _ => exact absurd h (by intro h; cases h)
  | keyclr _ => exact absurd h (by intro h; cases h)
  | cancel _ => exact absurd h (by intro h; cases h)
  | remoteTransferComplete _ _ _ _ => exact absurd h (by intro h; cases h)
  | powerWindow _ _ => exact absurd h (by intro h; cases h)
  | pwrQuiesce _ _ => exact absurd h (by intro h; cases h)
  | clusterQuiesced _ _ => exact absurd h (by intro h; cases h)
  | retSave _ _ => exact absurd h (by intro h; cases h)
  | retentionSaveDone _ _ => exact absurd h (by intro h; cases h)
  | pwrWake _ _ => exact absurd h (by intro h; cases h)
  | clusterWakeArrival _ => exact absurd h (by intro h; cases h)
  | clusterWakeDone _ _ => exact absurd h (by intro h; cases h)
  | railGoodTimeout _ _ => exact absurd h (by intro h; cases h)
  | coldBoot => exact absurd h (by intro h; cases h)
  | park => exact absurd h (by intro h; cases h)
  | unpark => exact absurd h (by intro h; cases h)
  | wearHourlyUpdate _ => exact absurd h (by intro h; cases h)
  | creditCounterParityError _ _ _ => exact absurd h (by intro h; cases h)
  | matrixCompletion _ => exact absurd h (by intro h; cases h)
  | ringOpReply _ => exact absurd h (by intro h; cases h)
  | cqCtlHeadWrite _ _ => exact absurd h (by intro h; cases h)
  | retirementNoticeExpiry _ _ => exact absurd h (by intro h; cases h)
  | transferEngineStart _ _ _ _ _ => exact absurd h (by intro h; cases h)
  | testPatternResult _ _ _ _ => exact absurd h (by intro h; cases h)

end Sys2Proof.Laws
end

