-- ==== Sys2Proof/Laws/Parcels.lean ====
section
/-! SUPPORT. The fields of a packed parcel read back (09 R224, R225, R227, R228), and from them: a legal row whose operation
number finds it in its table decodes to itself. -/
namespace Sys2Proof.Laws
open Sys2Proof Sys2Proof.Machine

theorem upper_field (n m k l : Nat) (x : BitVec n) (y : BitVec m) (h : m ≤ k) :
    (x ++ y).extractLsb' k l = x.extractLsb' (k - m) l := BitVec.extractLsb'_append_eq_of_le h
theorem lowest_field (n m : Nat) (x : BitVec n) (y : BitVec m) : (x ++ y).extractLsb' 0 m = y := by
  rw [BitVec.extractLsb'_append_eq_of_add_le (by omega)]; simp
theorem upper_bit (n m k : Nat) (x : BitVec n) (y : BitVec m) (h : m ≤ k) :
    (x ++ y).getLsbD k = x.getLsbD (k - m) := by
  rw [BitVec.getLsbD_append, if_neg (by omega)]
theorem lowest_bit (n : Nat) (x : BitVec n) (y : Bool) : (x ++ BitVec.ofBool y).getLsbD 0 = y := by
  rw [BitVec.getLsbD_append]; simp

theorem packLong0_b (on : Nat) (x : Long) : (packLong0 on x).extractLsb' 24 6 = x.b := by
  unfold packLong0
  iterate 5 rw [upper_field _ _ _ _ _ _ (by decide)]
  exact lowest_field ..
theorem packLong0_a (on : Nat) (x : Long) : (packLong0 on x).extractLsb' 18 6 = x.a := by
  unfold packLong0
  iterate 4 rw [upper_field _ _ _ _ _ _ (by decide)]
  exact lowest_field ..
theorem packLong0_d (on : Nat) (x : Long) : (packLong0 on x).extractLsb' 12 6 = x.d := by
  unfold packLong0
  iterate 3 rw [upper_field _ _ _ _ _ _ (by decide)]
  exact lowest_field ..
theorem packLong0_top (on : Nat) (x : Long) : (packLong0 on x).extractLsb' 30 2 = 0#2 := by
  unfold packLong0
  iterate 6 rw [upper_field _ _ _ _ _ _ (by decide)]
  exact BitVec.extractLsb'_eq_self
theorem packLong0_on (on : Nat) (x : Long) (h : on < 1024) : longOn (packLong0 on x) = on := by
  unfold longOn packLong0
  iterate 2 rw [upper_field _ _ _ _ _ _ (by decide)]
  rw [show ∀ y : BitVec 20, (y ++ BitVec.ofNat 10 on).extractLsb' (2 - 1 - 1) 10 = BitVec.ofNat 10 on from
    fun y => lowest_field _ _ y _]
  exact Nat.mod_eq_of_lt h
theorem packLong0_wide (on : Nat) (x : Long) : (packLong0 on x).getLsbD 0 = x.wide := lowest_bit ..
theorem packLong0_long (on : Nat) (x : Long) : (packLong0 on x).getLsbD 1 = true := by
  unfold packLong0
  rw [upper_bit _ _ _ _ _ (by decide), BitVec.getLsbD_append]; rfl
theorem packLong0_count (on : Nat) (x : Long) : parcelCount (packLong0 on x) = if x.wide then 3 else 2 := by
  have h : (packLong0 on x).extractLsb' 0 2 = 1#1 ++ BitVec.ofBool x.wide := by
    unfold packLong0
    rw [BitVec.append_assoc, BitVec.extractLsb'_cast]
    exact lowest_field ..
  unfold parcelCount; rw [h]; cases x.wide <;> rfl

theorem packLong1_hi (x : Long) : (packLong1 x).extractLsb' 20 12 = x.hi := by
  unfold packLong1
  iterate 6 rw [upper_field _ _ _ _ _ _ (by decide)]
  exact BitVec.extractLsb'_eq_self
theorem packLong1_after (x : Long) : (packLong1 x).extractLsb' 17 3 = x.after := by
  unfold packLong1
  iterate 5 rw [upper_field _ _ _ _ _ _ (by decide)]
  exact lowest_field ..
theorem packLong1_emit (x : Long) : (packLong1 x).extractLsb' 14 3 = x.emit := by
  unfold packLong1
  iterate 4 rw [upper_field _ _ _ _ _ _ (by decide)]
  exact lowest_field ..
theorem packLong1_ginv (x : Long) : (packLong1 x).getLsbD 13 = x.ginv := by
  unfold packLong1
  iterate 3 rw [upper_bit _ _ _ _ _ (by decide)]
  exact lowest_bit ..
theorem packLong1_guard (x : Long) : (packLong1 x).extractLsb' 10 3 = x.guard := by
  unfold packLong1
  iterate 2 rw [upper_field _ _ _ _ _ _ (by decide)]
  exact lowest_field ..
theorem packLong1_sub (x : Long) : (packLong1 x).extractLsb' 6 4 = x.sub := by
  unfold packLong1
  rw [upper_field _ _ _ _ _ _ (by decide)]
  exact lowest_field ..
theorem packLong1_c (x : Long) : (packLong1 x).extractLsb' 0 6 = x.c := lowest_field ..

/-- An L64 instruction whose literal is zero and an L96 instruction read back. -/
theorem unpackLong_pack (on : Nat) (x : Long) (p2 : Parcel) (h : x.lit = if x.wide then p2 else 0) :
    unpackLong (packLong0 on x) (packLong1 x) p2 = x := by
  unfold unpackLong
  simp only [packLong0_b, packLong0_a, packLong0_d, packLong0_wide, packLong1_hi, packLong1_after, packLong1_emit,
    packLong1_ginv, packLong1_guard, packLong1_sub, packLong1_c, ← h]

theorem packShortA_fields (on : Nat) (x : ShortA) : unpackShortA (packShortA on x) = x := by
  have hs : (packShortA on x).extractLsb' 28 4 = x.sub := by
    unfold packShortA
    iterate 5 rw [upper_field _ _ _ _ _ _ (by decide)]
    exact BitVec.extractLsb'_eq_self
  have hb : (packShortA on x).extractLsb' 22 6 = x.b := by
    unfold packShortA
    iterate 4 rw [upper_field _ _ _ _ _ _ (by decide)]
    exact lowest_field ..
  have ha : (packShortA on x).extractLsb' 16 6 = x.a := by
    unfold packShortA
    iterate 3 rw [upper_field _ _ _ _ _ _ (by decide)]
    exact lowest_field ..
  have hd : (packShortA on x).extractLsb' 10 6 = x.d := by
    unfold packShortA
    iterate 2 rw [upper_field _ _ _ _ _ _ (by decide)]
    exact lowest_field ..
  unfold unpackShortA; rw [hs, hb, ha, hd]
theorem packShortA_on (on : Nat) (x : ShortA) (h : on < 256) : shortAOn (packShortA on x) = on := by
  unfold shortAOn packShortA
  rw [upper_field _ _ _ _ _ _ (by decide)]
  rw [show ∀ y : BitVec 22, (y ++ BitVec.ofNat 8 on).extractLsb' (2 - 2) 8 = BitVec.ofNat 8 on from
    fun y => lowest_field _ _ y _]
  exact Nat.mod_eq_of_lt h
theorem packShortA_length (on : Nat) (x : ShortA) : (packShortA on x).extractLsb' 0 2 = 0#2 := lowest_field ..

theorem packShortB_fields (sop : Nat) (x : ShortB) : unpackShortB (packShortB sop x) = x := by
  have hi : (packShortB sop x).extractLsb' 20 12 = x.imm := by
    unfold packShortB
    iterate 4 rw [upper_field _ _ _ _ _ _ (by decide)]
    exact BitVec.extractLsb'_eq_self
  have ha : (packShortB sop x).extractLsb' 14 6 = x.a := by
    unfold packShortB
    iterate 3 rw [upper_field _ _ _ _ _ _ (by decide)]
    exact lowest_field ..
  have hd : (packShortB sop x).extractLsb' 8 6 = x.d := by
    unfold packShortB
    iterate 2 rw [upper_field _ _ _ _ _ _ (by decide)]
    exact lowest_field ..
  unfold unpackShortB; rw [hi, ha, hd]
theorem packShortB_sop (sop : Nat) (x : ShortB) (h : sop < 64) : shortBSop (packShortB sop x) = sop := by
  unfold shortBSop packShortB
  rw [upper_field _ _ _ _ _ _ (by decide)]
  rw [show ∀ y : BitVec 24, (y ++ BitVec.ofNat 6 sop).extractLsb' (2 - 2) 6 = BitVec.ofNat 6 sop from
    fun y => lowest_field _ _ y _]
  exact Nat.mod_eq_of_lt h
theorem packShortB_length (sop : Nat) (x : ShortB) : (packShortB sop x).extractLsb' 0 2 = 1#2 := lowest_field ..

theorem low_bits (p : Parcel) : p.getLsbD 0 = (p.extractLsb' 0 2).getLsbD 0 ∧ p.getLsbD 1 = (p.extractLsb' 0 2).getLsbD 1 := by
  simp

/-- A legal L64 or L96 instruction that its operation number finds in the table decodes to itself. -/
theorem long_decodes (r : LRow) (k : Long → Instr) (x : Long) (hon : r.on < 1024) (hl : r.legal x = true)
    (hf : r.sel x = true → longTable.find? (fun q => q.1.on == r.on && q.1.sel x) = some (r, k)) :
    decode (encodeEnc (.long r x)) = some (k x, []) := by
  have hs : r.sel x = true := by
    simp only [LRow.legal, Bool.and_eq_true] at hl; exact hl.1.1.1.1.1.1.1.1.1
  have hw : x.wide = false → x.lit = 0 := by
    intro h
    simp only [LRow.legal, Bool.and_eq_true, h, Bool.false_or, beq_iff_eq] at hl; exact hl.1.1.1.1.1.1.1.2
  have hd : ∀ p2, x.lit = (if x.wide then p2 else 0) →
      decodeParcels (packLong0 r.on x) (packLong1 x) p2 = some (k x) := by
    intro p2 h
    unfold decodeParcels
    rw [packLong0_long]
    simp only [if_true, decodeLong, packLong0_top, unpackLong_pack _ _ _ h, packLong0_on _ _ hon, hf hs, hl]
    rfl
  cases hx : x.wide with
  | true =>
    rw [show encodeEnc (.long r x) = [packLong0 r.on x, packLong1 x, x.lit] by simp [encodeEnc, hx]]
    simp only [decode, packLong0_count, hx, if_true]
    rw [show ([packLong1 x, x.lit].getD 0 0) = packLong1 x from rfl, show ([packLong1 x, x.lit].getD 1 0) = x.lit from rfl,
      hd _ (by rw [hx]; rfl)]
    rfl
  | false =>
    rw [show encodeEnc (.long r x) = [packLong0 r.on x, packLong1 x] by simp [encodeEnc, hx]]
    simp only [decode, packLong0_count, hx, Bool.false_eq_true, if_false]
    rw [show ([packLong1 x].getD 0 0) = packLong1 x from rfl, show ([packLong1 x].getD 1 0) = (0 : Parcel) from rfl,
      hd _ (by rw [hx]; exact hw hx)]
    rfl

/-- A legal L32A instruction that its operation number finds in the table decodes to itself. -/
theorem shortA_decodes (r : ARow) (k : ShortA → Instr) (x : ShortA) (hon : r.on < 256) (hl : r.legal x = true)
    (hf : r.ok x = true → shortATable.find? (fun q => q.1.on == r.on && q.1.ok x) = some (r, k)) :
    decode (encodeEnc (.shortA r x)) = some (k x, []) := by
  have hs : r.ok x = true := by simp only [ARow.legal, Bool.and_eq_true] at hl; exact hl.2
  have hc : parcelCount (packShortA r.on x) = 1 := by unfold parcelCount; rw [packShortA_length]; rfl
  have hd : decodeParcels (packShortA r.on x) 0 0 = some (k x) := by
    unfold decodeParcels
    rw [(low_bits _).1, (low_bits _).2, packShortA_length]
    simp only [decodeShortA, packShortA_fields, packShortA_on _ _ hon, hf hs, hl]
    rfl
  show decode [packShortA r.on x] = _
  simp only [decode, hc]
  rw [show (([] : List Parcel).getD 0 0) = 0 from rfl, show (([] : List Parcel).getD 1 0) = 0 from rfl, hd]
  rfl

/-- A legal L32B instruction that its opcode finds in the table decodes to itself. -/
theorem shortB_decodes (r : BRow) (k : ShortB → Instr) (x : ShortB) (hon : r.sop < 64) (hl : r.legal x = true)
    (hf : shortBTable.find? (fun q => q.1.sop == r.sop) = some (r, k)) :
    decode (encodeEnc (.shortB r x)) = some (k x, []) := by
  have hc : parcelCount (packShortB r.sop x) = 1 := by unfold parcelCount; rw [packShortB_length]; rfl
  have hd : decodeParcels (packShortB r.sop x) 0 0 = some (k x) := by
    unfold decodeParcels
    rw [(low_bits _).1, (low_bits _).2, packShortB_length]
    simp only [decodeShortB, packShortB_fields, packShortB_sop _ _ hon, hf, hl]
    rfl
  show decode [packShortB r.sop x] = _
  simp only [decode, hc]
  rw [show (([] : List Parcel).getD 0 0) = 0 from rfl, show (([] : List Parcel).getD 1 0) = 0 from rfl, hd]
  rfl

end Sys2Proof.Laws
end

