-- ==== Sys2Proof/Laws/Exact.lean ====
section
/-! SUPPORT. What the decoder reads, the encoder writes again (09 R222 to R229): every row of a table is the encoding of its constructor, a parcel
is the packing of its fields, and so a decoded instruction is legal and encodes to the parcels it was read from. -/
namespace Sys2Proof.Laws
open Sys2Proof Sys2Proof.Machine

set_option maxRecDepth 20000
/-- A row of a table is the encoding of its constructor. -/
def LongRow (e : LRow × (Long → Instr)) : Prop := ∀ x, encoding (e.2 x) = .long e.1 x
def ShortARow (e : ARow × (ShortA → Instr)) : Prop := ∀ x, encoding (e.2 x) = .shortA e.1 x
def ShortBRow (e : BRow × (ShortB → Instr)) : Prop := ∀ x, encoding (e.2 x) = .shortB e.1 x

theorem rows_append {α : Type} {P : α → Prop} {l m : List α} (h : ∀ e ∈ l, P e) (k : ∀ e ∈ m, P e) : ∀ e ∈ l ++ m, P e := by
  intro e he
  exact (List.mem_append.mp he).elim (h e) (k e)
theorem rows_cons {α : Type} {P : α → Prop} {a : α} {l : List α} (h : P a) (k : ∀ e ∈ l, P e) : ∀ e ∈ a :: l, P e := by
  intro e he
  exact (List.mem_cons.mp he).elim (fun x => x ▸ h) (k e)
theorem rows_nil {α : Type} {P : α → Prop} : ∀ e ∈ ([] : List α), P e := by simp

theorem long_rows0 : ∀ e ∈ longTable0, LongRow e := by repeat refine rows_cons (fun _ => rfl) ?_
                                                       exact rows_nil
theorem long_rows1 : ∀ e ∈ longTable1, LongRow e := by repeat refine rows_cons (fun _ => rfl) ?_
                                                       exact rows_nil
theorem long_rows2 : ∀ e ∈ longTable2, LongRow e := by repeat refine rows_cons (fun _ => rfl) ?_
                                                       exact rows_nil
theorem long_rows3 : ∀ e ∈ longTable3, LongRow e := by repeat refine rows_cons (fun _ => rfl) ?_
                                                       exact rows_nil
theorem long_rows4 : ∀ e ∈ longTable4, LongRow e := by repeat refine rows_cons (fun _ => rfl) ?_
                                                       exact rows_nil
theorem long_rows5 : ∀ e ∈ longTable5, LongRow e := by repeat refine rows_cons (fun _ => rfl) ?_
                                                       exact rows_nil
theorem long_rows : ∀ e ∈ longTable, LongRow e :=
  rows_append (rows_append (rows_append (rows_append (rows_append long_rows0 long_rows1) long_rows2) long_rows3) long_rows4) long_rows5
theorem shortA_rows0 : ∀ e ∈ shortATable0, ShortARow e := by repeat refine rows_cons (fun _ => rfl) ?_
                                                             exact rows_nil
theorem shortA_rows1 : ∀ e ∈ shortATable1, ShortARow e := by repeat refine rows_cons (fun _ => rfl) ?_
                                                             exact rows_nil
theorem shortA_rows : ∀ e ∈ shortATable, ShortARow e := rows_append shortA_rows0 shortA_rows1
theorem shortB_rows0 : ∀ e ∈ shortBTable0, ShortBRow e := by repeat refine rows_cons (fun _ => rfl) ?_
                                                             exact rows_nil
theorem shortB_rows1 : ∀ e ∈ shortBTable1, ShortBRow e := by repeat refine rows_cons (fun _ => rfl) ?_
                                                             exact rows_nil
theorem shortB_rows : ∀ e ∈ shortBTable, ShortBRow e := rows_append shortB_rows0 shortB_rows1

/-- Two fields that meet are one field. -/
theorem join (p : Parcel) (m k l n : Nat) (h : m = k + n) : p.extractLsb' m l ++ p.extractLsb' k n = p.extractLsb' k (l + n) :=
  BitVec.extractLsb'_append_extractLsb'_eq_extractLsb' h
theorem one_bit (p : Parcel) (k : Nat) : BitVec.ofBool (p.getLsbD k) = p.extractLsb' k 1 := by
  apply BitVec.eq_of_getLsbD_eq; intro i hi
  have : i = 0 := by omega
  subst this; simp
theorem whole (p : Parcel) : p.extractLsb' 0 32 = p := BitVec.extractLsb'_eq_self

theorem packLong0_reads (p0 p1 p2 : Parcel) (h1 : p0.getLsbD 1 = true) (h2 : p0.extractLsb' 30 2 = 0#2) :
    packLong0 (longOn p0) (unpackLong p0 p1 p2) = p0 := by
  have h : (1#1 : BitVec 1) = p0.extractLsb' 1 1 := by rw [← one_bit, h1]; rfl
  simp only [packLong0, longOn, unpackLong, BitVec.ofNat_toNat, BitVec.setWidth_eq]
  rw [one_bit, h, ← h2]
  rw [join p0 30 24 2 6 rfl, join p0 24 18 (2 + 6) 6 rfl, join p0 18 12 (2 + 6 + 6) 6 rfl, join p0 12 2 (2 + 6 + 6 + 6) 10 rfl,
    join p0 2 1 (2 + 6 + 6 + 6 + 10) 1 rfl, join p0 1 0 (2 + 6 + 6 + 6 + 10 + 1) 1 rfl]
  exact whole p0
theorem packLong1_reads (p0 p1 p2 : Parcel) : packLong1 (unpackLong p0 p1 p2) = p1 := by
  simp only [packLong1, unpackLong]
  rw [one_bit, join p1 20 17 12 3 rfl, join p1 17 14 (12 + 3) 3 rfl, join p1 14 13 (12 + 3 + 3) 1 rfl, join p1 13 10 (12 + 3 + 3 + 1) 3 rfl,
    join p1 10 6 (12 + 3 + 3 + 1 + 3) 4 rfl, join p1 6 0 (12 + 3 + 3 + 1 + 3 + 4) 6 rfl]
  exact whole p1
theorem packShortA_reads (p : Parcel) (h : p.extractLsb' 0 2 = 0#2) : packShortA (shortAOn p) (unpackShortA p) = p := by
  simp only [packShortA, shortAOn, unpackShortA, BitVec.ofNat_toNat, BitVec.setWidth_eq]
  rw [← h, join p 28 22 4 6 rfl, join p 22 16 (4 + 6) 6 rfl, join p 16 10 (4 + 6 + 6) 6 rfl, join p 10 2 (4 + 6 + 6 + 6) 8 rfl,
    join p 2 0 (4 + 6 + 6 + 6 + 8) 2 rfl]
  exact whole p
theorem packShortB_reads (p : Parcel) (h : p.extractLsb' 0 2 = 1#2) : packShortB (shortBSop p) (unpackShortB p) = p := by
  simp only [packShortB, shortBSop, unpackShortB, BitVec.ofNat_toNat, BitVec.setWidth_eq]
  rw [← h, join p 20 14 12 6 rfl, join p 14 8 (12 + 6) 6 rfl, join p 8 2 (12 + 6 + 6) 6 rfl, join p 2 0 (12 + 6 + 6 + 6) 2 rfl]
  exact whole p

/-- An instruction read from a row is legal in it, and is of its encoding. -/
theorem legal_well_formed (i : Instr) (e : Enc) (h : encoding i = e) (hl : e.legal = true) (he : operandsOk i = true) : wellFormed i = true := by
  unfold wellFormed; rw [h, hl, he]; rfl

theorem long_reads (p0 p1 p2 : Parcel) (i : Instr) (h1 : p0.getLsbD 1 = true) (h : decodeLong p0 p1 p2 = some i) :
    ∃ r, encoding i = .long r (unpackLong p0 p1 p2) ∧ r.legal (unpackLong p0 p1 p2) = true ∧ packLong0 r.on (unpackLong p0 p1 p2) = p0 := by
  unfold decodeLong at h
  simp only [] at h
  split at h
  · cases h
  rename_i h2
  have h2' : p0.extractLsb' 30 2 = 0#2 := by simpa using h2
  split at h
  · rename_i r hr
    have hm := List.mem_of_find?_eq_some hr
    have hs := List.find?_some hr
    split at h
    · rename_i hl
      cases h
      simp only [Bool.and_eq_true, beq_iff_eq] at hs
      exact ⟨r.1, long_rows r hm _, hl, by rw [hs.1]; exact packLong0_reads p0 p1 p2 h1 h2'⟩
    · cases h
  · cases h
theorem shortA_reads (p : Parcel) (i : Instr) (hp : p.extractLsb' 0 2 = 0#2) (h : decodeShortA p = some i) :
    ∃ r, encoding i = .shortA r (unpackShortA p) ∧ r.legal (unpackShortA p) = true ∧ packShortA r.on (unpackShortA p) = p := by
  unfold decodeShortA at h
  simp only [] at h
  split at h
  · rename_i r hr
    have hm := List.mem_of_find?_eq_some hr
    have hs := List.find?_some hr
    split at h
    · rename_i hl
      cases h
      simp only [Bool.and_eq_true, beq_iff_eq] at hs
      exact ⟨r.1, shortA_rows r hm _, hl, by rw [hs.1]; exact packShortA_reads p hp⟩
    · cases h
  · cases h
theorem shortB_reads (p : Parcel) (i : Instr) (hp : p.extractLsb' 0 2 = 1#2) (h : decodeShortB p = some i) :
    ∃ r, encoding i = .shortB r (unpackShortB p) ∧ r.legal (unpackShortB p) = true ∧ packShortB r.sop (unpackShortB p) = p := by
  unfold decodeShortB at h
  simp only [] at h
  split at h
  · rename_i r hr
    have hm := List.mem_of_find?_eq_some hr
    have hs := List.find?_some hr
    split at h
    · rename_i hl
      cases h
      simp only [beq_iff_eq] at hs
      exact ⟨r.1, shortB_rows r hm _, hl, by rw [hs]; exact packShortB_reads p hp⟩
    · cases h
  · cases h
/-- The numbers of an instruction that has an encoding name no unit. -/
theorem operands_ok (i : Instr) (h : hasEncoding i = true) : operandsOk i = true := by
  cases i <;> first | rfl | (cases h)

end Sys2Proof.Laws
end

