-- ==== Sys2Proof/Laws/Issue.lean ====
section
/-! SUPPORT. What the issue of an instruction does (R243): each way it ends, once. -/
namespace Sys2Proof.Laws
open Sys2Proof Sys2Proof.Machine

/-- A form that issues runs its body on the state past it. -/
theorem issue_ready (f : Form) (priv : Bool) (body : Body') (s : State) (h : readyForm f priv s = true) :
    issue f priv body s = settle f s (body (s.advance f.length)) := by
  simp only [readyForm, fieldsInWindow, Bool.and_eq_true] at h
  obtain ⟨⟨⟨⟨⟨h1, h2⟩, h3⟩, h4⟩, h5⟩, h6⟩ := h
  unfold issue
  split at h1
  · simp at h1
  · next a ha =>
    simp only [Bool.and_eq_true, List.all_eq_true, decide_eq_true_eq] at h1
    have hf : f.gs.find? (fun n => decide (a.window ≤ n)) = none := by
      simp only [List.find?_eq_none, decide_eq_true_eq]
      intro n hn; have := h1.2 n hn; omega
    have h0 : a.halted.isSome = false := by cases hh : a.halted <;> simp_all
    have hp : ¬(priv = true ∧ s.level = .graph) := by
      simp only [Bool.not_eq_true', Bool.and_eq_false_iff, decide_eq_false_iff_not] at h2
      rintro ⟨p, q⟩; rcases h2 with h2 | h2 <;> simp_all
    have hw : ((!f.holds && !s.gone (s.tok f.after)) || f.regs.any s.core.isPending) = false := by
      simp only [Bool.not_eq_true'] at h6
      rw [h6]; cases hh : f.holds <;> simp_all
    have h3' : s.core.isPending (.p f.guard) = false := by simpa using h3
    simp only [ha, h0, hf, if_neg hp, h3', h4, hw, Bool.false_eq_true, if_false]
    simp

theorem issueL_ready (r : LRow) (x : Long) (body : Body') (s : State) (h : readyForm (longForm r false x) false s = true) :
    issueL r x body s = settle (longForm r false x) s (body (s.advance (if x.wide then 12 else 8))) := issue_ready _ _ _ _ h
theorem issueM_ready (r : LRow) (x : Long) (body : Body') (s : State) (h : readyForm (longForm r true x) false s = true) :
    issueM r x body s = settle (longForm r true x) s (body (s.advance (if x.wide then 12 else 8))) := issue_ready _ _ _ _ h
theorem issueP_ready (r : LRow) (x : Long) (body : Body') (s : State) (h : readyForm (longForm r false x) true s = true) :
    issueP r x body s = settle (longForm r false x) s (body (s.advance (if x.wide then 12 else 8))) := issue_ready _ _ _ _ h
theorem issueA_ready (r : ARow) (x : ShortA) (body : Body') (s : State) (h : readyForm (shortAForm r x) false s = true) :
    issueA r x body s = settle (shortAForm r x) s (body (s.advance 4)) := issue_ready _ _ _ _ h
theorem issueB_ready (r : BRow) (x : ShortB) (body : Body') (s : State) (h : readyForm (shortBForm r x) false s = true) :
    issueB r x body s = settle (shortBForm r x) s (body (s.advance 4)) := issue_ready _ _ _ _ h

/-! An instruction whose body answers a state has that state as its next one. -/

theorem issueL_next {r : LRow} {x : Long} {body : Body'} {s t : State} (h : readyForm (longForm r false x) false s = true)
    (hb : body (s.advance (if x.wide then 12 else 8)) = .ok t) : issueL r x body s = .next t := by rw [issueL_ready r x body s h, hb]; rfl
theorem issueM_next {r : LRow} {x : Long} {body : Body'} {s t : State} (h : readyForm (longForm r true x) false s = true)
    (hb : body (s.advance (if x.wide then 12 else 8)) = .ok t) : issueM r x body s = .next t := by rw [issueM_ready r x body s h, hb]; rfl
theorem issueP_next {r : LRow} {x : Long} {body : Body'} {s t : State} (h : readyForm (longForm r false x) true s = true)
    (hb : body (s.advance (if x.wide then 12 else 8)) = .ok t) : issueP r x body s = .next t := by rw [issueP_ready r x body s h, hb]; rfl
theorem issueA_next {r : ARow} {x : ShortA} {body : Body'} {s t : State} (h : readyForm (shortAForm r x) false s = true)
    (hb : body (s.advance 4) = .ok t) : issueA r x body s = .next t := by rw [issueA_ready r x body s h, hb]; rfl
theorem issueB_next {r : BRow} {x : ShortB} {body : Body'} {s t : State} (h : readyForm (shortBForm r x) false s = true)
    (hb : body (s.advance 4) = .ok t) : issueB r x body s = .next t := by rw [issueB_ready r x body s h, hb]; rfl

theorem settle_ok (f : Form) (s t : State) : settle f s (.ok t) = .next t := rfl
theorem settle_wait (f : Form) (s : State) : settle f s (.error .wait) = .next s.hold := rfl
theorem settle_fault (f : Form) (s : State) (i : FaultInfo) : settle f s (.error (.fault i)) = .next (s.takeFault i) := rfl

/-- However an instruction's issue ends, there is a next state. -/
theorem issue_next (f : Form) (priv : Bool) (body : Body') (s : State) : ∃ t, issue f priv body s = .next t := by
  have hs : ∀ r, ∃ t, settle f s r = .next t := by
    intro r
    unfold settle
    split <;> exact ⟨_, rfl⟩
  unfold issue
  repeat' split
  all_goals first | exact ⟨_, rfl⟩ | exact hs _

end Sys2Proof.Laws
end

