-- ==== Sys2Proof/Laws/Mem.lean ====
section
/-! SUPPORT. The laws of the memory: a read after a write, what a write leaves alone, and the canonical form that every memory operation
keeps. -/
namespace Sys2Proof.Laws
open Sys2Proof Sys2Proof.Machine

/-! Reads of lists of cells. -/

theorem read_append_right (l r : List Host.Cell) (x : Nat) (h : ∀ c ∈ l, c.1 ≠ x) : Mem.read (l ++ r) x = Mem.read r x := by
  induction l with
  | nil => rfl
  | cons c l ih =>
    simp only [List.cons_append, Mem.read]
    rw [if_neg (h c (by simp))]
    exact ih (fun d hd => h d (by simp [hd]))
theorem read_append_left (l r : List Host.Cell) (x : Nat) (h : ∀ c ∈ r, c.1 ≠ x) : Mem.read (l ++ r) x = Mem.read l x := by
  induction l with
  | nil =>
    induction r with
    | nil => rfl
    | cons c r ih =>
      simp only [List.nil_append, Mem.read]
      rw [if_neg (h c (by simp))]
      exact ih (fun d hd => h d (by simp [hd]))
  | cons c l ih => simp only [List.cons_append, Mem.read, ih]
theorem read_filter (q : Nat → Bool) (m : List Host.Cell) (x : Nat) (h : q x = true) :
    Mem.read (m.filter (fun c => q c.1)) x = Mem.read m x := by
  induction m with
  | nil => rfl
  | cons c m ih =>
    by_cases hc : c.1 = x
    · simp [Mem.read, hc, h]
    · cases hq : q c.1 <;> simp [Mem.read, hc, hq, ih]

theorem cells_key (a : Nat) (bs : List Byte) (c : Host.Cell) (h : c ∈ Mem.cells a bs) : a ≤ c.1 ∧ c.1 < a + bs.length := by
  induction bs generalizing a with
  | nil => simp [Mem.cells] at h
  | cons b bs ih =>
    simp only [Mem.cells] at h
    split at h
    · have := ih (a + 1) h; simp only [List.length_cons]; omega
    · rcases List.mem_cons.mp h with h | h
      · subst h; simp
      · have := ih (a + 1) h; simp only [List.length_cons]; omega
theorem read_cells (a : Nat) (bs : List Byte) (x : Nat) (h : a ≤ x) : Mem.read (Mem.cells a bs) x = bs.getD (x - a) 0 := by
  induction bs generalizing a with
  | nil => rfl
  | cons b bs ih =>
    simp only [Mem.cells]
    by_cases hx : x = a
    · subst hx
      split
      · next hb =>
        have : Mem.read (Mem.cells (x + 1) bs) x = Mem.unlisted := by
          have h0 : ∀ c ∈ Mem.cells (x + 1) bs, c.1 ≠ x := by
            intro c hc; have := cells_key _ _ _ hc; omega
          have := read_append_left [] (Mem.cells (x + 1) bs) x h0
          simpa [Mem.read] using this
        rw [this]; simp [hb]
      · simp [Mem.read]
    · have e : x - a = (x - (a + 1)) + 1 := by omega
      split
      · rw [ih (a + 1) (by omega), e]; simp
      · simp only [Mem.read]
        rw [if_neg (by omega), ih (a + 1) (by omega), e]; simp

/-- A byte read after a write: the byte written inside the written range, the old one outside it. -/
theorem read_write (m : List Host.Cell) (a : Nat) (bs : List Byte) (x : Nat) :
    Mem.read (Mem.write m a bs) x = if a ≤ x ∧ x < a + bs.length then bs.getD (x - a) 0 else Mem.read m x := by
  simp only [Mem.write]
  by_cases h1 : a ≤ x ∧ x < a + bs.length
  · rw [if_pos h1, read_append_left, read_append_right, read_cells _ _ _ h1.1]
    · intro c hc; simp at hc; omega
    · intro c hc; simp at hc; omega
  · rw [if_neg h1]
    by_cases h2 : x < a
    · rw [read_append_left, read_append_left]
      · exact read_filter (fun k => decide (k < a)) m x (by simpa using h2)
      · intro c hc; have := cells_key _ _ _ hc; omega
      · intro c hc; simp at hc; omega
    · rw [read_append_right]
      · exact read_filter (fun k => decide (a + bs.length ≤ k)) m x (by simp; omega)
      · intro c hc
        rcases List.mem_append.mp hc with hc | hc
        · simp at hc; omega
        · have := cells_key _ _ _ hc; omega

/-! The canonical form. -/

theorem wf_iff (m : List Host.Cell) : Mem.wf m = true ↔ m.Pairwise (fun c d => c.1 < d.1) ∧ ∀ c ∈ m, c.2 ≠ Mem.unlisted := by
  induction m with
  | nil => simp [Mem.wf]
  | cons c m ih =>
    cases m with
    | nil => simp [Mem.wf]
    | cons d m =>
      simp only [Mem.wf, Bool.and_eq_true, ih, bne_iff_ne, decide_eq_true_eq]
      constructor
      · rintro ⟨⟨h1, h2⟩, h3, h4⟩
        refine ⟨List.pairwise_cons.mpr ⟨?_, h3⟩, ?_⟩
        · intro e he
          rcases List.mem_cons.mp he with rfl | he
          · exact h2
          · have := (List.pairwise_cons.mp h3).1 e he; omega
        · intro e he
          rcases List.mem_cons.mp he with rfl | he
          · exact h1
          · exact h4 e he
      · rintro ⟨h1, h2⟩
        have h3 := List.pairwise_cons.mp h1
        exact ⟨⟨h2 c (by simp), h3.1 d (by simp)⟩, h3.2, fun e he => h2 e (by simp [he])⟩

theorem wf_filter (m : List Host.Cell) (p : Host.Cell → Bool) (h : Mem.wf m = true) : Mem.wf (m.filter p) = true := by
  rw [wf_iff] at *
  exact ⟨h.1.sublist List.filter_sublist, fun c hc => h.2 c (List.mem_filter.mp hc).1⟩
theorem wf_append (l r : List Host.Cell) (hl : Mem.wf l = true) (hr : Mem.wf r = true) (h : ∀ c ∈ l, ∀ d ∈ r, c.1 < d.1) :
    Mem.wf (l ++ r) = true := by
  rw [wf_iff] at *
  refine ⟨List.pairwise_append.mpr ⟨hl.1, hr.1, h⟩, ?_⟩
  intro c hc
  rcases List.mem_append.mp hc with hc | hc
  · exact hl.2 c hc
  · exact hr.2 c hc
theorem wf_cells (a : Nat) (bs : List Byte) : Mem.wf (Mem.cells a bs) = true := by
  induction bs generalizing a with
  | nil => rfl
  | cons b bs ih =>
    simp only [Mem.cells]
    split
    · exact ih _
    · next hb =>
      have := ih (a + 1)
      rw [wf_iff] at *
      refine ⟨List.pairwise_cons.mpr ⟨fun c hc => ?_, this.1⟩, fun c hc => ?_⟩
      · have := cells_key _ _ _ hc; omega
      · rcases List.mem_cons.mp hc with rfl | hc
        · exact hb
        · exact this.2 c hc
/-- A write keeps the canonical form. -/
theorem wf_write (m : List Host.Cell) (a : Nat) (bs : List Byte) (h : Mem.wf m = true) : Mem.wf (Mem.write m a bs) = true := by
  simp only [Mem.write]
  refine wf_append _ _ (wf_append _ _ (wf_filter _ _ h) (wf_cells _ _) ?_) (wf_filter _ _ h) ?_
  · intro c hc d hd; simp at hc; have := cells_key _ _ _ hd; omega
  · intro c hc d hd
    simp at hd
    rcases List.mem_append.mp hc with hc | hc
    · simp at hc; omega
    · have := cells_key _ _ _ hc; omega

theorem wf_poke (s : State) (k : Nat) (bs : List Byte) (h : Mem.wf s.mem = true) : Mem.wf (s.poke k bs).mem = true := wf_write _ _ _ h
theorem wf_pokeCap (s : State) (k : Nat) (c : Cap) (h : Mem.wf s.mem = true) : Mem.wf (s.pokeCap k c).mem = true := wf_write _ _ _ h
theorem wf_clearRange (s : State) (k n : Nat) (h : Mem.wf s.mem = true) : Mem.wf (s.clearRange k n).mem = true := wf_filter _ _ h
theorem wf_copyTagged (s : State) (src dst n : Nat) (h : Mem.wf s.mem = true) : Mem.wf (s.copyTagged src dst n).mem = true := by
  simp only [State.copyTagged]
  have hm : Mem.wf ((s.mem.filter (fun c => decide (src ≤ c.1 ∧ c.1 < src + n))).map (fun c => (c.1 - src + dst, c.2))) = true := by
    have h0 := wf_filter s.mem (fun c => decide (src ≤ c.1 ∧ c.1 < src + n)) h
    have hk : ∀ c ∈ s.mem.filter (fun c => decide (src ≤ c.1 ∧ c.1 < src + n)), src ≤ c.1 := by
      intro c hc; have := (List.mem_filter.mp hc).2; simp at this; omega
    rw [wf_iff] at *
    refine ⟨?_, ?_⟩
    · rw [List.pairwise_map]
      refine h0.1.imp_of_mem ?_
      intro c d hc hd hcd
      have := hk c hc; have := hk d hd
      show c.1 - src + dst < d.1 - src + dst
      omega
    · intro c hc
      obtain ⟨d, hd, rfl⟩ := List.mem_map.mp hc
      exact h0.2 d hd
  refine wf_append _ _ (wf_append _ _ (wf_filter _ _ h) hm ?_) (wf_filter _ _ h) ?_
  · intro c hc d hd; simp at hc
    obtain ⟨e, he, rfl⟩ := List.mem_map.mp hd
    show c.1 < e.1 - src + dst
    omega
  · intro c hc d hd
    simp at hd
    rcases List.mem_append.mp hc with hc | hc
    · simp at hc; omega
    · obtain ⟨e, he, rfl⟩ := List.mem_map.mp hc
      have := (List.mem_filter.mp he).2; simp at this
      show e.1 - src + dst < d.1
      omega
/-- The memory after reset is in its canonical form. -/
theorem wf_reset : Mem.wf State.reset.mem = true := rfl

/-! Bytes of a state. -/

theorem readRange_get (m : List Host.Cell) (a n k : Nat) (h : k < n) : (Mem.readRange m a n).getD k 0 = Mem.read m (a + k) := by
  induction n generalizing a k with
  | zero => omega
  | succ n ih =>
    cases k with
    | zero => simp [Mem.readRange]
    | succ k =>
      have := ih (a + 1) k (by omega)
      simp only [Mem.readRange, List.getD_cons_succ, this]
      congr 1; omega
theorem readRange_length (m : List Host.Cell) (a n : Nat) : (Mem.readRange m a n).length = n := by
  induction n generalizing a with
  | zero => rfl
  | succ n ih => simp [Mem.readRange, ih]
/-- A byte read after a store of data. -/
theorem read_poke (s : State) (a : Nat) (bs : List Byte) (x : Nat) :
    Mem.read (s.poke a bs).mem x = if a ≤ x ∧ x < a + bs.length then bs.getD (x - a) 0 else Mem.read s.mem x := read_write _ _ _ _
/-- A store loses the tags of the granules it touches and keeps the others. -/
theorem poke_tags (s : State) (a : Nat) (bs : List Byte) (g : Nat) :
    g ∈ (s.poke a bs).tags ↔ g ∈ s.tags ∧ ¬(a < g * 16 + 16 ∧ g * 16 < a + bs.length) := by
  simp [State.poke, Mem.clearTags]; omega

end Sys2Proof.Laws
end

