-- ==== Sys2Proof/Laws/Runs.lean ====
section
/-! SUPPORT. What every instruction that issues does: its own body, run on the state past it, one lemma for each constructor. A proof about an
instruction starts from its lemma and unfolds neither exec nor the issue. -/
namespace Sys2Proof.Laws
open Sys2Proof Sys2Proof.Machine

theorem run_add (x : Long) (s : State) (h : issues (.add x) s = true) :
    exec (.add x) s = settle (longForm Shape.add false x) s (((x.run2 elemAdd) : Body') (past (.add x) s)) := by
  simp only [exec_add, execAdd]; exact issueL_ready Shape.add x _ s h
theorem run_addL32A (x : ShortA) (s : State) (h : issues (.addL32A x) s = true) :
    exec (.addL32A x) s = settle (shortAForm Shape.addL32A x) s (((x.run2 elemAdd) : Body') (past (.addL32A x) s)) := by
  simp only [exec_addL32A, execAddL32A]; exact issueA_ready Shape.addL32A x _ s h
theorem run_addI64L32B (x : ShortB) (s : State) (h : issues (.addI64L32B x) s = true) :
    exec (.addI64L32B x) s = settle (shortBForm Shape.addI64L32B x) s (((x.run2 3 elemAdd) : Body') (past (.addI64L32B x) s)) := by
  simp only [exec_addI64L32B, execAddI64L32B]; exact issueB_ready Shape.addI64L32B x _ s h
theorem run_addI32L32B (x : ShortB) (s : State) (h : issues (.addI32L32B x) s = true) :
    exec (.addI32L32B x) s = settle (shortBForm Shape.addI32L32B x) s (((x.run2 2 elemAdd) : Body') (past (.addI32L32B x) s)) := by
  simp only [exec_addI32L32B, execAddI32L32B]; exact issueB_ready Shape.addI32L32B x _ s h
theorem run_addc (x : Long) (s : State) (h : issues (.addc x) s = true) :
    exec (.addc x) s = settle (longForm Shape.addc false x) s (((x.count2 carryOf) : Body') (past (.addc x) s)) := by
  simp only [exec_addc, execAddc]; exact issueL_ready Shape.addc x _ s h
theorem run_addcL32A (x : ShortA) (s : State) (h : issues (.addcL32A x) s = true) :
    exec (.addcL32A x) s = settle (shortAForm Shape.addcL32A x) s (((x.count2 carryOf) : Body') (past (.addcL32A x) s)) := by
  simp only [exec_addcL32A, execAddcL32A]; exact issueA_ready Shape.addcL32A x _ s h
theorem run_sub (x : Long) (s : State) (h : issues (.sub x) s = true) :
    exec (.sub x) s = settle (longForm Shape.sub false x) s (((x.run2 elemSub) : Body') (past (.sub x) s)) := by
  simp only [exec_sub, execSub]; exact issueL_ready Shape.sub x _ s h
theorem run_subL32A (x : ShortA) (s : State) (h : issues (.subL32A x) s = true) :
    exec (.subL32A x) s = settle (shortAForm Shape.subL32A x) s (((x.run2 elemSub) : Body') (past (.subL32A x) s)) := by
  simp only [exec_subL32A, execSubL32A]; exact issueA_ready Shape.subL32A x _ s h
theorem run_subb (x : Long) (s : State) (h : issues (.subb x) s = true) :
    exec (.subb x) s = settle (longForm Shape.subb false x) s (((x.count2 borrowOf) : Body') (past (.subb x) s)) := by
  simp only [exec_subb, execSubb]; exact issueL_ready Shape.subb x _ s h
theorem run_subbL32A (x : ShortA) (s : State) (h : issues (.subbL32A x) s = true) :
    exec (.subbL32A x) s = settle (shortAForm Shape.subbL32A x) s (((x.count2 borrowOf) : Body') (past (.subbL32A x) s)) := by
  simp only [exec_subbL32A, execSubbL32A]; exact issueA_ready Shape.subbL32A x _ s h
theorem run_mul (x : Long) (s : State) (h : issues (.mul x) s = true) :
    exec (.mul x) s = settle (longForm Shape.mul false x) s (((x.run2 elemMul) : Body') (past (.mul x) s)) := by
  simp only [exec_mul, execMul]; exact issueL_ready Shape.mul x _ s h
theorem run_mulL32A (x : ShortA) (s : State) (h : issues (.mulL32A x) s = true) :
    exec (.mulL32A x) s = settle (shortAForm Shape.mulL32A x) s (((x.run2 elemMul) : Body') (past (.mulL32A x) s)) := by
  simp only [exec_mulL32A, execMulL32A]; exact issueA_ready Shape.mulL32A x _ s h
theorem run_mulI64L32B (x : ShortB) (s : State) (h : issues (.mulI64L32B x) s = true) :
    exec (.mulI64L32B x) s = settle (shortBForm Shape.mulI64L32B x) s (((x.run2 3 elemMul) : Body') (past (.mulI64L32B x) s)) := by
  simp only [exec_mulI64L32B, execMulI64L32B]; exact issueB_ready Shape.mulI64L32B x _ s h
theorem run_mulI32L32B (x : ShortB) (s : State) (h : issues (.mulI32L32B x) s = true) :
    exec (.mulI32L32B x) s = settle (shortBForm Shape.mulI32L32B x) s (((x.run2 2 elemMul) : Body') (past (.mulI32L32B x) s)) := by
  simp only [exec_mulI32L32B, execMulI32L32B]; exact issueB_ready Shape.mulI32L32B x _ s h
theorem run_mulh (x : Long) (s : State) (h : issues (.mulh x) s = true) :
    exec (.mulh x) s = settle (longForm Shape.mulh false x) s (((x.run2 mulHigh) : Body') (past (.mulh x) s)) := by
  simp only [exec_mulh, execMulh]; exact issueL_ready Shape.mulh x _ s h
theorem run_mulhL32A (x : ShortA) (s : State) (h : issues (.mulhL32A x) s = true) :
    exec (.mulhL32A x) s = settle (shortAForm Shape.mulhL32A x) s (((x.run2 mulHigh) : Body') (past (.mulhL32A x) s)) := by
  simp only [exec_mulhL32A, execMulhL32A]; exact issueA_ready Shape.mulhL32A x _ s h
theorem run_mulhn (x : Long) (s : State) (h : issues (.mulhn x) s = true) :
    exec (.mulhn x) s = settle (longForm Shape.mulhn false x) s (((x.run2 mulHigh) : Body') (past (.mulhn x) s)) := by
  simp only [exec_mulhn, execMulhn]; exact issueL_ready Shape.mulhn x _ s h
theorem run_mulhnL32A (x : ShortA) (s : State) (h : issues (.mulhnL32A x) s = true) :
    exec (.mulhnL32A x) s = settle (shortAForm Shape.mulhnL32A x) s (((x.run2 mulHigh) : Body') (past (.mulhnL32A x) s)) := by
  simp only [exec_mulhnL32A, execMulhnL32A]; exact issueA_ready Shape.mulhnL32A x _ s h
theorem run_div (x : Long) (s : State) (h : issues (.div x) s = true) :
    exec (.div x) s = settle (longForm Shape.div false x) s (((x.run2 divOf) : Body') (past (.div x) s)) := by
  simp only [exec_div, execDiv]; exact issueL_ready Shape.div x _ s h
theorem run_divL32A (x : ShortA) (s : State) (h : issues (.divL32A x) s = true) :
    exec (.divL32A x) s = settle (shortAForm Shape.divL32A x) s (((x.run2 divOf) : Body') (past (.divL32A x) s)) := by
  simp only [exec_divL32A, execDivL32A]; exact issueA_ready Shape.divL32A x _ s h
theorem run_divn (x : Long) (s : State) (h : issues (.divn x) s = true) :
    exec (.divn x) s = settle (longForm Shape.divn false x) s (((x.run2 divOf) : Body') (past (.divn x) s)) := by
  simp only [exec_divn, execDivn]; exact issueL_ready Shape.divn x _ s h
theorem run_divnL32A (x : ShortA) (s : State) (h : issues (.divnL32A x) s = true) :
    exec (.divnL32A x) s = settle (shortAForm Shape.divnL32A x) s (((x.run2 divOf) : Body') (past (.divnL32A x) s)) := by
  simp only [exec_divnL32A, execDivnL32A]; exact issueA_ready Shape.divnL32A x _ s h
theorem run_rem (x : Long) (s : State) (h : issues (.rem x) s = true) :
    exec (.rem x) s = settle (longForm Shape.rem false x) s (((x.run2 remOf) : Body') (past (.rem x) s)) := by
  simp only [exec_rem, execRem]; exact issueL_ready Shape.rem x _ s h
theorem run_remL32A (x : ShortA) (s : State) (h : issues (.remL32A x) s = true) :
    exec (.remL32A x) s = settle (shortAForm Shape.remL32A x) s (((x.run2 remOf) : Body') (past (.remL32A x) s)) := by
  simp only [exec_remL32A, execRemL32A]; exact issueA_ready Shape.remL32A x _ s h
theorem run_remn (x : Long) (s : State) (h : issues (.remn x) s = true) :
    exec (.remn x) s = settle (longForm Shape.remn false x) s (((x.run2 remOf) : Body') (past (.remn x) s)) := by
  simp only [exec_remn, execRemn]; exact issueL_ready Shape.remn x _ s h
theorem run_remnL32A (x : ShortA) (s : State) (h : issues (.remnL32A x) s = true) :
    exec (.remnL32A x) s = settle (shortAForm Shape.remnL32A x) s (((x.run2 remOf) : Body') (past (.remnL32A x) s)) := by
  simp only [exec_remnL32A, execRemnL32A]; exact issueA_ready Shape.remnL32A x _ s h
theorem run_and (x : Long) (s : State) (h : issues (.and x) s = true) :
    exec (.and x) s = settle (longForm Shape.and false x) s (((x.run2 andOf) : Body') (past (.and x) s)) := by
  simp only [exec_and, execAnd]; exact issueL_ready Shape.and x _ s h
theorem run_andL32A (x : ShortA) (s : State) (h : issues (.andL32A x) s = true) :
    exec (.andL32A x) s = settle (shortAForm Shape.andL32A x) s (((x.run2 andOf) : Body') (past (.andL32A x) s)) := by
  simp only [exec_andL32A, execAndL32A]; exact issueA_ready Shape.andL32A x _ s h
theorem run_andN64L32B (x : ShortB) (s : State) (h : issues (.andN64L32B x) s = true) :
    exec (.andN64L32B x) s = settle (shortBForm Shape.andN64L32B x) s (((x.run2 7 andOf) : Body') (past (.andN64L32B x) s)) := by
  simp only [exec_andN64L32B, execAndN64L32B]; exact issueB_ready Shape.andN64L32B x _ s h
theorem run_andn (x : Long) (s : State) (h : issues (.andn x) s = true) :
    exec (.andn x) s = settle (longForm Shape.andn false x) s (((x.run2 andnOf) : Body') (past (.andn x) s)) := by
  simp only [exec_andn, execAndn]; exact issueL_ready Shape.andn x _ s h
theorem run_andnL32A (x : ShortA) (s : State) (h : issues (.andnL32A x) s = true) :
    exec (.andnL32A x) s = settle (shortAForm Shape.andnL32A x) s (((x.run2 andnOf) : Body') (past (.andnL32A x) s)) := by
  simp only [exec_andnL32A, execAndnL32A]; exact issueA_ready Shape.andnL32A x _ s h
theorem run_andnN64L32B (x : ShortB) (s : State) (h : issues (.andnN64L32B x) s = true) :
    exec (.andnN64L32B x) s = settle (shortBForm Shape.andnN64L32B x) s (((x.run2 7 andnOf) : Body') (past (.andnN64L32B x) s)) := by
  simp only [exec_andnN64L32B, execAndnN64L32B]; exact issueB_ready Shape.andnN64L32B x _ s h
theorem run_or (x : Long) (s : State) (h : issues (.or x) s = true) :
    exec (.or x) s = settle (longForm Shape.or false x) s (((x.run2 orOf) : Body') (past (.or x) s)) := by
  simp only [exec_or, execOr]; exact issueL_ready Shape.or x _ s h
theorem run_orL32A (x : ShortA) (s : State) (h : issues (.orL32A x) s = true) :
    exec (.orL32A x) s = settle (shortAForm Shape.orL32A x) s (((x.run2 orOf) : Body') (past (.orL32A x) s)) := by
  simp only [exec_orL32A, execOrL32A]; exact issueA_ready Shape.orL32A x _ s h
theorem run_orN64L32B (x : ShortB) (s : State) (h : issues (.orN64L32B x) s = true) :
    exec (.orN64L32B x) s = settle (shortBForm Shape.orN64L32B x) s (((x.run2 7 orOf) : Body') (past (.orN64L32B x) s)) := by
  simp only [exec_orN64L32B, execOrN64L32B]; exact issueB_ready Shape.orN64L32B x _ s h
theorem run_xor (x : Long) (s : State) (h : issues (.xor x) s = true) :
    exec (.xor x) s = settle (longForm Shape.xor false x) s (((x.run2 xorOf) : Body') (past (.xor x) s)) := by
  simp only [exec_xor, execXor]; exact issueL_ready Shape.xor x _ s h
theorem run_xorL32A (x : ShortA) (s : State) (h : issues (.xorL32A x) s = true) :
    exec (.xorL32A x) s = settle (shortAForm Shape.xorL32A x) s (((x.run2 xorOf) : Body') (past (.xorL32A x) s)) := by
  simp only [exec_xorL32A, execXorL32A]; exact issueA_ready Shape.xorL32A x _ s h
theorem run_xorN64L32B (x : ShortB) (s : State) (h : issues (.xorN64L32B x) s = true) :
    exec (.xorN64L32B x) s = settle (shortBForm Shape.xorN64L32B x) s (((x.run2 7 xorOf) : Body') (past (.xorN64L32B x) s)) := by
  simp only [exec_xorN64L32B, execXorN64L32B]; exact issueB_ready Shape.xorN64L32B x _ s h
theorem run_shl (x : Long) (s : State) (h : issues (.shl x) s = true) :
    exec (.shl x) s = settle (longForm Shape.shl false x) s (((x.run2 shlOf) : Body') (past (.shl x) s)) := by
  simp only [exec_shl, execShl]; exact issueL_ready Shape.shl x _ s h
theorem run_shlL32A (x : ShortA) (s : State) (h : issues (.shlL32A x) s = true) :
    exec (.shlL32A x) s = settle (shortAForm Shape.shlL32A x) s (((x.run2 shlOf) : Body') (past (.shlL32A x) s)) := by
  simp only [exec_shlL32A, execShlL32A]; exact issueA_ready Shape.shlL32A x _ s h
theorem run_shlN64L32B (x : ShortB) (s : State) (h : issues (.shlN64L32B x) s = true) :
    exec (.shlN64L32B x) s = settle (shortBForm Shape.shlN64L32B x) s (((x.run2 7 shlOf) : Body') (past (.shlN64L32B x) s)) := by
  simp only [exec_shlN64L32B, execShlN64L32B]; exact issueB_ready Shape.shlN64L32B x _ s h
theorem run_shr (x : Long) (s : State) (h : issues (.shr x) s = true) :
    exec (.shr x) s = settle (longForm Shape.shr false x) s (((x.run2 shrOf) : Body') (past (.shr x) s)) := by
  simp only [exec_shr, execShr]; exact issueL_ready Shape.shr x _ s h
theorem run_shrL32A (x : ShortA) (s : State) (h : issues (.shrL32A x) s = true) :
    exec (.shrL32A x) s = settle (shortAForm Shape.shrL32A x) s (((x.run2 shrOf) : Body') (past (.shrL32A x) s)) := by
  simp only [exec_shrL32A, execShrL32A]; exact issueA_ready Shape.shrL32A x _ s h
theorem run_shrN64L32B (x : ShortB) (s : State) (h : issues (.shrN64L32B x) s = true) :
    exec (.shrN64L32B x) s = settle (shortBForm Shape.shrN64L32B x) s (((x.run2 7 shrOf) : Body') (past (.shrN64L32B x) s)) := by
  simp only [exec_shrN64L32B, execShrN64L32B]; exact issueB_ready Shape.shrN64L32B x _ s h
theorem run_sha (x : Long) (s : State) (h : issues (.sha x) s = true) :
    exec (.sha x) s = settle (longForm Shape.sha false x) s (((x.run2 shaOf) : Body') (past (.sha x) s)) := by
  simp only [exec_sha, execSha]; exact issueL_ready Shape.sha x _ s h
theorem run_shaL32A (x : ShortA) (s : State) (h : issues (.shaL32A x) s = true) :
    exec (.shaL32A x) s = settle (shortAForm Shape.shaL32A x) s (((x.run2 shaOf) : Body') (past (.shaL32A x) s)) := by
  simp only [exec_shaL32A, execShaL32A]; exact issueA_ready Shape.shaL32A x _ s h
theorem run_shaI64L32B (x : ShortB) (s : State) (h : issues (.shaI64L32B x) s = true) :
    exec (.shaI64L32B x) s = settle (shortBForm Shape.shaI64L32B x) s (((x.run2 3 shaOf) : Body') (past (.shaI64L32B x) s)) := by
  simp only [exec_shaI64L32B, execShaI64L32B]; exact issueB_ready Shape.shaI64L32B x _ s h
theorem run_rol (x : Long) (s : State) (h : issues (.rol x) s = true) :
    exec (.rol x) s = settle (longForm Shape.rol false x) s (((x.run2 rolOf) : Body') (past (.rol x) s)) := by
  simp only [exec_rol, execRol]; exact issueL_ready Shape.rol x _ s h
theorem run_rolL32A (x : ShortA) (s : State) (h : issues (.rolL32A x) s = true) :
    exec (.rolL32A x) s = settle (shortAForm Shape.rolL32A x) s (((x.run2 rolOf) : Body') (past (.rolL32A x) s)) := by
  simp only [exec_rolL32A, execRolL32A]; exact issueA_ready Shape.rolL32A x _ s h
theorem run_rotr (x : Long) (s : State) (h : issues (.rotr x) s = true) :
    exec (.rotr x) s = settle (longForm Shape.rotr false x) s (((x.run2 rotrOf) : Body') (past (.rotr x) s)) := by
  simp only [exec_rotr, execRotr]; exact issueL_ready Shape.rotr x _ s h
theorem run_rotrL32A (x : ShortA) (s : State) (h : issues (.rotrL32A x) s = true) :
    exec (.rotrL32A x) s = settle (shortAForm Shape.rotrL32A x) s (((x.run2 rotrOf) : Body') (past (.rotrL32A x) s)) := by
  simp only [exec_rotrL32A, execRotrL32A]; exact issueA_ready Shape.rotrL32A x _ s h
theorem run_rotrN64L32B (x : ShortB) (s : State) (h : issues (.rotrN64L32B x) s = true) :
    exec (.rotrN64L32B x) s = settle (shortBForm Shape.rotrN64L32B x) s (((x.run2 7 rotrOf) : Body') (past (.rotrN64L32B x) s)) := by
  simp only [exec_rotrN64L32B, execRotrN64L32B]; exact issueB_ready Shape.rotrN64L32B x _ s h
theorem run_clz (x : Long) (s : State) (h : issues (.clz x) s = true) :
    exec (.clz x) s = settle (longForm Shape.clz false x) s (((x.count1 clzOf) : Body') (past (.clz x) s)) := by
  simp only [exec_clz, execClz]; exact issueL_ready Shape.clz x _ s h
theorem run_clzL32A (x : ShortA) (s : State) (h : issues (.clzL32A x) s = true) :
    exec (.clzL32A x) s = settle (shortAForm Shape.clzL32A x) s (((x.count1 clzOf) : Body') (past (.clzL32A x) s)) := by
  simp only [exec_clzL32A, execClzL32A]; exact issueA_ready Shape.clzL32A x _ s h
theorem run_ctz (x : Long) (s : State) (h : issues (.ctz x) s = true) :
    exec (.ctz x) s = settle (longForm Shape.ctz false x) s (((x.count1 ctzOf) : Body') (past (.ctz x) s)) := by
  simp only [exec_ctz, execCtz]; exact issueL_ready Shape.ctz x _ s h
theorem run_ctzL32A (x : ShortA) (s : State) (h : issues (.ctzL32A x) s = true) :
    exec (.ctzL32A x) s = settle (shortAForm Shape.ctzL32A x) s (((x.count1 ctzOf) : Body') (past (.ctzL32A x) s)) := by
  simp only [exec_ctzL32A, execCtzL32A]; exact issueA_ready Shape.ctzL32A x _ s h
theorem run_popc (x : Long) (s : State) (h : issues (.popc x) s = true) :
    exec (.popc x) s = settle (longForm Shape.popc false x) s (((x.count1 popcOf) : Body') (past (.popc x) s)) := by
  simp only [exec_popc, execPopc]; exact issueL_ready Shape.popc x _ s h
theorem run_popcL32A (x : ShortA) (s : State) (h : issues (.popcL32A x) s = true) :
    exec (.popcL32A x) s = settle (shortAForm Shape.popcL32A x) s (((x.count1 popcOf) : Body') (past (.popcL32A x) s)) := by
  simp only [exec_popcL32A, execPopcL32A]; exact issueA_ready Shape.popcL32A x _ s h
theorem run_brev (x : Long) (s : State) (h : issues (.brev x) s = true) :
    exec (.brev x) s = settle (longForm Shape.brev false x) s (((x.run1 brevOf) : Body') (past (.brev x) s)) := by
  simp only [exec_brev, execBrev]; exact issueL_ready Shape.brev x _ s h
theorem run_brevL32A (x : ShortA) (s : State) (h : issues (.brevL32A x) s = true) :
    exec (.brevL32A x) s = settle (shortAForm Shape.brevL32A x) s (((x.run1 brevOf) : Body') (past (.brevL32A x) s)) := by
  simp only [exec_brevL32A, execBrevL32A]; exact issueA_ready Shape.brevL32A x _ s h
theorem run_bswap (x : Long) (s : State) (h : issues (.bswap x) s = true) :
    exec (.bswap x) s = settle (longForm Shape.bswap false x) s (((x.run1 bswapOf) : Body') (past (.bswap x) s)) := by
  simp only [exec_bswap, execBswap]; exact issueL_ready Shape.bswap x _ s h
theorem run_bswapL32A (x : ShortA) (s : State) (h : issues (.bswapL32A x) s = true) :
    exec (.bswapL32A x) s = settle (shortAForm Shape.bswapL32A x) s (((x.run1 bswapOf) : Body') (past (.bswapL32A x) s)) := by
  simp only [exec_bswapL32A, execBswapL32A]; exact issueA_ready Shape.bswapL32A x _ s h
theorem run_min (x : Long) (s : State) (h : issues (.min x) s = true) :
    exec (.min x) s = settle (longForm Shape.min false x) s (((x.run2 minOfTwo) : Body') (past (.min x) s)) := by
  simp only [exec_min, execMin]; exact issueL_ready Shape.min x _ s h
theorem run_minL32A (x : ShortA) (s : State) (h : issues (.minL32A x) s = true) :
    exec (.minL32A x) s = settle (shortAForm Shape.minL32A x) s (((x.run2 minOfTwo) : Body') (past (.minL32A x) s)) := by
  simp only [exec_minL32A, execMinL32A]; exact issueA_ready Shape.minL32A x _ s h
theorem run_minI64L32B (x : ShortB) (s : State) (h : issues (.minI64L32B x) s = true) :
    exec (.minI64L32B x) s = settle (shortBForm Shape.minI64L32B x) s (((x.run2 3 minOfTwo) : Body') (past (.minI64L32B x) s)) := by
  simp only [exec_minI64L32B, execMinI64L32B]; exact issueB_ready Shape.minI64L32B x _ s h
theorem run_max (x : Long) (s : State) (h : issues (.max x) s = true) :
    exec (.max x) s = settle (longForm Shape.max false x) s (((x.run2 maxOfTwo) : Body') (past (.max x) s)) := by
  simp only [exec_max, execMax]; exact issueL_ready Shape.max x _ s h
theorem run_maxL32A (x : ShortA) (s : State) (h : issues (.maxL32A x) s = true) :
    exec (.maxL32A x) s = settle (shortAForm Shape.maxL32A x) s (((x.run2 maxOfTwo) : Body') (past (.maxL32A x) s)) := by
  simp only [exec_maxL32A, execMaxL32A]; exact issueA_ready Shape.maxL32A x _ s h
theorem run_maxI64L32B (x : ShortB) (s : State) (h : issues (.maxI64L32B x) s = true) :
    exec (.maxI64L32B x) s = settle (shortBForm Shape.maxI64L32B x) s (((x.run2 3 maxOfTwo) : Body') (past (.maxI64L32B x) s)) := by
  simp only [exec_maxI64L32B, execMaxI64L32B]; exact issueB_ready Shape.maxI64L32B x _ s h
theorem run_minn (x : Long) (s : State) (h : issues (.minn x) s = true) :
    exec (.minn x) s = settle (longForm Shape.minn false x) s (((x.run2 minOfTwo) : Body') (past (.minn x) s)) := by
  simp only [exec_minn, execMinn]; exact issueL_ready Shape.minn x _ s h
theorem run_minnL32A (x : ShortA) (s : State) (h : issues (.minnL32A x) s = true) :
    exec (.minnL32A x) s = settle (shortAForm Shape.minnL32A x) s (((x.run2 minOfTwo) : Body') (past (.minnL32A x) s)) := by
  simp only [exec_minnL32A, execMinnL32A]; exact issueA_ready Shape.minnL32A x _ s h
theorem run_minnN64L32B (x : ShortB) (s : State) (h : issues (.minnN64L32B x) s = true) :
    exec (.minnN64L32B x) s = settle (shortBForm Shape.minnN64L32B x) s (((x.run2 7 minOfTwo) : Body') (past (.minnN64L32B x) s)) := by
  simp only [exec_minnN64L32B, execMinnN64L32B]; exact issueB_ready Shape.minnN64L32B x _ s h
theorem run_maxn (x : Long) (s : State) (h : issues (.maxn x) s = true) :
    exec (.maxn x) s = settle (longForm Shape.maxn false x) s (((x.run2 maxOfTwo) : Body') (past (.maxn x) s)) := by
  simp only [exec_maxn, execMaxn]; exact issueL_ready Shape.maxn x _ s h
theorem run_maxnL32A (x : ShortA) (s : State) (h : issues (.maxnL32A x) s = true) :
    exec (.maxnL32A x) s = settle (shortAForm Shape.maxnL32A x) s (((x.run2 maxOfTwo) : Body') (past (.maxnL32A x) s)) := by
  simp only [exec_maxnL32A, execMaxnL32A]; exact issueA_ready Shape.maxnL32A x _ s h
theorem run_maxnN64L32B (x : ShortB) (s : State) (h : issues (.maxnN64L32B x) s = true) :
    exec (.maxnN64L32B x) s = settle (shortBForm Shape.maxnN64L32B x) s (((x.run2 7 maxOfTwo) : Body') (past (.maxnN64L32B x) s)) := by
  simp only [exec_maxnN64L32B, execMaxnN64L32B]; exact issueB_ready Shape.maxnN64L32B x _ s h
theorem run_abs (x : Long) (s : State) (h : issues (.abs x) s = true) :
    exec (.abs x) s = settle (longForm Shape.abs false x) s (((x.run1 absOf) : Body') (past (.abs x) s)) := by
  simp only [exec_abs, execAbs]; exact issueL_ready Shape.abs x _ s h
theorem run_absL32A (x : ShortA) (s : State) (h : issues (.absL32A x) s = true) :
    exec (.absL32A x) s = settle (shortAForm Shape.absL32A x) s (((x.run1 absOf) : Body') (past (.absL32A x) s)) := by
  simp only [exec_absL32A, execAbsL32A]; exact issueA_ready Shape.absL32A x _ s h
theorem run_bfx (x : Long) (s : State) (h : issues (.bfx x) s = true) :
    exec (.bfx x) s = settle (longForm Shape.bfx false x) s (((fun s => do
  let a ← x.srcA s
  let f ← x.srcB s
  let d ← x.dst s
  fieldCheck f
  return s.setG d (bfxOf x.opType a f)) : Body') (past (.bfx x) s)) := by
  simp only [exec_bfx, execBfx]; exact issueL_ready Shape.bfx x _ s h
theorem run_bfxN64L32B (x : ShortB) (s : State) (h : issues (.bfxN64L32B x) s = true) :
    exec (.bfxN64L32B x) s = settle (shortBForm Shape.bfxN64L32B x) s (((fun s => .ok (s.setG x.d.toNat (bfxOf 7 (s.g x.a.toNat).toNat x.imm.toNat))) : Body') (past (.bfxN64L32B x) s)) := by
  simp only [exec_bfxN64L32B, execBfxN64L32B]; exact issueB_ready Shape.bfxN64L32B x _ s h
theorem run_bfxI64L32B (x : ShortB) (s : State) (h : issues (.bfxI64L32B x) s = true) :
    exec (.bfxI64L32B x) s = settle (shortBForm Shape.bfxI64L32B x) s (((fun s => .ok (s.setG x.d.toNat (bfxOf 3 (s.g x.a.toNat).toNat x.imm.toNat))) : Body') (past (.bfxI64L32B x) s)) := by
  simp only [exec_bfxI64L32B, execBfxI64L32B]; exact issueB_ready Shape.bfxI64L32B x _ s h
theorem run_bfi (x : Long) (s : State) (h : issues (.bfi x) s = true) :
    exec (.bfi x) s = settle (longForm Shape.bfi false x) s (((fun s => do
  let a ← x.srcA s
  let f ← x.srcB s
  let d ← x.dst s
  fieldCheck f
  return s.setG d (bfiOf (s.g d).toNat a f)) : Body') (past (.bfi x) s)) := by
  simp only [exec_bfi, execBfi]; exact issueL_ready Shape.bfi x _ s h
theorem run_sel (x : Long) (s : State) (h : issues (.sel x) s = true) :
    exec (.sel x) s = settle (longForm Shape.sel false x) s (((fun s => do
  let a ← x.srcA s
  let b ← if x.wide && x.form == 1 then .ok (x.lit.signExtend 64).toNat else x.srcB s
  let d ← x.dst s
  return s.setG d (BitVec.ofNat 64 (if (s.p x.c.toNat).getLsbD 0 then a else b))) : Body') (past (.sel x) s)) := by
  simp only [exec_sel, execSel]; exact issueL_ready Shape.sel x _ s h
theorem run_cmp (x : Long) (s : State) (h : issues (.cmp x) s = true) :
    exec (.cmp x) s = settle (longForm Shape.cmp false x) s ((x.compare : Body') (past (.cmp x) s)) := by
  simp only [exec_cmp, execCmp]; exact issueL_ready Shape.cmp x _ s h
theorem run_cmpEqI64L32B (x : ShortB) (s : State) (h : issues (.cmpEqI64L32B x) s = true) :
    exec (.cmpEqI64L32B x) s = settle (shortBForm Shape.cmpEqI64L32B x) s (((fun s => .ok (s.setCmp x.d.toNat 3 0 (s.g x.a.toNat).toNat (imm12 x.imm))) : Body') (past (.cmpEqI64L32B x) s)) := by
  simp only [exec_cmpEqI64L32B, execCmpEqI64L32B]; exact issueB_ready Shape.cmpEqI64L32B x _ s h
theorem run_cmpNeI64L32B (x : ShortB) (s : State) (h : issues (.cmpNeI64L32B x) s = true) :
    exec (.cmpNeI64L32B x) s = settle (shortBForm Shape.cmpNeI64L32B x) s (((fun s => .ok (s.setCmp x.d.toNat 3 1 (s.g x.a.toNat).toNat (imm12 x.imm))) : Body') (past (.cmpNeI64L32B x) s)) := by
  simp only [exec_cmpNeI64L32B, execCmpNeI64L32B]; exact issueB_ready Shape.cmpNeI64L32B x _ s h
theorem run_cmpLtI64L32B (x : ShortB) (s : State) (h : issues (.cmpLtI64L32B x) s = true) :
    exec (.cmpLtI64L32B x) s = settle (shortBForm Shape.cmpLtI64L32B x) s (((fun s => .ok (s.setCmp x.d.toNat 3 2 (s.g x.a.toNat).toNat (imm12 x.imm))) : Body') (past (.cmpLtI64L32B x) s)) := by
  simp only [exec_cmpLtI64L32B, execCmpLtI64L32B]; exact issueB_ready Shape.cmpLtI64L32B x _ s h
theorem run_cmpLeI64L32B (x : ShortB) (s : State) (h : issues (.cmpLeI64L32B x) s = true) :
    exec (.cmpLeI64L32B x) s = settle (shortBForm Shape.cmpLeI64L32B x) s (((fun s => .ok (s.setCmp x.d.toNat 3 3 (s.g x.a.toNat).toNat (imm12 x.imm))) : Body') (past (.cmpLeI64L32B x) s)) := by
  simp only [exec_cmpLeI64L32B, execCmpLeI64L32B]; exact issueB_ready Shape.cmpLeI64L32B x _ s h
theorem run_cmpGtI64L32B (x : ShortB) (s : State) (h : issues (.cmpGtI64L32B x) s = true) :
    exec (.cmpGtI64L32B x) s = settle (shortBForm Shape.cmpGtI64L32B x) s (((fun s => .ok (s.setCmp x.d.toNat 3 4 (s.g x.a.toNat).toNat (imm12 x.imm))) : Body') (past (.cmpGtI64L32B x) s)) := by
  simp only [exec_cmpGtI64L32B, execCmpGtI64L32B]; exact issueB_ready Shape.cmpGtI64L32B x _ s h
theorem run_cmpGeI64L32B (x : ShortB) (s : State) (h : issues (.cmpGeI64L32B x) s = true) :
    exec (.cmpGeI64L32B x) s = settle (shortBForm Shape.cmpGeI64L32B x) s (((fun s => .ok (s.setCmp x.d.toNat 3 5 (s.g x.a.toNat).toNat (imm12 x.imm))) : Body') (past (.cmpGeI64L32B x) s)) := by
  simp only [exec_cmpGeI64L32B, execCmpGeI64L32B]; exact issueB_ready Shape.cmpGeI64L32B x _ s h
theorem run_cmpLtN64L32B (x : ShortB) (s : State) (h : issues (.cmpLtN64L32B x) s = true) :
    exec (.cmpLtN64L32B x) s = settle (shortBForm Shape.cmpLtN64L32B x) s (((fun s => .ok (s.setCmp x.d.toNat 7 2 (s.g x.a.toNat).toNat (imm12 x.imm))) : Body') (past (.cmpLtN64L32B x) s)) := by
  simp only [exec_cmpLtN64L32B, execCmpLtN64L32B]; exact issueB_ready Shape.cmpLtN64L32B x _ s h
theorem run_cmpLeN64L32B (x : ShortB) (s : State) (h : issues (.cmpLeN64L32B x) s = true) :
    exec (.cmpLeN64L32B x) s = settle (shortBForm Shape.cmpLeN64L32B x) s (((fun s => .ok (s.setCmp x.d.toNat 7 3 (s.g x.a.toNat).toNat (imm12 x.imm))) : Body') (past (.cmpLeN64L32B x) s)) := by
  simp only [exec_cmpLeN64L32B, execCmpLeN64L32B]; exact issueB_ready Shape.cmpLeN64L32B x _ s h
theorem run_cmpGtN64L32B (x : ShortB) (s : State) (h : issues (.cmpGtN64L32B x) s = true) :
    exec (.cmpGtN64L32B x) s = settle (shortBForm Shape.cmpGtN64L32B x) s (((fun s => .ok (s.setCmp x.d.toNat 7 4 (s.g x.a.toNat).toNat (imm12 x.imm))) : Body') (past (.cmpGtN64L32B x) s)) := by
  simp only [exec_cmpGtN64L32B, execCmpGtN64L32B]; exact issueB_ready Shape.cmpGtN64L32B x _ s h
theorem run_cmpGeN64L32B (x : ShortB) (s : State) (h : issues (.cmpGeN64L32B x) s = true) :
    exec (.cmpGeN64L32B x) s = settle (shortBForm Shape.cmpGeN64L32B x) s (((fun s => .ok (s.setCmp x.d.toNat 7 5 (s.g x.a.toNat).toNat (imm12 x.imm))) : Body') (past (.cmpGeN64L32B x) s)) := by
  simp only [exec_cmpGeN64L32B, execCmpGeN64L32B]; exact issueB_ready Shape.cmpGeN64L32B x _ s h
theorem run_mov (x : Long) (s : State) (h : issues (.mov x) s = true) :
    exec (.mov x) s = settle (longForm Shape.mov false x) s (((fun s => do
  let a ← x.srcA s
  let d ← x.dst s
  return s.setG d (BitVec.ofNat 64 a)) : Body') (past (.mov x) s)) := by
  simp only [exec_mov, execMov]; exact issueL_ready Shape.mov x _ s h
theorem run_movL32A (x : ShortA) (s : State) (h : issues (.movL32A x) s = true) :
    exec (.movL32A x) s = settle (shortAForm Shape.movL32A x) s (((fun s => .ok (s.setG x.d.toNat (s.g x.a.toNat))) : Body') (past (.movL32A x) s)) := by
  simp only [exec_movL32A, execMovL32A]; exact issueA_ready Shape.movL32A x _ s h
theorem run_movRelSrcL32B (x : ShortB) (s : State) (h : issues (.movRelSrcL32B x) s = true) :
    exec (.movRelSrcL32B x) s = settle (shortBForm Shape.movRelSrcL32B x) s (((fun s => do
  let n ← s.relative x.a x.imm.toInt
  return s.setG x.d.toNat (s.g n)) : Body') (past (.movRelSrcL32B x) s)) := by
  simp only [exec_movRelSrcL32B, execMovRelSrcL32B]; exact issueB_ready Shape.movRelSrcL32B x _ s h
theorem run_movRelDstL32B (x : ShortB) (s : State) (h : issues (.movRelDstL32B x) s = true) :
    exec (.movRelDstL32B x) s = settle (shortBForm Shape.movRelDstL32B x) s (((fun s => do
  let n ← s.relative x.d x.imm.toInt
  return s.setG n (s.g x.a.toNat)) : Body') (past (.movRelDstL32B x) s)) := by
  simp only [exec_movRelDstL32B, execMovRelDstL32B]; exact issueB_ready Shape.movRelDstL32B x _ s h
theorem run_li (x : Long) (s : State) (h : issues (.li x) s = true) :
    exec (.li x) s = settle (longForm Shape.li false x) s (((fun s => do
  let b ← x.srcB s
  return s.setG x.d.toNat (extend x.opType b)) : Body') (past (.li x) s)) := by
  simp only [exec_li, execLi]; exact issueL_ready Shape.li x _ s h
theorem run_liI64L32B (x : ShortB) (s : State) (h : issues (.liI64L32B x) s = true) :
    exec (.liI64L32B x) s = settle (shortBForm Shape.liI64L32B x) s (((fun s => .ok (s.setG x.d.toNat (x.imm.signExtend 64))) : Body') (past (.liI64L32B x) s)) := by
  simp only [exec_liI64L32B, execLiI64L32B]; exact issueB_ready Shape.liI64L32B x _ s h
theorem run_lih (x : Long) (s : State) (h : issues (.lih x) s = true) :
    exec (.lih x) s = settle (longForm Shape.lih false x) s (((fun s => do
  let a ← x.srcA s
  let d ← x.dst s
  if x.form = 1 then
    return s.setG d (if x.wide then BitVec.ofNat 64 (a * 2 ^ 32) ||| x.lit.zeroExtend 64
                     else BitVec.ofNat 64 (a * 2 ^ 12) ||| x.hi.zeroExtend 64)
  let b ← x.srcB s
  return s.setG d (BitVec.ofNat 64 (a * 2 ^ 32) ||| BitVec.ofNat 64 (b % 2 ^ 32))) : Body') (past (.lih x) s)) := by
  simp only [exec_lih, execLih]; exact issueL_ready Shape.lih x _ s h
theorem run_lihL32B (x : ShortB) (s : State) (h : issues (.lihL32B x) s = true) :
    exec (.lihL32B x) s = settle (shortBForm Shape.lihL32B x) s (((fun s => .ok (s.setG x.d.toNat (s.g x.a.toNat <<< 12 ||| x.imm.zeroExtend 64))) : Body') (past (.lihL32B x) s)) := by
  simp only [exec_lihL32B, execLihL32B]; exact issueB_ready Shape.lihL32B x _ s h
theorem run_fadd (x : Long) (s : State) (h : issues (.fadd x) s = true) :
    exec (.fadd x) s = settle (longForm Shape.fadd false x) s (((x.run2 elemAdd) : Body') (past (.fadd x) s)) := by
  simp only [exec_fadd, execFadd]; exact issueL_ready Shape.fadd x _ s h
theorem run_faddL32A (x : ShortA) (s : State) (h : issues (.faddL32A x) s = true) :
    exec (.faddL32A x) s = settle (shortAForm Shape.faddL32A x) s (((x.run2 elemAdd) : Body') (past (.faddL32A x) s)) := by
  simp only [exec_faddL32A, execFaddL32A]; exact issueA_ready Shape.faddL32A x _ s h
theorem run_fsub (x : Long) (s : State) (h : issues (.fsub x) s = true) :
    exec (.fsub x) s = settle (longForm Shape.fsub false x) s (((x.run2 elemSub) : Body') (past (.fsub x) s)) := by
  simp only [exec_fsub, execFsub]; exact issueL_ready Shape.fsub x _ s h
theorem run_fsubL32A (x : ShortA) (s : State) (h : issues (.fsubL32A x) s = true) :
    exec (.fsubL32A x) s = settle (shortAForm Shape.fsubL32A x) s (((x.run2 elemSub) : Body') (past (.fsubL32A x) s)) := by
  simp only [exec_fsubL32A, execFsubL32A]; exact issueA_ready Shape.fsubL32A x _ s h
theorem run_fmul (x : Long) (s : State) (h : issues (.fmul x) s = true) :
    exec (.fmul x) s = settle (longForm Shape.fmul false x) s (((x.run2 elemMul) : Body') (past (.fmul x) s)) := by
  simp only [exec_fmul, execFmul]; exact issueL_ready Shape.fmul x _ s h
theorem run_fmulL32A (x : ShortA) (s : State) (h : issues (.fmulL32A x) s = true) :
    exec (.fmulL32A x) s = settle (shortAForm Shape.fmulL32A x) s (((x.run2 elemMul) : Body') (past (.fmulL32A x) s)) := by
  simp only [exec_fmulL32A, execFmulL32A]; exact issueA_ready Shape.fmulL32A x _ s h
theorem run_ffma (x : Long) (s : State) (h : issues (.ffma x) s = true) :
    exec (.ffma x) s = settle (longForm Shape.ffma false x) s (((x.run3 fmaOf) : Body') (past (.ffma x) s)) := by
  simp only [exec_ffma, execFfma]; exact issueL_ready Shape.ffma x _ s h
theorem run_ffms (x : Long) (s : State) (h : issues (.ffms x) s = true) :
    exec (.ffms x) s = settle (longForm Shape.ffms false x) s (((x.run3 fmsOf) : Body') (past (.ffms x) s)) := by
  simp only [exec_ffms, execFfms]; exact issueL_ready Shape.ffms x _ s h
theorem run_fdiv (x : Long) (s : State) (h : issues (.fdiv x) s = true) :
    exec (.fdiv x) s = settle (longForm Shape.fdiv false x) s (((x.run2 fdivOf) : Body') (past (.fdiv x) s)) := by
  simp only [exec_fdiv, execFdiv]; exact issueL_ready Shape.fdiv x _ s h
theorem run_fdivL32A (x : ShortA) (s : State) (h : issues (.fdivL32A x) s = true) :
    exec (.fdivL32A x) s = settle (shortAForm Shape.fdivL32A x) s (((x.run2 fdivOf) : Body') (past (.fdivL32A x) s)) := by
  simp only [exec_fdivL32A, execFdivL32A]; exact issueA_ready Shape.fdivL32A x _ s h
theorem run_fsqrt (x : Long) (s : State) (h : issues (.fsqrt x) s = true) :
    exec (.fsqrt x) s = settle (longForm Shape.fsqrt false x) s (((x.run1 fsqrtOf) : Body') (past (.fsqrt x) s)) := by
  simp only [exec_fsqrt, execFsqrt]; exact issueL_ready Shape.fsqrt x _ s h
theorem run_fsqrtL32A (x : ShortA) (s : State) (h : issues (.fsqrtL32A x) s = true) :
    exec (.fsqrtL32A x) s = settle (shortAForm Shape.fsqrtL32A x) s (((x.run1 fsqrtOf) : Body') (past (.fsqrtL32A x) s)) := by
  simp only [exec_fsqrtL32A, execFsqrtL32A]; exact issueA_ready Shape.fsqrtL32A x _ s h
theorem run_fmin (x : Long) (s : State) (h : issues (.fmin x) s = true) :
    exec (.fmin x) s = settle (longForm Shape.fmin false x) s (((x.run2 fminOf) : Body') (past (.fmin x) s)) := by
  simp only [exec_fmin, execFmin]; exact issueL_ready Shape.fmin x _ s h
theorem run_fminL32A (x : ShortA) (s : State) (h : issues (.fminL32A x) s = true) :
    exec (.fminL32A x) s = settle (shortAForm Shape.fminL32A x) s (((x.run2 fminOf) : Body') (past (.fminL32A x) s)) := by
  simp only [exec_fminL32A, execFminL32A]; exact issueA_ready Shape.fminL32A x _ s h
theorem run_fmax (x : Long) (s : State) (h : issues (.fmax x) s = true) :
    exec (.fmax x) s = settle (longForm Shape.fmax false x) s (((x.run2 fmaxOf) : Body') (past (.fmax x) s)) := by
  simp only [exec_fmax, execFmax]; exact issueL_ready Shape.fmax x _ s h
theorem run_fmaxL32A (x : ShortA) (s : State) (h : issues (.fmaxL32A x) s = true) :
    exec (.fmaxL32A x) s = settle (shortAForm Shape.fmaxL32A x) s (((x.run2 fmaxOf) : Body') (past (.fmaxL32A x) s)) := by
  simp only [exec_fmaxL32A, execFmaxL32A]; exact issueA_ready Shape.fmaxL32A x _ s h
theorem run_fabs (x : Long) (s : State) (h : issues (.fabs x) s = true) :
    exec (.fabs x) s = settle (longForm Shape.fabs false x) s (((x.run1 fabsOf) : Body') (past (.fabs x) s)) := by
  simp only [exec_fabs, execFabs]; exact issueL_ready Shape.fabs x _ s h
theorem run_fabsL32A (x : ShortA) (s : State) (h : issues (.fabsL32A x) s = true) :
    exec (.fabsL32A x) s = settle (shortAForm Shape.fabsL32A x) s (((x.run1 fabsOf) : Body') (past (.fabsL32A x) s)) := by
  simp only [exec_fabsL32A, execFabsL32A]; exact issueA_ready Shape.fabsL32A x _ s h
theorem run_fneg (x : Long) (s : State) (h : issues (.fneg x) s = true) :
    exec (.fneg x) s = settle (longForm Shape.fneg false x) s (((x.run1 fnegOf) : Body') (past (.fneg x) s)) := by
  simp only [exec_fneg, execFneg]; exact issueL_ready Shape.fneg x _ s h
theorem run_fnegL32A (x : ShortA) (s : State) (h : issues (.fnegL32A x) s = true) :
    exec (.fnegL32A x) s = settle (shortAForm Shape.fnegL32A x) s (((x.run1 fnegOf) : Body') (past (.fnegL32A x) s)) := by
  simp only [exec_fnegL32A, execFnegL32A]; exact issueA_ready Shape.fnegL32A x _ s h
theorem run_fcpys (x : Long) (s : State) (h : issues (.fcpys x) s = true) :
    exec (.fcpys x) s = settle (longForm Shape.fcpys false x) s (((x.run2 fcpysOf) : Body') (past (.fcpys x) s)) := by
  simp only [exec_fcpys, execFcpys]; exact issueL_ready Shape.fcpys x _ s h
theorem run_fcpysL32A (x : ShortA) (s : State) (h : issues (.fcpysL32A x) s = true) :
    exec (.fcpysL32A x) s = settle (shortAForm Shape.fcpysL32A x) s (((x.run2 fcpysOf) : Body') (past (.fcpysL32A x) s)) := by
  simp only [exec_fcpysL32A, execFcpysL32A]; exact issueA_ready Shape.fcpysL32A x _ s h
theorem run_fcmp (x : Long) (s : State) (h : issues (.fcmp x) s = true) :
    exec (.fcmp x) s = settle (longForm Shape.fcmp false x) s ((x.compare : Body') (past (.fcmp x) s)) := by
  simp only [exec_fcmp, execFcmp]; exact issueL_ready Shape.fcmp x _ s h
theorem run_fclass (x : Long) (s : State) (h : issues (.fclass x) s = true) :
    exec (.fclass x) s = settle (longForm Shape.fclass false x) s (((x.count1 fclassOf) : Body') (past (.fclass x) s)) := by
  simp only [exec_fclass, execFclass]; exact issueL_ready Shape.fclass x _ s h
theorem run_fclassL32A (x : ShortA) (s : State) (h : issues (.fclassL32A x) s = true) :
    exec (.fclassL32A x) s = settle (shortAForm Shape.fclassL32A x) s (((x.count1 fclassOf) : Body') (past (.fclassL32A x) s)) := by
  simp only [exec_fclassL32A, execFclassL32A]; exact issueA_ready Shape.fclassL32A x _ s h
theorem run_fcvt (x : Long) (s : State) (h : issues (.fcvt x) s = true) :
    exec (.fcvt x) s = settle (longForm Shape.fcvt false x) s (((x.run1 (fun t rm _ a => elemCvt t (x.c.extractLsb' 0 4) rm false a)) : Body') (past (.fcvt x) s)) := by
  simp only [exec_fcvt, execFcvt]; exact issueL_ready Shape.fcvt x _ s h
theorem run_fcvti (x : Long) (s : State) (h : issues (.fcvti x) s = true) :
    exec (.fcvti x) s = settle (longForm Shape.fcvti false x) s (((x.run1 (fun t rm _ a => elemCvt t (x.c.extractLsb' 0 4) rm false a)) : Body') (past (.fcvti x) s)) := by
  simp only [exec_fcvti, execFcvti]; exact issueL_ready Shape.fcvti x _ s h
theorem run_icvtf (x : Long) (s : State) (h : issues (.icvtf x) s = true) :
    exec (.icvtf x) s = settle (longForm Shape.icvtf false x) s (((x.run1 (fun t rm _ a => elemCvt t (x.c.extractLsb' 0 4) rm false a)) : Body') (past (.icvtf x) s)) := by
  simp only [exec_icvtf, execIcvtf]; exact issueL_ready Shape.icvtf x _ s h
theorem run_frnd (x : Long) (s : State) (h : issues (.frnd x) s = true) :
    exec (.frnd x) s = settle (longForm Shape.frnd false x) s (((x.run1 frndOf) : Body') (past (.frnd x) s)) := by
  simp only [exec_frnd, execFrnd]; exact issueL_ready Shape.frnd x _ s h
theorem run_frndL32A (x : ShortA) (s : State) (h : issues (.frndL32A x) s = true) :
    exec (.frndL32A x) s = settle (shortAForm Shape.frndL32A x) s (((x.run1 frndOf) : Body') (past (.frndL32A x) s)) := by
  simp only [exec_frndL32A, execFrndL32A]; exact issueA_ready Shape.frndL32A x _ s h
theorem run_br (x : Long) (s : State) (h : issues (.br x) s = true) :
    exec (.br x) s = settle (longForm Shape.br false x) s (((fun s =>
  .ok (if (s.p x.a.toNat).getLsbD 0 != x.sub.getLsbD 0 then s.branch x.bytes x.offset else s)) : Body') (past (.br x) s)) := by
  simp only [exec_br, execBr]; exact issueL_ready Shape.br x _ s h
theorem run_brL32B (x : ShortB) (s : State) (h : issues (.brL32B x) s = true) :
    exec (.brL32B x) s = settle (shortBForm Shape.brL32B x) s (((fun s =>
  .ok (if (s.p x.a.toNat).getLsbD 0 then s.branch 4 x.imm.toInt else s)) : Body') (past (.brL32B x) s)) := by
  simp only [exec_brL32B, execBrL32B]; exact issueB_ready Shape.brL32B x _ s h
theorem run_brNotL32B (x : ShortB) (s : State) (h : issues (.brNotL32B x) s = true) :
    exec (.brNotL32B x) s = settle (shortBForm Shape.brNotL32B x) s (((fun s =>
  .ok (if (s.p x.a.toNat).getLsbD 0 then s else s.branch 4 x.imm.toInt)) : Body') (past (.brNotL32B x) s)) := by
  simp only [exec_brNotL32B, execBrNotL32B]; exact issueB_ready Shape.brNotL32B x _ s h
theorem run_jmp (x : Long) (s : State) (h : issues (.jmp x) s = true) :
    exec (.jmp x) s = settle (longForm Shape.jmp false x) s (((fun s => .ok (s.branch x.bytes x.offset)) : Body') (past (.jmp x) s)) := by
  simp only [exec_jmp, execJmp]; exact issueL_ready Shape.jmp x _ s h
theorem run_jmpL32A (x : ShortA) (s : State) (h : issues (.jmpL32A x) s = true) :
    exec (.jmpL32A x) s = settle (shortAForm Shape.jmpL32A x) s (((fun s => .ok (s.branch 4 (x.sub ++ x.b ++ x.a ++ x.d : BitVec 22).toInt)) : Body') (past (.jmpL32A x) s)) := by
  simp only [exec_jmpL32A, execJmpL32A]; exact issueA_ready Shape.jmpL32A x _ s h
theorem run_jmpi (x : Long) (s : State) (h : issues (.jmpi x) s = true) :
    exec (.jmpi x) s = settle (longForm Shape.jmpi false x) s (((fun s => s.jumpTo (s.g x.a.toNat)) : Body') (past (.jmpi x) s)) := by
  simp only [exec_jmpi, execJmpi]; exact issueL_ready Shape.jmpi x _ s h
theorem run_jmpiL32A (x : ShortA) (s : State) (h : issues (.jmpiL32A x) s = true) :
    exec (.jmpiL32A x) s = settle (shortAForm Shape.jmpiL32A x) s (((fun s => s.jumpTo (s.g x.a.toNat)) : Body') (past (.jmpiL32A x) s)) := by
  simp only [exec_jmpiL32A, execJmpiL32A]; exact issueA_ready Shape.jmpiL32A x _ s h
theorem run_call (x : Long) (s : State) (h : issues (.call x) s = true) :
    exec (.call x) s = settle (longForm Shape.call false x) s (((fun s =>
  .ok ((s.setG x.d.toNat s.core.regs.pc).branch x.bytes x.offset)) : Body') (past (.call x) s)) := by
  simp only [exec_call, execCall]; exact issueL_ready Shape.call x _ s h
theorem run_callL32B (x : ShortB) (s : State) (h : issues (.callL32B x) s = true) :
    exec (.callL32B x) s = settle (shortBForm Shape.callL32B x) s (((fun s =>
  .ok ((s.setG x.d.toNat s.core.regs.pc).branch 4 x.imm.toInt)) : Body') (past (.callL32B x) s)) := by
  simp only [exec_callL32B, execCallL32B]; exact issueB_ready Shape.callL32B x _ s h
theorem run_calli (x : Long) (s : State) (h : issues (.calli x) s = true) :
    exec (.calli x) s = settle (longForm Shape.calli false x) s (((fun s => (s.setG x.d.toNat s.core.regs.pc).jumpTo (s.g x.a.toNat)) : Body') (past (.calli x) s)) := by
  simp only [exec_calli, execCalli]; exact issueL_ready Shape.calli x _ s h
theorem run_calliL32A (x : ShortA) (s : State) (h : issues (.calliL32A x) s = true) :
    exec (.calliL32A x) s = settle (shortAForm Shape.calliL32A x) s (((fun s => (s.setG x.d.toNat s.core.regs.pc).jumpTo (s.g x.a.toNat)) : Body') (past (.calliL32A x) s)) := by
  simp only [exec_calliL32A, execCalliL32A]; exact issueA_ready Shape.calliL32A x _ s h
theorem run_ret (x : Long) (s : State) (h : issues (.ret x) s = true) :
    exec (.ret x) s = settle (longForm Shape.ret false x) s (((fun s => s.jumpTo (s.g x.a.toNat)) : Body') (past (.ret x) s)) := by
  simp only [exec_ret, execRet]; exact issueL_ready Shape.ret x _ s h
theorem run_retL32A (x : ShortA) (s : State) (h : issues (.retL32A x) s = true) :
    exec (.retL32A x) s = settle (shortAForm Shape.retL32A x) s (((fun s => s.jumpTo (s.g x.a.toNat)) : Body') (past (.retL32A x) s)) := by
  simp only [exec_retL32A, execRetL32A]; exact issueA_ready Shape.retL32A x _ s h
theorem run_loops (x : Long) (s : State) (h : issues (.loops x) s = true) :
    exec (.loops x) s = settle (longForm Shape.loops false x) s (((fun s =>
  let t := s.setG x.d.toNat (s.g x.d.toNat - 1)
  .ok (if t.g x.d.toNat ≠ 0 then t.branch x.bytes x.offset else t)) : Body') (past (.loops x) s)) := by
  simp only [exec_loops, execLoops]; exact issueL_ready Shape.loops x _ s h
theorem run_endI (x : Long) (s : State) (h : issues (.endI x) s = true) :
    exec (.endI x) s = settle (longForm Shape.endI false x) s (((fun s => .ok (s.endAct s.core.psn)) : Body') (past (.endI x) s)) := by
  simp only [exec_endI, execEnd]; exact issueL_ready Shape.endI x _ s h
theorem run_endL32A (x : ShortA) (s : State) (h : issues (.endL32A x) s = true) :
    exec (.endL32A x) s = settle (shortAForm Shape.endL32A x) s (((fun s => .ok (s.endAct s.core.psn)) : Body') (past (.endL32A x) s)) := by
  simp only [exec_endL32A, execEndL32A]; exact issueA_ready Shape.endL32A x _ s h
theorem run_nop (x : Long) (s : State) (h : issues (.nop x) s = true) :
    exec (.nop x) s = settle (longForm Shape.nop false x) s (((fun s => .ok s) : Body') (past (.nop x) s)) := by
  simp only [exec_nop, execNop]; exact issueL_ready Shape.nop x _ s h
theorem run_nopL32A (x : ShortA) (s : State) (h : issues (.nopL32A x) s = true) :
    exec (.nopL32A x) s = settle (shortAForm Shape.nopL32A x) s (((fun s => .ok s) : Body') (past (.nopL32A x) s)) := by
  simp only [exec_nopL32A, execNopL32A]; exact issueA_ready Shape.nopL32A x _ s h
theorem run_gang (x : Long) (s : State) (h : issues (.gang x) s = true) :
    exec (.gang x) s = settle (longForm Shape.gang false x) s (((gangBody x) : Body') (past (.gang x) s)) := by
  simp only [exec_gang, execGang]; exact issueL_ready Shape.gang x _ s h
theorem run_ungang (x : Long) (s : State) (h : issues (.ungang x) s = true) :
    exec (.ungang x) s = settle (longForm Shape.ungang false x) s (((ungangBody x.d.toNat) : Body') (past (.ungang x) s)) := by
  simp only [exec_ungang, execUngang]; exact issueL_ready Shape.ungang x _ s h
theorem run_ungangL32A (x : ShortA) (s : State) (h : issues (.ungangL32A x) s = true) :
    exec (.ungangL32A x) s = settle (shortAForm Shape.ungangL32A x) s (((ungangBody x.d.toNat) : Body') (past (.ungangL32A x) s)) := by
  simp only [exec_ungangL32A, execUngangL32A]; exact issueA_ready Shape.ungangL32A x _ s h
theorem run_rejoin (x : Long) (s : State) (h : issues (.rejoin x) s = true) :
    exec (.rejoin x) s = settle (longForm Shape.rejoin false x) s (((rejoinBody x.hi.toNat 8) : Body') (past (.rejoin x) s)) := by
  simp only [exec_rejoin, execRejoin]; exact issueL_ready Shape.rejoin x _ s h
theorem run_rejoinL32A (x : ShortA) (s : State) (h : issues (.rejoinL32A x) s = true) :
    exec (.rejoinL32A x) s = settle (shortAForm Shape.rejoinL32A x) s (((rejoinBody (x.b ++ x.a : BitVec 12).toNat 4) : Body') (past (.rejoinL32A x) s)) := by
  simp only [exec_rejoinL32A, execRejoinL32A]; exact issueA_ready Shape.rejoinL32A x _ s h
theorem run_pand (x : Long) (s : State) (h : issues (.pand x) s = true) :
    exec (.pand x) s = settle (longForm Shape.pand false x) s (((fun s =>
  .ok (s.setP x.d.toNat (s.pInv x.a.toNat (x.sub.getLsbD 0) &&& s.pInv x.b.toNat (x.sub.getLsbD 1)))) : Body') (past (.pand x) s)) := by
  simp only [exec_pand, execPand]; exact issueL_ready Shape.pand x _ s h
theorem run_pandL32A (x : ShortA) (s : State) (h : issues (.pandL32A x) s = true) :
    exec (.pandL32A x) s = settle (shortAForm Shape.pandL32A x) s (((fun s =>
  .ok (s.setP x.d.toNat (s.pInv x.a.toNat (x.sub.getLsbD 0) &&& s.pInv x.b.toNat (x.sub.getLsbD 1)))) : Body') (past (.pandL32A x) s)) := by
  simp only [exec_pandL32A, execPandL32A]; exact issueA_ready Shape.pandL32A x _ s h
theorem run_por (x : Long) (s : State) (h : issues (.por x) s = true) :
    exec (.por x) s = settle (longForm Shape.por false x) s (((fun s =>
  .ok (s.setP x.d.toNat (s.pInv x.a.toNat (x.sub.getLsbD 0) ||| s.pInv x.b.toNat (x.sub.getLsbD 1)))) : Body') (past (.por x) s)) := by
  simp only [exec_por, execPor]; exact issueL_ready Shape.por x _ s h
theorem run_porL32A (x : ShortA) (s : State) (h : issues (.porL32A x) s = true) :
    exec (.porL32A x) s = settle (shortAForm Shape.porL32A x) s (((fun s =>
  .ok (s.setP x.d.toNat (s.pInv x.a.toNat (x.sub.getLsbD 0) ||| s.pInv x.b.toNat (x.sub.getLsbD 1)))) : Body') (past (.porL32A x) s)) := by
  simp only [exec_porL32A, execPorL32A]; exact issueA_ready Shape.porL32A x _ s h
theorem run_pxor (x : Long) (s : State) (h : issues (.pxor x) s = true) :
    exec (.pxor x) s = settle (longForm Shape.pxor false x) s (((fun s =>
  .ok (s.setP x.d.toNat (s.pInv x.a.toNat (x.sub.getLsbD 0) ^^^ s.pInv x.b.toNat (x.sub.getLsbD 1)))) : Body') (past (.pxor x) s)) := by
  simp only [exec_pxor, execPxor]; exact issueL_ready Shape.pxor x _ s h
theorem run_pxorL32A (x : ShortA) (s : State) (h : issues (.pxorL32A x) s = true) :
    exec (.pxorL32A x) s = settle (shortAForm Shape.pxorL32A x) s (((fun s =>
  .ok (s.setP x.d.toNat (s.pInv x.a.toNat (x.sub.getLsbD 0) ^^^ s.pInv x.b.toNat (x.sub.getLsbD 1)))) : Body') (past (.pxorL32A x) s)) := by
  simp only [exec_pxorL32A, execPxorL32A]; exact issueA_ready Shape.pxorL32A x _ s h
theorem run_pnot (x : Long) (s : State) (h : issues (.pnot x) s = true) :
    exec (.pnot x) s = settle (longForm Shape.pnot false x) s (((fun s => .ok (s.setP x.d.toNat (~~~ (s.p x.a.toNat)))) : Body') (past (.pnot x) s)) := by
  simp only [exec_pnot, execPnot]; exact issueL_ready Shape.pnot x _ s h
theorem run_pnotL32A (x : ShortA) (s : State) (h : issues (.pnotL32A x) s = true) :
    exec (.pnotL32A x) s = settle (shortAForm Shape.pnotL32A x) s (((fun s => .ok (s.setP x.d.toNat (~~~ (s.p x.a.toNat)))) : Body') (past (.pnotL32A x) s)) := by
  simp only [exec_pnotL32A, execPnotL32A]; exact issueA_ready Shape.pnotL32A x _ s h
theorem run_pmov (x : Long) (s : State) (h : issues (.pmov x) s = true) :
    exec (.pmov x) s = settle (longForm Shape.pmov false x) s (((fun s => .ok (s.setP x.d.toNat (s.p x.a.toNat))) : Body') (past (.pmov x) s)) := by
  simp only [exec_pmov, execPmov]; exact issueL_ready Shape.pmov x _ s h
theorem run_pmovL32A (x : ShortA) (s : State) (h : issues (.pmovL32A x) s = true) :
    exec (.pmovL32A x) s = settle (shortAForm Shape.pmovL32A x) s (((fun s => .ok (s.setP x.d.toNat (s.p x.a.toNat))) : Body') (past (.pmovL32A x) s)) := by
  simp only [exec_pmovL32A, execPmovL32A]; exact issueA_ready Shape.pmovL32A x _ s h
theorem run_pmovFromG (x : Long) (s : State) (h : issues (.pmovFromG x) s = true) :
    exec (.pmovFromG x) s = settle (longForm Shape.pmovFromG false x) s (((fun s => .ok (s.setP x.d.toNat ((s.g x.a.toNat).truncate 32))) : Body') (past (.pmovFromG x) s)) := by
  simp only [exec_pmovFromG, execPmovFromG]; exact issueL_ready Shape.pmovFromG x _ s h
theorem run_pmovFromGL32A (x : ShortA) (s : State) (h : issues (.pmovFromGL32A x) s = true) :
    exec (.pmovFromGL32A x) s = settle (shortAForm Shape.pmovFromGL32A x) s (((fun s => .ok (s.setP x.d.toNat ((s.g x.a.toNat).truncate 32))) : Body') (past (.pmovFromGL32A x) s)) := by
  simp only [exec_pmovFromGL32A, execPmovFromGL32A]; exact issueA_ready Shape.pmovFromGL32A x _ s h
theorem run_pmovToG (x : Long) (s : State) (h : issues (.pmovToG x) s = true) :
    exec (.pmovToG x) s = settle (longForm Shape.pmovToG false x) s (((fun s => .ok (s.setG x.d.toNat ((s.p x.a.toNat).zeroExtend 64))) : Body') (past (.pmovToG x) s)) := by
  simp only [exec_pmovToG, execPmovToG]; exact issueL_ready Shape.pmovToG x _ s h
theorem run_pmovToGL32A (x : ShortA) (s : State) (h : issues (.pmovToGL32A x) s = true) :
    exec (.pmovToGL32A x) s = settle (shortAForm Shape.pmovToGL32A x) s (((fun s => .ok (s.setG x.d.toNat ((s.p x.a.toNat).zeroExtend 64))) : Body') (past (.pmovToGL32A x) s)) := by
  simp only [exec_pmovToGL32A, execPmovToGL32A]; exact issueA_ready Shape.pmovToGL32A x _ s h
theorem run_pcnt (x : Long) (s : State) (h : issues (.pcnt x) s = true) :
    exec (.pcnt x) s = settle (longForm Shape.pcnt false x) s (((fun s => .ok (s.setG x.d.toNat (BitVec.ofNat 64 (lanesSet (s.p x.a.toNat))))) : Body') (past (.pcnt x) s)) := by
  simp only [exec_pcnt, execPcnt]; exact issueL_ready Shape.pcnt x _ s h
theorem run_pcntL32A (x : ShortA) (s : State) (h : issues (.pcntL32A x) s = true) :
    exec (.pcntL32A x) s = settle (shortAForm Shape.pcntL32A x) s (((fun s => .ok (s.setG x.d.toNat (BitVec.ofNat 64 (lanesSet (s.p x.a.toNat))))) : Body') (past (.pcntL32A x) s)) := by
  simp only [exec_pcntL32A, execPcntL32A]; exact issueA_ready Shape.pcntL32A x _ s h
theorem run_qinc (x : Long) (s : State) (h : issues (.qinc x) s = true) :
    exec (.qinc x) s = settle (longForm Shape.qinc false x) s (((addBody x.d.toNat (fun _ => 1)) : Body') (past (.qinc x) s)) := by
  simp only [exec_qinc, execQinc]; exact issueL_ready Shape.qinc x _ s h
theorem run_qincL32A (x : ShortA) (s : State) (h : issues (.qincL32A x) s = true) :
    exec (.qincL32A x) s = settle (shortAForm Shape.qincL32A x) s (((addBody x.d.toNat (fun _ => 1)) : Body') (past (.qincL32A x) s)) := by
  simp only [exec_qincL32A, execQincL32A]; exact issueA_ready Shape.qincL32A x _ s h
theorem run_qadd (x : Long) (s : State) (h : issues (.qadd x) s = true) :
    exec (.qadd x) s = settle (longForm Shape.qadd false x) s (((addBody x.d.toNat (fun s =>
  if x.wide then x.lit.toNat else if x.sub = 1 then (s.g x.b.toNat).toNat else x.hi.toNat)) : Body') (past (.qadd x) s)) := by
  simp only [exec_qadd, execQadd]; exact issueL_ready Shape.qadd x _ s h
theorem run_qaddL32B (x : ShortB) (s : State) (h : issues (.qaddL32B x) s = true) :
    exec (.qaddL32B x) s = settle (shortBForm Shape.qaddL32B x) s (((addBody x.d.toNat (fun _ => x.imm.toNat)) : Body') (past (.qaddL32B x) s)) := by
  simp only [exec_qaddL32B, execQaddL32B]; exact issueB_ready Shape.qaddL32B x _ s h
theorem run_qrd (x : Long) (s : State) (h : issues (.qrd x) s = true) :
    exec (.qrd x) s = settle (longForm Shape.qrd false x) s (((qrdBody x.d.toNat (x.hi.toNat % 128)) : Body') (past (.qrd x) s)) := by
  simp only [exec_qrd, execQrd]; exact issueL_ready Shape.qrd x _ s h
theorem run_qpost (x : Long) (s : State) (h : issues (.qpost x) s = true) :
    exec (.qpost x) s = settle (longForm Shape.qpost true x) s (((qpostBody x.a.toNat x.postRef (fun s => if x.wide then x.lit.toNat else (s.g x.b.toNat).toNat) x.order) : Body') (past (.qpost x) s)) := by
  simp only [exec_qpost, execQpost]; exact issueM_ready Shape.qpost x _ s h
theorem run_waitq (x : Long) (s : State) (h : issues (.waitq x) s = true) :
    exec (.waitq x) s = settle (longForm Shape.waitq false x) s (((fun s =>
  if x.sub = 1 then waitDescriptor x.bytes (·.g x.a.toNat) (·.g x.c.toNat) s
  else waitOn x.bytes [(x.hi.toNat % 128, s.g x.b.toNat)] (s.g x.c.toNat) s) : Body') (past (.waitq x) s)) := by
  simp only [exec_waitq, execWaitq]; exact issueL_ready Shape.waitq x _ s h
theorem run_waitb (x : Long) (s : State) (h : issues (.waitb x) s = true) :
    exec (.waitb x) s = settle (longForm Shape.waitb false x) s (((waitbBody x.bytes x.hi.toNat) : Body') (past (.waitb x) s)) := by
  simp only [exec_waitb, execWaitb]; exact issueL_ready Shape.waitb x _ s h
theorem run_waitvis (x : Long) (s : State) (h : issues (.waitvis x) s = true) :
    exec (.waitvis x) s = settle (longForm Shape.waitvis false x) s (((waitvisBody x.hi.toNat) : Body') (past (.waitvis x) s)) := by
  simp only [exec_waitvis, execWaitvis]; exact issueL_ready Shape.waitvis x _ s h
theorem run_succhint (x : Long) (s : State) (h : issues (.succhint x) s = true) :
    exec (.succhint x) s = settle (longForm Shape.succhint false x) s ((succhintBody : Body') (past (.succhint x) s)) := by
  simp only [exec_succhint, execSucchint]; exact issueL_ready Shape.succhint x _ s h
theorem run_succhintL32A (x : ShortA) (s : State) (h : issues (.succhintL32A x) s = true) :
    exec (.succhintL32A x) s = settle (shortAForm Shape.succhintL32A x) s ((succhintBody : Body') (past (.succhintL32A x) s)) := by
  simp only [exec_succhintL32A, execSucchintL32A]; exact issueA_ready Shape.succhintL32A x _ s h
theorem run_hwaitf (x : Long) (s : State) (h : issues (.hwaitf x) s = true) :
    exec (.hwaitf x) s = settle (longForm Shape.hwaitf false x) s (((hwaitfBody x.d.toNat x.a.toNat x.count) : Body') (past (.hwaitf x) s)) := by
  simp only [exec_hwaitf, execHwaitf]; exact issueL_ready Shape.hwaitf x _ s h
theorem run_hwaitfL32B (x : ShortB) (s : State) (h : issues (.hwaitfL32B x) s = true) :
    exec (.hwaitfL32B x) s = settle (shortBForm Shape.hwaitfL32B x) s (((hwaitfBody 0 x.a.toNat (fun _ => x.imm.toNat)) : Body') (past (.hwaitfL32B x) s)) := by
  simp only [exec_hwaitfL32B, execHwaitfL32B]; exact issueB_ready Shape.hwaitfL32B x _ s h
theorem run_hwaite (x : Long) (s : State) (h : issues (.hwaite x) s = true) :
    exec (.hwaite x) s = settle (longForm Shape.hwaite false x) s (((hwaiteBody x.a.toNat x.count) : Body') (past (.hwaite x) s)) := by
  simp only [exec_hwaite, execHwaite]; exact issueL_ready Shape.hwaite x _ s h
theorem run_hwaiteL32B (x : ShortB) (s : State) (h : issues (.hwaiteL32B x) s = true) :
    exec (.hwaiteL32B x) s = settle (shortBForm Shape.hwaiteL32B x) s (((hwaiteBody x.a.toNat (fun _ => x.imm.toNat)) : Body') (past (.hwaiteL32B x) s)) := by
  simp only [exec_hwaiteL32B, execHwaiteL32B]; exact issueB_ready Shape.hwaiteL32B x _ s h
theorem run_hld (x : Long) (s : State) (h : issues (.hld x) s = true) :
    exec (.hld x) s = settle (longForm Shape.hld false x) s (((hldBody x.d.toNat x.a.toNat x.hi.toNat x.sub (fun s => (s.g x.b.toNat).toNat)) : Body') (past (.hld x) s)) := by
  simp only [exec_hld, execHld]; exact issueL_ready Shape.hld x _ s h
theorem run_hst (x : Long) (s : State) (h : issues (.hst x) s = true) :
    exec (.hst x) s = settle (longForm Shape.hst false x) s (((hstBody x.d.toNat x.a.toNat x.hi.toNat x.sub (fun s => (s.g x.b.toNat).toNat)) : Body') (past (.hst x) s)) := by
  simp only [exec_hst, execHst]; exact issueL_ready Shape.hst x _ s h
theorem run_hadvc (x : Long) (s : State) (h : issues (.hadvc x) s = true) :
    exec (.hadvc x) s = settle (longForm Shape.hadvc false x) s (((hadvcBody x.a.toNat x.count) : Body') (past (.hadvc x) s)) := by
  simp only [exec_hadvc, execHadvc]; exact issueL_ready Shape.hadvc x _ s h
theorem run_hadvcL32B (x : ShortB) (s : State) (h : issues (.hadvcL32B x) s = true) :
    exec (.hadvcL32B x) s = settle (shortBForm Shape.hadvcL32B x) s (((hadvcBody x.a.toNat (fun _ => x.imm.toNat)) : Body') (past (.hadvcL32B x) s)) := by
  simp only [exec_hadvcL32B, execHadvcL32B]; exact issueB_ready Shape.hadvcL32B x _ s h
theorem run_hadvp (x : Long) (s : State) (h : issues (.hadvp x) s = true) :
    exec (.hadvp x) s = settle (longForm Shape.hadvp true x) s (((hadvpBody x.a.toNat x.count x.afterSet) : Body') (past (.hadvp x) s)) := by
  simp only [exec_hadvp, execHadvp]; exact issueM_ready Shape.hadvp x _ s h
theorem run_hadvpL32B (x : ShortB) (s : State) (h : issues (.hadvpL32B x) s = true) :
    exec (.hadvpL32B x) s = settle (shortBForm Shape.hadvpL32B x) s (((hadvpBody x.a.toNat (fun _ => x.imm.toNat) (fun _ => [])) : Body') (past (.hadvpL32B x) s)) := by
  simp only [exec_hadvpL32B, execHadvpL32B]; exact issueB_ready Shape.hadvpL32B x _ s h
theorem run_heos (x : Long) (s : State) (h : issues (.heos x) s = true) :
    exec (.heos x) s = settle (longForm Shape.heos true x) s (((heosBody x.a.toNat x.afterSet) : Body') (past (.heos x) s)) := by
  simp only [exec_heos, execHeos]; exact issueM_ready Shape.heos x _ s h
theorem run_hstat (x : Long) (s : State) (h : issues (.hstat x) s = true) :
    exec (.hstat x) s = settle (longForm Shape.hstat false x) s (((hstatBody x.d.toNat x.a.toNat) : Body') (past (.hstat x) s)) := by
  simp only [exec_hstat, execHstat]; exact issueL_ready Shape.hstat x _ s h
theorem run_hstatL32A (x : ShortA) (s : State) (h : issues (.hstatL32A x) s = true) :
    exec (.hstatL32A x) s = settle (shortAForm Shape.hstatL32A x) s (((hstatBody x.d.toNat x.a.toNat) : Body') (past (.hstatL32A x) s)) := by
  simp only [exec_hstatL32A, execHstatL32A]; exact issueA_ready Shape.hstatL32A x _ s h
theorem run_send (x : Long) (s : State) (h : issues (.send x) s = true) :
    exec (.send x) s = settle (longForm Shape.send true x) s (((sendBody x.a.toNat x.b.toNat (fun s => s.offset x.c.toNat x.hi.toInt) x.afterSet) : Body') (past (.send x) s)) := by
  simp only [exec_send, execSend]; exact issueM_ready Shape.send x _ s h
theorem run_sendq (x : Long) (s : State) (h : issues (.sendq x) s = true) :
    exec (.sendq x) s = settle (longForm Shape.sendq true x) s (((sendqBody x.a.toNat x.b.toNat x.afterSet) : Body') (past (.sendq x) s)) := by
  simp only [exec_sendq, execSendq]; exact issueM_ready Shape.sendq x _ s h
theorem run_cred (x : Long) (s : State) (h : issues (.cred x) s = true) :
    exec (.cred x) s = settle (longForm Shape.cred false x) s (((credBody x) : Body') (past (.cred x) s)) := by
  simp only [exec_cred, execCred]; exact issueL_ready Shape.cred x _ s h
theorem run_cderive (x : Long) (s : State) (h : issues (.cderive x) s = true) :
    exec (.cderive x) s = settle (longForm Shape.cderive false x) s (((cderiveBody x.d.toNat x.a.toNat (fun s => (s.g x.b.toNat).toNat)
  (fun s => if x.wide then x.lit.toNat else (s.g x.c.toNat).toNat)) : Body') (past (.cderive x) s)) := by
  simp only [exec_cderive, execCderive]; exact issueL_ready Shape.cderive x _ s h
theorem run_cperm (x : Long) (s : State) (h : issues (.cperm x) s = true) :
    exec (.cperm x) s = settle (longForm Shape.cperm false x) s (((cpermBody x.d.toNat x.a.toNat (x.hi.toNat % 128)) : Body') (past (.cperm x) s)) := by
  simp only [exec_cperm, execCperm]; exact issueL_ready Shape.cperm x _ s h
theorem run_cseal (x : Long) (s : State) (h : issues (.cseal x) s = true) :
    exec (.cseal x) s = settle (longForm Shape.cseal false x) s (((csealBody x.d.toNat x.a.toNat x.b.toNat) : Body') (past (.cseal x) s)) := by
  simp only [exec_cseal, execCseal]; exact issueL_ready Shape.cseal x _ s h
theorem run_csealL32A (x : ShortA) (s : State) (h : issues (.csealL32A x) s = true) :
    exec (.csealL32A x) s = settle (shortAForm Shape.csealL32A x) s (((csealBody x.d.toNat x.a.toNat x.b.toNat) : Body') (past (.csealL32A x) s)) := by
  simp only [exec_csealL32A, execCsealL32A]; exact issueA_ready Shape.csealL32A x _ s h
theorem run_cunseal (x : Long) (s : State) (h : issues (.cunseal x) s = true) :
    exec (.cunseal x) s = settle (longForm Shape.cunseal false x) s (((cunsealBody x.d.toNat x.a.toNat x.b.toNat) : Body') (past (.cunseal x) s)) := by
  simp only [exec_cunseal, execCunseal]; exact issueL_ready Shape.cunseal x _ s h
theorem run_cunsealL32A (x : ShortA) (s : State) (h : issues (.cunsealL32A x) s = true) :
    exec (.cunsealL32A x) s = settle (shortAForm Shape.cunsealL32A x) s (((cunsealBody x.d.toNat x.a.toNat x.b.toNat) : Body') (past (.cunsealL32A x) s)) := by
  simp only [exec_cunsealL32A, execCunsealL32A]; exact issueA_ready Shape.cunsealL32A x _ s h
theorem run_cbase (x : Long) (s : State) (h : issues (.cbase x) s = true) :
    exec (.cbase x) s = settle (longForm Shape.cbase false x) s (((inspect x.d.toNat x.a.toNat Cap.base) : Body') (past (.cbase x) s)) := by
  simp only [exec_cbase, execCbase]; exact issueL_ready Shape.cbase x _ s h
theorem run_cbaseL32A (x : ShortA) (s : State) (h : issues (.cbaseL32A x) s = true) :
    exec (.cbaseL32A x) s = settle (shortAForm Shape.cbaseL32A x) s (((inspect x.d.toNat x.a.toNat Cap.base) : Body') (past (.cbaseL32A x) s)) := by
  simp only [exec_cbaseL32A, execCbaseL32A]; exact issueA_ready Shape.cbaseL32A x _ s h
theorem run_clen (x : Long) (s : State) (h : issues (.clen x) s = true) :
    exec (.clen x) s = settle (longForm Shape.clen false x) s (((inspect x.d.toNat x.a.toNat Cap.length) : Body') (past (.clen x) s)) := by
  simp only [exec_clen, execClen]; exact issueL_ready Shape.clen x _ s h
theorem run_clenL32A (x : ShortA) (s : State) (h : issues (.clenL32A x) s = true) :
    exec (.clenL32A x) s = settle (shortAForm Shape.clenL32A x) s (((inspect x.d.toNat x.a.toNat Cap.length) : Body') (past (.clenL32A x) s)) := by
  simp only [exec_clenL32A, execClenL32A]; exact issueA_ready Shape.clenL32A x _ s h
theorem run_cperms (x : Long) (s : State) (h : issues (.cperms x) s = true) :
    exec (.cperms x) s = settle (longForm Shape.cperms false x) s (((inspect x.d.toNat x.a.toNat Cap.perms) : Body') (past (.cperms x) s)) := by
  simp only [exec_cperms, execCperms]; exact issueL_ready Shape.cperms x _ s h
theorem run_cpermsL32A (x : ShortA) (s : State) (h : issues (.cpermsL32A x) s = true) :
    exec (.cpermsL32A x) s = settle (shortAForm Shape.cpermsL32A x) s (((inspect x.d.toNat x.a.toNat Cap.perms) : Body') (past (.cpermsL32A x) s)) := by
  simp only [exec_cpermsL32A, execCpermsL32A]; exact issueA_ready Shape.cpermsL32A x _ s h
theorem run_ctype (x : Long) (s : State) (h : issues (.ctype x) s = true) :
    exec (.ctype x) s = settle (longForm Shape.ctype false x) s (((inspect x.d.toNat x.a.toNat Cap.otype) : Body') (past (.ctype x) s)) := by
  simp only [exec_ctype, execCtype]; exact issueL_ready Shape.ctype x _ s h
theorem run_ctypeL32A (x : ShortA) (s : State) (h : issues (.ctypeL32A x) s = true) :
    exec (.ctypeL32A x) s = settle (shortAForm Shape.ctypeL32A x) s (((inspect x.d.toNat x.a.toNat Cap.otype) : Body') (past (.ctypeL32A x) s)) := by
  simp only [exec_ctypeL32A, execCtypeL32A]; exact issueA_ready Shape.ctypeL32A x _ s h
theorem run_ctag (x : Long) (s : State) (h : issues (.ctag x) s = true) :
    exec (.ctag x) s = settle (longForm Shape.ctag false x) s (((inspect x.d.toNat x.a.toNat (·.tag.toNat)) : Body') (past (.ctag x) s)) := by
  simp only [exec_ctag, execCtag]; exact issueL_ready Shape.ctag x _ s h
theorem run_ctagL32A (x : ShortA) (s : State) (h : issues (.ctagL32A x) s = true) :
    exec (.ctagL32A x) s = settle (shortAForm Shape.ctagL32A x) s (((inspect x.d.toNat x.a.toNat (·.tag.toNat)) : Body') (past (.ctagL32A x) s)) := by
  simp only [exec_ctagL32A, execCtagL32A]; exact issueA_ready Shape.ctagL32A x _ s h
theorem run_cclr (x : Long) (s : State) (h : issues (.cclr x) s = true) :
    exec (.cclr x) s = settle (longForm Shape.cclr false x) s (((fun s => .ok (s.setC x.d.toNat Cap.null)) : Body') (past (.cclr x) s)) := by
  simp only [exec_cclr, execCclr]; exact issueL_ready Shape.cclr x _ s h
theorem run_cclrL32A (x : ShortA) (s : State) (h : issues (.cclrL32A x) s = true) :
    exec (.cclrL32A x) s = settle (shortAForm Shape.cclrL32A x) s (((fun s => .ok (s.setC x.d.toNat Cap.null)) : Body') (past (.cclrL32A x) s)) := by
  simp only [exec_cclrL32A, execCclrL32A]; exact issueA_ready Shape.cclrL32A x _ s h
theorem run_cmov (x : Long) (s : State) (h : issues (.cmov x) s = true) :
    exec (.cmov x) s = settle (longForm Shape.cmov false x) s (((fun s => .ok (s.setC x.d.toNat (s.c x.a.toNat))) : Body') (past (.cmov x) s)) := by
  simp only [exec_cmov, execCmov]; exact issueL_ready Shape.cmov x _ s h
theorem run_cmovL32A (x : ShortA) (s : State) (h : issues (.cmovL32A x) s = true) :
    exec (.cmovL32A x) s = settle (shortAForm Shape.cmovL32A x) s (((fun s => .ok (s.setC x.d.toNat (s.c x.a.toNat))) : Body') (past (.cmovL32A x) s)) := by
  simp only [exec_cmovL32A, execCmovL32A]; exact issueA_ready Shape.cmovL32A x _ s h
theorem run_cldc (x : Long) (s : State) (h : issues (.cldc x) s = true) :
    exec (.cldc x) s = settle (longForm Shape.cldc true x) s (((capLoadBody x.bytes x.a.toNat x.memOff x.d.toNat x.order) : Body') (past (.cldc x) s)) := by
  simp only [exec_cldc, execCldc]; exact issueM_ready Shape.cldc x _ s h
theorem run_cldcL32B (x : ShortB) (s : State) (h : issues (.cldcL32B x) s = true) :
    exec (.cldcL32B x) s = settle (shortBForm Shape.cldcL32B x) s (((capLoadBody 4 x.a.toNat (fun s => s.offset 0 (x.imm.toInt * 16)) x.d.toNat (fun _ => Order.none)) : Body') (past (.cldcL32B x) s)) := by
  simp only [exec_cldcL32B, execCldcL32B]; exact issueB_ready Shape.cldcL32B x _ s h
theorem run_cstc (x : Long) (s : State) (h : issues (.cstc x) s = true) :
    exec (.cstc x) s = settle (longForm Shape.cstc true x) s (((capStoreBody x.bytes x.a.toNat x.memOff x.d.toNat x.order) : Body') (past (.cstc x) s)) := by
  simp only [exec_cstc, execCstc]; exact issueM_ready Shape.cstc x _ s h
theorem run_cstcL32B (x : ShortB) (s : State) (h : issues (.cstcL32B x) s = true) :
    exec (.cstcL32B x) s = settle (shortBForm Shape.cstcL32B x) s (((capStoreBody 4 x.a.toNat (fun s => s.offset 0 (x.imm.toInt * 16)) x.d.toNat (fun _ => Order.none)) : Body') (past (.cstcL32B x) s)) := by
  simp only [exec_cstcL32B, execCstcL32B]; exact issueB_ready Shape.cstcL32B x _ s h
theorem run_cchk (x : Long) (s : State) (h : issues (.cchk x) s = true) :
    exec (.cchk x) s = settle (longForm Shape.cchk false x) s (((fun s =>
  .ok (s.setG x.d.toNat (BitVec.ofNat 64 (s.cchk (s.c x.a.toNat) (s.g x.b.toNat).toInt (x.hi.toNat % 128 + 1) x.sub.toNat)))) : Body') (past (.cchk x) s)) := by
  simp only [exec_cchk, execCchk]; exact issueL_ready Shape.cchk x _ s h
theorem run_trap (x : Long) (s : State) (h : issues (.trap x) s = true) :
    exec (.trap x) s = settle (longForm Shape.trap false x) s (((fun _ => .error (.trap x.hi.toNat)) : Body') (past (.trap x) s)) := by
  simp only [exec_trap, execTrap]; exact issueL_ready Shape.trap x _ s h
theorem run_trapL32B (x : ShortB) (s : State) (h : issues (.trapL32B x) s = true) :
    exec (.trapL32B x) s = settle (shortBForm Shape.trapL32B x) s (((fun _ => .error (.trap x.imm.toNat)) : Body') (past (.trapL32B x) s)) := by
  simp only [exec_trapL32B, execTrapL32B]; exact issueB_ready Shape.trapL32B x _ s h
theorem run_wick (x : Long) (s : State) (h : issues (.wick x) s = true) :
    exec (.wick x) s = settle (longForm Shape.wick false x) s ((wickBody : Body') (past (.wick x) s)) := by
  simp only [exec_wick, execWick]; exact issueL_ready Shape.wick x _ s h
theorem run_wickL32A (x : ShortA) (s : State) (h : issues (.wickL32A x) s = true) :
    exec (.wickL32A x) s = settle (shortAForm Shape.wickL32A x) s ((wickBody : Body') (past (.wickL32A x) s)) := by
  simp only [exec_wickL32A, execWickL32A]; exact issueA_ready Shape.wickL32A x _ s h
theorem run_wid (x : Long) (s : State) (h : issues (.wid x) s = true) :
    exec (.wid x) s = settle (longForm Shape.wid false x) s (((widBody x.d.toNat x.hi.toNat) : Body') (past (.wid x) s)) := by
  simp only [exec_wid, execWid]; exact issueL_ready Shape.wid x _ s h
theorem run_widL32B (x : ShortB) (s : State) (h : issues (.widL32B x) s = true) :
    exec (.widL32B x) s = settle (shortBForm Shape.widL32B x) s (((widBody x.d.toNat x.imm.toNat) : Body') (past (.widL32B x) s)) := by
  simp only [exec_widL32B, execWidL32B]; exact issueB_ready Shape.widL32B x _ s h
theorem run_who (x : Long) (s : State) (h : issues (.who x) s = true) :
    exec (.who x) s = settle (longForm Shape.who false x) s (((fun s => .ok (s.setG x.d.toNat (s.who x.hi.toNat))) : Body') (past (.who x) s)) := by
  simp only [exec_who, execWho]; exact issueL_ready Shape.who x _ s h
theorem run_query (x : Long) (s : State) (h : issues (.query x) s = true) :
    exec (.query x) s = settle (longForm Shape.query false x) s (((queryBody x.d.toNat x.a.toNat) : Body') (past (.query x) s)) := by
  simp only [exec_query, execQuery]; exact issueL_ready Shape.query x _ s h
theorem run_queryL32A (x : ShortA) (s : State) (h : issues (.queryL32A x) s = true) :
    exec (.queryL32A x) s = settle (shortAForm Shape.queryL32A x) s (((queryBody x.d.toNat x.a.toNat) : Body') (past (.queryL32A x) s)) := by
  simp only [exec_queryL32A, execQueryL32A]; exact issueA_ready Shape.queryL32A x _ s h
theorem run_time (x : Long) (s : State) (h : issues (.time x) s = true) :
    exec (.time x) s = settle (longForm Shape.time false x) s (((fun s => .ok (s.setG x.d.toNat s.tsc)) : Body') (past (.time x) s)) := by
  simp only [exec_time, execTime]; exact issueL_ready Shape.time x _ s h
theorem run_timeL32A (x : ShortA) (s : State) (h : issues (.timeL32A x) s = true) :
    exec (.timeL32A x) s = settle (shortAForm Shape.timeL32A x) s (((fun s => .ok (s.setG x.d.toNat s.tsc)) : Body') (past (.timeL32A x) s)) := by
  simp only [exec_timeL32A, execTimeL32A]; exact issueA_ready Shape.timeL32A x _ s h
theorem run_timeEnergy (x : Long) (s : State) (h : issues (.timeEnergy x) s = true) :
    exec (.timeEnergy x) s = settle (longForm Shape.timeEnergy false x) s (((fun s => .ok (s.setG x.d.toNat s.core.energy)) : Body') (past (.timeEnergy x) s)) := by
  simp only [exec_timeEnergy, execTimeEnergy]; exact issueL_ready Shape.timeEnergy x _ s h
theorem run_timeEnergyL32A (x : ShortA) (s : State) (h : issues (.timeEnergyL32A x) s = true) :
    exec (.timeEnergyL32A x) s = settle (shortAForm Shape.timeEnergyL32A x) s (((fun s => .ok (s.setG x.d.toNat s.core.energy)) : Body') (past (.timeEnergyL32A x) s)) := by
  simp only [exec_timeEnergyL32A, execTimeEnergyL32A]; exact issueA_ready Shape.timeEnergyL32A x _ s h
theorem run_sysrd (x : Long) (s : State) (h : issues (.sysrd x) s = true) :
    exec (.sysrd x) s = settle (longForm Shape.sysrd false x) s (((fun s =>
  (s.sysRead x.hi.toNat).map (fun v => s.setG x.d.toNat v)) : Body') (past (.sysrd x) s)) := by
  simp only [exec_sysrd, execSysrd]; exact issueL_ready Shape.sysrd x _ s h
theorem run_syswr (x : Long) (s : State) (h : issues (.syswr x) s = true) :
    exec (.syswr x) s = settle (longForm Shape.syswr false x) s (((sysWriteBody x.hi.toNat x.a.toNat) : Body') (past (.syswr x) s)) := by
  simp only [exec_syswr, execSyswr]; exact issueL_ready Shape.syswr x _ s h
theorem run_yield (x : Long) (s : State) (h : issues (.yield x) s = true) :
    exec (.yield x) s = settle (longForm Shape.yield false x) s (((yieldBody x.bytes x.a.toNat) : Body') (past (.yield x) s)) := by
  simp only [exec_yield, execYield]; exact issueL_ready Shape.yield x _ s h
theorem run_yieldL32A (x : ShortA) (s : State) (h : issues (.yieldL32A x) s = true) :
    exec (.yieldL32A x) s = settle (shortAForm Shape.yieldL32A x) s (((yieldBody 4 x.a.toNat) : Body') (past (.yieldL32A x) s)) := by
  simp only [exec_yieldL32A, execYieldL32A]; exact issueA_ready Shape.yieldL32A x _ s h
theorem run_gate (x : Long) (s : State) (h : issues (.gate x) s = true) :
    exec (.gate x) s = settle (longForm Shape.gate false x) s (((gateBody x.d.toNat x.a.toNat) : Body') (past (.gate x) s)) := by
  simp only [exec_gate, execGate]; exact issueP_ready Shape.gate x _ s h
theorem run_snuff (x : Long) (s : State) (h : issues (.snuff x) s = true) :
    exec (.snuff x) s = settle (longForm Shape.snuff false x) s (((snuffBody x.d.toNat x.a.toNat) : Body') (past (.snuff x) s)) := by
  simp only [exec_snuff, execSnuff]; exact issueP_ready Shape.snuff x _ s h
theorem run_nameset (x : Long) (s : State) (h : issues (.nameset x) s = true) :
    exec (.nameset x) s = settle (longForm Shape.nameset false x) s (((namesetBody x.d.toNat x.a.toNat x.b.toNat) : Body') (past (.nameset x) s)) := by
  simp only [exec_nameset, execNameset]; exact issueP_ready Shape.nameset x _ s h
theorem run_leaseack (x : Long) (s : State) (h : issues (.leaseack x) s = true) :
    exec (.leaseack x) s = settle (longForm Shape.leaseack false x) s (((leaseackBody x.d.toNat x.a.toNat x.b.toNat) : Body') (past (.leaseack x) s)) := by
  simp only [exec_leaseack, execLeaseack]; exact issueP_ready Shape.leaseack x _ s h
theorem run_fresume (x : Long) (s : State) (h : issues (.fresume x) s = true) :
    exec (.fresume x) s = settle (longForm Shape.fresume false x) s (((replyBody x.d.toNat x.a.toNat false (fun _ => none)) : Body') (past (.fresume x) s)) := by
  simp only [exec_fresume, execFresume]; exact issueP_ready Shape.fresume x _ s h
theorem run_fresumeValue (x : Long) (s : State) (h : issues (.fresumeValue x) s = true) :
    exec (.fresumeValue x) s = settle (longForm Shape.fresumeValue false x) s (((replyBody x.d.toNat x.a.toNat false (fun s => some (leBytes 64 (s.v x.b.toNat).toNat))) : Body') (past (.fresumeValue x) s)) := by
  simp only [exec_fresumeValue, execFresumeValue]; exact issueP_ready Shape.fresumeValue x _ s h
theorem run_fkill (x : Long) (s : State) (h : issues (.fkill x) s = true) :
    exec (.fkill x) s = settle (longForm Shape.fkill false x) s (((replyBody x.d.toNat x.a.toNat true (fun _ => none)) : Body') (past (.fkill x) s)) := by
  simp only [exec_fkill, execFkill]; exact issueP_ready Shape.fkill x _ s h
theorem run_ld (x : Long) (s : State) (h : issues (.ld x) s = true) :
    exec (.ld x) s = settle (longForm Shape.ld true x) s ((x.load : Body') (past (.ld x) s)) := by
  simp only [exec_ld, execLd]; exact issueM_ready Shape.ld x _ s h
theorem run_ldN64L32B (x : ShortB) (s : State) (h : issues (.ldN64L32B x) s = true) :
    exec (.ldN64L32B x) s = settle (shortBForm Shape.ldN64L32B x) s (((x.load 7) : Body') (past (.ldN64L32B x) s)) := by
  simp only [exec_ldN64L32B, execLdN64L32B]; exact issueB_ready Shape.ldN64L32B x _ s h
theorem run_ldI32L32B (x : ShortB) (s : State) (h : issues (.ldI32L32B x) s = true) :
    exec (.ldI32L32B x) s = settle (shortBForm Shape.ldI32L32B x) s (((x.load 2) : Body') (past (.ldI32L32B x) s)) := by
  simp only [exec_ldI32L32B, execLdI32L32B]; exact issueB_ready Shape.ldI32L32B x _ s h
theorem run_ldN32L32B (x : ShortB) (s : State) (h : issues (.ldN32L32B x) s = true) :
    exec (.ldN32L32B x) s = settle (shortBForm Shape.ldN32L32B x) s (((x.load 6) : Body') (past (.ldN32L32B x) s)) := by
  simp only [exec_ldN32L32B, execLdN32L32B]; exact issueB_ready Shape.ldN32L32B x _ s h
theorem run_ldI16L32B (x : ShortB) (s : State) (h : issues (.ldI16L32B x) s = true) :
    exec (.ldI16L32B x) s = settle (shortBForm Shape.ldI16L32B x) s (((x.load 1) : Body') (past (.ldI16L32B x) s)) := by
  simp only [exec_ldI16L32B, execLdI16L32B]; exact issueB_ready Shape.ldI16L32B x _ s h
theorem run_ldN16L32B (x : ShortB) (s : State) (h : issues (.ldN16L32B x) s = true) :
    exec (.ldN16L32B x) s = settle (shortBForm Shape.ldN16L32B x) s (((x.load 5) : Body') (past (.ldN16L32B x) s)) := by
  simp only [exec_ldN16L32B, execLdN16L32B]; exact issueB_ready Shape.ldN16L32B x _ s h
theorem run_ldI8L32B (x : ShortB) (s : State) (h : issues (.ldI8L32B x) s = true) :
    exec (.ldI8L32B x) s = settle (shortBForm Shape.ldI8L32B x) s (((x.load 0) : Body') (past (.ldI8L32B x) s)) := by
  simp only [exec_ldI8L32B, execLdI8L32B]; exact issueB_ready Shape.ldI8L32B x _ s h
theorem run_ldN8L32B (x : ShortB) (s : State) (h : issues (.ldN8L32B x) s = true) :
    exec (.ldN8L32B x) s = settle (shortBForm Shape.ldN8L32B x) s (((x.load 4) : Body') (past (.ldN8L32B x) s)) := by
  simp only [exec_ldN8L32B, execLdN8L32B]; exact issueB_ready Shape.ldN8L32B x _ s h
theorem run_st (x : Long) (s : State) (h : issues (.st x) s = true) :
    exec (.st x) s = settle (longForm Shape.st true x) s ((x.store : Body') (past (.st x) s)) := by
  simp only [exec_st, execSt]; exact issueM_ready Shape.st x _ s h
theorem run_stN64L32B (x : ShortB) (s : State) (h : issues (.stN64L32B x) s = true) :
    exec (.stN64L32B x) s = settle (shortBForm Shape.stN64L32B x) s (((x.store 8) : Body') (past (.stN64L32B x) s)) := by
  simp only [exec_stN64L32B, execStN64L32B]; exact issueB_ready Shape.stN64L32B x _ s h
theorem run_stN32L32B (x : ShortB) (s : State) (h : issues (.stN32L32B x) s = true) :
    exec (.stN32L32B x) s = settle (shortBForm Shape.stN32L32B x) s (((x.store 4) : Body') (past (.stN32L32B x) s)) := by
  simp only [exec_stN32L32B, execStN32L32B]; exact issueB_ready Shape.stN32L32B x _ s h
theorem run_stN16L32B (x : ShortB) (s : State) (h : issues (.stN16L32B x) s = true) :
    exec (.stN16L32B x) s = settle (shortBForm Shape.stN16L32B x) s (((x.store 2) : Body') (past (.stN16L32B x) s)) := by
  simp only [exec_stN16L32B, execStN16L32B]; exact issueB_ready Shape.stN16L32B x _ s h
theorem run_stN8L32B (x : ShortB) (s : State) (h : issues (.stN8L32B x) s = true) :
    exec (.stN8L32B x) s = settle (shortBForm Shape.stN8L32B x) s (((x.store 1) : Body') (past (.stN8L32B x) s)) := by
  simp only [exec_stN8L32B, execStN8L32B]; exact issueB_ready Shape.stN8L32B x _ s h
theorem run_lda (x : Long) (s : State) (h : issues (.lda x) s = true) :
    exec (.lda x) s = settle (longForm Shape.lda true x) s (((loadBody x.bytes x.a.toNat x.memOff x.sub x.d.toNat (fun s => { x.order s with lda := some x.scope })) : Body') (past (.lda x) s)) := by
  simp only [exec_lda, execLda]; exact issueM_ready Shape.lda x _ s h
theorem run_stl (x : Long) (s : State) (h : issues (.stl x) s = true) :
    exec (.stl x) s = settle (longForm Shape.stl true x) s (((storeBody x.bytes x.a.toNat x.memOff (elemBytes x.sub) x.d.toNat (fun s => { x.order s with stl := some x.scope })) : Body') (past (.stl x) s)) := by
  simp only [exec_stl, execStl]; exact issueM_ready Shape.stl x _ s h
theorem run_pf (x : Long) (s : State) (h : issues (.pf x) s = true) :
    exec (.pf x) s = settle (longForm Shape.pf true x) s (((prefetchBody x.bytes x.a.toNat x.memOff (x.c.getLsbD 3) x.order) : Body') (past (.pf x) s)) := by
  simp only [exec_pf, execPf]; exact issueM_ready Shape.pf x _ s h
theorem run_pfL32B (x : ShortB) (s : State) (h : issues (.pfL32B x) s = true) :
    exec (.pfL32B x) s = settle (shortBForm Shape.pfL32B x) s (((prefetchBody 4 x.a.toNat (fun s => s.offset 0 x.imm.toInt) false (fun _ => Order.none)) : Body') (past (.pfL32B x) s)) := by
  simp only [exec_pfL32B, execPfL32B]; exact issueB_ready Shape.pfL32B x _ s h
theorem run_aadd (x : Long) (s : State) (h : issues (.aadd x) s = true) :
    exec (.aadd x) s = settle (longForm Shape.aadd true x) s (((x.atomic 0) : Body') (past (.aadd x) s)) := by
  simp only [exec_aadd, execAadd]; exact issueM_ready Shape.aadd x _ s h
theorem run_amin (x : Long) (s : State) (h : issues (.amin x) s = true) :
    exec (.amin x) s = settle (longForm Shape.amin true x) s (((x.atomic 1) : Body') (past (.amin x) s)) := by
  simp only [exec_amin, execAmin]; exact issueM_ready Shape.amin x _ s h
theorem run_amax (x : Long) (s : State) (h : issues (.amax x) s = true) :
    exec (.amax x) s = settle (longForm Shape.amax true x) s (((x.atomic 2) : Body') (past (.amax x) s)) := by
  simp only [exec_amax, execAmax]; exact issueM_ready Shape.amax x _ s h
theorem run_aand (x : Long) (s : State) (h : issues (.aand x) s = true) :
    exec (.aand x) s = settle (longForm Shape.aand true x) s (((x.atomic 3) : Body') (past (.aand x) s)) := by
  simp only [exec_aand, execAand]; exact issueM_ready Shape.aand x _ s h
theorem run_aor (x : Long) (s : State) (h : issues (.aor x) s = true) :
    exec (.aor x) s = settle (longForm Shape.aor true x) s (((x.atomic 4) : Body') (past (.aor x) s)) := by
  simp only [exec_aor, execAor]; exact issueM_ready Shape.aor x _ s h
theorem run_axor (x : Long) (s : State) (h : issues (.axor x) s = true) :
    exec (.axor x) s = settle (longForm Shape.axor true x) s (((x.atomic 5) : Body') (past (.axor x) s)) := by
  simp only [exec_axor, execAxor]; exact issueM_ready Shape.axor x _ s h
theorem run_aswp (x : Long) (s : State) (h : issues (.aswp x) s = true) :
    exec (.aswp x) s = settle (longForm Shape.aswp true x) s (((x.atomic 6) : Body') (past (.aswp x) s)) := by
  simp only [exec_aswp, execAswp]; exact issueM_ready Shape.aswp x _ s h
theorem run_acas (x : Long) (s : State) (h : issues (.acas x) s = true) :
    exec (.acas x) s = settle (longForm Shape.acas true x) s (((fun s => do
  if s.window ≤ x.d.toNat + 1 then throw (.window (x.d.toNat + 1))
  s.ready (.g (x.d.toNat + 1))
  x.atomic 7 s) : Body') (past (.acas x) s)) := by
  simp only [exec_acas, execAcas]; exact issueM_ready Shape.acas x _ s h
theorem run_aaddf (x : Long) (s : State) (h : issues (.aaddf x) s = true) :
    exec (.aaddf x) s = settle (longForm Shape.aaddf true x) s (((atomicBody x.bytes x.a.toNat x.memOff x.sub 8 (if x.wide then x.rm else 0) x.d.toNat x.order) : Body') (past (.aaddf x) s)) := by
  simp only [exec_aaddf, execAaddf]; exact issueM_ready Shape.aaddf x _ s h
theorem run_fence (x : Long) (s : State) (h : issues (.fence x) s = true) :
    exec (.fence x) s = settle (longForm Shape.fence true x) s (((fun s =>
  match s.core.act with
  | none => .ok s
  | some a =>
    let home := s.core.homeStore.toNat
    if x.scope = 0 then .ok (s.leaveTokens (x.order s) [])
    else
      let mine := (s.accessesOf s.core.psn).filter (fun y => !y.2.engine && y.2.serial == a.serial && decide (y.2.scope home ≤ x.scope))
      let held := (mine.map (·.1) ++ (x.order s).after.filter (fun i => !s.gone [i])).eraseDups
      .ok ((s.mapAct (fun a => { a with fences := a.fences.filter (fun f => !s.gone f.2) ++ [(x.scope, held)] })).leaveTokens (x.order s) held)) : Body') (past (.fence x) s)) := by
  simp only [exec_fence, execFence]; exact issueM_ready Shape.fence x _ s h
theorem run_ojoin (x : Long) (s : State) (h : issues (.ojoin x) s = true) :
    exec (.ojoin x) s = settle (longForm Shape.ojoin false x) s (((fun s =>
  .ok (s.setTok x.d.toNat (s.tok x.a.toNat ++ s.tok x.b.toNat).eraseDups)) : Body') (past (.ojoin x) s)) := by
  simp only [exec_ojoin, execOjoin]; exact issueL_ready Shape.ojoin x _ s h
theorem run_cpy (x : Long) (s : State) (h : issues (.cpy x) s = true) :
    exec (.cpy x) s = settle (longForm Shape.cpy true x) s (((cpyBody x.bytes x.d.toNat x.a.toNat x.b.toNat x.copyFill x.copyLength x.order) : Body') (past (.cpy x) s)) := by
  simp only [exec_cpy, execCpy]; exact issueM_ready Shape.cpy x _ s h
theorem run_cpyHandle (x : Long) (s : State) (h : issues (.cpyHandle x) s = true) :
    exec (.cpyHandle x) s = settle (longForm Shape.cpyHandle true x) s (((cpyHandleBody x.bytes x.d.toNat x.a.toNat x.b.toNat x.copyFill x.copyLength x.order) : Body') (past (.cpyHandle x) s)) := by
  simp only [exec_cpyHandle, execCpyHandle]; exact issueM_ready Shape.cpyHandle x _ s h
theorem run_cpy4 (x : Long) (s : State) (h : issues (.cpy4 x) s = true) :
    exec (.cpy4 x) s = settle (longForm Shape.cpy4 true x) s (((cpy4Body x.bytes x.d.toNat x.a.toNat x.b.toNat (x.sub.getLsbD 0) (fun s => (s.g x.c.toNat).toNat) x.order) : Body') (past (.cpy4 x) s)) := by
  simp only [exec_cpy4, execCpy4]; exact issueM_ready Shape.cpy4 x _ s h
theorem run_cpyg (x : Long) (s : State) (h : issues (.cpyg x) s = true) :
    exec (.cpyg x) s = settle (longForm Shape.cpyg true x) s (((cpygBody x.bytes x.d.toNat x.a.toNat x.b.toNat (x.hi.toNat % 8) (x.hi.toNat / 8 + 1) (fun s => (s.g x.c.toNat).toNat) x.order) : Body') (past (.cpyg x) s)) := by
  simp only [exec_cpyg, execCpyg]; exact issueM_ready Shape.cpyg x _ s h
theorem run_batch (x : Long) (s : State) (h : issues (.batch x) s = true) :
    exec (.batch x) s = settle (longForm Shape.batch false x) s ((closeBatch : Body') (past (.batch x) s)) := by
  simp only [exec_batch, execBatch]; exact issueL_ready Shape.batch x _ s h
theorem run_stcfg (x : Long) (s : State) (h : issues (.stcfg x) s = true) :
    exec (.stcfg x) s = settle (longForm Shape.stcfg false x) s (((stcfgBody x.a.toNat x.indexB (·.g x.c.toNat)) : Body') (past (.stcfg x) s)) := by
  simp only [exec_stcfg, execStcfg]; exact issueL_ready Shape.stcfg x _ s h
theorem run_sbufw (x : Long) (s : State) (h : issues (.sbufw x) s = true) :
    exec (.sbufw x) s = settle (longForm Shape.sbufw false x) s (((sbufwBody x.a.toNat x.indexB (x.hi.getLsbD 0)) : Body') (past (.sbufw x) s)) := by
  simp only [exec_sbufw, execSbufw]; exact issueL_ready Shape.sbufw x _ s h
theorem run_sbufset (x : Long) (s : State) (h : issues (.sbufset x) s = true) :
    exec (.sbufset x) s = settle (longForm Shape.sbufset false x) s (((sbufsetBody x.a.toNat x.indexB (x.hi.getLsbD 0)) : Body') (past (.sbufset x) s)) := by
  simp only [exec_sbufset, execSbufset]; exact issueL_ready Shape.sbufset x _ s h
theorem run_splice (x : Long) (s : State) (h : issues (.splice x) s = true) :
    exec (.splice x) s = settle (longForm Shape.splice false x) s (((spliceBody x.d.toNat (x.hi.toNat % 32) (·.g x.a.toNat) (·.g x.b.toNat)) : Body') (past (.splice x) s)) := by
  simp only [exec_splice, execSplice]; exact issueP_ready Shape.splice x _ s h
theorem run_drd (x : Long) (s : State) (h : issues (.drd x) s = true) :
    exec (.drd x) s = settle (longForm Shape.drd true x) s (((drdBody x (x.hi.toNat % 1024 + 1)) : Body') (past (.drd x) s)) := by
  simp only [exec_drd, execDrd]; exact issueM_ready Shape.drd x _ s h
theorem run_dwr (x : Long) (s : State) (h : issues (.dwr x) s = true) :
    exec (.dwr x) s = settle (longForm Shape.dwr true x) s (((dwrBody x (x.hi.toNat % 64 + 1)) : Body') (past (.dwr x) s)) := by
  simp only [exec_dwr, execDwr]; exact issueM_ready Shape.dwr x _ s h
theorem run_dgath (x : Long) (s : State) (h : issues (.dgath x) s = true) :
    exec (.dgath x) s = settle (longForm Shape.dgath true x) s (((dgathBody x (x.hi.toNat % 128 + 1) (x.hi.toNat / 128 % 8 + 1)) : Body') (past (.dgath x) s)) := by
  simp only [exec_dgath, execDgath]; exact issueM_ready Shape.dgath x _ s h
theorem run_flush (x : Long) (s : State) (h : issues (.flush x) s = true) :
    exec (.flush x) s = settle (longForm Shape.flush true x) s (((flushBody x (x.hi.toNat % 32)) : Body') (past (.flush x) s)) := by
  simp only [exec_flush, execFlush]; exact issueM_ready Shape.flush x _ s h
theorem run_rowopen (x : Long) (s : State) (h : issues (.rowopen x) s = true) :
    exec (.rowopen x) s = settle (longForm Shape.rowopen true x) s (((rowopenBody x) : Body') (past (.rowopen x) s)) := by
  simp only [exec_rowopen, execRowopen]; exact issueM_ready Shape.rowopen x _ s h
theorem run_rowhold (x : Long) (s : State) (h : issues (.rowhold x) s = true) :
    exec (.rowhold x) s = settle (longForm Shape.rowhold true x) s (((rowRequest x 4 .load (fun _ => 0) 0 toUnit (plainUse (.result x.d.toNat))) : Body') (past (.rowhold x) s)) := by
  simp only [exec_rowhold, execRowhold]; exact issueM_ready Shape.rowhold x _ s h
theorem run_rowrel (x : Long) (s : State) (h : issues (.rowrel x) s = true) :
    exec (.rowrel x) s = settle (longForm Shape.rowrel true x) s (((rowRequest x 5 .store (fun _ => 0) 0 toUnit (plainUse .none)) : Body') (past (.rowrel x) s)) := by
  simp only [exec_rowrel, execRowrel]; exact issueM_ready Shape.rowrel x _ s h
theorem run_rowrd (x : Long) (s : State) (h : issues (.rowrd x) s = true) :
    exec (.rowrd x) s = settle (longForm Shape.rowrd true x) s (((rowRequest x 6 .load (offsetB x) (x.hi.toNat % 1024 + 1) (fun s => s.target x.sub.toNat x.d.toNat x.c.toNat (x.hi.toNat % 1024 + 1) (x.hi.toNat % 1024 + 1)) (plainUse .none)) : Body') (past (.rowrd x) s)) := by
  simp only [exec_rowrd, execRowrd]; exact issueM_ready Shape.rowrd x _ s h
theorem run_rowrdv (x : Long) (s : State) (h : issues (.rowrdv x) s = true) :
    exec (.rowrdv x) s = settle (longForm Shape.rowrdv true x) s (((fun s => do
  unlessWait (s.vland x.d.toNat none 0 64 0)
  rowRequest x 6 .load (offsetB x) 64 toUnit
    (fun s => (s.vland x.d.toNat none (s.vold x.d.toNat) 64 (BitVec.allOnes 64)).map (fun r => ([], r.1, r.2))) s) : Body') (past (.rowrdv x) s)) := by
  simp only [exec_rowrdv, execRowrdv]; exact issueM_ready Shape.rowrdv x _ s h
theorem run_rowwr (x : Long) (s : State) (h : issues (.rowwr x) s = true) :
    exec (.rowwr x) s = settle (longForm Shape.rowwr true x) s (((fun s => do
    unlessWait (s.popAll [(x.c.toNat, none)])
    rowRequest x 7 .store (offsetB x) (x.hi.toNat % 64 + 1) toUnit (fun s => do
      let t ← s.popAll [(x.c.toNat, none)]
      return ((leBytes 64 (t.vin x.c.toNat).toNat).take (x.hi.toNat % 64 + 1), .none, t)) s) : Body') (past (.rowwr x) s)) := by
  simp only [exec_rowwr, execRowwr]; exact issueM_ready Shape.rowwr x _ s h
theorem run_rowstat (x : Long) (s : State) (h : issues (.rowstat x) s = true) :
    exec (.rowstat x) s = settle (longForm Shape.rowstat true x) s (((rowRequest x 8 .load (fun _ => 0) 0 toUnit (plainUse (.result x.d.toNat))) : Body') (past (.rowstat x) s)) := by
  simp only [exec_rowstat, execRowstat]; exact issueM_ready Shape.rowstat x _ s h
theorem run_scfg (x : Long) (s : State) (h : issues (.scfg x) s = true) :
    exec (.scfg x) s = settle (longForm Shape.scfg false x) s (((scfgBody x.d.toNat (fun s => (s.g x.a.toNat).toNat)) : Body') (past (.scfg x) s)) := by
  simp only [exec_scfg, execScfg]; exact issueL_ready Shape.scfg x _ s h
theorem run_sbind (x : Long) (s : State) (h : issues (.sbind x) s = true) :
    exec (.sbind x) s = settle (longForm Shape.sbind true x) s (((sbindBody x.d.toNat x.b.toNat x.order) : Body') (past (.sbind x) s)) := by
  simp only [exec_sbind, execSbind]; exact issueM_ready Shape.sbind x _ s h
theorem run_sunbind (x : Long) (s : State) (h : issues (.sunbind x) s = true) :
    exec (.sunbind x) s = settle (longForm Shape.sunbind true x) s (((sunbindBody x.d.toNat x.order) : Body') (past (.sunbind x) s)) := by
  simp only [exec_sunbind, execSunbind]; exact issueM_ready Shape.sunbind x _ s h
theorem run_spredAttach (x : Long) (s : State) (h : issues (.spredAttach x) s = true) :
    exec (.spredAttach x) s = settle (longForm Shape.spredAttach false x) s (((spredBody x.d.toNat x.a.toNat (fun s => (s.g x.b.toNat).toNat)) : Body') (past (.spredAttach x) s)) := by
  simp only [exec_spredAttach, execSpredAttach]; exact issueL_ready Shape.spredAttach x _ s h
theorem run_spredRead (x : Long) (s : State) (h : issues (.spredRead x) s = true) :
    exec (.spredRead x) s = settle (longForm Shape.spredRead false x) s (((spredReadBody x.d.toNat x.a.toNat) : Body') (past (.spredRead x) s)) := by
  simp only [exec_spredRead, execSpredRead]; exact issueL_ready Shape.spredRead x _ s h
theorem run_spos (x : Long) (s : State) (h : issues (.spos x) s = true) :
    exec (.spos x) s = settle (longForm Shape.spos false x) s (((sposBody x.d.toNat x.a.toNat) : Body') (past (.spos x) s)) := by
  simp only [exec_spos, execSpos]; exact issueL_ready Shape.spos x _ s h
theorem run_vld (x : Long) (s : State) (h : issues (.vld x) s = true) :
    exec (.vld x) s = settle (longForm Shape.vld true x) s (((vldBody x.bytes x.d.toNat x.runLength x.a.toNat (x.c.getLsbD 5) x.memOff x.order) : Body') (past (.vld x) s)) := by
  simp only [exec_vld, execVld]; exact issueM_ready Shape.vld x _ s h
theorem run_vldL32B (x : ShortB) (s : State) (h : issues (.vldL32B x) s = true) :
    exec (.vldL32B x) s = settle (shortBForm Shape.vldL32B x) s (((vldBody 4 x.d.toNat 1 x.a.toNat false (fun s => s.offset 0 (x.imm.toInt * 64)) (fun _ => Order.none)) : Body') (past (.vldL32B x) s)) := by
  simp only [exec_vldL32B, execVldL32B]; exact issueB_ready Shape.vldL32B x _ s h
theorem run_vst (x : Long) (s : State) (h : issues (.vst x) s = true) :
    exec (.vst x) s = settle (longForm Shape.vst true x) s (((vstBody x.bytes x.d.toNat x.runLength x.a.toNat x.memOff x.order) : Body') (past (.vst x) s)) := by
  simp only [exec_vst, execVst]; exact issueM_ready Shape.vst x _ s h
theorem run_vstL32B (x : ShortB) (s : State) (h : issues (.vstL32B x) s = true) :
    exec (.vstL32B x) s = settle (shortBForm Shape.vstL32B x) s (((vstBody 4 x.d.toNat 1 x.a.toNat (fun s => s.offset 0 (x.imm.toInt * 64)) (fun _ => Order.none)) : Body') (past (.vstL32B x) s)) := by
  simp only [exec_vstL32B, execVstL32B]; exact issueB_ready Shape.vstL32B x _ s h
theorem run_vldg (x : Long) (s : State) (h : issues (.vldg x) s = true) :
    exec (.vldg x) s = settle (longForm Shape.vldg true x) s (((vldgBody x) : Body') (past (.vldg x) s)) := by
  simp only [exec_vldg, execVldg]; exact issueM_ready Shape.vldg x _ s h
theorem run_vsts (x : Long) (s : State) (h : issues (.vsts x) s = true) :
    exec (.vsts x) s = settle (longForm Shape.vsts true x) s (((vstsBody x) : Body') (past (.vsts x) s)) := by
  simp only [exec_vsts, execVsts]; exact issueM_ready Shape.vsts x _ s h
theorem run_vbcast (x : Long) (s : State) (h : issues (.vbcast x) s = true) :
    exec (.vbcast x) s = settle (longForm Shape.vbcast false x) s (((vbcastBody x) : Body') (past (.vbcast x) s)) := by
  simp only [exec_vbcast, execVbcast]; exact issueL_ready Shape.vbcast x _ s h
theorem run_vmov (x : Long) (s : State) (h : issues (.vmov x) s = true) :
    exec (.vmov x) s = settle (longForm Shape.vmov false x) s (((x.lanewise x.srcA1 x.va) : Body') (past (.vmov x) s)) := by
  simp only [exec_vmov, execVmov]; exact issueL_ready Shape.vmov x _ s h
theorem run_vmovmExtract (x : Long) (s : State) (h : issues (.vmovmExtract x) s = true) :
    exec (.vmovmExtract x) s = settle (longForm Shape.vmovmExtract false x) s (((vmovmExtractBody x) : Body') (past (.vmovmExtract x) s)) := by
  simp only [exec_vmovmExtract, execVmovmExtract]; exact issueL_ready Shape.vmovmExtract x _ s h
theorem run_vmovmInsert (x : Long) (s : State) (h : issues (.vmovmInsert x) s = true) :
    exec (.vmovmInsert x) s = settle (longForm Shape.vmovmInsert false x) s (((vmovmInsertBody x) : Body') (past (.vmovmInsert x) s)) := by
  simp only [exec_vmovmInsert, execVmovmInsert]; exact issueL_ready Shape.vmovmInsert x _ s h
theorem run_vperm (x : Long) (s : State) (h : issues (.vperm x) s = true) :
    exec (.vperm x) s = settle (longForm Shape.vperm false x) s (((x.lanewise x.srcAB (fun s k => x.va s (x.vb s k % lanes x.ty))) : Body') (past (.vperm x) s)) := by
  simp only [exec_vperm, execVperm]; exact issueL_ready Shape.vperm x _ s h
theorem run_vslide (x : Long) (s : State) (h : issues (.vslide x) s = true) :
    exec (.vslide x) s = settle (longForm Shape.vslide false x) s (((x.lanewise x.srcAB (fun s k =>
  if k + x.c.toNat < lanes x.ty then x.va s (k + x.c.toNat) else x.vb s (k + x.c.toNat - lanes x.ty))) : Body') (past (.vslide x) s)) := by
  simp only [exec_vslide, execVslide]; exact issueL_ready Shape.vslide x _ s h
theorem run_vadd (x : Long) (s : State) (h : issues (.vadd x) s = true) :
    exec (.vadd x) s = settle (longForm Shape.vadd false x) s (((x.vec2 elemAdd) : Body') (past (.vadd x) s)) := by
  simp only [exec_vadd, execVadd]; exact issueL_ready Shape.vadd x _ s h
theorem run_vsub (x : Long) (s : State) (h : issues (.vsub x) s = true) :
    exec (.vsub x) s = settle (longForm Shape.vsub false x) s (((x.vec2 elemSub) : Body') (past (.vsub x) s)) := by
  simp only [exec_vsub, execVsub]; exact issueL_ready Shape.vsub x _ s h
theorem run_vmul (x : Long) (s : State) (h : issues (.vmul x) s = true) :
    exec (.vmul x) s = settle (longForm Shape.vmul false x) s (((x.vec2 elemMul) : Body') (past (.vmul x) s)) := by
  simp only [exec_vmul, execVmul]; exact issueL_ready Shape.vmul x _ s h
theorem run_vfma (x : Long) (s : State) (h : issues (.vfma x) s = true) :
    exec (.vfma x) s = settle (longForm Shape.vfma false x) s (((x.vec3 vfmaOf) : Body') (past (.vfma x) s)) := by
  simp only [exec_vfma, execVfma]; exact issueL_ready Shape.vfma x _ s h
theorem run_vmin (x : Long) (s : State) (h : issues (.vmin x) s = true) :
    exec (.vmin x) s = settle (longForm Shape.vmin false x) s (((x.vec2 vminOf) : Body') (past (.vmin x) s)) := by
  simp only [exec_vmin, execVmin]; exact issueL_ready Shape.vmin x _ s h
theorem run_vmax (x : Long) (s : State) (h : issues (.vmax x) s = true) :
    exec (.vmax x) s = settle (longForm Shape.vmax false x) s (((x.vec2 vmaxOf) : Body') (past (.vmax x) s)) := by
  simp only [exec_vmax, execVmax]; exact issueL_ready Shape.vmax x _ s h
theorem run_vabs (x : Long) (s : State) (h : issues (.vabs x) s = true) :
    exec (.vabs x) s = settle (longForm Shape.vabs false x) s (((x.vec1 vabsOf) : Body') (past (.vabs x) s)) := by
  simp only [exec_vabs, execVabs]; exact issueL_ready Shape.vabs x _ s h
theorem run_vneg (x : Long) (s : State) (h : issues (.vneg x) s = true) :
    exec (.vneg x) s = settle (longForm Shape.vneg false x) s (((x.vec1 vnegOf) : Body') (past (.vneg x) s)) := by
  simp only [exec_vneg, execVneg]; exact issueL_ready Shape.vneg x _ s h
theorem run_vdiv (x : Long) (s : State) (h : issues (.vdiv x) s = true) :
    exec (.vdiv x) s = settle (longForm Shape.vdiv false x) s (((x.vec2 vdivOf) : Body') (past (.vdiv x) s)) := by
  simp only [exec_vdiv, execVdiv]; exact issueL_ready Shape.vdiv x _ s h
theorem run_vsqrt (x : Long) (s : State) (h : issues (.vsqrt x) s = true) :
    exec (.vsqrt x) s = settle (longForm Shape.vsqrt false x) s (((x.vec1 vsqrtOf) : Body') (past (.vsqrt x) s)) := by
  simp only [exec_vsqrt, execVsqrt]; exact issueL_ready Shape.vsqrt x _ s h
theorem run_vrcp (x : Long) (s : State) (h : issues (.vrcp x) s = true) :
    exec (.vrcp x) s = settle (longForm Shape.vrcp false x) s (((x.vec1 vrcpOf) : Body') (past (.vrcp x) s)) := by
  simp only [exec_vrcp, execVrcp]; exact issueL_ready Shape.vrcp x _ s h
theorem run_vrsqrt (x : Long) (s : State) (h : issues (.vrsqrt x) s = true) :
    exec (.vrsqrt x) s = settle (longForm Shape.vrsqrt false x) s (((x.vec1 vrsqrtOf) : Body') (past (.vrsqrt x) s)) := by
  simp only [exec_vrsqrt, execVrsqrt]; exact issueL_ready Shape.vrsqrt x _ s h
theorem run_vexp2 (x : Long) (s : State) (h : issues (.vexp2 x) s = true) :
    exec (.vexp2 x) s = settle (longForm Shape.vexp2 false x) s (((x.vec1 vexp2Of) : Body') (past (.vexp2 x) s)) := by
  simp only [exec_vexp2, execVexp2]; exact issueL_ready Shape.vexp2 x _ s h
theorem run_vlog2 (x : Long) (s : State) (h : issues (.vlog2 x) s = true) :
    exec (.vlog2 x) s = settle (longForm Shape.vlog2 false x) s (((x.vec1 vlog2Of) : Body') (past (.vlog2 x) s)) := by
  simp only [exec_vlog2, execVlog2]; exact issueL_ready Shape.vlog2 x _ s h
theorem run_vsin (x : Long) (s : State) (h : issues (.vsin x) s = true) :
    exec (.vsin x) s = settle (longForm Shape.vsin false x) s (((x.vec1 vsinOf) : Body') (past (.vsin x) s)) := by
  simp only [exec_vsin, execVsin]; exact issueL_ready Shape.vsin x _ s h
theorem run_vcos (x : Long) (s : State) (h : issues (.vcos x) s = true) :
    exec (.vcos x) s = settle (longForm Shape.vcos false x) s (((x.vec1 vcosOf) : Body') (past (.vcos x) s)) := by
  simp only [exec_vcos, execVcos]; exact issueL_ready Shape.vcos x _ s h
theorem run_vtanh (x : Long) (s : State) (h : issues (.vtanh x) s = true) :
    exec (.vtanh x) s = settle (longForm Shape.vtanh false x) s (((x.vec1 vtanhOf) : Body') (past (.vtanh x) s)) := by
  simp only [exec_vtanh, execVtanh]; exact issueL_ready Shape.vtanh x _ s h
theorem run_vand (x : Long) (s : State) (h : issues (.vand x) s = true) :
    exec (.vand x) s = settle (longForm Shape.vand false x) s (((x.vec2 vandOf) : Body') (past (.vand x) s)) := by
  simp only [exec_vand, execVand]; exact issueL_ready Shape.vand x _ s h
theorem run_vor (x : Long) (s : State) (h : issues (.vor x) s = true) :
    exec (.vor x) s = settle (longForm Shape.vor false x) s (((x.vec2 vorOf) : Body') (past (.vor x) s)) := by
  simp only [exec_vor, execVor]; exact issueL_ready Shape.vor x _ s h
theorem run_vxor (x : Long) (s : State) (h : issues (.vxor x) s = true) :
    exec (.vxor x) s = settle (longForm Shape.vxor false x) s (((x.vec2 vxorOf) : Body') (past (.vxor x) s)) := by
  simp only [exec_vxor, execVxor]; exact issueL_ready Shape.vxor x _ s h
theorem run_vshl (x : Long) (s : State) (h : issues (.vshl x) s = true) :
    exec (.vshl x) s = settle (longForm Shape.vshl false x) s (((x.vec2 vshlOf) : Body') (past (.vshl x) s)) := by
  simp only [exec_vshl, execVshl]; exact issueL_ready Shape.vshl x _ s h
theorem run_vshr (x : Long) (s : State) (h : issues (.vshr x) s = true) :
    exec (.vshr x) s = settle (longForm Shape.vshr false x) s (((x.vec2 vshrOf) : Body') (past (.vshr x) s)) := by
  simp only [exec_vshr, execVshr]; exact issueL_ready Shape.vshr x _ s h
theorem run_vsha (x : Long) (s : State) (h : issues (.vsha x) s = true) :
    exec (.vsha x) s = settle (longForm Shape.vsha false x) s (((x.vec2 vshaOf) : Body') (past (.vsha x) s)) := by
  simp only [exec_vsha, execVsha]; exact issueL_ready Shape.vsha x _ s h
theorem run_vcmp (x : Long) (s : State) (h : issues (.vcmp x) s = true) :
    exec (.vcmp x) s = settle (longForm Shape.vcmp false x) s (((vcmpBody x) : Body') (past (.vcmp x) s)) := by
  simp only [exec_vcmp, execVcmp]; exact issueL_ready Shape.vcmp x _ s h
theorem run_vsel (x : Long) (s : State) (h : issues (.vsel x) s = true) :
    exec (.vsel x) s = settle (longForm Shape.vsel false x) s (((vselBody x) : Body') (past (.vsel x) s)) := by
  simp only [exec_vsel, execVsel]; exact issueL_ready Shape.vsel x _ s h
theorem run_vcvt (x : Long) (s : State) (h : issues (.vcvt x) s = true) :
    exec (.vcvt x) s = settle (longForm Shape.vcvt false x) s (((vcvtBody x) : Body') (past (.vcvt x) s)) := by
  simp only [exec_vcvt, execVcvt]; exact issueL_ready Shape.vcvt x _ s h
theorem run_vpack (x : Long) (s : State) (h : issues (.vpack x) s = true) :
    exec (.vpack x) s = settle (longForm Shape.vpack false x) s (((vpackBody x) : Body') (past (.vpack x) s)) := by
  simp only [exec_vpack, execVpack]; exact issueL_ready Shape.vpack x _ s h
theorem run_vunpack (x : Long) (s : State) (h : issues (.vunpack x) s = true) :
    exec (.vunpack x) s = settle (longForm Shape.vunpack false x) s (((vunpackBody x) : Body') (past (.vunpack x) s)) := by
  simp only [exec_vunpack, execVunpack]; exact issueL_ready Shape.vunpack x _ s h
theorem run_vred (x : Long) (s : State) (h : issues (.vred x) s = true) :
    exec (.vred x) s = settle (longForm Shape.vred false x) s (((vredBody x) : Body') (past (.vred x) s)) := by
  simp only [exec_vred, execVred]; exact issueL_ready Shape.vred x _ s h
theorem run_vscan (x : Long) (s : State) (h : issues (.vscan x) s = true) :
    exec (.vscan x) s = settle (longForm Shape.vscan false x) s (((vscanBody x) : Body') (past (.vscan x) s)) := by
  simp only [exec_vscan, execVscan]; exact issueL_ready Shape.vscan x _ s h
theorem run_vdot (x : Long) (s : State) (h : issues (.vdot x) s = true) :
    exec (.vdot x) s = settle (longForm Shape.vdot false x) s (((vdotBody x) : Body') (past (.vdot x) s)) := by
  simp only [exec_vdot, execVdot]; exact issueL_ready Shape.vdot x _ s h
theorem run_mzero (x : Long) (s : State) (h : issues (.mzero x) s = true) :
    exec (.mzero x) s = relayed s (settle (longForm Shape.mzero false x) s (((matrixBody x 0x200 0) : Body') (past (.mzero x) s))) := (exec_mzero x s).trans (congrArg (relayed s) (issueL_ready Shape.mzero x _ s h))
theorem run_mma (x : Long) (s : State) (h : issues (.mma x) s = true) :
    exec (.mma x) s = relayed s (settle (longForm Shape.mma true x) s (((matrixBody x 0x201 2) : Body') (past (.mma x) s))) := (exec_mma x s).trans (congrArg (relayed s) (issueM_ready Shape.mma x _ s h))
theorem run_mmaq (x : Long) (s : State) (h : issues (.mmaq x) s = true) :
    exec (.mmaq x) s = relayed s (settle (longForm Shape.mmaq true x) s (((matrixBody x 0x202 2) : Body') (past (.mmaq x) s))) := (exec_mmaq x s).trans (congrArg (relayed s) (issueM_ready Shape.mmaq x _ s h))
theorem run_mmad (x : Long) (s : State) (h : issues (.mmad x) s = true) :
    exec (.mmad x) s = relayed s (settle (longForm Shape.mmad true x) s (((mmadBody x) : Body') (past (.mmad x) s))) := (exec_mmad x s).trans (congrArg (relayed s) (issueM_ready Shape.mmad x _ s h))
theorem run_mread (x : Long) (s : State) (h : issues (.mread x) s = true) :
    exec (.mread x) s = relayed s (settle (longForm Shape.mread true x) s (((matrixBody x 0x208 1) : Body') (past (.mread x) s))) := (exec_mread x s).trans (congrArg (relayed s) (issueM_ready Shape.mread x _ s h))
theorem run_mreadk (x : Long) (s : State) (h : issues (.mreadk x) s = true) :
    exec (.mreadk x) s = relayed s (settle (longForm Shape.mreadk false x) s (((matrixBody x 0x209 0) : Body') (past (.mreadk x) s))) := (exec_mreadk x s).trans (congrArg (relayed s) (issueL_ready Shape.mreadk x _ s h))
theorem run_macc (x : Long) (s : State) (h : issues (.macc x) s = true) :
    exec (.macc x) s = relayed s (settle (longForm Shape.macc false x) s (((matrixBody x 0x20A 0) : Body') (past (.macc x) s))) := (exec_macc x s).trans (congrArg (relayed s) (issueL_ready Shape.macc x _ s h))
theorem run_maccMov (x : Long) (s : State) (h : issues (.maccMov x) s = true) :
    exec (.maccMov x) s = relayed s (settle (longForm Shape.maccMov false x) s (((matrixBody x 0x20A 0) : Body') (past (.maccMov x) s))) := (exec_maccMov x s).trans (congrArg (relayed s) (issueL_ready Shape.maccMov x _ s h))
theorem run_mstat (x : Long) (s : State) (h : issues (.mstat x) s = true) :
    exec (.mstat x) s = relayed s (settle (longForm Shape.mstat false x) s (((mstatBody x) : Body') (past (.mstat x) s))) := (exec_mstat x s).trans (congrArg (relayed s) (issueL_ready Shape.mstat x _ s h))
theorem run_mmode (x : Long) (s : State) (h : issues (.mmode x) s = true) :
    exec (.mmode x) s = relayed s (settle (longForm Shape.mmode false x) s (((mmodeBody x) : Body') (past (.mmode x) s))) := (exec_mmode x s).trans (congrArg (relayed s) (issueL_ready Shape.mmode x _ s h))
theorem run_rjoin (x : Long) (s : State) (h : issues (.rjoin x) s = true) :
    exec (.rjoin x) s = settle (longForm Shape.rjoin false x) s (((rjoinBody x.d.toNat) : Body') (past (.rjoin x) s)) := by
  simp only [exec_rjoin, execRjoin]; exact issueL_ready Shape.rjoin x _ s h
theorem run_rleave (x : Long) (s : State) (h : issues (.rleave x) s = true) :
    exec (.rleave x) s = settle (longForm Shape.rleave false x) s (((rleaveBody x.d.toNat) : Body') (past (.rleave x) s)) := by
  simp only [exec_rleave, execRleave]; exact issueL_ready Shape.rleave x _ s h
theorem run_rmset (x : Long) (s : State) (h : issues (.rmset x) s = true) :
    exec (.rmset x) s = settle (longForm Shape.rmset false x) s (((rmsetBody x) : Body') (past (.rmset x) s)) := by
  simp only [exec_rmset, execRmset]; exact issueL_ready Shape.rmset x _ s h
theorem run_rmclr (x : Long) (s : State) (h : issues (.rmclr x) s = true) :
    exec (.rmclr x) s = settle (longForm Shape.rmclr false x) s (((rmclrBody (fun s => (entryNumber x s).map (fun j => [j]))) : Body') (past (.rmclr x) s)) := by
  simp only [exec_rmclr, execRmclr]; exact issueL_ready Shape.rmclr x _ s h
theorem run_rmclrAll (x : Long) (s : State) (h : issues (.rmclrAll x) s = true) :
    exec (.rmclrAll x) s = settle (longForm Shape.rmclrAll false x) s (((rmclrBody (fun _ => .ok (List.range 64))) : Body') (past (.rmclrAll x) s)) := by
  simp only [exec_rmclrAll, execRmclrAll]; exact issueL_ready Shape.rmclrAll x _ s h
theorem run_rinj (x : Long) (s : State) (h : issues (.rinj x) s = true) :
    exec (.rinj x) s = settle (longForm Shape.rinj true x) s (((rinjBody x.a.toNat (fun s => s.offset x.b.toNat 0) (fun s => s.g x.c.toNat) x.order) : Body') (past (.rinj x) s)) := by
  simp only [exec_rinj, execRinj]; exact issueM_ready Shape.rinj x _ s h
theorem run_rdrain (x : Long) (s : State) (h : issues (.rdrain x) s = true) :
    exec (.rdrain x) s = settle (longForm Shape.rdrain false x) s (((rdrainBody x.d.toNat) : Body') (past (.rdrain x) s)) := by
  simp only [exec_rdrain, execRdrain]; exact issueL_ready Shape.rdrain x _ s h
theorem run_rstat (x : Long) (s : State) (h : issues (.rstat x) s = true) :
    exec (.rstat x) s = settle (longForm Shape.rstat false x) s (((rstatBody x.d.toNat x.hi.toNat) : Body') (past (.rstat x) s)) := by
  simp only [exec_rstat, execRstat]; exact issueL_ready Shape.rstat x _ s h
theorem run_relight (x : Long) (s : State) (h : issues (.relight x) s = true) :
    exec (.relight x) s = settle (longForm Shape.relight false x) s (((relightBody x.d.toNat x.hi.toNat) : Body') (past (.relight x) s)) := by
  simp only [exec_relight, execRelight]; exact issueL_ready Shape.relight x _ s h

end Sys2Proof.Laws
end

