-- ==== Sys2Proof/Laws/State.lean ====
section
/-! SUPPORT. What the updates of a core's registers read back as: one lemma for each field and each update. -/
namespace Sys2Proof.Laws
open Sys2Proof Sys2Proof.Machine

@[simp] theorem advance_g (s : State) (k : Nat) (n : Nat) : (s.advance k).g n = s.g n := rfl
@[simp] theorem advance_v (s : State) (k : Nat) (n : Nat) : (s.advance k).v n = s.v n := rfl
@[simp] theorem advance_p (s : State) (k : Nat) (n : Nat) : (s.advance k).p n = s.p n := rfl
@[simp] theorem advance_c (s : State) (k : Nat) (n : Nat) : (s.advance k).c n = s.c n := rfl
@[simp] theorem advance_tok (s : State) (k : Nat) (n : Nat) : (s.advance k).tok n = s.tok n := rfl
@[simp] theorem advance_mem (s : State) (k : Nat) : (s.advance k).mem = s.mem := rfl
@[simp] theorem advance_tags (s : State) (k : Nat) : (s.advance k).tags = s.tags := rfl
@[simp] theorem advance_cores (s : State) (k : Nat) : (s.advance k).cores = s.cores := rfl
@[simp] theorem advance_tiles (s : State) (k : Nat) : (s.advance k).tiles = s.tiles := rfl
@[simp] theorem advance_regions (s : State) (k : Nat) : (s.advance k).regions = s.regions := rfl
@[simp] theorem advance_routers (s : State) (k : Nat) : (s.advance k).routers = s.routers := rfl
@[simp] theorem advance_actors (s : State) (k : Nat) : (s.advance k).actors = s.actors := rfl
@[simp] theorem advance_hosts (s : State) (k : Nat) : (s.advance k).hosts = s.hosts := rfl
@[simp] theorem advance_graphs (s : State) (k : Nat) : (s.advance k).graphs = s.graphs := rfl
@[simp] theorem advance_module (s : State) (k : Nat) : (s.advance k).module = s.module := rfl
@[simp] theorem advance_tsc (s : State) (k : Nat) : (s.advance k).tsc = s.tsc := rfl
@[simp] theorem advance_flight (s : State) (k : Nat) : (s.advance k).flight = s.flight := rfl
@[simp] theorem advance_nextId (s : State) (k : Nat) : (s.advance k).nextId = s.nextId := rfl
@[simp] theorem advance_lastSource (s : State) (k : Nat) : (s.advance k).lastSource = s.lastSource := rfl
@[simp] theorem advance_nextSerial (s : State) (k : Nat) : (s.advance k).nextSerial = s.nextSerial := rfl
@[simp] theorem advance_free (s : State) (k : Nat) : (s.advance k).free = s.free := rfl
@[simp] theorem advance_schedule (s : State) (k : Nat) : (s.advance k).schedule = s.schedule := rfl
@[simp] theorem advance_core_act (s : State) (k : Nat) : (s.advance k).core.act = s.core.act := rfl
@[simp] theorem advance_core_psn (s : State) (k : Nat) : (s.advance k).core.psn = s.core.psn := rfl
@[simp] theorem advance_core_pend (s : State) (k : Nat) : (s.advance k).core.pend = s.core.pend := rfl
@[simp] theorem advance_core_acc (s : State) (k : Nat) : (s.advance k).core.acc = s.core.acc := rfl
@[simp] theorem advance_core_handlers (s : State) (k : Nat) : (s.advance k).core.handlers = s.core.handlers := rfl
@[simp] theorem advance_core_queues (s : State) (k : Nat) : (s.advance k).core.queues = s.core.queues := rfl
@[simp] theorem advance_core_q (s : State) (k : Nat) : (s.advance k).core.q = s.core.q := rfl
@[simp] theorem advance_core_copies (s : State) (k : Nat) : (s.advance k).core.copies = s.core.copies := rfl
@[simp] theorem advance_core_streams (s : State) (k : Nat) : (s.advance k).core.streams = s.core.streams := rfl
@[simp] theorem advance_core_name (s : State) (k : Nat) : (s.advance k).core.name = s.core.name := rfl
@[simp] theorem advance_core_homeStore (s : State) (k : Nat) : (s.advance k).core.homeStore = s.core.homeStore := rfl
@[simp] theorem advance_core_matMode (s : State) (k : Nat) : (s.advance k).core.matMode = s.core.matMode := rfl
@[simp] theorem advance_core_matOps (s : State) (k : Nat) : (s.advance k).core.matOps = s.core.matOps := rfl
@[simp] theorem advance_core_dtlb (s : State) (k : Nat) : (s.advance k).core.dtlb = s.core.dtlb := rfl
@[simp] theorem advance_core_itlb (s : State) (k : Nat) : (s.advance k).core.itlb = s.core.itlb := rfl
@[simp] theorem advance_core_queueOk (s : State) (k : Nat) : (s.advance k).core.queueOk = s.core.queueOk := rfl
@[simp] theorem advance_core_ringClaims (s : State) (k : Nat) : (s.advance k).core.ringClaims = s.core.ringClaims := rfl
@[simp] theorem advance_level (s : State) (k : Nat) : (s.advance k).level = s.level := rfl
@[simp] theorem advance_window (s : State) (k : Nat) : (s.advance k).window = s.window := rfl
@[simp] theorem advance_getTile (s : State) (k : Nat) (p : Psn) : (s.advance k).getTile p = s.getTile p := rfl
@[simp] theorem advance_getRegion (s : State) (k : Nat) (r : Nat) : (s.advance k).getRegion r = s.getRegion r := rfl
@[simp] theorem hold_g (s : State) (n : Nat) : (s.hold).g n = s.g n := rfl
@[simp] theorem hold_v (s : State) (n : Nat) : (s.hold).v n = s.v n := rfl
@[simp] theorem hold_p (s : State) (n : Nat) : (s.hold).p n = s.p n := rfl
@[simp] theorem hold_c (s : State) (n : Nat) : (s.hold).c n = s.c n := rfl
@[simp] theorem hold_tok (s : State) (n : Nat) : (s.hold).tok n = s.tok n := rfl
@[simp] theorem hold_mem (s : State) : (s.hold).mem = s.mem := rfl
@[simp] theorem hold_tags (s : State) : (s.hold).tags = s.tags := rfl
@[simp] theorem hold_cores (s : State) : (s.hold).cores = s.cores := rfl
@[simp] theorem hold_tiles (s : State) : (s.hold).tiles = s.tiles := rfl
@[simp] theorem hold_regions (s : State) : (s.hold).regions = s.regions := rfl
@[simp] theorem hold_routers (s : State) : (s.hold).routers = s.routers := rfl
@[simp] theorem hold_actors (s : State) : (s.hold).actors = s.actors := rfl
@[simp] theorem hold_hosts (s : State) : (s.hold).hosts = s.hosts := rfl
@[simp] theorem hold_graphs (s : State) : (s.hold).graphs = s.graphs := rfl
@[simp] theorem hold_module (s : State) : (s.hold).module = s.module := rfl
@[simp] theorem hold_tsc (s : State) : (s.hold).tsc = s.tsc := rfl
@[simp] theorem hold_flight (s : State) : (s.hold).flight = s.flight := rfl
@[simp] theorem hold_nextId (s : State) : (s.hold).nextId = s.nextId := rfl
@[simp] theorem hold_lastSource (s : State) : (s.hold).lastSource = s.lastSource := rfl
@[simp] theorem hold_nextSerial (s : State) : (s.hold).nextSerial = s.nextSerial := rfl
@[simp] theorem hold_free (s : State) : (s.hold).free = s.free := rfl
@[simp] theorem hold_schedule (s : State) : (s.hold).schedule = s.schedule := rfl
@[simp] theorem hold_core_act (s : State) : (s.hold).core.act = s.core.act := rfl
@[simp] theorem hold_core_psn (s : State) : (s.hold).core.psn = s.core.psn := rfl
@[simp] theorem hold_core_pend (s : State) : (s.hold).core.pend = s.core.pend := rfl
@[simp] theorem hold_core_acc (s : State) : (s.hold).core.acc = s.core.acc := rfl
@[simp] theorem hold_core_handlers (s : State) : (s.hold).core.handlers = s.core.handlers := rfl
@[simp] theorem hold_core_queues (s : State) : (s.hold).core.queues = s.core.queues := rfl
@[simp] theorem hold_core_q (s : State) : (s.hold).core.q = s.core.q := rfl
@[simp] theorem hold_core_copies (s : State) : (s.hold).core.copies = s.core.copies := rfl
@[simp] theorem hold_core_streams (s : State) : (s.hold).core.streams = s.core.streams := rfl
@[simp] theorem hold_core_name (s : State) : (s.hold).core.name = s.core.name := rfl
@[simp] theorem hold_core_homeStore (s : State) : (s.hold).core.homeStore = s.core.homeStore := rfl
@[simp] theorem hold_core_matMode (s : State) : (s.hold).core.matMode = s.core.matMode := rfl
@[simp] theorem hold_core_matOps (s : State) : (s.hold).core.matOps = s.core.matOps := rfl
@[simp] theorem hold_core_dtlb (s : State) : (s.hold).core.dtlb = s.core.dtlb := rfl
@[simp] theorem hold_core_itlb (s : State) : (s.hold).core.itlb = s.core.itlb := rfl
@[simp] theorem hold_core_queueOk (s : State) : (s.hold).core.queueOk = s.core.queueOk := rfl
@[simp] theorem hold_core_ringClaims (s : State) : (s.hold).core.ringClaims = s.core.ringClaims := rfl
@[simp] theorem hold_level (s : State) : (s.hold).level = s.level := rfl
@[simp] theorem hold_window (s : State) : (s.hold).window = s.window := rfl
@[simp] theorem hold_getTile (s : State) (p : Psn) : (s.hold).getTile p = s.getTile p := rfl
@[simp] theorem hold_getRegion (s : State) (r : Nat) : (s.hold).getRegion r = s.getRegion r := rfl
@[simp] theorem past_g (i : Instr) (s : State) (n : Nat) : (past i s).g n = s.g n := rfl
@[simp] theorem past_v (i : Instr) (s : State) (n : Nat) : (past i s).v n = s.v n := rfl
@[simp] theorem past_p (i : Instr) (s : State) (n : Nat) : (past i s).p n = s.p n := rfl
@[simp] theorem past_c (i : Instr) (s : State) (n : Nat) : (past i s).c n = s.c n := rfl
@[simp] theorem past_tok (i : Instr) (s : State) (n : Nat) : (past i s).tok n = s.tok n := rfl
@[simp] theorem past_mem (i : Instr) (s : State) : (past i s).mem = s.mem := rfl
@[simp] theorem past_tags (i : Instr) (s : State) : (past i s).tags = s.tags := rfl
@[simp] theorem past_cores (i : Instr) (s : State) : (past i s).cores = s.cores := rfl
@[simp] theorem past_tiles (i : Instr) (s : State) : (past i s).tiles = s.tiles := rfl
@[simp] theorem past_regions (i : Instr) (s : State) : (past i s).regions = s.regions := rfl
@[simp] theorem past_routers (i : Instr) (s : State) : (past i s).routers = s.routers := rfl
@[simp] theorem past_actors (i : Instr) (s : State) : (past i s).actors = s.actors := rfl
@[simp] theorem past_hosts (i : Instr) (s : State) : (past i s).hosts = s.hosts := rfl
@[simp] theorem past_graphs (i : Instr) (s : State) : (past i s).graphs = s.graphs := rfl
@[simp] theorem past_module (i : Instr) (s : State) : (past i s).module = s.module := rfl
@[simp] theorem past_tsc (i : Instr) (s : State) : (past i s).tsc = s.tsc := rfl
@[simp] theorem past_flight (i : Instr) (s : State) : (past i s).flight = s.flight := rfl
@[simp] theorem past_nextId (i : Instr) (s : State) : (past i s).nextId = s.nextId := rfl
@[simp] theorem past_lastSource (i : Instr) (s : State) : (past i s).lastSource = s.lastSource := rfl
@[simp] theorem past_nextSerial (i : Instr) (s : State) : (past i s).nextSerial = s.nextSerial := rfl
@[simp] theorem past_free (i : Instr) (s : State) : (past i s).free = s.free := rfl
@[simp] theorem past_schedule (i : Instr) (s : State) : (past i s).schedule = s.schedule := rfl
@[simp] theorem past_core_act (i : Instr) (s : State) : (past i s).core.act = s.core.act := rfl
@[simp] theorem past_core_psn (i : Instr) (s : State) : (past i s).core.psn = s.core.psn := rfl
@[simp] theorem past_core_pend (i : Instr) (s : State) : (past i s).core.pend = s.core.pend := rfl
@[simp] theorem past_core_acc (i : Instr) (s : State) : (past i s).core.acc = s.core.acc := rfl
@[simp] theorem past_core_handlers (i : Instr) (s : State) : (past i s).core.handlers = s.core.handlers := rfl
@[simp] theorem past_core_queues (i : Instr) (s : State) : (past i s).core.queues = s.core.queues := rfl
@[simp] theorem past_core_q (i : Instr) (s : State) : (past i s).core.q = s.core.q := rfl
@[simp] theorem past_core_copies (i : Instr) (s : State) : (past i s).core.copies = s.core.copies := rfl
@[simp] theorem past_core_streams (i : Instr) (s : State) : (past i s).core.streams = s.core.streams := rfl
@[simp] theorem past_core_name (i : Instr) (s : State) : (past i s).core.name = s.core.name := rfl
@[simp] theorem past_core_homeStore (i : Instr) (s : State) : (past i s).core.homeStore = s.core.homeStore := rfl
@[simp] theorem past_core_matMode (i : Instr) (s : State) : (past i s).core.matMode = s.core.matMode := rfl
@[simp] theorem past_core_matOps (i : Instr) (s : State) : (past i s).core.matOps = s.core.matOps := rfl
@[simp] theorem past_core_dtlb (i : Instr) (s : State) : (past i s).core.dtlb = s.core.dtlb := rfl
@[simp] theorem past_core_itlb (i : Instr) (s : State) : (past i s).core.itlb = s.core.itlb := rfl
@[simp] theorem past_core_queueOk (i : Instr) (s : State) : (past i s).core.queueOk = s.core.queueOk := rfl
@[simp] theorem past_core_ringClaims (i : Instr) (s : State) : (past i s).core.ringClaims = s.core.ringClaims := rfl
@[simp] theorem past_level (i : Instr) (s : State) : (past i s).level = s.level := rfl
@[simp] theorem past_window (i : Instr) (s : State) : (past i s).window = s.window := rfl
@[simp] theorem past_getTile (i : Instr) (s : State) (p : Psn) : (past i s).getTile p = s.getTile p := rfl
@[simp] theorem past_getRegion (i : Instr) (s : State) (r : Nat) : (past i s).getRegion r = s.getRegion r := rfl
@[simp] theorem setPc_g (s : State) (w : Word) (n : Nat) : (s.setPc w).g n = s.g n := rfl
@[simp] theorem setPc_v (s : State) (w : Word) (n : Nat) : (s.setPc w).v n = s.v n := rfl
@[simp] theorem setPc_p (s : State) (w : Word) (n : Nat) : (s.setPc w).p n = s.p n := rfl
@[simp] theorem setPc_c (s : State) (w : Word) (n : Nat) : (s.setPc w).c n = s.c n := rfl
@[simp] theorem setPc_tok (s : State) (w : Word) (n : Nat) : (s.setPc w).tok n = s.tok n := rfl
@[simp] theorem setPc_mem (s : State) (w : Word) : (s.setPc w).mem = s.mem := rfl
@[simp] theorem setPc_tags (s : State) (w : Word) : (s.setPc w).tags = s.tags := rfl
@[simp] theorem setPc_cores (s : State) (w : Word) : (s.setPc w).cores = s.cores := rfl
@[simp] theorem setPc_tiles (s : State) (w : Word) : (s.setPc w).tiles = s.tiles := rfl
@[simp] theorem setPc_regions (s : State) (w : Word) : (s.setPc w).regions = s.regions := rfl
@[simp] theorem setPc_routers (s : State) (w : Word) : (s.setPc w).routers = s.routers := rfl
@[simp] theorem setPc_actors (s : State) (w : Word) : (s.setPc w).actors = s.actors := rfl
@[simp] theorem setPc_hosts (s : State) (w : Word) : (s.setPc w).hosts = s.hosts := rfl
@[simp] theorem setPc_graphs (s : State) (w : Word) : (s.setPc w).graphs = s.graphs := rfl
@[simp] theorem setPc_module (s : State) (w : Word) : (s.setPc w).module = s.module := rfl
@[simp] theorem setPc_tsc (s : State) (w : Word) : (s.setPc w).tsc = s.tsc := rfl
@[simp] theorem setPc_flight (s : State) (w : Word) : (s.setPc w).flight = s.flight := rfl
@[simp] theorem setPc_nextId (s : State) (w : Word) : (s.setPc w).nextId = s.nextId := rfl
@[simp] theorem setPc_lastSource (s : State) (w : Word) : (s.setPc w).lastSource = s.lastSource := rfl
@[simp] theorem setPc_nextSerial (s : State) (w : Word) : (s.setPc w).nextSerial = s.nextSerial := rfl
@[simp] theorem setPc_free (s : State) (w : Word) : (s.setPc w).free = s.free := rfl
@[simp] theorem setPc_schedule (s : State) (w : Word) : (s.setPc w).schedule = s.schedule := rfl
@[simp] theorem setPc_core_act (s : State) (w : Word) : (s.setPc w).core.act = s.core.act := rfl
@[simp] theorem setPc_core_psn (s : State) (w : Word) : (s.setPc w).core.psn = s.core.psn := rfl
@[simp] theorem setPc_core_pend (s : State) (w : Word) : (s.setPc w).core.pend = s.core.pend := rfl
@[simp] theorem setPc_core_acc (s : State) (w : Word) : (s.setPc w).core.acc = s.core.acc := rfl
@[simp] theorem setPc_core_handlers (s : State) (w : Word) : (s.setPc w).core.handlers = s.core.handlers := rfl
@[simp] theorem setPc_core_queues (s : State) (w : Word) : (s.setPc w).core.queues = s.core.queues := rfl
@[simp] theorem setPc_core_q (s : State) (w : Word) : (s.setPc w).core.q = s.core.q := rfl
@[simp] theorem setPc_core_copies (s : State) (w : Word) : (s.setPc w).core.copies = s.core.copies := rfl
@[simp] theorem setPc_core_streams (s : State) (w : Word) : (s.setPc w).core.streams = s.core.streams := rfl
@[simp] theorem setPc_core_name (s : State) (w : Word) : (s.setPc w).core.name = s.core.name := rfl
@[simp] theorem setPc_core_homeStore (s : State) (w : Word) : (s.setPc w).core.homeStore = s.core.homeStore := rfl
@[simp] theorem setPc_core_matMode (s : State) (w : Word) : (s.setPc w).core.matMode = s.core.matMode := rfl
@[simp] theorem setPc_core_matOps (s : State) (w : Word) : (s.setPc w).core.matOps = s.core.matOps := rfl
@[simp] theorem setPc_core_dtlb (s : State) (w : Word) : (s.setPc w).core.dtlb = s.core.dtlb := rfl
@[simp] theorem setPc_core_itlb (s : State) (w : Word) : (s.setPc w).core.itlb = s.core.itlb := rfl
@[simp] theorem setPc_core_queueOk (s : State) (w : Word) : (s.setPc w).core.queueOk = s.core.queueOk := rfl
@[simp] theorem setPc_core_ringClaims (s : State) (w : Word) : (s.setPc w).core.ringClaims = s.core.ringClaims := rfl
@[simp] theorem setPc_level (s : State) (w : Word) : (s.setPc w).level = s.level := rfl
@[simp] theorem setPc_window (s : State) (w : Word) : (s.setPc w).window = s.window := rfl
@[simp] theorem setPc_getTile (s : State) (w : Word) (p : Psn) : (s.setPc w).getTile p = s.getTile p := rfl
@[simp] theorem setPc_getRegion (s : State) (w : Word) (r : Nat) : (s.setPc w).getRegion r = s.getRegion r := rfl
@[simp] theorem past_pc (i : Instr) (s : State) : (past i s).core.regs.pc = s.core.regs.pc + BitVec.ofNat 64 (byteLength i) := rfl
@[simp] theorem advance_pc (s : State) (k : Nat) : (s.advance k).core.regs.pc = s.core.regs.pc + BitVec.ofNat 64 k := rfl
@[simp] theorem setPc_pc (s : State) (w : Word) : (s.setPc w).core.regs.pc = w := rfl
@[simp] theorem hold_pc (s : State) : s.hold.core.regs.pc = s.core.regs.pc := rfl
@[simp] theorem hold_waiting (s : State) : s.hold.core.waiting = true := rfl
@[simp] theorem setG_v (s : State) (n : Nat) (w : Word) (m : Nat) : (s.setG n w).v m = s.v m := by unfold State.setG Core.setG; split <;> rfl
@[simp] theorem setG_p (s : State) (n : Nat) (w : Word) (m : Nat) : (s.setG n w).p m = s.p m := by unfold State.setG Core.setG; split <;> rfl
@[simp] theorem setG_c (s : State) (n : Nat) (w : Word) (m : Nat) : (s.setG n w).c m = s.c m := by unfold State.setG Core.setG; split <;> rfl
@[simp] theorem setG_tok (s : State) (n : Nat) (w : Word) (m : Nat) : (s.setG n w).tok m = s.tok m := by unfold State.setG Core.setG; split <;> rfl
@[simp] theorem setG_mem (s : State) (n : Nat) (w : Word) : (s.setG n w).mem = s.mem := rfl
@[simp] theorem setG_tags (s : State) (n : Nat) (w : Word) : (s.setG n w).tags = s.tags := rfl
@[simp] theorem setG_cores (s : State) (n : Nat) (w : Word) : (s.setG n w).cores = s.cores := rfl
@[simp] theorem setG_tiles (s : State) (n : Nat) (w : Word) : (s.setG n w).tiles = s.tiles := rfl
@[simp] theorem setG_regions (s : State) (n : Nat) (w : Word) : (s.setG n w).regions = s.regions := rfl
@[simp] theorem setG_routers (s : State) (n : Nat) (w : Word) : (s.setG n w).routers = s.routers := rfl
@[simp] theorem setG_actors (s : State) (n : Nat) (w : Word) : (s.setG n w).actors = s.actors := rfl
@[simp] theorem setG_hosts (s : State) (n : Nat) (w : Word) : (s.setG n w).hosts = s.hosts := rfl
@[simp] theorem setG_graphs (s : State) (n : Nat) (w : Word) : (s.setG n w).graphs = s.graphs := rfl
@[simp] theorem setG_module (s : State) (n : Nat) (w : Word) : (s.setG n w).module = s.module := rfl
@[simp] theorem setG_tsc (s : State) (n : Nat) (w : Word) : (s.setG n w).tsc = s.tsc := rfl
@[simp] theorem setG_flight (s : State) (n : Nat) (w : Word) : (s.setG n w).flight = s.flight := rfl
@[simp] theorem setG_nextId (s : State) (n : Nat) (w : Word) : (s.setG n w).nextId = s.nextId := rfl
@[simp] theorem setG_lastSource (s : State) (n : Nat) (w : Word) : (s.setG n w).lastSource = s.lastSource := rfl
@[simp] theorem setG_schedule (s : State) (n : Nat) (w : Word) : (s.setG n w).schedule = s.schedule := rfl
@[simp] theorem setG_core_act (s : State) (n : Nat) (w : Word) : (s.setG n w).core.act = s.core.act := by unfold State.setG Core.setG; split <;> rfl
@[simp] theorem setG_core_psn (s : State) (n : Nat) (w : Word) : (s.setG n w).core.psn = s.core.psn := by unfold State.setG Core.setG; split <;> rfl
@[simp] theorem setG_core_pend (s : State) (n : Nat) (w : Word) : (s.setG n w).core.pend = s.core.pend := by unfold State.setG Core.setG; split <;> rfl
@[simp] theorem setG_core_acc (s : State) (n : Nat) (w : Word) : (s.setG n w).core.acc = s.core.acc := by unfold State.setG Core.setG; split <;> rfl
@[simp] theorem setG_core_handlers (s : State) (n : Nat) (w : Word) : (s.setG n w).core.handlers = s.core.handlers := by unfold State.setG Core.setG; split <;> rfl
@[simp] theorem setG_core_queues (s : State) (n : Nat) (w : Word) : (s.setG n w).core.queues = s.core.queues := by unfold State.setG Core.setG; split <;> rfl
@[simp] theorem setG_core_q (s : State) (n : Nat) (w : Word) : (s.setG n w).core.q = s.core.q := by unfold State.setG Core.setG; split <;> rfl
@[simp] theorem setG_core_copies (s : State) (n : Nat) (w : Word) : (s.setG n w).core.copies = s.core.copies := by unfold State.setG Core.setG; split <;> rfl
@[simp] theorem setG_core_streams (s : State) (n : Nat) (w : Word) : (s.setG n w).core.streams = s.core.streams := by unfold State.setG Core.setG; split <;> rfl
@[simp] theorem setG_core_waiting (s : State) (n : Nat) (w : Word) : (s.setG n w).core.waiting = s.core.waiting := by unfold State.setG Core.setG; split <;> rfl
@[simp] theorem setG_pc (s : State) (n : Nat) (w : Word) : (s.setG n w).core.regs.pc = s.core.regs.pc := by unfold State.setG Core.setG; split <;> rfl
@[simp] theorem setV_g (s : State) (n : Nat) (w : VWord) (m : Nat) : (s.setV n w).g m = s.g m := rfl
@[simp] theorem setV_p (s : State) (n : Nat) (w : VWord) (m : Nat) : (s.setV n w).p m = s.p m := rfl
@[simp] theorem setV_c (s : State) (n : Nat) (w : VWord) (m : Nat) : (s.setV n w).c m = s.c m := rfl
@[simp] theorem setV_tok (s : State) (n : Nat) (w : VWord) (m : Nat) : (s.setV n w).tok m = s.tok m := rfl
@[simp] theorem setV_mem (s : State) (n : Nat) (w : VWord) : (s.setV n w).mem = s.mem := rfl
@[simp] theorem setV_tags (s : State) (n : Nat) (w : VWord) : (s.setV n w).tags = s.tags := rfl
@[simp] theorem setV_cores (s : State) (n : Nat) (w : VWord) : (s.setV n w).cores = s.cores := rfl
@[simp] theorem setV_tiles (s : State) (n : Nat) (w : VWord) : (s.setV n w).tiles = s.tiles := rfl
@[simp] theorem setV_regions (s : State) (n : Nat) (w : VWord) : (s.setV n w).regions = s.regions := rfl
@[simp] theorem setV_routers (s : State) (n : Nat) (w : VWord) : (s.setV n w).routers = s.routers := rfl
@[simp] theorem setV_actors (s : State) (n : Nat) (w : VWord) : (s.setV n w).actors = s.actors := rfl
@[simp] theorem setV_hosts (s : State) (n : Nat) (w : VWord) : (s.setV n w).hosts = s.hosts := rfl
@[simp] theorem setV_graphs (s : State) (n : Nat) (w : VWord) : (s.setV n w).graphs = s.graphs := rfl
@[simp] theorem setV_module (s : State) (n : Nat) (w : VWord) : (s.setV n w).module = s.module := rfl
@[simp] theorem setV_tsc (s : State) (n : Nat) (w : VWord) : (s.setV n w).tsc = s.tsc := rfl
@[simp] theorem setV_flight (s : State) (n : Nat) (w : VWord) : (s.setV n w).flight = s.flight := rfl
@[simp] theorem setV_nextId (s : State) (n : Nat) (w : VWord) : (s.setV n w).nextId = s.nextId := rfl
@[simp] theorem setV_lastSource (s : State) (n : Nat) (w : VWord) : (s.setV n w).lastSource = s.lastSource := rfl
@[simp] theorem setV_schedule (s : State) (n : Nat) (w : VWord) : (s.setV n w).schedule = s.schedule := rfl
@[simp] theorem setV_core_act (s : State) (n : Nat) (w : VWord) : (s.setV n w).core.act = s.core.act := rfl
@[simp] theorem setV_core_psn (s : State) (n : Nat) (w : VWord) : (s.setV n w).core.psn = s.core.psn := rfl
@[simp] theorem setV_core_pend (s : State) (n : Nat) (w : VWord) : (s.setV n w).core.pend = s.core.pend := rfl
@[simp] theorem setV_core_acc (s : State) (n : Nat) (w : VWord) : (s.setV n w).core.acc = s.core.acc := rfl
@[simp] theorem setV_core_handlers (s : State) (n : Nat) (w : VWord) : (s.setV n w).core.handlers = s.core.handlers := rfl
@[simp] theorem setV_core_queues (s : State) (n : Nat) (w : VWord) : (s.setV n w).core.queues = s.core.queues := rfl
@[simp] theorem setV_core_q (s : State) (n : Nat) (w : VWord) : (s.setV n w).core.q = s.core.q := rfl
@[simp] theorem setV_core_copies (s : State) (n : Nat) (w : VWord) : (s.setV n w).core.copies = s.core.copies := rfl
@[simp] theorem setV_core_streams (s : State) (n : Nat) (w : VWord) : (s.setV n w).core.streams = s.core.streams := rfl
@[simp] theorem setV_core_waiting (s : State) (n : Nat) (w : VWord) : (s.setV n w).core.waiting = s.core.waiting := rfl
@[simp] theorem setV_pc (s : State) (n : Nat) (w : VWord) : (s.setV n w).core.regs.pc = s.core.regs.pc := rfl
@[simp] theorem setP_g (s : State) (n : Nat) (w : PWord) (m : Nat) : (s.setP n w).g m = s.g m := by unfold State.setP Core.setP; split <;> rfl
@[simp] theorem setP_v (s : State) (n : Nat) (w : PWord) (m : Nat) : (s.setP n w).v m = s.v m := by unfold State.setP Core.setP; split <;> rfl
@[simp] theorem setP_c (s : State) (n : Nat) (w : PWord) (m : Nat) : (s.setP n w).c m = s.c m := by unfold State.setP Core.setP; split <;> rfl
@[simp] theorem setP_tok (s : State) (n : Nat) (w : PWord) (m : Nat) : (s.setP n w).tok m = s.tok m := by unfold State.setP Core.setP; split <;> rfl
@[simp] theorem setP_mem (s : State) (n : Nat) (w : PWord) : (s.setP n w).mem = s.mem := rfl
@[simp] theorem setP_tags (s : State) (n : Nat) (w : PWord) : (s.setP n w).tags = s.tags := rfl
@[simp] theorem setP_cores (s : State) (n : Nat) (w : PWord) : (s.setP n w).cores = s.cores := rfl
@[simp] theorem setP_tiles (s : State) (n : Nat) (w : PWord) : (s.setP n w).tiles = s.tiles := rfl
@[simp] theorem setP_regions (s : State) (n : Nat) (w : PWord) : (s.setP n w).regions = s.regions := rfl
@[simp] theorem setP_routers (s : State) (n : Nat) (w : PWord) : (s.setP n w).routers = s.routers := rfl
@[simp] theorem setP_actors (s : State) (n : Nat) (w : PWord) : (s.setP n w).actors = s.actors := rfl
@[simp] theorem setP_hosts (s : State) (n : Nat) (w : PWord) : (s.setP n w).hosts = s.hosts := rfl
@[simp] theorem setP_graphs (s : State) (n : Nat) (w : PWord) : (s.setP n w).graphs = s.graphs := rfl
@[simp] theorem setP_module (s : State) (n : Nat) (w : PWord) : (s.setP n w).module = s.module := rfl
@[simp] theorem setP_tsc (s : State) (n : Nat) (w : PWord) : (s.setP n w).tsc = s.tsc := rfl
@[simp] theorem setP_flight (s : State) (n : Nat) (w : PWord) : (s.setP n w).flight = s.flight := rfl
@[simp] theorem setP_nextId (s : State) (n : Nat) (w : PWord) : (s.setP n w).nextId = s.nextId := rfl
@[simp] theorem setP_lastSource (s : State) (n : Nat) (w : PWord) : (s.setP n w).lastSource = s.lastSource := rfl
@[simp] theorem setP_schedule (s : State) (n : Nat) (w : PWord) : (s.setP n w).schedule = s.schedule := rfl
@[simp] theorem setP_core_act (s : State) (n : Nat) (w : PWord) : (s.setP n w).core.act = s.core.act := by unfold State.setP Core.setP; split <;> rfl
@[simp] theorem setP_core_psn (s : State) (n : Nat) (w : PWord) : (s.setP n w).core.psn = s.core.psn := by unfold State.setP Core.setP; split <;> rfl
@[simp] theorem setP_core_pend (s : State) (n : Nat) (w : PWord) : (s.setP n w).core.pend = s.core.pend := by unfold State.setP Core.setP; split <;> rfl
@[simp] theorem setP_core_acc (s : State) (n : Nat) (w : PWord) : (s.setP n w).core.acc = s.core.acc := by unfold State.setP Core.setP; split <;> rfl
@[simp] theorem setP_core_handlers (s : State) (n : Nat) (w : PWord) : (s.setP n w).core.handlers = s.core.handlers := by unfold State.setP Core.setP; split <;> rfl
@[simp] theorem setP_core_queues (s : State) (n : Nat) (w : PWord) : (s.setP n w).core.queues = s.core.queues := by unfold State.setP Core.setP; split <;> rfl
@[simp] theorem setP_core_q (s : State) (n : Nat) (w : PWord) : (s.setP n w).core.q = s.core.q := by unfold State.setP Core.setP; split <;> rfl
@[simp] theorem setP_core_copies (s : State) (n : Nat) (w : PWord) : (s.setP n w).core.copies = s.core.copies := by unfold State.setP Core.setP; split <;> rfl
@[simp] theorem setP_core_streams (s : State) (n : Nat) (w : PWord) : (s.setP n w).core.streams = s.core.streams := by unfold State.setP Core.setP; split <;> rfl
@[simp] theorem setP_core_waiting (s : State) (n : Nat) (w : PWord) : (s.setP n w).core.waiting = s.core.waiting := by unfold State.setP Core.setP; split <;> rfl
@[simp] theorem setP_pc (s : State) (n : Nat) (w : PWord) : (s.setP n w).core.regs.pc = s.core.regs.pc := by unfold State.setP Core.setP; split <;> rfl
@[simp] theorem setC_g (s : State) (n : Nat) (w : Cap) (m : Nat) : (s.setC n w).g m = s.g m := rfl
@[simp] theorem setC_v (s : State) (n : Nat) (w : Cap) (m : Nat) : (s.setC n w).v m = s.v m := rfl
@[simp] theorem setC_p (s : State) (n : Nat) (w : Cap) (m : Nat) : (s.setC n w).p m = s.p m := rfl
@[simp] theorem setC_tok (s : State) (n : Nat) (w : Cap) (m : Nat) : (s.setC n w).tok m = s.tok m := rfl
@[simp] theorem setC_mem (s : State) (n : Nat) (w : Cap) : (s.setC n w).mem = s.mem := rfl
@[simp] theorem setC_tags (s : State) (n : Nat) (w : Cap) : (s.setC n w).tags = s.tags := rfl
@[simp] theorem setC_cores (s : State) (n : Nat) (w : Cap) : (s.setC n w).cores = s.cores := rfl
@[simp] theorem setC_tiles (s : State) (n : Nat) (w : Cap) : (s.setC n w).tiles = s.tiles := rfl
@[simp] theorem setC_regions (s : State) (n : Nat) (w : Cap) : (s.setC n w).regions = s.regions := rfl
@[simp] theorem setC_routers (s : State) (n : Nat) (w : Cap) : (s.setC n w).routers = s.routers := rfl
@[simp] theorem setC_actors (s : State) (n : Nat) (w : Cap) : (s.setC n w).actors = s.actors := rfl
@[simp] theorem setC_hosts (s : State) (n : Nat) (w : Cap) : (s.setC n w).hosts = s.hosts := rfl
@[simp] theorem setC_graphs (s : State) (n : Nat) (w : Cap) : (s.setC n w).graphs = s.graphs := rfl
@[simp] theorem setC_module (s : State) (n : Nat) (w : Cap) : (s.setC n w).module = s.module := rfl
@[simp] theorem setC_tsc (s : State) (n : Nat) (w : Cap) : (s.setC n w).tsc = s.tsc := rfl
@[simp] theorem setC_flight (s : State) (n : Nat) (w : Cap) : (s.setC n w).flight = s.flight := rfl
@[simp] theorem setC_nextId (s : State) (n : Nat) (w : Cap) : (s.setC n w).nextId = s.nextId := rfl
@[simp] theorem setC_lastSource (s : State) (n : Nat) (w : Cap) : (s.setC n w).lastSource = s.lastSource := rfl
@[simp] theorem setC_schedule (s : State) (n : Nat) (w : Cap) : (s.setC n w).schedule = s.schedule := rfl
@[simp] theorem setC_core_act (s : State) (n : Nat) (w : Cap) : (s.setC n w).core.act = s.core.act := rfl
@[simp] theorem setC_core_psn (s : State) (n : Nat) (w : Cap) : (s.setC n w).core.psn = s.core.psn := rfl
@[simp] theorem setC_core_pend (s : State) (n : Nat) (w : Cap) : (s.setC n w).core.pend = s.core.pend := rfl
@[simp] theorem setC_core_acc (s : State) (n : Nat) (w : Cap) : (s.setC n w).core.acc = s.core.acc := rfl
@[simp] theorem setC_core_handlers (s : State) (n : Nat) (w : Cap) : (s.setC n w).core.handlers = s.core.handlers := rfl
@[simp] theorem setC_core_queues (s : State) (n : Nat) (w : Cap) : (s.setC n w).core.queues = s.core.queues := rfl
@[simp] theorem setC_core_q (s : State) (n : Nat) (w : Cap) : (s.setC n w).core.q = s.core.q := rfl
@[simp] theorem setC_core_copies (s : State) (n : Nat) (w : Cap) : (s.setC n w).core.copies = s.core.copies := rfl
@[simp] theorem setC_core_streams (s : State) (n : Nat) (w : Cap) : (s.setC n w).core.streams = s.core.streams := rfl
@[simp] theorem setC_core_waiting (s : State) (n : Nat) (w : Cap) : (s.setC n w).core.waiting = s.core.waiting := rfl
@[simp] theorem setC_pc (s : State) (n : Nat) (w : Cap) : (s.setC n w).core.regs.pc = s.core.regs.pc := rfl
@[simp] theorem setTok_g (s : State) (n : Nat) (w : List Nat) (m : Nat) : (s.setTok n w).g m = s.g m := by unfold State.setTok Core.setTok; split <;> rfl
@[simp] theorem setTok_v (s : State) (n : Nat) (w : List Nat) (m : Nat) : (s.setTok n w).v m = s.v m := by unfold State.setTok Core.setTok; split <;> rfl
@[simp] theorem setTok_p (s : State) (n : Nat) (w : List Nat) (m : Nat) : (s.setTok n w).p m = s.p m := by unfold State.setTok Core.setTok; split <;> rfl
@[simp] theorem setTok_c (s : State) (n : Nat) (w : List Nat) (m : Nat) : (s.setTok n w).c m = s.c m := by unfold State.setTok Core.setTok; split <;> rfl
@[simp] theorem setTok_mem (s : State) (n : Nat) (w : List Nat) : (s.setTok n w).mem = s.mem := rfl
@[simp] theorem setTok_tags (s : State) (n : Nat) (w : List Nat) : (s.setTok n w).tags = s.tags := rfl
@[simp] theorem setTok_cores (s : State) (n : Nat) (w : List Nat) : (s.setTok n w).cores = s.cores := rfl
@[simp] theorem setTok_tiles (s : State) (n : Nat) (w : List Nat) : (s.setTok n w).tiles = s.tiles := rfl
@[simp] theorem setTok_regions (s : State) (n : Nat) (w : List Nat) : (s.setTok n w).regions = s.regions := rfl
@[simp] theorem setTok_routers (s : State) (n : Nat) (w : List Nat) : (s.setTok n w).routers = s.routers := rfl
@[simp] theorem setTok_actors (s : State) (n : Nat) (w : List Nat) : (s.setTok n w).actors = s.actors := rfl
@[simp] theorem setTok_hosts (s : State) (n : Nat) (w : List Nat) : (s.setTok n w).hosts = s.hosts := rfl
@[simp] theorem setTok_graphs (s : State) (n : Nat) (w : List Nat) : (s.setTok n w).graphs = s.graphs := rfl
@[simp] theorem setTok_module (s : State) (n : Nat) (w : List Nat) : (s.setTok n w).module = s.module := rfl
@[simp] theorem setTok_tsc (s : State) (n : Nat) (w : List Nat) : (s.setTok n w).tsc = s.tsc := rfl
@[simp] theorem setTok_flight (s : State) (n : Nat) (w : List Nat) : (s.setTok n w).flight = s.flight := rfl
@[simp] theorem setTok_nextId (s : State) (n : Nat) (w : List Nat) : (s.setTok n w).nextId = s.nextId := rfl
@[simp] theorem setTok_lastSource (s : State) (n : Nat) (w : List Nat) : (s.setTok n w).lastSource = s.lastSource := rfl
@[simp] theorem setTok_schedule (s : State) (n : Nat) (w : List Nat) : (s.setTok n w).schedule = s.schedule := rfl
@[simp] theorem setTok_core_act (s : State) (n : Nat) (w : List Nat) : (s.setTok n w).core.act = s.core.act := by unfold State.setTok Core.setTok; split <;> rfl
@[simp] theorem setTok_core_psn (s : State) (n : Nat) (w : List Nat) : (s.setTok n w).core.psn = s.core.psn := by unfold State.setTok Core.setTok; split <;> rfl
@[simp] theorem setTok_core_pend (s : State) (n : Nat) (w : List Nat) : (s.setTok n w).core.pend = s.core.pend := by unfold State.setTok Core.setTok; split <;> rfl
@[simp] theorem setTok_core_acc (s : State) (n : Nat) (w : List Nat) : (s.setTok n w).core.acc = s.core.acc := by unfold State.setTok Core.setTok; split <;> rfl
@[simp] theorem setTok_core_handlers (s : State) (n : Nat) (w : List Nat) : (s.setTok n w).core.handlers = s.core.handlers := by unfold State.setTok Core.setTok; split <;> rfl
@[simp] theorem setTok_core_queues (s : State) (n : Nat) (w : List Nat) : (s.setTok n w).core.queues = s.core.queues := by unfold State.setTok Core.setTok; split <;> rfl
@[simp] theorem setTok_core_q (s : State) (n : Nat) (w : List Nat) : (s.setTok n w).core.q = s.core.q := by unfold State.setTok Core.setTok; split <;> rfl
@[simp] theorem setTok_core_copies (s : State) (n : Nat) (w : List Nat) : (s.setTok n w).core.copies = s.core.copies := by unfold State.setTok Core.setTok; split <;> rfl
@[simp] theorem setTok_core_streams (s : State) (n : Nat) (w : List Nat) : (s.setTok n w).core.streams = s.core.streams := by unfold State.setTok Core.setTok; split <;> rfl
@[simp] theorem setTok_core_waiting (s : State) (n : Nat) (w : List Nat) : (s.setTok n w).core.waiting = s.core.waiting := by unfold State.setTok Core.setTok; split <;> rfl
@[simp] theorem setTok_pc (s : State) (n : Nat) (w : List Nat) : (s.setTok n w).core.regs.pc = s.core.regs.pc := by unfold State.setTok Core.setTok; split <;> rfl

@[simp] theorem past_isPending (i : Instr) (s : State) (r : RegName) : (past i s).core.isPending r = s.core.isPending r := rfl
@[simp] theorem past_bytes (i : Instr) (s : State) (k n : Nat) : (past i s).bytes k n = s.bytes k n := rfl

/-! A register read after a write of its own class. -/

theorem at_put {α : Type} {n : Nat} (v : Vector α n) (i : Nat) (x d : α) (h : i < n) : at_ (put v i x) i d = x := by
  simp [at_, put, h]
theorem at_put_ne {α : Type} {n : Nat} (v : Vector α n) (i j : Nat) (x d : α) (h : i ≠ j) : at_ (put v i x) j d = at_ v j d := by
  simp only [at_, put]
  rw [Vector.getElem?_setIfInBounds]
  simp [h]

theorem setG_g (s : State) (n : Nat) (w : Word) (h0 : n ≠ 0) (h : n < 64) : (s.setG n w).g n = w := by
  simp [State.setG, State.g, Core.setG, Core.getG, h0, at_put _ _ _ _ h]
theorem setG_g_ne (s : State) (n m : Nat) (w : Word) (h : n ≠ m) : (s.setG n w).g m = s.g m := by
  by_cases h0 : n = 0
  · simp [State.setG, State.g, Core.setG, h0]
  · simp [State.setG, State.g, Core.setG, Core.getG, h0, at_put_ne _ _ _ _ _ h]
/-- g0 discards its writes and reads 0. -/
theorem setG_zero (s : State) (w : Word) : s.setG 0 w = s := rfl
theorem g_zero (s : State) : s.g 0 = 0 := rfl
theorem setV_v (s : State) (n : Nat) (w : VWord) (h : n < 32) : (s.setV n w).v n = w := by
  simp [State.setV, State.v, Core.setV, Core.getV, at_put _ _ _ _ h]
theorem setV_v_ne (s : State) (n m : Nat) (w : VWord) (h : n ≠ m) : (s.setV n w).v m = s.v m := by
  simp [State.setV, State.v, Core.setV, Core.getV, at_put_ne _ _ _ _ _ h]
theorem setP_p (s : State) (n : Nat) (w : PWord) (h0 : n ≠ 0) (h : n < 8) : (s.setP n w).p n = w := by
  simp [State.setP, State.p, Core.setP, Core.getP, h0, at_put _ _ _ _ h]
theorem setP_p_ne (s : State) (n m : Nat) (w : PWord) (h : n ≠ m) : (s.setP n w).p m = s.p m := by
  by_cases h0 : n = 0
  · simp [State.setP, State.p, Core.setP, h0]
  · simp [State.setP, State.p, Core.setP, Core.getP, h0, at_put_ne _ _ _ _ _ h]
/-- p0 discards its writes and reads all ones. -/
theorem setP_zero (s : State) (w : PWord) : s.setP 0 w = s := rfl
theorem p_zero (s : State) : s.p 0 = BitVec.allOnes 32 := rfl
theorem setC_c (s : State) (n : Nat) (w : Cap) (h : n < 16) : (s.setC n w).c n = w := by
  simp [State.setC, State.c, Core.setC, Core.getC, at_put _ _ _ _ h]
theorem setC_c_ne (s : State) (n m : Nat) (w : Cap) (h : n ≠ m) : (s.setC n w).c m = s.c m := by
  simp [State.setC, State.c, Core.setC, Core.getC, at_put_ne _ _ _ _ _ h]

/-! The pc of an instruction, from the state past it. -/

theorem pc0_advance (s : State) (n : Nat) : (s.advance n).pc0 n = s.core.regs.pc := by
  show s.core.regs.pc + BitVec.ofNat 64 n - BitVec.ofNat 64 n = s.core.regs.pc
  rw [BitVec.add_sub_cancel]
/-- A waiting instruction that stays has its own pc again. -/
theorem branch_advance (s : State) (n : Nat) (o : Int) :
    (s.advance n).branch n o = (s.advance n).setPc (s.core.regs.pc + BitVec.ofInt 64 (4 * o)) := by rw [State.branch, pc0_advance]
theorem branch_advance_setG (s : State) (n d : Nat) (v : Word) (o : Int) :
    ((s.advance n).setG d v).branch n o = ((s.advance n).setG d v).setPc (s.core.regs.pc + BitVec.ofInt 64 (4 * o)) := by
  have h : ((s.advance n).setG d v).pc0 n = s.core.regs.pc := by
    rw [State.pc0, setG_pc]
    exact pc0_advance s n
  rw [State.branch, h]

/-! What an issued instruction lets go: translations alone. -/

@[simp] theorem issued_mem (s : State) : s.issued.mem = s.mem := by unfold State.issued; split <;> rfl
@[simp] theorem issued_tags (s : State) : s.issued.tags = s.tags := by unfold State.issued; split <;> rfl
@[simp] theorem issued_flight (s : State) : s.issued.flight = s.flight := by unfold State.issued; split <;> rfl
@[simp] theorem issued_tsc (s : State) : s.issued.tsc = s.tsc := by unfold State.issued; split <;> rfl
@[simp] theorem issued_cores (s : State) : s.issued.cores = s.cores := by unfold State.issued; split <;> rfl
@[simp] theorem issued_tiles (s : State) : s.issued.tiles = s.tiles := by unfold State.issued; split <;> rfl
@[simp] theorem issued_regs (s : State) : s.issued.core.regs = s.core.regs := by unfold State.issued; split <;> rfl
@[simp] theorem issued_act (s : State) : s.issued.core.act = s.core.act := by unfold State.issued; split <;> rfl
@[simp] theorem issued_pend (s : State) : s.issued.core.pend = s.core.pend := by unfold State.issued; split <;> rfl
@[simp] theorem issued_waiting (s : State) : s.issued.core.waiting = s.core.waiting := by unfold State.issued; split <;> rfl
@[simp] theorem issued_psn (s : State) : s.issued.core.psn = s.core.psn := by unfold State.issued; split <;> rfl

end Sys2Proof.Laws
end

