-- ==== Sys2Proof/Laws/Landing.lean ====
section
/-! SUPPORT. Bytes and lanes read back as they were written, a register after a reply has landed in it, and what a note of a
corrected error leaves alone. -/
namespace Sys2Proof.Laws
open Sys2Proof Sys2Proof.Machine

theorem leBytes_length (n v : Nat) : (leBytes n v).length = n := by induction n generalizing v <;> simp [leBytes, *]

theorem leBytes_getD (n v k : Nat) (h : k < n) : (leBytes n v).getD k 0 = BitVec.ofNat 8 (v / 256 ^ k) := by
  induction n generalizing v k with
  | zero => omega
  | succ n ih =>
    cases k with
    | zero => simp [leBytes]
    | succ k =>
      have := ih (v / 256) k (by omega)
      simp only [leBytes, List.getD_cons_succ, this, Nat.div_div_eq_div_mul, Nat.pow_succ]
      rw [Nat.mul_comm]

theorem ofLe_leBytes (n v : Nat) : ofLe (leBytes n v) = v % 256 ^ n := by
  induction n generalizing v with
  | zero => simp [leBytes, ofLe, Nat.mod_one]
  | succ n ih =>
    simp only [leBytes, ofLe, ih, BitVec.toNat_ofNat]
    rw [Nat.pow_succ 256 n, Nat.mul_comm (256 ^ n) 256, Nat.mod_mul]

theorem ofLe_lt (bs : List Byte) : ofLe bs < 256 ^ bs.length := by
  induction bs with
  | nil => simp [ofLe]
  | cons b bs ih => simp only [ofLe, List.length_cons, Nat.pow_succ]; have := b.isLt; omega

theorem readRange_written (m : List Host.Cell) (k : Nat) (bs : List Byte) (h : bs.length = n) : Mem.readRange (Mem.write m k bs) k n = bs := by
  apply List.ext_getElem
  · rw [readRange_length, h]
  · intro i h1 h2
    have e := readRange_get (Mem.write m k bs) k n i (by omega)
    rw [read_write, if_pos (by omega), Nat.add_sub_cancel_left] at e
    simpa [List.getD_eq_getElem?_getD, h1, h2] using e

theorem peek_pokeCap (s : State) (k : Nat) (c : Cap) (h : k % 16 = 0) : (s.pokeCap k c).peekCap k = c := by
  obtain ⟨tag, bits⟩ := c
  unfold State.peekCap State.bytes State.pokeCap
  dsimp only
  rw [readRange_written _ _ _ (leBytes_length _ _), ofLe_leBytes, Nat.mod_eq_of_lt (by have := bits.isLt; omega)]
  congr 1
  · cases tag
    · simp [Mem.clearTags]; intro _; omega
    · simp [Mem.setTag]
  · simp

theorem slice_all (bs : List Byte) (n : Nat) (h : bs.length = n) : slice bs 0 n = bs := by
  subst h; simp [slice]

theorem packLanes_lt (w n : Nat) (f : Nat → Nat) : packLanes w n f < 2 ^ (w * n) := by
  induction n with
  | zero => simp [packLanes]
  | succ n ih =>
    simp only [packLanes]
    have h1 : f n % 2 ^ w < 2 ^ w := Nat.mod_lt _ (Nat.two_pow_pos _)
    have h2 : 2 ^ (w * (n + 1)) = 2 ^ w * 2 ^ (w * n) := by rw [Nat.mul_add, Nat.mul_one, Nat.pow_add, Nat.mul_comm]
    rw [h2]
    have h3 : (f n % 2 ^ w + 1) * 2 ^ (w * n) ≤ 2 ^ w * 2 ^ (w * n) := Nat.mul_le_mul_right _ h1
    rw [Nat.add_mul] at h3
    omega

theorem packLanes_lane (w n : Nat) (f : Nat → Nat) (k : Nat) (h : k < n) : packLanes w n f / 2 ^ (w * k) % 2 ^ w = f k % 2 ^ w := by
  induction n with
  | zero => omega
  | succ n ih =>
    simp only [packLanes]
    by_cases hk : k = n
    · subst hk
      rw [Nat.add_mul_div_right _ _ (Nat.two_pow_pos _), Nat.div_eq_of_lt (packLanes_lt w k f)]
      simp
    · have hk' : k < n := by omega
      have e : f n % 2 ^ w * 2 ^ (w * n) = 2 ^ (w * k) * (2 ^ w * (f n % 2 ^ w * 2 ^ (w * (n - k - 1)))) := by
        have : w * n = w * k + (w + w * (n - k - 1)) := by
          have : n = k + (1 + (n - k - 1)) := by omega
          conv => lhs; rw [this, Nat.mul_add, Nat.mul_add, Nat.mul_one]
        rw [this, Nat.pow_add, Nat.pow_add]
        simp only [Nat.mul_comm, Nat.mul_left_comm]
      rw [e, Nat.add_mul_div_left _ _ (Nat.two_pow_pos _), Nat.add_mul_mod_self_left]
      exact ih hk'

theorem lane_packed (t : TyCode) (f : Nat → Nat) (k : Nat) (h : k < lanes t) :
   laneOf (elemBits t) (BitVec.ofNat 512 (packLanes (elemBits t) (lanes t) f)) k = f k % 2 ^ elemBits t := by
  have hl : elemBits t * lanes t ≤ 512 := by
    unfold lanes; split
    · omega
    · exact Nat.mul_div_le 512 _
  have : packLanes (elemBits t) (lanes t) f < 2 ^ 512 := Nat.lt_of_lt_of_le (packLanes_lt _ _ _) (Nat.pow_le_pow_right (by decide) hl)
  unfold laneOf
  rw [BitVec.toNat_ofNat, Nat.mod_eq_of_lt this, packLanes_lane _ _ _ _ h]

theorem settle_next (f s t) (r : Except Stop State) (h : r = .ok t) : settle f s r = .next t := by rw [h]; rfl

theorem noteRead_eq (s : State) (k n : Nat) : ∃ l, s.noteRead k n = { s with eccSeen := l } := by
  unfold State.noteRead; split
  · exact ⟨s.eccSeen, rfl⟩
  · exact ⟨_, rfl⟩

theorem setG_suspended (s : State) n w p : (s.setG n w).suspended p = s.suspended p := by
  unfold State.setG Core.setG
  split
  · rfl
  · unfold State.suspended State.homeTile State.getCore
    by_cases h : s.core.psn = p <;> simp [h] <;> rfl

theorem setG_orderDeps (s : State) n w act o p : (s.setG n w).orderDeps act o p = s.orderDeps act o p := by
  have h1 : (s.setG n w).core.homeStore = s.core.homeStore := by unfold State.setG Core.setG; split <;> rfl
  have h2 : (s.setG n w).core.psn = s.core.psn := setG_core_psn s n w
  unfold State.orderDeps
  rw [h1, h2, setG_suspended]; rfl

theorem setG_localBytes (s : State) n w a k : (s.setG n w).localBytes (s.setG n w).core a k = s.localBytes s.core a k := by
  unfold State.setG Core.setG; split <;> rfl

theorem isPending_setG (c : Core) d w r : (c.setG d w).isPending r = c.isPending r := by unfold Core.setG; split <;> rfl

theorem isPending_settled (c : Core) r id : c.isPending r = false → (c.settled r id).isPending r = false := by
  intro h
  simp only [Core.isPending, Core.settled, Bool.and_eq_false_iff, List.any_eq_false] at h ⊢
  rcases h with h | h
  · exact .inl h
  · right; intro p hp; exact h p (List.mem_filter.mp hp).1

theorem getG_settled (c : Core) r id n : (c.settled r id).getG n = c.getG n := rfl

theorem getG_setG (c : Core) d w n (hd : d < 64) : (c.setG d w).getG n = if n = d ∧ n ≠ 0 then w else c.getG n := by
  by_cases h0 : d = 0
  · subst h0; simp only [Core.setG, if_true]; rw [if_neg (by omega)]
  · by_cases hn : n = d
    · subst hn; simp [Core.setG, Core.getG, h0, at_put _ _ _ _ hd]
    · rw [if_neg (by omega)]
      simp only [Core.setG, h0, if_false, Core.getG]
      by_cases hz : n = 0
      · simp [hz]
      · simp [hz, at_put_ne _ _ _ _ _ (Ne.symm hn)]

theorem land_gpr (c : Core) (d : Nat) (ty : TyCode) bs tag n (h : c.isPending (.g d) = false) (hz : c.getG d = 0) (hd : d < 64) (hb : bs.length ≤ 8) :
    (c.land (.gpr d 0 ty) bs tag 0).getG n = if n = d ∧ n ≠ 0 then extend ty (ofLe bs) else c.getG n := by
  have hlt : ofLe bs < 2^64 := Nat.lt_of_lt_of_le (ofLe_lt bs) (Nat.le_trans (Nat.pow_le_pow_right (by decide) hb) (by decide))
  have e1 : (((c.setG d (c.getG d ||| BitVec.ofNat 64 (ofLe bs * 256 ^ 0))).settled (.g d) 0).isPending (.g d)) = false :=
    isPending_settled _ _ _ (by rw [isPending_setG]; exact h)
  simp only [Core.land]
  rw [if_neg (by rw [e1]; decide)]
  rw [getG_setG _ _ _ _ hd, getG_settled, getG_setG _ _ _ _ hd, getG_settled, getG_setG _ _ _ _ hd, hz]
  by_cases hn : n = d ∧ n ≠ 0
  · obtain ⟨rfl, hn⟩ := hn
    simp [hn]
    exact congrArg (extend ty) (Nat.mod_eq_of_lt (by omega))
  · simp [hn]

end Sys2Proof.Laws
end

