-- ==== Sys2Proof/Laws/PerInstr.lean ====
section
/-! SUPPORT. The family RoundTrip of LAWS.json: decoding what the encoder writes for a well-formed instruction gives the
instruction back, one lemma for each constructor. -/
namespace Sys2Proof.Laws
open Sys2Proof Sys2Proof.Machine

/-- Decoding the parcels of a well-formed instruction gives that instruction and leaves nothing over. -/
def RoundTrip.Statement (i : Instr) : Prop :=
  wellFormed i = true → hasEncoding i = true → decode (encode i) = some (i, [])

theorem round_trip_long (r : LRow) (k : Long → Instr) (x : Long) (he : encoding (k x) = .long r x) (hon : r.on < 1024)
    (hf : r.sel x = true → longTable.find? (fun q => q.1.on == r.on && q.1.sel x) = some (r, k)) :
    RoundTrip.Statement (k x) := by
  intro hw _
  have hl : r.legal x = true := by
    have := hw; unfold wellFormed at this; rw [he, Bool.and_eq_true] at this; exact this.1
  rw [encode, he]; exact long_decodes r k x hon hl hf

theorem round_trip_shortA (r : ARow) (k : ShortA → Instr) (x : ShortA) (he : encoding (k x) = .shortA r x) (hon : r.on < 256)
    (hf : r.ok x = true → shortATable.find? (fun q => q.1.on == r.on && q.1.ok x) = some (r, k)) :
    RoundTrip.Statement (k x) := by
  intro hw _
  have hl : r.legal x = true := by
    have := hw; unfold wellFormed at this; rw [he, Bool.and_eq_true] at this; exact this.1
  rw [encode, he]; exact shortA_decodes r k x hon hl hf

theorem round_trip_shortB (r : BRow) (k : ShortB → Instr) (x : ShortB) (he : encoding (k x) = .shortB r x) (hon : r.sop < 64)
    (hf : shortBTable.find? (fun q => q.1.sop == r.sop) = some (r, k)) : RoundTrip.Statement (k x) := by
  intro hw _
  have hl : r.legal x = true := by
    have := hw; unfold wellFormed at this; rw [he, Bool.and_eq_true] at this; exact this.1
  rw [encode, he]; exact shortB_decodes r k x hon hl hf

theorem round_trip_event (i : Instr) (he : hasEncoding i = false) : RoundTrip.Statement i := by
  intro _ h; rw [he] at h; cases h

/-- A search that meets `a` first. -/
theorem find_first {α : Type} {l : Option α} {p : α → Bool} {a : α} (rest : List α) (h : l = (a :: rest).find? p)
    (ha : p a = true) : l = some a := by rw [h, List.find?_cons_of_pos ha]
/-- A search that passes one row before it meets `a`. -/
theorem find_second {α : Type} {l : Option α} {p : α → Bool} {a : α} (b : α) (rest : List α)
    (h : l = (b :: a :: rest).find? p) (hb : p b = false) (ha : p a = true) : l = some a := by
  rw [h, List.find?_cons_of_neg (by simp [hb]), List.find?_cons_of_pos ha]
/-- A search that passes two rows before it meets `a`. -/
theorem find_third {α : Type} {l : Option α} {p : α → Bool} {a : α} (b c : α) (rest : List α)
    (h : l = (b :: c :: a :: rest).find? p) (hb : p b = false) (hc : p c = false) (ha : p a = true) : l = some a := by
  rw [h, List.find?_cons_of_neg (by simp [hb]), find_second c rest rfl hc ha]
/-- A field that equals one number equals no other. -/
theorem beq_excludes {α : Type} [DecidableEq α] {x a b : α} (h : (x == a) = true) (hab : a ≠ b) : (x == b) = false := by
  rw [eq_of_beq h]; simpa using hab

set_option maxRecDepth 20000
theorem RoundTrip.add (x : Long) : RoundTrip.Statement (.add x) :=
  round_trip_long Shape.add .add x rfl (by decide) (fun _ => rfl)
theorem RoundTrip.addL32A (x : ShortA) : RoundTrip.Statement (.addL32A x) :=
  round_trip_shortA Shape.addL32A .addL32A x rfl (by decide) (fun h => find_first (p := fun q => q.1.ok x) [] rfl h)
theorem RoundTrip.addI64L32B (x : ShortB) : RoundTrip.Statement (.addI64L32B x) :=
  round_trip_shortB Shape.addI64L32B .addI64L32B x rfl (by decide) rfl
theorem RoundTrip.addI32L32B (x : ShortB) : RoundTrip.Statement (.addI32L32B x) :=
  round_trip_shortB Shape.addI32L32B .addI32L32B x rfl (by decide) rfl
theorem RoundTrip.addc (x : Long) : RoundTrip.Statement (.addc x) :=
  round_trip_long Shape.addc .addc x rfl (by decide) (fun _ => rfl)
theorem RoundTrip.addcL32A (x : ShortA) : RoundTrip.Statement (.addcL32A x) :=
  round_trip_shortA Shape.addcL32A .addcL32A x rfl (by decide) (fun h => find_first (p := fun q => q.1.ok x) [] rfl h)
theorem RoundTrip.sub (x : Long) : RoundTrip.Statement (.sub x) :=
  round_trip_long Shape.sub .sub x rfl (by decide) (fun _ => rfl)
theorem RoundTrip.subL32A (x : ShortA) : RoundTrip.Statement (.subL32A x) :=
  round_trip_shortA Shape.subL32A .subL32A x rfl (by decide) (fun h => find_first (p := fun q => q.1.ok x) [] rfl h)
theorem RoundTrip.subb (x : Long) : RoundTrip.Statement (.subb x) :=
  round_trip_long Shape.subb .subb x rfl (by decide) (fun _ => rfl)
theorem RoundTrip.subbL32A (x : ShortA) : RoundTrip.Statement (.subbL32A x) :=
  round_trip_shortA Shape.subbL32A .subbL32A x rfl (by decide) (fun h => find_first (p := fun q => q.1.ok x) [] rfl h)
theorem RoundTrip.mul (x : Long) : RoundTrip.Statement (.mul x) :=
  round_trip_long Shape.mul .mul x rfl (by decide) (fun _ => rfl)
theorem RoundTrip.mulL32A (x : ShortA) : RoundTrip.Statement (.mulL32A x) :=
  round_trip_shortA Shape.mulL32A .mulL32A x rfl (by decide) (fun h => find_first (p := fun q => q.1.ok x) [] rfl h)
theorem RoundTrip.mulI64L32B (x : ShortB) : RoundTrip.Statement (.mulI64L32B x) :=
  round_trip_shortB Shape.mulI64L32B .mulI64L32B x rfl (by decide) rfl
theorem RoundTrip.mulI32L32B (x : ShortB) : RoundTrip.Statement (.mulI32L32B x) :=
  round_trip_shortB Shape.mulI32L32B .mulI32L32B x rfl (by decide) rfl
theorem RoundTrip.mulh (x : Long) : RoundTrip.Statement (.mulh x) :=
  round_trip_long Shape.mulh .mulh x rfl (by decide) (fun _ => rfl)
theorem RoundTrip.mulhL32A (x : ShortA) : RoundTrip.Statement (.mulhL32A x) :=
  round_trip_shortA Shape.mulhL32A .mulhL32A x rfl (by decide) (fun h => find_first (p := fun q => q.1.ok x) [] rfl h)
theorem RoundTrip.mulhn (x : Long) : RoundTrip.Statement (.mulhn x) :=
  round_trip_long Shape.mulhn .mulhn x rfl (by decide) (fun _ => rfl)
theorem RoundTrip.mulhnL32A (x : ShortA) : RoundTrip.Statement (.mulhnL32A x) :=
  round_trip_shortA Shape.mulhnL32A .mulhnL32A x rfl (by decide) (fun h => find_first (p := fun q => q.1.ok x) [] rfl h)
theorem RoundTrip.div (x : Long) : RoundTrip.Statement (.div x) :=
  round_trip_long Shape.div .div x rfl (by decide) (fun _ => rfl)
theorem RoundTrip.divL32A (x : ShortA) : RoundTrip.Statement (.divL32A x) :=
  round_trip_shortA Shape.divL32A .divL32A x rfl (by decide) (fun h => find_first (p := fun q => q.1.ok x) [] rfl h)
theorem RoundTrip.divn (x : Long) : RoundTrip.Statement (.divn x) :=
  round_trip_long Shape.divn .divn x rfl (by decide) (fun _ => rfl)
theorem RoundTrip.divnL32A (x : ShortA) : RoundTrip.Statement (.divnL32A x) :=
  round_trip_shortA Shape.divnL32A .divnL32A x rfl (by decide) (fun h => find_first (p := fun q => q.1.ok x) [] rfl h)
theorem RoundTrip.rem (x : Long) : RoundTrip.Statement (.rem x) :=
  round_trip_long Shape.rem .rem x rfl (by decide) (fun _ => rfl)
theorem RoundTrip.remL32A (x : ShortA) : RoundTrip.Statement (.remL32A x) :=
  round_trip_shortA Shape.remL32A .remL32A x rfl (by decide) (fun h => find_first (p := fun q => q.1.ok x) [] rfl h)
theorem RoundTrip.remn (x : Long) : RoundTrip.Statement (.remn x) :=
  round_trip_long Shape.remn .remn x rfl (by decide) (fun _ => rfl)
theorem RoundTrip.remnL32A (x : ShortA) : RoundTrip.Statement (.remnL32A x) :=
  round_trip_shortA Shape.remnL32A .remnL32A x rfl (by decide) (fun h => find_first (p := fun q => q.1.ok x) [] rfl h)
theorem RoundTrip.and (x : Long) : RoundTrip.Statement (.and x) :=
  round_trip_long Shape.and .and x rfl (by decide) (fun _ => rfl)
theorem RoundTrip.andL32A (x : ShortA) : RoundTrip.Statement (.andL32A x) :=
  round_trip_shortA Shape.andL32A .andL32A x rfl (by decide) (fun h => find_first (p := fun q => q.1.ok x) [] rfl h)
theorem RoundTrip.andN64L32B (x : ShortB) : RoundTrip.Statement (.andN64L32B x) :=
  round_trip_shortB Shape.andN64L32B .andN64L32B x rfl (by decide) rfl
theorem RoundTrip.andn (x : Long) : RoundTrip.Statement (.andn x) :=
  round_trip_long Shape.andn .andn x rfl (by decide) (fun _ => rfl)
theorem RoundTrip.andnL32A (x : ShortA) : RoundTrip.Statement (.andnL32A x) :=
  round_trip_shortA Shape.andnL32A .andnL32A x rfl (by decide) (fun h => find_first (p := fun q => q.1.ok x) [] rfl h)
theorem RoundTrip.andnN64L32B (x : ShortB) : RoundTrip.Statement (.andnN64L32B x) :=
  round_trip_shortB Shape.andnN64L32B .andnN64L32B x rfl (by decide) rfl
theorem RoundTrip.or (x : Long) : RoundTrip.Statement (.or x) :=
  round_trip_long Shape.or .or x rfl (by decide) (fun _ => rfl)
theorem RoundTrip.orL32A (x : ShortA) : RoundTrip.Statement (.orL32A x) :=
  round_trip_shortA Shape.orL32A .orL32A x rfl (by decide) (fun h => find_first (p := fun q => q.1.ok x) [] rfl h)
theorem RoundTrip.orN64L32B (x : ShortB) : RoundTrip.Statement (.orN64L32B x) :=
  round_trip_shortB Shape.orN64L32B .orN64L32B x rfl (by decide) rfl
theorem RoundTrip.xor (x : Long) : RoundTrip.Statement (.xor x) :=
  round_trip_long Shape.xor .xor x rfl (by decide) (fun _ => rfl)
theorem RoundTrip.xorL32A (x : ShortA) : RoundTrip.Statement (.xorL32A x) :=
  round_trip_shortA Shape.xorL32A .xorL32A x rfl (by decide) (fun h => find_first (p := fun q => q.1.ok x) [] rfl h)
theorem RoundTrip.xorN64L32B (x : ShortB) : RoundTrip.Statement (.xorN64L32B x) :=
  round_trip_shortB Shape.xorN64L32B .xorN64L32B x rfl (by decide) rfl
theorem RoundTrip.shl (x : Long) : RoundTrip.Statement (.shl x) :=
  round_trip_long Shape.shl .shl x rfl (by decide) (fun _ => rfl)
theorem RoundTrip.shlL32A (x : ShortA) : RoundTrip.Statement (.shlL32A x) :=
  round_trip_shortA Shape.shlL32A .shlL32A x rfl (by decide) (fun h => find_first (p := fun q => q.1.ok x) [] rfl h)
theorem RoundTrip.shlN64L32B (x : ShortB) : RoundTrip.Statement (.shlN64L32B x) :=
  round_trip_shortB Shape.shlN64L32B .shlN64L32B x rfl (by decide) rfl
theorem RoundTrip.shr (x : Long) : RoundTrip.Statement (.shr x) :=
  round_trip_long Shape.shr .shr x rfl (by decide) (fun _ => rfl)
theorem RoundTrip.shrL32A (x : ShortA) : RoundTrip.Statement (.shrL32A x) :=
  round_trip_shortA Shape.shrL32A .shrL32A x rfl (by decide) (fun h => find_first (p := fun q => q.1.ok x) [] rfl h)
theorem RoundTrip.shrN64L32B (x : ShortB) : RoundTrip.Statement (.shrN64L32B x) :=
  round_trip_shortB Shape.shrN64L32B .shrN64L32B x rfl (by decide) rfl
theorem RoundTrip.sha (x : Long) : RoundTrip.Statement (.sha x) :=
  round_trip_long Shape.sha .sha x rfl (by decide) (fun _ => rfl)
theorem RoundTrip.shaL32A (x : ShortA) : RoundTrip.Statement (.shaL32A x) :=
  round_trip_shortA Shape.shaL32A .shaL32A x rfl (by decide) (fun h => find_first (p := fun q => q.1.ok x) [] rfl h)
theorem RoundTrip.shaI64L32B (x : ShortB) : RoundTrip.Statement (.shaI64L32B x) :=
  round_trip_shortB Shape.shaI64L32B .shaI64L32B x rfl (by decide) rfl
theorem RoundTrip.rol (x : Long) : RoundTrip.Statement (.rol x) :=
  round_trip_long Shape.rol .rol x rfl (by decide) (fun _ => rfl)
theorem RoundTrip.rolL32A (x : ShortA) : RoundTrip.Statement (.rolL32A x) :=
  round_trip_shortA Shape.rolL32A .rolL32A x rfl (by decide) (fun h => find_first (p := fun q => q.1.ok x) [] rfl h)
theorem RoundTrip.rotr (x : Long) : RoundTrip.Statement (.rotr x) :=
  round_trip_long Shape.rotr .rotr x rfl (by decide) (fun _ => rfl)
theorem RoundTrip.rotrL32A (x : ShortA) : RoundTrip.Statement (.rotrL32A x) :=
  round_trip_shortA Shape.rotrL32A .rotrL32A x rfl (by decide) (fun h => find_first (p := fun q => q.1.ok x) [] rfl h)
theorem RoundTrip.rotrN64L32B (x : ShortB) : RoundTrip.Statement (.rotrN64L32B x) :=
  round_trip_shortB Shape.rotrN64L32B .rotrN64L32B x rfl (by decide) rfl
theorem RoundTrip.clz (x : Long) : RoundTrip.Statement (.clz x) :=
  round_trip_long Shape.clz .clz x rfl (by decide) (fun _ => rfl)
theorem RoundTrip.clzL32A (x : ShortA) : RoundTrip.Statement (.clzL32A x) :=
  round_trip_shortA Shape.clzL32A .clzL32A x rfl (by decide) (fun h => find_first (p := fun q => q.1.ok x) [] rfl h)
theorem RoundTrip.ctz (x : Long) : RoundTrip.Statement (.ctz x) :=
  round_trip_long Shape.ctz .ctz x rfl (by decide) (fun _ => rfl)
theorem RoundTrip.ctzL32A (x : ShortA) : RoundTrip.Statement (.ctzL32A x) :=
  round_trip_shortA Shape.ctzL32A .ctzL32A x rfl (by decide) (fun h => find_first (p := fun q => q.1.ok x) [] rfl h)
theorem RoundTrip.popc (x : Long) : RoundTrip.Statement (.popc x) :=
  round_trip_long Shape.popc .popc x rfl (by decide) (fun _ => rfl)
theorem RoundTrip.popcL32A (x : ShortA) : RoundTrip.Statement (.popcL32A x) :=
  round_trip_shortA Shape.popcL32A .popcL32A x rfl (by decide) (fun h => find_first (p := fun q => q.1.ok x) [] rfl h)
theorem RoundTrip.brev (x : Long) : RoundTrip.Statement (.brev x) :=
  round_trip_long Shape.brev .brev x rfl (by decide) (fun _ => rfl)
theorem RoundTrip.brevL32A (x : ShortA) : RoundTrip.Statement (.brevL32A x) :=
  round_trip_shortA Shape.brevL32A .brevL32A x rfl (by decide) (fun h => find_first (p := fun q => q.1.ok x) [] rfl h)
theorem RoundTrip.bswap (x : Long) : RoundTrip.Statement (.bswap x) :=
  round_trip_long Shape.bswap .bswap x rfl (by decide) (fun _ => rfl)
theorem RoundTrip.bswapL32A (x : ShortA) : RoundTrip.Statement (.bswapL32A x) :=
  round_trip_shortA Shape.bswapL32A .bswapL32A x rfl (by decide) (fun h => find_first (p := fun q => q.1.ok x) [] rfl h)
theorem RoundTrip.min (x : Long) : RoundTrip.Statement (.min x) :=
  round_trip_long Shape.min .min x rfl (by decide) (fun _ => rfl)
theorem RoundTrip.minL32A (x : ShortA) : RoundTrip.Statement (.minL32A x) :=
  round_trip_shortA Shape.minL32A .minL32A x rfl (by decide) (fun h => find_first (p := fun q => q.1.ok x) [] rfl h)
theorem RoundTrip.minI64L32B (x : ShortB) : RoundTrip.Statement (.minI64L32B x) :=
  round_trip_shortB Shape.minI64L32B .minI64L32B x rfl (by decide) rfl
theorem RoundTrip.max (x : Long) : RoundTrip.Statement (.max x) :=
  round_trip_long Shape.max .max x rfl (by decide) (fun _ => rfl)
theorem RoundTrip.maxL32A (x : ShortA) : RoundTrip.Statement (.maxL32A x) :=
  round_trip_shortA Shape.maxL32A .maxL32A x rfl (by decide) (fun h => find_first (p := fun q => q.1.ok x) [] rfl h)
theorem RoundTrip.maxI64L32B (x : ShortB) : RoundTrip.Statement (.maxI64L32B x) :=
  round_trip_shortB Shape.maxI64L32B .maxI64L32B x rfl (by decide) rfl
theorem RoundTrip.minn (x : Long) : RoundTrip.Statement (.minn x) :=
  round_trip_long Shape.minn .minn x rfl (by decide) (fun _ => rfl)
theorem RoundTrip.minnL32A (x : ShortA) : RoundTrip.Statement (.minnL32A x) :=
  round_trip_shortA Shape.minnL32A .minnL32A x rfl (by decide) (fun h => find_first (p := fun q => q.1.ok x) [] rfl h)
theorem RoundTrip.minnN64L32B (x : ShortB) : RoundTrip.Statement (.minnN64L32B x) :=
  round_trip_shortB Shape.minnN64L32B .minnN64L32B x rfl (by decide) rfl
theorem RoundTrip.maxn (x : Long) : RoundTrip.Statement (.maxn x) :=
  round_trip_long Shape.maxn .maxn x rfl (by decide) (fun _ => rfl)
theorem RoundTrip.maxnL32A (x : ShortA) : RoundTrip.Statement (.maxnL32A x) :=
  round_trip_shortA Shape.maxnL32A .maxnL32A x rfl (by decide) (fun h => find_first (p := fun q => q.1.ok x) [] rfl h)
theorem RoundTrip.maxnN64L32B (x : ShortB) : RoundTrip.Statement (.maxnN64L32B x) :=
  round_trip_shortB Shape.maxnN64L32B .maxnN64L32B x rfl (by decide) rfl
theorem RoundTrip.abs (x : Long) : RoundTrip.Statement (.abs x) :=
  round_trip_long Shape.abs .abs x rfl (by decide) (fun _ => rfl)
theorem RoundTrip.absL32A (x : ShortA) : RoundTrip.Statement (.absL32A x) :=
  round_trip_shortA Shape.absL32A .absL32A x rfl (by decide) (fun h => find_first (p := fun q => q.1.ok x) [] rfl h)
theorem RoundTrip.bfx (x : Long) : RoundTrip.Statement (.bfx x) :=
  round_trip_long Shape.bfx .bfx x rfl (by decide) (fun _ => rfl)
theorem RoundTrip.bfxN64L32B (x : ShortB) : RoundTrip.Statement (.bfxN64L32B x) :=
  round_trip_shortB Shape.bfxN64L32B .bfxN64L32B x rfl (by decide) rfl
theorem RoundTrip.bfxI64L32B (x : ShortB) : RoundTrip.Statement (.bfxI64L32B x) :=
  round_trip_shortB Shape.bfxI64L32B .bfxI64L32B x rfl (by decide) rfl
theorem RoundTrip.bfi (x : Long) : RoundTrip.Statement (.bfi x) :=
  round_trip_long Shape.bfi .bfi x rfl (by decide) (fun _ => rfl)
theorem RoundTrip.sel (x : Long) : RoundTrip.Statement (.sel x) :=
  round_trip_long Shape.sel .sel x rfl (by decide) (fun _ => rfl)
theorem RoundTrip.cmp (x : Long) : RoundTrip.Statement (.cmp x) :=
  round_trip_long Shape.cmp .cmp x rfl (by decide) (fun _ => rfl)
theorem RoundTrip.cmpEqI64L32B (x : ShortB) : RoundTrip.Statement (.cmpEqI64L32B x) :=
  round_trip_shortB Shape.cmpEqI64L32B .cmpEqI64L32B x rfl (by decide) rfl
theorem RoundTrip.cmpNeI64L32B (x : ShortB) : RoundTrip.Statement (.cmpNeI64L32B x) :=
  round_trip_shortB Shape.cmpNeI64L32B .cmpNeI64L32B x rfl (by decide) rfl
theorem RoundTrip.cmpLtI64L32B (x : ShortB) : RoundTrip.Statement (.cmpLtI64L32B x) :=
  round_trip_shortB Shape.cmpLtI64L32B .cmpLtI64L32B x rfl (by decide) rfl
theorem RoundTrip.cmpLeI64L32B (x : ShortB) : RoundTrip.Statement (.cmpLeI64L32B x) :=
  round_trip_shortB Shape.cmpLeI64L32B .cmpLeI64L32B x rfl (by decide) rfl
theorem RoundTrip.cmpGtI64L32B (x : ShortB) : RoundTrip.Statement (.cmpGtI64L32B x) :=
  round_trip_shortB Shape.cmpGtI64L32B .cmpGtI64L32B x rfl (by decide) rfl
theorem RoundTrip.cmpGeI64L32B (x : ShortB) : RoundTrip.Statement (.cmpGeI64L32B x) :=
  round_trip_shortB Shape.cmpGeI64L32B .cmpGeI64L32B x rfl (by decide) rfl
theorem RoundTrip.cmpLtN64L32B (x : ShortB) : RoundTrip.Statement (.cmpLtN64L32B x) :=
  round_trip_shortB Shape.cmpLtN64L32B .cmpLtN64L32B x rfl (by decide) rfl
theorem RoundTrip.cmpLeN64L32B (x : ShortB) : RoundTrip.Statement (.cmpLeN64L32B x) :=
  round_trip_shortB Shape.cmpLeN64L32B .cmpLeN64L32B x rfl (by decide) rfl
theorem RoundTrip.cmpGtN64L32B (x : ShortB) : RoundTrip.Statement (.cmpGtN64L32B x) :=
  round_trip_shortB Shape.cmpGtN64L32B .cmpGtN64L32B x rfl (by decide) rfl
theorem RoundTrip.cmpGeN64L32B (x : ShortB) : RoundTrip.Statement (.cmpGeN64L32B x) :=
  round_trip_shortB Shape.cmpGeN64L32B .cmpGeN64L32B x rfl (by decide) rfl
theorem RoundTrip.mov (x : Long) : RoundTrip.Statement (.mov x) :=
  round_trip_long Shape.mov .mov x rfl (by decide) (fun _ => rfl)
theorem RoundTrip.movL32A (x : ShortA) : RoundTrip.Statement (.movL32A x) :=
  round_trip_shortA Shape.movL32A .movL32A x rfl (by decide) (fun h => find_first (p := fun q => q.1.ok x) [] rfl h)
theorem RoundTrip.movRelSrcL32B (x : ShortB) : RoundTrip.Statement (.movRelSrcL32B x) :=
  round_trip_shortB Shape.movRelSrcL32B .movRelSrcL32B x rfl (by decide) rfl
theorem RoundTrip.movRelDstL32B (x : ShortB) : RoundTrip.Statement (.movRelDstL32B x) :=
  round_trip_shortB Shape.movRelDstL32B .movRelDstL32B x rfl (by decide) rfl
theorem RoundTrip.li (x : Long) : RoundTrip.Statement (.li x) :=
  round_trip_long Shape.li .li x rfl (by decide) (fun _ => rfl)
theorem RoundTrip.liI64L32B (x : ShortB) : RoundTrip.Statement (.liI64L32B x) :=
  round_trip_shortB Shape.liI64L32B .liI64L32B x rfl (by decide) rfl
theorem RoundTrip.lih (x : Long) : RoundTrip.Statement (.lih x) :=
  round_trip_long Shape.lih .lih x rfl (by decide) (fun _ => rfl)
theorem RoundTrip.lihL32B (x : ShortB) : RoundTrip.Statement (.lihL32B x) :=
  round_trip_shortB Shape.lihL32B .lihL32B x rfl (by decide) rfl
theorem RoundTrip.fadd (x : Long) : RoundTrip.Statement (.fadd x) :=
  round_trip_long Shape.fadd .fadd x rfl (by decide) (fun _ => rfl)
theorem RoundTrip.faddL32A (x : ShortA) : RoundTrip.Statement (.faddL32A x) :=
  round_trip_shortA Shape.faddL32A .faddL32A x rfl (by decide) (fun h => find_first (p := fun q => q.1.ok x) [] rfl h)
theorem RoundTrip.fsub (x : Long) : RoundTrip.Statement (.fsub x) :=
  round_trip_long Shape.fsub .fsub x rfl (by decide) (fun _ => rfl)
theorem RoundTrip.fsubL32A (x : ShortA) : RoundTrip.Statement (.fsubL32A x) :=
  round_trip_shortA Shape.fsubL32A .fsubL32A x rfl (by decide) (fun h => find_first (p := fun q => q.1.ok x) [] rfl h)
theorem RoundTrip.fmul (x : Long) : RoundTrip.Statement (.fmul x) :=
  round_trip_long Shape.fmul .fmul x rfl (by decide) (fun _ => rfl)
theorem RoundTrip.fmulL32A (x : ShortA) : RoundTrip.Statement (.fmulL32A x) :=
  round_trip_shortA Shape.fmulL32A .fmulL32A x rfl (by decide) (fun h => find_first (p := fun q => q.1.ok x) [] rfl h)
theorem RoundTrip.ffma (x : Long) : RoundTrip.Statement (.ffma x) :=
  round_trip_long Shape.ffma .ffma x rfl (by decide) (fun _ => rfl)
theorem RoundTrip.ffms (x : Long) : RoundTrip.Statement (.ffms x) :=
  round_trip_long Shape.ffms .ffms x rfl (by decide) (fun _ => rfl)
theorem RoundTrip.fdiv (x : Long) : RoundTrip.Statement (.fdiv x) :=
  round_trip_long Shape.fdiv .fdiv x rfl (by decide) (fun _ => rfl)
theorem RoundTrip.fdivL32A (x : ShortA) : RoundTrip.Statement (.fdivL32A x) :=
  round_trip_shortA Shape.fdivL32A .fdivL32A x rfl (by decide) (fun h => find_first (p := fun q => q.1.ok x) [] rfl h)
theorem RoundTrip.fsqrt (x : Long) : RoundTrip.Statement (.fsqrt x) :=
  round_trip_long Shape.fsqrt .fsqrt x rfl (by decide) (fun _ => rfl)
theorem RoundTrip.fsqrtL32A (x : ShortA) : RoundTrip.Statement (.fsqrtL32A x) :=
  round_trip_shortA Shape.fsqrtL32A .fsqrtL32A x rfl (by decide) (fun h => find_first (p := fun q => q.1.ok x) [] rfl h)
theorem RoundTrip.fmin (x : Long) : RoundTrip.Statement (.fmin x) :=
  round_trip_long Shape.fmin .fmin x rfl (by decide) (fun _ => rfl)
theorem RoundTrip.fminL32A (x : ShortA) : RoundTrip.Statement (.fminL32A x) :=
  round_trip_shortA Shape.fminL32A .fminL32A x rfl (by decide) (fun h => find_first (p := fun q => q.1.ok x) [] rfl h)
theorem RoundTrip.fmax (x : Long) : RoundTrip.Statement (.fmax x) :=
  round_trip_long Shape.fmax .fmax x rfl (by decide) (fun _ => rfl)
theorem RoundTrip.fmaxL32A (x : ShortA) : RoundTrip.Statement (.fmaxL32A x) :=
  round_trip_shortA Shape.fmaxL32A .fmaxL32A x rfl (by decide) (fun h => find_first (p := fun q => q.1.ok x) [] rfl h)
theorem RoundTrip.fabs (x : Long) : RoundTrip.Statement (.fabs x) :=
  round_trip_long Shape.fabs .fabs x rfl (by decide) (fun _ => rfl)
theorem RoundTrip.fabsL32A (x : ShortA) : RoundTrip.Statement (.fabsL32A x) :=
  round_trip_shortA Shape.fabsL32A .fabsL32A x rfl (by decide) (fun h => find_first (p := fun q => q.1.ok x) [] rfl h)
theorem RoundTrip.fneg (x : Long) : RoundTrip.Statement (.fneg x) :=
  round_trip_long Shape.fneg .fneg x rfl (by decide) (fun _ => rfl)
theorem RoundTrip.fnegL32A (x : ShortA) : RoundTrip.Statement (.fnegL32A x) :=
  round_trip_shortA Shape.fnegL32A .fnegL32A x rfl (by decide) (fun h => find_first (p := fun q => q.1.ok x) [] rfl h)
theorem RoundTrip.fcpys (x : Long) : RoundTrip.Statement (.fcpys x) :=
  round_trip_long Shape.fcpys .fcpys x rfl (by decide) (fun _ => rfl)
theorem RoundTrip.fcpysL32A (x : ShortA) : RoundTrip.Statement (.fcpysL32A x) :=
  round_trip_shortA Shape.fcpysL32A .fcpysL32A x rfl (by decide) (fun h => find_first (p := fun q => q.1.ok x) [] rfl h)
theorem RoundTrip.fcmp (x : Long) : RoundTrip.Statement (.fcmp x) :=
  round_trip_long Shape.fcmp .fcmp x rfl (by decide) (fun _ => rfl)
theorem RoundTrip.fclass (x : Long) : RoundTrip.Statement (.fclass x) :=
  round_trip_long Shape.fclass .fclass x rfl (by decide) (fun _ => rfl)
theorem RoundTrip.fclassL32A (x : ShortA) : RoundTrip.Statement (.fclassL32A x) :=
  round_trip_shortA Shape.fclassL32A .fclassL32A x rfl (by decide) (fun h => find_first (p := fun q => q.1.ok x) [] rfl h)
theorem RoundTrip.fcvt (x : Long) : RoundTrip.Statement (.fcvt x) :=
  round_trip_long Shape.fcvt .fcvt x rfl (by decide) (fun _ => rfl)
theorem RoundTrip.fcvti (x : Long) : RoundTrip.Statement (.fcvti x) :=
  round_trip_long Shape.fcvti .fcvti x rfl (by decide) (fun _ => rfl)
theorem RoundTrip.icvtf (x : Long) : RoundTrip.Statement (.icvtf x) :=
  round_trip_long Shape.icvtf .icvtf x rfl (by decide) (fun _ => rfl)
theorem RoundTrip.frnd (x : Long) : RoundTrip.Statement (.frnd x) :=
  round_trip_long Shape.frnd .frnd x rfl (by decide) (fun _ => rfl)
theorem RoundTrip.frndL32A (x : ShortA) : RoundTrip.Statement (.frndL32A x) :=
  round_trip_shortA Shape.frndL32A .frndL32A x rfl (by decide) (fun h => find_first (p := fun q => q.1.ok x) [] rfl h)
theorem RoundTrip.br (x : Long) : RoundTrip.Statement (.br x) :=
  round_trip_long Shape.br .br x rfl (by decide) (fun _ => rfl)
theorem RoundTrip.brL32B (x : ShortB) : RoundTrip.Statement (.brL32B x) :=
  round_trip_shortB Shape.brL32B .brL32B x rfl (by decide) rfl
theorem RoundTrip.brNotL32B (x : ShortB) : RoundTrip.Statement (.brNotL32B x) :=
  round_trip_shortB Shape.brNotL32B .brNotL32B x rfl (by decide) rfl
theorem RoundTrip.jmp (x : Long) : RoundTrip.Statement (.jmp x) :=
  round_trip_long Shape.jmp .jmp x rfl (by decide) (fun _ => rfl)
theorem RoundTrip.jmpL32A (x : ShortA) : RoundTrip.Statement (.jmpL32A x) :=
  round_trip_shortA Shape.jmpL32A .jmpL32A x rfl (by decide) (fun h => find_first (p := fun q => q.1.ok x) [] rfl h)
theorem RoundTrip.jmpi (x : Long) : RoundTrip.Statement (.jmpi x) :=
  round_trip_long Shape.jmpi .jmpi x rfl (by decide) (fun _ => rfl)
theorem RoundTrip.jmpiL32A (x : ShortA) : RoundTrip.Statement (.jmpiL32A x) :=
  round_trip_shortA Shape.jmpiL32A .jmpiL32A x rfl (by decide) (fun h => find_first (p := fun q => q.1.ok x) [] rfl h)
theorem RoundTrip.call (x : Long) : RoundTrip.Statement (.call x) :=
  round_trip_long Shape.call .call x rfl (by decide) (fun _ => rfl)
theorem RoundTrip.callL32B (x : ShortB) : RoundTrip.Statement (.callL32B x) :=
  round_trip_shortB Shape.callL32B .callL32B x rfl (by decide) rfl
theorem RoundTrip.calli (x : Long) : RoundTrip.Statement (.calli x) :=
  round_trip_long Shape.calli .calli x rfl (by decide) (fun _ => rfl)
theorem RoundTrip.calliL32A (x : ShortA) : RoundTrip.Statement (.calliL32A x) :=
  round_trip_shortA Shape.calliL32A .calliL32A x rfl (by decide) (fun h => find_first (p := fun q => q.1.ok x) [] rfl h)
theorem RoundTrip.ret (x : Long) : RoundTrip.Statement (.ret x) :=
  round_trip_long Shape.ret .ret x rfl (by decide) (fun _ => rfl)
theorem RoundTrip.retL32A (x : ShortA) : RoundTrip.Statement (.retL32A x) :=
  round_trip_shortA Shape.retL32A .retL32A x rfl (by decide) (fun h => find_first (p := fun q => q.1.ok x) [] rfl h)
theorem RoundTrip.loops (x : Long) : RoundTrip.Statement (.loops x) :=
  round_trip_long Shape.loops .loops x rfl (by decide) (fun _ => rfl)
theorem RoundTrip.endI (x : Long) : RoundTrip.Statement (.endI x) :=
  round_trip_long Shape.endI .endI x rfl (by decide) (fun _ => rfl)
theorem RoundTrip.endL32A (x : ShortA) : RoundTrip.Statement (.endL32A x) :=
  round_trip_shortA Shape.endL32A .endL32A x rfl (by decide) (fun h => find_first (p := fun q => q.1.ok x) [] rfl h)
theorem RoundTrip.nop (x : Long) : RoundTrip.Statement (.nop x) :=
  round_trip_long Shape.nop .nop x rfl (by decide) (fun _ => rfl)
theorem RoundTrip.nopL32A (x : ShortA) : RoundTrip.Statement (.nopL32A x) :=
  round_trip_shortA Shape.nopL32A .nopL32A x rfl (by decide) (fun h => find_first (p := fun q => q.1.ok x) [] rfl h)
theorem RoundTrip.gang (x : Long) : RoundTrip.Statement (.gang x) :=
  round_trip_long Shape.gang .gang x rfl (by decide) (fun _ => rfl)
theorem RoundTrip.ungang (x : Long) : RoundTrip.Statement (.ungang x) :=
  round_trip_long Shape.ungang .ungang x rfl (by decide) (fun _ => rfl)
theorem RoundTrip.ungangL32A (x : ShortA) : RoundTrip.Statement (.ungangL32A x) :=
  round_trip_shortA Shape.ungangL32A .ungangL32A x rfl (by decide) (fun h => find_first (p := fun q => q.1.ok x) [] rfl h)
theorem RoundTrip.rejoin (x : Long) : RoundTrip.Statement (.rejoin x) :=
  round_trip_long Shape.rejoin .rejoin x rfl (by decide) (fun _ => rfl)
theorem RoundTrip.rejoinL32A (x : ShortA) : RoundTrip.Statement (.rejoinL32A x) :=
  round_trip_shortA Shape.rejoinL32A .rejoinL32A x rfl (by decide) (fun h => find_first (p := fun q => q.1.ok x) [] rfl h)
theorem RoundTrip.pand (x : Long) : RoundTrip.Statement (.pand x) :=
  round_trip_long Shape.pand .pand x rfl (by decide) (fun _ => rfl)
theorem RoundTrip.pandL32A (x : ShortA) : RoundTrip.Statement (.pandL32A x) :=
  round_trip_shortA Shape.pandL32A .pandL32A x rfl (by decide) (fun h => find_first (p := fun q => q.1.ok x) [] rfl h)
theorem RoundTrip.por (x : Long) : RoundTrip.Statement (.por x) :=
  round_trip_long Shape.por .por x rfl (by decide) (fun _ => rfl)
theorem RoundTrip.porL32A (x : ShortA) : RoundTrip.Statement (.porL32A x) :=
  round_trip_shortA Shape.porL32A .porL32A x rfl (by decide) (fun h => find_first (p := fun q => q.1.ok x) [] rfl h)
theorem RoundTrip.pxor (x : Long) : RoundTrip.Statement (.pxor x) :=
  round_trip_long Shape.pxor .pxor x rfl (by decide) (fun _ => rfl)
theorem RoundTrip.pxorL32A (x : ShortA) : RoundTrip.Statement (.pxorL32A x) :=
  round_trip_shortA Shape.pxorL32A .pxorL32A x rfl (by decide) (fun h => find_first (p := fun q => q.1.ok x) [] rfl h)
theorem RoundTrip.pnot (x : Long) : RoundTrip.Statement (.pnot x) :=
  round_trip_long Shape.pnot .pnot x rfl (by decide) (fun _ => rfl)
theorem RoundTrip.pnotL32A (x : ShortA) : RoundTrip.Statement (.pnotL32A x) :=
  round_trip_shortA Shape.pnotL32A .pnotL32A x rfl (by decide) (fun h => find_first (p := fun q => q.1.ok x) [] rfl h)
theorem RoundTrip.pmov (x : Long) : RoundTrip.Statement (.pmov x) :=
  round_trip_long Shape.pmov .pmov x rfl (by decide) fun h => by
    exact find_first (p := fun q => q.1.sel x) [(Shape.pmovFromG, .pmovFromG), (Shape.pmovToG, .pmovToG)] rfl h
theorem RoundTrip.pmovL32A (x : ShortA) : RoundTrip.Statement (.pmovL32A x) :=
  round_trip_shortA Shape.pmovL32A .pmovL32A x rfl (by decide) fun h => by
    exact find_first (p := fun q => q.1.ok x) [(Shape.pmovFromGL32A, .pmovFromGL32A), (Shape.pmovToGL32A, .pmovToGL32A)] rfl h
theorem RoundTrip.pmovFromG (x : Long) : RoundTrip.Statement (.pmovFromG x) :=
  round_trip_long Shape.pmovFromG .pmovFromG x rfl (by decide) fun h => by
    exact find_second (p := fun q => q.1.sel x) (Shape.pmov, .pmov) [(Shape.pmovToG, .pmovToG)] rfl (beq_excludes h (by decide)) h
theorem RoundTrip.pmovFromGL32A (x : ShortA) : RoundTrip.Statement (.pmovFromGL32A x) :=
  round_trip_shortA Shape.pmovFromGL32A .pmovFromGL32A x rfl (by decide) fun h => by
    exact find_second (p := fun q => q.1.ok x) (Shape.pmovL32A, .pmovL32A) [(Shape.pmovToGL32A, .pmovToGL32A)] rfl (beq_excludes h (by decide)) h
theorem RoundTrip.pmovToG (x : Long) : RoundTrip.Statement (.pmovToG x) :=
  round_trip_long Shape.pmovToG .pmovToG x rfl (by decide) fun h => by
    exact find_third (p := fun q => q.1.sel x) (Shape.pmov, .pmov) (Shape.pmovFromG, .pmovFromG) [] rfl (beq_excludes h (by decide)) (beq_excludes h (by decide)) h
theorem RoundTrip.pmovToGL32A (x : ShortA) : RoundTrip.Statement (.pmovToGL32A x) :=
  round_trip_shortA Shape.pmovToGL32A .pmovToGL32A x rfl (by decide) fun h => by
    exact find_third (p := fun q => q.1.ok x) (Shape.pmovL32A, .pmovL32A) (Shape.pmovFromGL32A, .pmovFromGL32A) [] rfl (beq_excludes h (by decide)) (beq_excludes h (by decide)) h
theorem RoundTrip.pcnt (x : Long) : RoundTrip.Statement (.pcnt x) :=
  round_trip_long Shape.pcnt .pcnt x rfl (by decide) (fun _ => rfl)
theorem RoundTrip.pcntL32A (x : ShortA) : RoundTrip.Statement (.pcntL32A x) :=
  round_trip_shortA Shape.pcntL32A .pcntL32A x rfl (by decide) (fun h => find_first (p := fun q => q.1.ok x) [] rfl h)
theorem RoundTrip.qinc (x : Long) : RoundTrip.Statement (.qinc x) :=
  round_trip_long Shape.qinc .qinc x rfl (by decide) (fun _ => rfl)
theorem RoundTrip.qincL32A (x : ShortA) : RoundTrip.Statement (.qincL32A x) :=
  round_trip_shortA Shape.qincL32A .qincL32A x rfl (by decide) (fun h => find_first (p := fun q => q.1.ok x) [] rfl h)
theorem RoundTrip.qadd (x : Long) : RoundTrip.Statement (.qadd x) :=
  round_trip_long Shape.qadd .qadd x rfl (by decide) (fun _ => rfl)
theorem RoundTrip.qaddL32B (x : ShortB) : RoundTrip.Statement (.qaddL32B x) :=
  round_trip_shortB Shape.qaddL32B .qaddL32B x rfl (by decide) rfl
theorem RoundTrip.qrd (x : Long) : RoundTrip.Statement (.qrd x) :=
  round_trip_long Shape.qrd .qrd x rfl (by decide) (fun _ => rfl)
theorem RoundTrip.qpost (x : Long) : RoundTrip.Statement (.qpost x) :=
  round_trip_long Shape.qpost .qpost x rfl (by decide) (fun _ => rfl)
theorem RoundTrip.waitq (x : Long) : RoundTrip.Statement (.waitq x) :=
  round_trip_long Shape.waitq .waitq x rfl (by decide) (fun _ => rfl)
theorem RoundTrip.waitb (x : Long) : RoundTrip.Statement (.waitb x) :=
  round_trip_long Shape.waitb .waitb x rfl (by decide) (fun _ => rfl)
theorem RoundTrip.waitvis (x : Long) : RoundTrip.Statement (.waitvis x) :=
  round_trip_long Shape.waitvis .waitvis x rfl (by decide) (fun _ => rfl)
theorem RoundTrip.succhint (x : Long) : RoundTrip.Statement (.succhint x) :=
  round_trip_long Shape.succhint .succhint x rfl (by decide) (fun _ => rfl)
theorem RoundTrip.succhintL32A (x : ShortA) : RoundTrip.Statement (.succhintL32A x) :=
  round_trip_shortA Shape.succhintL32A .succhintL32A x rfl (by decide) (fun h => find_first (p := fun q => q.1.ok x) [] rfl h)
theorem RoundTrip.hwaitf (x : Long) : RoundTrip.Statement (.hwaitf x) :=
  round_trip_long Shape.hwaitf .hwaitf x rfl (by decide) (fun _ => rfl)
theorem RoundTrip.hwaitfL32B (x : ShortB) : RoundTrip.Statement (.hwaitfL32B x) :=
  round_trip_shortB Shape.hwaitfL32B .hwaitfL32B x rfl (by decide) rfl
theorem RoundTrip.hwaite (x : Long) : RoundTrip.Statement (.hwaite x) :=
  round_trip_long Shape.hwaite .hwaite x rfl (by decide) (fun _ => rfl)
theorem RoundTrip.hwaiteL32B (x : ShortB) : RoundTrip.Statement (.hwaiteL32B x) :=
  round_trip_shortB Shape.hwaiteL32B .hwaiteL32B x rfl (by decide) rfl
theorem RoundTrip.hld (x : Long) : RoundTrip.Statement (.hld x) :=
  round_trip_long Shape.hld .hld x rfl (by decide) (fun _ => rfl)
theorem RoundTrip.hst (x : Long) : RoundTrip.Statement (.hst x) :=
  round_trip_long Shape.hst .hst x rfl (by decide) (fun _ => rfl)
theorem RoundTrip.hadvc (x : Long) : RoundTrip.Statement (.hadvc x) :=
  round_trip_long Shape.hadvc .hadvc x rfl (by decide) (fun _ => rfl)
theorem RoundTrip.hadvcL32B (x : ShortB) : RoundTrip.Statement (.hadvcL32B x) :=
  round_trip_shortB Shape.hadvcL32B .hadvcL32B x rfl (by decide) rfl
theorem RoundTrip.hadvp (x : Long) : RoundTrip.Statement (.hadvp x) :=
  round_trip_long Shape.hadvp .hadvp x rfl (by decide) (fun _ => rfl)
theorem RoundTrip.hadvpL32B (x : ShortB) : RoundTrip.Statement (.hadvpL32B x) :=
  round_trip_shortB Shape.hadvpL32B .hadvpL32B x rfl (by decide) rfl
theorem RoundTrip.heos (x : Long) : RoundTrip.Statement (.heos x) :=
  round_trip_long Shape.heos .heos x rfl (by decide) (fun _ => rfl)
theorem RoundTrip.hstat (x : Long) : RoundTrip.Statement (.hstat x) :=
  round_trip_long Shape.hstat .hstat x rfl (by decide) (fun _ => rfl)
theorem RoundTrip.hstatL32A (x : ShortA) : RoundTrip.Statement (.hstatL32A x) :=
  round_trip_shortA Shape.hstatL32A .hstatL32A x rfl (by decide) (fun h => find_first (p := fun q => q.1.ok x) [] rfl h)
theorem RoundTrip.send (x : Long) : RoundTrip.Statement (.send x) :=
  round_trip_long Shape.send .send x rfl (by decide) (fun _ => rfl)
theorem RoundTrip.sendq (x : Long) : RoundTrip.Statement (.sendq x) :=
  round_trip_long Shape.sendq .sendq x rfl (by decide) (fun _ => rfl)
theorem RoundTrip.cred (x : Long) : RoundTrip.Statement (.cred x) :=
  round_trip_long Shape.cred .cred x rfl (by decide) (fun _ => rfl)
theorem RoundTrip.cderive (x : Long) : RoundTrip.Statement (.cderive x) :=
  round_trip_long Shape.cderive .cderive x rfl (by decide) (fun _ => rfl)
theorem RoundTrip.cperm (x : Long) : RoundTrip.Statement (.cperm x) :=
  round_trip_long Shape.cperm .cperm x rfl (by decide) (fun _ => rfl)
theorem RoundTrip.cseal (x : Long) : RoundTrip.Statement (.cseal x) :=
  round_trip_long Shape.cseal .cseal x rfl (by decide) (fun _ => rfl)
theorem RoundTrip.csealL32A (x : ShortA) : RoundTrip.Statement (.csealL32A x) :=
  round_trip_shortA Shape.csealL32A .csealL32A x rfl (by decide) (fun h => find_first (p := fun q => q.1.ok x) [] rfl h)
theorem RoundTrip.cunseal (x : Long) : RoundTrip.Statement (.cunseal x) :=
  round_trip_long Shape.cunseal .cunseal x rfl (by decide) (fun _ => rfl)
theorem RoundTrip.cunsealL32A (x : ShortA) : RoundTrip.Statement (.cunsealL32A x) :=
  round_trip_shortA Shape.cunsealL32A .cunsealL32A x rfl (by decide) (fun h => find_first (p := fun q => q.1.ok x) [] rfl h)
theorem RoundTrip.cbase (x : Long) : RoundTrip.Statement (.cbase x) :=
  round_trip_long Shape.cbase .cbase x rfl (by decide) (fun _ => rfl)
theorem RoundTrip.cbaseL32A (x : ShortA) : RoundTrip.Statement (.cbaseL32A x) :=
  round_trip_shortA Shape.cbaseL32A .cbaseL32A x rfl (by decide) (fun h => find_first (p := fun q => q.1.ok x) [] rfl h)
theorem RoundTrip.clen (x : Long) : RoundTrip.Statement (.clen x) :=
  round_trip_long Shape.clen .clen x rfl (by decide) (fun _ => rfl)
theorem RoundTrip.clenL32A (x : ShortA) : RoundTrip.Statement (.clenL32A x) :=
  round_trip_shortA Shape.clenL32A .clenL32A x rfl (by decide) (fun h => find_first (p := fun q => q.1.ok x) [] rfl h)
theorem RoundTrip.cperms (x : Long) : RoundTrip.Statement (.cperms x) :=
  round_trip_long Shape.cperms .cperms x rfl (by decide) (fun _ => rfl)
theorem RoundTrip.cpermsL32A (x : ShortA) : RoundTrip.Statement (.cpermsL32A x) :=
  round_trip_shortA Shape.cpermsL32A .cpermsL32A x rfl (by decide) (fun h => find_first (p := fun q => q.1.ok x) [] rfl h)
theorem RoundTrip.ctype (x : Long) : RoundTrip.Statement (.ctype x) :=
  round_trip_long Shape.ctype .ctype x rfl (by decide) (fun _ => rfl)
theorem RoundTrip.ctypeL32A (x : ShortA) : RoundTrip.Statement (.ctypeL32A x) :=
  round_trip_shortA Shape.ctypeL32A .ctypeL32A x rfl (by decide) (fun h => find_first (p := fun q => q.1.ok x) [] rfl h)
theorem RoundTrip.ctag (x : Long) : RoundTrip.Statement (.ctag x) :=
  round_trip_long Shape.ctag .ctag x rfl (by decide) (fun _ => rfl)
theorem RoundTrip.ctagL32A (x : ShortA) : RoundTrip.Statement (.ctagL32A x) :=
  round_trip_shortA Shape.ctagL32A .ctagL32A x rfl (by decide) (fun h => find_first (p := fun q => q.1.ok x) [] rfl h)
theorem RoundTrip.cclr (x : Long) : RoundTrip.Statement (.cclr x) :=
  round_trip_long Shape.cclr .cclr x rfl (by decide) (fun _ => rfl)
theorem RoundTrip.cclrL32A (x : ShortA) : RoundTrip.Statement (.cclrL32A x) :=
  round_trip_shortA Shape.cclrL32A .cclrL32A x rfl (by decide) (fun h => find_first (p := fun q => q.1.ok x) [] rfl h)
theorem RoundTrip.cmov (x : Long) : RoundTrip.Statement (.cmov x) :=
  round_trip_long Shape.cmov .cmov x rfl (by decide) (fun _ => rfl)
theorem RoundTrip.cmovL32A (x : ShortA) : RoundTrip.Statement (.cmovL32A x) :=
  round_trip_shortA Shape.cmovL32A .cmovL32A x rfl (by decide) (fun h => find_first (p := fun q => q.1.ok x) [] rfl h)
theorem RoundTrip.cldc (x : Long) : RoundTrip.Statement (.cldc x) :=
  round_trip_long Shape.cldc .cldc x rfl (by decide) (fun _ => rfl)
theorem RoundTrip.cldcL32B (x : ShortB) : RoundTrip.Statement (.cldcL32B x) :=
  round_trip_shortB Shape.cldcL32B .cldcL32B x rfl (by decide) rfl
theorem RoundTrip.cstc (x : Long) : RoundTrip.Statement (.cstc x) :=
  round_trip_long Shape.cstc .cstc x rfl (by decide) (fun _ => rfl)
theorem RoundTrip.cstcL32B (x : ShortB) : RoundTrip.Statement (.cstcL32B x) :=
  round_trip_shortB Shape.cstcL32B .cstcL32B x rfl (by decide) rfl
theorem RoundTrip.cchk (x : Long) : RoundTrip.Statement (.cchk x) :=
  round_trip_long Shape.cchk .cchk x rfl (by decide) (fun _ => rfl)
theorem RoundTrip.trap (x : Long) : RoundTrip.Statement (.trap x) :=
  round_trip_long Shape.trap .trap x rfl (by decide) (fun _ => rfl)
theorem RoundTrip.trapL32B (x : ShortB) : RoundTrip.Statement (.trapL32B x) :=
  round_trip_shortB Shape.trapL32B .trapL32B x rfl (by decide) rfl
theorem RoundTrip.wick (x : Long) : RoundTrip.Statement (.wick x) :=
  round_trip_long Shape.wick .wick x rfl (by decide) (fun _ => rfl)
theorem RoundTrip.wickL32A (x : ShortA) : RoundTrip.Statement (.wickL32A x) :=
  round_trip_shortA Shape.wickL32A .wickL32A x rfl (by decide) (fun h => find_first (p := fun q => q.1.ok x) [] rfl h)
theorem RoundTrip.wid (x : Long) : RoundTrip.Statement (.wid x) :=
  round_trip_long Shape.wid .wid x rfl (by decide) (fun _ => rfl)
theorem RoundTrip.widL32B (x : ShortB) : RoundTrip.Statement (.widL32B x) :=
  round_trip_shortB Shape.widL32B .widL32B x rfl (by decide) rfl
theorem RoundTrip.who (x : Long) : RoundTrip.Statement (.who x) :=
  round_trip_long Shape.who .who x rfl (by decide) (fun _ => rfl)
theorem RoundTrip.query (x : Long) : RoundTrip.Statement (.query x) :=
  round_trip_long Shape.query .query x rfl (by decide) (fun _ => rfl)
theorem RoundTrip.queryL32A (x : ShortA) : RoundTrip.Statement (.queryL32A x) :=
  round_trip_shortA Shape.queryL32A .queryL32A x rfl (by decide) (fun h => find_first (p := fun q => q.1.ok x) [] rfl h)
theorem RoundTrip.time (x : Long) : RoundTrip.Statement (.time x) :=
  round_trip_long Shape.time .time x rfl (by decide) fun h => by
    exact find_first (p := fun q => q.1.sel x) [(Shape.timeEnergy, .timeEnergy)] rfl h
theorem RoundTrip.timeL32A (x : ShortA) : RoundTrip.Statement (.timeL32A x) :=
  round_trip_shortA Shape.timeL32A .timeL32A x rfl (by decide) fun h => by
    exact find_first (p := fun q => q.1.ok x) [(Shape.timeEnergyL32A, .timeEnergyL32A)] rfl h
theorem RoundTrip.timeEnergy (x : Long) : RoundTrip.Statement (.timeEnergy x) :=
  round_trip_long Shape.timeEnergy .timeEnergy x rfl (by decide) fun h => by
    exact find_second (p := fun q => q.1.sel x) (Shape.time, .time) [] rfl (beq_excludes h (by decide)) h
theorem RoundTrip.timeEnergyL32A (x : ShortA) : RoundTrip.Statement (.timeEnergyL32A x) :=
  round_trip_shortA Shape.timeEnergyL32A .timeEnergyL32A x rfl (by decide) fun h => by
    exact find_second (p := fun q => q.1.ok x) (Shape.timeL32A, .timeL32A) [] rfl (beq_excludes h (by decide)) h
theorem RoundTrip.sysrd (x : Long) : RoundTrip.Statement (.sysrd x) :=
  round_trip_long Shape.sysrd .sysrd x rfl (by decide) (fun _ => rfl)
theorem RoundTrip.syswr (x : Long) : RoundTrip.Statement (.syswr x) :=
  round_trip_long Shape.syswr .syswr x rfl (by decide) (fun _ => rfl)
theorem RoundTrip.yield (x : Long) : RoundTrip.Statement (.yield x) :=
  round_trip_long Shape.yield .yield x rfl (by decide) (fun _ => rfl)
theorem RoundTrip.yieldL32A (x : ShortA) : RoundTrip.Statement (.yieldL32A x) :=
  round_trip_shortA Shape.yieldL32A .yieldL32A x rfl (by decide) (fun h => find_first (p := fun q => q.1.ok x) [] rfl h)
theorem RoundTrip.gate (x : Long) : RoundTrip.Statement (.gate x) :=
  round_trip_long Shape.gate .gate x rfl (by decide) (fun _ => rfl)
theorem RoundTrip.snuff (x : Long) : RoundTrip.Statement (.snuff x) :=
  round_trip_long Shape.snuff .snuff x rfl (by decide) (fun _ => rfl)
theorem RoundTrip.nameset (x : Long) : RoundTrip.Statement (.nameset x) :=
  round_trip_long Shape.nameset .nameset x rfl (by decide) (fun _ => rfl)
theorem RoundTrip.leaseack (x : Long) : RoundTrip.Statement (.leaseack x) :=
  round_trip_long Shape.leaseack .leaseack x rfl (by decide) (fun _ => rfl)
theorem RoundTrip.fresume (x : Long) : RoundTrip.Statement (.fresume x) :=
  round_trip_long Shape.fresume .fresume x rfl (by decide) fun h => by
    exact find_first (p := fun q => q.1.sel x) [(Shape.fresumeValue, .fresumeValue)] rfl h
theorem RoundTrip.fresumeValue (x : Long) : RoundTrip.Statement (.fresumeValue x) :=
  round_trip_long Shape.fresumeValue .fresumeValue x rfl (by decide) fun h => by
    exact find_second (p := fun q => q.1.sel x) (Shape.fresume, .fresume) [] rfl (beq_excludes h (by decide)) h
theorem RoundTrip.fkill (x : Long) : RoundTrip.Statement (.fkill x) :=
  round_trip_long Shape.fkill .fkill x rfl (by decide) (fun _ => rfl)
theorem RoundTrip.ld (x : Long) : RoundTrip.Statement (.ld x) :=
  round_trip_long Shape.ld .ld x rfl (by decide) (fun _ => rfl)
theorem RoundTrip.ldN64L32B (x : ShortB) : RoundTrip.Statement (.ldN64L32B x) :=
  round_trip_shortB Shape.ldN64L32B .ldN64L32B x rfl (by decide) rfl
theorem RoundTrip.ldI32L32B (x : ShortB) : RoundTrip.Statement (.ldI32L32B x) :=
  round_trip_shortB Shape.ldI32L32B .ldI32L32B x rfl (by decide) rfl
theorem RoundTrip.ldN32L32B (x : ShortB) : RoundTrip.Statement (.ldN32L32B x) :=
  round_trip_shortB Shape.ldN32L32B .ldN32L32B x rfl (by decide) rfl
theorem RoundTrip.ldI16L32B (x : ShortB) : RoundTrip.Statement (.ldI16L32B x) :=
  round_trip_shortB Shape.ldI16L32B .ldI16L32B x rfl (by decide) rfl
theorem RoundTrip.ldN16L32B (x : ShortB) : RoundTrip.Statement (.ldN16L32B x) :=
  round_trip_shortB Shape.ldN16L32B .ldN16L32B x rfl (by decide) rfl
theorem RoundTrip.ldI8L32B (x : ShortB) : RoundTrip.Statement (.ldI8L32B x) :=
  round_trip_shortB Shape.ldI8L32B .ldI8L32B x rfl (by decide) rfl
theorem RoundTrip.ldN8L32B (x : ShortB) : RoundTrip.Statement (.ldN8L32B x) :=
  round_trip_shortB Shape.ldN8L32B .ldN8L32B x rfl (by decide) rfl
theorem RoundTrip.st (x : Long) : RoundTrip.Statement (.st x) :=
  round_trip_long Shape.st .st x rfl (by decide) (fun _ => rfl)
theorem RoundTrip.stN64L32B (x : ShortB) : RoundTrip.Statement (.stN64L32B x) :=
  round_trip_shortB Shape.stN64L32B .stN64L32B x rfl (by decide) rfl
theorem RoundTrip.stN32L32B (x : ShortB) : RoundTrip.Statement (.stN32L32B x) :=
  round_trip_shortB Shape.stN32L32B .stN32L32B x rfl (by decide) rfl
theorem RoundTrip.stN16L32B (x : ShortB) : RoundTrip.Statement (.stN16L32B x) :=
  round_trip_shortB Shape.stN16L32B .stN16L32B x rfl (by decide) rfl
theorem RoundTrip.stN8L32B (x : ShortB) : RoundTrip.Statement (.stN8L32B x) :=
  round_trip_shortB Shape.stN8L32B .stN8L32B x rfl (by decide) rfl
theorem RoundTrip.lda (x : Long) : RoundTrip.Statement (.lda x) :=
  round_trip_long Shape.lda .lda x rfl (by decide) (fun _ => rfl)
theorem RoundTrip.stl (x : Long) : RoundTrip.Statement (.stl x) :=
  round_trip_long Shape.stl .stl x rfl (by decide) (fun _ => rfl)
theorem RoundTrip.pf (x : Long) : RoundTrip.Statement (.pf x) :=
  round_trip_long Shape.pf .pf x rfl (by decide) (fun _ => rfl)
theorem RoundTrip.pfL32B (x : ShortB) : RoundTrip.Statement (.pfL32B x) :=
  round_trip_shortB Shape.pfL32B .pfL32B x rfl (by decide) rfl
theorem RoundTrip.aadd (x : Long) : RoundTrip.Statement (.aadd x) :=
  round_trip_long Shape.aadd .aadd x rfl (by decide) (fun _ => rfl)
theorem RoundTrip.amin (x : Long) : RoundTrip.Statement (.amin x) :=
  round_trip_long Shape.amin .amin x rfl (by decide) (fun _ => rfl)
theorem RoundTrip.amax (x : Long) : RoundTrip.Statement (.amax x) :=
  round_trip_long Shape.amax .amax x rfl (by decide) (fun _ => rfl)
theorem RoundTrip.aand (x : Long) : RoundTrip.Statement (.aand x) :=
  round_trip_long Shape.aand .aand x rfl (by decide) (fun _ => rfl)
theorem RoundTrip.aor (x : Long) : RoundTrip.Statement (.aor x) :=
  round_trip_long Shape.aor .aor x rfl (by decide) (fun _ => rfl)
theorem RoundTrip.axor (x : Long) : RoundTrip.Statement (.axor x) :=
  round_trip_long Shape.axor .axor x rfl (by decide) (fun _ => rfl)
theorem RoundTrip.aswp (x : Long) : RoundTrip.Statement (.aswp x) :=
  round_trip_long Shape.aswp .aswp x rfl (by decide) (fun _ => rfl)
theorem RoundTrip.acas (x : Long) : RoundTrip.Statement (.acas x) :=
  round_trip_long Shape.acas .acas x rfl (by decide) (fun _ => rfl)
theorem RoundTrip.aaddf (x : Long) : RoundTrip.Statement (.aaddf x) :=
  round_trip_long Shape.aaddf .aaddf x rfl (by decide) (fun _ => rfl)
theorem RoundTrip.fence (x : Long) : RoundTrip.Statement (.fence x) :=
  round_trip_long Shape.fence .fence x rfl (by decide) (fun _ => rfl)
theorem RoundTrip.ojoin (x : Long) : RoundTrip.Statement (.ojoin x) :=
  round_trip_long Shape.ojoin .ojoin x rfl (by decide) (fun _ => rfl)
theorem RoundTrip.cpy (x : Long) : RoundTrip.Statement (.cpy x) :=
  round_trip_long Shape.cpy .cpy x rfl (by decide) fun h => by
    exact find_first (p := fun q => q.1.sel x) [(Shape.cpyHandle, .cpyHandle)] rfl h
theorem RoundTrip.cpyHandle (x : Long) : RoundTrip.Statement (.cpyHandle x) :=
  round_trip_long Shape.cpyHandle .cpyHandle x rfl (by decide) fun h => by
    exact find_second (p := fun q => q.1.sel x) (Shape.cpy, .cpy) [] rfl (beq_excludes h (by decide)) h
theorem RoundTrip.cpy4 (x : Long) : RoundTrip.Statement (.cpy4 x) :=
  round_trip_long Shape.cpy4 .cpy4 x rfl (by decide) (fun _ => rfl)
theorem RoundTrip.cpyg (x : Long) : RoundTrip.Statement (.cpyg x) :=
  round_trip_long Shape.cpyg .cpyg x rfl (by decide) (fun _ => rfl)
theorem RoundTrip.batch (x : Long) : RoundTrip.Statement (.batch x) :=
  round_trip_long Shape.batch .batch x rfl (by decide) (fun _ => rfl)
theorem RoundTrip.stcfg (x : Long) : RoundTrip.Statement (.stcfg x) :=
  round_trip_long Shape.stcfg .stcfg x rfl (by decide) (fun _ => rfl)
theorem RoundTrip.sbufw (x : Long) : RoundTrip.Statement (.sbufw x) :=
  round_trip_long Shape.sbufw .sbufw x rfl (by decide) (fun _ => rfl)
theorem RoundTrip.sbufset (x : Long) : RoundTrip.Statement (.sbufset x) :=
  round_trip_long Shape.sbufset .sbufset x rfl (by decide) (fun _ => rfl)
theorem RoundTrip.splice (x : Long) : RoundTrip.Statement (.splice x) :=
  round_trip_long Shape.splice .splice x rfl (by decide) (fun _ => rfl)
theorem RoundTrip.drd (x : Long) : RoundTrip.Statement (.drd x) :=
  round_trip_long Shape.drd .drd x rfl (by decide) (fun _ => rfl)
theorem RoundTrip.dwr (x : Long) : RoundTrip.Statement (.dwr x) :=
  round_trip_long Shape.dwr .dwr x rfl (by decide) (fun _ => rfl)
theorem RoundTrip.dgath (x : Long) : RoundTrip.Statement (.dgath x) :=
  round_trip_long Shape.dgath .dgath x rfl (by decide) (fun _ => rfl)
theorem RoundTrip.flush (x : Long) : RoundTrip.Statement (.flush x) :=
  round_trip_long Shape.flush .flush x rfl (by decide) (fun _ => rfl)
theorem RoundTrip.rowopen (x : Long) : RoundTrip.Statement (.rowopen x) :=
  round_trip_long Shape.rowopen .rowopen x rfl (by decide) (fun _ => rfl)
theorem RoundTrip.rowhold (x : Long) : RoundTrip.Statement (.rowhold x) :=
  round_trip_long Shape.rowhold .rowhold x rfl (by decide) (fun _ => rfl)
theorem RoundTrip.rowrel (x : Long) : RoundTrip.Statement (.rowrel x) :=
  round_trip_long Shape.rowrel .rowrel x rfl (by decide) (fun _ => rfl)
theorem RoundTrip.rowrd (x : Long) : RoundTrip.Statement (.rowrd x) :=
  round_trip_long Shape.rowrd .rowrd x rfl (by decide) (fun _ => rfl)
theorem RoundTrip.rowrdv (x : Long) : RoundTrip.Statement (.rowrdv x) :=
  round_trip_long Shape.rowrdv .rowrdv x rfl (by decide) (fun _ => rfl)
theorem RoundTrip.rowwr (x : Long) : RoundTrip.Statement (.rowwr x) :=
  round_trip_long Shape.rowwr .rowwr x rfl (by decide) (fun _ => rfl)
theorem RoundTrip.rowstat (x : Long) : RoundTrip.Statement (.rowstat x) :=
  round_trip_long Shape.rowstat .rowstat x rfl (by decide) (fun _ => rfl)
theorem RoundTrip.scfg (x : Long) : RoundTrip.Statement (.scfg x) :=
  round_trip_long Shape.scfg .scfg x rfl (by decide) (fun _ => rfl)
theorem RoundTrip.sbind (x : Long) : RoundTrip.Statement (.sbind x) :=
  round_trip_long Shape.sbind .sbind x rfl (by decide) (fun _ => rfl)
theorem RoundTrip.sunbind (x : Long) : RoundTrip.Statement (.sunbind x) :=
  round_trip_long Shape.sunbind .sunbind x rfl (by decide) (fun _ => rfl)
theorem RoundTrip.spredAttach (x : Long) : RoundTrip.Statement (.spredAttach x) :=
  round_trip_long Shape.spredAttach .spredAttach x rfl (by decide) fun h => by
    exact find_first (p := fun q => q.1.sel x) [(Shape.spredRead, .spredRead)] rfl h
theorem RoundTrip.spredRead (x : Long) : RoundTrip.Statement (.spredRead x) :=
  round_trip_long Shape.spredRead .spredRead x rfl (by decide) fun h => by
    exact find_second (p := fun q => q.1.sel x) (Shape.spredAttach, .spredAttach) [] rfl (beq_excludes h (by decide)) h
theorem RoundTrip.spos (x : Long) : RoundTrip.Statement (.spos x) :=
  round_trip_long Shape.spos .spos x rfl (by decide) (fun _ => rfl)
theorem RoundTrip.vld (x : Long) : RoundTrip.Statement (.vld x) :=
  round_trip_long Shape.vld .vld x rfl (by decide) (fun _ => rfl)
theorem RoundTrip.vldL32B (x : ShortB) : RoundTrip.Statement (.vldL32B x) :=
  round_trip_shortB Shape.vldL32B .vldL32B x rfl (by decide) rfl
theorem RoundTrip.vst (x : Long) : RoundTrip.Statement (.vst x) :=
  round_trip_long Shape.vst .vst x rfl (by decide) (fun _ => rfl)
theorem RoundTrip.vstL32B (x : ShortB) : RoundTrip.Statement (.vstL32B x) :=
  round_trip_shortB Shape.vstL32B .vstL32B x rfl (by decide) rfl
theorem RoundTrip.vldg (x : Long) : RoundTrip.Statement (.vldg x) :=
  round_trip_long Shape.vldg .vldg x rfl (by decide) (fun _ => rfl)
theorem RoundTrip.vsts (x : Long) : RoundTrip.Statement (.vsts x) :=
  round_trip_long Shape.vsts .vsts x rfl (by decide) (fun _ => rfl)
theorem RoundTrip.vbcast (x : Long) : RoundTrip.Statement (.vbcast x) :=
  round_trip_long Shape.vbcast .vbcast x rfl (by decide) (fun _ => rfl)
theorem RoundTrip.vmov (x : Long) : RoundTrip.Statement (.vmov x) :=
  round_trip_long Shape.vmov .vmov x rfl (by decide) (fun _ => rfl)
theorem RoundTrip.vmovmExtract (x : Long) : RoundTrip.Statement (.vmovmExtract x) :=
  round_trip_long Shape.vmovmExtract .vmovmExtract x rfl (by decide) fun h => by
    exact find_first (p := fun q => q.1.sel x) [(Shape.vmovmInsert, .vmovmInsert)] rfl h
theorem RoundTrip.vmovmInsert (x : Long) : RoundTrip.Statement (.vmovmInsert x) :=
  round_trip_long Shape.vmovmInsert .vmovmInsert x rfl (by decide) fun h => by
    exact find_second (p := fun q => q.1.sel x) (Shape.vmovmExtract, .vmovmExtract) [] rfl (beq_excludes h (by decide)) h
theorem RoundTrip.vperm (x : Long) : RoundTrip.Statement (.vperm x) :=
  round_trip_long Shape.vperm .vperm x rfl (by decide) (fun _ => rfl)
theorem RoundTrip.vslide (x : Long) : RoundTrip.Statement (.vslide x) :=
  round_trip_long Shape.vslide .vslide x rfl (by decide) (fun _ => rfl)
theorem RoundTrip.vadd (x : Long) : RoundTrip.Statement (.vadd x) :=
  round_trip_long Shape.vadd .vadd x rfl (by decide) (fun _ => rfl)
theorem RoundTrip.vsub (x : Long) : RoundTrip.Statement (.vsub x) :=
  round_trip_long Shape.vsub .vsub x rfl (by decide) (fun _ => rfl)
theorem RoundTrip.vmul (x : Long) : RoundTrip.Statement (.vmul x) :=
  round_trip_long Shape.vmul .vmul x rfl (by decide) (fun _ => rfl)
theorem RoundTrip.vfma (x : Long) : RoundTrip.Statement (.vfma x) :=
  round_trip_long Shape.vfma .vfma x rfl (by decide) (fun _ => rfl)
theorem RoundTrip.vmin (x : Long) : RoundTrip.Statement (.vmin x) :=
  round_trip_long Shape.vmin .vmin x rfl (by decide) (fun _ => rfl)
theorem RoundTrip.vmax (x : Long) : RoundTrip.Statement (.vmax x) :=
  round_trip_long Shape.vmax .vmax x rfl (by decide) (fun _ => rfl)
theorem RoundTrip.vabs (x : Long) : RoundTrip.Statement (.vabs x) :=
  round_trip_long Shape.vabs .vabs x rfl (by decide) (fun _ => rfl)
theorem RoundTrip.vneg (x : Long) : RoundTrip.Statement (.vneg x) :=
  round_trip_long Shape.vneg .vneg x rfl (by decide) (fun _ => rfl)
theorem RoundTrip.vdiv (x : Long) : RoundTrip.Statement (.vdiv x) :=
  round_trip_long Shape.vdiv .vdiv x rfl (by decide) (fun _ => rfl)
theorem RoundTrip.vsqrt (x : Long) : RoundTrip.Statement (.vsqrt x) :=
  round_trip_long Shape.vsqrt .vsqrt x rfl (by decide) (fun _ => rfl)
theorem RoundTrip.vrcp (x : Long) : RoundTrip.Statement (.vrcp x) :=
  round_trip_long Shape.vrcp .vrcp x rfl (by decide) (fun _ => rfl)
theorem RoundTrip.vrsqrt (x : Long) : RoundTrip.Statement (.vrsqrt x) :=
  round_trip_long Shape.vrsqrt .vrsqrt x rfl (by decide) (fun _ => rfl)
theorem RoundTrip.vexp2 (x : Long) : RoundTrip.Statement (.vexp2 x) :=
  round_trip_long Shape.vexp2 .vexp2 x rfl (by decide) (fun _ => rfl)
theorem RoundTrip.vlog2 (x : Long) : RoundTrip.Statement (.vlog2 x) :=
  round_trip_long Shape.vlog2 .vlog2 x rfl (by decide) (fun _ => rfl)
theorem RoundTrip.vsin (x : Long) : RoundTrip.Statement (.vsin x) :=
  round_trip_long Shape.vsin .vsin x rfl (by decide) (fun _ => rfl)
theorem RoundTrip.vcos (x : Long) : RoundTrip.Statement (.vcos x) :=
  round_trip_long Shape.vcos .vcos x rfl (by decide) (fun _ => rfl)
theorem RoundTrip.vtanh (x : Long) : RoundTrip.Statement (.vtanh x) :=
  round_trip_long Shape.vtanh .vtanh x rfl (by decide) (fun _ => rfl)
theorem RoundTrip.vand (x : Long) : RoundTrip.Statement (.vand x) :=
  round_trip_long Shape.vand .vand x rfl (by decide) (fun _ => rfl)
theorem RoundTrip.vor (x : Long) : RoundTrip.Statement (.vor x) :=
  round_trip_long Shape.vor .vor x rfl (by decide) (fun _ => rfl)
theorem RoundTrip.vxor (x : Long) : RoundTrip.Statement (.vxor x) :=
  round_trip_long Shape.vxor .vxor x rfl (by decide) (fun _ => rfl)
theorem RoundTrip.vshl (x : Long) : RoundTrip.Statement (.vshl x) :=
  round_trip_long Shape.vshl .vshl x rfl (by decide) (fun _ => rfl)
theorem RoundTrip.vshr (x : Long) : RoundTrip.Statement (.vshr x) :=
  round_trip_long Shape.vshr .vshr x rfl (by decide) (fun _ => rfl)
theorem RoundTrip.vsha (x : Long) : RoundTrip.Statement (.vsha x) :=
  round_trip_long Shape.vsha .vsha x rfl (by decide) (fun _ => rfl)
theorem RoundTrip.vcmp (x : Long) : RoundTrip.Statement (.vcmp x) :=
  round_trip_long Shape.vcmp .vcmp x rfl (by decide) (fun _ => rfl)
theorem RoundTrip.vsel (x : Long) : RoundTrip.Statement (.vsel x) :=
  round_trip_long Shape.vsel .vsel x rfl (by decide) (fun _ => rfl)
theorem RoundTrip.vcvt (x : Long) : RoundTrip.Statement (.vcvt x) :=
  round_trip_long Shape.vcvt .vcvt x rfl (by decide) (fun _ => rfl)
theorem RoundTrip.vpack (x : Long) : RoundTrip.Statement (.vpack x) :=
  round_trip_long Shape.vpack .vpack x rfl (by decide) (fun _ => rfl)
theorem RoundTrip.vunpack (x : Long) : RoundTrip.Statement (.vunpack x) :=
  round_trip_long Shape.vunpack .vunpack x rfl (by decide) (fun _ => rfl)
theorem RoundTrip.vred (x : Long) : RoundTrip.Statement (.vred x) :=
  round_trip_long Shape.vred .vred x rfl (by decide) (fun _ => rfl)
theorem RoundTrip.vscan (x : Long) : RoundTrip.Statement (.vscan x) :=
  round_trip_long Shape.vscan .vscan x rfl (by decide) (fun _ => rfl)
theorem RoundTrip.vdot (x : Long) : RoundTrip.Statement (.vdot x) :=
  round_trip_long Shape.vdot .vdot x rfl (by decide) (fun _ => rfl)
theorem RoundTrip.mzero (x : Long) : RoundTrip.Statement (.mzero x) :=
  round_trip_long Shape.mzero .mzero x rfl (by decide) (fun _ => rfl)
theorem RoundTrip.mma (x : Long) : RoundTrip.Statement (.mma x) :=
  round_trip_long Shape.mma .mma x rfl (by decide) (fun _ => rfl)
theorem RoundTrip.mmaq (x : Long) : RoundTrip.Statement (.mmaq x) :=
  round_trip_long Shape.mmaq .mmaq x rfl (by decide) (fun _ => rfl)
theorem RoundTrip.mmad (x : Long) : RoundTrip.Statement (.mmad x) :=
  round_trip_long Shape.mmad .mmad x rfl (by decide) (fun _ => rfl)
theorem RoundTrip.mread (x : Long) : RoundTrip.Statement (.mread x) :=
  round_trip_long Shape.mread .mread x rfl (by decide) (fun _ => rfl)
theorem RoundTrip.mreadk (x : Long) : RoundTrip.Statement (.mreadk x) :=
  round_trip_long Shape.mreadk .mreadk x rfl (by decide) (fun _ => rfl)
theorem RoundTrip.macc (x : Long) : RoundTrip.Statement (.macc x) :=
  round_trip_long Shape.macc .macc x rfl (by decide) fun h => by
    exact find_first (p := fun q => q.1.sel x) [(Shape.maccMov, .maccMov)] rfl h
theorem RoundTrip.maccMov (x : Long) : RoundTrip.Statement (.maccMov x) :=
  round_trip_long Shape.maccMov .maccMov x rfl (by decide) fun h => by
    exact find_second (p := fun q => q.1.sel x) (Shape.macc, .macc) [] rfl (beq_excludes h (by decide)) h
theorem RoundTrip.mstat (x : Long) : RoundTrip.Statement (.mstat x) :=
  round_trip_long Shape.mstat .mstat x rfl (by decide) (fun _ => rfl)
theorem RoundTrip.mmode (x : Long) : RoundTrip.Statement (.mmode x) :=
  round_trip_long Shape.mmode .mmode x rfl (by decide) (fun _ => rfl)
theorem RoundTrip.rjoin (x : Long) : RoundTrip.Statement (.rjoin x) :=
  round_trip_long Shape.rjoin .rjoin x rfl (by decide) (fun _ => rfl)
theorem RoundTrip.rleave (x : Long) : RoundTrip.Statement (.rleave x) :=
  round_trip_long Shape.rleave .rleave x rfl (by decide) (fun _ => rfl)
theorem RoundTrip.rmset (x : Long) : RoundTrip.Statement (.rmset x) :=
  round_trip_long Shape.rmset .rmset x rfl (by decide) (fun _ => rfl)
theorem RoundTrip.rmclr (x : Long) : RoundTrip.Statement (.rmclr x) :=
  round_trip_long Shape.rmclr .rmclr x rfl (by decide) fun h => by
    exact find_first (p := fun q => q.1.sel x) [(Shape.rmclrAll, .rmclrAll)] rfl h
theorem RoundTrip.rmclrAll (x : Long) : RoundTrip.Statement (.rmclrAll x) :=
  round_trip_long Shape.rmclrAll .rmclrAll x rfl (by decide) fun h => by
    exact find_second (p := fun q => q.1.sel x) (Shape.rmclr, .rmclr) [] rfl (by simp [Shape.rmclr, show x.sub = 2 from eq_of_beq h]) h
theorem RoundTrip.rinj (x : Long) : RoundTrip.Statement (.rinj x) :=
  round_trip_long Shape.rinj .rinj x rfl (by decide) (fun _ => rfl)
theorem RoundTrip.rdrain (x : Long) : RoundTrip.Statement (.rdrain x) :=
  round_trip_long Shape.rdrain .rdrain x rfl (by decide) (fun _ => rfl)
theorem RoundTrip.rstat (x : Long) : RoundTrip.Statement (.rstat x) :=
  round_trip_long Shape.rstat .rstat x rfl (by decide) (fun _ => rfl)
theorem RoundTrip.relight (x : Long) : RoundTrip.Statement (.relight x) :=
  round_trip_long Shape.relight .relight x rfl (by decide) (fun _ => rfl)
theorem RoundTrip.ctrlRegisterWrite (addr : BitVec 40) (data : List Byte) : RoundTrip.Statement (.ctrlRegisterWrite addr data) := round_trip_event _ rfl
theorem RoundTrip.namePrefixWrite (region : Nat) (value : Word) : RoundTrip.Statement (.namePrefixWrite region value) := round_trip_event _ rfl
theorem RoundTrip.dirEntryWrite (region : Nat) (name : BitVec 24) : RoundTrip.Statement (.dirEntryWrite region name) := round_trip_event _ rfl
theorem RoundTrip.routerArrival (id : Nat) : RoundTrip.Statement (.routerArrival id) := round_trip_event _ rfl
theorem RoundTrip.coreMessageAccept (id : Nat) : RoundTrip.Statement (.coreMessageAccept id) := round_trip_event _ rfl
theorem RoundTrip.lanternFloodBounce (id : Nat) : RoundTrip.Statement (.lanternFloodBounce id) := round_trip_event _ rfl
theorem RoundTrip.bounceReceived (id : Nat) : RoundTrip.Statement (.bounceReceived id) := round_trip_event _ rfl
theorem RoundTrip.tombstoneForward (id : Nat) : RoundTrip.Statement (.tombstoneForward id) := round_trip_event _ rfl
theorem RoundTrip.tombstoneWindowEnd (core : Psn) : RoundTrip.Statement (.tombstoneWindowEnd core) := round_trip_event _ rfl
theorem RoundTrip.l2TlbRequest (id : Nat) : RoundTrip.Statement (.l2TlbRequest id) := round_trip_event _ rfl
theorem RoundTrip.pageWalk (walker : Walker) : RoundTrip.Statement (.pageWalk walker) := round_trip_event _ rfl
theorem RoundTrip.tlbFillReply (id : Nat) : RoundTrip.Statement (.tlbFillReply id) := round_trip_event _ rfl
theorem RoundTrip.tlbInvalPage (region : Nat) (value : Word) : RoundTrip.Statement (.tlbInvalPage region value) := round_trip_event _ rfl
theorem RoundTrip.tlbInvalContext (region : Nat) (value : Word) : RoundTrip.Statement (.tlbInvalContext region value) := round_trip_event _ rfl
theorem RoundTrip.tlbInvalAll (region : Nat) (value : Word) : RoundTrip.Statement (.tlbInvalAll region value) := round_trip_event _ rfl
theorem RoundTrip.tlbInvalComplete (region : Nat) : RoundTrip.Statement (.tlbInvalComplete region) := round_trip_event _ rfl
theorem RoundTrip.spliceCopyComplete (region entry : Nat) : RoundTrip.Statement (.spliceCopyComplete region entry) := round_trip_event _ rfl
theorem RoundTrip.spliceFinish (region entry : Nat) : RoundTrip.Statement (.spliceFinish region entry) := round_trip_event _ rfl
theorem RoundTrip.storeTileEvacuation (source spare : Psn) : RoundTrip.Statement (.storeTileEvacuation source spare) := round_trip_event _ rfl
theorem RoundTrip.goneReply (id : Nat) : RoundTrip.Statement (.goneReply id) := round_trip_event _ rfl
theorem RoundTrip.ownerFaultReply (id : Nat) : RoundTrip.Statement (.ownerFaultReply id) := round_trip_event _ rfl
theorem RoundTrip.storeAccess (id : Nat) : RoundTrip.Statement (.storeAccess id) := round_trip_event _ rfl
theorem RoundTrip.segCfgWrite (tile : Psn) (seg : Nat) (value : Word) : RoundTrip.Statement (.segCfgWrite tile seg value) := round_trip_event _ rfl
theorem RoundTrip.segmentReconfigure (tile : Psn) (seg : Nat) : RoundTrip.Statement (.segmentReconfigure tile seg) := round_trip_event _ rfl
theorem RoundTrip.fifoRetry (id : Nat) : RoundTrip.Statement (.fifoRetry id) := round_trip_event _ rfl
theorem RoundTrip.queueSlotArrival (id : Nat) : RoundTrip.Statement (.queueSlotArrival id) := round_trip_event _ rfl
theorem RoundTrip.eosMarkArrival (id : Nat) : RoundTrip.Statement (.eosMarkArrival id) := round_trip_event _ rfl
theorem RoundTrip.creditReturn (id : Nat) : RoundTrip.Statement (.creditReturn id) := round_trip_event _ rfl
theorem RoundTrip.stagingSlotSend (core : Psn) (handle : Nat) : RoundTrip.Statement (.stagingSlotSend core handle) := round_trip_event _ rfl
theorem RoundTrip.copyCommandStart (core : Psn) (chan : Nat) : RoundTrip.Statement (.copyCommandStart core chan) := round_trip_event _ rfl
theorem RoundTrip.copyBlockWrite (core : Psn) (chan : Nat) : RoundTrip.Statement (.copyBlockWrite core chan) := round_trip_event _ rfl
theorem RoundTrip.linkAuditStart (tile : Psn) (port lane : Nat) : RoundTrip.Statement (.linkAuditStart tile port lane) := round_trip_event _ rfl
theorem RoundTrip.linkAuditReply (id : Nat) : RoundTrip.Statement (.linkAuditReply id) := round_trip_event _ rfl
theorem RoundTrip.flitEccDrop (tile : Psn) (port lane : Nat) : RoundTrip.Statement (.flitEccDrop tile port lane) := round_trip_event _ rfl
theorem RoundTrip.drdRequest (id : Nat) : RoundTrip.Statement (.drdRequest id) := round_trip_event _ rfl
theorem RoundTrip.dwrRequest (id : Nat) : RoundTrip.Statement (.dwrRequest id) := round_trip_event _ rfl
theorem RoundTrip.dgathRequest (id : Nat) : RoundTrip.Statement (.dgathRequest id) := round_trip_event _ rfl
theorem RoundTrip.rowopenRequest (id : Nat) : RoundTrip.Statement (.rowopenRequest id) := round_trip_event _ rfl
theorem RoundTrip.rowholdRequest (id : Nat) : RoundTrip.Statement (.rowholdRequest id) := round_trip_event _ rfl
theorem RoundTrip.rowrelRequest (id : Nat) : RoundTrip.Statement (.rowrelRequest id) := round_trip_event _ rfl
theorem RoundTrip.rowrdRequest (id : Nat) : RoundTrip.Statement (.rowrdRequest id) := round_trip_event _ rfl
theorem RoundTrip.rowwrRequest (id : Nat) : RoundTrip.Statement (.rowwrRequest id) := round_trip_event _ rfl
theorem RoundTrip.rowstatRequest (id : Nat) : RoundTrip.Statement (.rowstatRequest id) := round_trip_event _ rfl
theorem RoundTrip.flushRequest (id : Nat) : RoundTrip.Statement (.flushRequest id) := round_trip_event _ rfl
theorem RoundTrip.atomicRequest (id : Nat) : RoundTrip.Statement (.atomicRequest id) := round_trip_event _ rfl
theorem RoundTrip.reservedOpRequest (id : Nat) : RoundTrip.Statement (.reservedOpRequest id) := round_trip_event _ rfl
theorem RoundTrip.loadStoreReply (id : Nat) : RoundTrip.Statement (.loadStoreReply id) := round_trip_event _ rfl
theorem RoundTrip.directWriteArrival (id : Nat) : RoundTrip.Statement (.directWriteArrival id) := round_trip_event _ rfl
theorem RoundTrip.rowLeaseExpiry (stack lchan slot : Nat) : RoundTrip.Statement (.rowLeaseExpiry stack lchan slot) := round_trip_event _ rfl
theorem RoundTrip.bankRefresh (stack lchan bank : Nat) : RoundTrip.Statement (.bankRefresh stack lchan bank) := round_trip_event _ rfl
theorem RoundTrip.channelMove (stack lchan spare : Nat) (retire : Bool) : RoundTrip.Statement (.channelMove stack lchan spare retire) := round_trip_event _ rfl
theorem RoundTrip.entryFire (core : Psn) (entry : Nat) : RoundTrip.Statement (.entryFire core entry) := round_trip_event _ rfl
theorem RoundTrip.activationStart (core : Psn) : RoundTrip.Statement (.activationStart core) := round_trip_event _ rfl
theorem RoundTrip.continuationResume (core tile : Psn) (record : Nat) : RoundTrip.Statement (.continuationResume core tile record) := round_trip_event _ rfl
theorem RoundTrip.runqPromotion (core : Psn) (place : Nat) : RoundTrip.Statement (.runqPromotion core place) := round_trip_event _ rfl
theorem RoundTrip.notificationArrival (id : Nat) : RoundTrip.Statement (.notificationArrival id) := round_trip_event _ rfl
theorem RoundTrip.counterPostArrival (id : Nat) : RoundTrip.Statement (.counterPostArrival id) := round_trip_event _ rfl
theorem RoundTrip.continuationReady (tile : Psn) (record : Nat) : RoundTrip.Statement (.continuationReady tile record) := round_trip_event _ rfl
theorem RoundTrip.faultedContinuationConvert (core : Psn) : RoundTrip.Statement (.faultedContinuationConvert core) := round_trip_event _ rfl
theorem RoundTrip.gangMemberJoin (core : Psn) : RoundTrip.Statement (.gangMemberJoin core) := round_trip_event _ rfl
theorem RoundTrip.gangRelay (core : Psn) : RoundTrip.Statement (.gangRelay core) := round_trip_event _ rfl
theorem RoundTrip.ringTileArrival (id : Nat) : RoundTrip.Statement (.ringTileArrival id) := round_trip_event _ rfl
theorem RoundTrip.ringTileForward (core : Psn) (slot : Nat) : RoundTrip.Statement (.ringTileForward core slot) := round_trip_event _ rfl
theorem RoundTrip.ringFiring (core : Psn) : RoundTrip.Statement (.ringFiring core) := round_trip_event _ rfl
theorem RoundTrip.relightRequestSend (core : Psn) (entry : Nat) : RoundTrip.Statement (.relightRequestSend core entry) := round_trip_event _ rfl
theorem RoundTrip.relightRequestServe (id : Nat) : RoundTrip.Statement (.relightRequestServe id) := round_trip_event _ rfl
theorem RoundTrip.relitCopyArrival (id : Nat) : RoundTrip.Statement (.relitCopyArrival id) := round_trip_event _ rfl
theorem RoundTrip.ringSealPost (id : Nat) : RoundTrip.Statement (.ringSealPost id) := round_trip_event _ rfl
theorem RoundTrip.ringDonePost (id : Nat) : RoundTrip.Statement (.ringDonePost id) := round_trip_event _ rfl
theorem RoundTrip.ringCompletion (id : Nat) : RoundTrip.Statement (.ringCompletion id) := round_trip_event _ rfl
theorem RoundTrip.ringCancel (region ring reason : Nat) : RoundTrip.Statement (.ringCancel region ring reason) := round_trip_event _ rfl
theorem RoundTrip.ringLeaseTimeout (region ring : Nat) : RoundTrip.Statement (.ringLeaseTimeout region ring) := round_trip_event _ rfl
theorem RoundTrip.ringRerun (region ring : Nat) : RoundTrip.Statement (.ringRerun region ring) := round_trip_event _ rfl
theorem RoundTrip.ringIdleRelease (core : Psn) (widdershins : Bool) : RoundTrip.Statement (.ringIdleRelease core widdershins) := round_trip_event _ rfl
theorem RoundTrip.streamElementFetch (core : Psn) (slot : Nat) : RoundTrip.Statement (.streamElementFetch core slot) := round_trip_event _ rfl
theorem RoundTrip.streamPushWrite (core : Psn) (slot : Nat) : RoundTrip.Statement (.streamPushWrite core slot) := round_trip_event _ rfl
theorem RoundTrip.scoreboardEntryStart (core : Psn) (slot : Nat) : RoundTrip.Statement (.scoreboardEntryStart core slot) := round_trip_event _ rfl
theorem RoundTrip.credResult (id : Nat) : RoundTrip.Statement (.credResult id) := round_trip_event _ rfl
theorem RoundTrip.credContribution (id : Nat) : RoundTrip.Statement (.credContribution id) := round_trip_event _ rfl
theorem RoundTrip.queryRequest (id : Nat) : RoundTrip.Statement (.queryRequest id) := round_trip_event _ rfl
theorem RoundTrip.queryAnswer (id : Nat) : RoundTrip.Statement (.queryAnswer id) := round_trip_event _ rfl
theorem RoundTrip.graphArming (graph : Nat) : RoundTrip.Statement (.graphArming graph) := round_trip_event _ rfl
theorem RoundTrip.graphEnd (graph : Nat) : RoundTrip.Statement (.graphEnd graph) := round_trip_event _ rfl
theorem RoundTrip.successorResident (graph : Nat) : RoundTrip.Statement (.successorResident graph) := round_trip_event _ rfl
theorem RoundTrip.successorCoreArming (graph : Nat) (core : Psn) : RoundTrip.Statement (.successorCoreArming graph core) := round_trip_event _ rfl
theorem RoundTrip.visibilityPost (graph predecessor : Nat) : RoundTrip.Statement (.visibilityPost graph predecessor) := round_trip_event _ rfl
theorem RoundTrip.governorSample (region : Nat) : RoundTrip.Statement (.governorSample region) := round_trip_event _ rfl
theorem RoundTrip.stageCoreRelease (tile : Psn) (stage : Nat) : RoundTrip.Statement (.stageCoreRelease tile stage) := round_trip_event _ rfl
theorem RoundTrip.stageItemDelivery (tile : Psn) (stage : Nat) : RoundTrip.Statement (.stageItemDelivery tile stage) := round_trip_event _ rfl
theorem RoundTrip.moveReq (region : Nat) (value : Word) : RoundTrip.Statement (.moveReq region value) := round_trip_event _ rfl
theorem RoundTrip.moveCopy (region : Nat) : RoundTrip.Statement (.moveCopy region) := round_trip_event _ rfl
theorem RoundTrip.markerRequest (id : Nat) : RoundTrip.Statement (.markerRequest id) := round_trip_event _ rfl
theorem RoundTrip.forwardEndMarker (id : Nat) : RoundTrip.Statement (.forwardEndMarker id) := round_trip_event _ rfl
theorem RoundTrip.faultMessageArrival (id : Nat) : RoundTrip.Statement (.faultMessageArrival id) := round_trip_event _ rfl
theorem RoundTrip.snuffnoteArrival (id : Nat) : RoundTrip.Statement (.snuffnoteArrival id) := round_trip_event _ rfl
theorem RoundTrip.graphPreempt (region : Nat) (value : Word) : RoundTrip.Statement (.graphPreempt region value) := round_trip_event _ rfl
theorem RoundTrip.graphPreemptHalt (graph : Nat) : RoundTrip.Statement (.graphPreemptHalt graph) := round_trip_event _ rfl
theorem RoundTrip.graphPreemptQuiesce (graph : Nat) (core : Psn) : RoundTrip.Statement (.graphPreemptQuiesce graph core) := round_trip_event _ rfl
theorem RoundTrip.contextSave (graph : Nat) : RoundTrip.Statement (.contextSave graph) := round_trip_event _ rfl
theorem RoundTrip.graphResume (region : Nat) (value : Word) : RoundTrip.Statement (.graphResume region value) := round_trip_event _ rfl
theorem RoundTrip.graphKill (region : Nat) (value : Word) : RoundTrip.Statement (.graphKill region value) := round_trip_event _ rfl
theorem RoundTrip.wickExpiry (core : Psn) : RoundTrip.Statement (.wickExpiry core) := round_trip_event _ rfl
theorem RoundTrip.coreSnuffClear (core : Psn) : RoundTrip.Statement (.coreSnuffClear core) := round_trip_event _ rfl
theorem RoundTrip.hangFreeze (region : Nat) : RoundTrip.Statement (.hangFreeze region) := round_trip_event _ rfl
theorem RoundTrip.leaseReq (region : Nat) (value : Word) : RoundTrip.Statement (.leaseReq region value) := round_trip_event _ rfl
theorem RoundTrip.scoreCtlMismatch (region : Nat) : RoundTrip.Statement (.scoreCtlMismatch region) := round_trip_event _ rfl
theorem RoundTrip.scoreCtlRetire (region : Nat) : RoundTrip.Statement (.scoreCtlRetire region) := round_trip_event _ rfl
theorem RoundTrip.scoreHalving : RoundTrip.Statement .scoreHalving := round_trip_event _ rfl
theorem RoundTrip.sweepProposal (region : Nat) : RoundTrip.Statement (.sweepProposal region) := round_trip_event _ rfl
theorem RoundTrip.leaseAckTimeout (region entry : Nat) : RoundTrip.Statement (.leaseAckTimeout region entry) := round_trip_event _ rfl
theorem RoundTrip.leaseDeferExpiry (region entry : Nat) : RoundTrip.Statement (.leaseDeferExpiry region entry) := round_trip_event _ rfl
theorem RoundTrip.leaseStart (region entry : Nat) : RoundTrip.Statement (.leaseStart region entry) := round_trip_event _ rfl
theorem RoundTrip.leaseEvacuationDone (region entry : Nat) : RoundTrip.Statement (.leaseEvacuationDone region entry) := round_trip_event _ rfl
theorem RoundTrip.leaseTestingEnd (region entry : Nat) : RoundTrip.Statement (.leaseTestingEnd region entry) := round_trip_event _ rfl
theorem RoundTrip.leaseRestoreDone (region entry : Nat) : RoundTrip.Statement (.leaseRestoreDone region entry) := round_trip_event _ rfl
theorem RoundTrip.retirementCountersigned (region entry : Nat) : RoundTrip.Statement (.retirementCountersigned region entry) := round_trip_event _ rfl
theorem RoundTrip.rqDoorbell (host : Nat) (value : BitVec 16) : RoundTrip.Statement (.rqDoorbell host value) := round_trip_event _ rfl
theorem RoundTrip.read (host : Nat) : RoundTrip.Statement (.read host) := round_trip_event _ rfl
theorem RoundTrip.write (host : Nat) : RoundTrip.Statement (.write host) := round_trip_event _ rfl
theorem RoundTrip.barrier (host : Nat) : RoundTrip.Statement (.barrier host) := round_trip_event _ rfl
theorem RoundTrip.barrierForward (id : Nat) : RoundTrip.Statement (.barrierForward id) := round_trip_event _ rfl
theorem RoundTrip.launch (host : Nat) : RoundTrip.Statement (.launch host) := round_trip_event _ rfl
theorem RoundTrip.graph (host : Nat) : RoundTrip.Statement (.graph host) := round_trip_event _ rfl
theorem RoundTrip.attest (host : Nat) : RoundTrip.Statement (.attest host) := round_trip_event _ rfl
theorem RoundTrip.keyload (host : Nat) : RoundTrip.Statement (.keyload host) := round_trip_event _ rfl
theorem RoundTrip.keyclr (host : Nat) : RoundTrip.Statement (.keyclr host) := round_trip_event _ rfl
theorem RoundTrip.cancel (host : Nat) : RoundTrip.Statement (.cancel host) := round_trip_event _ rfl
theorem RoundTrip.remoteTransferComplete (place : Inbound) (data : List Byte) (tile : Psn) (counter : Nat) : RoundTrip.Statement (.remoteTransferComplete place data tile counter) := round_trip_event _ rfl
theorem RoundTrip.powerWindow (watts : Nat) (hot : List (Nat × Nat × Int)) : RoundTrip.Statement (.powerWindow watts hot) := round_trip_event _ rfl
theorem RoundTrip.pwrQuiesce (region cluster : Nat) : RoundTrip.Statement (.pwrQuiesce region cluster) := round_trip_event _ rfl
theorem RoundTrip.clusterQuiesced (region cluster : Nat) : RoundTrip.Statement (.clusterQuiesced region cluster) := round_trip_event _ rfl
theorem RoundTrip.retSave (region cluster : Nat) : RoundTrip.Statement (.retSave region cluster) := round_trip_event _ rfl
theorem RoundTrip.retentionSaveDone (region cluster : Nat) : RoundTrip.Statement (.retentionSaveDone region cluster) := round_trip_event _ rfl
theorem RoundTrip.pwrWake (region cluster : Nat) : RoundTrip.Statement (.pwrWake region cluster) := round_trip_event _ rfl
theorem RoundTrip.clusterWakeArrival (id : Nat) : RoundTrip.Statement (.clusterWakeArrival id) := round_trip_event _ rfl
theorem RoundTrip.clusterWakeDone (region cluster : Nat) : RoundTrip.Statement (.clusterWakeDone region cluster) := round_trip_event _ rfl
theorem RoundTrip.railGoodTimeout (region cluster : Nat) : RoundTrip.Statement (.railGoodTimeout region cluster) := round_trip_event _ rfl
theorem RoundTrip.coldBoot : RoundTrip.Statement .coldBoot := round_trip_event _ rfl
theorem RoundTrip.park : RoundTrip.Statement .park := round_trip_event _ rfl
theorem RoundTrip.unpark : RoundTrip.Statement .unpark := round_trip_event _ rfl
theorem RoundTrip.wearHourlyUpdate (celsius : List (Nat × Int)) : RoundTrip.Statement (.wearHourlyUpdate celsius) := round_trip_event _ rfl
theorem RoundTrip.creditCounterParityError (tile : Psn) (port lane : Nat) : RoundTrip.Statement (.creditCounterParityError tile port lane) := round_trip_event _ rfl
theorem RoundTrip.matrixCompletion (core : Psn) : RoundTrip.Statement (.matrixCompletion core) := round_trip_event _ rfl
theorem RoundTrip.ringOpReply (id : Nat) : RoundTrip.Statement (.ringOpReply id) := round_trip_event _ rfl
theorem RoundTrip.cqCtlHeadWrite (host : Nat) (value : BitVec 16) : RoundTrip.Statement (.cqCtlHeadWrite host value) := round_trip_event _ rfl
theorem RoundTrip.retirementNoticeExpiry (region : Nat) (unit : BitVec 32) : RoundTrip.Statement (.retirementNoticeExpiry region unit) := round_trip_event _ rfl
theorem RoundTrip.transferEngineStart (port : Nat) (pa : BitVec 48) (length peer : Nat) (remote : BitVec 48) : RoundTrip.Statement (.transferEngineStart port pa length peer remote) := round_trip_event _ rfl
theorem RoundTrip.testPatternResult (region entry : Nat) (mismatch : Bool) (syndrome : Word) : RoundTrip.Statement (.testPatternResult region entry mismatch syndrome) := round_trip_event _ rfl

end Sys2Proof.Laws
end

