-- ==== Sys2Proof/Laws/Places.lean ====
section
/-! SUPPORT. Reads after writes of the machine's units: cores, tiles, routers, regions and actors, each in its list; and what a write of one kind
leaves alone. -/
namespace Sys2Proof.Machine
open Sys2Proof

theorem find_upsert_same {α : Type} (l : List α) (p : α → Bool) (v : α) (hv : p v = true) : (upsert l p v).find? p = some v := by
  unfold upsert
  split
  · next h =>
    induction l with
    | nil => simp at h
    | cons x l ih =>
      by_cases hx : p x = true
      · simp [hx, hv]
      · simp only [Bool.not_eq_true] at hx
        simp only [List.any_cons, hx, Bool.false_or] at h
        simp [hx, ih h]
  · next h =>
    have hn : l.find? p = none := by simpa using h
    simp [List.find?_append, hn, hv]

theorem find_upsert_other {α : Type} (l : List α) (p q : α → Bool) (v : α) (hv : q v = false) (hpq : ∀ x, p x = true → q x = false) :
    (upsert l p v).find? q = l.find? q := by
  have hm : ∀ l : List α, (l.map (fun x => if p x then v else x)).find? q = l.find? q := by
    intro l
    induction l with
    | nil => rfl
    | cons x l ih =>
      by_cases hx : p x
      · simp [hx, hv, hpq x hx, ih]
      · simp [hx, ih, List.find?_cons]
  unfold upsert
  split
  · exact hm l
  · simp [hv]

@[simp] theorem getCore_psn (s : State) (p : Psn) : (s.getCore p).psn = p := by
  unfold State.getCore
  split
  · assumption
  · cases h : s.cores.find? (·.psn == p) with
    | none => rfl
    | some c => simpa using List.find?_some h

theorem getCore_putCore (s : State) (c : Core) : (s.putCore c).getCore c.psn = c := by
  unfold State.putCore State.getCore
  split
  · simp
  · dsimp only
    rw [find_upsert_same _ _ _ (by simp)]; rfl

theorem getCore_putCore_other (s : State) (c : Core) (p : Psn) (h : p ≠ c.psn) : (s.putCore c).getCore p = s.getCore p := by
  unfold State.putCore State.getCore
  split
  · next he => rw [if_neg (fun x => h x.symm), if_neg (fun x => h (x.symm.trans he))]
  · dsimp only
    rw [find_upsert_other _ _ _ _ (by simp; exact fun x => h x.symm) (by intro x hx; simp at hx; simp [hx]; exact fun x => h x.symm)]

@[simp] theorem getRouter_putRouter (s : State) (p : Psn) (r : Router) : (s.putRouter p r).getRouter p = r := by
  unfold State.putRouter State.getRouter
  dsimp only
  rw [find_upsert_same _ _ _ (by simp)]; rfl
theorem getTile_putTile (s : State) (t : Tile) : (s.putTile t).getTile t.psn = t := by
  unfold State.putTile State.getTile
  dsimp only
  rw [find_upsert_same _ _ _ (by simp)]; rfl
theorem getRegion_putRegion (s : State) (r : Region) : (s.putRegion r).getRegion r.number = r := by
  unfold State.putRegion State.getRegion
  dsimp only
  rw [find_upsert_same _ _ _ (by simp)]; rfl
theorem getActor_putActor (s : State) (a : Actor) : (s.putActor a).getActor a.stack = a := by
  unfold State.putActor State.getActor
  rw [find_upsert_same _ _ _ (by simp)]; rfl

/-- A search for a key finds an element with that key. -/
theorem find_key {α : Type} (l : List α) (k : α → Nat) (n : Nat) (d : α) (hd : k d = n) : k ((l.find? (fun x => k x == n)).getD d) = n := by
  cases h : l.find? (fun x => k x == n) with
  | none => exact hd
  | some x => exact eq_of_beq (List.find?_some (p := fun x => k x == n) h)
@[simp] theorem getTile_psn (s : State) (p : Psn) : (s.getTile p).psn = p := find_key s.tiles (·.psn) p _ rfl
@[simp] theorem getRegion_number (s : State) (r : Nat) : (s.getRegion r).number = r := find_key s.regions (·.number) r _ rfl
@[simp] theorem getActor_stack (s : State) (n : Nat) : (s.getActor n).stack = n := find_key s.actors (·.stack) n _ rfl
theorem getTile_modTile (s : State) (p : Psn) (f : Tile → Tile) (h : (f (s.getTile p)).psn = p) : (s.modTile p f).getTile p = f (s.getTile p) := by
  unfold State.modTile; have := getTile_putTile s (f (s.getTile p)); rwa [h] at this
theorem getRegion_modRegion (s : State) (r : Nat) (f : Region → Region) (h : (f (s.getRegion r)).number = r) :
    (s.modRegion r f).getRegion r = f (s.getRegion r) := by
  unfold State.modRegion; have := getRegion_putRegion s (f (s.getRegion r)); rwa [h] at this
theorem getActor_modActor (s : State) (n : Nat) (f : Actor → Actor) (h : (f (s.getActor n)).stack = n) :
    (s.modActor n f).getActor n = f (s.getActor n) := by
  unfold State.modActor; have := getActor_putActor s (f (s.getActor n)); rwa [h] at this
theorem getCore_modCore (s : State) (p : Psn) (f : Core → Core) (h : (f (s.getCore p)).psn = p) : (s.modCore p f).getCore p = f (s.getCore p) := by
  unfold State.modCore; have := getCore_putCore s (f (s.getCore p)); rwa [h] at this

@[simp] theorem putCore_mem (s : State) (c : Core) : (s.putCore c).mem = s.mem := by unfold State.putCore; split <;> rfl
@[simp] theorem putCore_flight (s : State) (c : Core) : (s.putCore c).flight = s.flight := by unfold State.putCore; split <;> rfl
@[simp] theorem putCore_tsc (s : State) (c : Core) : (s.putCore c).tsc = s.tsc := by unfold State.putCore; split <;> rfl
@[simp] theorem putCore_nextSerial (s : State) (c : Core) : (s.putCore c).nextSerial = s.nextSerial := by unfold State.putCore; split <;> rfl
@[simp] theorem putCore_bytes (s : State) (c : Core) (key n : Nat) : (s.putCore c).bytes key n = s.bytes key n := by simp [State.bytes]
@[simp] theorem putRouter_tsc (s : State) (p : Psn) (r : Router) : (s.putRouter p r).tsc = s.tsc := rfl
@[simp] theorem putRouter_mem (s : State) (p : Psn) (r : Router) : (s.putRouter p r).mem = s.mem := rfl

/-! Lanes (R101, R102). -/

/-- A lane reads back as it was written, and no other lane of the router changes. -/
theorem lane_setLane (r : Router) (l : Lane) : (r.setLane l).lane l.port l.lane = l := by
  unfold Router.lane Router.setLane
  rw [find_upsert_same _ _ _ (by simp)]; rfl
theorem lane_setLane_ne (r : Router) (l : Lane) (port lane : Nat) (h : (port, lane) ≠ (l.port, l.lane)) :
    (r.setLane l).lane port lane = r.lane port lane := by
  unfold Router.lane Router.setLane
  rw [find_upsert_other _ _ _ _ (by simp; intro a b; exact h (by rw [a, b])) (by
    intro x hx
    simp only [Bool.and_eq_true, beq_iff_eq] at hx
    simp only [Bool.and_eq_false_imp, beq_iff_eq, beq_eq_false_iff_ne, ne_eq]
    intro a b
    exact h (by rw [← hx.1, ← hx.2, a, b]))]
@[simp] theorem carry_landed (l : Lane) (now n : Nat) : (l.carry now n).landed = l.landed := by
  unfold Lane.landed Lane.carry
  rw [Bool.eq_iff_iff]
  simp only [beq_iff_eq, BitVec.add_left_inj]
@[simp] theorem release_landed (l : Lane) (n : Nat) : (l.release n).landed = l.landed := rfl
/-- After a resynchronisation every flit has landed and the credits spent are the receiver's occupancy. -/
theorem resynced_landed (l : Lane) : l.resynced.landed = true := by simp [Lane.landed, Lane.resynced]
theorem resynced_spent (l : Lane) : l.resynced.spent = l.resynced.occupancy := rfl

end Sys2Proof.Machine
end

