-- ==== Sys2Proof/Tests/Witness.lean ====
section
/-! SUPPORT. For every statement with hypotheses, states and operands that meet them together: one theorem per part of Obligations.lean, one
conjunct per clause. -/
namespace Sys2Proof.Tests
set_option maxRecDepth 200000
open Sys2Proof Sys2Proof.Machine Sys2Proof.Claims
-- The kernel evaluates these theorems one after another.
set_option Elab.async false
def lx : Long := { wide := false, b := 0, a := 0, d := 0, hi := 0, after := 0, emit := 0, ginv := false, guard := 0, sub := 0, c := 0, lit := 0 }
def ax : ShortA := { sub := 0, b := 0, a := 0, d := 0 }
def bx : ShortB := { imm := 0, a := 0, d := 0 }
def idle : State := State.reset.withActivation
def page : Tlb := { ctx := 0, vpage := 0, size := 16, leaf := BitVec.ofNat 64 (2 ^ 17 + 2 ^ 16 + 2 ^ 13 + 2 ^ 12 + 2 ^ 9), splice := false }
def run : State :=
  ((idle.mapCore (fun c => { (c.setQueue 20 (setFld (c.queue 20) 47 39 2)) with queueOk := BitVec.allOnes 32, arrivals := [(0, 32, 0)], dtlb := [page] })).setC 1
    (Cap.make 1 0x1B 0 0x80000 0)).setC 2 (Cap.make 3 0x1B 0 0x10000 0)
def fw : State := run.mapCore (fun c => { c with psn := lanternPsn 0 1 })
def answered : State := run.mapAct (fun a => { a with resumed := some [] })
def member : Gang := { leader := 13, position := 1, attached := true, members := [], faults := 0, rejoin := none, relayed := [], received := none }
def quad : State :=
  { run.mapCore (fun c => { c with psn := 13, act := c.act.map (fun a => { a with joining := [(1, 12)] }) }) with
    cores := [{ Core.reset 12 with act := run.core.act.map (fun a => { a with gang := some member }) }] }
def bindable : State := run.setStream 0 (some (configured 0 0 0 0))
def streaming : State :=
  run.setStream 0 (run.core.act.map (fun a => { boundStream (configured 0 0 0 0) a codeCap [] 5 none with fetched := [(7, true)] }))
def f64mat : State := (run.poke (localKey 0 0) (leBytes 8 (11 * 2 ^ 57))).setAcc 0 (Acc.zeroOf true)
def stepping : MatOp :=
  { id := 0, instr := lx, op := 0x203, da := 0, db := 0, ca := Cap.null, cb := Cap.null, entry := 0, serial := run.nextSerial - 1, pc := 0, leader := none,
    stage := .stepping, deps := [], writes := [], pushed := none, rows := List.replicate 32 [Fp.fin false 0 0] }
def member0 : Ring := { number := 0, ctx := 0, members := [0], logical := [0], leavers := [], formed := true, leaseAt := none }
def ringed : State := (run.mapCore (fun c => { c with ringMember := BitVec.ofNat 64 (2 ^ 63) })).putRing (psnRegion run.core.psn) member0
def outgoing : State :=
  run.setStream 0 (run.core.act.map (fun a => boundStream (configured 0 (2 ^ 63) (255 * 65536) 0) a codeCap [] 5 none))
def armed : State := ringed.mapCore (fun c => c.setEntry 0 (BitVec.ofNat 128 (2 ^ 61)))
def msg0 : Msg :=
  { dest := 0, eos := false, handle := 0, seq := 0, name := 1, payload := [], src := 0, region := 0, tile := 0, port := 0, flood := none,
    stage := .accepted, reason := 0, reply := false, forwarded := false, acks := 0, deps := [] }
def acc0 : Access :=
  { core := 0, serial := run.nextSerial - 1, kind := .load, owner := .tile (tilePsn 0 13) 0, space := 1, addr := 0, phys := 0, size := 64, data := [],
    tagv := false, aop := 0, operand2 := [], deps := [], pkind := 0, key := 0, ctx := 0, landing := .none, stage := .sent, reply := [], tags := false,
    name := 0, spliced := false, op := 0, rmode := 3, rhandle := 0, ctr := 0, dest := 0, handle := 0, gather := [(0, 0)], status := 0, result := 0,
    fault := none, engine := false, unit := 0 }
def miss0 : Miss := { core := 0, serial := run.nextSerial - 1, ctx := 0, va := 0, access := 0, write := false, answers := false, tagged := false, unit := 0 }
def having (b : Body) : State := { run with flight := [{ id := 1, body := b }] }
def told (m : Msg) : State := having (.message m)
def asked (a : Access) : State := having (.access a)
def tomb0 : Tomb := { core := 0, name := 5, target := 1, until_ := 9, next := [], marked := [] }
def chan0 (n : BitVec 24) : Chan := { handle := 0, name := n, expect := 0, filled := 0, eos := false }
def queueing (h : Nat) (q : Queue) (s : State) : State := s.mapCore (fun c => { c.setQueue h q with chans := [chan0 2, chan0 1] })
def invalidating : State := run.modRegion 0 (fun r => { r with invalStat := 1#64 })
def mapped : State :=
  (((run.modRegion 0 (fun r => { r with walks := [{ ctx := 0, vpage := 0, waiters := [miss0], walker := some 0 }], graphRoot := put r.graphRoot 0 (BitVec.ofNat 64 1) })).poke 0
    (leBytes 8 (2 ^ 32 + 1))).poke 0x10000 (leBytes 8 (2 * 2 ^ 32 + 1))).poke 0x20000 (leBytes 8 (page.leaf.toNat + 3))
def storing : Access := { acc0 with kind := .store, data := List.replicate 64 1 }
def segment (mode : Nat) (a : Access) : State :=
  (asked a).modTile (tilePsn 0 13) (fun t => { t with segCfg := put t.segCfg 0 (BitVec.ofNat 64 (mode * 2 ^ 62 + 3 * 2 ^ 37)) })
def waiter (n : Nat) : Item := { id := n, body := .access { acc0 with stage := .fifoHeld } }
def dram0 (op : Nat) : Access := { acc0 with owner := .dram 0, op }
def splicing (k : Nat) : State := mapped.modRegion 0 (fun r => { r with splices := put r.splices 0 (BitVec.ofNat 128 (2 ^ 127 + k * 2 ^ 125)) })
def withActor (a : Actor) (s : State) : State := { s with actors := [a] }
def line0 : BitVec 128 := makeSlot 0 0 0 0 1000
def lined (keep : Bool) (op : Nat) : State :=
  withActor { Actor.reset 0 with slots := [(0, 0, if keep then setBit line0 62 true else line0)] } (asked (dram0 op))
def quota1 : Vector (BitVec 12) 32 := put (Actor.reset 0).quota 0 64
def copy0 : Copy :=
  { id := 1, src := .run 0 0, dst := .run 0 4096, length := 128, unit := 64, handle := none, fill := false, pages := [], deps := [], done := 0,
    started := false, stopped := false, serial := run.nextSerial - 1, ctx := 0 }
def copying (k : Copy) : State := (having (.command 0 (run.nextSerial - 1))).mapCore (fun c => { c with copies := put c.copies 0 { queue := [k] } })
def inStream (w1 : Nat) : State := run.setStream 0 (run.core.act.map (fun a => boundStream (configured 0 0 w1 0) a codeCap [] 5 none))
def push0 : Push := { start := 0, count := 1, data := 0, missing := 0, bits := BitVec.allOnes 64, written := 0, bitsDone := true }
def pushing : State :=
  run.setStream 0 (run.core.act.map (fun a => { boundStream (configured 0 (2 ^ 63) 0 0) a codeCap [] 5 none with pushed := [push0] }))
def matOp0 : MatOp := { stepping with instr := lx, op := 0x200, id := 1, stage := .queued, rows := [] }
def multiplying (m : MatOp) : State := (having (.command 0 (run.nextSerial - 1))).mapCore (fun c => { c with matMode := true, matOps := [m] })
def ready0 : Handler := BitVec.ofNat 128 (2 ^ 127 + 2 ^ 125 + 7 * 2 ^ 111)
def freed : State := run.mapCore (fun c => { c with act := none, handlers := put c.handlers 0 ready0 })
def entry0 : RunEntry := { level := 0, ready := 0, entry := 0, cont := none, start := none, promoted := 0 }
def record0 : Record :=
  { index := 0, ready := true, pinned := false, entry := 0, actor := 0, ctx := 0, pc := 0, wid := 0, mask := 0, src := 0, claims := 0, window := 8,
    pairs := [], saved := [], full := none, offered := [] }
def recording (s : State) : State := s.modTile (tilePsn 0 13) (·.putRecord record0)
def queued (r : RunEntry) : State := freed.mapCore (fun c => { c with runq := [r] })
def joining : State :=
  { freed with cores := [{ Core.reset 12 with act := run.core.act.map (fun a => { a with joining := [(1, 0)] }) }] }
def tile0 : RingTile := { header := 0, payload := List.replicate 2048 0, region := 0, ring := 0, member := 0 }
def passing (h : Nat) : State := ringed.mapCore (fun c => { c with ringSlot := put c.ringSlot 0 1, ringHdr := put c.ringHdr 0 (BitVec.ofNat 64 h) })
def graph0 : Graph :=
  { id := 7, ctx := 0, regions := 1, header := 0, image := [], stat := 1, armed := false, preds := [], predEnded := [], posted := [], hinted := false,
    actors := [(0, 0, 0)], unarmed := [], haltAt := none, halted := [], pendingReplies := [], heldNotes := [], saved := [], savedTiles := [] }
def graphed (g : Graph) : State := { run with graphs := [g] }
def ringOf1 (f : Core → Core) : State := ringed.mapCore f
def stateOp (n : Nat) (c : Core) : Core := { c with ringOp := BitVec.ofNat 64 (n * 2 ^ 55) }
def inRing (b : Body) : State := { ringed with flight := [{ id := 1, body := b }] }
def tree0 : Tree := { number := 0, ctx := 0, leaves := [0], rounds := [] }
def stage0 : StageDesc := BitVec.ofNat 512 (2 ^ 63 + 1 * 2 ^ 49 + 1 * 2 ^ 44 + 2 ^ 12 + 2 ^ 96)
def staging : State :=
  (freed.mapCore (fun c => { c with handlers := put c.handlers 0 (BitVec.ofNat 128 (2 ^ 127 + 2 ^ 125 + 7 * 2 ^ 111 + 0x1F * 2 ^ 103)) })).modTile (tilePsn 0 13)
    (fun t => { t with stages := put t.stages 0 stage0, stageBusy := [(0, 0)], tail := put t.tail 0 1,
                       segCfg := put (put t.segCfg 0 (BitVec.ofNat 64 (2 * 2 ^ 62))) 7 (BitVec.ofNat 64 (2 ^ 61)) })
def lease0 (u : UnitWord) (st : Nat) : Lease :=
  { index := 0, w0 := BitVec.ofNat 64 (2 ^ 63 + st * 2 ^ 60 + u.toNat), w1 := 0, w2 := BitVec.ofNat 64 (2 ^ 48), since := 0, passed := true, failing := 0,
    syndrome := 0, started := true }
def leasing (l : Lease) (now : Nat) : State := { run.modRegion 0 (fun r => { r with leases := [l] }) with tsc := BitVec.ofNat 64 now }
def tileU : UnitWord := tileUnit (tilePsn 0 13)
def linkU : UnitWord := meshUnit 0 1
def spareTile (s : State) : State := s.modRegion 0 (fun r => { r with lmapStore := put (Vector.replicate 224 0x7FFF) 0 0x800D })
def posted (op arg : Nat) : State :=
  { (run.putHost 0 { HostCore.reset with rqCtl := BitVec.ofNat 64 (2 ^ 48 + 4), compWin := 1 }).poke (companionKey 0) (leBytes 64 (op * 2 ^ 56 + arg * 2 ^ 192)) with
    module := { run.module with booted := true } }
def taken (op n : Nat) : State := run.putHost 0 { HostCore.reset with request := some (BitVec.ofNat 512 (op * 2 ^ 56)), acks := List.replicate n 1 }
def clustered (c : Cluster) : State := run.modRegion 0 (fun r => { r with clusters := [(0, c)] })
def gatedCluster : Cluster := { Cluster.reset with ctl := BitVec.ofNat 64 (2 ^ 61), wake := none }
def lease1 : Lease :=
  { index := 0, w0 := BitVec.ofNat 64 (2 ^ 63 + 2 * 2 ^ 60 + 16384 * 2 ^ 32 + linkU.toNat), w1 := 1000000, w2 := BitVec.ofNat 64 (2 ^ 48 + 2 ^ 32), since := 0,
    passed := false, failing := 0xFFFF, syndrome := 0, started := false }
def blank : State :=
  { run with regions := [{ Region.reset 0 with lmapCore := Vector.replicate 256 0, lmapStore := Vector.replicate 224 0, exbMap := Vector.replicate 44 0 }] }
theorem at_zeros (w n i : Nat) : at_ (Vector.replicate n (0 : BitVec w)) i 0 = 0 := by
  simp only [at_, Vector.getElem?_replicate]; split <;> rfl
theorem blank_core (n : Nat) : (blank.getRegion 0).coreAt n = none := by
  show (let e := at_ (Vector.replicate 256 (0 : BitVec 16)) n 0; if e.getLsbD 15 then some (corePsn 0 (fld e 8 0)) else none) = none
  simp only [at_zeros]; rfl
theorem blank_store (n : Nat) : (blank.getRegion 0).storeAt n = none := by
  show (let e := at_ (Vector.replicate 224 (0 : BitVec 16)) n 0; if n < 224 ∧ e.getLsbD 15 then some (tilePsn 0 (fld e 8 0)) else none) = none
  simp only [at_zeros]; exact if_neg (fun h => absurd h.2 (by decide))
theorem blank_bank (n : Nat) : (blank.getRegion 0).bankAt n = none := by
  show (let e := at_ (Vector.replicate 44 (0 : BitVec 8)) n 0; if e.getLsbD 7 then some (tilePsn 0 (walkTile (fld e 5 0))) else none) = none
  simp only [at_zeros]; rfl
theorem blank_unused : blank.clusterUsed 0 0 = false := by
  have hc : ∀ p ∈ clusterCores 0 0, psnRegion p = 0 ∧ (blank.getCore p).isMember = false := by decide +kernel
  have ht : ∀ p ∈ clusterTiles 0 0, psnRegion p = 0 := by decide +kernel
  simp only [State.clusterUsed, Bool.or_eq_false_iff, List.any_eq_false]
  refine ⟨fun p hp => ?_, fun p hp => ?_⟩
  · simp [(hc p hp).2, State.logicalOf, (hc p hp).1, blank_core]
  · simp [State.storeOf, State.exchangeOf, ht p hp, blank_store, blank_bank]
theorem no_record (q : Word) (h : q ∈ ringed.core.inject.toList) : recLive q = false := by
  have k : q ∈ List.replicate 16 (0 : Word) := h
  rw [List.eq_of_mem_replicate k]; rfl
/-- A state in which one word cannot be corrected. -/
def spoiling (word : Nat) (s : State) : State := { s with upsets := [(word, true)] }

theorem met_LongScalarResults :
  (∃ e ∈ long1, ∃ x, ∃ s, ∃ a, ∃ d, issues (e.1 x) s = true ∧ x.srcA (past (e.1 x) s) = .ok a ∧ x.dst (past (e.1 x) s) = .ok d) ∧
  (∃ e ∈ long2, ∃ x, ∃ s, ∃ a, ∃ b, ∃ d, issues (e.1 x) s = true ∧ x.srcA (past (e.1 x) s) = .ok a ∧ x.srcB (past (e.1 x) s) = .ok b ∧ x.dst (past (e.1 x) s) = .ok d) ∧
  (∃ e ∈ long3, ∃ x, ∃ s, ∃ a, ∃ b, ∃ c, ∃ d, issues (e.1 x) s = true ∧ x.srcA (past (e.1 x) s) = .ok a ∧ x.srcB (past (e.1 x) s) = .ok b ∧ x.srcC (past (e.1 x) s) = .ok c ∧ x.dst (past (e.1 x) s) = .ok d) ∧
  (∃ e ∈ count1, ∃ x, ∃ s, ∃ a, ∃ d, issues (e.1 x) s = true ∧ x.srcA (past (e.1 x) s) = .ok a ∧ x.dst (past (e.1 x) s) = .ok d) ∧
  (∃ e ∈ count2, ∃ x, ∃ s, ∃ a, ∃ b, ∃ d, issues (e.1 x) s = true ∧ x.srcA (past (e.1 x) s) = .ok a ∧ x.srcB (past (e.1 x) s) = .ok b ∧ x.dst (past (e.1 x) s) = .ok d) :=
  ⟨⟨_, List.mem_cons_self, lx, run, _, _, rfl, rfl, rfl⟩,
   ⟨_, List.mem_cons_self, lx, run, _, _, _, rfl, rfl, rfl, rfl⟩,
   ⟨_, List.mem_cons_self, lx, run, _, _, _, _, rfl, rfl, rfl, rfl, rfl⟩,
   ⟨_, List.mem_cons_self, lx, run, _, _, rfl, rfl, rfl⟩,
   ⟨_, List.mem_cons_self, lx, run, _, _, _, rfl, rfl, rfl, rfl⟩⟩

theorem met_ShortScalarResults :
  (∃ e ∈ short1, ∃ x, ∃ s, issues (e.1 x) s) ∧
  (∃ e ∈ short2, ∃ x, ∃ s, issues (e.1 x) s) ∧
  (∃ e ∈ shortCount1, ∃ x, ∃ s, issues (e.1 x) s) ∧
  (∃ e ∈ shortCount2, ∃ x, ∃ s, issues (e.1 x) s) ∧
  (∃ e ∈ immediate2, ∃ x, ∃ s, issues (e.1 x) s) :=
  ⟨⟨_, List.mem_cons_self, ax, run, rfl⟩,
   ⟨_, List.mem_cons_self, ax, run, rfl⟩,
   ⟨_, List.mem_cons_self, ax, run, rfl⟩,
   ⟨_, List.mem_cons_self, ax, run, rfl⟩,
   ⟨_, List.mem_cons_self, bx, run, rfl⟩⟩

theorem met_ComparisonResults :
  (∃ c ∈ [Instr.cmp, Instr.fcmp], ∃ x, ∃ s, ∃ a, ∃ b, issues (c x) s ∧ x.srcA (past (c x) s) = .ok a ∧ x.srcB (past (c x) s) = .ok b) ∧
  (∃ e ∈ comparisons, ∃ x, ∃ s, issues (e.1 x) s) :=
  ⟨⟨_, List.mem_cons_self, lx, run, _, _, rfl, rfl, rfl⟩,
   ⟨_, List.mem_cons_self, bx, run, rfl⟩⟩

theorem met_MoveAndConstantResults :
  (∃ x, ∃ s, ∃ a, ∃ b, ∃ d, issues (.sel x) s ∧ x.srcA (past (.sel x) s) = .ok a ∧ (if x.wide = true ∧ x.form = 1 then b = (x.lit.signExtend 64).toNat else x.srcB (past (.sel x) s) = .ok b) ∧ x.dst (past (.sel x) s) = .ok d) ∧
  (∃ x, ∃ s, ∃ a, ∃ d, issues (.mov x) s ∧ x.srcA (past (.mov x) s) = .ok a ∧ x.dst (past (.mov x) s) = .ok d) ∧
  (∃ x, ∃ s, issues (.movL32A x) s) ∧
  (∃ x, ∃ s, ∃ n, issues (.movRelSrcL32B x) s ∧ (past (.movRelSrcL32B x) s).relative x.a x.imm.toInt = .ok n) ∧
  (∃ x, ∃ s, ∃ n, issues (.movRelDstL32B x) s ∧ (past (.movRelDstL32B x) s).relative x.d x.imm.toInt = .ok n) ∧
  (∃ x, ∃ s, ∃ b, issues (.li x) s ∧ x.srcB (past (.li x) s) = .ok b) ∧
  (∃ x, ∃ s, issues (.liI64L32B x) s) ∧
  (∃ x, ∃ s, ∃ a, ∃ b, ∃ d, issues (.lih x) s ∧ x.srcA (past (.lih x) s) = .ok a ∧ x.srcB (past (.lih x) s) = .ok b ∧ x.dst (past (.lih x) s) = .ok d) ∧
  (∃ x, ∃ s, issues (.lihL32B x) s) :=
  ⟨⟨lx, run, 0, 0, 0, rfl, rfl, rfl, rfl⟩,
   ⟨lx, run, _, _, rfl, rfl, rfl⟩,
   ⟨ax, run, rfl⟩,
   ⟨bx, run, _, rfl, rfl⟩,
   ⟨bx, run, _, rfl, rfl⟩,
   ⟨lx, run, _, rfl, rfl⟩,
   ⟨bx, run, rfl⟩,
   ⟨lx, run, _, _, _, rfl, rfl, rfl, rfl⟩,
   ⟨bx, run, rfl⟩⟩

theorem met_BitFieldResults :
  (∃ x, ∃ s, ∃ a, ∃ f, ∃ d, issues (.bfx x) s ∧ x.srcA (past (.bfx x) s) = .ok a ∧ x.srcB (past (.bfx x) s) = .ok f ∧ x.dst (past (.bfx x) s) = .ok d) ∧
  (∃ x, ∃ s, ∃ a, ∃ f, ∃ d, issues (.bfi x) s ∧ x.srcA (past (.bfi x) s) = .ok a ∧ x.srcB (past (.bfi x) s) = .ok f ∧ x.dst (past (.bfi x) s) = .ok d) ∧
  (∃ x, ∃ s, issues (.bfxN64L32B x) s) ∧
  (∃ x, ∃ s, issues (.bfxI64L32B x) s) :=
  ⟨⟨lx, run, _, _, _, rfl, rfl, rfl, rfl⟩,
   ⟨lx, run, _, _, _, rfl, rfl, rfl, rfl⟩,
   ⟨bx, run, rfl⟩,
   ⟨bx, run, rfl⟩⟩

theorem met_PredicateResults :
  (issues (.pand lx) run) ∧
  (issues (.pandL32A ax) run) ∧
  (∃ e ∈ [(Instr.pnot, fun p : PWord => ~~~ p), (Instr.pmov, fun p => p)], ∃ x, ∃ s, issues (e.1 x) s) ∧
  (∃ e ∈ [(Instr.pnotL32A, fun p : PWord => ~~~ p), (Instr.pmovL32A, fun p => p)], ∃ x, ∃ s, issues (e.1 x) s) ∧
  (∃ x, ∃ s, issues (.pmovFromG x) s) ∧
  (∃ x, ∃ s, issues (.pmovFromGL32A x) s) ∧
  (∃ x, ∃ s, issues (.pmovToG x) s) ∧
  (∃ x, ∃ s, issues (.pmovToGL32A x) s) ∧
  (∃ x, ∃ s, issues (.pcnt x) s) ∧
  (∃ x, ∃ s, issues (.pcntL32A x) s) :=
  ⟨rfl,
   rfl,
   ⟨_, List.mem_cons_self, lx, run, rfl⟩,
   ⟨_, List.mem_cons_self, ax, run, rfl⟩,
   ⟨lx, run, rfl⟩,
   ⟨ax, run, rfl⟩,
   ⟨lx, run, rfl⟩,
   ⟨ax, run, rfl⟩,
   ⟨lx, run, rfl⟩,
   ⟨ax, run, rfl⟩⟩

theorem met_ControlTransfers :
  (∃ x, ∃ s, issues (.br x) s) ∧
  (∃ x, ∃ s, issues (.brL32B x) s) ∧
  (∃ x, ∃ s, issues (.brNotL32B x) s) ∧
  (∃ x, ∃ s, issues (.jmp x) s) ∧
  (∃ x, ∃ s, issues (.jmpL32A x) s) ∧
  (∃ c ∈ [Instr.jmpi, Instr.ret], ∃ x, ∃ s, issues (c x) s ∧ (s.g x.a.toNat).toNat % 4 = 0) ∧
  (∃ c ∈ [Instr.jmpiL32A, Instr.retL32A], ∃ x, ∃ s, issues (c x) s ∧ (s.g x.a.toNat).toNat % 4 = 0) ∧
  (∃ x, ∃ s, issues (.call x) s) ∧
  (∃ x, ∃ s, issues (.callL32B x) s) ∧
  (∃ x, ∃ s, issues (.calli x) s ∧ (s.g x.a.toNat).toNat % 4 = 0) ∧
  (∃ x, ∃ s, issues (.calliL32A x) s ∧ (s.g x.a.toNat).toNat % 4 = 0) ∧
  (∃ x, ∃ s, issues (.loops x) s) :=
  ⟨⟨lx, run, rfl⟩,
   ⟨bx, run, rfl⟩,
   ⟨bx, run, rfl⟩,
   ⟨lx, run, rfl⟩,
   ⟨ax, run, rfl⟩,
   ⟨_, List.mem_cons_self, lx, run, rfl, rfl⟩,
   ⟨_, List.mem_cons_self, ax, run, rfl, rfl⟩,
   ⟨lx, run, rfl⟩,
   ⟨bx, run, rfl⟩,
   ⟨lx, run, rfl, rfl⟩,
   ⟨ax, run, rfl, rfl⟩,
   ⟨lx, run, rfl⟩⟩

theorem met_MisalignedTargetFaults :
  (∃ c ∈ [Instr.jmpi, Instr.ret, Instr.calli], ∃ x, ∃ s, issues (c x) s ∧ (s.g x.a.toNat).toNat % 4 ≠ 0) ∧
  (∃ c ∈ [Instr.jmpiL32A, Instr.retL32A, Instr.calliL32A], ∃ x, ∃ s, issues (c x) s ∧ (s.g x.a.toNat).toNat % 4 ≠ 0) :=
  ⟨⟨_, List.mem_cons_self, { lx with a := 1 }, run.setG 1 2, rfl, by decide⟩,
   ⟨_, List.mem_cons_self, { ax with a := 1 }, run.setG 1 2, rfl, by decide⟩⟩

theorem met_EndAndNop :
  (∃ x, ∃ s, issues (.endI x) s) ∧
  (∃ x, ∃ s, issues (.endL32A x) s) ∧
  (∃ x, ∃ s, issues (.nop x) s) ∧
  (∃ x, ∃ s, issues (.nopL32A x) s) :=
  ⟨⟨lx, run, rfl⟩,
   ⟨ax, run, rfl⟩,
   ⟨lx, run, rfl⟩,
   ⟨ax, run, rfl⟩⟩

theorem met_GangInstructions :
  (∃ x, ∃ s, ∃ a, issues (.gang x) s ∧ s.core.act = some a ∧ a.gang = none ∧ s.core.matMode = false ∧ (s.homeTile s.core).bind (fun t => gangCode t s.core.psn) = none) ∧
  (∃ x, ∃ s, ∃ a, ∃ t, ∃ own, ∃ asked, ∃ here, issues (.gang x) s ∧ s.core.act = some a ∧ a.gang = none ∧ s.core.matMode = false ∧ s.homeTile s.core = some t ∧ gangCode t s.core.psn = some own ∧ x.hi.toNat % 16 / 2 ^ own % 2 = 0 ∧ asked = (if a.joining = [] then ((((List.range 4).filter (fun k => x.hi.toNat % 16 / 2 ^ k % 2 == 1)).filterMap (fun k => (gangCore t k).map (fun p => (k, p)))).filter (fun n => (past (.gang x) s).canJoin a n.2)) else a.joining) ∧ here = asked.filter (fun n => (past (.gang x) s).hasJoined s.core.psn n.2) ∧ (∀ n ∈ asked, (past (.gang x) s).hasJoined s.core.psn n.2 = true ∨ (past (.gang x) s).canJoin a n.2 = false)) ∧
  (∃ x, ∃ s, ∃ a, issues (.ungang x) s ∧ s.core.act = some a) ∧
  (∃ x, ∃ s, ∃ a, issues (.ungangL32A x) s ∧ s.core.act = some a) ∧
  (∃ x, ∃ s, ∃ a, issues (.rejoin x) s ∧ s.core.act = some a ∧ (∀ g, a.gang = some g → g.position = 0 → g.members.all ((past (.rejoin x) s).memberSettled s.core.psn) = true)) ∧
  (∃ x, ∃ s, ∃ a, issues (.rejoinL32A x) s ∧ s.core.act = some a ∧ (∀ g, a.gang = some g → g.position = 0 → g.members.all ((past (.rejoinL32A x) s).memberSettled s.core.psn) = true)) :=
  ⟨⟨lx, idle.mapCore (fun c => { c with homeStore := 0xFF }), _, rfl, rfl, rfl, rfl, rfl⟩,
   ⟨{ lx with hi := 2 }, quad, _, _, _, _, _, rfl, rfl, rfl, rfl, rfl, rfl, rfl, rfl, rfl, by decide⟩,
   ⟨lx, run, _, rfl, rfl⟩,
   ⟨ax, run, _, rfl, rfl⟩,
   ⟨lx, run, _, rfl, rfl, (fun g h => by cases h)⟩,
   ⟨ax, run, _, rfl, rfl, (fun g h => by cases h)⟩⟩

theorem met_CapabilityInspection :
  (∃ e ∈ [(Instr.cbase, Cap.base), (Instr.clen, Cap.length), (Instr.cperms, Cap.perms), (Instr.ctype, Cap.otype), (Instr.ctag, fun c : Cap => c.tag.toNat)], ∃ x, ∃ s, issues (e.1 x) s) ∧
  (∃ e ∈ [(Instr.cbaseL32A, Cap.base), (Instr.clenL32A, Cap.length), (Instr.cpermsL32A, Cap.perms), (Instr.ctypeL32A, Cap.otype), (Instr.ctagL32A, fun c : Cap => c.tag.toNat)], ∃ x, ∃ s, issues (e.1 x) s) ∧
  (∃ x, ∃ s, issues (.cclr x) s) ∧
  (∃ x, ∃ s, issues (.cclrL32A x) s) ∧
  (∃ x, ∃ s, issues (.cmov x) s) ∧
  (∃ x, ∃ s, issues (.cmovL32A x) s) :=
  ⟨⟨_, List.mem_cons_self, lx, run, rfl⟩,
   ⟨_, List.mem_cons_self, ax, run, rfl⟩,
   ⟨lx, run, rfl⟩,
   ⟨ax, run, rfl⟩,
   ⟨lx, run, rfl⟩,
   ⟨ax, run, rfl⟩⟩

theorem met_CapabilityDerivation :
  (∃ x, ∃ s, ∃ o, ∃ l, issues (.cderive x) s ∧ o = (s.g x.b.toNat).toNat ∧ l = (if x.wide then x.lit.toNat else (s.g x.c.toNat).toNat) ∧ (s.c x.a.toNat).tag = false) ∧
  (∃ x, ∃ s, ∃ o, ∃ l, issues (.cderive x) s ∧ o = (s.g x.b.toNat).toNat ∧ l = (if x.wide then x.lit.toNat else (s.g x.c.toNat).toNat) ∧ (s.c x.a.toNat).tag = true ∧ (s.c x.a.toNat).otype ≠ 0) ∧
  (∃ x, ∃ s, ∃ o, ∃ l, issues (.cderive x) s ∧ o = (s.g x.b.toNat).toNat ∧ l = (if x.wide then x.lit.toNat else (s.g x.c.toNat).toNat) ∧ (s.c x.a.toNat).tag = true ∧ (s.c x.a.toNat).otype = 0 ∧ (s.c x.a.toNat).length < o + l) ∧
  (∃ x, ∃ s, ∃ o, ∃ l, issues (.cderive x) s ∧ o = (s.g x.b.toNat).toNat ∧ l = (if x.wide then x.lit.toNat else (s.g x.c.toNat).toNat) ∧ (s.c x.a.toNat).tag = true ∧ (s.c x.a.toNat).otype = 0 ∧ o + l ≤ (s.c x.a.toNat).length) ∧
  (∃ x, ∃ s, ∃ p, ∃ m, issues (.cperm x) s ∧ p = (s.c x.a.toNat).perms ∧ m = x.hi.toNat % 128 ∧ (s.c x.a.toNat).tag = false) ∧
  (∃ x, ∃ s, ∃ p, ∃ m, issues (.cperm x) s ∧ p = (s.c x.a.toNat).perms ∧ m = x.hi.toNat % 128 ∧ (s.c x.a.toNat).tag = true ∧ (s.c x.a.toNat).otype ≠ 0) ∧
  (∃ x, ∃ s, ∃ p, ∃ m, issues (.cperm x) s ∧ p = (s.c x.a.toNat).perms ∧ m = x.hi.toNat % 128 ∧ (s.c x.a.toNat).tag = true ∧ (s.c x.a.toNat).otype = 0) :=
  ⟨⟨{ lx with a := 5 }, run, _, _, rfl, rfl, rfl, rfl⟩,
   ⟨{ lx with a := 1 }, run.setC 1 (codeCap.withOtype 7), _, _, rfl, rfl, rfl, rfl, by decide⟩,
   ⟨{ lx with wide := true, lit := 0x18001 }, run, _, _, rfl, rfl, rfl, rfl, rfl, by decide⟩,
   ⟨{ lx with wide := true, lit := 0x18000 }, run, _, _, rfl, rfl, rfl, rfl, rfl, by decide⟩,
   ⟨{ lx with a := 5 }, run, _, _, rfl, rfl, rfl, rfl⟩,
   ⟨{ lx with a := 1 }, run.setC 1 (codeCap.withOtype 7), _, _, rfl, rfl, rfl, rfl, by decide⟩,
   ⟨lx, run, _, _, rfl, rfl, rfl, rfl, rfl⟩⟩

theorem met_Sealing :
  (∃ e ∈ [(Instr.cseal, true), (Instr.cunseal, false)], ∃ x, ∃ s, issues (e.1 x) s) ∧
  (∃ e ∈ [(Instr.csealL32A, true), (Instr.cunsealL32A, false)], ∃ x, ∃ s, issues (e.1 x) s) :=
  ⟨⟨_, List.mem_cons_self, lx, run, rfl⟩,
   ⟨_, List.mem_cons_self, ax, run, rfl⟩⟩

theorem met_CapabilityCheck :
  ∃ x, ∃ s, issues (.cchk x) s :=
  ⟨lx, run, rfl⟩

theorem met_SystemReads :
  (∃ x, ∃ s, issues (.who x) s) ∧
  (∃ x, ∃ s, ∃ a, issues (.wid x) s ∧ s.core.act = some a) ∧
  (∃ x, ∃ s, ∃ a, issues (.widL32B x) s ∧ s.core.act = some a) ∧
  (∃ x, ∃ s, issues (.time x) s) ∧
  (∃ x, ∃ s, issues (.timeL32A x) s) ∧
  (∃ x, ∃ s, issues (.timeEnergy x) s) ∧
  (∃ x, ∃ s, issues (.timeEnergyL32A x) s) ∧
  (∃ x, ∃ s, ∃ v, issues (.sysrd x) s ∧ (x.hi.toNat < 0x100 ∨ s.level ≠ .graph) ∧ (past (.sysrd x) s).sysRead x.hi.toNat = .ok v) ∧
  (∃ x, ∃ s, issues (.sysrd x) s ∧ x.hi = 0) ∧
  (∃ x, ∃ s, ∃ a, issues (.wick x) s ∧ s.core.act = some a) ∧
  (∃ x, ∃ s, ∃ a, issues (.wickL32A x) s ∧ s.core.act = some a) :=
  ⟨⟨lx, run, rfl⟩,
   ⟨lx, run, _, rfl, rfl⟩,
   ⟨bx, run, _, rfl, rfl⟩,
   ⟨lx, run, rfl⟩,
   ⟨ax, run, rfl⟩,
   ⟨lx, run, rfl⟩,
   ⟨ax, run, rfl⟩,
   ⟨lx, run, _, rfl, by decide, rfl⟩,
   ⟨lx, run, rfl, rfl⟩,
   ⟨lx, run, _, rfl, rfl⟩,
   ⟨ax, run, _, rfl, rfl⟩⟩

theorem met_SystemEffects :
  (∃ x, ∃ s, issues (.syswr x) s ∧ s.level ≠ .graph) ∧
  (∃ x, ∃ s, issues (.query x) s ∧ queryOk (s.g x.a.toNat) = true) ∧
  (∃ x, ∃ s, issues (.queryL32A x) s ∧ queryOk (s.g x.a.toNat) = true) ∧
  (∃ i, ∃ a, ∃ act, ∃ s, ((∃ x, i = Instr.yield x ∧ a = x.a.toNat) ∨ (∃ x, i = Instr.yieldL32A x ∧ a = x.a.toNat)) ∧ issues i s ∧ s.core.act = some act ∧ s.core.bindsAny act.entry = false ∧ maskOk (s.g a) act.window = true ∧ (s.homeTile s.core).bind (fun t => (s.getTile t).shortFor s.core.psn) = none) ∧
  (∃ i, ∃ a, ∃ act, ∃ s, ((∃ x, i = Instr.yield x ∧ a = x.a.toNat) ∨ (∃ x, i = Instr.yieldL32A x ∧ a = x.a.toNat)) ∧ issues i s ∧ s.core.act = some act ∧ s.core.bindsAny act.entry = false ∧ maskOk (s.g a) act.window = true ∧ ∃ t, ∃ k, s.homeTile s.core = some t ∧ (s.getTile t).shortFor s.core.psn = some k ∧ (past i s).drained s.core.psn act.serial = true) :=
  ⟨⟨lx, fw, rfl, by decide⟩,
   ⟨lx, run, rfl, rfl⟩,
   ⟨ax, run, rfl, rfl⟩,
   ⟨.yield lx, _, _, run.mapCore (fun c => { c with homeStore := 0xFF }), Or.inl ⟨_, rfl, rfl⟩, rfl, rfl, rfl, rfl, rfl⟩,
   ⟨.yieldL32A ax, _, _, run, Or.inr ⟨_, rfl, rfl⟩, rfl, rfl, rfl, rfl, _, _, rfl, rfl, rfl⟩⟩

theorem met_TrapTakesItsFault :
  (∃ x, ∃ s, issues (.trap x) s) ∧
  (∃ x, ∃ s, issues (.trapL32B x) s) :=
  ⟨⟨lx, run, rfl⟩,
   ⟨bx, run, rfl⟩⟩

theorem met_PrivilegedInstructions :
  (∃ x, ∃ s, issues (.gate x) s ∧ psnClass s.core.psn ≠ 3 ∧ (s.g x.a.toNat).toNat < 36) ∧
  (∃ x, ∃ s, ∃ p, issues (.snuff x) s ∧ psnClass s.core.psn ≠ 3 ∧ p = (s.g x.a.toNat).toNat ∧ p < 2 ^ 24 ∧ (past (.snuff x) s).canSnuff p = true ∧ psnRegion p = psnRegion s.core.psn ∧ (((past (.snuff x) s).getCore p).act.isSome ∨ (past (.snuff x) s).canNotice p = true)) ∧
  (∃ x, ∃ s, ∃ p, issues (.snuff x) s ∧ psnClass s.core.psn ≠ 3 ∧ p = (s.g x.a.toNat).toNat ∧ p < 2 ^ 24 ∧ ((past (.snuff x) s).canSnuff p = false ∨ psnRegion p ≠ psnRegion s.core.psn)) ∧
  (∃ x, ∃ s, ∃ p, ∃ n, issues (.nameset x) s ∧ psnClass s.core.psn ≠ 3 ∧ p = (s.g x.a.toNat).toNat ∧ n = (s.g x.b.toNat).toNat ∧ p < 2 ^ 24 ∧ n < 2 ^ 24) ∧
  (∃ x, ∃ s, ∃ n, issues (.leaseack x) s ∧ (s.g x.b.toNat).toNat < 3 ∧ n = (s.g x.a.toNat).toNat % 2 ^ 16) ∧
  (∃ e ∈ [(Instr.fresume, false), (Instr.fkill, true)], ∃ x, ∃ s, issues (e.1 x) s) ∧
  (∃ x, ∃ s, issues (.fresumeValue x) s) ∧
  (∃ x, ∃ s, issues (.splice x) s ∧ psnClass s.core.psn = 2 ∧ s.core.psn / 512 % 16 = 1 ∧ fld (s.g x.a.toNat) 63 48 = 0 ∧ fld (s.g x.a.toNat) 15 0 = 0 ∧ fld (s.g x.b.toNat) 63 32 = 0) :=
  ⟨⟨lx, fw, rfl, by decide, by decide⟩,
   ⟨lx, fw, 0, rfl, by decide, rfl, by decide, rfl, rfl, by decide⟩,
   ⟨{ lx with a := 1 }, fw.setG 1 0x2000, 0x2000, rfl, by decide, rfl, by decide, by decide⟩,
   ⟨lx, fw, _, _, rfl, by decide, rfl, rfl, by decide, by decide⟩,
   ⟨lx, fw, _, rfl, by decide, rfl⟩,
   ⟨_, List.mem_cons_self, lx, fw, rfl⟩,
   ⟨lx, fw, rfl⟩,
   ⟨lx, fw, rfl, rfl, rfl, rfl, rfl, rfl⟩⟩

theorem met_PrivilegeFaults :
  (∃ (s : State) (a : Act), s.level = Level.graph ∧ s.core.act = some a ∧ a.halted = none) ∧
  (∃ x, ∃ s, issues (.syswr x) s ∧ s.level = .graph) ∧
  (∃ x, ∃ s, issues (.sysrd x) s ∧ s.level = .graph ∧ 0x100 ≤ x.hi.toNat) ∧
  (∃ x, ∃ s, issues (.qinc x) s ∧ s.level = .graph ∧ 48 ≤ x.d.toNat) :=
  ⟨⟨run, _, rfl, rfl, rfl⟩,
   ⟨lx, run, rfl, rfl⟩,
   ⟨{ lx with hi := 0x100 }, run, rfl, rfl, by decide⟩,
   ⟨{ lx with d := 48 }, run, rfl, rfl, by decide⟩⟩

theorem met_CounterIncrements :
  (∃ e ∈ [(Instr.qinc, fun (_ : Long) (_ : State) => 1), (Instr.qadd, fun x s => if x.wide then x.lit.toNat else if x.sub = 1 then (s.g x.b.toNat).toNat else x.hi.toNat)], ∃ x, ∃ s, issues (e.1 x) s ∧ (x.d.toNat < 48 ∨ s.level ≠ .graph)) ∧
  (∃ x, ∃ s, issues (.qincL32A x) s ∧ (x.d.toNat < 48 ∨ s.level ≠ .graph)) ∧
  (∃ x, ∃ s, issues (.qaddL32B x) s ∧ (x.d.toNat < 48 ∨ s.level ≠ .graph)) :=
  ⟨⟨_, List.mem_cons_self, lx, run, rfl, by decide⟩,
   ⟨ax, run, rfl, by decide⟩,
   ⟨bx, run, rfl, by decide⟩⟩

theorem met_CounterReadsAndWaits :
  (∃ x, ∃ s, issues (.qrd x) s ∧ x.hi.toNat % 128 < 64) ∧
  (∃ x, ∃ s, ∃ a, ∃ t, issues (.qrd x) s ∧ 64 ≤ x.hi.toNat % 128 ∧ s.core.act = some a ∧ s.homeTile s.core = some t ∧ (past (.qrd x) s).hasRoom a Order.none [] = true) ∧
  (∃ x, ∃ s, ∃ a, ∃ n, issues (.qpost x) s ∧ s.core.act = some a ∧ n = (if x.wide then x.lit.toNat else (s.g x.b.toNat).toNat) ∧ (x.postRef < 48 ∨ s.level ≠ .graph) ∧ x.postRef < 64 ∧ fld (s.g x.a.toNat) 63 24 = 0) ∧
  (∃ x, ∃ s, ∃ a, ∃ t, ∃ n, issues (.qpost x) s ∧ s.core.act = some a ∧ n = (if x.wide then x.lit.toNat else (s.g x.b.toNat).toNat) ∧ 64 ≤ x.postRef ∧ fld (s.g x.a.toNat) 63 8 = 0 ∧ s.storeTile s.core (fld (s.g x.a.toNat) 7 0) = some t ∧ (past (.qpost x) s).hasRoom a (x.order s) [] = true) ∧
  (∃ x, ∃ s, ∃ a, ∃ pairs, issues (.waitq x) s ∧ s.core.act = some a ∧ x.sub ≠ 1 ∧ pairs = [(x.hi.toNat % 128, s.g x.b.toNat)] ∧ x.hi.toNat % 128 < 80 ∧ maskOk (s.g x.c.toNat) a.window = true ∧ s.core.bindsAny a.entry = false ∧ (x.hi.toNat % 128 < 64 ∨ (s.homeTile s.core).isSome) ∧ (s.homeTile s.core).bind (fun t => (s.getTile t).reservedBy s.core.psn) = none ∧ (past (.waitq x) s).allReached s.core.psn ((s.homeTile s.core).getD 0) pairs = true) ∧
  (∃ x, ∃ s, ∃ a, ∃ pairs, issues (.waitq x) s ∧ s.core.act = some a ∧ x.sub ≠ 1 ∧ pairs = [(x.hi.toNat % 128, s.g x.b.toNat)] ∧ x.hi.toNat % 128 < 80 ∧ maskOk (s.g x.c.toNat) a.window = true ∧ s.core.bindsAny a.entry = false ∧ (x.hi.toNat % 128 < 64 ∨ (s.homeTile s.core).isSome) ∧ (s.homeTile s.core).bind (fun t => (s.getTile t).reservedBy s.core.psn) = none ∧ (past (.waitq x) s).allReached s.core.psn ((s.homeTile s.core).getD 0) pairs = false ∧ ∃ t, ∃ k, s.homeTile s.core = some t ∧ (s.getTile t).freeShort = some k ∧ (past (.waitq x) s).drained s.core.psn a.serial = true) ∧
  (∃ x, ∃ s, ∃ p, ∃ n, ∃ t, issues (.waitq x) s ∧ x.sub = 1 ∧ p = (s.g x.a.toNat).toNat ∧ p % 8 = 0 ∧ p + 8 ≤ 0x18000 ∧ (past (.waitq x) s).localBusy = false ∧ n = ofLe (s.bytes (localKey s.core.psn p) 8) ∧ 1 ≤ n ∧ n ≤ 4 ∧ p + 8 + 16 * n ≤ 0x18000 ∧ (∀ k < n, ofLe (s.bytes (localKey s.core.psn p + 8 + 16 * k) 8) < 80) ∧ s.spoiled (localKey s.core.psn p) (8 + 16 * n) = false ∧ waitOn x.bytes ((List.range n).map (fun k => (ofLe (s.bytes (localKey s.core.psn p + 8 + 16 * k) 8), BitVec.ofNat 64 (ofLe (s.bytes (localKey s.core.psn p + 16 + 16 * k) 8))))) (s.g x.c.toNat) (past (.waitq x) s) = .ok t) ∧
  (∃ x, ∃ s, ∃ t, issues (.batch x) s ∧ closeBatch (past (.batch x) s) = .ok t) ∧
  (∃ x, ∃ s, issues (.batch x) s ∧ s.core.batch = []) ∧
  (∃ x, ∃ s, ∃ t, issues (.waitb x) s ∧ closeBatch (past (.waitb x) s) = .ok t ∧ t.core.outstanding.length ≤ x.hi.toNat) ∧
  (∃ x, ∃ s, issues (.waitvis x) s ∧ x.hi.toNat ≤ (s.core.getQ 50).toNat) ∧
  (∃ x, ∃ s, issues (.succhint x) s) ∧
  (∃ x, ∃ s, issues (.succhintL32A x) s) :=
  ⟨⟨lx, run, rfl, by decide⟩,
   ⟨{ lx with hi := 64 }, run, _, _, rfl, by decide, rfl, rfl, rfl⟩,
   ⟨lx, run, _, _, rfl, rfl, rfl, by decide, by decide, rfl⟩,
   ⟨{ lx with hi := 64, d := 16, c := 16 }, run, _, _, _, rfl, rfl, rfl, by decide, rfl, rfl, rfl⟩,
   ⟨lx, run, _, _, rfl, rfl, by decide, rfl, by decide, rfl, rfl, by decide, rfl, rfl⟩,
   ⟨{ lx with b := 1 }, run.setG 1 5, _, _, rfl, rfl, by decide, rfl, by decide, rfl, rfl, by decide, rfl, rfl, _, _, rfl, rfl, rfl⟩,
   ⟨{ lx with sub := 1 }, run.poke (localKey 0 0) (leBytes 8 1), 0, 1, _, rfl, rfl, rfl, rfl, by decide, rfl, rfl, by decide, by decide, by decide, by decide, rfl, rfl⟩,
   ⟨lx, run, _, rfl, rfl⟩,
   ⟨lx, run, rfl, rfl⟩,
   ⟨lx, run, _, rfl, rfl, by decide⟩,
   ⟨lx, run, rfl, by decide⟩,
   ⟨lx, run, rfl⟩,
   ⟨ax, run, rfl⟩⟩

theorem met_HandleWaitsAndReads :
  (∃ x, ∃ s, ∃ h, ∃ n, issues (.hwaitf x) s ∧ h = x.a.toNat ∧ n = x.count s ∧ h < 20 ∧ s.core.queueOk.getLsbD h = true ∧ 1 ≤ n ∧ n ≤ 256 ∧ n ≤ qDepth (s.core.queue h) ∧ (n ≤ s.core.filled h ∨ qEnded (s.core.queue h) = true)) ∧
  (∃ x, ∃ s, ∃ h, ∃ n, issues (.hwaitfL32B x) s ∧ h = x.a.toNat ∧ n = x.imm.toNat ∧ h < 20 ∧ s.core.queueOk.getLsbD h = true ∧ 1 ≤ n ∧ n ≤ 256 ∧ n ≤ qDepth (s.core.queue h) ∧ (n ≤ s.core.filled h ∨ qEnded (s.core.queue h) = true)) ∧
  (∃ x, ∃ s, ∃ h, ∃ n, issues (.hwaite x) s ∧ h = x.a.toNat ∧ n = x.count s ∧ 20 ≤ h ∧ s.core.queueOk.getLsbD h = true ∧ 1 ≤ n ∧ n ≤ 256 ∧ n ≤ oDepth (s.core.queue h) ∧ n ≤ oFree (s.core.queue h)) ∧
  (∃ x, ∃ s, ∃ h, ∃ n, issues (.hwaiteL32B x) s ∧ h = x.a.toNat ∧ n = x.imm.toNat ∧ 20 ≤ h ∧ s.core.queueOk.getLsbD h = true ∧ 1 ≤ n ∧ n ≤ 256 ∧ n ≤ oDepth (s.core.queue h) ∧ n ≤ oFree (s.core.queue h)) ∧
  (∃ x, ∃ s, ∃ h, ∃ n, ∃ k, ∃ place, issues (.hld x) s ∧ h = x.a.toNat ∧ n = (s.g x.b.toNat).toNat ∧ h < 20 ∧ s.core.queueOk.getLsbD h = true ∧ x.hi.toNat % elemBytes x.sub = 0 ∧ x.hi.toNat + elemBytes x.sub ≤ qSlotBytes (s.core.queue h) ∧ n < qDepth (s.core.queue h) ∧ (past (.hld x) s).localBusy = false ∧ (s.core.presented h)[n]? = some (k, place) ∧ s.spoiled (localKey s.core.psn (slotAddr (s.core.queue h) k place + x.hi.toNat)) (elemBytes x.sub) = false) ∧
  (∃ x, ∃ s, issues (.hstat x) s ∧ s.core.queueOk.getLsbD x.a.toNat = true) ∧
  (∃ x, ∃ s, issues (.hstatL32A x) s ∧ s.core.queueOk.getLsbD x.a.toNat = true) :=
  ⟨⟨{ lx with hi := 1 }, run, _, _, rfl, rfl, rfl, by decide, rfl, by decide, by decide, by decide, by decide⟩,
   ⟨{ bx with imm := 1 }, run, _, _, rfl, rfl, rfl, by decide, rfl, by decide, by decide, by decide, by decide⟩,
   ⟨{ lx with a := 20, hi := 1 }, run, _, _, rfl, rfl, rfl, by decide, rfl, by decide, by decide, by decide, by decide⟩,
   ⟨{ bx with a := 20, imm := 1 }, run, _, _, rfl, rfl, rfl, by decide, rfl, by decide, by decide, by decide, by decide⟩,
   ⟨lx, run, _, _, _, _, rfl, rfl, rfl, by decide, rfl, rfl, by decide, by decide, rfl, rfl, rfl⟩,
   ⟨lx, run, rfl, rfl⟩,
   ⟨ax, run, rfl, rfl⟩⟩

theorem met_HandleFaults :
  (∃ e ∈ [(Instr.hwaitf, true), (Instr.hwaite, false), (Instr.hld, true), (Instr.hst, false), (Instr.hadvc, true), (Instr.hadvp, false), (Instr.heos, false)], ∃ x, ∃ s, issues (e.1 x) s ∧ (s.core.queueOk.getLsbD x.a.toNat = false ∨ (x.a.toNat < 20 ↔ e.2 = false))) ∧
  (∃ e ∈ [(Instr.hwaitfL32B, true), (Instr.hwaiteL32B, false), (Instr.hadvcL32B, true), (Instr.hadvpL32B, false)], ∃ x, ∃ s, issues (e.1 x) s ∧ (s.core.queueOk.getLsbD x.a.toNat = false ∨ (x.a.toNat < 20 ↔ e.2 = false))) :=
  ⟨⟨_, List.mem_cons_self, { lx with a := 20 }, run, rfl, by decide⟩,
   ⟨_, List.mem_cons_self, { bx with a := 20 }, run, rfl, by decide⟩⟩

theorem met_HandleWriters :
  (∃ x, ∃ s, ∃ h, ∃ n, issues (.hst x) s ∧ h = x.a.toNat ∧ n = (s.g x.b.toNat).toNat ∧ 20 ≤ h ∧ s.core.queueOk.getLsbD h = true ∧ x.hi.toNat % elemBytes x.sub = 0 ∧ x.hi.toNat + elemBytes x.sub ≤ oSlotBytes (s.core.queue h) ∧ n < oDepth (s.core.queue h) ∧ (past (.hst x) s).localBusy = false ∧ s.core.copying h = false ∧ n < oFree (s.core.queue h)) ∧
  (∃ x, ∃ s, ∃ h, ∃ n, issues (.hadvp x) s ∧ h = x.a.toNat ∧ n = x.count s ∧ 20 ≤ h ∧ s.core.queueOk.getLsbD h = true ∧ 1 ≤ n ∧ n ≤ 256 ∧ oEosSent (s.core.queue h) = false ∧ s.core.copying h = false ∧ n ≤ oFree (s.core.queue h)) ∧
  (∃ x, ∃ s, ∃ h, ∃ n, issues (.hadvpL32B x) s ∧ h = x.a.toNat ∧ n = x.imm.toNat ∧ 20 ≤ h ∧ s.core.queueOk.getLsbD h = true ∧ 1 ≤ n ∧ n ≤ 256 ∧ oEosSent (s.core.queue h) = false ∧ s.core.copying h = false ∧ n ≤ oFree (s.core.queue h)) ∧
  (∃ x, ∃ s, ∃ h, issues (.heos x) s ∧ h = x.a.toNat ∧ 20 ≤ h ∧ s.core.queueOk.getLsbD h = true ∧ oEosSent (s.core.queue h) = false ∧ s.core.copying h = false) ∧
  (∃ x, ∃ s, ∃ h, ∃ n, issues (.hadvc x) s ∧ h = x.a.toNat ∧ n = x.count s ∧ h < 20 ∧ s.core.queueOk.getLsbD h = true ∧ 1 ≤ n ∧ n ≤ 256 ∧ n ≤ (s.core.presented h).length) ∧
  (∃ x, ∃ s, ∃ h, ∃ n, issues (.hadvcL32B x) s ∧ h = x.a.toNat ∧ n = x.imm.toNat ∧ h < 20 ∧ s.core.queueOk.getLsbD h = true ∧ 1 ≤ n ∧ n ≤ 256 ∧ n ≤ (s.core.presented h).length) :=
  ⟨⟨{ lx with a := 20 }, run, _, _, rfl, rfl, rfl, by decide, rfl, rfl, by decide, by decide, rfl, rfl, by decide⟩,
   ⟨{ lx with a := 20, hi := 1 }, run, _, _, rfl, rfl, rfl, by decide, rfl, by decide, by decide, rfl, rfl, by decide⟩,
   ⟨{ bx with a := 20, imm := 1 }, run, _, _, rfl, rfl, rfl, by decide, rfl, by decide, by decide, rfl, rfl, by decide⟩,
   ⟨{ lx with a := 20 }, run, _, rfl, rfl, by decide, rfl, rfl, rfl⟩,
   ⟨{ lx with hi := 1 }, run, _, _, rfl, rfl, rfl, by decide, rfl, by decide, by decide, by decide⟩,
   ⟨{ bx with imm := 1 }, run, _, _, rfl, rfl, rfl, by decide, rfl, by decide, by decide, by decide⟩⟩

theorem met_MessageSenders :
  (∃ x, ∃ s, ∃ h, ∃ a, issues (.send x) s ∧ h = x.a.toNat ∧ 20 ≤ h ∧ (past (.send x) s).canSend h = .ok () ∧ s.core.queueOk.getLsbD h = true ∧ (s.c x.b.toNat).space = 0 ∧ (past (.send x) s).checkCap { Ask.load x.b.toNat with answers := false } (s.c x.b.toNat) (s.offset x.c.toNat x.hi.toInt) (oSlotBytes (s.core.queue h)) = .ok a ∧ a % oSlotBytes (s.core.queue h) = 0 ∧ (past (.send x) s).localBusy = false ∧ s.spoiled (localKey s.core.psn a) (oSlotBytes (s.core.queue h)) = false) ∧
  (∃ x, ∃ s, ∃ h, ∃ n, ∃ u, issues (.sendq x) s ∧ h = x.a.toNat ∧ 20 ≤ h ∧ n = (oSlotBytes (s.core.queue h) + 63) / 64 ∧ s.core.queueOk.getLsbD h = true ∧ x.b.toNat + n ≤ 32 ∧ (past (.sendq x) s).canSend h = .ok () ∧ (∀ k < n, s.core.isPending (.v (x.b.toNat + k)) = false) ∧ (past (.sendq x) s).popAll ((List.range n).map (fun k => (x.b.toNat + k, none))) = .ok u) ∧
  (∃ x, ∃ s, ∃ a, ∃ tr, ∃ l, ∃ round, issues (.cred x) s ∧ s.core.act = some a ∧ (s.getRegion (psnRegion s.core.psn)).trees.find? (fun t => t.number == x.hi.toNat % 16 && t.ctx == a.ctx) = some tr ∧ s.logicalOf s.core.psn = some l ∧ tr.leaves.contains l = true ∧ round = ((s.core.credRound.find? (·.1 == x.hi.toNat % 16)).map (·.2)).getD 0) :=
  ⟨⟨{ lx with a := 20 }, run, _, _, rfl, rfl, by decide, rfl, rfl, rfl, rfl, rfl, rfl, rfl⟩,
   ⟨{ lx with a := 20 }, run, _, 1, _, rfl, rfl, by decide, rfl, rfl, by decide, rfl, by decide, rfl⟩,
   ⟨lx, run.putRegion { Region.reset 0 with trees := [{ number := 0, ctx := 0, leaves := [0], rounds := [] }] }, _, _, _, _, rfl, rfl, rfl, rfl, rfl, rfl⟩⟩

theorem met_AccessesAreSent :
  ∃ x, ∃ y, ∃ s, ∃ act, ∃ ps, ∃ m ∈ loadForms x y ++ storeForms x y ++ atomicForms x ++ capForms x y s, m.passes s act ps ∧ (m.instr = .acas x → x.d.toNat + 1 < act.window ∧ s.core.isPending (.g (x.d.toNat + 1)) = false) :=
  ⟨lx, bx, run, _, _, longLoad .ld lx lx.order, List.mem_append_left _ (List.mem_append_left _ (List.mem_append_left _ List.mem_cons_self)), ⟨rfl, rfl, rfl, ⟨_, rfl, rfl⟩, rfl, (fun _ _ _ _ _ _ => rfl)⟩, (fun h => by cases h)⟩

theorem met_AnsweredAccesses :
  (∃ x, ∃ y, ∃ s, ∃ act, ∃ v, s.core.act = some act ∧ act.resumed = some v ∧ ∃ m ∈ loadForms x y ++ atomicForms x, issues m.instr s ∧ (m.instr = .acas x → x.d.toNat + 1 < act.window ∧ s.core.isPending (.g (x.d.toNat + 1)) = false)) ∧
  (∃ x, ∃ y, ∃ s, ∃ act, ∃ v, s.core.act = some act ∧ act.resumed = some v ∧ ∃ m ∈ storeForms x y, issues m.instr s) ∧
  (∃ x, ∃ s, ∃ act, ∃ v, s.core.act = some act ∧ act.resumed = some v ∧ issues (.cldc x) s) ∧
  (∃ x, ∃ s, ∃ act, ∃ v, s.core.act = some act ∧ act.resumed = some v ∧ issues (.cstc x) s) :=
  ⟨⟨lx, bx, answered, _, _, rfl, rfl, longLoad .ld lx lx.order, List.mem_append_left _ List.mem_cons_self, rfl, (fun h => by cases h)⟩,
   ⟨lx, bx, answered, _, _, rfl, rfl, longStore .st lx lx.order, List.mem_cons_self, rfl⟩,
   ⟨lx, answered, _, _, rfl, rfl, rfl⟩,
   ⟨lx, answered, _, _, rfl, rfl, rfl⟩⟩

theorem met_LocalLoads :
  ∃ x, ∃ y, ∃ s, ∃ act, ∃ a, ∃ m ∈ loadForms x y, m.atLocal s act a ∧ s.core.isPending (.g m.clears) = false ∧ s.spoiled (localKey s.core.psn a) m.size = false :=
  ⟨lx, bx, run, _, _, longLoad .ld lx lx.order, List.mem_cons_self, ⟨rfl, rfl, rfl, rfl, rfl, rfl, by decide⟩, rfl, rfl⟩

theorem met_LocalStores :
  ∃ x, ∃ y, ∃ s, ∃ act, ∃ a, ∃ m ∈ storeForms x y, m.atLocal s act a :=
  ⟨lx, bx, run, _, _, longStore .st lx lx.order, List.mem_cons_self, ⟨rfl, rfl, rfl, rfl, rfl, rfl, by decide⟩⟩

theorem met_LocalCapabilities :
  (∃ x, ∃ y, ∃ s, ∃ act, ∃ a, ∃ m ∈ [capLoadForm (.cldc x) x.a.toNat x.d.toNat x.memOff x.order s, capLoadForm (.cldcL32B y) y.a.toNat y.d.toNat (fun s => s.offset 0 (y.imm.toInt * 16)) (fun _ => Order.none) s], m.atLocal s act a ∧ a < 0x18000 ∧ s.spoiled (localKey s.core.psn a) 16 = false) ∧
  (∃ x, ∃ y, ∃ s, ∃ act, ∃ a, ∃ m ∈ [capStoreForm (.cstc x) x.a.toNat x.d.toNat x.memOff x.order, capStoreForm (.cstcL32B y) y.a.toNat y.d.toNat (fun s => s.offset 0 (y.imm.toInt * 16)) (fun _ => Order.none)], m.atLocal s act a ∧ a % 16 = 0) :=
  ⟨⟨lx, bx, run.setC 0 (Cap.make 0 0x1F 0 0x18000 0), _, 0, _, List.mem_cons_self, ⟨rfl, rfl, rfl, rfl, rfl, rfl, by decide⟩, by decide, rfl⟩,
   ⟨lx, bx, run.setC 0 (Cap.make 0 0x1F 0 0x18000 0), _, 0, _, List.mem_cons_self, ⟨rfl, rfl, rfl, rfl, rfl, rfl, by decide⟩, rfl⟩⟩

theorem met_Fences :
  (∃ x, ∃ s, ∃ act, issues (.fence x) s ∧ s.core.act = some act ∧ x.scope = 0) ∧
  (∃ x, ∃ s, ∃ act, ∃ held, issues (.fence x) s ∧ s.core.act = some act ∧ x.scope ≠ 0 ∧ held = ((((s.accessesOf s.core.psn).filter (fun y => !y.2.engine && y.2.serial == act.serial && decide (y.2.scope s.core.homeStore.toNat ≤ x.scope))).map (·.1)) ++ (x.order s).after.filter (fun i => !s.gone [i])).eraseDups) :=
  ⟨⟨lx, run, _, rfl, rfl, rfl⟩,
   ⟨{ lx with c := 3 }, run, _, _, rfl, rfl, by decide, rfl⟩⟩

theorem met_TokenJoin :
  ∃ x, ∃ s, issues (.ojoin x) s :=
  ⟨lx, run, rfl⟩

theorem met_Prefetches :
  (∃ x s act a ps rows, s.core.act = some act ∧ issues (.pf x) s ∧ act.resumed = none ∧
    (past (.pf x) s).checkCap (prefetchAsk x.a.toNat (x.c.getLsbD 3)) (s.c x.a.toNat) (x.memOff s) 8 = .ok a ∧
    (past (.pf x) s).resolve (prefetchAsk x.a.toNat (x.c.getLsbD 3)) (s.c x.a.toNat).space a 8 = .parts ps ∧
    rows = ps.filter (fun p => isDram p.owner && p.pkind != 3) ∧ (past (.pf x) s).hasRoom act Order.none rows = true) ∧
  (∃ x s act st, s.core.act = some act ∧ issues (.pfL32B x) s ∧
    (past (.pfL32B x) s).checkCap (prefetchAsk x.a.toNat false) (s.c x.a.toNat) (s.offset 0 x.imm.toInt) 8 = .error st) :=
  ⟨⟨{ lx with a := 2 }, run, _, _, _, _, rfl, rfl, rfl, rfl, rfl, rfl, rfl⟩,
   ⟨{ bx with a := 5 }, run, _, _, rfl, rfl, rfl⟩⟩

theorem met_CopyCommands :
  (∃ x, ∃ s, ∃ u, ∃ v, ∃ n, ∃ a, ∃ b, ∃ e, ∃ f, u = past (.cpy x) s ∧ issues (.cpy x) s ∧ n = x.copyLength s ∧ n < 2 ^ 32 ∧ u.checkCopy (askCopyRead x.b.toNat) (s.c x.b.toNat) 0 n = .ok a ∧ u.checkCopy (askCopyWrite x.a.toNat) (s.c x.a.toNat) 0 n = .ok b ∧ u.scanPages (askCopyRead x.b.toNat) (pageStarts (s.c x.b.toNat).space a n) = .ok e ∧ v = u.touchPages (pageStarts (s.c x.b.toNat).space a n) ∧ v.scanPages (askCopyWrite x.a.toNat) (pageStarts (s.c x.a.toNat).space b n) = .ok f ∧ (n ≠ 0 → (at_ s.core.copies x.d.toNat { queue := [] }).queue.length < 8)) ∧
  (∃ x, ∃ s, ∃ u, ∃ n, ∃ a, ∃ e, u = past (.cpyHandle x) s ∧ issues (.cpyHandle x) s ∧ n = x.copyLength s ∧ n < 2 ^ 32 ∧ s.core.queueOk.getLsbD x.a.toNat = true ∧ n % oSlotBytes (s.core.queue x.a.toNat) = 0 ∧ u.checkCopy (askCopyRead x.b.toNat) (s.c x.b.toNat) 0 n = .ok a ∧ u.scanPages (askCopyRead x.b.toNat) (pageStarts (s.c x.b.toNat).space a n) = .ok e ∧ (n ≠ 0 → (at_ s.core.copies x.d.toNat { queue := [] }).queue.length < 8)) ∧
  (∃ x, ∃ s, ∃ u, ∃ k, ∃ p, ∃ n, ∃ a, ∃ e, u = past (.cpy4 x) s ∧ issues (.cpy4 x) s ∧ x.sub.getLsbD 0 = true ∧ s.localList (s.g x.c.toNat).toNat 8 24 = .ok k ∧ patternOf ((s.c x.a.toNat).base / 2 ^ 19 * 2 ^ 19) (ofLe (s.bytes k 8)) (ofLe (s.bytes (k + 8) 8)) (ofLe (s.bytes (k + 16) 8)) = some p ∧ n = p.elements * 2 ^ p.elog ∧ n < 2 ^ 32 ∧ u.checkCopy (askCopyRead x.b.toNat) (s.c x.b.toNat) 0 n = .ok a ∧ u.checkPattern (askCopyWrite x.a.toNat) (s.c x.a.toNat) p = .ok () ∧ u.scanPages (askCopyRead x.b.toNat) (pageStarts (s.c x.b.toNat).space a n) = .ok e ∧ (at_ s.core.copies x.d.toNat { queue := [] }).queue.length < 8) ∧
  (∃ x, ∃ s, ∃ u, ∃ k, ∃ p, ∃ n, ∃ b, ∃ e, u = past (.cpy4 x) s ∧ issues (.cpy4 x) s ∧ x.sub.getLsbD 0 = false ∧ s.localList (s.g x.c.toNat).toNat 8 24 = .ok k ∧ patternOf ((s.c x.b.toNat).base / 2 ^ 19 * 2 ^ 19) (ofLe (s.bytes k 8)) (ofLe (s.bytes (k + 8) 8)) (ofLe (s.bytes (k + 16) 8)) = some p ∧ n = p.elements * 2 ^ p.elog ∧ n < 2 ^ 32 ∧ u.checkPattern (askCopyRead x.b.toNat) (s.c x.b.toNat) p = .ok () ∧ u.checkCopy (askCopyWrite x.a.toNat) (s.c x.a.toNat) 0 n = .ok b ∧ u.scanPages (askCopyWrite x.a.toNat) (pageStarts (s.c x.a.toNat).space b n) = .ok e ∧ (at_ s.core.copies x.d.toNat { queue := [] }).queue.length < 8) ∧
  (∃ x, ∃ s, ∃ u, ∃ v, ∃ k, ∃ n, ∃ z, ∃ l, ∃ b, ∃ e, ∃ f, u = past (.cpyg x) s ∧ issues (.cpyg x) s ∧ n = x.hi.toNat / 8 + 1 ∧ z = 2 ^ (x.hi.toNat % 8) ∧ s.localList (s.g x.c.toNat).toNat 4 (4 * n) = .ok k ∧ u.checkElements (askCopyRead x.b.toNat) (s.c x.b.toNat) z ((List.range n).map (fun i => ((ofLe (s.bytes (k + 4 * i) 4) : Nat) : Int))) true = .ok l ∧ u.checkCopy (askCopyWrite x.a.toNat) (s.c x.a.toNat) 0 (n * z) = .ok b ∧ u.scanPages (askCopyRead x.b.toNat) (l.flatMap (fun a => pageStarts (s.c x.b.toNat).space a z)) = .ok e ∧ v = u.touchPages (l.flatMap (fun a => pageStarts (s.c x.b.toNat).space a z)) ∧ v.scanPages (askCopyWrite x.a.toNat) (pageStarts (s.c x.a.toNat).space b (n * z)) = .ok f ∧ (at_ s.core.copies x.d.toNat { queue := [] }).queue.length < 8) :=
  ⟨⟨{ lx with c := 1 }, run.setG 1 64, _, _, _, _, _, _, _, rfl, rfl, rfl, by decide, rfl, rfl, rfl, rfl, rfl, by decide⟩,
   ⟨{ lx with a := 20, c := 1 }, run.setG 1 64, _, 64, _, _, rfl, rfl, rfl, by decide, rfl, rfl, rfl, rfl, by decide⟩,
   ⟨{ lx with a := 1, sub := 1 }, run, _, _, _, _, _, _, rfl, rfl, rfl, rfl, rfl, rfl, by decide, rfl, rfl, rfl, by decide⟩,
   ⟨{ lx with b := 1 }, run, _, _, _, _, _, _, rfl, rfl, rfl, rfl, rfl, rfl, by decide, rfl, rfl, rfl, by decide⟩,
   ⟨lx, run, _, _, _, _, _, _, _, _, _, rfl, rfl, rfl, rfl, rfl, rfl, rfl, rfl, rfl, rfl, by decide⟩⟩

theorem met_StoreTileInstructions :
  (∃ x, ∃ s, ∃ u, ∃ act, ∃ a, ∃ b, ∃ t, u = past (.stcfg x) s ∧ issues (.stcfg x) s ∧ s.core.act = some act ∧ s.g x.c.toNat &&& ~~~ stcfgMask = 0 ∧ u.checkStore { Ask.store x.a.toNat with answers := false } (s.c x.a.toNat) (x.indexB s) 1 = .ok a ∧ a % 65536 = 0 ∧ u.checkStore { Ask.store x.a.toNat with answers := false } (s.c x.a.toNat) (x.indexB s) 65536 = .ok b ∧ s.storeTile s.core (a / 2 ^ 19) = some t ∧ u.hasRoom act Order.none [] = true) ∧
  (∃ x, ∃ s, ∃ u, ∃ act, ∃ a, ∃ t, u = past (.sbufset x) s ∧ issues (.sbufset x) s ∧ s.core.act = some act ∧ u.checkStore { Ask.store x.a.toNat with answers := false } (s.c x.a.toNat) (x.indexB s) 1 = .ok a ∧ s.storeTile s.core (a / 2 ^ 19) = some t ∧ u.hasRoom act Order.none [] = true) ∧
  (∃ x, ∃ s, ∃ u, ∃ act, ∃ a, ∃ t, u = past (.sbufw x) s ∧ issues (.sbufw x) s ∧ s.core.act = some act ∧ u.checkStore { Ask.load x.a.toNat with answers := false } (s.c x.a.toNat) (x.indexB s) 1 = .ok a ∧ s.storeTile s.core (a / 2 ^ 19) = some t ∧ u.stcfgOpen act t = false ∧ (s.getTile t).withdrawn = false ∧ bufferRefusal ((s.getTile t).seg (a / 65536 % 8)) a = none) :=
  ⟨⟨{ lx with a := 1 }, run, _, _, _, _, _, rfl, rfl, rfl, rfl, rfl, rfl, rfl, rfl, rfl⟩,
   ⟨{ lx with a := 1 }, run, _, _, _, _, rfl, rfl, rfl, rfl, rfl, rfl⟩,
   ⟨{ lx with a := 1 }, run.modTile (tilePsn 0 13) (fun t => { t with segCfg := put t.segCfg 0 (BitVec.ofNat 64 (2 ^ 62 + 1023 * 2 ^ 43)) }), _, _, _, _, rfl, rfl, rfl, rfl, rfl, rfl, rfl, rfl⟩⟩

theorem met_DramAccesses :
  (∃ x, ∃ s, ∃ n, ∃ u, ∃ w, ∃ a, ∃ p, ∃ r, u = past (.drd x) s ∧ n = x.hi.toNat % 1024 + 1 ∧ issues (.drd x) s ∧ u.checkGlobal (askDram x.a.toNat 0 false) (s.c x.a.toNat) (x.indexB s) n = .ok a ∧ u.target x.sub.toNat x.d.toNat x.c.toNat n n = .ok r ∧ u.resolve (askDram x.a.toNat 0 false) 3 a n = .parts [p] ∧ isDram p.owner ∧ w = u.touch [p] ∧ w.requestRoom (x.order s) r 1 = .ok ()) ∧
  (∃ x, ∃ s, ∃ n, ∃ u, ∃ v, ∃ w, ∃ y, ∃ a, ∃ p, u = past (.dwr x) s ∧ n = x.hi.toNat % 64 + 1 ∧ issues (.dwr x) s ∧ u.popAll [(x.c.toNat, none)] = .ok v ∧ u.checkGlobal (askDram x.a.toNat 1 true) (s.c x.a.toNat) (x.indexB s) n = .ok a ∧ u.resolve (askDram x.a.toNat 1 true) 3 a n = .parts [p] ∧ isDram p.owner ∧ w = u.touch [p] ∧ w.requestRoom (x.order s) Reply.unit 1 = .ok () ∧ w.popAll [(x.c.toNat, none)] = .ok y) :=
  ⟨⟨{ lx with a := 2 }, run, _, _, _, _, _, _, rfl, rfl, rfl, rfl, rfl, rfl, by decide, rfl, rfl⟩,
   ⟨{ lx with a := 2 }, run, _, _, _, _, _, _, _, rfl, rfl, rfl, rfl, rfl, rfl, by decide, rfl, rfl, rfl⟩⟩

theorem met_DramGather :
  ∃ x, ∃ s, ∃ n, ∃ m, ∃ u, ∃ k, ∃ offs, ∃ as, ∃ ps, ∃ r, u = past (.dgath x) s ∧ n = x.hi.toNat % 128 + 1 ∧ m = x.hi.toNat / 128 % 8 + 1 ∧ issues (.dgath x) s ∧ s.localList (s.g x.b.toNat).toNat 8 (8 * m) = .ok k ∧ offs = (List.range m).map (fun i => signedOf 64 (ofLe (s.bytes (k + 8 * i) 8))) ∧ ((s.c x.a.toNat).tag = true ∧ (s.c x.a.toNat).otype = 0 → (s.c x.a.toNat).space = 3 ∨ (s.c x.a.toNat).space = 5 ∧ s.level = .graph) ∧ u.checkElements (askDram x.a.toNat 0 false) (s.c x.a.toNat) n offs false = .ok as ∧ u.target x.sub.toNat x.d.toNat x.c.toNat n (n * m) = .ok r ∧ u.gatherParts (askDram x.a.toNat 0 false) n (as.zip offs) = .ok (.parts ps) ∧ u.requestRoom (x.order s) r (ps.map (fun p => dramStack p.phys)).eraseDups.length = .ok () :=
  ⟨{ lx with a := 2 }, run, _, _, _, _, _, _, _, _, rfl, rfl, rfl, rfl, rfl, rfl, by decide, rfl, rfl, rfl, rfl⟩

theorem met_FlushAndRowOpen :
  (∃ x, ∃ s, issues (.flush x) s ∧ x.emit = 0) ∧
  (∃ x, ∃ s, ∃ u, u = past (.flush x) s ∧ issues (.flush x) s ∧ x.emit ≠ 0 ∧ u.requestRoom (x.order s) Reply.unit 1 = .ok ()) ∧
  (∃ x, ∃ s, ∃ u, ∃ w, ∃ a, ∃ b, ∃ p, u = past (.rowopen x) s ∧ issues (.rowopen x) s ∧ u.checkGlobal (askDram x.a.toNat 6 true) (s.c x.a.toNat) (x.indexB s) 1 = .ok a ∧ a % 1024 = 0 ∧ u.checkGlobal (askDram x.a.toNat 6 true) (s.c x.a.toNat) (x.indexB s) 1024 = .ok b ∧ u.resolve (askDram x.a.toNat 6 true) 3 b 1024 = .parts [p] ∧ isDram p.owner ∧ w = u.touch [p] ∧ w.requestRoom (x.order s) Reply.unit 1 = .ok ()) :=
  ⟨⟨lx, run, rfl, rfl⟩,
   ⟨{ lx with emit := 1 }, run, _, rfl, rfl, by decide, rfl⟩,
   ⟨{ lx with a := 2 }, run, _, _, _, _, _, rfl, rfl, rfl, rfl, rfl, rfl, by decide, rfl, rfl⟩⟩

theorem met_LineRequests :
  (∃ e ∈ [(Instr.rowhold, 4, AccKind.load, true), (Instr.rowrel, 5, AccKind.store, false), (Instr.rowstat, 8, AccKind.load, true)], ∃ x, ∃ s, issues (e.1 x) s ∧ fld (s.g x.a.toNat) 63 16 = 0 ∧ (past (e.1 x) s).requestRoom (x.order s) Reply.unit 1 = .ok ()) ∧
  (∃ x, ∃ s, ∃ n, ∃ u, ∃ r, u = past (.rowrd x) s ∧ n = x.hi.toNat % 1024 + 1 ∧ issues (.rowrd x) s ∧ fld (s.g x.a.toNat) 63 16 = 0 ∧ (s.g x.b.toNat).toNat + n ≤ 1024 ∧ u.target x.sub.toNat x.d.toNat x.c.toNat n n = .ok r ∧ u.requestRoom (x.order s) r 1 = .ok ()) ∧
  (∃ x, ∃ s, ∃ u, ∃ v, ∃ w, u = past (.rowrdv x) s ∧ issues (.rowrdv x) s ∧ u.vland x.d.toNat none 0 64 0 = .ok v ∧ fld (s.g x.a.toNat) 63 16 = 0 ∧ (s.g x.b.toNat).toNat + 64 ≤ 1024 ∧ u.requestRoom (x.order s) Reply.unit 1 = .ok () ∧ u.vland x.d.toNat none (u.vold x.d.toNat) 64 (BitVec.allOnes 64) = .ok w) ∧
  (∃ x, ∃ s, ∃ n, ∃ u, ∃ w, u = past (.rowwr x) s ∧ n = x.hi.toNat % 64 + 1 ∧ issues (.rowwr x) s ∧ u.popAll [(x.c.toNat, none)] = .ok w ∧ fld (s.g x.a.toNat) 63 16 = 0 ∧ (s.g x.b.toNat).toNat + n ≤ 1024 ∧ u.requestRoom (x.order s) Reply.unit 1 = .ok ()) :=
  ⟨⟨_, List.mem_cons_self, lx, run, rfl, rfl, rfl⟩,
   ⟨lx, run, _, _, _, rfl, rfl, rfl, rfl, by decide, rfl, rfl⟩,
   ⟨lx, run, _, _, _, rfl, rfl, rfl, rfl, by decide, rfl, rfl⟩,
   ⟨lx, run, _, _, _, rfl, rfl, rfl, rfl, rfl, by decide, rfl⟩⟩

theorem met_StreamInstructions :
  (∃ x, ∃ s, ∃ u, ∃ k, ∃ w, u = past (.scfg x) s ∧ issues (.scfg x) s ∧ s.slotKept x.d.toNat = false ∧ s.slotClosing x.d.toNat = false ∧ s.bound x.d.toNat = none ∧ s.localList (s.g x.a.toNat).toNat 8 32 = .ok k ∧ w = (fun i => ofLe (s.bytes (k + 8 * i) 8)) ∧ isScalar (BitVec.ofNat 4 (w 0 / 2 ^ 59)) = true ∧ w 0 / 2 ^ 48 % 2 ^ 11 = 0 ∧ w 3 = 0) ∧
  (∃ x, ∃ s, ∃ u, ∃ act, ∃ st, ∃ lo, ∃ hi, ∃ tile, ∃ (v : State), u = past (.sbind x) s ∧ issues (.sbind x) s ∧ s.core.act = some act ∧ s.slotKept x.d.toNat = false ∧ at_ s.core.streams x.d.toNat none = some st ∧ st.bound = false ∧ (st.output = true → s.gone (x.order s).after = true) ∧ u.checkCopy (streamAsk st x.b.toNat) (s.c x.b.toNat) st.reach.1 st.bytes = .ok lo ∧ u.checkCopy (streamAsk st x.b.toNat) (s.c x.b.toNat) st.reach.2 st.bytes = .ok hi ∧ lo % st.bytes = 0 ∧ ((s.c x.b.toNat).space = 1 → s.streamSegments lo (hi + st.bytes - 1) = true) ∧ tile = (if (s.c x.b.toNat).space = 1 then s.storeTile s.core (lo / 2 ^ 19) else none) ∧ (∀ t, tile = some t → (s.getTile t).generators.length < 4) ∧ v = (match tile with | some t => u.modTile t (fun y => { y with generators := y.generators ++ [s.nextId] }) | none => u).launchItem (.command s.core.psn act.serial)) ∧
  (∃ x, ∃ s, ∃ u, ∃ act, ∃ st, u = past (.sunbind x) s ∧ issues (.sunbind x) s ∧ s.core.act = some act ∧ s.bound x.d.toNat = some st ∧ (st.output = false → s.gone (x.order s).after = true)) ∧
  (∃ x, ∃ s, ∃ u, ∃ b, ∃ st, ∃ a, u = past (.spredAttach x) s ∧ issues (.spredAttach x) s ∧ s.slotKept x.d.toNat = false ∧ b = (s.g x.b.toNat).toNat ∧ at_ s.core.streams x.d.toNat none = some st ∧ st.bound = false ∧ st.pred = none ∧ (st.output = true → b % 8 = 0) ∧ u.checkCopy (streamAsk st x.a.toNat) (s.c x.a.toNat) ((b / 8 : Nat) : Int) ((b + st.total - 1) / 8 + 1 - b / 8) = .ok a) ∧
  (∃ x, ∃ s, ∃ st, issues (.spredRead x) s ∧ s.bound x.a.toNat = some st ∧ (elemBits st.ty = 8 → x.d.toNat % 2 = 0)) ∧
  (∃ x, ∃ s, ∃ st, issues (.spos x) s ∧ s.bound x.a.toNat = some st) :=
  ⟨⟨lx, run, _, _, _, rfl, rfl, rfl, rfl, rfl, rfl, rfl, rfl, rfl, rfl⟩,
   ⟨lx, bindable, _, _, _, _, _, _, _, rfl, rfl, rfl, rfl, rfl, rfl, (fun h => by cases h), rfl, rfl, rfl, (fun h => by cases h), rfl, (fun t h => by cases h), rfl⟩,
   ⟨lx, streaming, _, _, _, rfl, rfl, rfl, rfl, by decide⟩,
   ⟨lx, bindable, _, 0, _, _, rfl, rfl, rfl, rfl, rfl, rfl, rfl, (fun h => by cases h), rfl⟩,
   ⟨lx, streaming, _, rfl, rfl, fun _ => rfl⟩,
   ⟨lx, streaming, _, rfl, rfl⟩⟩

theorem met_StreamPops :
  (∃ (s : State), ∃ n, s.bound n = none) ∧
  (∃ (s : State), ∃ n, ∃ size, ∃ (st : Stream), s.bound n = some st ∧ st.output = false ∧ (size = none ∨ size = some (elemBits st.ty)) ∧ st.position < st.total ∧ st.vl ≤ st.fetched.length ∧ st.cap.space ≠ 1) :=
  ⟨⟨run, 0, rfl⟩,
   ⟨streaming, 0, none, _, rfl, rfl, Or.inl rfl, by decide, by decide, by decide⟩⟩

theorem met_VectorLanes :
  (∃ e ∈ laneForms, ∃ x, ∃ s, ∃ t, issues (e.1 x) s ∧ governorsWritten x (past (e.1 x) s) ∧ (past (e.1 x) s).popAll (e.2.1 x) = .ok t) ∧
  (∃ x, ∃ s, ∃ t, issues (.vsel x) s ∧ governorsWritten x (past (.vsel x) s) ∧ (x.width = 8 → s.core.isPending (.p (x.c.toNat + 1)) = false) ∧ (past (.vsel x) s).popAll x.srcAB = .ok t) :=
  ⟨⟨_, List.mem_cons_self, lx, run, _, rfl, ⟨rfl, fun _ => rfl⟩, rfl⟩,
   ⟨lx, run, _, rfl, ⟨rfl, fun _ => rfl⟩, fun _ => rfl, rfl⟩⟩

theorem met_VectorReductions :
  (∃ x, ∃ s, ∃ t, issues (.vcmp x) s ∧ governorsWritten x (past (.vcmp x) s) ∧ (x.width = 8 → s.core.isPending (.p (x.d.toNat % 8 + 1)) = false) ∧ (past (.vcmp x) s).popAll x.srcAB = .ok t) ∧
  (∃ x, ∃ s, ∃ t, issues (.vmovmExtract x) s ∧ (past (.vmovmExtract x) s).popAll x.srcA1 = .ok t) ∧
  (∃ x, ∃ s, issues (.vmovmInsert x) s ∧ s.bound x.d.toNat = none) ∧
  (∃ x, ∃ s, ∃ t, issues (.vred x) s ∧ governorsWritten x (past (.vred x) s) ∧ (past (.vred x) s).popAll x.srcA1 = .ok t) ∧
  (∃ x, ∃ s, ∃ t, issues (.vdot x) s ∧ governorsWritten x (past (.vdot x) s) ∧ (past (.vdot x) s).popAll x.srcAB = .ok t) :=
  ⟨⟨lx, run, _, rfl, ⟨rfl, fun _ => rfl⟩, fun _ => rfl, rfl⟩,
   ⟨lx, run, _, rfl, rfl⟩,
   ⟨lx, run, rfl, rfl⟩,
   ⟨lx, run, _, rfl, ⟨rfl, fun _ => rfl⟩, rfl⟩,
   ⟨lx, run, _, rfl, ⟨rfl, fun _ => rfl⟩, rfl⟩⟩

theorem met_VectorConversions :
  (∃ x, ∃ s, ∃ t, ∃ (y : TyCode), issues (.vcvt x) s ∧ governorsWritten x (past (.vcvt x) s) ∧ y = x.c.extractLsb' 0 4 ∧ (past (.vcvt x) s).popAll [(x.a.toNat, some (elemBits y))] = .ok t ∧ t.bound x.d.toNat = none) ∧
  (∃ x, ∃ s, ∃ t, issues (.vpack x) s ∧ x.ty = 15 ∧ fld (s.g x.c.toNat) 63 20 = 0 ∧ (past (.vpack x) s).popAll [(x.a.toNat, some 32)] = .ok t ∧ t.bound x.d.toNat = none) ∧
  (∃ x, ∃ s, ∃ t, ∃ (y : TyCode), issues (.vpack x) s ∧ x.ty ≠ 15 ∧ y = x.c.extractLsb' 0 4 ∧ (past (.vpack x) s).popAll [(x.a.toNat, some (elemBits y))] = .ok t ∧ t.bound x.d.toNat = none) ∧
  (∃ x, ∃ s, ∃ t, ∃ (y : TyCode), ∃ b, ∃ value, issues (.vunpack x) s ∧ y = x.c.extractLsb' 0 4 ∧ (past (.vunpack x) s).popAll [(x.a.toNat, some 0)] = .ok t ∧ b = (t.vin x.a.toNat).toNat ∧ (x.flg = 1 → blockReason b y = none) ∧ t.bound x.d.toNat = none ∧ value = (fun i => if x.flg = 1 then blockValue b (16 * x.b.toNat + i) else sxValue y 0 (b / 256 ^ (sxBytes y * x.b.toNat) % 256 ^ sxBytes y) i)) :=
  ⟨⟨lx, run, _, _, rfl, ⟨rfl, fun _ => rfl⟩, rfl, rfl, rfl⟩,
   ⟨{ lx with hi := 0xF00 }, run, _, rfl, rfl, rfl, rfl, rfl⟩,
   ⟨lx, run, _, _, rfl, by decide, rfl, rfl, rfl⟩,
   ⟨lx, run, _, _, _, _, rfl, rfl, rfl, rfl, (fun h => by cases h), rfl, rfl⟩⟩

theorem met_VectorLoads :
  (∃ x, ∃ y, ∃ s, ∃ act, ∃ as, ∃ ps, ∃ m ∈ [runLoad x, runLoadShort y], m.runs s ∧ s.core.act = some act ∧ act.resumed = none ∧ m.reaches (Ask.load m.cap) s as ps ∧ (m.consume = true → (s.c m.cap).space = 1 ∧ (past m.instr s).consumeReady (Ask.load m.cap) (s.c m.cap) (m.off s) (as.getD 0 0) = .ok ()) ∧ ∃ v, ∃ l, ∃ t, m.n = 1 ∧ (past m.instr s).vland m.d none 0 64 0 = .ok v ∧ ((past m.instr s).touch ps).vland m.d none 0 64 (BitVec.allOnes 64) = .ok (l, t) ∧ t.core.act = some act ∧ t.hasRoom act (m.order s) ps = true ∧ readable t ps) ∧
  (∃ x, ∃ y, ∃ s, ∃ act, ∃ as, ∃ ps, ∃ m ∈ [runLoad x, runLoadShort y], m.runs s ∧ s.core.act = some act ∧ act.resumed = none ∧ m.reaches (Ask.load m.cap) s as ps ∧ (m.consume = true → (s.c m.cap).space = 1 ∧ (past m.instr s).consumeReady (Ask.load m.cap) (s.c m.cap) (m.off s) (as.getD 0 0) = .ok ()) ∧ ∃ t, 1 < m.n ∧ t = (List.range m.n).foldl (fun t j => t.setV (m.d + j) 0) ((past m.instr s).touch ps) ∧ t.core.act = some act ∧ t.hasRoom act (m.order s) (ps.map (fun p => { p with place := p.place % 64 })) = true ∧ readable t ps) :=
  ⟨⟨lx, bx, run, _, _, _, runLoad lx, List.mem_cons_self, ⟨rfl, by decide, by decide⟩, rfl, rfl, ⟨rfl, rfl⟩, (fun h => by cases h), _, _, _, rfl, rfl, rfl, rfl, rfl, (fun _ _ _ _ => rfl)⟩,
   ⟨{ lx with c := 8 }, bx, run, _, _, _, runLoad { lx with c := 8 }, List.mem_cons_self, ⟨rfl, by decide, by decide⟩, rfl, rfl, ⟨rfl, rfl⟩, (fun h => by cases h), _, by decide, rfl, rfl, rfl, (fun _ _ _ _ => rfl)⟩⟩

theorem met_VectorStores :
  ∃ x, ∃ y, ∃ s, ∃ act, ∃ as, ∃ ps, ∃ v, ∃ t, ∃ m ∈ [runStore x, runStoreShort y], m.runs s ∧ s.core.act = some act ∧ act.resumed = none ∧ (past m.instr s).popAll [(m.d, none)] = .ok v ∧ m.reaches (Ask.store m.cap) s as ps ∧ ((past m.instr s).touch ps).popAll [(m.d, none)] = .ok t ∧ t.core.act = some act ∧ t.hasRoom act (m.order s) ps = true :=
  ⟨lx, bx, run, _, _, _, _, _, runStore lx, List.mem_cons_self, ⟨rfl, by decide, by decide⟩, rfl, rfl, rfl, ⟨rfl, rfl⟩, rfl, rfl, rfl⟩

theorem met_GathersAndScatters :
  (∃ x, ∃ s, ∃ act, ∃ t, ∃ v, ∃ ks, ∃ as, ∃ ps, ∃ l, ∃ w, issues (.vldg x) s ∧ governorsWritten x (past (.vldg x) s) ∧ s.core.act = some act ∧ act.resumed = none ∧ (past (.vldg x) s).popAll [(x.b.toNat, some 32)] = .ok t ∧ t.vland x.d.toNat (some x.width) 0 64 0 = .ok v ∧ ks = gatherLanes x t ∧ t.checkAligned (askGather x.a.toNat) (t.c x.a.toNat) (x.width / 8) (ks.map (gatherOffset x t)) = .ok as ∧ t.resolveAll (askGather x.a.toNat) (t.c x.a.toNat).space ((as.zip ks).map (fun e => (e.1, x.width / 8 * e.2, x.width / 8))) = .parts ps ∧ (t.touch ps).vland x.d.toNat (some x.width) (BitVec.ofNat 512 (packLanes x.width (lanes x.ty) (fun k => if ks.contains k || x.zero then 0 else laneOf x.width (t.vold x.d.toNat) k))) (x.width / 8 * ks.length) (laneMask 64 ks.contains) = .ok (l, w) ∧ w.core.act = some act ∧ w.hasRoom act (x.order t) ps = true ∧ readable w ps) ∧
  (∃ x, ∃ s, ∃ act, ∃ t, ∃ ks, ∃ as, ∃ ps, ∃ kept, issues (.vsts x) s ∧ governorsWritten x (past (.vsts x) s) ∧ s.core.act = some act ∧ act.resumed = none ∧ (past (.vsts x) s).popAll [(x.b.toNat, some 32), (x.d.toNat, some x.width)] = .ok t ∧ t.core.act = some act ∧ ks = gatherLanes x t ∧ t.checkAligned (askScatter x.a.toNat) (t.c x.a.toNat) (x.width / 8) (ks.map (gatherOffset x t)) = .ok as ∧ t.resolveAll (askScatter x.a.toNat) (t.c x.a.toNat).space ((as.zip ks).map (fun e => (e.1, x.width / 8 * e.2, x.width / 8))) = .parts ps ∧ kept = ps.filter (fun p => ps.all (fun r => r.addr != p.addr || decide (r.place ≤ p.place))) ∧ (t.touch ps).hasRoom act (x.order t) kept = true) :=
  ⟨⟨lx, run, _, _, _, _, _, _, _, _, rfl, ⟨rfl, fun _ => rfl⟩, rfl, rfl, rfl, rfl, rfl, rfl, rfl, rfl, rfl, rfl, (fun _ _ _ _ => rfl)⟩,
   ⟨lx, run, _, _, _, _, _, _, rfl, ⟨rfl, fun _ => rfl⟩, rfl, rfl, rfl, rfl, rfl, rfl, rfl, rfl, rfl⟩⟩

theorem met_AnsweredVectorAccesses :
  (∃ x, ∃ y, ∃ s, ∃ act, ∃ v, s.core.act = some act ∧ act.resumed = some v ∧ ∃ m ∈ [runLoad x, runLoadShort y], m.runs s) ∧
  (∃ x, ∃ y, ∃ s, ∃ act, ∃ v, s.core.act = some act ∧ act.resumed = some v ∧ ∃ m ∈ [runStore x, runStoreShort y], m.runs s) ∧
  (∃ x, ∃ s, ∃ act, ∃ v, s.core.act = some act ∧ act.resumed = some v ∧ issues (.vldg x) s ∧ governorsWritten x (past (.vldg x) s) ∧ ((past (.vldg x) s).consume (x.order s)).bound x.d.toNat = none) ∧
  (∃ x, ∃ s, ∃ act, ∃ v, s.core.act = some act ∧ act.resumed = some v ∧ issues (.vsts x) s ∧ governorsWritten x (past (.vsts x) s)) :=
  ⟨⟨lx, bx, answered, _, _, rfl, rfl, runLoad lx, List.mem_cons_self, ⟨rfl, by decide, by decide⟩⟩,
   ⟨lx, bx, answered, _, _, rfl, rfl, runStore lx, List.mem_cons_self, ⟨rfl, by decide, by decide⟩⟩,
   ⟨lx, answered, _, _, rfl, rfl, rfl, ⟨rfl, fun _ => rfl⟩, rfl⟩,
   ⟨lx, answered, _, _, rfl, rfl, rfl, ⟨rfl, fun _ => rfl⟩⟩⟩

theorem met_AccumulatorZero :
  (∃ x, ∃ s, ∃ m, ∃ t, unitTakes (.mzero x) x 0x200 0 s m ∧ t = ((past (.mzero x) s).setAcc x.d.toNat (Acc.zeroOf (x.sub == 0xB))).claimFor m ∧ runs t) ∧
  (∃ (f : Bool) (z : Acc), z = Acc.zeroOf f) ∧
  (∃ (x : Long), x.sub ≠ 0 ∧ x.sub ≠ 0xB) ∧
  (∃ p0, ∃ p1, ∃ p2, ∃ x, decodeParcels p0 p1 p2 = some (.mzero x)) :=
  ⟨⟨lx, run, _, _, ⟨rfl, rfl, rfl, ⟨_, rfl, rfl⟩, fun _ => rfl⟩, rfl, rfl⟩,
   ⟨true, _, rfl⟩,
   ⟨{ lx with sub := 1 }, by decide, by decide⟩,
   ⟨2050#32, 0#32, 0#32, lx, rfl⟩⟩

theorem met_AccumulatorResults :
  (∃ x, ∃ s, ∃ m, ∃ t, unitTakes (.macc x) x 0x20A 0 s m ∧ x.sub ≠ 1 ∧ (s.core.getAcc x.d.toNat).f64 = (s.core.getAcc x.b.toNat).f64 ∧ ((s.core.getAcc x.d.toNat).f64 = false → x.c.extractLsb' 0 2 = 0) ∧ t = ((past (.macc x) s).setAcc x.d.toNat ((s.core.getAcc x.d.toNat).add (s.core.getAcc x.b.toNat) (x.c.extractLsb' 0 2))).claimFor m ∧ runs t) ∧
  (∃ x, ∃ s, ∃ m, ∃ t, unitTakes (.maccMov x) x 0x20A 0 s m ∧ x.sub = 1 ∧ t = ((past (.maccMov x) s).setAcc x.d.toNat (s.core.getAcc x.b.toNat)).claimFor m ∧ runs t) :=
  ⟨⟨lx, run, _, _, ⟨rfl, rfl, rfl, ⟨_, rfl, rfl⟩, fun _ => rfl⟩, by decide, rfl, (fun _ => rfl), rfl, rfl⟩,
   ⟨{ lx with sub := 1 }, run, _, _, ⟨rfl, rfl, rfl, ⟨_, rfl, rfl⟩, fun _ => rfl⟩, rfl, rfl, rfl⟩⟩

theorem met_MatrixProducts :
  (∃ e ∈ [(Instr.mma, 0x201), (Instr.mmaq, 0x202)], ∃ x, ∃ s, ∃ m, ∃ t, ∃ a, ∃ b, ∃ u, unitTakes (e.1 x) x e.2 2 s m ∧ (s.core.getAcc x.d.toNat).f64 = false ∧ checkPair e.2 m.ca m.cb m.da m.db ((x.hi.toNat + 1) * 16) = .ok () ∧ m.fetch (past (e.1 x) s) = .ok (a, b, u) ∧ t = ((u.setAcc x.d.toNat ((s.core.getAcc x.d.toNat).addProduct a b)).claimFor m).leaveMatOp { m with stage := .computing } (x.order s) ∧ runs t) ∧
  (∃ x, ∃ s, ∃ act, ∃ m, ∃ t, ∃ a, ∃ b, ∃ u, unitTakes (.mmad x) x 0x203 2 s m ∧ s.core.act = some act ∧ s.core.matOps.find? (fun m => m.stage == .stepping && m.serial == act.serial && m.pc == (past (.mmad x) s).pc0 8) = none ∧ (s.core.getAcc x.d.toNat).f64 = true ∧ checkPair 0x203 m.ca m.cb m.da m.db (x.hi.toNat + 1) = .ok () ∧ m.fetch (past (.mmad x) s) = .ok (a, b, u) ∧ t = mmadStep x m a b u ∧ runs t) ∧
  (∃ x, ∃ s, ∃ act, ∃ m, ∃ t, issues (.mmad x) s ∧ s.core.matMode = false ∧ s.core.act = some act ∧ s.core.matOps.find? (fun m => m.stage == .stepping && m.serial == act.serial && m.pc == (past (.mmad x) s).pc0 8) = some m ∧ t = mmadStep x m (m.rows.take 16) (m.rows.drop 16) (past (.mmad x) s) ∧ runs t) :=
  ⟨⟨_, List.mem_cons_self, lx, run, _, _, _, _, _, ⟨rfl, rfl, rfl, ⟨_, rfl, rfl⟩, fun _ => rfl⟩, rfl, rfl, rfl, rfl, rfl⟩,
   ⟨lx, f64mat, _, _, _, _, _, _, ⟨rfl, rfl, rfl, ⟨_, rfl, rfl⟩, fun _ => rfl⟩, rfl, (by rfl), rfl, rfl, (by rfl), rfl, (by rfl)⟩,
   ⟨lx, f64mat.mapCore (fun c => { c with matOps := [stepping] }), _, stepping, _, rfl, rfl, rfl, (by rfl), rfl, rfl⟩⟩

theorem met_MatrixReadouts :
  (∃ x, ∃ s, ∃ act, ∃ m, ∃ t, ∃ acc, ∃ rows, unitTakes (.mread x) x 0x208 1 s m ∧ s.core.act = some act ∧ acc = s.core.getAcc x.b.toNat ∧ (acc.f64 = true → x.sat = false) ∧ dSource m.da < 2 ∧ dTy m.da = 0 ∧ dDesc m.da = false ∧ m.rowParts (past (.mread x) s) acc 0 16 = .ok rows ∧ t = (((past (.mread x) s).writeRows act m.deps rows).2.claimFor m).leaveMatOp { m with writes := ((past (.mread x) s).writeRows act m.deps rows).1, stage := .writing } (x.order s) ∧ runs t) ∧
  (∃ x, ∃ s, ∃ m, ∃ t, ∃ acc, ∃ w, ∃ u, unitTakes (.mread x) x 0x208 1 s m ∧ acc = s.core.getAcc x.b.toNat ∧ (acc.f64 = true → x.sat = false) ∧ dSource m.da = 2 ∧ dTy m.da = 0 ∧ dDesc m.da = false ∧ m.pushRows (past (.mread x) s) acc = .ok (w, u) ∧ t = (u.claimFor m).leaveMatOp { w with stage := .writing } (x.order s) ∧ runs t) ∧
  (∃ x, ∃ s, ∃ m, ∃ acc, ∃ v, unitTakes (.mreadk x) x 0x209 0 s m ∧ acc = s.core.getAcc x.b.toNat ∧ (acc.f64 = true → x.sat = false) ∧ x.width ≠ 64 ∧ s.bound x.d.toNat = none ∧ v = (past (.mreadk x) s).mapCore (fun c => (c.settled (.v x.d.toNat) 0).settled (.v (x.d.toNat + 1)) 0)) ∧
  (∃ x, ∃ s, ∃ m, ∃ acc, ∃ v, unitTakes (.mreadk x) x 0x209 0 s m ∧ acc = s.core.getAcc x.b.toNat ∧ (acc.f64 = true → x.sat = false) ∧ x.width = 64 ∧ s.bound x.d.toNat = none ∧ s.bound (x.d.toNat + 1) = none ∧ v = (past (.mreadk x) s).mapCore (fun c => (c.settled (.v x.d.toNat) 0).settled (.v (x.d.toNat + 1)) 0)) :=
  ⟨⟨lx, run, _, _, _, _, _, ⟨rfl, rfl, rfl, ⟨_, rfl, rfl⟩, fun _ => rfl⟩, rfl, rfl, (fun h => by cases h), by decide, rfl, rfl, rfl, rfl, rfl⟩,
   ⟨lx, outgoing.poke (localKey 0 0) (leBytes 8 (2 * 2 ^ 61)), _, _, _, _, _, ⟨rfl, rfl, rfl, ⟨_, rfl, rfl⟩, fun h => absurd rfl h⟩, rfl, (fun h => by cases h), rfl, rfl, rfl, (by rfl), rfl, (by rfl)⟩,
   ⟨lx, run, _, _, _, ⟨rfl, rfl, rfl, ⟨_, rfl, rfl⟩, fun _ => rfl⟩, rfl, (fun h => by cases h), by decide, rfl, rfl⟩,
   ⟨{ lx with hi := 0xB00 }, run, _, _, _, ⟨rfl, rfl, rfl, ⟨_, rfl, rfl⟩, fun _ => rfl⟩, rfl, (fun h => by cases h), rfl, rfl, rfl, rfl⟩⟩

theorem met_DiagnosticQueue :
  ∃ e ∈ [(Instr.mzero, 0x200, 0), (Instr.mma, 0x201, 2), (Instr.mmaq, 0x202, 2), (Instr.mmad, 0x203, 2), (Instr.mread, 0x208, 1), (Instr.mreadk, 0x209, 0), (Instr.macc, 0x20A, 0), (Instr.maccMov, 0x20A, 0)], ∃ x, ∃ s, ∃ act, ∃ m, ∃ u, ∃ v, ∃ w, ∃ t, issues (e.1 x) s ∧ s.core.act = some act ∧ s.core.matMode = true ∧ (past (e.1 x) s).newMatOp act x e.2.1 e.2.2 = .ok m ∧ (s.core.matOps.filter (·.busy)).length < 4 ∧ u = (((past (e.1 x) s).launchItem (.command s.core.psn act.serial)).leaveTokens (x.order s) [s.nextId]).claimFor m ∧ v = (if e.2.1 = 0x209 then u.setPending (.v x.d.toNat) s.nextId else u) ∧ w = (if e.2.1 = 0x209 ∧ elemBits x.ty = 64 then v.setPending (.v (x.d.toNat + 1)) s.nextId else v) ∧ t = w.addMatOp { m with id := s.nextId } ∧ runs t :=
  ⟨_, List.mem_cons_self, lx, run.mapCore (fun c => { c with matMode := true }), _, _, _, _, _, _, rfl, rfl, rfl, rfl, by decide, rfl, rfl, rfl, rfl, rfl⟩

theorem met_MatrixStatus :
  (∃ x, ∃ s, ∃ act, ∃ acc, ∃ t, issues (.mstat x) s ∧ s.core.act = some act ∧ acc = s.core.getAcc x.b.toNat ∧ s.accClaimed x.b.toNat = false ∧ (s.core.matMode = false → s.core.matOps.any (·.busy) = false) ∧ t = (past (.mstat x) s).setG x.d.toNat (BitVec.ofNat 64 ((act.claims.getLsbD x.b.toNat).toNat * 2 ^ 63 + (s.core.ringClaims.getLsbD x.b.toNat).toNat * 2 ^ 62 + acc.f64.toNat * 2 ^ 61 + s.core.matMode.toNat * 2 ^ 60 + (!acc.f64 && acc.nan != 0).toNat * 2 ^ 59 + (!acc.f64 && acc.pinf != 0).toNat * 2 ^ 58 + (!acc.f64 && acc.ninf != 0).toNat * 2 ^ 57 + (if s.core.matMode then min (s.core.matOps.filter (fun m => m.busy && m.names x.b.toNat)).length 4 else 0) * 2 ^ 46 + acc.progress * 2 ^ 40)) ∧ runs t) ∧
  (∃ x, ∃ s, ∃ act, ∃ t, issues (.mmode x) s ∧ s.core.act = some act ∧ (x.hi.getLsbD 0 = true → s.core.diag = true ∧ act.gang = none) ∧ s.core.matOps.any (fun m => m.busy && m.serial == act.serial) = false ∧ t = ((past (.mmode x) s).mapCore (fun c => { c with matMode := x.hi.getLsbD 0 })).setG x.d.toNat (BitVec.ofNat 64 s.core.matMode.toNat) ∧ runs t) :=
  ⟨⟨lx, run, _, _, _, rfl, rfl, rfl, rfl, (fun _ => rfl), rfl, rfl⟩,
   ⟨lx, run, _, _, rfl, rfl, (fun h => by cases h), rfl, rfl, rfl⟩⟩

theorem met_RingEntries :
  (∃ x, ∃ s, ∃ r, ∃ j, ∃ w, issues (.rmset x) s ∧ ringMemberOf s r ∧ s.core.sealed = false ∧ namesEntry x s j ∧ w = s.g x.a.toNat ∧ fld w 63 46 = 0 ∧ ringFormats.contains (fld w 45 42) = true ∧ mState (s.core.entry j) = 0) ∧
  (∃ x, ∃ s, ∃ r, ∃ j, issues (.rmclr x) s ∧ ringMemberOf s r ∧ s.core.sealed = false ∧ namesEntry x s j) ∧
  (∃ x, ∃ s, ∃ r, issues (.rmclrAll x) s ∧ ringMemberOf s r ∧ s.core.sealed = false) ∧
  (∃ x, ∃ s, ∃ r, issues (.rjoin x) s ∧ ringMemberOf s r ∧ s.core.sealed = false ∧ s.core.leasePend = false ∧ s.core.namedAccs &&& s.foreignClaims s.core = 0) :=
  ⟨⟨lx, ringed, _, _, _, rfl, ⟨rfl, by decide, rfl⟩, rfl, rfl, rfl, rfl, rfl, rfl⟩,
   ⟨lx, ringed, _, _, rfl, ⟨rfl, by decide, rfl⟩, rfl, rfl⟩,
   ⟨lx, ringed, _, rfl, ⟨rfl, by decide, rfl⟩, rfl⟩,
   ⟨lx, ringed, _, rfl, ⟨rfl, by decide, rfl⟩, rfl, rfl, rfl⟩⟩

theorem met_RingInjection :
  ∃ x, ∃ s, ∃ act, ∃ u, ∃ v, ∃ f, ∃ r, ∃ w, ∃ addr, ∃ home, ∃ slot, ∃ rest, ∃ place, ∃ bytes, issues (.rinj x) s ∧ s.core.act = some act ∧ ringMemberOf s r ∧ u = past (.rinj x) s ∧ w = s.g x.c.toNat ∧ fld w 63 27 = 0 ∧ fld w 21 16 ≠ 0 ∧ ringFormats.contains (fld w 25 22) = true ∧ (∀ q ∈ s.core.inject.toList, ¬(recLive q = true ∧ recFam q = bit w 26 ∧ recTag q = fld w 15 0)) ∧ u.checkCap { Ask.load x.a.toNat with answers := false } (s.c x.a.toNat) (s.offset x.b.toNat 0) 2048 = .ok addr ∧ addr % 64 = 0 ∧ (s.c x.a.toNat).space = 1 ∧ s.storeTile s.core (addr / 2 ^ 19) = some home ∧ s.homeTile s.core = some home ∧ addr / 2 ^ 19 = (addr + 2047) / 2 ^ 19 ∧ segMode ((s.getTile home).seg (addr % 2 ^ 19 / 65536)) < 2 ∧ segMode ((s.getTile home).seg ((addr % 2 ^ 19 + 2047) / 65536)) < 2 ∧ s.gone (x.order s).after = true ∧ (s.getTile home).isFull (addr % 2 ^ 19) 2048 = true ∧ 2 ≤ s.openSlots s.core (bit w 26) ∧ s.core.freeSlots (bit w 26) = slot :: rest ∧ (List.range 16).find? (fun i => !recLive (at_ s.core.inject i 0)) = some place ∧ u.readPart act (tileSource home addr) = .ok (bytes, v) ∧ f = v.fillSlot s.core.psn slot 1 (makeHdr (bit w 26) s.core.opnum (fld w 21 16) (fld w 25 22) (fld w 15 0) s.core.name) bytes :=
  ⟨{ lx with a := 1, c := 1 }, (ringed.setG 1 65536), _, _, _, _, _, _, _, _, _, _, _, _, rfl, rfl, ⟨rfl, by decide, rfl⟩, rfl, rfl, rfl, by decide, rfl, (fun q hq h => by cases (no_record q hq).symm.trans h.1), rfl, rfl, rfl, rfl, rfl, rfl, by decide, by decide, rfl, rfl, by decide, rfl, rfl, rfl, rfl⟩

theorem met_RingMembership :
  (∃ x, ∃ s, ∃ r, ∃ m, ∃ missing, ∃ u, issues (.relight x) s ∧ ringMemberOf s r ∧ u = past (.relight x) s ∧ m = s.core.entry x.hi.toNat ∧ missing = [false, true].filter (fun w => (s.core.residentAt w (mTag m w)).isNone) ∧ ((mState m ≠ 1 ∧ mState m ≠ 3) ∨ missing = [])) ∧
  (∃ x, ∃ s, ∃ r, ∃ m, ∃ missing, ∃ u, issues (.relight x) s ∧ ringMemberOf s r ∧ u = past (.relight x) s ∧ m = s.core.entry x.hi.toNat ∧ missing = [false, true].filter (fun w => (s.core.residentAt w (mTag m w)).isNone) ∧ (mState m = 1 ∨ mState m = 3) ∧ missing ≠ [] ∧ (∀ w ∈ missing, s.reservable s.core w ≠ none)) ∧
  (∃ x, ∃ s, ∃ r, issues (.rdrain x) s ∧ s.ringOf s.core = some r ∧ (s.core.ringState = 0 ∨ 3 ≤ s.core.ringState) ∧ s.ringCompleting r = false) ∧
  (∃ x, ∃ s, ∃ r, ∃ left, ∃ q, ∃ u, issues (.rleave x) s ∧ u = past (.rleave x) s ∧ s.ringOf s.core = some r ∧ s.core.ringState = 0 ∧ (∀ j, j < 64 → mState (s.core.entry j) = 0) ∧ (∀ q ∈ s.core.inject.toList, recLive q = false) ∧ r.leavers.contains s.core.psn = false ∧ q = { r with leavers := r.leavers ++ [s.core.psn] } ∧ left = r.members.length - (r.leavers.length + 1)) ∧
  (∃ x, ∃ s, ∃ u, issues (.rstat x) s ∧ u = past (.rstat x) s ∧ s.ringOf s.core = none) ∧
  (∃ x, ∃ s, ∃ u, issues (.rstat x) s ∧ u = past (.rstat x) s ∧ ∃ r, s.ringOf s.core = some r ∧ x.hi.toNat = 0) ∧
  (∃ x, ∃ s, ∃ u, issues (.rstat x) s ∧ u = past (.rstat x) s ∧ ∃ r, s.ringOf s.core = some r ∧ x.hi.toNat = 1) ∧
  (∃ x, ∃ s, ∃ u, issues (.rstat x) s ∧ u = past (.rstat x) s ∧ ∃ r, s.ringOf s.core = some r ∧ x.hi.toNat = 2) ∧
  (∃ x, ∃ s, ∃ u, issues (.rstat x) s ∧ u = past (.rstat x) s ∧ ∃ r, s.ringOf s.core = some r ∧ x.hi.toNat = 3) :=
  ⟨⟨lx, ringed, _, _, _, _, rfl, ⟨rfl, by decide, rfl⟩, rfl, rfl, rfl, by decide⟩,
   ⟨lx, armed, _, _, _, _, rfl, ⟨rfl, by decide, rfl⟩, rfl, rfl, rfl, (by decide +kernel), by decide, by decide⟩,
   ⟨lx, ringed, _, rfl, rfl, by decide, rfl⟩,
   ⟨lx, ringed, _, _, _, _, rfl, rfl, rfl, (by decide +kernel), (by decide +kernel), (fun q h => no_record q h), (by decide +kernel), rfl, rfl⟩,
   ⟨lx, run, _, rfl, rfl, rfl⟩,
   ⟨lx, ringed, _, rfl, rfl, _, rfl, rfl⟩,
   ⟨{ lx with hi := 1 }, ringed, _, rfl, rfl, _, rfl, rfl⟩,
   ⟨{ lx with hi := 2 }, ringed, _, rfl, rfl, _, rfl, rfl⟩,
   ⟨{ lx with hi := 3 }, ringed, _, rfl, rfl, _, rfl, rfl⟩⟩

theorem met_NameRegisters :
  (∃ s, ∃ region, region < 80 ∧ ¬ regionInUse s region) ∧
  (∃ s, ∃ region, region < 80 ∧ regionInUse s region) ∧
  (∃ (s : State), ∃ region, ∃ n, ∃ p, region < 80 ∧ p = corePsn region (fld (s.getRegion region).dirSel 8 0) ∧ isGridCore p = true ∧ psnRegion p = region ∧ psnIndex p < 288 ∧ (s.getCore p).live = true ∧ (s.getCore p).act = none ∧ s.nameOk region p n = true) ∧
  (∃ (s : State), ∃ region, ∃ n, ∃ p, region < 80 ∧ p = corePsn region (fld (s.getRegion region).dirSel 8 0) ∧ s.nameOk region p n = false) ∧
  (∃ (s : State) (addr : BitVec 40) (data : List Byte), addr.toNat % 8 = 0 ∧ data.length = 8 ∧ ctrlExists addr.toNat = true ∧
    ctrlDenied .firmware true addr.toNat 8 = false ∧ (∀ p, ctrlPlace addr.toNat = some p → s.gated p = false)) :=
  ⟨⟨State.reset, 0, by decide, (by unfold regionInUse; decide +kernel)⟩,
   ⟨run.modRegion 0 (fun r => { r with tombs := [tomb0] }), 0, by decide, Or.inr ⟨tomb0, List.mem_cons_self, by decide +kernel⟩⟩,
   ⟨State.reset, 0, 0xFFFFFF, _, by decide, rfl, rfl, rfl, by decide, rfl, rfl, rfl⟩,
   ⟨run, 0, 0x3FFFE, _, by decide, rfl, rfl⟩,
   ⟨run, 0, List.replicate 8 0, rfl, rfl, rfl, rfl, fun _ h => by cases h; rfl⟩⟩

theorem met_MessageRouting :
  (∃ (s : State), ∃ id, ∃ (m : Msg), ∃ (k : Msg), ∃ u, ∃ port, s.msg id = some m ∧ m.stage = .router ∧ s.first id m = true ∧ s.whole m = true ∧ isAgentName m.dest = false ∧ m.flood = none ∧ u = learned s m ∧ k = numbered s m ∧ ((s.getRouter m.tile).learn s.tsc.toNat m.port m.name).lookup s.tsc.toNat m.dest = some port ∧ port = 0 ∧ u.takesName m.tile m.dest = true) ∧
  (∃ (s : State), ∃ id, ∃ (m : Msg), ∃ (k : Msg), ∃ u, ∃ port, ∃ t, s.msg id = some m ∧ m.stage = .router ∧ s.first id m = true ∧ s.whole m = true ∧ isAgentName m.dest = false ∧ m.flood = none ∧ u = learned s m ∧ k = numbered s m ∧ ((s.getRouter m.tile).learn s.tsc.toNat m.port m.name).lookup s.tsc.toNat m.dest = some port ∧ port ≠ 0 ∧ neighbour m.tile port = some t ∧ (s.getRouter m.tile).cut.contains port = false ∧ u.laneOpen m.tile port k.nextLane k.flits = true) ∧
  (∃ (s : State), ∃ id, ∃ (m : Msg), ∃ hops, s.msg id = some m ∧ m.stage = .router ∧ s.first id m = true ∧ s.whole m = true ∧ isAgentName m.dest = false ∧ m.flood = some hops ∧ (s.getRouter m.tile).floods.contains m.identity = true) ∧
  (∃ (s : State), ∃ id, ∃ (m : Msg), ∃ u, ∃ v, s.msg id = some m ∧ m.stage = .local ∧ s.first id m = true ∧ s.whole m = true ∧ s.gated m.tile = false ∧ u = s.touchCluster m.tile ∧ (u.getCore m.tile).name = m.dest ∧ u.bounceReason m.tile m = none ∧ m.handle < 19 ∧ m.reply = false ∧ v = u.leaveBuffer m ∧ v.awaitsMarker m.tile m = false ∧ m.seq = (v.getCore m.tile).expected m.handle m.name) ∧
  (∃ (s : State), ∃ id, ∃ (m : Msg), ∃ u, s.msg id = some m ∧ m.stage = .local ∧ s.first id m = true ∧ s.whole m = true ∧ s.gated m.tile = false ∧ u = s.touchCluster m.tile ∧ (u.getCore m.tile).name ≠ m.dest ∧ isAgentName m.dest = false ∧ u.takesName m.tile m.dest = false) ∧
  (∃ (s : State), ∃ id, ∃ (m : Msg), ∃ hops, s.msg id = some m ∧ m.stage = .lantern ∧ m.flood = some hops ∧ m.isFaultMessage = false ∧ s.holder m.region m.dest = none ∧ s.tombFor m.region m.dest = none) ∧
  (∃ (s : State), ∃ id, ∃ (m : Msg), ∃ u, ∃ o, s.msg id = some m ∧ m.stage = .bounced ∧ m.reply = false ∧ m.eos = false ∧ isGridCore m.src = true ∧ (s.getCore m.src).unsent.length < 4 ∧ u = s.finish id m ∧ 20 ≤ o ∧ o < 32 ∧ (∀ k, 20 ≤ k → k < 32 → (((u.getCore m.src).queueOk.getLsbD k = true ∧ oDest ((u.getCore m.src).queue k) = m.dest ∧ oHandle ((u.getCore m.src).queue k) = m.handle) ↔ k = o))) ∧
  (∃ (s : State), ∃ id, ∃ (m : Msg), ∃ t, s.msg id = some m ∧ m.stage = .local ∧ s.first id m = true ∧ s.whole m = true ∧ (s.getRegion m.region).tombs.find? (fun t => t.core == m.tile && t.name == m.dest && decide (s.tsc.toNat < t.until_)) = some t) ∧
  (∃ (s : State), ∃ core, ∃ t, (s.getRegion (psnRegion core)).tombs.find? (·.core == core) = some t ∧ t.until_ ≤ s.tsc.toNat ∧ t.next = [] ∧ (s.getCore t.target).moved = []) ∧
  (∃ (s : State), ∃ id, ∃ asker, ∃ old, ∃ source, ∃ t, s.item id = some (.markerRequest asker old source) ∧ (s.getRegion (psnRegion old)).tombs.find? (·.core == old) = some t ∧ t.marked.contains source = false ∧ (∀ i ∈ s.flight, ∀ m, i.body = .message m → ¬ (m.stage = .local ∧ m.tile = old ∧ m.dest = t.name ∧ m.name = source))) ∧
  (∃ (s : State), ∃ id, ∃ p, ∃ source, ∃ next, s.item id = some (.marker p source next)) :=
  ⟨⟨((told { msg0 with stage := .router }).putRouter 0 { Router.reset with table := [(0, 0, 0)] }), 1, _, _, _, 0, rfl, rfl, rfl, rfl, rfl, rfl, rfl, rfl, rfl, rfl, rfl⟩,
   ⟨((told { msg0 with stage := .router, port := 0 }).putRouter 0 { Router.reset with table := [(1, 0, 0)] }), 1, _, _, _, 1, _, rfl, rfl, rfl, rfl, rfl, rfl, rfl, rfl, rfl, by decide, rfl, rfl, rfl⟩,
   ⟨(told { msg0 with stage := .router, flood := some 3 }).putRouter 0 { Router.reset with floods := [msg0.identity] }, 1, _, _, rfl, rfl, rfl, rfl, rfl, rfl, rfl⟩,
   ⟨queueing 0 (BitVec.ofNat 128 (1 * 2 ^ 127 + 7 * 2 ^ 96)) (told { msg0 with stage := .local, name := 1, seq := 0, payload := List.replicate 32 0 }), 1, _, _, _, rfl, rfl, rfl, rfl, rfl, rfl, rfl, rfl, by decide, rfl, rfl, rfl, rfl⟩,
   ⟨(told { msg0 with stage := .local, dest := 9 }), 1, _, _, rfl, rfl, rfl, rfl, (by decide +kernel), rfl, by decide, rfl, rfl⟩,
   ⟨(told { msg0 with stage := .lantern, dest := 900, flood := some 3 }), 1, _, _, rfl, rfl, rfl, rfl, (by decide +kernel), rfl⟩,
   ⟨(told { msg0 with stage := .bounced }).mapCore (fun c => { c with queueOk := 0x100000#32 }), 1, _, _, 20, rfl, rfl, rfl, rfl, rfl, by decide, (by rfl), by decide, by decide, (by intro k h1 h2; revert h1; revert h2; revert k; decide +kernel)⟩,
   ⟨((told { msg0 with stage := .local, dest := 5 }).modRegion 0 (fun r => { r with tombs := [tomb0] })), 1, _, _, rfl, rfl, rfl, rfl, rfl⟩,
   ⟨(run.modRegion 0 (fun r => { r with tombs := [{ tomb0 with until_ := 0 }] })), 0, _, rfl, by decide, rfl, rfl⟩,
   ⟨((having (.markerRequest 1 0 7)).modRegion 0 (fun r => { r with tombs := [tomb0] })), 1, _, _, _, _, rfl, rfl, rfl, (fun i hi m hm => by cases hi with | head => cases hm | tail _ h => cases h)⟩,
   ⟨having (.marker 0 7 []), 1, _, _, _, rfl⟩⟩

theorem met_QueueArrivals :
  (∃ (s : State), ∃ id, ∃ (m : Msg), ∃ q, ∃ place, s.msg id = some m ∧ m.stage = .accepted ∧ m.handle < 19 ∧ m.eos = false ∧ m.reply = true ∧ q = (s.getCore m.tile).queue m.handle ∧ qProducers q = 1 ∧ place = qArrived q % qDepth q ∧ ((s.getCore m.tile).arrivals.filter (·.1 == m.handle)).length < qDepth q ∧ s.replyFirst id m.tile m.chans = true) ∧
  (∃ (s : State), ∃ id, ∃ (m : Msg), ∃ q, ∃ k, ∃ place, s.msg id = some m ∧ m.stage = .accepted ∧ m.handle < 19 ∧ m.eos = false ∧ m.reply = false ∧ q = (s.getCore m.tile).queue m.handle ∧ (s.getCore m.tile).producerOf m.handle m.name = some k ∧ qProducers q ≠ 1 ∧ place = (((s.getCore m.tile).producers m.handle)[k]?.map (·.filled)).getD 0 % (qDepth q / qProducers q) ∧ ((s.getCore m.tile).arrivals.filter (·.1 == m.handle)).length < qDepth q ∧ s.channelFirst m = true) ∧
  (∃ (s : State), ∃ id, ∃ (m : Msg), s.msg id = some m ∧ m.stage = .accepted ∧ m.handle < 19 ∧ m.eos = true ∧ s.channelFirst m = true) ∧
  (∃ (s : State), ∃ id, ∃ p, ∃ h, ∃ n, s.item id = some (.credit p h n)) ∧
  (∃ (s : State), ∃ core, ∃ h, ∃ deps, ∃ q, ∃ a, ∃ data, isGridCore core = true ∧ 20 ≤ h ∧ h ≤ 31 ∧ (s.getCore core).staged.find? (·.1 == h) = some (h, false, deps) ∧ s.gone deps = true ∧ oCredits ((s.getCore core).queue h) ≠ 0 ∧ (s.getCore core).snuffed = false ∧ (s.getCore core).halting = false ∧ q = (s.getCore core).queue h ∧ a = oBase q + oSent q % oDepth q * oSlotBytes q ∧ data = s.bytes (localKey core a) (oSlotBytes q) ∧ s.canRead core (localKey core a) (oSlotBytes q) = true) ∧
  (∃ (s : State), ∃ id, ∃ (m : Msg), s.msg id = some m ∧ m.stage = .accepted ∧ m.handle = 19 ∧ hValid ((s.getCore m.tile).handler 19) = false ∧ numAt m.payload 0 1 ≠ 1) ∧
  (∃ (s : State), ∃ id, ∃ (m : Msg), ∃ q, ∃ place, s.msg id = some m ∧ m.stage = .accepted ∧ m.handle = 19 ∧ hValid ((s.getCore m.tile).handler 19) = true ∧ numAt m.payload 0 1 ≠ 1 ∧ q = (s.getCore m.tile).queue 19 ∧ place = qArrived q % qDepth q ∧ ((s.getCore m.tile).arrivals.filter (·.1 == 19)).length < qDepth q) ∧
  (∃ (s : State), ∃ id, ∃ (m : Msg), ∃ ref, s.msg id = some m ∧ m.stage = .accepted ∧ m.handle = 31 ∧ ref = numAt m.payload 8 1 % 128 ∧ ref < 48) ∧
  (∃ (s : State), ∃ id, ∃ (m : Msg), s.msg id = some m ∧ m.stage = .lantern ∧ m.isFaultMessage = true ∧ (s.getRegion m.region).inbox.length < 512) ∧
  (∃ (s : State), ∃ id, ∃ p, ∃ lost, s.item id = some (.snuffnote p lost false) ∧ s.gated p = false) ∧
  (∃ (s : State), ∃ id, ∃ p, ∃ lost, s.item id = some (.snuffnote p lost true) ∧ s.gated p = false) :=
  ⟨⟨told { msg0 with reply := true }, 1, _, _, _, rfl, rfl, by decide, rfl, rfl, rfl, rfl, rfl, by decide, rfl⟩,
   ⟨queueing 0 (BitVec.ofNat 128 (1 * 2 ^ 127 + 7 * 2 ^ 96 + 1 * 2 ^ 113)) (told msg0), 1, _, _, _, _, rfl, rfl, by decide, rfl, rfl, rfl, rfl, by decide, rfl, by decide, rfl⟩,
   ⟨told { msg0 with eos := true }, 1, _, rfl, rfl, by decide, rfl, rfl⟩,
   ⟨having (.credit 0 20 1), 1, _, _, _, rfl⟩,
   ⟨run.mapCore (fun c => { c with staged := [(20, false, [])] }), 0, 20, _, _, _, _, rfl, by decide, by decide, rfl, rfl, by decide, rfl, rfl, rfl, rfl, rfl, rfl⟩,
   ⟨told { msg0 with handle := 19 }, 1, _, rfl, rfl, rfl, rfl, by decide⟩,
   ⟨(told { msg0 with handle := 19 }).mapCore (fun c => { c with handlers := put c.handlers 19 (BitVec.ofNat 128 (2 ^ 127)) }), 1, _, _, _, rfl, rfl, rfl, rfl, by decide, rfl, rfl, by decide⟩,
   ⟨told { msg0 with handle := 31 }, 1, _, _, rfl, rfl, rfl, rfl, by decide⟩,
   ⟨told { msg0 with handle := 30, dest := 0x3FFF1, stage := .lantern }, 1, _, rfl, rfl, rfl, by decide⟩,
   ⟨having (.snuffnote 0 5 false), 1, _, _, rfl, rfl⟩,
   ⟨having (.snuffnote 0 5 true), 1, _, _, rfl, rfl⟩⟩

theorem met_LinkFlowControl :
  (∃ (s : State), ∃ tile, ∃ port, ∃ lane, ∃ l, laneExists tile port lane = true ∧ s.linkCut tile port = false ∧ l = (s.getRouter tile).lane port lane ∧ l.auditDue s.tsc.toNat = true) ∧
  (∃ (s : State), ∃ tile, ∃ port, ∃ lane, ∃ l, laneExists tile port lane = true ∧ s.linkCut tile port = false ∧ l = (s.getRouter tile).lane port lane ∧ ∃ w, ∃ r, ∃ k, w = s.addScore (linkUnit tile port) 64 ∧ r = w.getRouter tile ∧ k = r.lane port lane) ∧
  (∃ (s : State), ∃ tile, ∃ port, ∃ lane, ∃ l, laneExists tile port lane = true ∧ s.linkCut tile port = false ∧ l = (s.getRouter tile).lane port lane ∧ ∃ u, ∃ k, 0 < l.occupancy ∧ u = s.putRouter tile ((s.getRouter tile).setLane { l with received := l.received - 1, occupancy := l.occupancy - 1 }) ∧ k = (u.getRouter tile).lane port lane) ∧
  (∃ (s : State), ∃ id, ∃ tile, ∃ port, ∃ lane, ∃ a, ∃ b, ∃ u, ∃ r, ∃ l, s.item id = some (.audit tile port lane a b) ∧ u = s.dropItem id ∧ u.linkCut tile port = false ∧ r = u.getRouter tile ∧ l = r.lane port lane ∧ l.sent = l.received ∧ l.spent = (l.received - l.freed).toNat) :=
  ⟨⟨run.putRouter 1 (Router.reset.setLane { port := 1, lane := 0, sent := 1, spent := 1, received := 1, freed := 0, occupancy := 1, unaudited := 2 ^ 16, last := 0, idle := false }), 1, 1, 0, _, rfl, rfl, rfl, rfl⟩,
   ⟨run, 1, 1, 0, _, rfl, rfl, rfl, _, _, _, rfl, rfl, rfl⟩,
   ⟨run.putRouter 1 (Router.reset.setLane { port := 1, lane := 0, sent := 1, spent := 1, received := 1, freed := 0, occupancy := 1, unaudited := 2 ^ 16, last := 0, idle := false }), 1, 1, 0, _, rfl, rfl, rfl, _, _, by decide, rfl, rfl⟩,
   ⟨having (.audit 1 1 0 0 0), 1, _, _, _, _, _, _, _, _, rfl, rfl, rfl, rfl, rfl, rfl, (by rfl)⟩⟩

theorem met_TranslationSteps :
  (∃ (s : State), ∃ id, ∃ w, ∃ e, ∃ r, s.item id = some (.l2Request w) ∧ r = s.getRegion (psnRegion w.core) ∧ r.l2.find? (fun e => e.covers w.ctx w.va && (!w.write || leafDirty e.leaf)) = some e) ∧
  (∃ (s : State), ∃ id, ∃ w, ∃ r, s.item id = some (.l2Request w) ∧ r = s.getRegion (psnRegion w.core) ∧ (∀ e ∈ r.l2, e.covers w.ctx w.va = true → w.write = true ∧ leafDirty e.leaf = false) ∧ (∀ k ∈ r.walks, ¬ (k.ctx = w.ctx ∧ k.vpage = w.va / 65536)) ∧ r.walks.length < 64) ∧
  (∃ (r : Region), ∃ a, ∃ (b : Walk), (∀ k ∈ r.walks, k.walker ≠ some a ∧ k.walker ≠ none) ∧ a < 8 ∧ (∀ i < a, ∃ k ∈ r.walks, k.walker = some i) ∧ b.walker = none) ∧
  (∃ (s : State), ∃ region, ∃ i, ∃ k, ∃ w, ∃ leaf, ∃ size, ∃ addr, ∃ lv, ∃ leaf', ∃ u, ∃ v, ∃ entry, region < 80 ∧ i < 8 ∧ (s.getRegion region).walks.find? (fun k => k.walker == some i) = some k ∧ k.waiters = [w] ∧ s.lostEntry region k = none ∧ u = s.modRegion region (fun r => ({ r with walks := r.walks.filter (· != k) } : Region).takeWalk) ∧ lv = levelOf w.core ∧ u.findLeaf region w.ctx w.va = .leaf leaf size addr ∧ leafCause lv leaf w.access w.write w.tagged = none ∧ v = u.readEntries (u.entriesTo region w.ctx w.va (if size = 29 then 1 else 2)) ∧ leaf' = leaf ||| (if w.write then 0x30000 else 0x10000) ∧ entry = Tlb.ofLeaf w.ctx w.va size leaf') ∧
  (∃ (s : State), ∃ region, ∃ i, ∃ k, ∃ w, ∃ level, ∃ cause, ∃ u, ∃ v, region < 80 ∧ i < 8 ∧ (s.getRegion region).walks.find? (fun k => k.walker == some i) = some k ∧ k.waiters = [w] ∧ (∀ x, s.lostEntry region k = some x → s.canNotice x.2 = true) ∧ u = s.modRegion region (fun r => ({ r with walks := r.walks.filter (· != k) } : Region).takeWalk) ∧ v = (match s.lostEntry region k with | some x => (u.noteFatal x.1).coreNotice x.2 .eccfatal (eccDetail x.1 1) | none => u) ∧ v.findLeaf region w.ctx w.va = .bad level cause) ∧
  (∃ (s : State), ∃ id, ∃ w, ∃ e, s.item id = some (.fill w e)) ∧
  (∃ (s : State), ∃ id, ∃ w, ∃ level, ∃ cause, ∃ c, ∃ a, s.item id = some (.fillFault w level cause) ∧ w.unit = 0 ∧ w.access ≠ 10 ∧ c = s.getCore w.core ∧ c.waiting = true ∧ c.act = some a ∧ a.serial = w.serial ∧ a.halted = none) :=
  ⟨⟨((having (.l2Request miss0)).modRegion 0 (fun r => { r with l2 := [page] })), 1, _, _, _, rfl, rfl, rfl⟩,
   ⟨having (.l2Request miss0), 1, _, _, rfl, rfl, (fun e he => by cases he), (fun k hk => by cases hk), by decide⟩,
   ⟨(Region.reset 0), 0, { ctx := 0, vpage := 0, waiters := [] }, (fun _ h => by cases h), by decide, (fun _ h => by cases h), rfl⟩,
   ⟨mapped, 0, 0, _, _, _, _, _, _, _, _, _, _, by decide, by decide, rfl, rfl, rfl, rfl, rfl, rfl, (by rfl), rfl, rfl, rfl⟩,
   ⟨run.modRegion 0 (fun r => { r with walks := [{ ctx := 0, vpage := 0, waiters := [miss0], walker := some 0 }] }), 0, 0, _, _, _, _, _, _, by decide, by decide, rfl, rfl, (fun _ h => by cases h), rfl, rfl, rfl⟩,
   ⟨having (.fill miss0 page), 1, _, _, rfl⟩,
   ⟨(having (.fillFault miss0 0 1)).mapCore (fun c => { c with waiting := true }), 1, _, _, _, _, _, rfl, rfl, by decide, rfl, rfl, rfl, rfl, rfl⟩⟩

theorem met_Invalidation :
  (∃ (s : State), ∃ region, ∃ v, ∃ u, ∃ rs, region < 80 ∧ bit (s.getRegion region).invalStat 0 = false ∧ rs = s.invalRegions region v ∧ u = (s.dropTlbs rs v).modRegion region (fun r => { r with invalStat := setBit r.invalStat 0 true, invalWaits := s.usersOf rs v }) ∧ fld v 63 62 = 0) ∧
  (∃ (s : State), ∃ region, ∃ v, ∃ u, ∃ rs, region < 80 ∧ bit (s.getRegion region).invalStat 0 = false ∧ rs = s.invalRegions region v ∧ u = (s.dropTlbs rs v).modRegion region (fun r => { r with invalStat := setBit r.invalStat 0 true, invalWaits := s.usersOf rs v }) ∧ fld v 63 62 = 1) ∧
  (∃ (s : State), ∃ region, ∃ v, ∃ u, ∃ rs, region < 80 ∧ bit (s.getRegion region).invalStat 0 = false ∧ rs = s.invalRegions region v ∧ u = (s.dropTlbs rs v).modRegion region (fun r => { r with invalStat := setBit r.invalStat 0 true, invalWaits := s.usersOf rs v }) ∧ fld v 63 62 = 2) ∧
  (∃ (s : State) (region : Nat) (v : Word), region < 80 ∧ bit (s.getRegion region).invalStat 0 = true ∧ fld v 63 62 = 0) ∧
  (∃ (s : State) (region : Nat) (v : Word), region < 80 ∧ bit (s.getRegion region).invalStat 0 = true ∧ fld v 63 62 = 1) ∧
  (∃ (s : State) (region : Nat) (v : Word), region < 80 ∧ bit (s.getRegion region).invalStat 0 = true ∧ fld v 63 62 = 2) ∧
  (∃ (s : State), ∃ region, region < 80 ∧ bit (s.getRegion region).invalStat 0 = true ∧ (∀ i ∈ (s.getRegion region).invalWaits, s.userDone i = true)) ∧
  (∃ (v : Word) (e : Tlb), e.ctx = fld v 55 51 ∧ e.vpage = fld v 47 16 ∧ e.size = 16 ∧ fld v 63 62 < 2) :=
  ⟨⟨run, 0, 0#64, _, _, by decide, rfl, rfl, rfl, rfl⟩,
   ⟨run, 0, BitVec.ofNat 64 (2 ^ 62), _, _, by decide, rfl, rfl, rfl, rfl⟩,
   ⟨run, 0, BitVec.ofNat 64 (2 ^ 63), _, _, by decide, rfl, rfl, rfl, rfl⟩,
   ⟨invalidating, 0, BitVec.ofNat 64 (0), by decide, rfl, rfl⟩,
   ⟨invalidating, 0, BitVec.ofNat 64 (2 ^ 62), by decide, rfl, rfl⟩,
   ⟨invalidating, 0, BitVec.ofNat 64 (2 ^ 63), by decide, rfl, rfl⟩,
   ⟨invalidating, 0, by decide, rfl, (fun i hi => by cases hi)⟩,
   ⟨0, page, rfl, rfl, rfl, by decide⟩⟩

theorem met_SplicesAndEvacuation :
  (∃ (s : State), ∃ region, ∃ i, ∃ e, ∃ va, ∃ leaf, ∃ size, ∃ addr, region < 80 ∧ i < 16 ∧ e = at_ (s.getRegion region).splices i 0 ∧ bit e 127 = true ∧ spliceState e = 1 ∧ va = s.spliceVaOf region i ∧ s.findLeaf region (spliceCtx e) va = .leaf leaf size addr ∧ fld e 90 80 < 1024) ∧
  (∃ (s : State), ∃ region, ∃ i, ∃ e, ∃ va, ∃ leaf, ∃ size, ∃ addr, region < 80 ∧ i < 16 ∧ e = at_ (s.getRegion region).splices i 0 ∧ bit e 127 = true ∧ spliceState e = 1 ∧ va = s.spliceVaOf region i ∧ s.findLeaf region (spliceCtx e) va = .leaf leaf size addr ∧ 1024 ≤ fld e 90 80 ∧ bit (s.getRegion region).invalStat 0 = false) ∧
  (∃ (s : State), ∃ region, ∃ i, ∃ e, ∃ va, ∃ leaf, ∃ size, ∃ addr, region < 80 ∧ i < 16 ∧ e = at_ (s.getRegion region).splices i 0 ∧ bit e 127 = true ∧ spliceState e = 2 ∧ bit (s.getRegion region).invalStat 0 = false ∧ va = s.spliceVaOf region i ∧ s.findLeaf region (spliceCtx e) va = .leaf leaf size addr) ∧
  (∃ (s : State), ∃ source, ∃ spare, ∃ e, isTilePsn source = true ∧ isTilePsn spare = true ∧ s.evac source = some e ∧ e.target = spare ∧ e.waits = none ∧ e.done < 8192 ∧ s.canReadTile e.source (64 * e.done) 64 = true) ∧
  (∃ (s : State), ∃ source, ∃ spare, ∃ e, isTilePsn source = true ∧ isTilePsn spare = true ∧ s.evac source = some e ∧ e.target = spare ∧ e.waits = none ∧ e.done = 8192) ∧
  (∃ (s : State), ∃ source, ∃ spare, ∃ e, isTilePsn source = true ∧ isTilePsn spare = true ∧ s.evac source = some e ∧ e.target = spare ∧ ∃ ids, e.waits = some ids ∧ (∀ i ∈ ids, s.userDone i = true)) :=
  ⟨⟨mapped.modRegion 0 (fun r => { r with splices := put r.splices 0 (BitVec.ofNat 128 (2 ^ 127 + 2 ^ 125)) }), 0, 0, _, _, _, _, _, by decide, by decide, rfl, rfl, rfl, rfl, rfl, by decide⟩,
   ⟨mapped.modRegion 0 (fun r => { r with splices := put r.splices 0 (BitVec.ofNat 128 (2 ^ 127 + 2 ^ 125 + 1024 * 2 ^ 80)) }), 0, 0, _, _, _, _, _, by decide, by decide, rfl, rfl, rfl, rfl, rfl, by decide, rfl⟩,
   ⟨mapped.modRegion 0 (fun r => { r with splices := put r.splices 0 (BitVec.ofNat 128 (2 ^ 127 + 2 ^ 126)) }), 0, 0, _, _, _, _, _, by decide, by decide, rfl, rfl, rfl, rfl, rfl, rfl⟩,
   ⟨run.modRegion 0 (fun r => { r with evacs := [{ source := tilePsn 0 13, target := tilePsn 0 14, done := 0, waits := none }] }), tilePsn 0 13, tilePsn 0 14, _, rfl, rfl, rfl, rfl, rfl, by decide, (by decide +kernel)⟩,
   ⟨run.modRegion 0 (fun r => { r with evacs := [{ source := tilePsn 0 13, target := tilePsn 0 14, done := 8192, waits := none }] }), tilePsn 0 13, tilePsn 0 14, _, rfl, rfl, rfl, rfl, rfl, rfl⟩,
   ⟨run.modRegion 0 (fun r => { r with evacs := [{ source := tilePsn 0 13, target := tilePsn 0 14, done := 8192, waits := some [] }] }), tilePsn 0 13, tilePsn 0 14, _, rfl, rfl, rfl, rfl, _, rfl, (fun _ h => by cases h)⟩⟩

theorem met_TileAccesses :
  (∃ (s : State), ∃ id, ∃ a, ∃ t, ∃ off, ∃ u, reachesTile s id a t off u ∧ u.fifoBehind id a = true ∧ u.fifoWaiters t (off / 65536) < 16) ∧
  (∃ (s : State), ∃ id, ∃ a, ∃ t, ∃ off, ∃ u, reachesTile s id a t off u ∧ u.fifoBehind id a = true ∧ 16 ≤ u.fifoWaiters t (off / 65536)) ∧
  (∃ (s : State), ∃ id, ∃ a, ∃ t, ∃ off, ∃ u, ∃ seg, ∃ cfg, ∃ tile, arrivesAtTile s id a t off u ∧ seg = off / 65536 ∧ tile = u.getTile t ∧ cfg = tile.seg seg ∧ (segMode cfg = 0 ∨ (segMode cfg = 1 ∧ off % 65536 + a.size ≤ segUnit cfg * segCount cfg)) ∧ a.kind = .load ∧ u.spoiled (tileKey t off) a.size = false) ∧
  (∃ (s : State), ∃ id, ∃ a, ∃ t, ∃ off, ∃ u, ∃ seg, ∃ cfg, ∃ tile, arrivesAtTile s id a t off u ∧ seg = off / 65536 ∧ tile = u.getTile t ∧ cfg = tile.seg seg ∧ (segMode cfg = 0 ∨ (segMode cfg = 1 ∧ off % 65536 + a.size ≤ segUnit cfg * segCount cfg)) ∧ a.kind = .store) ∧
  (∃ (s : State), ∃ id, ∃ a, ∃ t, ∃ off, ∃ u, ∃ seg, ∃ cfg, ∃ tile, arrivesAtTile s id a t off u ∧ seg = off / 65536 ∧ tile = u.getTile t ∧ cfg = tile.seg seg ∧ segMode cfg = 1 ∧ a.kind ≠ .atomic ∧ ¬ (a.kind = .capStore ∧ a.tagv = true) ∧ segUnit cfg * segCount cfg < off % 65536 + a.size) ∧
  (∃ (s : State), ∃ id, ∃ a, ∃ t, ∃ off, ∃ u, ∃ seg, ∃ cfg, ∃ tile, arrivesAtTile s id a t off u ∧ seg = off / 65536 ∧ tile = u.getTile t ∧ cfg = tile.seg seg ∧ ∃ place, place = tileKey t (seg * 65536 + (at_ tile.head seg 0).toNat % fifoSlots cfg * segUnit cfg) ∧ segMode cfg = 2 ∧ off % 65536 = 0 ∧ a.size = segUnit cfg ∧ a.kind = .load ∧ fifoHeld tile seg ≠ 0 ∧ u.spoiled place a.size = false) ∧
  (∃ (s : State), ∃ id, ∃ a, ∃ t, ∃ off, ∃ u, ∃ seg, ∃ cfg, ∃ tile, arrivesAtTile s id a t off u ∧ seg = off / 65536 ∧ tile = u.getTile t ∧ cfg = tile.seg seg ∧ segMode cfg = 2 ∧ off % 65536 = 0 ∧ a.size = segUnit cfg ∧ a.kind = .store ∧ fifoHeld tile seg < fifoSlots cfg) ∧
  (∃ (s : State), ∃ id, ∃ a, ∃ t, ∃ off, ∃ u, ∃ seg, ∃ cfg, ∃ tile, arrivesAtTile s id a t off u ∧ seg = off / 65536 ∧ tile = u.getTile t ∧ cfg = tile.seg seg ∧ segMode cfg = 2 ∧ off % 65536 = 0 ∧ a.size = segUnit cfg ∧ a.kind = .load ∧ fifoHeld tile seg = 0 ∧ u.fifoWaiters t seg < 16) ∧
  (∃ (s : State), ∃ id, ∃ a, ∃ t, ∃ off, ∃ u, ∃ seg, ∃ cfg, ∃ tile, arrivesAtTile s id a t off u ∧ seg = off / 65536 ∧ tile = u.getTile t ∧ cfg = tile.seg seg ∧ ∃ w, ∃ n, ∃ count, w = segUnit cfg ∧ n = segCount cfg ∧ count = (at_ tile.lcount seg 0).toNat ∧ segMode cfg = 3 ∧ cfgFits cfg = true ∧ a.kind = .store ∧ off % 65536 + a.size ≤ w) ∧
  (∃ (s : State), ∃ id, ∃ a, ∃ t, ∃ off, ∃ u, ∃ seg, ∃ cfg, ∃ tile, arrivesAtTile s id a t off u ∧ seg = off / 65536 ∧ tile = u.getTile t ∧ cfg = tile.seg seg ∧ ∃ w, ∃ n, ∃ count, ∃ j, ∃ b, ∃ place, w = segUnit cfg ∧ n = segCount cfg ∧ count = (at_ tile.lcount seg 0).toNat ∧ j = off % 65536 / w ∧ b = off % 65536 % w ∧ place = tileKey t (seg * 65536 + (((count : Int) - 1 - j) % n).toNat * w + b) ∧ segMode cfg = 3 ∧ cfgFits cfg = true ∧ a.kind = .load ∧ j < n ∧ b + a.size ≤ w ∧ count ≤ j ∧ tile.lineWrap.getLsbD seg = false) ∧
  (∃ (s : State), ∃ id, ∃ a, ∃ t, ∃ off, ∃ u, ∃ seg, ∃ cfg, ∃ tile, arrivesAtTile s id a t off u ∧ seg = off / 65536 ∧ tile = u.getTile t ∧ cfg = tile.seg seg ∧ ∃ w, ∃ n, ∃ count, ∃ j, ∃ b, ∃ place, w = segUnit cfg ∧ n = segCount cfg ∧ count = (at_ tile.lcount seg 0).toNat ∧ j = off % 65536 / w ∧ b = off % 65536 % w ∧ place = tileKey t (seg * 65536 + (((count : Int) - 1 - j) % n).toNat * w + b) ∧ segMode cfg = 3 ∧ cfgFits cfg = true ∧ a.kind = .load ∧ j < n ∧ b + a.size ≤ w ∧ (j < count ∨ tile.lineWrap.getLsbD seg = true) ∧ u.spoiled place a.size = false) :=
  ⟨⟨{ segment 2 acc0 with flight := { id := 1, body := .access acc0 } :: (List.range 1).map (fun n => waiter (n + 2)) }, 1, _, _, _, _, ⟨rfl, rfl, rfl, rfl, rfl, rfl, rfl, rfl, by decide, rfl, by decide, by decide, rfl⟩, rfl, by decide⟩,
   ⟨{ segment 2 acc0 with flight := { id := 1, body := .access acc0 } :: (List.range 16).map (fun n => waiter (n + 2)) }, 1, _, _, _, _, ⟨rfl, rfl, rfl, rfl, rfl, rfl, rfl, rfl, by decide, rfl, by decide, by decide, rfl⟩, rfl, by decide⟩,
   ⟨asked acc0, 1, _, _, _, _, _, _, _, ⟨⟨rfl, rfl, rfl, rfl, rfl, rfl, rfl, rfl, by decide, rfl, by decide, by decide, rfl⟩, rfl⟩, rfl, rfl, rfl, Or.inl rfl, rfl, rfl⟩,
   ⟨asked storing, 1, _, _, _, _, _, _, _, ⟨⟨rfl, rfl, rfl, rfl, rfl, rfl, rfl, rfl, by decide, rfl, by decide, by decide, rfl⟩, rfl⟩, rfl, rfl, rfl, Or.inl rfl, rfl⟩,
   ⟨segment 1 { acc0 with owner := .tile (tilePsn 0 13) 256 }, 1, _, _, _, _, _, _, _, ⟨⟨rfl, rfl, rfl, rfl, rfl, rfl, rfl, rfl, by decide, rfl, by decide, by decide, rfl⟩, rfl⟩, rfl, rfl, rfl, rfl, by decide, by decide, by decide⟩,
   ⟨(segment 2 acc0).modTile (tilePsn 0 13) (fun t => { t with tail := put t.tail 0 1 }), 1, _, _, _, _, _, _, _, ⟨⟨rfl, rfl, rfl, rfl, rfl, rfl, rfl, rfl, by decide, rfl, by decide, by decide, rfl⟩, rfl⟩, rfl, rfl, rfl, _, rfl, rfl, rfl, rfl, rfl, by decide, rfl⟩,
   ⟨segment 2 storing, 1, _, _, _, _, _, _, _, ⟨⟨rfl, rfl, rfl, rfl, rfl, rfl, rfl, rfl, by decide, rfl, by decide, by decide, rfl⟩, rfl⟩, rfl, rfl, rfl, rfl, rfl, rfl, rfl, by decide⟩,
   ⟨segment 2 acc0, 1, _, _, _, _, _, _, _, ⟨⟨rfl, rfl, rfl, rfl, rfl, rfl, rfl, rfl, by decide, rfl, by decide, by decide, rfl⟩, rfl⟩, rfl, rfl, rfl, rfl, rfl, rfl, rfl, rfl, by decide⟩,
   ⟨segment 3 storing, 1, _, _, _, _, _, _, _, ⟨⟨rfl, rfl, rfl, rfl, rfl, rfl, rfl, rfl, by decide, rfl, by decide, by decide, rfl⟩, rfl⟩, rfl, rfl, rfl, _, _, _, rfl, rfl, rfl, rfl, rfl, rfl, by decide⟩,
   ⟨segment 3 acc0, 1, _, _, _, _, _, _, _, ⟨⟨rfl, rfl, rfl, rfl, rfl, rfl, rfl, rfl, by decide, rfl, by decide, by decide, rfl⟩, rfl⟩, rfl, rfl, rfl, _, _, _, _, _, _, rfl, rfl, rfl, rfl, rfl, rfl, rfl, rfl, rfl, by decide, by decide, by decide, rfl⟩,
   ⟨(segment 3 acc0).modTile (tilePsn 0 13) (fun t => { t with lcount := put t.lcount 0 1 }), 1, _, _, _, _, _, _, _, ⟨⟨rfl, rfl, rfl, rfl, rfl, rfl, rfl, rfl, by decide, rfl, by decide, by decide, rfl⟩, rfl⟩, rfl, rfl, rfl, _, _, _, _, _, _, rfl, rfl, rfl, rfl, rfl, rfl, rfl, rfl, rfl, by decide, by decide, by decide, rfl⟩⟩

theorem met_AccessReplies :
  (∃ (s : State), ∃ id, ∃ a, s.item id = some (.access a) ∧ a.stage = .retry) ∧
  (∃ (s : State), ∃ id, ∃ a, ∃ r, s.item id = some (.access a) ∧ a.stage = .performed ∧ a.unit < 8 ∧ s.replyFirst id a.core a.replyChans = true ∧ (∀ slot token place, a.landing ≠ .push slot token place) ∧ a.landing.reg = some r ∧ (((s.dropItem id).getCore a.core).awaits r id = true)) ∧
  (∃ (s : State), ∃ id, ∃ a, ∃ c, ∃ act, s.item id = some (.access a) ∧ c = s.getCore a.core ∧ c.act = some act ∧ act.serial = a.serial ∧ act.halted = none ∧ act.reissue.contains id = false ∧ a.unit < 8 ∧ a.stage = .gone) ∧
  (∃ (s : State), ∃ id, ∃ a, ∃ c, ∃ act, s.item id = some (.access a) ∧ c = s.getCore a.core ∧ c.act = some act ∧ act.serial = a.serial ∧ act.halted = none ∧ act.reissue.contains id = false ∧ a.unit < 8 ∧ ∃ f, a.stage = .refused ∧ a.fault = some f) ∧
  (∃ (s : State), ∃ id, ∃ a, ∃ f, s.item id = some (.access a) ∧ a.stage = .refused ∧ a.fault = some f ∧ a.unit < 8 ∧ (s.getCore a.core).act = none ∧ (s.getCore a.core).unsent.length < 4) ∧
  (∃ t, ∃ seg, ∃ v, isTilePsn t = true ∧ seg < 8 ∧ interior (psnIndex t) = true ∧ cfgFits (cfgValue seg v) = true) ∧
  (∃ t, ∃ seg, ∃ v, isTilePsn t = true ∧ seg < 8 ∧ cfgFits (cfgValue seg v) = false) ∧
  (∃ (s : State), ∃ t, ∃ seg, ∃ x, ∃ u, isTilePsn t = true ∧ seg < 8 ∧ (s.getTile t).reconf.find? (fun x => x.1 == seg) = some x ∧ s.evac t = none ∧ u = s.modTile t (fun tile => { tile with reconf := tile.reconf.erase x }) ∧ cfgShape x.2 = cfgShape ((u.getTile t).seg seg)) ∧
  (∃ (s : State), ∃ t, ∃ seg, ∃ x, ∃ u, isTilePsn t = true ∧ seg < 8 ∧ (s.getTile t).reconf.find? (fun x => x.1 == seg) = some x ∧ s.evac t = none ∧ u = s.modTile t (fun tile => { tile with reconf := tile.reconf.erase x }) ∧ cfgShape x.2 ≠ cfgShape ((u.getTile t).seg seg)) :=
  ⟨⟨asked { acc0 with stage := .retry }, 1, _, rfl, rfl⟩,
   ⟨(asked { acc0 with stage := .performed, landing := .gpr 1 0 0 }).mapCore (fun c => { c with pend := [(.g 1, 1)] }), 1, _, _, rfl, rfl, by decide, rfl, (fun _ _ _ h => by cases h), rfl, rfl⟩,
   ⟨asked { acc0 with stage := .gone }, 1, _, _, _, rfl, rfl, rfl, rfl, rfl, rfl, by decide, rfl⟩,
   ⟨asked { acc0 with stage := .refused, fault := some (acc0.refusal 1 .capbound) }, 1, _, _, _, rfl, rfl, rfl, rfl, rfl, rfl, by decide, _, rfl, rfl⟩,
   ⟨(asked { acc0 with stage := .refused, fault := some (acc0.refusal 1 .capbound) }).mapCore (fun c => { c with act := none }), 1, _, _, rfl, rfl, rfl, by decide, rfl, by decide⟩,
   ⟨tilePsn 0 13, 0, 0, rfl, by decide, rfl, rfl⟩,
   ⟨tilePsn 0 13, 0, BitVec.ofNat 64 (2 ^ 62 + 1023 * 2 ^ 43 + 63 * 2 ^ 37), rfl, by decide, rfl⟩,
   ⟨run.modTile (tilePsn 0 13) (fun t => { t with reconf := [(0, 0)] }), tilePsn 0 13, 0, _, _, rfl, by decide, rfl, rfl, rfl, rfl⟩,
   ⟨run.modTile (tilePsn 0 13) (fun t => { t with reconf := [(0, BitVec.ofNat 64 (2 ^ 62))] }), tilePsn 0 13, 0, _, _, rfl, by decide, rfl, rfl, rfl, by decide⟩⟩

theorem met_DramRequests :
  (∃ (s : State), ∃ id, ∃ a, ∃ pa, turnOf s id a pa 0 ∧ s.hasKey a.key = true ∧ a.kind = .load ∧ s.spoiled pa a.size = false) ∧
  (∃ (s : State), ∃ id, ∃ a, ∃ pa, turnOf s id a pa 1 ∧ s.hasKey a.key = true ∧ a.kind = .store ∧ s.mergeFails a.key pa a.data.length = none) ∧
  (∃ (s : State), ∃ id, ∃ a, ∃ pa, turnOf s id a pa 2 ∧ s.hasKey a.key = true ∧ (∀ e ∈ a.gather, s.spoiled e.2 a.size = false)) ∧
  (∃ (s : State), ∃ id, ∃ a, ∃ pa, ∃ old, ∃ v, turnOf s id a pa 0xA ∧ s.hasKey a.key = true ∧ a.kind = .atomic ∧ old = s.dramRead a.key pa a.size ∧ atomicNew a.aop (ofLe old) (ofLe a.data) (ofLe a.operand2) = some v ∧ s.spoiled pa a.size = false) ∧
  (∃ (s : State), ∃ id, ∃ a, ∃ pa, ∃ old, turnOf s id a pa 0xA ∧ s.hasKey a.key = true ∧ a.kind = .atomic ∧ old = s.dramRead a.key pa a.size ∧ atomicNew a.aop (ofLe old) (ofLe a.data) (ofLe a.operand2) = none ∧ s.spoiled pa a.size = false) ∧
  (∃ (s : State), ∃ id, ∃ a, ∃ pa, turnOf s id a pa 9) ∧
  (∃ (s : State), ∃ id, ∃ a, ∃ pa, ∃ op, inTurn s id a pa op ∧ a.sound pa = false) :=
  ⟨⟨asked (dram0 0), 1, _, _, ⟨⟨rfl, rfl, Or.inr rfl, rfl, rfl, rfl⟩, by rfl⟩, rfl, rfl, rfl⟩,
   ⟨asked { dram0 1 with kind := .store, data := List.replicate 64 1 }, 1, _, _, ⟨⟨rfl, rfl, Or.inr rfl, rfl, rfl, rfl⟩, by rfl⟩, rfl, rfl, rfl⟩,
   ⟨asked (dram0 2), 1, _, _, ⟨⟨rfl, rfl, Or.inr rfl, rfl, rfl, rfl⟩, by rfl⟩, rfl, by decide⟩,
   ⟨asked { dram0 0xA with kind := .atomic, size := 8, data := List.replicate 8 1 }, 1, _, _, _, _, ⟨⟨rfl, rfl, Or.inr rfl, rfl, rfl, rfl⟩, by rfl⟩, rfl, rfl, rfl, rfl, rfl⟩,
   ⟨asked { dram0 0xA with kind := .atomic, size := 8, aop := 7, data := List.replicate 8 1 }, 1, _, _, _, ⟨⟨rfl, rfl, Or.inr rfl, rfl, rfl, rfl⟩, by rfl⟩, rfl, rfl, rfl, rfl, rfl⟩,
   ⟨asked (dram0 9), 1, _, _, ⟨⟨rfl, rfl, Or.inr rfl, rfl, rfl, rfl⟩, by rfl⟩⟩,
   ⟨asked (dram0 15), 1, _, _, _, ⟨rfl, rfl, Or.inr rfl, rfl, rfl, rfl⟩, rfl⟩⟩

theorem met_RowRequests :
  (∃ (s : State), ∃ id, ∃ a, ∃ pa, ∃ act, turnOf s id a pa 3 ∧ pa % 1024 = 0 ∧ act = s.getActor (dramStack pa) ∧ fld (at_ act.quota a.ctx 0) 11 0 ≤ act.used a.ctx) ∧
  (∃ (s : State), ∃ id, ∃ a, ∃ pa, ∃ act, turnOf s id a pa 3 ∧ pa % 1024 = 0 ∧ act = s.getActor (dramStack pa) ∧ act.used a.ctx < fld (at_ act.quota a.ctx 0) 11 0 ∧ (∀ i < 64, act.findSlot (dramChan pa) i ≠ none)) ∧
  (∃ (s : State), ∃ id, ∃ a, ∃ pa, ∃ act, turnOf s id a pa 3 ∧ pa % 1024 = 0 ∧ act = s.getActor (dramStack pa) ∧ ∃ i, act.used a.ctx < fld (at_ act.quota a.ctx 0) 11 0 ∧ i < 64 ∧ act.findSlot (dramChan pa) i = none ∧ (∀ j < i, act.findSlot (dramChan pa) j ≠ none)) ∧
  (∃ (s : State), ∃ id, ∃ a, ∃ pa, ∃ w, ∃ act, ∃ chan, ∃ slot, act = s.getActor (a.handle / 2 ^ 11 % 32) ∧ chan = a.handle / 2 ^ 6 % 32 ∧ slot = a.handle % 64 ∧ ownsLine s a w ∧ turnOf s id a pa 4 ∧ slotKeep w = true) ∧
  (∃ (s : State), ∃ id, ∃ a, ∃ pa, ∃ w, ∃ act, ∃ chan, ∃ slot, act = s.getActor (a.handle / 2 ^ 11 % 32) ∧ chan = a.handle / 2 ^ 6 % 32 ∧ slot = a.handle % 64 ∧ ownsLine s a w ∧ turnOf s id a pa 4 ∧ slotKeep w = false ∧ (∀ r ∈ act.keptIn chan (dramBank (slotRow w)) (dramSub (slotRow w)), r = dramRow (slotRow w)) ∧ ((List.range 4).filter (fun sub => sub != dramSub (slotRow w) && act.keptIn chan (dramBank (slotRow w)) sub != [])).length < 2) ∧
  (∃ (s : State), ∃ id, ∃ a, ∃ pa, ∃ w, ∃ act, ∃ chan, ∃ slot, act = s.getActor (a.handle / 2 ^ 11 % 32) ∧ chan = a.handle / 2 ^ 6 % 32 ∧ slot = a.handle % 64 ∧ ownsLine s a w ∧ turnOf s id a pa 5) ∧
  (∃ (s : State), ∃ id, ∃ a, ∃ pa, ∃ w, ∃ act, ∃ chan, ∃ slot, act = s.getActor (a.handle / 2 ^ 11 % 32) ∧ chan = a.handle / 2 ^ 6 % 32 ∧ slot = a.handle % 64 ∧ ownsLine s a w ∧ turnOf s id a pa 6 ∧ s.hasKey (slotKey w) = true ∧ s.spoiled (slotRow w + a.addr) a.size = false) ∧
  (∃ (s : State), ∃ id, ∃ a, ∃ pa, ∃ w, ∃ act, ∃ chan, ∃ slot, act = s.getActor (a.handle / 2 ^ 11 % 32) ∧ chan = a.handle / 2 ^ 6 % 32 ∧ slot = a.handle % 64 ∧ ownsLine s a w ∧ turnOf s id a pa 7 ∧ s.hasKey (slotKey w) = true ∧ s.mergeFails (slotKey w) (slotRow w + a.addr) a.data.length = none) ∧
  (∃ (s : State), ∃ id, ∃ a, ∃ pa, ∃ w, ∃ act, ∃ chan, ∃ slot, act = s.getActor (a.handle / 2 ^ 11 % 32) ∧ chan = a.handle / 2 ^ 6 % 32 ∧ slot = a.handle % 64 ∧ ownsLine s a w ∧ turnOf s id a pa 8) ∧
  (∃ (s : State), ∃ id, ∃ a, ∃ pa, (∀ w, ¬ ownsLine s a w) ∧ turnOf s id a pa 8) ∧
  (∃ (s : State), ∃ id, ∃ a, ∃ pa, (∀ w, ¬ ownsLine s a w) ∧ turnOf s id a pa 5) ∧
  (∃ (s : State), ∃ id, ∃ a, ∃ pa, (∀ w, ¬ ownsLine s a w) ∧ turnOf s id a pa 4) :=
  ⟨⟨asked (dram0 3), 1, _, _, _, ⟨⟨rfl, rfl, Or.inr rfl, rfl, rfl, rfl⟩, by rfl⟩, rfl, rfl, by decide⟩,
   ⟨withActor { Actor.reset 0 with quota := quota1, slots := (List.range 64).map (fun i => (0, i, makeSlot 1 0 0 0 1000)) } (asked (dram0 3)), 1, _, _, _, ⟨⟨rfl, rfl, Or.inr rfl, rfl, rfl, rfl⟩, by rfl⟩, rfl, rfl, (by decide +kernel), (by decide +kernel)⟩,
   ⟨withActor { Actor.reset 0 with quota := quota1 } (asked (dram0 3)), 1, _, _, _, ⟨⟨rfl, rfl, Or.inr rfl, rfl, rfl, rfl⟩, by rfl⟩, rfl, rfl, 0, by decide, by decide, rfl, by decide⟩,
   ⟨lined true 4, 1, _, _, _, _, _, _, rfl, rfl, rfl, ⟨rfl, rfl, rfl⟩, ⟨⟨rfl, rfl, Or.inr rfl, rfl, rfl, rfl⟩, by rfl⟩, rfl⟩,
   ⟨lined false 4, 1, _, _, _, _, _, _, rfl, rfl, rfl, ⟨rfl, rfl, rfl⟩, ⟨⟨rfl, rfl, Or.inr rfl, rfl, rfl, rfl⟩, by rfl⟩, rfl, by decide, by decide⟩,
   ⟨lined false 5, 1, _, _, _, _, _, _, rfl, rfl, rfl, ⟨rfl, rfl, rfl⟩, ⟨⟨rfl, rfl, Or.inr rfl, rfl, rfl, rfl⟩, by rfl⟩⟩,
   ⟨lined false 6, 1, _, _, _, _, _, _, rfl, rfl, rfl, ⟨rfl, rfl, rfl⟩, ⟨⟨rfl, rfl, Or.inr rfl, rfl, rfl, rfl⟩, by rfl⟩, rfl, rfl⟩,
   ⟨withActor { Actor.reset 0 with slots := [(0, 0, line0)] } (asked { dram0 7 with kind := .store, data := List.replicate 64 1 }), 1, _, _, _, _, _, _, rfl, rfl, rfl, ⟨rfl, rfl, rfl⟩, ⟨⟨rfl, rfl, Or.inr rfl, rfl, rfl, rfl⟩, by rfl⟩, rfl, rfl⟩,
   ⟨lined false 8, 1, _, _, _, _, _, _, rfl, rfl, rfl, ⟨rfl, rfl, rfl⟩, ⟨⟨rfl, rfl, Or.inr rfl, rfl, rfl, rfl⟩, by rfl⟩⟩,
   ⟨asked (dram0 8), 1, _, _, (fun _ h => by cases h.1), ⟨⟨rfl, rfl, Or.inr rfl, rfl, rfl, rfl⟩, by rfl⟩⟩,
   ⟨asked (dram0 5), 1, _, _, (fun _ h => by cases h.1), ⟨⟨rfl, rfl, Or.inr rfl, rfl, rfl, rfl⟩, by rfl⟩⟩,
   ⟨asked (dram0 4), 1, _, _, (fun _ h => by cases h.1), ⟨⟨rfl, rfl, Or.inr rfl, rfl, rfl, rfl⟩, by rfl⟩⟩⟩

theorem met_DramReplies :
  (∃ (a : Access) (r : Answered), a.rmode = 3 ∧ (r.status = 0 ∨ r.status = 3)) ∧
  (∃ (a : Access) (r : Answered), (a.rmode = 1 ∨ a.rmode = 2) ∧ r.status = 0) ∧
  (∃ a : Access, a.rmode = 0) ∧
  (∃ (s : State), ∃ id, ∃ a, ∃ p, s.item id = some (.directWrite a) ∧ a.rmode = 1 ∧ a.op ≠ 2 ∧ s.requester a = some p ∧ (s.getCore p).snuffed = false ∧ s.gated p = false) ∧
  (∃ (s : State), ∃ id, ∃ a, ∃ u, ∃ t, ∃ (tile : List Byte × Bool), s.item id = some (.directWrite a) ∧ a.rmode = 2 ∧ a.op ≠ 2 ∧ 0 < a.reply.length ∧ a.dest % 2 ^ 19 + a.reply.length ≤ 2 ^ 19 ∧ (s.getRegion (psnRegion a.core)).storeAt (a.dest / 2 ^ 19) = some t ∧ s.tileAct { a with kind := .store, op := 1, aop := 0, size := a.reply.length, data := a.reply, addr := a.dest } t (a.dest % 2 ^ 19) = .done tile.1 tile.2 u ∧ (u.getRegion (psnRegion a.core)).storeAt (a.dest / 2 ^ 19) = some t) :=
  ⟨⟨acc0, { status := 0, result := 0, data := [], tag := false }, rfl, Or.inl rfl⟩,
   ⟨{ acc0 with rmode := 1 }, { status := 0, result := 0, data := [], tag := false }, Or.inl rfl, rfl⟩,
   ⟨{ acc0 with rmode := 0 }, rfl⟩,
   ⟨having (.directWrite { acc0 with owner := .dram 0, rmode := 1, reply := List.replicate 64 1 }), 1, _, _, rfl, rfl, by decide, rfl, rfl, rfl⟩,
   ⟨having (.directWrite { acc0 with owner := .dram 0, rmode := 2, reply := List.replicate 64 1 }), 1, _, _, _, _, rfl, rfl, by decide, by decide, by decide, rfl, rfl, (by rfl)⟩⟩

theorem met_LinesAndChannels :
  (∃ (s : State), ∃ stack, ∃ lchan, ∃ slot, ∃ w, stack < 32 ∧ lchan < 32 ∧ slot < 64 ∧ (s.getActor stack).findSlot lchan slot = some w ∧ slotDeadline w ≤ s.tsc.toNat ∧ s.tsc.toNat < slotDeadline w + 2 ^ 51 ∧ slotKeep w = false) ∧
  (∃ (s : State), ∃ stack, ∃ lchan, ∃ bank, ∃ kept, stack < 32 ∧ lchan < 32 ∧ bank < 16 ∧ kept = (((s.getActor stack).slots.filter (fun x => x.1 == lchan && slotKeep x.2.2 && !slotParked x.2.2 && dramBank (slotRow x.2.2) == bank)).map (fun x => (lchan, bank, dramSub (slotRow x.2.2), dramRow (slotRow x.2.2)))).eraseDups) ∧
  (∃ (s : State), ∃ stack, ∃ lchan, ∃ spare, ∃ (retire : Bool), ∃ a, ∃ old, stack < 32 ∧ lchan < 32 ∧ spare < 34 ∧ a = s.getActor stack ∧ old = (at_ a.chanMap lchan 0).toNat ∧ at_ a.chanState old 0 = 2 ∧ at_ a.chanState spare 0 = 3 ∧ (if retire then s.retiringUnit (chanUnit stack old) else s.hasLease (chanUnit stack old)) = true) :=
  ⟨⟨{ withActor { Actor.reset 0 with slots := [(0, 0, line0)] } run with tsc := 1000 }, 0, 0, 0, _, by decide, by decide, by decide, rfl, by decide, by decide, rfl⟩,
   ⟨run, 0, 0, 0, _, by decide, by decide, by decide, rfl⟩,
   ⟨(withActor { Actor.reset 0 with chanState := put (put (Actor.reset 0).chanState 0 2) 33 3 } run).modRegion 0 (fun r => { r with leases := [lease0 (chanUnit 0 0) 3] }), 0, 0, 33, false, _, _, by decide, by decide, by decide, rfl, rfl, rfl, rfl, (by decide +kernel)⟩⟩

theorem met_CopySteps :
  (∃ (s : State), ∃ core, ∃ chan, ∃ k, ∃ rest, chan < 8 ∧ ((s.getCore core).channel chan).queue = k :: rest ∧ k.started = false ∧ s.gone k.deps = true ∧ k.handle = none ∧ (s.getCore core).halting = false ∧ s.copyTile core k = none) ∧
  (∃ (s : State), ∃ core, ∃ chan, ∃ k, ∃ rest, chan < 8 ∧ ((s.getCore core).channel chan).queue = k :: rest ∧ k.started = false ∧ s.gone k.deps = true ∧ k.handle = none ∧ (s.getCore core).halting = false ∧ ∃ t, s.copyTile core k = some t ∧ (s.getTile t).generators.length < 4) ∧
  (∃ (s : State), ∃ core, ∃ chan, ∃ k, ∃ k', ∃ rest, ∃ n, ∃ ps, ∃ qs, ∃ bs, ∃ t, ∃ u, ∃ done, ∃ v, copyMoves s core chan k rest ∧ k.held = [] ∧ 0 < n ∧ n = s.writeSize core k ∧ n = s.readSize core k ∧ s.copyParts core k false n = .ok ps ∧ s.atFifo ps = none ∧ s.copyRead core k n = .ok (bs, t) ∧ bs.length = n ∧ k' = { k with held := bs, noted := false } ∧ t.copyParts core k' true n = .ok qs ∧ t.atFifo qs = none ∧ t.copyWrite core k' bs = .ok u ∧ done = k.done + n ∧ v = u.modCore core (fun c => (c.addQ (56 + chan) (pointerAt k.length done - pointerAt k.length k.done)).setHead chan { k with done, held := [], noted := false }) ∧ done < k.length) ∧
  (∃ (s : State), ∃ core, ∃ chan, ∃ k, ∃ k', ∃ rest, ∃ n, ∃ ps, ∃ qs, ∃ bs, ∃ t, ∃ u, ∃ done, ∃ v, copyMoves s core chan k rest ∧ k.held = [] ∧ 0 < n ∧ n = s.writeSize core k ∧ n = s.readSize core k ∧ s.copyParts core k false n = .ok ps ∧ s.atFifo ps = none ∧ s.copyRead core k n = .ok (bs, t) ∧ bs.length = n ∧ k' = { k with held := bs, noted := false } ∧ t.copyParts core k' true n = .ok qs ∧ t.atFifo qs = none ∧ t.copyWrite core k' bs = .ok u ∧ done = k.done + n ∧ v = u.modCore core (fun c => (c.addQ (56 + chan) (pointerAt k.length done - pointerAt k.length k.done)).setHead chan { k with done, held := [], noted := false }) ∧ k.length ≤ done) ∧
  (∃ (s : State), ∃ core, ∃ chan, ∃ k, ∃ rest, ∃ n, ∃ ps, ∃ p, copyMoves s core chan k rest ∧ k.held.length < s.writeSize core k ∧ n = s.readSize core k ∧ s.copyParts core k false n = .ok ps ∧ s.atFifo ps = some p) ∧
  (∃ (s : State), ∃ core, ∃ chan, ∃ k, ∃ rest, ∃ id, ∃ a, chan < 8 ∧ ((s.getCore core).channel chan).queue = k :: rest ∧ k.access = some id ∧ s.item id = some (.access a) ∧ a.stage = .performed ∧ a.reads = true) :=
  ⟨⟨copying copy0, 0, 0, _, _, by decide, rfl, rfl, rfl, rfl, rfl, rfl⟩,
   ⟨copying { copy0 with src := .pattern 1 { base := 0, elog := 6, first := 0, counts := [2], strides := [64] } }, 0, 0, _, _, by decide, rfl, rfl, rfl, rfl, rfl, _, rfl, (by decide)⟩,
   ⟨copying { copy0 with started := true }, 0, 0, _, _, _, 64, _, _, _, _, _, _, _, ⟨by decide, rfl, rfl, rfl, rfl, rfl⟩, rfl, by decide, (by rfl), (by rfl), (by rfl), rfl, (by rfl), rfl, rfl, rfl, rfl, (by rfl), rfl, rfl, by decide⟩,
   ⟨copying { copy0 with started := true, length := 64 }, 0, 0, _, _, _, 64, _, _, _, _, _, _, _, ⟨by decide, rfl, rfl, rfl, rfl, rfl⟩, rfl, by decide, (by rfl), (by rfl), (by rfl), rfl, (by rfl), rfl, rfl, rfl, rfl, (by rfl), rfl, rfl, by decide⟩,
   ⟨(copying { copy0 with src := .run 1 0, started := true }).modTile (tilePsn 0 13) (fun t => { t with segCfg := put t.segCfg 0 (BitVec.ofNat 64 (2 * 2 ^ 62 + 3 * 2 ^ 37)) }), 0, 0, _, _, _, _, _, ⟨by decide, rfl, rfl, rfl, rfl, rfl⟩, by decide, (by rfl), (by rfl), (by rfl)⟩,
   ⟨{ copying { copy0 with started := true, access := some 2 } with flight := [{ id := 1, body := .command 0 0 }, { id := 2, body := .access { acc0 with stage := .performed } }] }, 0, 0, _, _, 2, _, by decide, rfl, rfl, rfl, rfl, rfl⟩⟩

theorem met_EngineSteps :
  (∃ (s : State), ∃ core, ∃ slot, ∃ st, ∃ i, ∃ bs, ∃ t, slot < 4 ∧ at_ (s.getCore core).streams slot none = some st ∧ st.bound = true ∧ st.output = false ∧ st.fault = none ∧ s.gone st.deps = true ∧ i = st.position + st.fetched.length ∧ i < st.total ∧ (s.getCore core).halting = false ∧ s.elementFull core st (st.cap.base + st.offset i).toNat = true ∧ st.pred = none ∧ s.reach core st st.cap false (st.cap.base + st.offset i).toNat st.bytes [] = .done bs t ∧ i + 1 ≠ st.total) ∧
  (∃ (s : State), ∃ core, ∃ slot, ∃ st, ∃ i, ∃ bs, ∃ t, slot < 4 ∧ at_ (s.getCore core).streams slot none = some st ∧ st.bound = true ∧ st.output = false ∧ st.fault = none ∧ s.gone st.deps = true ∧ i = st.position + st.fetched.length ∧ i < st.total ∧ (s.getCore core).halting = false ∧ s.elementFull core st (st.cap.base + st.offset i).toNat = true ∧ st.pred = none ∧ s.reach core st st.cap false (st.cap.base + st.offset i).toNat st.bytes [] = .done bs t ∧ i + 1 = st.total) ∧
  (∃ (s : State), ∃ core, ∃ slot, ∃ st, ∃ p, ∃ rest, ∃ bs, ∃ t, slot < 4 ∧ at_ (s.getCore core).streams slot none = some st ∧ st.output = true ∧ st.fault = none ∧ st.closing = none ∧ st.pushed = p :: rest ∧ p.missing = 0 ∧ s.gone p.deps = true ∧ p.written < p.count ∧ s.reach core st st.cap true (st.cap.base + st.offset (p.start + p.written)).toNat st.bytes (leBytes st.bytes (laneOf (elemBits st.ty) p.data p.written)) = .done bs t) ∧
  (∃ (s : State), ∃ core, ∃ slot, ∃ u, ∃ m, ∃ r, u = s.focus core ∧ u.core.matOps[slot]? = some m ∧ m.stage = .queued ∧ s.gone m.deps = true ∧ u.core.halting = false ∧ (∀ e ∈ u.core.matOps.take slot, (e.busy = true ∨ e.stage = .stalled) → e.blocks m = false) ∧ u.runMatOp m = .ok r) ∧
  (∃ (s : State), ∃ core, ∃ m, (s.getCore core).matOps.find? (fun m => m.stage == .computing || (m.stage == .writing && s.matWritten (s.getCore core) m)) = some m ∧ m.isLong = false) ∧
  (∃ (s : State), ∃ core, ∃ m, (s.getCore core).matOps.find? (fun m => m.stage == .computing || (m.stage == .writing && s.matWritten (s.getCore core) m)) = some m ∧ m.isLong = true) :=
  ⟨⟨inStream (255 * 65536), 0, 0, _, _, _, _, by decide, rfl, rfl, rfl, rfl, rfl, rfl, by decide, rfl, rfl, rfl, (by rfl), by decide⟩,
   ⟨inStream 0, 0, 0, _, _, _, _, by decide, rfl, rfl, rfl, rfl, rfl, rfl, by decide, rfl, rfl, rfl, (by rfl), rfl⟩,
   ⟨pushing, 0, 0, _, _, _, _, _, by decide, rfl, rfl, rfl, rfl, rfl, rfl, rfl, by decide, rfl⟩,
   ⟨multiplying matOp0, 0, 0, _, _, _, rfl, rfl, rfl, rfl, rfl, (fun e he => by cases he), (by rfl)⟩,
   ⟨multiplying { matOp0 with stage := .computing }, 0, _, rfl, rfl⟩,
   ⟨multiplying { matOp0 with stage := .computing, op := 0x201 }, 0, _, rfl, rfl⟩⟩

theorem met_RunQueueSteps :
  (∃ (s : State), ∃ core, ∃ e, ∃ c, isGridCore core = true ∧ e < 20 ∧ c = s.getCore core ∧ c.fireable e = true ∧ c.runq.length < 32 ∧ c.live = true ∧ c.halting = false) ∧
  (∃ (s : State), ∃ core, ∃ r, ∃ c, c = s.getCore core ∧ c.nextEntry = some r ∧ s.canStart core = true ∧ r.cont = none ∧ r.start = none ∧ r.entry < 19 ∧ r.ending = false) ∧
  (∃ (s : State) (core : Psn) (place : Nat) (r : RunEntry) (c : Core), c = s.getCore core ∧ c.runq[place]? = some r ∧ r.level < 3 ∧
    r.promoted + (s.getRegion (psnRegion core)).runqAge.toNat ≤ s.tsc.toNat) ∧
  (∃ (s : State), ∃ tile, ∃ i, ∃ r, (s.getTile tile).record i = some r ∧ r.doomed = none ∧ (r.ready = true ∨ (r.full = none ∧ s.allReached r.src tile r.pairs = true))) ∧
  (∃ (s : State), ∃ core, ∃ tile, ∃ i, ∃ r, ∃ e, ∃ c, ∃ u, c = s.getCore core ∧ c.nextEntry = some e ∧ s.canStart core = true ∧ e.cont = some (tile, i) ∧ (s.getTile tile).record i = some r ∧ r.ready = true ∧ r.full = none ∧ r.gang = none ∧ r.offered = [] ∧ u = (s.modCore core (fun c => { c with runq := c.runq.filter (· != e) })).modTile tile (·.dropRecord i)) ∧
  (∃ (s : State), ∃ core, ∃ act, ∃ f, (s.getCore core).act = some act ∧ act.halted = some f ∧ s.canConvert core = true) :=
  ⟨⟨freed, 0, 0, _, rfl, by decide, rfl, rfl, by decide, rfl, rfl⟩,
   ⟨queued entry0, 0, _, _, rfl, rfl, rfl, rfl, rfl, by decide, rfl⟩,
   ⟨{ queued entry0 with tsc := 65536 }, 0, 0, entry0, _, rfl, rfl, by decide, by decide⟩,
   ⟨recording run, tilePsn 0 13, 0, _, rfl, rfl, Or.inl rfl⟩,
   ⟨recording (queued { entry0 with cont := some (tilePsn 0 13, 0) }), 0, tilePsn 0 13, 0, _, _, _, _, rfl, rfl, rfl, rfl, rfl, rfl, rfl, rfl, rfl, rfl⟩,
   ⟨run.mapCore (fun c => { c with act := c.act.map (fun a => { a with halted := some (acc0.refusal 1 .capbound) }) }), 0, _, _, rfl, rfl, rfl⟩⟩

theorem met_GangSteps :
  (∃ (s : State), ∃ core, ∃ l, ∃ a, ∃ g, s.askedBy core = some l ∧ l.act = some a ∧ (s.getCore core).act = none ∧ s.canJoin a core = true ∧ (s.getCore core).unsent.length < 4 ∧ (s.getCore core).halting = false ∧ g = ({ leader := l.psn, position := 1, attached := true, members := [], faults := 0, rejoin := none, relayed := [], received := none } : Gang)) ∧
  (∃ (s : State), ∃ core, ∃ a, ∃ g, ∃ r, ∃ rest, (s.getCore core).act = some a ∧ a.halted = none ∧ a.gang = some g ∧ g.attached = true ∧ g.relayed = r :: rest ∧ g.received = none) :=
  ⟨⟨joining, 0, _, _, _, rfl, rfl, rfl, rfl, by decide, rfl, rfl⟩,
   ⟨run.mapCore (fun c => { c with act := c.act.map (fun a => { a with gang := some { member with relayed := [{ p0 := 0, p1 := 0, p2 := 0, pc := 0, after := 8, ended := false }] } }) }), 0, _, _, _, _, rfl, rfl, rfl, rfl, rfl, rfl⟩⟩

theorem met_RingTiles :
  (∃ (s : State), ∃ id, ∃ t, ∃ r, ∃ p, ∃ d, s.item id = some (.ringTile t) ∧ s.ringAt t.region t.ring = some r ∧ p = r.members.getD t.member r.origin ∧ hdrOp t.header = (s.getCore p).opnum ∧ (s.getCore p).wrongFormat t.header = false ∧ (s.getCore p).freeSlots (hdrFam t.header) ≠ [] ∧ d = (s.getCore p).arrive t.header s.tsc.toNat ∧ tileWhole s r t) ∧
  (∃ (s : State), ∃ id, ∃ t, ∃ r, s.item id = some (.ringTile t) ∧ s.ringAt t.region t.ring = some r ∧ hdrOp t.header ≠ (s.getCore (r.members.getD t.member r.origin)).opnum ∧ tileWhole s r t) ∧
  (∃ (s : State), ∃ core, ∃ slot, ∃ c, ∃ r, ∃ h, ∃ n, isGridCore core = true ∧ slot < 8 ∧ c = s.getCore core ∧ s.ringOf c = some r ∧ h = at_ c.ringHdr slot 0 ∧ n = c.nextMember (hdrFam h) ∧ c.slotIdle slot = true ∧ hdrLaps h = 0) ∧
  (∃ (s : State), ∃ core, ∃ slot, ∃ c, ∃ r, ∃ h, ∃ n, isGridCore core = true ∧ slot < 8 ∧ c = s.getCore core ∧ s.ringOf c = some r ∧ h = at_ c.ringHdr slot 0 ∧ n = c.nextMember (hdrFam h) ∧ c.slotIdle slot = true ∧ hdrLaps h ≠ 0 ∧ r.formed = true ∧ s.laneOpen core (c.ringPort (hdrFam h)) (hdrFam h).toNat tileTransfers = true ∧ s.tilesTo (psnRegion core) r.number n (hdrFam h) < ((s.getCore (r.members.getD n r.origin)).freeSlots (hdrFam h)).length) ∧
  (∃ (s : State) (core : Psn) (c : Core) (j a b : Nat) (rest : List (Nat × Nat × Nat)), c = s.getCore core ∧ c.firings = (j, a, b) :: rest ∧
    c.sealed = true ∧ c.isMember = true) ∧
  (∃ (s : State) (core : Psn) (w : Bool) (c : Core) (last : Nat), isGridCore core = true ∧ c = s.getCore core ∧
    last = (if w then c.oppositeAt.1 else c.oppositeAt.2) ∧ last + (s.getRegion (psnRegion core)).ringIdle.toNat ≤ s.tsc.toNat) :=
  ⟨⟨{ ringed with flight := [{ id := 1, body := .ringTile tile0 }] }, 1, _, _, _, _, rfl, rfl, rfl, rfl, rfl, by decide, rfl, (by rfl)⟩,
   ⟨{ ringed with flight := [{ id := 1, body := .ringTile { tile0 with header := BitVec.ofNat 64 (2 ^ 56) } }] }, 1, _, _, rfl, rfl, by decide, (by rfl)⟩,
   ⟨passing 0, 0, 0, _, _, _, _, rfl, by decide, rfl, rfl, rfl, rfl, rfl, rfl⟩,
   ⟨passing (2 ^ 50), 0, 0, _, _, _, _, rfl, by decide, rfl, rfl, rfl, rfl, rfl, by decide, rfl, rfl, by decide⟩,
   ⟨armed.mapCore (fun c => { c with firings := [(0, 0, 4)], sealed := true }), 0, _, _, _, _, _, rfl, rfl, rfl, rfl⟩,
   ⟨{ ringed with tsc := 16384 }, 0, true, _, _, rfl, rfl, rfl, by decide⟩⟩

theorem met_RingControl :
  (∃ (s : State), ∃ core, ∃ j, ∃ r, isGridCore core = true ∧ j < 64 ∧ s.ringOf (s.getCore core) = some r ∧ mState ((s.getCore core).entry j) = 3 ∧ (s.getCore core).queued j = false) ∧
  (∃ (s : State), ∃ id, ∃ p, ∃ fam, ∃ tag, ∃ opnum, ∃ inj, ∃ slot, ∃ ring, ∃ q, ∃ w, ∃ t, s.item id = some (.relight p fam tag opnum inj slot) ∧ s.ringOf (s.getCore p) = some ring ∧ (s.getCore p).opnum = opnum.toNat ∧ s.holder (psnRegion p) inj = some q ∧ (s.getCore q).inject.toList.find? (fun w => recLive w && recFam w == fam && recTag w == tag.toNat && recOp w == opnum.toNat) = some w ∧ s.homeTile (s.getCore q) = some t ∧ s.canReadTile t (recSrc w % 2 ^ 19) 2048 = true) ∧
  (∃ (s : State), ∃ id, ∃ p, ∃ slot, ∃ h, ∃ payload, s.item id = some (.relit p slot h payload) ∧ hdrOp h = (s.getCore p).opnum ∧ (s.getCore p).slotState slot = 3 ∧ (s.getCore p).ringCome.getLsbD slot = false ∧ (s.getCore p).wrongFormat h = false) ∧
  (∃ (s : State), ∃ id, ∃ region, ∃ n, ∃ x, ∃ count, ∃ r, ∃ w, s.item id = some (.seal region n x count) ∧ s.ringAt region n = some r ∧ w = (s.getCore r.origin).ringOp ∧ opSeals w ≠ r.members.length) ∧
  (∃ (s : State), ∃ id, ∃ region, ∃ n, ∃ opnum, ∃ r, s.item id = some (.done region n opnum) ∧ s.ringAt region n = some r ∧ (s.getCore r.origin).opnum = opnum.toNat) ∧
  (∃ (s : State), ∃ id, ∃ p, ∃ r, s.item id = some (.completion p) ∧ s.ringOf (s.getCore p) = some r ∧ r.origin = p) ∧
  (∃ (s : State), ∃ id, ∃ p, ∃ n, ∃ v, s.item id = some (.ringOp p n v) ∧ (s.getCore p).awaits (.g n) id = true) :=
  ⟨⟨ringed.mapCore (fun c => c.setEntry 0 (BitVec.ofNat 128 (3 * 2 ^ 61))), 0, 0, _, rfl, by decide, rfl, rfl, rfl⟩,
   ⟨(inRing (.relight 0 false 3 0 0 0)).mapCore (fun c => { c with inject := put c.inject 0 (makeRec false 0 1 0 3 0) }), 1, _, _, _, _, _, _, _, _, _, _, rfl, rfl, rfl, (by rfl), rfl, rfl, rfl⟩,
   ⟨{ (inRing (.relit 0 0 0 [])).mapCore (fun c => { c with ringSlot := put c.ringSlot 0 3 }) with nextId := 2 }, 1, _, _, _, _, rfl, rfl, rfl, rfl, rfl⟩,
   ⟨inRing (.seal 0 0 0 1), 1, 0, _, _, _, _, _, rfl, rfl, rfl, by decide⟩,
   ⟨inRing (.done 0 0 0), 1, 0, _, _, _, rfl, rfl, rfl⟩,
   ⟨inRing (.completion 0), 1, _, _, rfl, rfl, rfl⟩,
   ⟨(inRing (.ringOp 0 1 9)).mapCore (fun c => { c with pend := [(.g 1, 1)] }), 1, _, _, _, rfl, rfl⟩⟩

theorem met_RingCancellation :
  (∃ (s : State), ∃ region, ∃ n, ∃ reason, ∃ r, s.ringAt region n = some r ∧ s.cancelDue region r reason = true ∧ s.canCancel r reason = true) ∧
  (∃ (s : State), ∃ region, ∃ n, ∃ r, ∃ t, s.ringAt region n = some r ∧ s.ringOpen r = true ∧ r.leaseAt = some t ∧ t + 10000000 ≤ s.tsc.toNat ∧ s.ringCompleting r = false ∧ s.canCancel r 1 = true) ∧
  (∃ (s : State), ∃ region, ∃ n, ∃ r, s.ringAt region n = some r ∧ s.canRerun region r = true) ∧
  (∃ (s : State), ∃ region, ∃ n, ∃ r, s.ringAt region n = some r ∧ ∃ p, s.canRerun region r = false ∧ r.members.find? (fun p => (s.nextReinject (s.getCore p)).isSome) = some p ∧ s.canReinject p = true) :=
  ⟨⟨{ (ringed.mapCore (stateOp 1)).putRing 0 { member0 with leaseAt := some 0 } with tsc := 10000000 }, 0, 0, 1, _, rfl, rfl, rfl⟩,
   ⟨{ (ringed.mapCore (stateOp 1)).putRing 0 { member0 with leaseAt := some 0 } with tsc := 10000000 }, 0, 0, _, _, rfl, rfl, rfl, by decide, rfl, rfl⟩,
   ⟨{ ringed.mapCore (stateOp 2) with graphs := [graph0] }, 0, 0, _, rfl, rfl⟩,
   ⟨ringed.mapCore (fun c => { c with reinject := 1 }), 0, 0, _, rfl, _, rfl, rfl, rfl⟩⟩

theorem met_CollectivesAndQueries :
  (∃ (s : State), ∃ id, ∃ region, ∃ n, ∃ p, ∃ k, ∃ ty, ∃ op, ∃ rm, ∃ sat, ∃ v, ∃ ws, ∃ t, ∃ g, s.item id = some (.contribution region n p k ty op rm sat v ws) ∧ (s.getRegion region).trees.find? (fun t => t.number == n && t.ctx == s.ctxOf p) = some t ∧ (∀ r ∈ t.rounds, ∀ e ∈ r.2, e.2.2 ≠ id) ∧ s.graphOn p = some g ∧ g.stat = 1) ∧
  (∃ (s : State), ∃ id, ∃ p, ∃ reg, ∃ v, s.item id = some (.credResult p reg v none) ∧ (s.getCore p).awaits (.g reg) id = true) ∧
  (∃ (s : State), ∃ id, ∃ p, ∃ reg, ∃ w, s.item id = some (.query p reg w)) ∧
  (∃ w : Word, 80 ≤ fld w 22 16) ∧
  (∃ (s : State), ∃ id, ∃ p, ∃ reg, ∃ w, s.item id = some (.answer p reg w) ∧ (s.getCore p).awaits (.g reg) id = true) :=
  ⟨⟨{ having (.contribution 0 0 0 0 0 0 0 false 5 []) with graphs := [graph0], regions := [{ Region.reset 0 with trees := [tree0] }] }, 1, 0, _, _, _, _, _, _, _, _, _, _, _, rfl, rfl, (fun r hr => by cases hr), rfl, rfl⟩,
   ⟨(having (.credResult 0 1 9 none)).mapCore (fun c => { c with pend := [(.g 1, 1)] }), 1, _, _, _, rfl, rfl⟩,
   ⟨having (.query 0 1 0), 1, _, _, _, rfl⟩,
   ⟨BitVec.ofNat 64 (80 * 2 ^ 16), by decide⟩,
   ⟨(having (.answer 0 1 9)).mapCore (fun c => { c with pend := [(.g 1, 1)] }), 1, _, _, _, rfl, rfl⟩⟩

theorem met_GraphLifeSteps :
  (∃ (s : State), ∃ id, ∃ g, s.graphById id = some g ∧ g.stat = 1 ∧ g.armed = false ∧ g.unarmed = [] ∧ g.haltAt = none ∧ g.launcher = none) ∧
  (∃ (s : State), ∃ id, ∃ g, s.graphById id = some g ∧ g.stat = 1 ∧ g.armed = false ∧ g.unarmed = [] ∧ g.haltAt = none ∧ ∃ n, g.launcher = some n) ∧
  (∃ (s : State), ∃ id, ∃ g, s.graphById id = some g ∧ s.hasEnded g = true) ∧
  (∃ (s : State), ∃ id, ∃ g, s.graphById id = some g ∧ g.stat = 0 ∧ s.mayLoad g = true ∧ (∀ h ∈ s.graphs, h.stat = 0 → s.mayLoad h = true → lhPrio h.header ≤ lhPrio g.header)) ∧
  (∃ (s : State), ∃ id, ∃ g, ∃ core, isCorePsn core = true ∧ s.graphById id = some g ∧ g.stat = 1 ∧ core ∈ g.unarmed ∧ (s.getCore core).released = true ∧ s.idleCore core = true) ∧
  (∃ (s : State), ∃ id, ∃ pred, ∃ g, ∃ ps, s.graphById id = some g ∧ g.stat = 1 ∧ g.armed = true ∧ pred ∈ g.predEnded ∧ ps = g.cores.filter (fun p => !g.unarmed.contains p && !g.posted.contains (pred, p)) ∧ ps ≠ []) ∧
  (∃ (s : State) (g h : Graph), h ∈ (s.releaseGraph g).graphs) :=
  ⟨⟨graphed graph0, 7, _, rfl, rfl, rfl, rfl, rfl, rfl⟩,
   ⟨graphed { graph0 with launcher := some 0 }, 7, _, rfl, rfl, rfl, rfl, rfl, _, rfl⟩,
   ⟨{ freed.mapCore (fun c => { c with handlers := put c.handlers 0 0 }) with graphs := [{ graph0 with armed := true }] }, 7, _, rfl, rfl⟩,
   ⟨graphed { graph0 with stat := 0 }, 7, _, rfl, rfl, rfl, by decide⟩,
   ⟨{ freed.mapCore (fun c => { c with handlers := put c.handlers 0 0 }) with graphs := [{ graph0 with unarmed := [0] }] }, 7, _, 0, rfl, rfl, rfl, List.mem_cons_self, rfl, rfl⟩,
   ⟨graphed { graph0 with armed := true, predEnded := [3] }, 7, 3, _, _, rfl, rfl, rfl, List.mem_cons_self, rfl, by decide⟩,
   ⟨{ run with graphs := [graph0, { graph0 with id := 8, stat := 0 }] }, graph0, _, List.mem_cons_self⟩⟩

theorem met_StageSteps :
  (∃ (s : State), ∃ region, region < 80 ∧ (s.getRegion region).governed + 4096 ≤ s.tsc.toNat) ∧
  (∃ (s : State), ∃ tile, ∃ n, ∃ t, ∃ d, ∃ b, isTilePsn tile = true ∧ n < 16 ∧ t = s.getTile tile ∧ d = t.stage n ∧ t.stageBusy.find? (fun b => b.1 == n) = some b ∧ b.2 < 16 ∧ (∀ p, s.stageCore t d b.2 = some p → hActive ((s.getCore p).handler (sgEntry d)) = false)) ∧
  (∃ (s : State), ∃ tile, ∃ n, ∃ t, ∃ d, ∃ seg, ∃ size, ∃ p, ∃ place, isTilePsn tile = true ∧ n < 16 ∧ t = s.getTile tile ∧ d = t.stage n ∧ seg = sgSeg d ∧ size = segUnit (t.seg seg) ∧ s.stageTarget t d = some p ∧ t.stageValid n = true ∧ fifoHeld t seg ≠ 0 ∧ sgItem d + size ≤ 0x18000 ∧ place = seg * 65536 + (at_ t.head seg 0).toNat % fifoSlots (t.seg seg) * size ∧ s.canRead p (tileKey tile place) size = true) :=
  ⟨⟨{ run with tsc := 4096 }, 0, by decide, by decide⟩,
   ⟨staging, tilePsn 0 13, 0, _, _, _, rfl, by decide, rfl, rfl, rfl, by decide, (fun p h => by cases h; rfl)⟩,
   ⟨staging, tilePsn 0 13, 0, _, _, _, _, _, _, rfl, by decide, rfl, rfl, rfl, rfl, rfl, rfl, by decide, by decide, rfl, rfl⟩⟩

theorem met_MoveSteps :
  (∃ (s : State), ∃ region, ∃ (v : Word), ∃ p, ∃ q, ∃ ctx, region < 80 ∧ bit v 63 = true ∧ ctx = fld v 36 32 ∧ bit (s.getRegion region).moveStat 63 = false ∧ (s.getRegion region).move = none ∧ s.logicalCore (fld v 29 15) = some p ∧ s.logicalCore (fld v 14 0) = some q ∧ s.moveRefusal region ctx (some p) (some q) = none) ∧
  (∃ (s : State), ∃ region, ∃ (v : Word), ∃ n, region < 80 ∧ bit v 63 = true ∧ bit (s.getRegion region).moveStat 63 = false ∧ (s.getRegion region).move = none ∧ s.moveRefusal region (fld v 36 32) (s.logicalCore (fld v 29 15)) (s.logicalCore (fld v 14 0)) = some n) ∧
  (∃ (s : State), ∃ region, ∃ m, region < 80 ∧ (s.getRegion region).move = some m ∧ m.lease = none ∧ s.actorDrained m.from_ = true ∧ (s.getCore m.from_).halting = false ∧ s.canRead m.from_ (localKey m.from_ 0) 0x18000 = true) :=
  ⟨⟨{ graphed { graph0 with stat := 1 } with tsc := 1000000 }, 0, BitVec.ofNat 64 (2 ^ 63 + 1), _, _, _, by decide, rfl, rfl, rfl, rfl, rfl, rfl, rfl⟩,
   ⟨run, 0, BitVec.ofNat 64 (2 ^ 63 + 1), _, by decide, rfl, rfl, rfl, rfl⟩,
   ⟨freed.modRegion 0 (fun r => { r with move := some { ctx := 0, from_ := 0, to_ := 1, holds := 0, lease := none } }), 0, _, by decide, rfl, rfl, rfl, rfl, rfl⟩⟩

theorem met_GraphControlSteps :
  (∃ (s : State), ∃ region, ∃ (v : Word), ∃ g, region < 80 ∧ bit v 63 = true ∧ bit (s.getRegion region).graphStat 63 = false ∧ s.graphOf region (fld v 36 32) = some g ∧ fld v 62 60 = 1 ∧ g.stat = 1 ∧ g.haltAt = none) ∧
  (∃ (s : State), ∃ region, ∃ (v : Word), ∃ g, region < 80 ∧ bit v 63 = true ∧ bit (s.getRegion region).graphStat 63 = false ∧ s.graphOf region (fld v 36 32) = some g ∧ fld v 62 60 = 1 ∧ g.stat ≠ 1) ∧
  (∃ (s : State), ∃ region, ∃ (v : Word), ∃ g, region < 80 ∧ bit v 63 = true ∧ bit (s.getRegion region).graphStat 63 = false ∧ s.graphOf region (fld v 36 32) = some g ∧ fld v 62 60 = 2 ∧ g.stat = 3 ∧ s.canResume g = true) ∧
  (∃ (s : State), ∃ region, ∃ (v : Word), ∃ g, region < 80 ∧ bit v 63 = true ∧ bit (s.getRegion region).graphStat 63 = false ∧ s.graphOf region (fld v 36 32) = some g ∧ fld v 62 60 = 2 ∧ g.stat ≠ 3) ∧
  (∃ (s : State), ∃ region, ∃ (v : Word), ∃ g, region < 80 ∧ bit v 63 = true ∧ bit (s.getRegion region).graphStat 63 = false ∧ s.graphOf region (fld v 36 32) = some g ∧ fld v 62 60 = 3) ∧
  (∃ (s : State), ∃ region, ∃ (v : Word), region < 80 ∧ bit v 63 = true ∧ bit (s.getRegion region).graphStat 63 = true ∧ fld v 62 60 = 1) ∧
  (∃ (s : State), ∃ region, ∃ (v : Word), region < 80 ∧ bit v 63 = true ∧ bit (s.getRegion region).graphStat 63 = true ∧ fld v 62 60 = 2) ∧
  (∃ (s : State), ∃ region, ∃ (v : Word), region < 80 ∧ bit v 63 = true ∧ bit (s.getRegion region).graphStat 63 = true ∧ fld v 62 60 = 3) ∧
  (∃ (s : State), ∃ id, ∃ g, ∃ t, s.graphById id = some g ∧ g.haltAt = some t ∧ t ≤ s.tsc.toNat) ∧
  (∃ (s : State), ∃ id, ∃ core, ∃ g, isCorePsn core = true ∧ s.graphById id = some g ∧ g.stat = 2 ∧ core ∈ g.cores ∧ core ∉ g.halted ∧ s.coreQuiet core = true) ∧
  (∃ (s : State), ∃ id, ∃ g, s.graphById id = some g ∧ g.stat = 2 ∧ s.graphQuiet g = true ∧ s.canSave g = true) :=
  ⟨⟨graphed graph0, 0, BitVec.ofNat 64 (2 ^ 63 + 1 * 2 ^ 60), _, by decide, rfl, rfl, rfl, rfl, rfl, rfl⟩,
   ⟨graphed { graph0 with stat := 3 }, 0, BitVec.ofNat 64 (2 ^ 63 + 1 * 2 ^ 60), _, by decide, rfl, rfl, rfl, rfl, by decide⟩,
   ⟨graphed { graph0 with stat := 3 }, 0, BitVec.ofNat 64 (2 ^ 63 + 2 * 2 ^ 60), _, by decide, rfl, rfl, rfl, rfl, rfl, rfl⟩,
   ⟨graphed graph0, 0, BitVec.ofNat 64 (2 ^ 63 + 2 * 2 ^ 60), _, by decide, rfl, rfl, rfl, rfl, by decide⟩,
   ⟨graphed graph0, 0, BitVec.ofNat 64 (2 ^ 63 + 3 * 2 ^ 60), _, by decide, rfl, rfl, rfl, rfl⟩,
   ⟨run.modRegion 0 (fun r => { r with graphStat := BitVec.ofNat 64 (2 ^ 63) }), 0, BitVec.ofNat 64 (2 ^ 63 + 1 * 2 ^ 60), by decide, rfl, rfl, rfl⟩,
   ⟨run.modRegion 0 (fun r => { r with graphStat := BitVec.ofNat 64 (2 ^ 63) }), 0, BitVec.ofNat 64 (2 ^ 63 + 2 * 2 ^ 60), by decide, rfl, rfl, rfl⟩,
   ⟨run.modRegion 0 (fun r => { r with graphStat := BitVec.ofNat 64 (2 ^ 63) }), 0, BitVec.ofNat 64 (2 ^ 63 + 3 * 2 ^ 60), by decide, rfl, rfl, rfl⟩,
   ⟨graphed { graph0 with haltAt := some 0 }, 7, _, _, rfl, rfl, by decide⟩,
   ⟨graphed { graph0 with stat := 2 }, 7, 0, _, rfl, rfl, rfl, List.mem_cons_self, (fun h => by cases h), rfl⟩,
   ⟨graphed { graph0 with stat := 2, halted := [0] }, 7, _, rfl, rfl, rfl, rfl⟩⟩

theorem met_SnuffAndHangSteps :
  (∃ (s : State), ∃ core, ∃ a, (s.getCore core).wickOn = true ∧ (s.getCore core).wick = 0 ∧ (s.getCore core).act = some a ∧ a.halted = none ∧ isCorePsn core = true ∧ (s.getCore core).live = true ∧ (s.getCore core).snuffed = false) ∧
  (∃ (s : State), ∃ core, isCorePsn core = true ∧ (s.getCore core).act = none ∧ s.pinnedRecords core = false) ∧
  (∃ (s : State), ∃ core, ∃ a, isCorePsn core = true ∧ (s.getCore core).act = some a) ∧
  (∃ (s : State), ∃ region, ∃ r, region < 80 ∧ r = s.getRegion region ∧ bit r.hangCfg 63 = true ∧ r.progress + 2 ^ fld r.hangCfg 4 0 ≤ s.tsc.toNat ∧ s.blockedPorts region ≠ []) :=
  ⟨⟨run.mapCore (fun c => { c with wickOn := true }), 0, _, rfl, rfl, rfl, rfl, rfl, rfl, rfl⟩,
   ⟨freed, 0, rfl, rfl, rfl⟩,
   ⟨run, 0, _, rfl, rfl⟩,
   ⟨{ (run.mapCore (fun c => { c with waiting := true, since := some 0, pend := [(.g 1, 9)] })) with tsc := BitVec.ofNat 64 (2 ^ 24) }, 0, _, by decide, rfl, rfl, by decide, (by decide +kernel)⟩⟩

theorem met_LeaseRequests :
  (∃ (s : State), ∃ region, ∃ (w : Word), ∃ n, region < 80 ∧ bit w 63 = true ∧ s.leaseRefusal region w (s.getRegion region).leaseStart = some n) ∧
  (∃ (s : State), ∃ region, ∃ (w : Word), ∃ r, ∃ (u : UnitWord), ∃ t, ∃ l, region < 80 ∧ bit w 63 = true ∧ r = s.getRegion region ∧ u = w.extractLsb' 0 32 ∧ s.leaseRefusal region w r.leaseStart = none ∧ t = (s.newLease region u 2 0 (fld w 47 32) (fld w 62 48) r.leaseStart none).modRegion region (fun x => { x with leaseResult := BitVec.ofNat 64 r.nextLease }) ∧ (t.getRegion region).leases.find? (fun l => leaseUnit l == u) = some l) ∧
  (∃ (s : State), ∃ region, ∃ (u : UnitWord), region < 80 ∧ s.selected region = some u) ∧
  (∃ (s : State), ∃ region, region < 80 ∧ s.selected region = none) ∧
  (∃ s : State, s.tsc.toNat / 2 ^ 30 - s.module.halved ≠ 0) ∧
  (∃ (s : State), ∃ region, ∃ (u : UnitWord), ∃ i, region < 80 ∧ s.sweepUnit region = some u ∧ (s.getRegion region).lastSweep + 2 ^ 20 ≤ s.tsc.toNat ∧ (s.getRegion region).freeLease = some i) ∧
  (∃ (s : State), ∃ region, ∃ e, ∃ l, region < 80 ∧ e < 64 ∧ (s.getRegion region).lease e = some l ∧ leaseState l = 0 ∧ l.since + 2 ^ 26 ≤ s.tsc.toNat) ∧
  (∃ (s : State), ∃ region, ∃ e, ∃ l, region < 80 ∧ e < 64 ∧ (s.getRegion region).lease e = some l ∧ leaseState l = 1 ∧ l.since + 2 ^ 30 ≤ s.tsc.toNat) :=
  ⟨⟨run, 0, BitVec.ofNat 64 (2 ^ 63 + linkU.toNat), 4, by decide, rfl, (by decide +kernel)⟩,
   ⟨run.modRegion 0 (fun r => { r with leaseStart := 1000000 }), 0, BitVec.ofNat 64 (2 ^ 63 + 1 * 2 ^ 48 + 4 * 2 ^ 44 + linkU.toNat), _, _, _, lease1, by decide, rfl, rfl, rfl, (by decide +kernel), rfl, (by decide +kernel)⟩,
   ⟨run.modRegion 0 (fun r => { r with scoreSel := BitVec.ofNat 64 linkU.toNat }), 0, linkU, by decide, (by decide +kernel)⟩,
   ⟨run.modRegion 0 (fun r => { r with scoreSel := BitVec.ofNat 64 (80 * 2 ^ 13) }), 0, by decide, (by decide +kernel)⟩,
   ⟨{ run with tsc := BitVec.ofNat 64 (2 ^ 30) }, by decide⟩,
   ⟨{ run.modRegion 0 (fun r => { r with lpCfg := 1 }) with tsc := BitVec.ofNat 64 (2 ^ 20) }, 0, coreUnit 0, 0, by decide, (by decide +kernel), (by decide +kernel), (by decide +kernel)⟩,
   ⟨leasing (lease0 tileU 0) (2 ^ 26), 0, 0, _, by decide, by decide, rfl, rfl, by decide⟩,
   ⟨leasing (lease0 tileU 1) (2 ^ 30), 0, 0, _, by decide, by decide, rfl, rfl, by decide⟩⟩

theorem met_LeaseSteps :
  (∃ (s : State), ∃ region, ∃ e, ∃ l, region < 80 ∧ e < 64 ∧ (s.getRegion region).lease e = some l ∧ ∃ r, s.unitRing (leaseUnit l) = some r ∧ s.leaseDue region l = true ∧ r.leaseAt = none) ∧
  (∃ (s : State), ∃ region, ∃ e, ∃ l, region < 80 ∧ e < 64 ∧ (s.getRegion region).lease e = some l ∧ s.unitRing (leaseUnit l) = none ∧ s.leaseCanStart region l = true ∧ (∀ m ∈ (s.getRegion region).leases, leaseNumber m < leaseNumber l → s.leaseCanStart region m = false)) ∧
  (∃ (s : State), ∃ region, ∃ e, ∃ l, ∃ t, region < 80 ∧ e < 64 ∧ (s.getRegion region).lease e = some l ∧ leaseState l = 3 ∧ s.evacuated region l = true ∧ t = s.moveContents region l ∧ t.retiringUnit (leaseUnit l) = false ∧ t.score (leaseUnit l) < 32768 ∧ unitKind (leaseUnit l) < 4 ∧ unitKind (leaseUnit l) ≠ 0) ∧
  (∃ (s : State), ∃ region, ∃ e, ∃ l, region < 80 ∧ e < 64 ∧ (s.getRegion region).lease e = some l ∧ leaseState l = 4) ∧
  (∃ (s : State), ∃ region, ∃ e, ∃ l, ∃ next, region < 80 ∧ e < 64 ∧ (s.getRegion region).lease e = some l ∧ leaseState l = 4 ∧ (l.passed = true ∨ l.since + leaseDuration l * 2 ^ 20 ≤ s.tsc.toNat) ∧ unitKind (leaseUnit l) ≠ 0 ∧ next = (if s.retiringUnit (leaseUnit l) = true ∨ 32768 ≤ s.score (leaseUnit l) then 6 else 5)) ∧
  (∃ (s : State), ∃ region, ∃ e, ∃ l, region < 80 ∧ e < 64 ∧ (s.getRegion region).lease e = some l ∧ leaseState l = 5 ∧ s.retiringUnit (leaseUnit l) = true) ∧
  (∃ (s : State), ∃ region, ∃ e, ∃ l, ∃ t, region < 80 ∧ e < 64 ∧ (s.getRegion region).lease e = some l ∧ leaseState l = 5 ∧ s.retiringUnit (leaseUnit l) = false ∧ unitKind (leaseUnit l) = 1 ∧ t = (s.modRegion region (·.dropLease l.index)).modTile (unitPsn (leaseUnit l)) (fun x => { x with withdrawn := false })) ∧
  (∃ (s : State), ∃ region, ∃ e, ∃ l, region < 80 ∧ e < 64 ∧ (s.getRegion region).lease e = some l ∧ leaseState l = 6 ∧ s.module.xmssSpent = false ∧ l.started = true) ∧
  (∃ (s : State), ∃ region, ∃ (u : UnitWord), ∃ x, ∃ i, ∃ t, ∃ l, region < 80 ∧ (s.getRegion region).retiring.find? (fun x => x.1 == u) = some x ∧ x.2.1 ≤ s.tsc.toNat ∧ s.hasLease u = false ∧ s.carries u = true ∧ s.cannotLeave u = false ∧ (s.getRegion region).freeLease = some i ∧ s.leaseReady u = true ∧ s.moveFree region u = true ∧ s.unitRing u = none ∧ t = s.newLease region u 3 0 0xFFFF 0 0 (some 0) ∧ (t.getRegion region).leases.find? (fun l => leaseUnit l == u) = some l) :=
  ⟨⟨{ ringed.modRegion 0 (fun r => { r with leases := [lease0 (coreUnit 0) 2] }) with tsc := 0 }, 0, 0, _, by decide, by decide, rfl, _, rfl, (by decide +kernel), rfl⟩,
   ⟨leasing (lease0 linkU 2) 0, 0, 0, _, by decide, by decide, rfl, rfl, (by decide +kernel), (fun m hm h => by cases hm with | head => exact absurd h (Nat.lt_irrefl _) | tail _ k => cases k)⟩,
   ⟨spareTile (leasing (lease0 tileU 3) 0), 0, 0, _, _, by decide, by decide, rfl, rfl, (by rfl), rfl, (by decide +kernel), (by decide +kernel), by decide, by decide⟩,
   ⟨leasing (lease0 tileU 4) 0, 0, 0, _, by decide, by decide, rfl, rfl⟩,
   ⟨leasing (lease0 tileU 4) 0, 0, 0, _, _, by decide, by decide, rfl, rfl, Or.inl rfl, by decide, rfl⟩,
   ⟨(leasing (lease0 tileU 5) 0).modRegion 0 (fun r => { r with retiring := [(tileU, 0, 3)] }), 0, 0, _, by decide, by decide, rfl, rfl, by decide +kernel⟩,
   ⟨leasing (lease0 tileU 5) 0, 0, 0, _, _, by decide, by decide, rfl, rfl, rfl, rfl, rfl⟩,
   ⟨leasing (lease0 tileU 6) 0, 0, 0, _, by decide, by decide, rfl, rfl, rfl, rfl⟩,
   ⟨run.modRegion 0 (fun r => { r with retiring := [(linkU, 0, 0)] }), 0, linkU, _, _, _, _, by decide, rfl, by decide, (by decide +kernel), (by decide +kernel), (by decide +kernel), rfl, (by decide +kernel), (by decide +kernel), (by decide +kernel), rfl, rfl⟩⟩

theorem met_HostRequests :
  (∃ n : Nat, n < 4) ∧
  (∃ (s : State), ∃ (n : Nat), ∃ (r : Request), ∃ st, st = (s.takeRequest n).copyStatus n r ∧ requested s n 1 r) ∧
  (∃ (s : State), ∃ (n : Nat), ∃ (r : Request), ∃ st, st = (s.takeRequest n).copyStatus n r ∧ requested s n 2 r) ∧
  (∃ (s : State), ∃ (n : Nat), ∃ (r : Request), underWay s n 1 r) ∧
  (∃ (s : State), ∃ (n : Nat), ∃ (r : Request), underWay s n 2 r) ∧
  (∃ (s : State), ∃ (n : Nat), ∃ (r : Request), underWay s n 3 r ∧ (s.getHost n).acks.length = 3) ∧
  (∃ (s : State), ∃ (n : Nat), ∃ (r : Request), underWay s n 3 r ∧ (s.getHost n).acks.length ≠ 3) ∧
  (∃ (s : State), ∃ (n : Nat), ∃ (r : Request), requested s n 3 r) ∧
  (∃ (s : State), ∃ id, ∃ t, ∃ origin, s.item id = some (.barrierForward t origin []) ∧ (s.getHost t).request = none) ∧
  (∃ (s : State), ∃ (n : Nat), ∃ (r : Request), ∃ g, requested s n 9 r ∧ (s.takeRequest n).graphById (rqArg r 24 2) = some g ∧ g.stat = 0) ∧
  (∃ (s : State), ∃ (n : Nat), ∃ (r : Request), requested s n 9 r ∧ (s.takeRequest n).graphById (rqArg r 24 2) = none) ∧
  (∃ (s : State), ∃ (n : Nat), ∃ (r : Request), n < 4 ∧ s.canTake (s.getHost n) = true ∧ (s.getHost n).request = none ∧ r = s.nextRequest (s.getHost n) ∧ ¬ (1 ≤ rqOp r ∧ rqOp r ≤ 9)) :=
  ⟨⟨0, by decide⟩,
   ⟨posted 1 0, 0, _, _, rfl, ⟨by decide, by decide +kernel, rfl, by decide +kernel, by decide +kernel⟩⟩,
   ⟨posted 2 0, 0, _, _, rfl, ⟨by decide, by decide +kernel, rfl, by decide +kernel, by decide +kernel⟩⟩,
   ⟨taken 1 0, 0, _, ⟨by decide, rfl, by decide +kernel⟩⟩,
   ⟨taken 2 0, 0, _, ⟨by decide, rfl, by decide +kernel⟩⟩,
   ⟨taken 3 3, 0, _, ⟨by decide, rfl, by decide +kernel⟩, rfl⟩,
   ⟨taken 3 0, 0, _, ⟨by decide, rfl, by decide +kernel⟩, by decide⟩,
   ⟨posted 3 0, 0, _, ⟨by decide, by decide +kernel, rfl, by decide +kernel, by decide +kernel⟩⟩,
   ⟨having (.barrierForward 1 0 []), 1, 1, _, rfl, rfl⟩,
   ⟨{ posted 9 7 with graphs := [{ graph0 with stat := 0 }] }, 0, _, _, ⟨by decide, by decide +kernel, rfl, by decide +kernel, by decide +kernel⟩, (by rfl), rfl⟩,
   ⟨posted 9 7, 0, _, ⟨by decide, by decide +kernel, rfl, by decide +kernel, by decide +kernel⟩, (by rfl)⟩,
   ⟨posted 11 0, 0, _, by decide, rfl, rfl, rfl, by decide⟩⟩

theorem met_MonitorAndLaunchRequests :
  (∃ (s : State) (n : Nat) (r : Request), requested s n 4 r ∧ (s.takeRequest n).inWindow n (rqHost r) 128 = true) ∧
  (∃ (s : State), ∃ (n : Nat), ∃ (r : Request), ∃ g, underWay s n 4 r ∧ s.graphs.find? (fun g => g.launcher == some n) = some g ∧ g.armed = true) ∧
  (∃ (s : State), ∃ (n : Nat), ∃ (r : Request), ∃ v, ∃ region, requested s n 5 r ∧ v = BitVec.ofNat 64 (rqArg r 24 8) ∧ region = (s.takeRequest n).graphTarget n (fld v 36 32) ∧ bit ((s.takeRequest n).getRegion region).graphStat 63 = true) ∧
  (∃ (s : State), ∃ (n : Nat), ∃ (r : Request), ∃ v, ∃ region, requested s n 5 r ∧ v = BitVec.ofNat 64 (rqArg r 24 8) ∧ region = (s.takeRequest n).graphTarget n (fld v 36 32) ∧ bit ((s.takeRequest n).getRegion region).graphStat 63 = false) ∧
  (∃ (s : State) (n : Nat) (r : Request), requested s n 6 r ∧ (s.takeRequest n).inWindow n (rqHost r) 2948 = true ∧
    (s.takeRequest n).module.xmssSpent = false) ∧
  (∃ (s : State) (n : Nat) (r : Request) (slot : Nat) (u : State), requested s n 7 r ∧ u = s.takeRequest n ∧ slot = rqArg r 24 2 ∧ 0 < slot ∧ slot < 4096 ∧
    u.inWindow n (rqHost r) 72 = true ∧ u.keyLoaded slot = false ∧ u.keyUsed slot = false) ∧
  (∃ (s : State), ∃ (n : Nat), ∃ (r : Request), ∃ slot, ∃ u, requested s n 8 r ∧ u = s.takeRequest n ∧ slot = rqArg r 24 2 ∧ 0 < slot ∧ slot < 4096 ∧ u.keyUsed slot = false) ∧
  (∃ (port peer len : Nat) (pa : Word), port < 32 ∧ peer < 2 ^ 20 ∧ len < 2 ^ 44 ∧ transferable pa.toNat len = true) ∧
  (∃ (s : State) (port : Nat) (pa : Word) (data : List Byte) (tile : Psn) (ctr : Nat) (t : State), portExists port = true ∧ isTilePsn tile = true ∧ ctr < 16 ∧
    transferable pa.toNat data.length = true ∧ s.landTransfer (externalPsn (port / 256) (port % 256)) (pieces pa.toNat data.length 1024) data = some t) :=
  ⟨⟨posted 4 0, 0, _, ⟨by decide, by decide +kernel, rfl, by decide +kernel, by decide +kernel⟩, by decide +kernel⟩,
   ⟨{ taken 4 0 with graphs := [{ graph0 with armed := true, launcher := some 0 }] }, 0, _, _, ⟨by decide, rfl, by decide +kernel⟩, rfl, rfl⟩,
   ⟨(posted 5 0).modRegion 0 (fun r => { r with graphStat := BitVec.ofNat 64 (2 ^ 63) }), 0, _, _, 0, ⟨by decide, by decide +kernel, rfl, by decide +kernel, by decide +kernel⟩, rfl, (by rfl), (by decide +kernel)⟩,
   ⟨posted 5 0, 0, _, _, 0, ⟨by decide, by decide +kernel, rfl, by decide +kernel, by decide +kernel⟩, rfl, (by rfl), (by decide +kernel)⟩,
   ⟨posted 6 0, 0, _, ⟨by decide, by decide +kernel, rfl, by decide +kernel, by decide +kernel⟩, by decide +kernel, by decide +kernel⟩,
   ⟨posted 7 5, 0, _, _, _, ⟨by decide, by decide +kernel, rfl, by decide +kernel, by decide +kernel⟩, rfl, rfl, by decide +kernel, by decide +kernel, by decide +kernel, by decide +kernel, by decide +kernel⟩,
   ⟨posted 8 5, 0, _, _, _, ⟨by decide, by decide +kernel, rfl, by decide +kernel, by decide +kernel⟩, rfl, rfl, (by decide +kernel), (by decide +kernel), (by decide +kernel)⟩,
   ⟨31, 0, 64, 0, by decide, by decide, by decide, rfl⟩,
   ⟨run, 256, 0, List.replicate 16 1, tilePsn 0 13, 15, _, rfl, rfl, by decide, rfl, by rfl⟩⟩

theorem met_ClusterSteps :
  (∃ (s : State), ∃ (r : Nat), ∃ n, ∃ c, r < 80 ∧ n < 36 ∧ c = s.getCluster r n ∧ clGated c = false ∧ clQuiesce c = false ∧ s.clusterUsed r n = true) ∧
  (∃ (s : State), ∃ (r : Nat), ∃ n, ∃ c, r < 80 ∧ n < 36 ∧ c = s.getCluster r n ∧ clGated c = false ∧ clQuiesce c = false ∧ s.clusterUsed r n = false) ∧
  (∃ (s : State), ∃ (r : Nat), ∃ n, ∃ c, r < 80 ∧ n < 36 ∧ c = s.getCluster r n ∧ clGated c = false ∧ clQuiesced c = true) ∧
  (∃ (s : State), ∃ (r : Nat), ∃ n, ∃ c, r < 80 ∧ n < 36 ∧ c = s.getCluster r n ∧ clGated c = false ∧ clQuiesced c = false) ∧
  (∃ (s : State), ∃ (r : Nat), ∃ n, ∃ c, r < 80 ∧ n < 36 ∧ c = s.getCluster r n ∧ clGated c = false ∧ clQuiesce c = true ∧ clQuiesced c = false ∧ s.clusterQuiet r n = true) ∧
  (∃ (s : State), ∃ (r : Nat), ∃ n, r < 80 ∧ n < 36 ∧ (s.getCluster r n).saving = true ∧ s.canRetain r n = true) ∧
  (∃ (s : State), ∃ (r : Nat), ∃ n, ∃ c, r < 80 ∧ n < 36 ∧ c = s.getCluster r n ∧ clGated c = true ∧ c.wake = none) ∧
  (∃ (s : State), ∃ (r : Nat), ∃ n, r < 80 ∧ n < 36 ∧ clGated (s.getCluster r n) = false) ∧
  (∃ (s : State), ∃ id, ∃ b, ∃ p, ∃ source, s.item id = some b ∧ s.arrivesAt b = some (p, source) ∧ s.gated p = true ∧ (s.getCluster (psnRegion p) (clusterOf p)).held.contains id = false) ∧
  (∃ (s : State), ∃ (r : Nat), ∃ n, ∃ t, r < 80 ∧ n < 36 ∧ (s.getCluster r n).wake = some t) ∧
  (∃ (s : State), ∃ (r : Nat), ∃ n, ∃ t, r < 80 ∧ n < 36 ∧ (s.getCluster r n).wake = some t ∧ t + 100000 ≤ s.tsc.toNat) :=
  ⟨⟨run, 0, 0, _, by decide, by decide, rfl, rfl, rfl, (by decide +kernel)⟩,
   ⟨blank, 0, 0, _, by decide, by decide, rfl, rfl, rfl, blank_unused⟩,
   ⟨clustered { Cluster.reset with stat := BitVec.ofNat 64 (2 ^ 63) }, 0, 0, _, by decide, by decide, rfl, rfl, rfl⟩,
   ⟨run, 0, 0, _, by decide, by decide, rfl, rfl, rfl⟩,
   ⟨{ freed with regions := [{ Region.reset 0 with clusters := [(0, { Cluster.reset with ctl := BitVec.ofNat 64 (2 ^ 63) })] }] }, 0, 0, _, by decide, by decide, rfl, rfl, rfl, rfl, rfl⟩,
   ⟨clustered { Cluster.reset with saving := true }, 0, 0, by decide, by decide, rfl, rfl⟩,
   ⟨clustered gatedCluster, 0, 0, _, by decide, by decide, rfl, rfl, rfl⟩,
   ⟨run, 0, 0, by decide, by decide, rfl⟩,
   ⟨{ clustered gatedCluster with flight := [{ id := 1, body := .snuffnote 0 5 false }] }, 1, _, _, _, rfl, rfl, rfl, rfl⟩,
   ⟨clustered { gatedCluster with wake := some 0 }, 0, 0, _, by decide, by decide, rfl⟩,
   ⟨{ clustered { gatedCluster with wake := some 0 } with tsc := 100000 }, 0, 0, _, by decide, by decide, rfl, by decide⟩⟩

theorem met_ModuleSteps :
  (∃ watts : Nat, 25000 < watts) ∧
  (∃ (watts : Nat), 23000 ≤ watts ∧ watts ≤ 25000) ∧
  (∃ (s : State), s.module.booted = false ∧ s.module.monitorOnly = false) ∧
  (∃ (s : State), s.module.booted = true) ∧
  (∃ (s : State), ∃ g, g ∈ s.graphs ∧ g.stat = 1) ∧
  (∃ (s : State), (∀ g ∈ s.graphs, g.stat ≠ 1 ∧ g.stat ≠ 2 ∧ g.stat ≠ 4) ∧ s.module.lowPower = false) ∧
  (∃ u : Nat, u < 112) :=
  ⟨⟨25001, by decide⟩,
   ⟨25000, by decide, by decide⟩,
   ⟨State.reset, rfl, rfl⟩,
   ⟨posted 1 0, rfl⟩,
   ⟨graphed graph0, _, List.mem_cons_self, rfl⟩,
   ⟨run, (fun g hg => by cases hg), rfl⟩,
   ⟨111, by decide⟩⟩

theorem met_IssueOutcomes :
  (∃ (i : Instr), ∃ f, ∃ (s : State), formOf i = some f ∧ s.core.act = none) ∧
  (∃ (i : Instr), ∃ f, ∃ (s : State), formOf i = some f ∧ ∃ a, s.core.act = some a ∧ a.halted.isSome) ∧
  (∃ (i : Instr), ∃ f, ∃ (s : State), formOf i = some f ∧ ∃ a, s.core.act = some a ∧ a.halted = none ∧ attachedMember a = false ∧ privileged i = true ∧ s.level = .graph) ∧
  (∃ (i : Instr), ∃ f, ∃ (s : State), formOf i = some f ∧ ∃ a, s.core.act = some a ∧ a.halted = none ∧ attachedMember a = false ∧ ∃ n, (privileged i = false ∨ s.level ≠ .graph) ∧ f.gs.find? (fun n => decide (a.window ≤ n)) = some n) ∧
  (∃ (i : Instr), ∃ f, ∃ (s : State), formOf i = some f ∧ ∃ a, s.core.act = some a ∧ a.halted = none ∧ (privileged i = false ∨ s.level ≠ .graph) ∧ (∀ n ∈ f.gs, n < a.window) ∧ s.core.isPending (.p f.guard) = true) ∧
  (∃ (i : Instr), ∃ f, ∃ (s : State), formOf i = some f ∧ ∃ a, s.core.act = some a ∧ a.halted = none ∧ (privileged i = false ∨ s.level ≠ .graph) ∧ (∀ n ∈ f.gs, n < a.window) ∧ s.core.isPending (.p f.guard) = false ∧ s.guardRuns f = false) ∧
  (∃ (i : Instr), ∃ f, ∃ (s : State), formOf i = some f ∧ ∃ a, s.core.act = some a ∧ a.halted = none ∧ (privileged i = false ∨ s.level ≠ .graph) ∧ (∀ n ∈ f.gs, n < a.window) ∧ s.core.isPending (.p f.guard) = false ∧ s.guardRuns f = true ∧ f.holds = false ∧ s.gone (s.tok f.after) = false) ∧
  (∃ (i : Instr), ∃ f, ∃ (s : State), formOf i = some f ∧ ∃ a, s.core.act = some a ∧ a.halted = none ∧ (privileged i = false ∨ s.level ≠ .graph) ∧ (∀ n ∈ f.gs, n < a.window) ∧ s.core.isPending (.p f.guard) = false ∧ s.guardRuns f = true ∧ (∃ r ∈ f.regs, s.core.isPending r = true)) :=
  ⟨⟨.add lx, _, freed, rfl, rfl⟩,
   ⟨.add lx, _, run.mapAct (fun a => { a with halted := some (acc0.refusal 1 .capbound) }), rfl, _, rfl, by decide⟩,
   ⟨.gate lx, _, run, rfl, _, rfl, rfl, rfl, rfl, rfl⟩,
   ⟨.add { lx with a := 8 }, _, run.mapAct (fun a => { a with window := 8 }), rfl, _, rfl, rfl, rfl, _, Or.inl rfl, rfl⟩,
   ⟨.add { lx with guard := 1 }, _, run.mapCore (fun c => { c with pend := [(.p 1, 9)] }), rfl, _, rfl, rfl, Or.inl rfl, by decide, rfl⟩,
   ⟨.add { lx with guard := 1 }, _, run, rfl, _, rfl, rfl, Or.inl rfl, by decide, rfl, rfl⟩,
   ⟨.add { lx with after := 1 }, _, { run.mapCore (fun c => { c with regs := { c.regs with tok := put c.regs.tok 1 [5] } }) with flight := [waiter 5] }, rfl, _, rfl, rfl, Or.inl rfl, by decide, rfl, rfl, rfl, rfl⟩,
   ⟨.add { lx with a := 1 }, _, run.mapCore (fun c => { c with pend := [(.g 1, 9)] }), rfl, _, rfl, rfl, Or.inl rfl, by decide, rfl, rfl, ⟨.g 1, by decide, rfl⟩⟩⟩

theorem met_RelativeOperands :
  (∃ (s : State) (idx : Reg) (k : Int), (s.g idx.toNat).toInt + k < 0 ∨ (s.window : Int) ≤ (s.g idx.toNat).toInt + k) ∧
  (∃ (s : State) (idx : Reg) (k : Int) (n : Nat), (s.g idx.toNat).toInt + k = n ∧ n < s.window ∧ s.core.isPending (.g n) = false) ∧
  (∃ e ∈ long2, ∃ x, ∃ s, ∃ n, issues (e.1 x) s = true ∧ (x.srcA (past (e.1 x) s) = .error (.window n) ∨ (∃ a, x.srcA (past (e.1 x) s) = .ok a ∧ x.srcB (past (e.1 x) s) = .error (.window n)) ∨ (∃ a b, x.srcA (past (e.1 x) s) = .ok a ∧ x.srcB (past (e.1 x) s) = .ok b ∧ x.dst (past (e.1 x) s) = .error (.window n)))) ∧
  (∃ (x : Long), x.isRel = true ∧ x.relA = true) ∧
  (∃ (x : Long), x.isRel = true ∧ x.relB = true) ∧
  (∃ (x : Long), x.isRel = true ∧ x.relD = true) ∧
  (∃ (x : Long), x.isRel = false) ∧
  (∃ (x : Long), x.isRel = false ∧ x.form ≠ 1) ∧
  (∃ (x : Long), x.isRel = false ∧ x.form = 1 ∧ x.wide = false) ∧
  (∃ (x : Long), x.isRel = false ∧ x.form = 1 ∧ x.wide = true ∧ isSigned x.ty = true) ∧
  (∃ (x : Long), x.isRel = false ∧ x.form = 1 ∧ x.wide = true ∧ isUnsigned x.ty = true) :=
  ⟨⟨run, 0, 64, by decide⟩,
   ⟨run, 0, 63, 63, rfl, by decide, rfl⟩,
   ⟨(.add, elemAdd), List.mem_cons_self, { lx with wide := true, sub := 8, a := 5, lit := 0x02000000 }, run.setG 5 64, 64, rfl, Or.inl rfl⟩,
   ⟨{ lx with wide := true, sub := 8, lit := 0x07000000 }, rfl, rfl⟩,
   ⟨{ lx with wide := true, sub := 8, lit := 0x07000000 }, rfl, rfl⟩,
   ⟨{ lx with wide := true, sub := 8, lit := 0x07000000 }, rfl, rfl⟩,
   ⟨lx, rfl⟩,
   ⟨lx, rfl, by decide⟩,
   ⟨{ lx with sub := 4 }, rfl, rfl, rfl⟩,
   ⟨{ lx with wide := true, sub := 4 }, rfl, rfl, rfl, rfl⟩,
   ⟨{ lx with wide := true, sub := 4, hi := 0x400 }, rfl, rfl, rfl, rfl⟩⟩

theorem met_TakingAFault :
  (∃ (s : State), ∃ a, ∃ tile, ∃ i, s.level = .graph ∧ s.core.act = some a ∧ a.entry < 20 ∧ a.gang = none ∧ s.homeTile s.core = some tile ∧ (s.getTile tile).freeFull = some i ∧ s.drained s.core.psn a.serial = true ∧ s.core.unsent.length < 4) ∧
  (∃ (s : State), ∃ a, ∃ tile, s.level = .graph ∧ s.core.act = some a ∧ s.homeTile s.core = some tile ∧ a.halted = none ∧ ((s.getTile tile).freeFull = none ∨ s.drained s.core.psn a.serial = false ∨ 4 ≤ s.core.unsent.length)) :=
  ⟨⟨run, _, _, _, rfl, rfl, by decide, rfl, rfl, rfl, rfl, by decide⟩,
   ⟨asked acc0, _, _, rfl, rfl, rfl, rfl, Or.inr (Or.inl rfl)⟩⟩

theorem met_HardwiredRegisters :
  ∃ e ∈ short2, ∃ x, ∃ s, issues (e.1 x) s = true ∧ x.d = 0 :=
  ⟨_, List.mem_cons_self, ax, run, rfl, rfl⟩

theorem met_ScalarFrame :
  (∃ e ∈ long1, ∃ x, ∃ s, ∃ a, ∃ d, ∃ t, issues (e.1 x) s = true ∧ x.srcA (past (e.1 x) s) = .ok a ∧ x.dst (past (e.1 x) s) = .ok d ∧ exec (e.1 x) s = .next t) ∧
  (∃ e ∈ long2, ∃ x, ∃ s, ∃ a, ∃ b, ∃ d, ∃ t, issues (e.1 x) s = true ∧ x.srcA (past (e.1 x) s) = .ok a ∧ x.srcB (past (e.1 x) s) = .ok b ∧ x.dst (past (e.1 x) s) = .ok d ∧ exec (e.1 x) s = .next t) ∧
  (∃ e ∈ long3, ∃ x, ∃ s, ∃ a, ∃ b, ∃ c, ∃ d, ∃ t, issues (e.1 x) s = true ∧ x.srcA (past (e.1 x) s) = .ok a ∧ x.srcB (past (e.1 x) s) = .ok b ∧ x.srcC (past (e.1 x) s) = .ok c ∧ x.dst (past (e.1 x) s) = .ok d ∧ exec (e.1 x) s = .next t) ∧
  (∃ e ∈ short1, ∃ x, ∃ s, ∃ t, issues (e.1 x) s = true ∧ exec (e.1 x) s = .next t) ∧
  (∃ e ∈ short2, ∃ x, ∃ s, ∃ t, issues (e.1 x) s = true ∧ exec (e.1 x) s = .next t) ∧
  (∃ e ∈ immediate2, ∃ x, ∃ s, ∃ t, issues (e.1 x) s = true ∧ exec (e.1 x) s = .next t) :=
  ⟨⟨_, List.mem_cons_self, lx, run, _, _, _, rfl, rfl, rfl, rfl⟩,
   ⟨_, List.mem_cons_self, lx, run, _, _, _, _, rfl, rfl, rfl, rfl, rfl⟩,
   ⟨_, List.mem_cons_self, lx, run, _, _, _, _, _, rfl, rfl, rfl, rfl, rfl, rfl⟩,
   ⟨_, List.mem_cons_self, ax, run, _, rfl, rfl⟩,
   ⟨_, List.mem_cons_self, ax, run, _, rfl, rfl⟩,
   ⟨_, List.mem_cons_self, bx, run, _, rfl, rfl⟩⟩

theorem met_ResetValues :
  ∃ e : Nat, e < 19 :=
  ⟨18, by decide⟩

theorem met_DecodeAfterEncode :
  ∃ i : Instr, wellFormed i = true ∧ hasEncoding i = true :=
  ⟨.addL32A { sub := 2, b := 7, a := 6, d := 5 }, by decide, by decide⟩

theorem met_DecodingIsExact :
  ∃ (ps : List Parcel) (i : Instr) (rest : List Parcel), decode ps = some (i, rest) :=
  ⟨[0x21C61404], _, _, rfl⟩

theorem met_StepRunsDecoded :
  (∃ (s : State), ∃ ps, ∃ t, ∃ i, ∃ u, s.schedule = [] ∧ s.boundary = none ∧ s.mayIssue = true ∧ s.core.waiting = false ∧ s.core.act.bind Act.received = none ∧ s.fetch = .words ps t ∧ decodeParcels (ps.getD 0 0) (ps.getD 1 0) (ps.getD 2 0) = some i ∧ exec i t = .next u) ∧
  (∃ (s : State), ∃ ps, ∃ t, s.schedule = [] ∧ s.boundary = none ∧ s.mayIssue = true ∧ s.core.waiting = false ∧ s.core.act.bind Act.received = none ∧ s.fetch = .words ps t ∧ decodeParcels (ps.getD 0 0) (ps.getD 1 0) (ps.getD 2 0) = none) ∧
  (∃ (s : State), ∃ a, ∃ addr, ∃ n, s.core.act = some a ∧ s.core.regs.fetch.space = 0 ∧ s.upsets = [] ∧ (∀ k ∈ [0, 4, 8], s.checkCap Ask.fetch s.core.regs.fetch (s.core.regs.pc + BitVec.ofNat 64 k).toInt 4 = .ok (addr + k)) ∧ n = parcelCount (BitVec.ofNat 32 (ofLe (s.localBytes s.core addr 4)))) :=
  ⟨⟨run.placeWord 32 0x21C61404, _, _, .addL32A { sub := 2, b := 7, a := 6, d := 5 }, _, rfl, rfl, rfl, rfl, rfl, rfl, rfl, (by rfl)⟩,
   ⟨run, _, _, rfl, rfl, rfl, rfl, rfl, rfl, rfl⟩,
   ⟨run, _, 0, _, rfl, rfl, rfl, (fun k hk => match k, hk with | _, .head _ => rfl | _, .tail _ (.head _) => rfl | _, .tail _ (.tail _ (.head _)) => rfl), rfl⟩⟩

theorem met_UncorrectableErrors :
  (∃ x, ∃ y, ∃ s, ∃ act, ∃ a, ∃ m ∈ loadForms x y, m.atLocal s act a ∧ s.core.isPending (.g m.clears) = false ∧ (((past m.instr s).touch [localPart a m.size]).setG m.clears 0).hasRoom act (m.order s) [localPart a m.size] = true ∧ s.spoiled (localKey s.core.psn a) m.size = true) ∧
  (∃ (s : State), ∃ id, ∃ a, ∃ t, ∃ off, ∃ u, arrivesAtTile s id a t off u ∧ segMode ((u.getTile t).seg (off / 65536)) = 0 ∧ a.kind = .load ∧ u.spoiled (tileKey t off) a.size = true) ∧
  (∃ (s : State), ∃ id, ∃ a, ∃ pa, turnOf s id a pa 0 ∧ s.hasKey a.key = true ∧ a.kind = .load ∧ s.spoiled pa a.size = true) ∧
  (∃ (s : State), ∃ region, ∃ ctx, ∃ va, ∃ root, root = at_ (s.getRegion region).graphRoot ctx 0 ∧ bit root 0 = true ∧ s.spoiled (fld root 47 9 * 512 + 8 * (va / 2 ^ 42 % 64)) 8 = true) :=
  ⟨⟨lx, bx, spoiling (localKey 0 0 / 8) run, _, 0, longLoad .ld lx lx.order, List.mem_cons_self, ⟨rfl, rfl, rfl, rfl, rfl, rfl, by decide⟩, rfl, rfl, (by decide +kernel)⟩,
   ⟨spoiling (tileKey (tilePsn 0 13) 0 / 8) (asked acc0), 1, _, _, _, _, ⟨⟨rfl, rfl, rfl, rfl, rfl, rfl, rfl, rfl, by decide, rfl, by decide, by decide, rfl⟩, rfl⟩, rfl, rfl, rfl⟩,
   ⟨spoiling 0 (asked (dram0 0)), 1, _, _, ⟨⟨rfl, rfl, Or.inr rfl, rfl, rfl, rfl⟩, by rfl⟩, rfl, rfl, rfl⟩,
   ⟨spoiling 0 mapped, 0, 0, 0, _, rfl, rfl, rfl⟩⟩

theorem met_LocalStoresKeepTheForm :
  ∃ x, ∃ y, ∃ s, ∃ act, ∃ a, ∃ m ∈ storeForms x y, m.atLocal s act a ∧ memoryOk s = true :=
  ⟨lx, bx, run, _, _, longStore .st lx lx.order, List.mem_cons_self, ⟨rfl, rfl, rfl, rfl, rfl, rfl, by decide⟩, rfl⟩

end Sys2Proof.Tests
end

