-- ==== Sys2Proof/Tests/Slice0.lean ====
section
/-! SUPPORT. The model's own tests: decoding of words written out from the encodings of spec/, a term that each check of WellFormed refuses,
and single steps whose results the examples of spec/ state. -/
namespace Sys2Proof.Tests
open Sys2Proof Sys2Proof.Machine Sys2Proof.Claims
-- The kernel evaluates these theorems one after another.
set_option Elab.async false

/-- The state that an outcome goes on with. -/
def next? (o : Host.Outcome State Fault Refusal) : Option State :=
  match o with
  | .next s => some s
  | .fault _ => none
  | .refused _ => none
/-- A general register after an instruction. -/
noncomputable def gAfter (i : Instr) (s : State) (n : Nat) : Option Nat := (next? (exec i s)).map (fun t => (t.g n).toNat)
/-- The code and DETAIL of the fault that halts the activation, or of the record it leaves. -/
noncomputable def codeAfter (i : Instr) (s : State) : Option Code :=
  (next? (exec i s)).bind (fun t => match t.core.act with
    | some a => a.halted.map FaultInfo.code
    | none => (t.tiles.flatMap Tile.records).head?.bind (fun r => r.full.map (fun f => f.fault.code)))

/-! Decoding: words from the encodings and examples of spec/. -/

/-- R242 (11): END is 0x0000_01A4 and NOP 0x0000_01CC. -/
theorem test_decode_end : decodeTableWord 32 0x000001A4 = some (.endL32A { sub := 0, b := 0, a := 0, d := 0 }) := by decide
theorem test_decode_nop : decodeTableWord 32 0x000001CC = some (.nopL32A { sub := 0, b := 0, a := 0, d := 0 }) := by decide
/-- R240: ON 0x000 and ON 0x3FF are unassigned. -/
theorem test_decode_zeros : decodeTableWord 32 0 = none := by decide
theorem test_decode_ones : decodeTableWord 96 (2 ^ 96 - 1) = none := by decide +kernel
/-- R243's example: C 1 gives a scope that ST does not take. -/
theorem test_decode_st_scope : decodeTableWord 64 0x0102AD8107089406 = none := by decide +kernel
/-- R237's example: FADD.f32 g[g5 + 1], g[g5 + 0], g9. -/
theorem test_decode_fadd_relative : decodeTableWord 96 0x03000001A000020009145103 =
    some (.fadd { lx with wide := true, b := 9, a := 5, d := 5, hi := 0xA00, sub := 8, lit := 0x03000001 }) := by decide +kernel
/-- R266's example: ADDC in L32A. -/
theorem test_decode_addc : decodeTableWord 32 0x71432408 = some (.addcL32A { sub := 7, b := 5, a := 3, d := 9 }) := by decide +kernel
/-- R267's example: CMP.i64.lt p2, g5, g6. -/
theorem test_decode_cmp : decodeTableWord 64 0x30000000061520AE = some (.cmp { lx with b := 6, a := 5, d := 0x12, hi := 0x300 }) := by decide +kernel
/-- R275's listing. -/
theorem test_decode_li : decodeTableWord 32 0x00400341 = some (.liI64L32B { imm := 4, a := 0, d := 3 }) := by decide +kernel
theorem test_decode_loops : decodeTableWord 64 0xFFF00000000031A2 = some (.loops { lx with d := 3, hi := 0xFFF }) := by decide +kernel
/-- R317's example: ACAS.n64 g4, [c3 + g7 + #8] emit o1. -/
theorem test_decode_acas : decodeTableWord 64 0x008041C0070C443E = some (.acas { lx with b := 7, a := 3, d := 4, hi := 8, emit := 1, sub := 7 }) := by
  decide +kernel
/-- R338's example: VADD.f32 v8, v8, v0, and the same governed by p2 with zeroing. -/
theorem test_decode_vadd : decodeTableWord 64 0xA000028000208662 = some (.vadd { lx with a := 8, d := 8, hi := 0xA00, sub := 10 }) := by decide +kernel
/-- R358's example: VPACK.sx4.f32 v9, v7, #0, #0. -/
theorem test_decode_vpack : decodeTableWord 64 0xD000000A001C9706 = some (.vpack { lx with a := 7, d := 9, hi := 0xD00, c := 10 }) := by decide +kernel
/-- R370's example: MMA a1, g4, g5, #64 emit o1, and the listing's MREADK.f32 v8, a1, #3. -/
theorem test_decode_mma : decodeTableWord 64 0x0030400005101806 = some (.mma { lx with b := 5, a := 4, d := 1, hi := 3, emit := 1 }) := by decide +kernel
theorem test_decode_mreadk : decodeTableWord 64 0xA000000301008826 = some (.mreadk { lx with b := 1, d := 8, hi := 0xA00, c := 3 }) := by decide +kernel
/-- R372: MZERO with SUB 1 is no instruction. -/
theorem test_decode_mzero_kind : decodeTableWord 64 ((1 * 64) * 2 ^ 32 + 0x200 * 4 + 2) = none := by decide +kernel

/-! WellFormed: for each check a term that it refuses. -/

/-- The form has no L96 encoding (R240). -/
theorem test_wf_wide : wellFormed (.mma { lx with wide := true }) = false := by decide
/-- A literal without a third parcel. -/
theorem test_wf_literal : wellFormed (.add { lx with lit := 1 }) = false := by decide
/-- GINV without a guard (R230). -/
theorem test_wf_ginv : wellFormed (.add { lx with ginv := true }) = false := by decide
/-- EMIT where the instruction performs no memory access (R232). -/
theorem test_wf_emit : wellFormed (.add { lx with emit := 1 }) = false := by decide
/-- A field of a class beyond its registers: p8 as a destination, v32, c16, a4. -/
theorem test_wf_p : wellFormed (.pand { lx with d := 8 }) = false := by decide
theorem test_wf_v : wellFormed (.vadd { lx with d := 32 }) = false := by decide
theorem test_wf_c : wellFormed (.cderive { lx with a := 16 }) = false := by decide
theorem test_wf_acc : wellFormed (.mzero { lx with d := 4 }) = false := by decide
/-- A row's own rule: an undefined COND, a type the short row has not, an IMM12 the short-opcode row refuses. -/
theorem test_wf_row : wellFormed (.cmp { lx with d := 0x38 }) = false := by decide
theorem test_wf_short_a : wellFormed (.nopL32A { sub := 1, b := 0, a := 0, d := 0 }) = false := by decide
theorem test_wf_short_b : wellFormed (.liI64L32B { imm := 0, a := 1, d := 0 }) = false := by decide
/-- The numbers of a step of another agent: region 80, lane 4 of a link, core 36 clusters, host 4. -/
theorem test_wf_region : wellFormed (.pageWalk ⟨80, 0⟩) = false := by decide
theorem test_wf_lane : wellFormed (.linkAuditStart 1 1 4) = false := by decide
theorem test_wf_cluster : wellFormed (.pwrQuiesce 0 36) = false := by decide
theorem test_wf_host : wellFormed (.read 4) = false := by decide

/-! Places and addresses (01, 04). -/

/-- R12, R18: the tile at (5, 7) is core 86; core 86 of region 40 has PSN 0x5_0056. -/
theorem test_core_place : tileX 0 86 = 5 ∧ tileY 86 = 7 := by decide
theorem test_core_psn : corePsn 40 86 = 0x50056 := by decide
/-- R39: EXCH 0x0123_4567 is byte 0x1567 of slot 14 of region 20. -/
theorem test_exch : run.exchPlace 0x01234567 = ((run.getRegion 20).bankAt 14).map (fun t => (t, 0x1567)) := by decide +kernel
/-- R105: the physical address 0x3A00_89AB is in stack 2, channel 1. -/
theorem test_dram : dramStack 0x3A0089AB = 2 ∧ dramChan 0x3A0089AB = 1 := by decide
/-- R87: the first, fifth and last offsets of the example. -/
theorem test_pattern : (fun p : Pattern => (p.offset 0, p.offset 4, p.offset 7)) { base := 0, elog := 2, first := 0x30000, counts := [4, 2, 1, 1], strides := [1, 16, 0, 0] } =
    (0x30000, 0x30040, 0x3004C) := by decide

/-! Arithmetic (05, 10). -/

/-- R256: FP32 0x3F80_8000 to BF16 in RNE and RUP, and 0x3F80_8001 in RNE. -/
theorem test_narrow_even : encodeFp 9 0 (fpOf 10 0x3F808000) = 0x3F80 := by decide +kernel
theorem test_narrow_up : encodeFp 9 3 (fpOf 10 0x3F808000) = 0x3F81 := by decide +kernel
theorem test_narrow_above : encodeFp 9 0 (fpOf 10 0x3F808001) = 0x3F81 := by decide +kernel
/-- R257: 2.5 to .i8 in RNE and RUP, −2.5 in RUP, 300.5, −Inf, −1.0 to .n8. -/
theorem test_to_int_even : toInt 0 0 (fpOf 10 0x40200000) = 2 := by decide +kernel
theorem test_to_int_up : toInt 0 3 (fpOf 10 0x40200000) = 3 := by decide +kernel
theorem test_to_int_up_negative : toInt 0 3 (fpOf 10 0xC0200000) = -2 := by decide +kernel
theorem test_to_int_clamp : toInt 0 0 (fpOf 10 0x43964000) = 127 := by decide +kernel
theorem test_to_int_inf : toInt 0 0 (fpOf 10 0xFF800000) = -128 := by decide +kernel
theorem test_to_int_unsigned : toInt 4 0 (fpOf 10 0xBF800000) = 0 := by decide +kernel
/-- R258: the SX4 group of 1.5, −0.625, 2.25 and thirteen zeros is 0x26AC_0180. -/
theorem test_to_sx4 : toSx 13 0 false ([0x3FC00000, 0xBF200000, 0x40100000].map (fpOf 10) ++ List.replicate 13 (fpOf 10 0)) = 0x26AC0180 := by
  decide +kernel
/-- R133: that group's elements 0 to 2 with S = 0, and with S = −2 (the example under R140). -/
theorem test_sx4_value : (List.range 3).map (fun i => encodeFp 10 0 (sxValue 13 0 0x26AC0180 i)) = [0x3FC00000, 0xBF200000, 0x40100000] := by decide +kernel
theorem test_sx4_scaled : (List.range 3).map (fun i => encodeFp 10 0 (sxValue 13 (-2) 0x26AC0180 i)) = [0x3EC00000, 0xBE200000, 0x3F100000] := by
  decide +kernel
/-- R134: element 1 of the Q4G block of the example is (10 − 8) × 0.125. -/
theorem test_q4g_value : encodeFp 10 0 (blockValue 0xA3083E0021 1) = 0x3E800000 := by decide +kernel
/-- R255: −128 divided by −1 in .i8, and a divisor 0. -/
theorem test_div_corner : gAfter (.divL32A { sub := 0, b := 2, a := 1, d := 3 }) ((run.setG 1 (-128)).setG 2 (-1)) 3 = some (2 ^ 64 - 128) := by decide +kernel
theorem test_div_zero : gAfter (.divL32A { sub := 0, b := 2, a := 1, d := 3 }) (run.setG 1 7) 3 = some (2 ^ 64 - 1) := by decide +kernel
/-- FIPS-197, C.3: AES-256 of the example block. -/
theorem test_aes : Aes.encrypt (List.range 32) ((List.range 16).map (fun i => 17 * i)) =
    [0x8E, 0xA2, 0xB7, 0xCA, 0x51, 0x67, 0x45, 0xBF, 0xEA, 0xFC, 0x49, 0x90, 0x4B, 0x49, 0x60, 0x89] := by decide +kernel

/-! Single steps (11 to 14). -/

/-- R266: the carry of the 128-bit addition. -/
theorem test_addc : gAfter (.addcL32A { sub := 7, b := 5, a := 3, d := 9 }) ((run.setG 3 (-1)).setG 5 1) 9 = some 1 := by decide +kernel
theorem test_add_wraps : gAfter (.addL32A { sub := 2, b := 7, a := 6, d := 5 }) ((run.setG 6 0x7FFFFFFF).setG 7 1) 5 = some 0xFFFFFFFF80000000 := by
  decide +kernel
/-- R267: LIH after LI. -/
theorem test_lih : gAfter (.lih { lx with wide := true, sub := 4, a := 5, d := 5, lit := 0x89ABCDEF }) (run.setG 5 0x01234567) 5 = some 0x0123456789ABCDEF := by
  decide +kernel
/-- R275's listing: LOOPS at g3 = 2 branches back one parcel, at g3 = 1 it goes on. -/
theorem test_loops_taken : (next? (exec (.loops { lx with d := 3, hi := 0xFFF }) ((run.setG 3 2).mapCore (fun c => { c with regs := { c.regs with pc := 12 } })))).map
    (fun t => ((t.g 3).toNat, t.core.regs.pc.toNat)) = some (1, 8) := by decide +kernel
theorem test_loops_over : (next? (exec (.loops { lx with d := 3, hi := 0xFFF }) ((run.setG 3 1).mapCore (fun c => { c with regs := { c.regs with pc := 12 } })))).map
    (fun t => ((t.g 3).toNat, t.core.regs.pc.toNat)) = some (0, 20) := by decide +kernel
/-- R282's example, with c2 of R44: a derived capability, and CAPBOUND with a length beyond the parent's. -/
def parent : Cap := Cap.make 3 0x1B 0 0x10000 0x012345670000
theorem test_cderive : (next? (exec (.cderive { lx with a := 2, b := 5, c := 6, d := 3 }) (((run.setC 2 parent).setG 5 0x100).setG 6 0x200))).map
    (fun t => t.c 3) = some (Cap.make 3 0x1B 0 0x200 0x012345670100) := by decide +kernel
theorem test_cderive_bound : codeAfter (.cderive { lx with a := 2, b := 5, c := 6, d := 3 }) (((run.setC 2 parent).setG 5 0x100).setG 6 0x10000) =
    some .capbound := by decide +kernel
/-- R237's example: g5 = 7 names g8 in a window of 8. -/
theorem test_relative_window : codeAfter (.fadd { lx with wide := true, b := 4, a := 5, d := 5, hi := 0xA00, sub := 8, lit := 0x03000001 })
    ((run.mapAct (fun a => { a with window := 8 })).setG 5 7) = some .window := by decide +kernel
/-- R386's example: the entry word arms S_TAG 0x0011, W_TAG 0x0021, HOLD 2, ACC 1, FMT BF16. -/
theorem test_rmset : (next? (exec (.rmset { lx with a := 6, hi := 5 }) (ringed.setG 6 0x0000250200210011))).map
    (fun t => (mState (t.core.entry 5), mTag (t.core.entry 5) false, mTag (t.core.entry 5) true, mAcc (t.core.entry 5), mFmt (t.core.entry 5))) =
    some (1, 0x11, 0x21, 1, 9) := by decide +kernel
/-- R358's example: VPACK.sx4.f32 of 1.5, −0.625, 2.25, and VUNPACK.bf16.sx4 of the group. -/
theorem test_vpack : (next? (exec (.vpack { lx with a := 7, d := 9, hi := 0xD00, c := 10 })
    (run.setV 7 (BitVec.ofNat 512 (0x3FC00000 + 0xBF200000 * 2 ^ 32 + 0x40100000 * 2 ^ 64))))).map (fun t => fld (t.v 9) 95 0) = some 0x26AC0180 := by
  decide +kernel
theorem test_vunpack : (next? (exec (.vunpack { lx with a := 9, d := 10, hi := 0x900, c := 13 }) (run.setV 9 (BitVec.ofNat 512 0x26AC0180)))).map
    (fun t => fld (t.v 10) 63 0) = some 0x4010BF203FC0 := by decide +kernel
/-- R60's walk: the leaf of the example and its physical address. -/
def walked : State :=
  (((run.modRegion 0 (fun r => { r with graphRoot := put r.graphRoot 3 (BitVec.ofNat 64 0x0050000000100001) })).poke 0x100000
    (leBytes 8 0x2000000001)).poke 0x2048D0 (leBytes 8 0x2100000001)).poke 0x212B38 (leBytes 8 0x00003A0000513203)
theorem test_walk : ({ walked with module := { walked.module with keySlots := [(5, 0)] } }.findLeaf 0 3 0x0123456789AB : Found) =
    .leaf (BitVec.ofNat 64 0x00003A0000513203) 16 0x212B38 := by decide +kernel
/-- R6, R242: a privileged instruction at graph level raises PRIV. -/
theorem test_priv : codeAfter (.gate lx) run = some .priv := by decide +kernel
/-- R304: a byte load extends by its type: LD.i8 of 0x80 in LOCAL. -/
theorem test_load_byte : gAfter (.ld { lx with d := 3, hi := 8 }) (run.poke (localKey 0 8) [0x80]) 3 = some 0xFFFFFFFFFFFFFF80 := by decide +kernel
/-- Reset and the placement of a word: the next step runs it. -/
theorem test_step_add : (next? (step ((run.setG 6 2).setG 7 3 |>.placeWord 32 0x21C61404))).map (fun t => (t.g 5).toNat) = some 5 := by decide +kernel
theorem test_step_reset : (next? (step (State.reset.withFetchWord 32 0xFFD18501))).map (fun t => (t.g 5).toNat) = some (2 ^ 64 - 3) := by decide +kernel

end Sys2Proof.Tests
end

section
/-! 00 R6, 09 R242 and R243, 11 R296 to R300, 12 R331: what privilege refuses at graph level, and what the privileged
instructions do above it. -/
namespace Sys2Proof.Laws
open Sys2Proof Sys2Proof.Machine

/-! How an instruction that issues ends, from what its body answers. -/

theorem settle_priv (f : Form) (s : State) (n : Nat) :
    settle f s (.error (.priv n)) = .next (s.takeFault { code := .priv, detail := parcelDetail f.words n }) := rfl

theorem run_body_ok {i : Instr} {f : Form} {s t : State} {body : Body'} (run : exec i s = settle f s (body (past i s)))
    (hb : body (past i s) = .ok t) : exec i s = .next t := by rw [run, hb, settle_ok]

theorem run_body_priv {i : Instr} {f : Form} {s : State} {n : Nat} {body : Body'} (run : exec i s = settle f s (body (past i s)))
    (hw : f.words = encode i) (hb : body (past i s) = .error (.priv n)) :
    exec i s = .next (s.takeFault { code := .priv, detail := parcelDetail (encode i) n }) := by rw [run, hb, settle_priv, hw]

/-- R243 step 3 comes before every check of the operands: nothing but a running activation is asked for. -/
theorem issue_priv (f : Form) (body : Body') {s : State} {a : Act} (hl : s.level = .graph) (ha : s.core.act = some a)
    (hh : a.halted = none) : issue f true body s = settle f s (.error (.priv 3)) := by
  simp [issue, ha, hh, hl]

theorem privileged_at_graph_level {i : Instr} {f : Form} {s : State} {a : Act}
    (hi : ∃ body, ∀ s, exec i s = issue f true body s) (hw : f.words = encode i)
    (hl : s.level = .graph) (ha : s.core.act = some a) (hh : a.halted = none) :
    exec i s = .next (s.takeFault { code := .priv, detail := parcelDetail (encode i) 3 }) := by
  obtain ⟨body, hbody⟩ := hi
  rw [hbody, issue_priv f body hl ha hh, settle_priv, hw]

/-! The bodies that check the level at their execution (step 6). -/

theorem sysWriteBody_graph (r a : Nat) {s : State} (hl : s.level = .graph) : sysWriteBody r a s = .error (.priv 6) := by
  simp [sysWriteBody, hl]
theorem sysRead_graph {r : Nat} {s : State} (hl : s.level = .graph) (hr : 0x100 ≤ r) : s.sysRead r = .error (.priv 6) := by
  simp [State.sysRead, hl, hr]
theorem addBody_graph {q : Nat} (n : State → Nat) {s : State} (hl : s.level = .graph) (hq : 48 ≤ q) :
    addBody q n s = .error (.priv 6) := by
  simp [addBody, hl, hq]

/-! The checks of the operands that pass, and the bodies of the privileged instructions behind them. -/

theorem onLantern_ok {s : State} (h : psnClass s.core.psn ≠ 3) : onLantern s = .ok () := if_neg h
theorem plainBits_ok {v : Word} {top : Nat} (h : v.toNat < 2 ^ top) : plainBits v top = .ok v.toNat := if_pos h

theorem gateBody_ok (d a : Nat) {s : State} (hc : psnClass s.core.psn ≠ 3) (hn : (s.g a).toNat < 36) :
    gateBody d a s = .ok ((s.gate (psnRegion s.core.psn) (s.g a).toNat).2.setP d
      (allLanes (s.gate (psnRegion s.core.psn) (s.g a).toNat).1)) := by
  have hbits : (s.g a).toNat < 2 ^ 6 := by omega
  have hrange : ¬35 < (s.g a).toNat := by omega
  simp only [gateBody, onLantern_ok hc, plainBits_ok hbits, bind, Except.bind, if_neg hrange]; rfl

theorem snuffBody_refuses (d a : Nat) {s : State} (hc : psnClass s.core.psn ≠ 3) (hp : (s.g a).toNat < 2 ^ 24)
    (hno : s.canSnuff (s.g a).toNat = false ∨ psnRegion (s.g a).toNat ≠ psnRegion s.core.psn) :
    snuffBody d a s = .ok (s.setP d 0) := by
  have hguard : (!s.canSnuff (s.g a).toNat || psnRegion (s.g a).toNat != psnRegion s.core.psn) = true := by simpa using hno
  simp only [snuffBody, onLantern_ok hc, plainBits_ok hp, bind, Except.bind, if_pos hguard]; rfl

theorem snuffBody_snuffs (d a : Nat) {s : State} (hc : psnClass s.core.psn ≠ 3) (hp : (s.g a).toNat < 2 ^ 24)
    (hcan : s.canSnuff (s.g a).toNat = true) (hr : psnRegion (s.g a).toNat = psnRegion s.core.psn)
    (hroom : (s.getCore (s.g a).toNat).act.isSome ∨ s.canNotice (s.g a).toNat = true) :
    snuffBody d a s = .ok ((s.snuffCore (s.g a).toNat 2).setP d (BitVec.allOnes 32)) := by
  have hguard : ¬(!s.canSnuff (s.g a).toNat || psnRegion (s.g a).toNat != psnRegion s.core.psn) = true := by simp [hcan, hr]
  have hgoes : ¬((s.getCore (s.g a).toNat).act.isNone ∧ !s.canNotice (s.g a).toNat) := by
    rintro ⟨hnone, hfull⟩
    rcases hroom with hact | hnotice
    · simp [Option.isNone_iff_eq_none.mp hnone] at hact
    · simp [hnotice] at hfull
  simp only [snuffBody, onLantern_ok hc, plainBits_ok hp, bind, Except.bind, if_neg hguard, if_neg hgoes]; rfl

theorem namesetBody_ok (d a b : Nat) {s : State} (hc : psnClass s.core.psn ≠ 3) (hp : (s.g a).toNat < 2 ^ 24)
    (hn : (s.g b).toNat < 2 ^ 24) :
    namesetBody d a b s = .ok ((s.rename (psnRegion s.core.psn) (s.g a).toNat (BitVec.ofNat 24 (s.g b).toNat)).2.setP d
      (allLanes (s.rename (psnRegion s.core.psn) (s.g a).toNat (BitVec.ofNat 24 (s.g b).toNat)).1)) := by
  simp only [namesetBody, onLantern_ok hc, plainBits_ok hp, plainBits_ok hn, bind, Except.bind]; rfl

theorem fld_low16 (w : Word) : fld w 15 0 = w.toNat % 2 ^ 16 := by simp [fld]

theorem leaseackBody_ok (d a b : Nat) {s : State} {n : Nat} (hb : (s.g b).toNat < 3) (hn : n = (s.g a).toNat % 2 ^ 16) :
    leaseackBody d a b s = .ok ((s.leaseAck (s.lampRegion n) n (s.g b).toNat).2.setG d
      (BitVec.ofNat 64 (s.leaseAck (s.lampRegion n) n (s.g b).toNat).1)) := by
  have hvalue : ¬3 ≤ (s.g b).toNat := by omega
  simp only [leaseackBody, if_neg hvalue, fld_low16, ← hn]; rfl

theorem spliceBody_ok (d ctx : Nat) (a b : State → Word) {s : State} (hc : psnClass s.core.psn = 2)
    (hagent : s.core.psn / 512 % 16 = 1) (hhigh : fld (a s) 63 48 = 0) (hlow : fld (a s) 15 0 = 0) (hframe : fld (b s) 63 32 = 0) :
    spliceBody d ctx a b s = .ok ((s.spliceStart (psnRegion s.core.psn) (a s).toNat (b s).toNat ctx).2.setG d
      (s.spliceStart (psnRegion s.core.psn) (a s).toNat (b s).toNat ctx).1) := by
  simp [spliceBody, hc, hagent, hhigh, hlow, hframe]

end Sys2Proof.Laws
end

section
namespace Sys2Proof.Proofs
open Sys2Proof Sys2Proof.Machine Sys2Proof.Laws

/-- Settles O13: each instruction runs its body on the state past it, and the body's checks pass. -/
theorem privilegedInstructions : Obligations.PrivilegedInstructions := by
  refine ⟨?gate, ?snuffs, ?refuses, ?nameset, ?leaseack, ?reply, ?resumeValue, ?splice⟩
  case gate => exact fun x s h hc hn => run_body_ok (run_gate x s h) (gateBody_ok _ _ hc hn)
  case snuffs =>
    rintro x s _ h hc rfl hp hcan hr hroom
    exact run_body_ok (run_snuff x s h) (snuffBody_snuffs _ _ hc hp hcan hr hroom)
  case refuses =>
    rintro x s _ h hc rfl hp hno
    exact run_body_ok (run_snuff x s h) (snuffBody_refuses _ _ hc hp hno)
  case nameset =>
    rintro x s _ _ h hc rfl rfl hp hn
    exact run_body_ok (run_nameset x s h) (namesetBody_ok _ _ _ hc hp hn)
  case leaseack => exact fun x s n h hb hn => run_body_ok (run_leaseack x s h) (leaseackBody_ok _ _ _ hb hn)
  case reply =>
    simp only [List.forall_mem_cons, List.not_mem_nil, false_implies, implies_true, and_true]
    exact ⟨fun x s h => run_body_ok (run_fresume x s h) rfl, fun x s h => run_body_ok (run_fkill x s h) rfl⟩
  case resumeValue => exact fun x s h => run_body_ok (run_fresumeValue x s h) rfl
  case splice =>
    exact fun x s h hc hagent hhigh hlow hframe => run_body_ok (run_splice x s h) (spliceBody_ok _ _ _ _ hc hagent hhigh hlow hframe)

/-- Settles O10: step 3 of R243 for the privileged instructions, and the level that the body of the others checks. -/
theorem privilegeFaults : Obligations.PrivilegeFaults := by
  refine ⟨?privileged, ?syswr, ?sysrd, ?qinc⟩
  case privileged =>
    simp only [List.forall_mem_cons, List.not_mem_nil, false_implies, implies_true, and_true]
    exact ⟨fun x _ _ => privileged_at_graph_level (body_gate x) rfl, fun x _ _ => privileged_at_graph_level (body_snuff x) rfl,
      fun x _ _ => privileged_at_graph_level (body_nameset x) rfl, fun x _ _ => privileged_at_graph_level (body_leaseack x) rfl,
      fun x _ _ => privileged_at_graph_level (body_fresume x) rfl, fun x _ _ => privileged_at_graph_level (body_fresumeValue x) rfl,
      fun x _ _ => privileged_at_graph_level (body_fkill x) rfl, fun x _ _ => privileged_at_graph_level (body_splice x) rfl⟩
  case syswr => exact fun x s h hl => run_body_priv (run_syswr x s h) rfl (sysWriteBody_graph _ _ hl)
  case sysrd =>
    intro x s h hl hr
    have hread : (past (.sysrd x) s).sysRead x.hi.toNat = .error (.priv 6) := sysRead_graph hl hr
    simp only [run_sysrd x s h, hread]
    exact settle_priv _ s 6
  case qinc => exact fun x s h hl hq => run_body_priv (run_qinc x s h) rfl (addBody_graph _ hl hq)

end Sys2Proof.Proofs
end

section
/-! 01 R35, 02 R45, 06 R145, 12 R304: loads and stores that are performed in LOCAL as they issue (log entry 7). -/
namespace Sys2Proof.Laws
open Sys2Proof Sys2Proof.Machine Sys2Proof.Claims

/-! An access of one part in LOCAL, which waits for nothing. -/

theorem withParts_local {u : State} {len n a : Nat} {q : Ask} {c : Cap} {off : Int} {k : List Part → Body'} (hspace : c.space = 0)
    (hcheck : u.checkCap q c off n = .ok a) : u.withParts len q c off n k = k [localPart a n] u := by
  simp only [State.withParts, hcheck, hspace, State.resolve, bind, Except.bind]; rfl

theorem hasRoom_local {u : State} {act : Act} {o : Order} {a n : Nat} (hdeps : u.orderDeps act o (localPart a n) = [])
    (hheld : u.heldCount u.core.psn < 32) : u.hasRoom act o [localPart a n] = true := by
  have hdram : isDram (localPart a n).owner = false := rfl
  simp only [State.hasRoom, List.filter_cons, hdeps, hdram]
  simp [hheld, Nat.le_of_lt hheld]

/-- R145, log entry 7: a part in LOCAL is performed at its issue, and no item in flight stands for it. -/
theorem send_local {u v : State} {act : Act} {o : Order} {a n : Nat} {e : Errand} (hact : u.core.act = some act)
    (hdeps : u.orderDeps act o (localPart a n) = []) (hheld : u.heldCount u.core.psn < 32)
    (hread : u.spoiledPart [(localPart a n, e)] = none) (hsent : u.sendPart act o (localPart a n) e = (none, v)) :
    u.send o [(localPart a n, e)] = .ok (v.leaveTokens o []) := by
  have hroom : u.hasRoom act o ([(localPart a n, e)].map (·.1)) = true := hasRoom_local hdeps hheld
  simp only [State.send, hact, hroom, hread, State.sendAll, hsent]; rfl

theorem sendPart_local_load {u : State} {act : Act} {o : Order} {a n d : Nat} {ty : TyCode} (hdeps : u.orderDeps act o (localPart a n) = []) :
    u.sendPart act o (localPart a n) (loadErrand d ty) = (none, (u.noteRead (localKey u.core.psn a) n).mapCore
      (·.land (.gpr d 0 ty) (u.localBytes u.core a n) false 0)) := by
  have hcore : u.getCore u.core.psn = u.core := if_pos rfl
  simp only [State.sendPart, hdeps]
  simp [localPart, loadErrand, Errand.cut, Part.access, Part.accessOf, State.performLocal, hcore]

theorem sendPart_local_store {u : State} {act : Act} {o : Order} {a n : Nat} {data : List Byte} (hlen : data.length = n)
    (hdeps : u.orderDeps act o (localPart a n) = []) :
    u.sendPart act o (localPart a n) (storeErrand data) = (none, u.poke (localKey u.core.psn a) data) := by
  simp only [State.sendPart, hdeps]
  simp [localPart, storeErrand, Errand.cut, Part.access, Part.accessOf, State.performLocal, State.performBytes, slice_all data n hlen]
  rfl

/-- The state that a load from LOCAL leaves: its register takes the bytes, a corrected error is noted, its token waits for nothing. -/
def localLoaded (u : State) (a n d : Nat) (ty : TyCode) (o : Order) : State :=
  ((((u.setG d 0).noteRead (localKey u.core.psn a) n).mapCore (·.land (.gpr d 0 ty) (u.localBytes u.core a n) false 0)).leaveTokens o [])

/-- The state that a store to LOCAL leaves: the bytes are written, its token waits for nothing. -/
def localStored (u : State) (a : Nat) (data : List Byte) (o : Order) : State := (u.poke (localKey u.core.psn a) data).leaveTokens o []

theorem spoiledPart_local {u : State} {a n : Nat} {e : Errand} (h : u.spoiled (localKey u.core.psn a) n = false) :
    u.spoiledPart [(localPart a n, e)] = none := by
  simp [State.spoiledPart, localPart, h]
theorem spoiledPart_store {u : State} {a n : Nat} {data : List Byte} : u.spoiledPart [(localPart a n, storeErrand data)] = none := by
  simp [State.spoiledPart, storeErrand]

@[simp] theorem setG_heldCount (s : State) (n : Nat) (w : Word) (p : Psn) : (s.setG n w).heldCount p = s.heldCount p := rfl
@[simp] theorem setG_spoiled (s : State) (n : Nat) (w : Word) (key k : Nat) : (s.setG n w).spoiled key k = s.spoiled key k := rfl

theorem loadBody_local {u : State} {act : Act} {len cap d a : Nat} {off : State → Int} {ty : TyCode} {o : State → Order}
    (hact : u.core.act = some act) (hres : act.resumed = none) (hspace : (u.c cap).space = 0)
    (hcheck : u.checkCap (Ask.load cap) (u.c cap) (off u) (elemBytes ty) = .ok a)
    (hdeps : u.orderDeps act (o u) (localPart a (elemBytes ty)) = []) (hheld : u.heldCount u.core.psn < 32)
    (hread : u.spoiled (localKey u.core.psn a) (elemBytes ty) = false) :
    loadBody len cap off ty d o u = .ok (localLoaded u a (elemBytes ty) d ty (o u)) := by
  have hanswered : u.answered = none := by simp [State.answered, hact, hres]
  have hdeps' : (u.setG d 0).orderDeps act (o u) (localPart a (elemBytes ty)) = [] := by rw [setG_orderDeps, hdeps]
  have hsent : (u.setG d 0).sendPart act (o u) (localPart a (elemBytes ty)) (loadErrand d ty) = _ := sendPart_local_load hdeps'
  rw [setG_localBytes, setG_core_psn] at hsent
  simp only [loadBody, hanswered, withParts_local hspace hcheck]
  exact send_local (by simpa using hact) hdeps' (by simpa using hheld) (spoiledPart_local (by simpa using hread)) hsent

theorem storeBody_local {u : State} {act : Act} {len cap d a n : Nat} {off : State → Int} {o : State → Order}
    (hact : u.core.act = some act) (hres : act.resumed = none) (hspace : (u.c cap).space = 0)
    (hcheck : u.checkCap (Ask.store cap) (u.c cap) (off u) n = .ok a)
    (hdeps : u.orderDeps act (o u) (localPart a n) = []) (hheld : u.heldCount u.core.psn < 32) :
    storeBody len cap off n d o u = .ok (localStored u a (leBytes n (u.g d).toNat) (o u)) := by
  have hanswered : u.answered = none := by simp [State.answered, hact, hres]
  simp only [storeBody, hanswered, withParts_local hspace hcheck]
  exact send_local hact hdeps hheld spoiledPart_store (sendPart_local_store (leBytes_length ..) hdeps)

/-! What these states keep. -/

theorem leaveTokens_eq (s : State) (o : Order) (ids : List Nat) : ∃ tok act,
    s.leaveTokens o ids = { s with core := { s.core with regs := { s.core.regs with tok := tok }, act := act } } := by
  unfold State.leaveTokens State.setTok Core.setTok
  split <;> split <;> exact ⟨_, _, rfl⟩

theorem coreSetG_eq (c : Core) (d : Nat) (w : Word) : ∃ g, c.setG d w = { c with regs := { c.regs with g := g } } := by
  unfold Core.setG
  split <;> exact ⟨_, rfl⟩
theorem land_gpr_eq (c : Core) (d place : Nat) (ty : TyCode) (bs : List Byte) (tag : Bool) (id : Nat) :
    ∃ g pend, c.land (.gpr d place ty) bs tag id = { c with regs := { c.regs with g := g }, pend := pend } := by
  unfold Core.land Core.settled
  obtain ⟨g, hg⟩ := coreSetG_eq c d (c.getG d ||| BitVec.ofNat 64 (ofLe bs * 256 ^ place))
  simp only [hg]
  split
  · exact ⟨_, _, rfl⟩
  · obtain ⟨g', hg'⟩ := coreSetG_eq (Core.settled { c with regs := { c.regs with g := g } } (.g d) id) d _
    exact ⟨g', _, hg'⟩

/-- A load from LOCAL changes general registers, what is pending, tokens and the notes of corrected errors. -/
theorem localLoaded_eq (u : State) (a n d : Nat) (ty : TyCode) (o : Order) : ∃ g pend tok act ecc, localLoaded u a n d ty o =
    { u with core := { u.core with regs := { u.core.regs with g := g, tok := tok }, pend := pend, act := act }, eccSeen := ecc } := by
  obtain ⟨g, hclear⟩ := coreSetG_eq u.core d 0
  obtain ⟨ecc, hnote⟩ := noteRead_eq (u.setG d 0) (localKey u.core.psn a) n
  obtain ⟨g', pend, hland⟩ := land_gpr_eq (u.setG d 0).core d 0 ty (u.localBytes u.core a n) false 0
  obtain ⟨tok, act, htokens⟩ := leaveTokens_eq (((u.setG d 0).noteRead (localKey u.core.psn a) n).mapCore
    (·.land (.gpr d 0 ty) (u.localBytes u.core a n) false 0)) o []
  refine ⟨g', pend, tok, act, ecc, ?_⟩
  rw [localLoaded, htokens, hnote]
  simp only [State.mapCore, State.setG] at hland ⊢
  rw [hland, hclear]

theorem localLoaded_keeps (u : State) (a n d : Nat) (ty : TyCode) (o : Order) :
    (∀ k, (localLoaded u a n d ty o).v k = u.v k ∧ (localLoaded u a n d ty o).p k = u.p k ∧ (localLoaded u a n d ty o).c k = u.c k) ∧
    (localLoaded u a n d ty o).mem = u.mem ∧ (localLoaded u a n d ty o).tags = u.tags ∧ (localLoaded u a n d ty o).flight = u.flight ∧
    (localLoaded u a n d ty o).core.regs.pc = u.core.regs.pc := by
  obtain ⟨g, pend, tok, act, ecc, hkept⟩ := localLoaded_eq u a n d ty o
  rw [hkept]
  exact ⟨fun _ => ⟨rfl, rfl, rfl⟩, rfl, rfl, rfl, rfl⟩

theorem getG_cleared (c : Core) {d : Nat} (hd : d < 64) : (c.setG d 0).getG d = 0 := by
  by_cases h0 : d = 0
  · subst h0; rfl
  · rw [getG_setG _ _ _ _ hd, if_pos ⟨rfl, h0⟩]

/-- The register reads 0 until its bytes land (R304), so it holds those bytes alone. -/
theorem localLoaded_g {u : State} {a n d : Nat} {ty : TyCode} {o : Order} (hd : d < 64) (hn : n ≤ 8)
    (hp : u.core.isPending (.g d) = false) (k : Nat) :
    (localLoaded u a n d ty o).g k = if k = d ∧ k ≠ 0 then extend ty (ofLe (u.localBytes u.core a n)) else u.g k := by
  obtain ⟨tok, act, htokens⟩ := leaveTokens_eq (((u.setG d 0).noteRead (localKey u.core.psn a) n).mapCore
    (·.land (.gpr d 0 ty) (u.localBytes u.core a n) false 0)) o []
  obtain ⟨ecc, hnote⟩ := noteRead_eq (u.setG d 0) (localKey u.core.psn a) n
  have hlen : (u.localBytes u.core a n).length ≤ 8 := by simpa [State.localBytes] using hn
  have hland := land_gpr (u.core.setG d 0) d ty (u.localBytes u.core a n) false k (by rwa [isPending_setG]) (getG_cleared _ hd) hd hlen
  calc (localLoaded u a n d ty o).g k
      = ((u.core.setG d 0).land (.gpr d 0 ty) (u.localBytes u.core a n) false 0).getG k := by rw [localLoaded, htokens, hnote]; rfl
    _ = if k = d ∧ k ≠ 0 then extend ty (ofLe (u.localBytes u.core a n)) else u.g k := by
      rw [hland, getG_setG _ _ _ _ hd]
      split <;> rfl

theorem localStored_mem (u : State) (a : Nat) (data : List Byte) (o : Order) :
    (localStored u a data o).mem = (u.poke (localKey u.core.psn a) data).mem := by
  obtain ⟨_, _, htokens⟩ := leaveTokens_eq (u.poke (localKey u.core.psn a) data) o []
  rw [localStored, htokens]

theorem localStored_tags (u : State) (a : Nat) (data : List Byte) (o : Order) :
    (localStored u a data o).tags = (u.poke (localKey u.core.psn a) data).tags := by
  obtain ⟨_, _, htokens⟩ := leaveTokens_eq (u.poke (localKey u.core.psn a) data) o []
  rw [localStored, htokens]

theorem localStored_keeps (u : State) (a : Nat) (data : List Byte) (o : Order) :
    (∀ k, (localStored u a data o).g k = u.g k ∧ (localStored u a data o).v k = u.v k ∧ (localStored u a data o).p k = u.p k ∧
      (localStored u a data o).c k = u.c k) ∧
    (localStored u a data o).flight = u.flight ∧ (localStored u a data o).core.regs.pc = u.core.regs.pc := by
  obtain ⟨_, _, htokens⟩ := leaveTokens_eq (u.poke (localKey u.core.psn a) data) o []
  rw [localStored, htokens]
  exact ⟨fun _ => ⟨rfl, rfl, rfl, rfl⟩, rfl, rfl⟩

/-! The forms of the loads and stores of general registers. -/

theorem elemBytes_le (t : TyCode) : elemBytes t ≤ 8 := by revert t; decide

/-- What every load of a general register has in common: what it asks for, and its body on the state past it. -/
structure IsLoad (m : MemForm) (ty : TyCode) : Prop where
  ask : ∀ s, m.ask s = Ask.load m.cap
  size : m.size = elemBytes ty
  errand : ∀ s, m.errand s = loadErrand m.clears ty
  clears : m.clears < 64
  off : ∀ s, m.off (past m.instr s) = m.off s
  order : ∀ s, m.order (past m.instr s) = m.order s
  runs : ∀ s, issues m.instr s → ∃ f len, exec m.instr s = settle f s (loadBody len m.cap m.off ty m.clears m.order (past m.instr s))

/-- What every store of a general register has in common, with the register whose bytes it writes. -/
structure IsStore (m : MemForm) (d : Nat) : Prop where
  ask : ∀ s, m.ask s = Ask.store m.cap
  errand : ∀ s, m.errand s = storeErrand (leBytes m.size (s.g d).toNat)
  off : ∀ s, m.off (past m.instr s) = m.off s
  order : ∀ s, m.order (past m.instr s) = m.order s
  runs : ∀ s, issues m.instr s → ∃ f len, exec m.instr s = settle f s (storeBody len m.cap m.off m.size d m.order (past m.instr s))

theorem loadForms_load {x : Long} {y : ShortB} : ∀ m ∈ loadForms x y, ∃ ty, IsLoad m ty := by
  have short (c : ShortB → Instr) (ty : TyCode) (run : ∀ s, issues (c y) s → ∃ f, exec (c y) s = settle f s (y.load ty (past (c y) s))) :
      ∃ t, IsLoad (shortLoad c ty y) t :=
    ⟨ty, fun _ => rfl, rfl, fun _ => rfl, y.d.isLt, fun _ => rfl, fun _ => rfl, fun s h => (run s h).imp fun _ e => ⟨_, e⟩⟩
  simp only [loadForms, List.forall_mem_cons, List.not_mem_nil, false_implies, implies_true, and_true]
  exact ⟨⟨x.sub, fun _ => rfl, rfl, fun _ => rfl, x.d.isLt, fun _ => rfl, fun _ => rfl, fun s h => ⟨_, _, run_ld x s h⟩⟩,
    ⟨x.sub, fun _ => rfl, rfl, fun _ => rfl, x.d.isLt, fun _ => rfl, fun _ => rfl, fun s h => ⟨_, _, run_lda x s h⟩⟩,
    short .ldN64L32B 7 fun s h => ⟨_, run_ldN64L32B y s h⟩, short .ldI32L32B 2 fun s h => ⟨_, run_ldI32L32B y s h⟩,
    short .ldN32L32B 6 fun s h => ⟨_, run_ldN32L32B y s h⟩, short .ldI16L32B 1 fun s h => ⟨_, run_ldI16L32B y s h⟩,
    short .ldN16L32B 5 fun s h => ⟨_, run_ldN16L32B y s h⟩, short .ldI8L32B 0 fun s h => ⟨_, run_ldI8L32B y s h⟩,
    short .ldN8L32B 4 fun s h => ⟨_, run_ldN8L32B y s h⟩⟩

theorem storeForms_store {x : Long} {y : ShortB} : ∀ m ∈ storeForms x y, ∃ d, IsStore m d := by
  have short (c : ShortB → Instr) (n : Nat) (run : ∀ s, issues (c y) s → ∃ f, exec (c y) s = settle f s (y.store n (past (c y) s))) :
      ∃ d, IsStore (shortStore c n y) d :=
    ⟨y.d.toNat, fun _ => rfl, fun _ => rfl, fun _ => rfl, fun _ => rfl, fun s h => (run s h).imp fun _ e => ⟨_, e⟩⟩
  simp only [storeForms, List.forall_mem_cons, List.not_mem_nil, false_implies, implies_true, and_true]
  exact ⟨⟨x.d.toNat, fun _ => rfl, fun _ => rfl, fun _ => rfl, fun _ => rfl, fun s h => ⟨_, _, run_st x s h⟩⟩,
    ⟨x.d.toNat, fun _ => rfl, fun _ => rfl, fun _ => rfl, fun _ => rfl, fun s h => ⟨_, _, run_stl x s h⟩⟩,
    short .stN64L32B 8 fun s h => ⟨_, run_stN64L32B y s h⟩, short .stN32L32B 4 fun s h => ⟨_, run_stN32L32B y s h⟩,
    short .stN16L32B 2 fun s h => ⟨_, run_stN16L32B y s h⟩, short .stN8L32B 1 fun s h => ⟨_, run_stN8L32B y s h⟩⟩

theorem exec_localLoad {m : MemForm} {ty : TyCode} {s : State} {act : Act} {a : Nat} (hm : IsLoad m ty) (h : m.atLocal s act a)
    (hread : s.spoiled (localKey s.core.psn a) m.size = false) :
    exec m.instr s = .next (localLoaded (past m.instr s) a m.size m.clears ty (m.order s)) := by
  obtain ⟨hissues, hact, hres, hspace, hcheck, hdeps, hheld⟩ := h
  obtain ⟨f, len, hrun⟩ := hm.runs s hissues
  have hpast : (past m.instr s).core.act = some act := hact
  rw [hm.ask, ← hm.off, hm.size] at hcheck
  rw [← hm.order, hm.size] at hdeps
  rw [hm.size] at hread
  rw [hrun, loadBody_local hpast hres hspace hcheck hdeps hheld hread, settle_ok, hm.order, hm.size]

theorem exec_localStore {m : MemForm} {d : Nat} {s : State} {act : Act} {a : Nat} (hm : IsStore m d) (h : m.atLocal s act a) :
    exec m.instr s = .next (localStored (past m.instr s) a (leBytes m.size (s.g d).toNat) (m.order s)) := by
  obtain ⟨hissues, hact, hres, hspace, hcheck, hdeps, hheld⟩ := h
  obtain ⟨f, len, hrun⟩ := hm.runs s hissues
  have hpast : (past m.instr s).core.act = some act := hact
  rw [hm.ask, ← hm.off] at hcheck
  rw [← hm.order] at hdeps
  rw [hrun, storeBody_local hpast hres hspace hcheck hdeps hheld, settle_ok, hm.order, past_g]

end Sys2Proof.Laws
end

section
namespace Sys2Proof.Proofs
open Sys2Proof Sys2Proof.Machine Sys2Proof.Claims Sys2Proof.Laws

/-- Settles O18: a load is its body on the state past it, and the bytes land in a register that reads 0 and is pending for nothing. -/
theorem localLoads : Obligations.LocalLoads := by
  intro x y s act a m hm h hp hread
  obtain ⟨ty, hload⟩ := loadForms_load m hm
  have hsize : m.size ≤ 8 := hload.size ▸ elemBytes_le ty
  exact ⟨_, ty, by rw [hload.errand]; rfl, exec_localLoad hload h hread, localLoaded_g hload.clears hsize hp,
    localLoaded_keeps (past m.instr s) a m.size m.clears ty (m.order s)⟩

/-- Settles O19: a store is its body on the state past it, which writes the register's bytes at the checked address. -/
theorem localStores : Obligations.LocalStores := by
  intro x y s act a m hm h
  obtain ⟨d, hstore⟩ := storeForms_store m hm
  refine ⟨_, d, by rw [hstore.errand]; rfl, exec_localStore hstore h, fun k => ?bytes, fun k => ?tags, localStored_keeps ..⟩
  case bytes =>
    rw [localStored_mem, read_poke, leBytes_length]
    exact ite_congr rfl (fun hk => leBytes_getD _ _ _ (by simp only [past_core_psn]; omega)) fun _ => rfl
  case tags => rw [localStored_tags, poke_tags, leBytes_length]; rfl

/-- Settles O58: the write of the register's bytes is all that a local store does to the memory. -/
theorem localStoresKeepTheForm : Obligations.LocalStoresKeepTheForm := by
  intro x y s act a m hm h hwf
  obtain ⟨d, hstore⟩ := storeForms_store m hm
  refine ⟨_, exec_localStore hstore h, ?_⟩
  rw [memoryOk, localStored_mem]
  exact wf_poke (past m.instr s) _ _ hwf

end Sys2Proof.Proofs
end

section
/-! 01 R24, R27 to R33, R40, 15 R410: names, control writes, and messages on their way. -/
namespace Sys2Proof.Laws
open Sys2Proof Sys2Proof.Machine Sys2Proof.Claims

theorem event_enabled {b : Bool} {s t : State} (h : b = true) : event b s t = .next t := if_pos h

/-! The name registers (R28). -/

theorem writePrefix_unused {s : State} {region : Nat} (v : Word) (h : ¬ regionInUse s region) :
    s.writePrefix region v = (s.modRegion region (fun r => { r with namePrefix := v.extractLsb' 0 6 })).defaultNames region := by
  apply if_neg
  simpa [regionInUse] using h

theorem writePrefix_used {s : State} {region : Nat} (v : Word) (h : regionInUse s region) : s.writePrefix region v = s := by
  apply if_pos
  simpa [regionInUse] using h

theorem rename_made {s : State} {region : Nat} {p : Psn} {n : BitVec 24} (hcore : isGridCore p = true) (hregion : psnRegion p = region)
    (hindex : psnIndex p < 288) (hlive : (s.getCore p).live = true) (hidle : (s.getCore p).act = none) (hname : s.nameOk region p n = true) :
    s.rename region p n = (true, s.putCore { s.getCore p with name := n }) := by
  simp [State.rename, hcore, hregion, hindex, hlive, hidle, hname]

theorem rename_refused {s : State} {region : Nat} {p : Psn} {n : BitVec 24} (hname : s.nameOk region p n = false) :
    s.rename region p n = (false, s) := by
  simp [State.rename, hname]

/-! A control write of one whole register (R40). -/

theorem wordPart_whole {a : Nat} {data : List Byte} (h : data.length = 8) :
    wordPart a data a = { value := BitVec.ofNat 64 (ofLe data), mask := BitVec.allOnes 64 } := by
  have hwithin : ∀ i ∈ List.range 8, decide (a ≤ a + i ∧ a + i < a + data.length) = true := by
    intro i hi
    have := List.mem_range.mp hi
    exact decide_eq_true (by omega)
  have hbytes : (List.range 8).map (fun i => data.getD i 0) = data := by
    apply List.ext_getElem
    · simp [h]
    · intro i _ hi
      simp [hi]
  have hvalue : (List.range 8).map (fun i => if decide (a ≤ a + i ∧ a + i < a + data.length) = true then data.getD (a + i - a) 0 else 0) =
      data := by
    refine (List.map_congr_left fun i hi => ?_).trans hbytes
    rw [if_pos (hwithin i hi), Nat.add_sub_cancel_left]
  have hmask : (List.range 8).map (fun i => if decide (a ≤ a + i ∧ a + i < a + data.length) = true then (0xFF : Byte) else 0) =
      List.replicate 8 0xFF :=
    (List.map_congr_left fun i hi => if_pos (hwithin i hi)).trans rfl
  unfold wordPart
  simp only [hvalue, hmask]
  rfl

theorem ctrlWrite_register {s : State} {lv : Level} {a : Nat} {data : List Byte} (ha : a % 8 = 0) (h : data.length = 8) :
    s.ctrlWrite lv a data = s.ctrlWriteWord lv a { value := BitVec.ofNat 64 (ofLe data), mask := BitVec.allOnes 64 } := by
  have hne : data ≠ [] := by rintro rfl; cases h
  have hone : (a + data.length - 1) / 8 + 1 - a / 8 = 1 := by omega
  have hat : (a / 8 + 0) * 8 = a := by omega
  simp only [State.ctrlWrite, if_neg hne, hone, List.range_one, List.foldl_cons, List.foldl_nil, hat, wordPart_whole h]

theorem execCtrlRegisterWrite_made {s : State} {addr : BitVec 40} {data : List Byte} (ha : addr.toNat % 8 = 0) (h : data.length = 8)
    (hunit : ctrlExists addr.toNat = true) (hallowed : ctrlDenied .firmware true addr.toNat 8 = false)
    (hclocked : ∀ p, ctrlPlace addr.toNat = some p → s.gated p = false) :
    execCtrlRegisterWrite addr data s = .next (s.ctrlWrite .firmware addr.toNat data) := by
  have hthere : (data != [] && ctrlExists addr.toNat && decide (ctrlOff addr.toNat + data.length ≤ 4096)) = true := by
    have hne : data ≠ [] := by rintro rfl; cases h
    have hpage : ctrlOff addr.toNat + data.length ≤ 4096 := by rw [ctrlOff, h]; omega
    simp [hne, hunit, hpage]
  simp only [execCtrlRegisterWrite, h ▸ hallowed, hthere, event]
  cases hp : ctrlPlace addr.toNat with
  | none => rfl
  | some p => simp [hclocked p hp]

/-! Routers (R29, R30). -/

/-- Learning changes the table alone. -/
theorem learn_eq (r : Router) (now port : Nat) (n : BitVec 24) : ∃ table, r.learn now port n = { r with table := table } := by
  unfold Router.learn
  split
  · exact ⟨_, rfl⟩
  · split
    · exact ⟨_, rfl⟩
    · split <;> exact ⟨_, rfl⟩
@[simp] theorem learn_cut (r : Router) (now port : Nat) (n : BitVec 24) : (r.learn now port n).cut = r.cut := by
  obtain ⟨_, h⟩ := learn_eq r now port n; rw [h]
@[simp] theorem learn_floods (r : Router) (now port : Nat) (n : BitVec 24) : (r.learn now port n).floods = r.floods := by
  obtain ⟨_, h⟩ := learn_eq r now port n; rw [h]

@[simp] theorem numbered_tile (s : State) (m : Msg) : (numbered s m).tile = m.tile := by unfold numbered; split <;> rfl
@[simp] theorem numbered_dest (s : State) (m : Msg) : (numbered s m).dest = m.dest := by unfold numbered; split <;> rfl
@[simp] theorem numbered_flood (s : State) (m : Msg) : (numbered s m).flood = m.flood := by unfold numbered; split <;> rfl

@[simp] theorem learned_tsc (s : State) (m : Msg) : (learned s m).tsc = s.tsc := by unfold learned; split <;> rfl
/-- The count of a numbered post is that of the message (log entry 122). -/
theorem learned_eq (s : State) (m : Msg) : learned s m =
    let u := s.putRouter m.tile ((s.getRouter m.tile).learn s.tsc.toNat m.port m.name)
    if (numbered s m).unnumbered then u.countPost (numbered s m).region (numbered s m).name (numbered s m).dest else u := by
  by_cases h : m.unnumbered = true
  · have hk : Msg.unnumbered { m with seq := ((s.getRegion m.region).postChannel m.name m.dest).1 } = true := h
    simp [learned, numbered, h, hk]
  · simp [learned, numbered, h]

/-- R29: a message with no flood of its own goes by the port that its router, which has learned the source, knows for the destination. -/
theorem route_known {s : State} {id port : Nat} {m : Msg} (hagent : isAgentName m.dest = false) (hflood : m.flood = none)
    (hport : ((s.getRouter m.tile).learn s.tsc.toNat m.port m.name).lookup s.tsc.toNat m.dest = some port) :
    s.route id m =
      if port = 0 then (if (learned s m).takesName m.tile m.dest then some ((learned s m).setItem id (.message { numbered s m with stage := .local }))
        else (learned s m).startFlood id (numbered s m))
      else if (neighbour m.tile port).isSome ∧ !(s.getRouter m.tile).cut.contains port then (learned s m).hop id (numbered s m) port
      else (learned s m).startFlood id (numbered s m) := by
  unfold State.route
  extract_lets r t k u
  have hu : u = learned s m := (learned_eq s m).symm
  have hk : k = numbered s m := rfl
  clear_value k u
  subst hk hu
  simp +zetaDelta [hagent, hflood, hport]

theorem route_flood {s : State} {id hops : Nat} {m : Msg} (hagent : isAgentName m.dest = false) (hflood : m.flood = some hops) :
    s.route id m = (learned s m).floodAt id m hops := by
  have hu : m.unnumbered = false := by simp [Msg.unnumbered, hflood]
  simp [State.route, learned, hu, hagent, hflood]

theorem hop_open {u : State} {id port : Nat} {k : Msg} {t : Psn} (ht : neighbour k.tile port = some t)
    (hopen : u.laneOpen k.tile port k.nextLane k.flits = true) :
    u.hop id k port = some (((u.leaveBuffer k).carry k.tile port k.nextLane k.flits).requeue id
      (.message { k with tile := t, port := opposite port, lane := k.nextLane })) := by
  simp [State.hop, ht, hopen]

theorem learned_floods {s : State} {m : Msg} (h : m.flood.isSome = true) : ((learned s m).getRouter m.tile).floods = (s.getRouter m.tile).floods := by
  have hu : m.unnumbered = false := by simp [Msg.unnumbered, h]
  simp [learned, hu]

/-- R30: a flood that the router has forwarded goes no further. -/
theorem floodAt_seen {u : State} {id hops : Nat} {m : Msg} (h : (u.getRouter m.tile).floods.contains m.identity = true) :
    u.floodAt id m hops = some ((u.leaveBuffer m).dropItem id) := if_pos h

theorem exec_routed {s u : State} {id : Nat} {m : Msg} (hm : s.msg id = some m) (hstage : m.stage = .router) (hfirst : s.first id m = true)
    (hwhole : s.whole m = true) (h : s.route id m = some u) : exec (.routerArrival id) s = .next u := by
  simp only [exec_routerArrival, execRouterArrival, hm, orStay, h]
  exact if_pos ⟨hstage, hfirst, hwhole⟩

/-! A core's port (R31, R33). -/

theorem exec_accepted {s t : State} {id : Nat} {m : Msg} (hm : s.msg id = some m) (hstage : m.stage = .local) (hfirst : s.first id m = true)
    (hwhole : s.whole m = true) (hclocked : s.gated m.tile = false) (h : (s.touchCluster m.tile).accept id m = some t) :
    exec (.coreMessageAccept id) s = .next t := by
  simp only [exec_coreMessageAccept, execCoreMessageAccept, hm, orStay, h]
  exact if_pos ⟨.inr ⟨hstage, hfirst, hwhole⟩, by rw [hclocked]; rfl⟩

theorem acceptQueued_next {v : State} {p : Psn} {id : Nat} {m : Msg} (hmarker : v.awaitsMarker p m = false)
    (hseq : m.seq = (v.getCore p).expected m.handle m.name) :
    v.acceptQueued p id m =
      some (((v.unstash p id).modCore p (·.advance m.handle m.name)).setItem id (.message { m with stage := .accepted })) := by
  have hahead : (m.seq - (v.getCore p).expected m.handle m.name).toNat = 0 := by rw [hseq]; simp
  simp only [State.acceptQueued, hmarker, hahead]
  rfl

theorem accept_queued {u : State} {id : Nat} {m : Msg} (hname : (u.getCore m.tile).name = m.dest) (htaken : u.bounceReason m.tile m = none)
    (hhandle : m.handle < 19) (hreply : m.reply = false) : u.accept id m = (u.leaveBuffer m).acceptQueued m.tile id m := by
  have hsnuff : m.handle ≠ 29 := by omega
  simp [State.accept, hname, htaken, hhandle, hreply, hsnuff]

theorem accept_stray {u : State} {id : Nat} {m : Msg} (hname : (u.getCore m.tile).name ≠ m.dest) (hagent : isAgentName m.dest = false)
    (hstray : u.takesName m.tile m.dest = false) :
    u.accept id m = some (if m.flood.isSome then (u.leaveBuffer m).dropItem id else u.setItem id (.message { m with stage := .router })) := by
  have hother : (u.getCore m.tile).name ≠ m.dest ∧ (!m.forAgent) = true := ⟨hname, by simp [Msg.forAgent, hagent]⟩
  simp only [State.accept, if_pos hother, hstray]
  cases m.flood <;> rfl

/-! Bounces (R32). -/

theorem lanternTakes_unheld {s : State} {id hops : Nat} {m : Msg} (hflood : m.flood = some hops) (hholder : s.holder m.region m.dest = none)
    (htomb : s.tombFor m.region m.dest = none) : s.lanternTakes id m = s.bounce id m 1 := by
  simp [State.lanternTakes, hflood, hholder, htomb]

/-- A search that one element alone satisfies finds it. -/
theorem find?_only {α : Type} {l : List α} {p : α → Bool} {a : α} (ha : a ∈ l) (h : ∀ x ∈ l, p x = true ↔ x = a) : l.find? p = some a := by
  obtain ⟨b, hb⟩ := Option.isSome_iff_exists.mp (List.find?_isSome.mpr ⟨a, ha, (h a ha).mpr rfl⟩)
  rw [hb, (h b (List.mem_of_find?_eq_some hb)).mp (List.find?_some hb)]

theorem bounceParty_message {m : Msg} (hreply : m.reply = false) : m.bounceParty = m.src := by simp [Msg.bounceParty, hreply]

/-- Whether output handle k of a core is valid and sends to the place that a message was for (R32). -/
def sendsTo (c : Core) (m : Msg) (k : Nat) : Bool := c.queueOk.getLsbD k && oDest (c.queue k) == m.dest && oHandle (c.queue k) == m.handle

theorem takeBounce_credit {s : State} {id o : Nat} {m : Msg} (hreply : m.reply = false) (heos : m.eos = false) (hcore : isGridCore m.src = true)
    (ho : 20 ≤ o) (ho' : o < 32) (honly : ∀ k, 20 ≤ k → k < 32 → (sendsTo ((s.finish id m).getCore m.src) m k = true ↔ k = o)) :
    s.takeBounce id m = ((s.finish id m).modCore m.src (fun c => c.setQueue o (setFld (c.queue o) 47 39 (oCredits (c.queue o) + 1)))).coreNotice
      m.src .bounce (bounceDetail m) := by
  have hmem : o ∈ (List.range 12).map (· + 20) := List.mem_map.mpr ⟨o - 20, List.mem_range.mpr (by omega), by omega⟩
  have hfind : ((List.range 12).map (· + 20)).find? (sendsTo ((s.finish id m).getCore m.src) m) = some o := by
    refine find?_only hmem fun k hk => ?_
    obtain ⟨j, hj, rfl⟩ := List.mem_map.mp hk
    have hj := List.mem_range.mp hj
    exact honly _ (by omega) (by omega)
  unfold sendsTo at hfind
  simp only [State.takeBounce, bounceParty_message hreply, hcore, hreply, heos, hfind]
  rfl

end Sys2Proof.Laws
end

section
namespace Sys2Proof.Proofs
open Sys2Proof Sys2Proof.Machine Sys2Proof.Claims Sys2Proof.Laws

theorem nameRegisters : NameRegisters := by
  refine ⟨?unused, ?used, ?named, ?refused, ?control⟩
  case unused =>
    intro s region v hr h
    rw [exec_namePrefixWrite, execNamePrefixWrite, if_pos hr, writePrefix_unused v h]
  case used =>
    intro s region v hr h
    rw [exec_namePrefixWrite, execNamePrefixWrite, if_pos hr, writePrefix_used v h]
  case named =>
    rintro s region n _ hr rfl hcore hregion hindex hlive hidle hname
    simp only [exec_dirEntryWrite, execDirEntryWrite, if_pos hr, State.writeDirEntry, rename_made hcore hregion hindex hlive hidle hname]
    rfl
  case refused =>
    rintro s region n _ hr rfl hname
    simp only [exec_dirEntryWrite, execDirEntryWrite, if_pos hr, State.writeDirEntry, rename_refused hname]
    rfl
  case control =>
    intro s addr data ha hlen hunit hallowed hclocked
    rw [exec_ctrlRegisterWrite, execCtrlRegisterWrite_made ha hlen hunit hallowed hclocked, ctrlWrite_register ha hlen]

theorem messageRouting : MessageRouting := by
  refine ⟨?routed, ?seen, ?accepted, ?stray, ?unheld, ?bounced, ?forwarded, ?ended, ?requested, ?marker⟩
  case routed =>
    rintro s id m _ _ port t hm hstage hfirst hwhole hagent hflood rfl rfl hport
    refine ⟨?_, fun hmesh ht hcut hopen => ?_⟩
    · rintro rfl htakes
      refine exec_routed hm hstage hfirst hwhole ?_
      rw [route_known hagent hflood hport, if_pos rfl, if_pos htakes]
    · refine exec_routed hm hstage hfirst hwhole ?_
      rw [route_known hagent hflood hport, if_neg hmesh, if_pos ⟨by rw [ht]; rfl, by rw [hcut]; rfl⟩]
      have hk := numbered_tile s m
      rw [hop_open (by rw [hk, ht]) (by rwa [hk]), hk]
  case seen =>
    intro s id m hops hm hstage hfirst hwhole hagent hflood hseen
    refine exec_routed hm hstage hfirst hwhole ?_
    rw [route_flood hagent hflood, floodAt_seen (by rwa [learned_floods (by rw [hflood]; rfl)])]
  case accepted =>
    rintro s id m _ _ hm hstage hfirst hwhole hclocked rfl hname htaken hhandle hreply rfl hmarker hseq
    exact exec_accepted hm hstage hfirst hwhole hclocked ((accept_queued hname htaken hhandle hreply).trans (acceptQueued_next hmarker hseq))
  case stray =>
    rintro s id m _ hm hstage hfirst hwhole hclocked rfl hname hagent hstray
    exact exec_accepted hm hstage hfirst hwhole hclocked (accept_stray hname hagent hstray)
  case unheld =>
    intro s id m hops hm hstage hflood hfault hholder htomb
    simp only [exec_lanternFloodBounce, execLanternFloodBounce, hm, lanternTakes_unheld hflood hholder htomb]
    refine (event_enabled (by rw [hstage, hfault]; rfl)).trans ?_
    rw [State.bounce, if_pos hstage]
    rfl
  case bounced =>
    rintro s id m _ o hm hstage hreply heos hcore hroom rfl ho ho' honly
    have hsends : ∀ k, 20 ≤ k → k < 32 → (sendsTo ((s.finish id m).getCore m.src) m k = true ↔ k = o) := by
      simpa [sendsTo, and_assoc] using honly
    simp only [exec_bounceReceived, execBounceReceived, hm, takeBounce_credit hreply heos hcore ho ho' hsends]
    exact event_enabled (by simp [hstage, State.canNotice, bounceParty_message hreply, hroom])
  case forwarded =>
    intro s id m t hm hstage hfirst hwhole ht
    simp only [exec_tombstoneForward, execTombstoneForward, hm, ht]
    refine (event_enabled (by rw [hstage, hfirst, hwhole]; rfl)).trans ?_
    simp only [beq_iff_eq]
  case ended =>
    intro s core t ht hdue hnext hmoved
    have hasked : ((s.getCore t.target).moved.filter (fun e => !e.2)).map (·.1) = [] := by rw [hmoved]; rfl
    simp only [exec_tombstoneWindowEnd, execTombstoneWindowEnd, ht, hnext, hasked]
    exact event_enabled (decide_eq_true hdue)
  case requested =>
    intro s id asker old source t hitem ht hmarked hnone
    simp only [exec_markerRequest, execMarkerRequest, hitem, ht]
    refine (event_enabled ?_).trans (by rw [hmarked]; rfl)
    simp only [Bool.not_eq_true', List.any_eq_false]
    intro i hi
    split
    · next m hbody => simpa [and_assoc] using hnone i hi m hbody
    · simp
  case marker =>
    intro s id p source next hitem
    simp only [exec_forwardEndMarker, execForwardEndMarker, hitem]

/-- Settles O34: each step by the rule for its event. -/
theorem nameAndRoutingSteps : Obligations.NameAndRoutingSteps := ⟨nameRegisters, messageRouting⟩

end Sys2Proof.Proofs
end

section
/-! 02 R51, R52, R67, 06 R143, R149, 11 R285, 12 R301 to R307: an access is checked, translated and sent in parts, or completed by the
bytes of a RESUME. -/
namespace Sys2Proof.Laws
open Sys2Proof Sys2Proof.Machine Sys2Proof.Claims

/-- The one shape of the bodies of loads, stores, atomics and capability accesses: `done` is what the bytes of a RESUME do (R67), `e`
the errand of each part. -/
def accessBody (len cap : Nat) (ask : State → Ask) (off : State → Int) (n clears : Nat) (o : State → Order) (e : State → Errand)
    (done : List Byte → State → State) : Body' := fun s =>
  match s.answered with
  | some v => .ok (done v s)
  | none => s.withParts len (ask s) (s.c cap) (off s) n (fun ps t => (t.setG clears 0).send (o t) (ps.map (fun p => (p, e t))))

/-- What a RESUME leaves of an access without a register (R67). -/
def doneStore (o : State → Order) (_ : List Byte) (s : State) : State := s.consume (o s)
/-- What a RESUME leaves of an access whose bytes extend into register d. -/
def doneLoad (o : State → Order) (n d : Nat) (t : TyCode) (v : List Byte) (s : State) : State :=
  (s.consume (o s)).setG d (extend t (ofLe (v.take n)))
/-- What a RESUME leaves of a capability load: the bytes without a tag. -/
def doneCapLoad (o : State → Order) (d : Nat) (v : List Byte) (s : State) : State :=
  (s.consume (o s)).setC d { tag := false, bits := BitVec.ofNat 128 (ofLe (v.take 16)) }

theorem loadBody_access (len cap : Nat) (off : State → Int) (t : TyCode) (d : Nat) (o : State → Order) :
    loadBody len cap off t d o =
      accessBody len cap (fun _ => Ask.load cap) off (elemBytes t) d o (fun _ => loadErrand d t) (doneLoad o (elemBytes t) d t) := rfl
theorem storeBody_access (len cap : Nat) (off : State → Int) (n d : Nat) (o : State → Order) :
    storeBody len cap off n d o =
      accessBody len cap (fun _ => Ask.store cap) off n 0 o (fun s => storeErrand (leBytes n (s.g d).toNat)) (doneStore o) := rfl
theorem atomicBody_access (len cap : Nat) (off : State → Int) (t : TyCode) (op : Nat) (rm : BitVec 2) (d : Nat) (o : State → Order) :
    atomicBody len cap off t op rm d o = accessBody len cap (fun _ => Ask.atomic cap) off (elemBytes t) d o
      (atomicErrand (elemBytes t) d op t rm) (doneLoad o (elemBytes t) d t) := rfl
theorem capLoadBody_access (len cap : Nat) (off : State → Int) (d : Nat) (o : State → Order) :
    capLoadBody len cap off d o = accessBody len cap (fun _ => Ask.capLoad cap) off 16 0 o (fun s => capLoadErrand d (s.c cap).hasC)
      (doneCapLoad o d) := rfl
theorem capStoreBody_access (len cap : Nat) (off : State → Int) (d : Nat) (o : State → Order) :
    capStoreBody len cap off d o =
      accessBody len cap (fun s => Ask.capStore cap (s.c d)) off 16 0 o (fun s => capStoreErrand (s.c d)) (doneStore o) := rfl

/-- What an access form shares with every other at a state: its body, and that the pc and the TLB's order of use tell it nothing. -/
structure IsAccess (m : MemForm) (s : State) (done : List Byte → State → State) : Prop where
  runs : ∃ f len ask e, exec m.instr s = settle f s (accessBody len m.cap ask m.off m.size m.clears m.order e done (past m.instr s)) ∧
    ask (past m.instr s) = m.ask s ∧ ∀ ps, e ((past m.instr s).touch ps) = m.errand s
  off : m.off (past m.instr s) = m.off s
  order : ∀ ps, m.order ((past m.instr s).touch ps) = m.order s

/-- R67: an access that a RESUME has answered is over. -/
theorem exec_answered {m : MemForm} {s : State} {act : Act} {v : List Byte} {done : List Byte → State → State} (hm : IsAccess m s done)
    (hact : s.core.act = some act) (hv : act.resumed = some v) : exec m.instr s = .next (done v (past m.instr s)) := by
  obtain ⟨f, len, ask, e, hrun, -, -⟩ := hm.runs
  have hanswered : (past m.instr s).answered = some v := by simp [State.answered, hact, hv]
  simp only [hrun, accessBody, hanswered, settle_ok]

theorem withParts_parts {u : State} {len n a : Nat} {q : Ask} {c : Cap} {off : Int} {ps : List Part} {k : List Part → Body'}
    (hcheck : u.checkCap q c off n = .ok a) (hresolve : u.resolve q c.space a n = .parts ps) :
    u.withParts len q c off n k = k ps (u.touch ps) := by
  simp only [State.withParts, hcheck, bind, Except.bind, hresolve]

/-- R301, R76: with room for its parts and words that can be read, an instruction sends them. -/
theorem send_parts {u : State} {act : Act} {o : Order} {l : List (Part × Errand)} (hact : u.core.act = some act)
    (hroom : u.hasRoom act o (l.map (·.1)) = true) (hread : u.spoiledPart l = none) :
    u.send o l = .ok ((u.sendAll act o l).2.leaveTokens o (u.sendAll act o l).1) := by
  simp [State.send, hact, hroom, hread]

theorem spoiledPart_readable {u : State} {l : List (Part × Errand)} (h : ∀ x ∈ l, x.2.kind ≠ .store → x.2.kind ≠ .capStore →
    ∀ addr, x.1.owner = .local addr → u.spoiled (localKey u.core.psn addr) x.1.size = false) : u.spoiledPart l = none := by
  simp only [State.spoiledPart, Option.map_eq_none_iff, List.find?_eq_none]
  rintro ⟨p, e⟩ hx
  simp only [Bool.and_eq_true, bne_iff_ne, ne_eq]
  rintro ⟨⟨hstore, hcap⟩, hbad⟩
  cases ho : p.owner <;> simp only [ho] at hbad <;> try exact absurd hbad (by decide)
  rw [h _ hx hstore hcap _ ho] at hbad
  cases hbad

/-- R301: an access that nothing has answered and whose checks pass sends its parts. -/
theorem exec_sends {m : MemForm} {s : State} {act : Act} {ps : List Part} {done : List Byte → State → State} (hm : IsAccess m s done)
    (h : m.passes s act ps) : exec m.instr s = .next (m.sent s act ps) := by
  obtain ⟨-, hact, hres, ⟨a, hcheck, hresolve⟩, hroom, hread⟩ := h
  obtain ⟨f, len, ask, e, hrun, hask, he⟩ := hm.runs
  have hanswered : (past m.instr s).answered = none := by simp [State.answered, hact, hres]
  have hact' : (((past m.instr s).touch ps).setG m.clears 0).core.act = some act := by rw [setG_core_act]; exact hact
  have hread' : (((past m.instr s).touch ps).setG m.clears 0).spoiledPart (ps.map (fun p => (p, m.errand s))) = none := by
    refine spoiledPart_readable (List.forall_mem_map.mpr fun p hp hstore hcap addr ho => ?_)
    rw [setG_core_psn, setG_spoiled]
    exact hread hstore hcap p hp addr ho
  have hbody : accessBody len m.cap ask m.off m.size m.clears m.order e done (past m.instr s) = .ok (m.sent s act ps) := by
    simp only [accessBody, hanswered, hask, hm.off, past_c, withParts_parts hcheck hresolve, he, hm.order]
    exact send_parts hact' (by simpa [Function.comp_def] using hroom) hread'
  rw [hrun, hbody, settle_ok]

/-! Each kind of form is such an access. -/

theorem IsAccess.load {m : MemForm} {s : State} {f : Form} {len : Nat} {t : TyCode}
    (hrun : exec m.instr s = settle f s (loadBody len m.cap m.off t m.clears m.order (past m.instr s))) (hsize : m.size = elemBytes t)
    (hask : m.ask s = Ask.load m.cap) (herrand : m.errand s = loadErrand m.clears t) (hoff : m.off (past m.instr s) = m.off s)
    (horder : ∀ ps, m.order ((past m.instr s).touch ps) = m.order s) : IsAccess m s (doneLoad m.order m.size m.clears t) :=
  ⟨⟨f, len, fun _ => Ask.load m.cap, fun _ => loadErrand m.clears t, by rw [hrun, loadBody_access, hsize], hask.symm, fun _ => herrand.symm⟩,
    hoff, horder⟩

theorem IsAccess.store {m : MemForm} {s : State} {f : Form} {len d : Nat}
    (hrun : exec m.instr s = settle f s (storeBody len m.cap m.off m.size d m.order (past m.instr s))) (hclears : m.clears = 0)
    (hask : m.ask s = Ask.store m.cap) (herrand : m.errand s = storeErrand (leBytes m.size (s.g d).toNat))
    (hoff : m.off (past m.instr s) = m.off s) (horder : ∀ ps, m.order ((past m.instr s).touch ps) = m.order s) :
    IsAccess m s (doneStore m.order) :=
  ⟨⟨f, len, fun _ => Ask.store m.cap, fun t => storeErrand (leBytes m.size (t.g d).toNat), by rw [hrun, storeBody_access, hclears], hask.symm,
    fun _ => herrand.symm⟩, hoff, horder⟩

theorem IsAccess.atomic {m : MemForm} {s : State} {f : Form} {len op : Nat} {t : TyCode} {rm : BitVec 2}
    (hrun : exec m.instr s = settle f s (atomicBody len m.cap m.off t op rm m.clears m.order (past m.instr s))) (hsize : m.size = elemBytes t)
    (hask : m.ask s = Ask.atomic m.cap) (herrand : m.errand s = atomicErrand (elemBytes t) m.clears op t rm s)
    (hoff : m.off (past m.instr s) = m.off s) (horder : ∀ ps, m.order ((past m.instr s).touch ps) = m.order s) :
    IsAccess m s (doneLoad m.order m.size m.clears t) :=
  ⟨⟨f, len, fun _ => Ask.atomic m.cap, atomicErrand (elemBytes t) m.clears op t rm, by rw [hrun, atomicBody_access, hsize], hask.symm,
    fun _ => herrand.symm⟩, hoff, horder⟩

theorem IsAccess.capLoad {m : MemForm} {s : State} {f : Form} {len d : Nat}
    (hrun : exec m.instr s = settle f s (capLoadBody len m.cap m.off d m.order (past m.instr s))) (hclears : m.clears = 0) (hsize : m.size = 16)
    (hask : m.ask s = Ask.capLoad m.cap) (herrand : m.errand s = capLoadErrand d (s.c m.cap).hasC)
    (hoff : m.off (past m.instr s) = m.off s) (horder : ∀ ps, m.order ((past m.instr s).touch ps) = m.order s) :
    IsAccess m s (doneCapLoad m.order d) :=
  ⟨⟨f, len, fun _ => Ask.capLoad m.cap, fun t => capLoadErrand d (t.c m.cap).hasC, by rw [hrun, capLoadBody_access, hclears, hsize], hask.symm,
    fun _ => herrand.symm⟩, hoff, horder⟩

theorem IsAccess.capStore {m : MemForm} {s : State} {f : Form} {len d : Nat}
    (hrun : exec m.instr s = settle f s (capStoreBody len m.cap m.off d m.order (past m.instr s))) (hclears : m.clears = 0) (hsize : m.size = 16)
    (hask : m.ask s = Ask.capStore m.cap (s.c d)) (herrand : m.errand s = capStoreErrand (s.c d))
    (hoff : m.off (past m.instr s) = m.off s) (horder : ∀ ps, m.order ((past m.instr s).touch ps) = m.order s) :
    IsAccess m s (doneStore m.order) :=
  ⟨⟨f, len, fun t => Ask.capStore m.cap (t.c d), fun t => capStoreErrand (t.c d), by rw [hrun, capStoreBody_access, hclears, hsize], hask.symm,
    fun _ => herrand.symm⟩, hoff, horder⟩

/-- An access whose bytes extend into the register that it clears. -/
def FillsRegister (m : MemForm) (s : State) : Prop :=
  ∃ t, (m.errand s).landing = .gpr m.clears 0 t ∧ IsAccess m s (doneLoad m.order m.size m.clears t)

theorem loadForms_access {x : Long} {y : ShortB} (s : State) : ∀ m ∈ loadForms x y, issues m.instr s → FillsRegister m s := by
  have short (c : ShortB → Instr) (t : TyCode) {f : Form} (run : exec (c y) s = settle f s (y.load t (past (c y) s))) :
      FillsRegister (shortLoad c t y) s :=
    ⟨t, rfl, .load (m := shortLoad c t y) run rfl rfl rfl rfl fun _ => rfl⟩
  simp only [loadForms, List.forall_mem_cons, List.not_mem_nil, false_implies, implies_true, and_true]
  exact ⟨fun h => ⟨x.sub, rfl, .load (run_ld x s h) rfl rfl rfl rfl fun _ => rfl⟩,
    fun h => ⟨x.sub, rfl, .load (run_lda x s h) rfl rfl rfl rfl fun _ => rfl⟩,
    fun h => short _ _ (run_ldN64L32B y s h), fun h => short _ _ (run_ldI32L32B y s h), fun h => short _ _ (run_ldN32L32B y s h),
    fun h => short _ _ (run_ldI16L32B y s h), fun h => short _ _ (run_ldN16L32B y s h), fun h => short _ _ (run_ldI8L32B y s h),
    fun h => short _ _ (run_ldN8L32B y s h)⟩

theorem storeForms_access {x : Long} {y : ShortB} (s : State) :
    ∀ m ∈ storeForms x y, issues m.instr s → IsAccess m s (doneStore m.order) := by
  have short (c : ShortB → Instr) (n : Nat) {f : Form} (run : exec (c y) s = settle f s (y.store n (past (c y) s))) :
      IsAccess (shortStore c n y) s (doneStore (shortStore c n y).order) :=
    .store (m := shortStore c n y) run rfl rfl rfl rfl fun _ => rfl
  simp only [storeForms, List.forall_mem_cons, List.not_mem_nil, false_implies, implies_true, and_true]
  exact ⟨fun h => .store (run_st x s h) rfl rfl rfl rfl fun _ => rfl, fun h => .store (run_stl x s h) rfl rfl rfl rfl fun _ => rfl,
    fun h => short _ _ (run_stN64L32B y s h), fun h => short _ _ (run_stN32L32B y s h), fun h => short _ _ (run_stN16L32B y s h),
    fun h => short _ _ (run_stN8L32B y s h)⟩

/-- R307: what ACAS asks of its second register. -/
def acasReady (x : Long) (s : State) (act : Act) (i : Instr) : Prop :=
  i = .acas x → x.d.toNat + 1 < act.window ∧ s.core.isPending (.g (x.d.toNat + 1)) = false

theorem run_acas_ready {x : Long} {s : State} {act : Act} (hact : s.core.act = some act) (h : issues (.acas x) s)
    (hready : acasReady x s act (.acas x)) :
    exec (.acas x) s = settle (longForm Shape.acas true x) s (x.atomic 7 (past (.acas x) s)) := by
  obtain ⟨hwindow, hpend⟩ := hready rfl
  have hinside : ¬ (past (.acas x) s).window ≤ x.d.toNat + 1 := by simp [State.window, hact]; omega
  have hwritten : (past (.acas x) s).ready (.g (x.d.toNat + 1)) = .ok () := by simp [State.ready, hpend]
  rw [run_acas x s h]
  simp only [if_neg hinside, hwritten, bind, Except.bind]

theorem atomicForms_access {x : Long} {s : State} {act : Act} (hact : s.core.act = some act) :
    ∀ m ∈ atomicForms x, issues m.instr s → acasReady x s act m.instr → FillsRegister m s := by
  have atomic (c : Long → Instr) (op : Nat) (rm : BitVec 2) {f : Form}
      (run : exec (c x) s = settle f s (atomicBody x.bytes x.a.toNat x.memOff x.sub op rm x.d.toNat x.order (past (c x) s))) :
      FillsRegister (longAtomic c op x.sub rm x) s :=
    ⟨x.sub, rfl, .atomic (m := longAtomic c op x.sub rm x) run rfl rfl rfl rfl fun _ => rfl⟩
  simp only [atomicForms, List.forall_mem_cons, List.not_mem_nil, false_implies, implies_true, and_true]
  exact ⟨fun h _ => atomic _ _ _ (run_aadd x s h), fun h _ => atomic _ _ _ (run_amin x s h), fun h _ => atomic _ _ _ (run_amax x s h),
    fun h _ => atomic _ _ _ (run_aand x s h), fun h _ => atomic _ _ _ (run_aor x s h), fun h _ => atomic _ _ _ (run_axor x s h),
    fun h _ => atomic _ _ _ (run_aswp x s h), fun h hready => atomic _ _ _ (run_acas_ready hact h hready),
    fun h _ => atomic _ _ _ (run_aaddf x s h)⟩

theorem cldc_access {x : Long} {s : State} (h : issues (.cldc x) s) :
    IsAccess (capLoadForm (.cldc x) x.a.toNat x.d.toNat x.memOff x.order s) s (doneCapLoad x.order x.d.toNat) :=
  .capLoad (run_cldc x s h) rfl rfl rfl rfl rfl fun _ => rfl
theorem cldcL32B_access {y : ShortB} {s : State} (h : issues (.cldcL32B y) s) :
    IsAccess (capLoadForm (.cldcL32B y) y.a.toNat y.d.toNat (fun s => s.offset 0 (y.imm.toInt * 16)) (fun _ => Order.none) s) s
      (doneCapLoad (fun _ => Order.none) y.d.toNat) :=
  .capLoad (run_cldcL32B y s h) rfl rfl rfl rfl rfl fun _ => rfl
theorem cstc_access {x : Long} {s : State} (h : issues (.cstc x) s) :
    IsAccess (capStoreForm (.cstc x) x.a.toNat x.d.toNat x.memOff x.order) s (doneStore x.order) :=
  .capStore (run_cstc x s h) rfl rfl rfl rfl rfl fun _ => rfl
theorem cstcL32B_access {y : ShortB} {s : State} (h : issues (.cstcL32B y) s) :
    IsAccess (capStoreForm (.cstcL32B y) y.a.toNat y.d.toNat (fun s => s.offset 0 (y.imm.toInt * 16)) (fun _ => Order.none)) s
      (doneStore (fun _ => Order.none)) :=
  .capStore (run_cstcL32B y s h) rfl rfl rfl rfl rfl fun _ => rfl

theorem capForms_access {x : Long} {y : ShortB} (s : State) :
    ∀ m ∈ capForms x y s, issues m.instr s → ∃ done, IsAccess m s done := by
  simp only [capForms, List.forall_mem_cons, List.not_mem_nil, false_implies, implies_true, and_true]
  exact ⟨fun h => ⟨_, cldc_access h⟩, fun h => ⟨_, cldcL32B_access h⟩,
    fun h => ⟨_, cstc_access h⟩, fun h => ⟨_, cstcL32B_access h⟩⟩

end Sys2Proof.Laws
end

section
namespace Sys2Proof.Proofs
open Sys2Proof Sys2Proof.Machine Sys2Proof.Claims Sys2Proof.Laws

theorem accessesSent : AccessesAreSent := by
  intro x y s act ps m hm hpasses hready
  obtain ⟨hi, hact, -⟩ := id hpasses
  simp only [List.mem_append] at hm
  obtain ((hload | hstore) | hatomic) | hcap := hm
  · obtain ⟨t, -, haccess⟩ := loadForms_access s m hload hi
    exact exec_sends haccess hpasses
  · exact exec_sends (storeForms_access s m hstore hi) hpasses
  · obtain ⟨t, -, haccess⟩ := atomicForms_access hact m hatomic hi hready
    exact exec_sends haccess hpasses
  · obtain ⟨done, haccess⟩ := capForms_access s m hcap hi
    exact exec_sends haccess hpasses

theorem answeredAccesses : AnsweredAccesses := by
  intro x y s act v hact hv
  have fills {m : MemForm} (h : FillsRegister m s) : ∃ t, (m.errand s).landing = .gpr m.clears 0 t ∧
      exec m.instr s = .next (((past m.instr s).consume (m.order s)).setG m.clears (extend t (ofLe (v.take m.size)))) := by
    obtain ⟨t, hlanding, haccess⟩ := h
    exact ⟨t, hlanding, by rw [exec_answered haccess hact hv, doneLoad, ← haccess.order []]; rfl⟩
  refine ⟨fun m hm hi hready => ?_, fun m hm hi => ?_,
    fun h => exec_answered (cldc_access h) hact hv, fun h => exec_answered (cstc_access h) hact hv⟩
  · rcases List.mem_append.mp hm with hload | hatomic
    · exact fills (loadForms_access s m hload hi)
    · exact fills (atomicForms_access hact m hatomic hi hready)
  · have haccess := storeForms_access s m hm hi
    rw [exec_answered haccess hact hv, doneStore, ← haccess.order []]
    rfl

/-- Settles O17: every access form is one body, which sends the parts that its checks give, or is over where a RESUME has answered it. -/
theorem accessesAreSent : Obligations.AccessesAreSent := ⟨accessesSent, answeredAccesses⟩

end Sys2Proof.Proofs
end

section
/-! 02 R45, R47, 11 R285: capabilities in LOCAL, a granule and its tag as one unit. -/
namespace Sys2Proof.Laws
open Sys2Proof Sys2Proof.Machine Sys2Proof.Claims

/-- An access to LOCAL that waits for nothing passes its checks as one part. -/
theorem atLocal_passes {m : MemForm} {s : State} {act : Act} {a : Nat} (h : m.atLocal s act a)
    (hread : (m.errand s).kind ≠ .store → (m.errand s).kind ≠ .capStore → s.spoiled (localKey s.core.psn a) m.size = false) :
    m.passes s act [localPart a m.size] := by
  obtain ⟨hissues, hact, hres, hspace, hcheck, hdeps, hheld⟩ := h
  refine ⟨hissues, hact, hres, ⟨a, hcheck, by rw [hspace]; rfl⟩, ?_, fun hstore hcap p hp addr ho => ?_⟩
  · refine hasRoom_local (by rw [setG_orderDeps]; exact hdeps) ?_
    rw [setG_heldCount, setG_core_psn]
    exact hheld
  · obtain rfl := List.mem_singleton.mp hp
    cases ho
    exact hread hstore hcap

/-- The state that an access without a register leaves, performed in LOCAL. -/
theorem sent_local {m : MemForm} {s w : State} {act : Act} {a : Nat} (hclears : m.clears = 0)
    (hsent : (past m.instr s).sendPart act (m.order s) (localPart a m.size) (m.errand s) = (none, w)) :
    m.sent s act [localPart a m.size] = w.leaveTokens (m.order s) [] := by
  have hstate : ((past m.instr s).touch [localPart a m.size]).setG m.clears 0 = past m.instr s := by rw [hclears]; rfl
  simp only [MemForm.sent, hstate, List.map_cons, List.map_nil, State.sendAll, hsent]
  rfl

theorem sendPart_local_capLoad {u : State} {act : Act} {o : Order} {a d : Nat} {keep : Bool} (ha : a < 0x18000)
    (hdeps : u.orderDeps act o (localPart a 16) = []) :
    u.sendPart act o (localPart a 16) (capLoadErrand d keep) = (none, (u.noteRead (localKey u.core.psn a) 16).mapCore
      (·.land (.cap d keep) (leBytes 16 (u.peekCap (localKey u.core.psn a)).bits.toNat) (u.peekCap (localKey u.core.psn a)).tag 0)) := by
  simp only [State.sendPart, hdeps]
  simp [localPart, capLoadErrand, Errand.cut, Part.access, Part.accessOf, State.performLocal, State.performBytes, ha]

theorem sendPart_local_capStore {u : State} {act : Act} {o : Order} {a : Nat} {c : Cap} (hdeps : u.orderDeps act o (localPart a 16) = []) :
    u.sendPart act o (localPart a 16) (capStoreErrand c) = (none, u.pokeCap (localKey u.core.psn a) c) := by
  obtain ⟨tag, bits⟩ := c
  simp only [State.sendPart, hdeps]
  simp only [localPart, capStoreErrand, Errand.cut, Part.access, Part.accessOf, State.performLocal, State.performBytes]
  cases tag
  · simp [State.poke, State.pokeCap, State.mapCore, Core.land, leBytes_length]
  · have hbits : BitVec.ofNat 128 (ofLe (leBytes 16 bits.toNat)) = bits := by
      rw [ofLe_leBytes, Nat.mod_eq_of_lt (by have := bits.isLt; omega)]
      simp
    simp [State.mapCore, Core.land, hbits]

/-- The state that a capability load from LOCAL leaves. -/
def localCapLoaded (u : State) (a d : Nat) (keep : Bool) (o : Order) : State :=
  ((u.noteRead (localKey u.core.psn a) 16).mapCore (·.land (.cap d keep) (leBytes 16 (u.peekCap (localKey u.core.psn a)).bits.toNat)
    (u.peekCap (localKey u.core.psn a)).tag 0)).leaveTokens o []

/-- Its register holds the granule, its tag as far as `keep` lets it (R47), and beside it only what is pending, tokens and the notes of corrected
errors change. -/
theorem localCapLoaded_eq (u : State) (a d : Nat) (keep : Bool) (o : Order) : ∃ pend tok act ecc, localCapLoaded u a d keep o =
    { u with core := { u.core with pend := pend, act := act, regs := { u.core.regs with tok := tok, c := (put u.core.regs.c d
      { tag := (u.peekCap (localKey u.core.psn a)).tag && keep, bits := (u.peekCap (localKey u.core.psn a)).bits }) } }, eccSeen := ecc } := by
  obtain ⟨ecc, hnote⟩ := noteRead_eq u (localKey u.core.psn a) 16
  obtain ⟨tok, act, htokens⟩ := leaveTokens_eq ((u.noteRead (localKey u.core.psn a) 16).mapCore (·.land (.cap d keep)
    (leBytes 16 (u.peekCap (localKey u.core.psn a)).bits.toNat) (u.peekCap (localKey u.core.psn a)).tag 0)) o []
  have hbits : BitVec.ofNat 128 (ofLe (leBytes 16 (u.peekCap (localKey u.core.psn a)).bits.toNat)) = (u.peekCap (localKey u.core.psn a)).bits := by
    rw [ofLe_leBytes, Nat.mod_eq_of_lt (by have := (u.peekCap (localKey u.core.psn a)).bits.isLt; omega)]
    simp
  refine ⟨(u.core.settled (.c d) 0).pend, tok, act, ecc, ?_⟩
  rw [localCapLoaded, htokens, hnote]
  simp only [State.mapCore, Core.land, Core.settled, Core.setC, hbits]

/-- The state that a capability store to LOCAL leaves. -/
def localCapStored (u : State) (a : Nat) (c : Cap) (o : Order) : State := (u.pokeCap (localKey u.core.psn a) c).leaveTokens o []

theorem localCapStored_eq (u : State) (a : Nat) (c : Cap) (o : Order) : ∃ tok act, localCapStored u a c o =
    { u.pokeCap (localKey u.core.psn a) c with core := { u.core with regs := { u.core.regs with tok := tok }, act := act } } :=
  leaveTokens_eq (u.pokeCap (localKey u.core.psn a) c) o []

theorem localKey_granule {p a : Nat} (h : a % 16 = 0) : localKey p a % 16 = 0 := by
  unfold localKey
  omega

theorem read_pokeCap_other (s : State) (key : Nat) (c : Cap) {k : Nat} (h : ¬(key ≤ k ∧ k < key + 16)) :
    Mem.read (s.pokeCap key c).mem k = Mem.read s.mem k := by
  show Mem.read (Mem.write s.mem key (leBytes 16 c.bits.toNat)) k = _
  rw [read_write, leBytes_length, if_neg h]

theorem exec_localCapLoad {m : MemForm} {s : State} {act : Act} {a d : Nat} {done : List Byte → State → State} (hm : IsAccess m s done)
    (hclears : m.clears = 0) (hsize : m.size = 16) (herrand : m.errand s = capLoadErrand d (s.c m.cap).hasC) (h : m.atLocal s act a)
    (ha : a < 0x18000) (hread : s.spoiled (localKey s.core.psn a) 16 = false) :
    exec m.instr s = .next (localCapLoaded (past m.instr s) a d (s.c m.cap).hasC (m.order s)) := by
  obtain ⟨-, -, -, -, -, hdeps, -⟩ := id h
  rw [hsize] at hdeps
  rw [exec_sends hm (atLocal_passes h fun _ _ => by rw [hsize]; exact hread),
    sent_local hclears (by rw [hsize, herrand]; exact sendPart_local_capLoad ha hdeps)]
  rfl

theorem exec_localCapStore {m : MemForm} {s : State} {act : Act} {a d : Nat} {done : List Byte → State → State} (hm : IsAccess m s done)
    (hclears : m.clears = 0) (hsize : m.size = 16) (herrand : m.errand s = capStoreErrand (s.c d)) (h : m.atLocal s act a) :
    exec m.instr s = .next (localCapStored (past m.instr s) a (s.c d) (m.order s)) := by
  obtain ⟨-, -, -, -, -, hdeps, -⟩ := id h
  rw [hsize] at hdeps
  rw [exec_sends hm (atLocal_passes h fun _ hcap => absurd (by rw [herrand]; rfl) hcap),
    sent_local hclears (by rw [hsize, herrand]; exact sendPart_local_capStore hdeps)]
  rfl

theorem exec_localCapLoad_keeps {m : MemForm} {s : State} {act : Act} {a d : Nat} {done : List Byte → State → State}
    (hm : issues m.instr s → IsAccess m s done) (hclears : m.clears = 0) (hsize : m.size = 16)
    (herrand : m.errand s = capLoadErrand d (s.c m.cap).hasC) (h : m.atLocal s act a)
    (ha : a < 0x18000) (hread : s.spoiled (localKey s.core.psn a) 16 = false) :
    ∃ t d, (m.errand s).landing = .cap d (s.c m.cap).hasC ∧ exec m.instr s = .next t ∧
      (d < 16 → t.c d = { tag := (s.peekCap (localKey s.core.psn a)).tag && (s.c m.cap).hasC,
                          bits := (s.peekCap (localKey s.core.psn a)).bits }) ∧
      (∀ n, n ≠ d → t.c n = s.c n) ∧ (∀ n, t.g n = s.g n ∧ t.v n = s.v n ∧ t.p n = s.p n) ∧ t.mem = s.mem ∧ t.tags = s.tags := by
  refine ⟨_, d, by rw [herrand]; rfl, exec_localCapLoad (hm h.1) hclears hsize herrand h ha hread, ?_⟩
  obtain ⟨pend, tok, act', ecc, hkept⟩ := localCapLoaded_eq (past m.instr s) a d (s.c m.cap).hasC (m.order s)
  rw [hkept]
  exact ⟨fun hd => at_put _ _ _ _ hd, fun n hn => at_put_ne _ _ _ _ _ hn.symm, fun _ => ⟨rfl, rfl, rfl⟩, rfl, rfl⟩

theorem exec_localCapStore_keeps {m : MemForm} {s : State} {act : Act} {a d : Nat} {done : List Byte → State → State}
    (hm : issues m.instr s → IsAccess m s done) (hclears : m.clears = 0) (hsize : m.size = 16)
    (herrand : m.errand s = capStoreErrand (s.c d)) (h : m.atLocal s act a)
    (ha : a % 16 = 0) : ∃ t d, (m.errand s) = capStoreErrand (s.c d) ∧ exec m.instr s = .next t ∧
      t.peekCap (localKey s.core.psn a) = s.c d ∧
      (∀ k, ¬(localKey s.core.psn a ≤ k ∧ k < localKey s.core.psn a + 16) → Mem.read t.mem k = Mem.read s.mem k) ∧
      (∀ n, t.g n = s.g n ∧ t.v n = s.v n ∧ t.p n = s.p n ∧ t.c n = s.c n) := by
  refine ⟨_, d, herrand, exec_localCapStore (hm h.1) hclears hsize herrand h, ?_⟩
  obtain ⟨tok, act', hkept⟩ := localCapStored_eq (past m.instr s) a (s.c d) (m.order s)
  rw [hkept]
  exact ⟨peek_pokeCap (past m.instr s) _ _ (localKey_granule ha), fun k hk => read_pokeCap_other (past m.instr s) _ _ hk,
    fun _ => ⟨rfl, rfl, rfl, rfl⟩⟩

end Sys2Proof.Laws
end

section
namespace Sys2Proof.Proofs
open Sys2Proof Sys2Proof.Machine Sys2Proof.Claims Sys2Proof.Laws

/-- Settles O20: the granule is read and written with its tag in the one part of the access. -/
theorem localCapabilities : Obligations.LocalCapabilities := by
  constructor
  · intro x y s act a
    simp only [List.forall_mem_cons, List.not_mem_nil, false_implies, implies_true, and_true]
    exact ⟨exec_localCapLoad_keeps cldc_access rfl rfl rfl, exec_localCapLoad_keeps cldcL32B_access rfl rfl rfl⟩
  · intro x y s act a
    simp only [List.forall_mem_cons, List.not_mem_nil, false_implies, implies_true, and_true]
    exact ⟨exec_localCapStore_keeps cstc_access rfl rfl rfl, exec_localCapStore_keeps cstcL32B_access rfl rfl rfl⟩

end Sys2Proof.Proofs
end

section
/-! 02 R66, 03 R76, R79, 04 R112, R114: what a read of a word with an error beyond correction ends in. -/
namespace Sys2Proof.Laws
open Sys2Proof Sys2Proof.Machine Sys2Proof.Claims

/-! In LOCAL (R76). -/

theorem spoiledPart_local_load {u : State} {a n d : Nat} {ty : TyCode} (h : u.spoiled (localKey u.core.psn a) n = true) :
    u.spoiledPart [(localPart a n, loadErrand d ty)] = some (a, loadErrand d ty) := by
  simp [State.spoiledPart, localPart, loadErrand, h]

theorem send_spoiled {u : State} {act : Act} {o : Order} {l : List (Part × Errand)} {x : Nat × Errand} (hact : u.core.act = some act)
    (hroom : u.hasRoom act o (l.map (·.1)) = true) (hbad : u.spoiledPart l = some x) : u.send o l = .error (eccStop x.1 x.2) := by
  simp [State.send, hact, hroom, hbad]

theorem loadBody_spoiled {u : State} {act : Act} {len cap d a : Nat} {off : State → Int} {ty : TyCode} {o : State → Order}
    (hact : u.core.act = some act) (hres : act.resumed = none) (hspace : (u.c cap).space = 0)
    (hcheck : u.checkCap (Ask.load cap) (u.c cap) (off u) (elemBytes ty) = .ok a)
    (hroom : (u.setG d 0).hasRoom act (o u) [localPart a (elemBytes ty)] = true)
    (hbad : u.spoiled (localKey u.core.psn a) (elemBytes ty) = true) :
    loadBody len cap off ty d o u = .error (.fault { code := .eccfatal, detail := eccDetail a 0, answer := .instr }) := by
  have hanswered : u.answered = none := by simp [State.answered, hact, hres]
  have hbad' : (u.setG d 0).spoiledPart [(localPart a (elemBytes ty), loadErrand d ty)] = some (a, loadErrand d ty) :=
    spoiledPart_local_load (by simpa using hbad)
  have hact' : (u.setG d 0).core.act = some act := by simpa using hact
  simp only [loadBody, hanswered, withParts_local hspace hcheck]
  exact send_spoiled (l := [(localPart a (elemBytes ty), loadErrand d ty)]) hact' hroom hbad'

theorem exec_localLoad_spoiled {m : MemForm} {ty : TyCode} {s : State} {act : Act} {a : Nat} (hm : IsLoad m ty) (h : m.atLocal s act a)
    (hroom : ((past m.instr s).setG m.clears 0).hasRoom act (m.order s) [localPart a m.size] = true)
    (hbad : s.spoiled (localKey s.core.psn a) m.size = true) :
    exec m.instr s = .next (s.takeFault { code := .eccfatal, detail := eccDetail a 0, answer := .instr }) := by
  obtain ⟨hissues, hact, hres, hspace, hcheck, -, -⟩ := h
  obtain ⟨f, len, hrun⟩ := hm.runs s hissues
  have hpast : (past m.instr s).core.act = some act := hact
  rw [hm.ask, ← hm.off, hm.size] at hcheck
  rw [← hm.order, hm.size] at hroom
  rw [hm.size] at hbad
  rw [hrun, loadBody_spoiled hpast hres hspace hcheck hroom hbad, settle_fault]

/-! At a store tile (R79). -/

/-- An access inside one RAW segment that nothing closes is one of plain bytes. -/
theorem tileOwn_raw {u : State} {a : Access} {t : Psn} {off : Nat} (hthere : (u.getTile t).withdrawn = false) (hop : a.op < opCounterRead)
    (haop : a.aop = 0) (hsize : 0 < a.size) (hinside : off % 65536 + a.size ≤ 65536) (hsys : segSys ((u.getTile t).seg (off / 65536)) = false)
    (hraw : segMode ((u.getTile t).seg (off / 65536)) = 0) : u.tileOwn a t off = u.tilePlain a t off := by
  have hlast : (off + a.size - 1) / 65536 = off / 65536 := by omega
  have hopen : ¬(levelOf a.core = .graph ∧ (off / 65536 = 7 ∨ (off + a.size - 1) / 65536 = 7) ∧ segSys ((u.getTile t).seg 7) = true) := by
    rw [hlast, or_self]
    rintro ⟨-, h7, hclosed⟩
    rw [h7, hclosed] at hsys
    cases hsys
  have hplain : ¬ a.aop = consumeMark := by rw [haop]; decide
  simp only [State.tileOwn, if_neg hopen]
  simp [hthere, Nat.not_le.mpr hop, hlast, hraw, hplain]

theorem tilePlain_spoiled {u : State} {a : Access} {t : Psn} {off : Nat} (hload : a.kind = .load)
    (hbad : u.spoiled (tileKey t off) a.size = true) : u.tilePlain a t off = .refused .eccfatal := by
  simp [State.tilePlain, Access.takes, hload, hbad]

theorem performItem_refused {u : State} {id : Nat} {a : Access} {t : Psn} {off : Nat} {code : Code} (howner : a.owner = .tile t off)
    (hinside : off % 65536 + a.size ≤ 65536) (hfirst : u.fifoBehind id a = false) (hevac : u.evac t = none)
    (h : u.tileOwn a t off = .refused code) :
    u.performItem id a = u.setItem id (.access { a with stage := .refused, fault := some (a.refusal id code) }) := by
  have hwhole : ¬ 65536 - off % 65536 < a.size := by omega
  have hone : u.firstPart a = none := by simp [State.firstPart, howner, hwhole]
  simp [State.performItem, hone, hfirst, State.performAt, howner, State.tileAct, hevac, h]

theorem exec_storeAccess_arrives {s u : State} {id : Nat} {a : Access} {t : Psn} {off : Nat} (h : arrivesAtTile s id a t off u) :
    exec (.storeAccess id) s = .next (u.performItem id a) := by
  obtain ⟨⟨hitem, hstage, hgone, howner, hclocked, hu, -⟩, -⟩ := h
  have hplace : s.arrivesAt (.access a) = some (t, a.core) := by simp [State.arrivesAt, howner]
  simp [execStoreAccess, accessEvent, hitem, hplace, event, hstage, hgone, howner, isDram, hclocked, hu]

/-! At a DRAM actor (R112, R114). -/

theorem exec_drdRequest_turn {s : State} {id pa : Nat} {a : Access} (h : turnOf s id a pa 0) :
    exec (.drdRequest id) s = .next ((s.plainAct a pa).2.answerRequest id a pa (s.plainAct a pa).1) := by
  obtain ⟨⟨hitem, howner, hstage, hgone, hop, hfirst⟩, hsound⟩ := h
  have hrequest : a.request pa = 0 := by simp [Access.request, hsound, hop]
  have hact : s.dramAct a pa = s.plainAct a pa := by simp [State.dramAct, hop]
  have hsent : (a.stage == .held || a.stage == .sent) = true := by simpa using hstage
  simp [execDrdRequest, dramRequest, accessEvent, hitem, howner, hrequest, hact, event, hsent, hgone, hfirst]

theorem plainAct_spoiled {s : State} {a : Access} {pa : Nat} (hkey : s.hasKey a.key = true) (hload : a.kind = .load)
    (hbad : s.spoiled pa a.size = true) : s.plainAct a pa = (Answered.bad 1, (rowTouched s pa).noteFatal pa) := by
  simp [State.plainAct, hkey, Access.takes, hload, hbad, rowTouched]

/-! In a walk (R66). -/

theorem findLeaf_spoiled_root {s : State} {region ctx va : Nat} (hlive : bit (at_ (s.getRegion region).graphRoot ctx 0) 0 = true)
    (hbad : s.spoiled (s.rootTable region ctx + 8 * (va / 2 ^ 42 % 64)) 8 = true) : s.findLeaf region ctx va = .bad 0 9 := by
  have hwalk : ∀ gkey, s.walkFrom region gkey va (s.rootTable region ctx) 0 3 = .bad 0 9 := fun _ => if_pos hbad
  simp only [State.findLeaf, hlive, hwalk]
  rfl

end Sys2Proof.Laws
end

section
namespace Sys2Proof.Proofs
open Sys2Proof Sys2Proof.Machine Sys2Proof.Claims Sys2Proof.Laws

/-- Settles O59: each reader of a spoiled word, at the place where it tests for one. -/
theorem uncorrectableErrors : Obligations.UncorrectableErrors := by
  refine ⟨?loaded, ?refused, ?answered, ?walked⟩
  case loaded =>
    intro x y s act a m hm h _ hroom hbad
    obtain ⟨ty, hload⟩ := loadForms_load m hm
    exact exec_localLoad_spoiled hload h hroom hbad
  case refused =>
    intro s n a t off u harrives hraw hload hbad
    obtain ⟨⟨-, -, -, howner, -, -, hthere, hevac, hop, haop, hsize, hinside, hsys⟩, hfirst⟩ := id harrives
    rw [exec_storeAccess_arrives harrives]
    refine congrArg _ (performItem_refused howner hinside hfirst hevac ?_)
    rw [tileOwn_raw hthere hop haop hsize hinside hsys hraw, tilePlain_spoiled hload hbad]
  case answered =>
    intro s id a pa hturn hkey hload hbad
    rw [exec_drdRequest_turn hturn, plainAct_spoiled hkey hload hbad]
    rfl
  case walked =>
    rintro s region ctx va _ rfl hlive hbad
    exact findLeaf_spoiled_root hlive hbad

end Sys2Proof.Proofs
end

section
/-! 02 R66, 07 R191, 16 R414 to R416: taking a fault. -/
namespace Sys2Proof.Laws
open Sys2Proof Sys2Proof.Machine Sys2Proof.Claims

@[simp] theorem getCore_self (s : State) : s.getCore s.core.psn = s.core := if_pos rfl
theorem putCore_self {s : State} {c : Core} (h : c.psn = s.core.psn) : s.putCore c = { s with core := c } := if_pos h.symm
theorem modCore_self {s : State} {f : Core → Core} (h : (f s.core).psn = s.core.psn) : s.modCore s.core.psn f = s.mapCore f := by
  rw [State.modCore, getCore_self, putCore_self h]
  rfl

/-- A record that a core gives up changes its home tile alone. -/
theorem unreserve_eq (s : State) (p : Psn) : ∃ tiles, s.unreserve p = { s with tiles := tiles } := by
  unfold State.unreserve
  split
  · split <;> exact ⟨_, rfl⟩
  · exact ⟨_, rfl⟩

/-- A fault message of the issuing core is sent, or stands among its unsent ones (R416). -/
theorem postFault_self_eq (s : State) (payload : List Byte) : ∃ unsent flight nextId,
    s.postFault s.core.psn payload = { s with core := { s.core with unsent := unsent }, flight := flight, nextId := nextId } := by
  unfold State.postFault
  dsimp only
  split
  · exact ⟨_, _, _, rfl⟩
  · rw [modCore_self rfl]
    exact ⟨_, _, _, rfl⟩

/-- R191: a halted activation keeps its core, its registers and its pc. -/
theorem haltAct_self_eq {s : State} {a : Act} (f : FaultInfo) (hact : s.core.act = some a) (hnew : a.halted = none) : ∃ tiles,
    s.haltAct s.core.psn f = { s with core := { s.core with waiting := true, act := some { a with halted := some f } }, tiles := tiles } := by
  obtain ⟨tiles, h⟩ := unreserve_eq s s.core.psn
  refine ⟨tiles, ?_⟩
  have hself : ({ s with tiles := tiles } : State).core.psn = s.core.psn := rfl
  rw [State.haltAct, h, ← hself, modCore_self rfl]
  simp [State.mapCore, hact, hnew]

theorem noteGangFault_alone {s : State} {a : Act} (h : a.gang = none) : s.noteGangFault a = s := by simp [State.noteGangFault, h]

/-- The core once the activation has gone into its record: it is free, FHOLD keeps the entry from firing, and q52 has counted the fault
(R191, R414). -/
def faultedCore (c : Core) (a : Act) (f : FaultInfo) : Core :=
  (if f.code = .trap ∨ f.counted then c.leave else c.leave.addQ 52 1).setFhold a.entry true

theorem faultedCore_psn (c : Core) (a : Act) (f : FaultInfo) : (faultedCore c a f).psn = c.psn := by
  unfold faultedCore
  split <;> rfl
theorem faultedCore_act (c : Core) (a : Act) (f : FaultInfo) : (faultedCore c a f).act = none := by
  unfold faultedCore
  split <;> rfl
theorem faultedCore_handler {c : Core} {a : Act} {f : FaultInfo} (h : a.entry < 20) :
    (faultedCore c a f).handler a.entry = setBit (c.handler a.entry) 124 true := by
  have hset : ∀ d : Core, (d.setFhold a.entry true).handler a.entry = setBit (d.handler a.entry) 124 true := fun d => at_put _ _ _ _ h
  unfold faultedCore
  rw [hset]
  split <;> rfl
theorem faultedCore_q52 (c : Core) (a : Act) (f : FaultInfo) : at_ (faultedCore c a f).q 52 0 =
    if f.code = .trap ∨ f.counted = true then at_ c.q 52 0 else satAdd (at_ c.q 52 0) 1 := by
  unfold faultedCore
  split
  · rfl
  · exact at_put _ _ _ _ (by decide)

/-- R191, R416: with a full record free, the accesses drained and a message slot, the activation goes into the record and leaves the core;
`tiles` are those of the state in which it has given up a short record that it had allocated. -/
theorem takeFault_recorded {s : State} {a : Act} {tile : Psn} {i : Nat} (f : FaultInfo) (hlevel : s.level = .graph) (hact : s.core.act = some a)
    (halone : a.gang = none) (hhome : s.homeTile s.core = some tile) (hfree : (s.getTile tile).freeFull = some i)
    (hdrained : s.drained s.core.psn a.serial = true) (hslot : s.core.unsent.length < 4) : ∃ tiles payload, s.takeFault f =
      ((({ s with tiles := tiles } : State).modTile tile (·.putRecord (faultedRecord s.core a f a.reissue i))).putCore
        (faultedCore s.core a f)).postFault s.core.psn payload := by
  have hgo : ¬(s.drained s.core.psn a.serial = false ∨ 4 ≤ s.core.unsent.length) := by simp [hdrained, hslot]
  have hgraph : ¬ levelOf s.core.psn ≠ .graph := fun hother => hother hlevel
  obtain ⟨tiles, hgiven⟩ := unreserve_eq s s.core.psn
  have hcore : ({ s with tiles := tiles } : State).getCore s.core.psn = s.core := getCore_self _
  simp only [State.takeFault, State.faultCore, getCore_self, hact, if_neg hgraph, hhome, hfree, if_neg hgo, noteGangFault_alone halone, hgiven,
    hcore]
  exact ⟨tiles, _, rfl⟩

/-- R191: where the record, the drain or the message slot is wanting, the activation halts. -/
theorem takeFault_halted {s : State} {a : Act} {tile : Psn} (f : FaultInfo) (hlevel : s.level = .graph) (hact : s.core.act = some a)
    (hhome : s.homeTile s.core = some tile)
    (hwanting : (s.getTile tile).freeFull = none ∨ s.drained s.core.psn a.serial = false ∨ 4 ≤ s.core.unsent.length) :
    s.takeFault f = s.haltAct s.core.psn f := by
  have hgraph : ¬ levelOf s.core.psn ≠ .graph := fun hother => hother hlevel
  simp only [State.takeFault, State.faultCore, getCore_self, hact, if_neg hgraph, hhome]
  rcases hwanting with hnone | hwait
  · rw [hnone]
  · split
    · rfl
    · rw [if_pos hwait]

theorem record_putRecord (t : Tile) (r : Record) : (t.putRecord r).record r.index = some r := find_upsert_same _ _ _ (by simp)

end Sys2Proof.Laws
end

section
namespace Sys2Proof.Proofs
open Sys2Proof Sys2Proof.Machine Sys2Proof.Claims Sys2Proof.Laws

/-- Settles O50: the record takes the activation where it can be written, else the activation halts. -/
theorem takingAFault : Obligations.TakingAFault := by
  constructor
  · intro s f a tile i hlevel hact hentry halone hhome hfree hdrained hslot
    obtain ⟨tiles, payload, htaken⟩ := takeFault_recorded f hlevel hact halone hhome hfree hdrained hslot
    generalize hu : ({ s with tiles := tiles } : State).modTile tile (·.putRecord (faultedRecord s.core a f a.reissue i)) = u at htaken
    have hcore : u.core = s.core := by rw [← hu]; rfl
    have hmem : u.mem = s.mem ∧ u.tags = s.tags := by rw [← hu]; exact ⟨rfl, rfl⟩
    have htile : (u.getTile tile).record i = some (faultedRecord s.core a f a.reissue i) := by
      rw [← hu, getTile_modTile _ _ _ (getTile_psn _ _)]
      exact record_putRecord _ _
    have hleft : u.putCore (faultedCore s.core a f) = { u with core := faultedCore s.core a f } := putCore_self (by rw [faultedCore_psn, hcore])
    obtain ⟨unsent, flight, nextId, hposted⟩ := postFault_self_eq ({ u with core := faultedCore s.core a f } : State) payload
    have hpsn : ({ u with core := faultedCore s.core a f } : State).core.psn = s.core.psn := faultedCore_psn s.core a f
    rw [hpsn] at hposted
    rw [htaken, hleft, hposted]
    exact ⟨htile, faultedCore_act s.core a f, faultedCore_handler hentry, faultedCore_q52 s.core a f, hmem.1, hmem.2⟩
  · intro s f a tile hlevel hact hhome hnew hwanting
    obtain ⟨tiles, hhalted⟩ := haltAct_self_eq f hact hnew
    rw [takeFault_halted f hlevel hact hhome hwanting, hhalted]
    exact ⟨rfl, rfl, rfl⟩

end Sys2Proof.Proofs
end

section
/-! 02 R51, 07 R189, R192, 11 R286, R289 to R294: the instructions that check a capability, read the core's own state, and ask for what others do. -/
namespace Sys2Proof.Laws
open Sys2Proof Sys2Proof.Machine Sys2Proof.Claims

theorem wickBody_act {s : State} {a : Act} (hact : s.core.act = some a) :
    wickBody s = .ok (if hWick (s.core.handler a.entry) = 0 then s
      else s.mapCore (fun c => { c with wick := s.wickInterval (psnRegion s.core.psn) a.ctx (hWick (s.core.handler a.entry)) })) := by
  simp only [wickBody, hact]
  rfl

theorem widBody_act {s : State} {a : Act} (d f : Nat) (hact : s.core.act = some a) :
    widBody d f s = .ok (s.setG d (widField a.wid a.widShape f)) := by
  simp [widBody, hact]

theorem sysWriteBody_above {s : State} (r a : Nat) (hl : s.level ≠ .graph) : sysWriteBody r a s = .ok (match r with
    | 0x100 => s.modRegion (psnRegion s.core.psn) (·.setRunqAge (s.g a))
    | 0x101 => s.modRegion (psnRegion s.core.psn) (·.setRingIdle (s.g a))
    | 0x102 => s.modRegion (psnRegion s.core.psn) (·.setTombWindow (s.g a))
    | _ => s) := by
  unfold sysWriteBody
  exact if_neg hl

theorem queryBody_ok {s : State} (d a : Nat) (hok : queryOk (s.g a) = true) :
    queryBody d a s = .ok ((s.launchItem (.query s.core.psn d (s.g a))).setPending (.g d) s.nextId) := by
  simp [queryBody, hok]

/-! YIELD (R294): its checks passed, it looks for a short record of the home tile. -/

theorem yieldBody_nowhere {s : State} {act : Act} (len a : Nat) (hact : s.core.act = some act) (hfree : s.core.bindsAny act.entry = false)
    (hmask : maskOk (s.g a) act.window = true)
    (hnone : (s.homeTile s.core).bind (fun t => (s.getTile t).shortFor s.core.psn) = none) : yieldBody len a s = .ok s.detach := by
  have hplace : (s.homeTile s.core).bind (fun t => ((s.getTile t).shortFor s.core.psn).map (fun i => (t, i))) = none := by
    cases ht : s.homeTile s.core with
    | none => rfl
    | some t => simpa [ht] using hnone
  simp [yieldBody, hact, hfree, hmask, hplace]

theorem yieldBody_suspends {s : State} {act : Act} {t k : Nat} (len a : Nat) (hact : s.core.act = some act)
    (hfree : s.core.bindsAny act.entry = false) (hmask : maskOk (s.g a) act.window = true) (hhome : s.homeTile s.core = some t)
    (hshort : (s.getTile t).shortFor s.core.psn = some k) (hdrained : s.drained s.core.psn act.serial = true) :
    yieldBody len a s = .ok (s.leaveGang.suspend t k [] (s.g a) true) := by
  simp [yieldBody, hact, hfree, hmask, hhome, hshort, hdrained]

/-- The two encodings of YIELD run one body. -/
theorem run_yields {i : Instr} {a : Nat} {s : State}
    (hi : (∃ x, i = Instr.yield x ∧ a = x.a.toNat) ∨ (∃ x, i = Instr.yieldL32A x ∧ a = x.a.toNat)) (h : issues i s) :
    ∃ f len, exec i s = settle f s (yieldBody len a (past i s)) := by
  rcases hi with ⟨x, rfl, rfl⟩ | ⟨x, rfl, rfl⟩
  · exact ⟨_, _, run_yield x s h⟩
  · exact ⟨_, _, run_yieldL32A x s h⟩

end Sys2Proof.Laws
end

section
namespace Sys2Proof.Proofs
open Sys2Proof Sys2Proof.Machine Sys2Proof.Claims Sys2Proof.Laws

theorem capabilityCheck : CapabilityCheck := fun x s h => (run_cchk x s h).trans rfl

theorem systemReads : SystemReads := by
  refine ⟨?who, ?wid, ?widShort, ?time, ?timeShort, ?energy, ?energyShort, ?sysrd, ?tsc, ?wick, ?wickShort⟩
  case who => exact fun x s h => (run_who x s h).trans rfl
  case wid => exact fun x s a h hact => run_body_ok (run_wid x s h) (widBody_act (s := past _ s) _ _ hact)
  case widShort => exact fun x s a h hact => run_body_ok (run_widL32B x s h) (widBody_act (s := past _ s) _ _ hact)
  case time => exact fun x s h => (run_time x s h).trans rfl
  case timeShort => exact fun x s h => (run_timeL32A x s h).trans rfl
  case energy => exact fun x s h => (run_timeEnergy x s h).trans rfl
  case energyShort => exact fun x s h => (run_timeEnergyL32A x s h).trans rfl
  case sysrd =>
    intro x s v h _ hread
    simp only [run_sysrd x s h, hread]
    rfl
  case tsc =>
    intro x s h hhi
    have hread : (past (.sysrd x) s).sysRead x.hi.toNat = .ok s.tsc := by rw [hhi]; rfl
    simp only [run_sysrd x s h, hread]
    rfl
  case wick => exact fun x s a h hact => run_body_ok (run_wick x s h) (wickBody_act (s := past _ s) hact)
  case wickShort => exact fun x s a h hact => run_body_ok (run_wickL32A x s h) (wickBody_act (s := past _ s) hact)

theorem systemEffects : SystemEffects := by
  refine ⟨?syswr, ?query, ?queryShort, ?yield⟩
  case syswr => exact fun x s h hl => run_body_ok (run_syswr x s h) (sysWriteBody_above _ _ hl)
  case query => exact fun x s h hok => run_body_ok (run_query x s h) (queryBody_ok _ _ hok)
  case queryShort => exact fun x s h hok => run_body_ok (run_queryL32A x s h) (queryBody_ok _ _ hok)
  case yield =>
    intro i a act s hi h hact hfree hmask
    obtain ⟨f, len, hrun⟩ := run_yields hi h
    refine ⟨fun hnone => ?_, fun t k hhome hshort hdrained => ?_⟩
    · rw [hrun, yieldBody_nowhere (s := past i s) len a hact hfree hmask hnone, settle_ok]
    · rw [hrun, yieldBody_suspends (s := past i s) len a hact hfree hmask hhome hshort hdrained, settle_ok]
      rfl

/-- Settles O11: each instruction's body on the state past it. -/
theorem systemInstructions : Obligations.SystemInstructions := ⟨capabilityCheck, systemReads, systemEffects⟩

end Sys2Proof.Proofs
end

section
/-! 02 R60 to R72: misses and walks, invalidation, splices, and the evacuation of a store tile. -/
namespace Sys2Proof.Laws
open Sys2Proof Sys2Proof.Machine Sys2Proof.Claims

/-! Misses and walks (R63, R64, R66). -/

/-- R17: a free walker takes the one walk that has none. -/
theorem takeWalk_last {r : Region} {a : Nat} {b : Walk} (hbusy : ∀ k ∈ r.walks, k.walker ≠ some a ∧ k.walker ≠ none) (ha : a < 8)
    (hlower : ∀ i < a, ∃ k ∈ r.walks, k.walker = some i) (hb : b.walker = none) :
    ({ r with walks := r.walks ++ [b] } : Region).takeWalk = { r with walks := r.walks ++ [{ b with walker := some a }] } := by
  have hfree : (List.range 8).find? (fun i => (r.walks ++ [b]).all (fun k => k.walker != some i)) = some a := by
    rw [List.find?_range_eq_some]
    refine ⟨?_, List.mem_range.mpr ha, fun i hi => ?_⟩
    · simpa [hb] using fun k hk => (hbusy k hk).1
    · obtain ⟨k, hk, hw⟩ := hlower i hi
      simpa [hb] using ⟨k, hk, hw⟩
  have hwaiting : (r.walks ++ [b]).find? (·.walker.isNone) = some b := by
    have hnone : r.walks.find? (·.walker.isNone) = none := by
      simpa [Option.isNone_iff_eq_none] using fun k hk => (hbusy k hk).2
    simp [List.find?_append, hnone, hb]
  have hkeep : r.walks.map (fun x => if x = b then { x with walker := some a } else x) = r.walks := by
    refine (List.map_congr_left fun k hk => if_neg ?_).trans (List.map_id _)
    rintro rfl
    exact (hbusy k hk).2 hb
  simp only [Region.takeWalk, hfree, hwaiting, List.map_append, List.map_cons, List.map_nil, if_pos, hkeep]

theorem execL2TlbRequest_hit {s : State} {id : Nat} {w : Miss} {e : Tlb} (hitem : s.item id = some (.l2Request w))
    (hit : (s.getRegion (psnRegion w.core)).l2.find? (fun e => e.covers w.ctx w.va && (!w.write || leafDirty e.leaf)) = some e) :
    execL2TlbRequest id s =
      .next ((s.modRegion (psnRegion w.core) (fun r => { r with l2 := touchTlb r.l2 w.ctx w.va })).setItem id (.fill w e)) := by
  simp only [execL2TlbRequest, hitem, hit]

theorem execL2TlbRequest_miss {s : State} {id : Nat} {w : Miss} (hitem : s.item id = some (.l2Request w))
    (hmiss : (s.getRegion (psnRegion w.core)).l2.find? (fun e => e.covers w.ctx w.va && (!w.write || leafDirty e.leaf)) = none)
    (hroom : (s.getRegion (psnRegion w.core)).walks.length < 64) :
    execL2TlbRequest id s = .next ((s.dropItem id).queueWalk (psnRegion w.core) w) := by
  simp [execL2TlbRequest, hitem, hmiss, hroom, event]

/-- A walk of a page that no other waits for enters the queue. -/
theorem queueWalk_new {s : State} {region : Nat} {w : Miss}
    (hnew : ∀ k ∈ (s.getRegion region).walks, ¬ (k.ctx = w.ctx ∧ k.vpage = w.va / 65536)) :
    s.queueWalk region w = s.modRegion region (fun r =>
      ({ r with walks := r.walks ++ [{ ctx := w.ctx, vpage := w.va / 65536, waiters := [w] }] } : Region).takeWalk) := by
  have hnone : ¬ (s.getRegion region).walks.any (fun k => k.ctx == w.ctx && k.vpage == w.va / 65536) = true := by simpa using hnew
  simp only [State.queueWalk, State.modRegion, if_neg hnone]

/-- A leaf with ACCESSED set and, for a write, DIRTY (R60). -/
theorem marked_leaf (leaf : Word) (write : Bool) : leaf ||| BitVec.ofNat 64 (2 ^ 16) ||| (if write then BitVec.ofNat 64 (2 ^ 17) else 0) =
    leaf ||| (if write then 0x30000 else 0x10000) := by
  cases write
  · simp
  · rw [BitVec.or_assoc]
    rfl

theorem answerWalk_leaf {u : State} {region size addr : Nat} {w : Miss} {leaf : Word} (hfound : u.findLeaf region w.ctx w.va = .leaf leaf size addr)
    (hgranted : leafCause (levelOf w.core) leaf w.access w.write w.tagged = none) :
    let v := u.readEntries (u.entriesTo region w.ctx w.va (if size = 29 then 1 else 2))
    let leaf' := leaf ||| (if w.write then 0x30000 else 0x10000)
    let entry := Tlb.ofLeaf w.ctx w.va size leaf'
    u.answerWalk region w = (((if leaf' = leaf then v else v.dramWrite 0 addr (leBytes 8 leaf'.toNat)).modRegion region
        (fun r => { r with l2 := fillL2 r.l2 (entry.part w.va) })).launchItem (.fill w entry)) := by
  simp only [State.answerWalk, State.walk, hfound, hgranted, marked_leaf]

theorem answerWalk_bad {v : State} {region level cause : Nat} {w : Miss} (hfound : v.findLeaf region w.ctx w.va = .bad level cause) :
    v.answerWalk region w = (if v.contextLive region w.ctx then v.readEntries (v.entriesTo region w.ctx w.va level) else v).launchItem
      (.fillFault w level cause) := by
  simp only [State.answerWalk, State.walk, hfound]

/-- What the report of an entry that cannot be read leaves (R66). -/
def reported (s u : State) (region : Nat) (k : Walk) : State :=
  match s.lostEntry region k with
  | some x => (u.noteFatal x.1).coreNotice x.2 .eccfatal (eccDetail x.1 1)
  | none => u

theorem execPageWalk_one {s : State} {region i : Nat} {k : Walk} {w : Miss} (hr : region < 80) (hi : i < 8)
    (hk : (s.getRegion region).walks.find? (fun k => k.walker == some i) = some k) (hw : k.waiters = [w])
    (hnotice : ∀ x, s.lostEntry region k = some x → s.canNotice x.2 = true) :
    execPageWalk ⟨region, i⟩ s = .next ((reported s (s.modRegion region (fun r =>
      ({ r with walks := r.walks.filter (· != k) } : Region).takeWalk)) region k).answerWalk region w) := by
  have hthere : ¬ (80 ≤ region ∨ 8 ≤ i) := by omega
  have hall : (s.lostEntry region k).all (fun x => s.canNotice x.2) = true := by simpa [Option.all_eq_true] using hnotice
  simp only [execPageWalk, if_neg hthere, hk, event, hall, State.finishWalk, hw, List.foldl_cons, List.foldl_nil]
  rfl

theorem fillFails_waiting {s : State} {w : Miss} {level cause : Nat} {a : Act} (hunit : w.unit = 0) (haccess : w.access ≠ 10)
    (hwait : (s.getCore w.core).waiting = true) (hact : (s.getCore w.core).act = some a) (hserial : a.serial = w.serial) (hrun : a.halted = none) :
    s.fillFails w level cause = s.faultCore w.core
      { code := .page, detail := pageDetail w.va w.access level cause w.ctx, answer := if w.answers then .instr else .nothing } := by
  simp [State.fillFails, hunit, haccess, hwait, hact, hserial, hrun]

/-! Invalidation (R65). -/

theorem invalidate_free {s : State} {region : Nat} {v : Word} (hfree : bit (s.getRegion region).invalStat 0 = false) (hscope : fld v 63 62 ≠ 3) :
    s.invalidate region v = (s.dropTlbs (s.invalRegions region v) v).modRegion region (fun r =>
      { r with invalStat := setBit r.invalStat 0 true, invalWaits := s.usersOf (s.invalRegions region v) v }) :=
  if_neg (by simp [hfree, hscope])

theorem invalidate_busy {s : State} {region : Nat} {v : Word} (hbusy : bit (s.getRegion region).invalStat 0 = true) :
    s.invalidate region v = s.modRegion region (fun r => { r with invalStat := setBit r.invalStat 1 true }) :=
  if_pos (.inl hbusy)

theorem invalEvent_scope {s : State} {region scope : Nat} {v : Word} (hr : region < 80) (hscope : fld v 63 62 = scope) :
    s.invalEvent region scope v = .next (s.invalidate region v) := by
  simp [State.invalEvent, Nat.not_le.mpr hr, event, hscope]

/-- Each of the three writes does the one invalidation that its scope names. -/
theorem exec_tlbInval {s u : State} {region : Nat} {v : Word} (hr : region < 80) (h : fld v 63 62 ≠ 3 → s.invalidate region v = u) :
    (fld v 63 62 = 0 → exec (.tlbInvalPage region v) s = .next u) ∧ (fld v 63 62 = 1 → exec (.tlbInvalContext region v) s = .next u) ∧
    (fld v 63 62 = 2 → exec (.tlbInvalAll region v) s = .next u) := by
  have hscope {n : Nat} (hn : n < 3) (hv : fld v 63 62 = n) : s.invalEvent region n v = .next u := by
    rw [invalEvent_scope hr hv, h (by omega)]
  exact ⟨hscope (by decide), hscope (by decide), hscope (by decide)⟩

theorem dropTlbs_region (s : State) (region : Nat) (v : Word) :
    ((s.dropTlbs [region] v).getRegion region).l2 = (s.getRegion region).l2.filter (fun e => !e.inScope v) :=
  congrArg Region.l2 (getRegion_modRegion s region (fun g => { g with l2 := g.l2.filter (fun e => !e.inScope v) }) (getRegion_number s region))

theorem inScope_page {v : Word} {e : Tlb} (hctx : e.ctx = fld v 55 51) (hpage : e.vpage = fld v 47 16) (hsize : e.size = 16) :
    e.inScope v = true := by
  unfold Tlb.inScope
  split
  · simp [hctx, hpage, hsize]
  · simp [hctx]
  · rfl

/-! Splices and the evacuation of a tile (R70 to R72). -/

theorem execSpliceCopyComplete_block {s : State} {region i size addr : Nat} {leaf : Word} (hr : region < 80) (hi : i < 16)
    (hvalid : bit (at_ (s.getRegion region).splices i 0) 127 = true) (hstate : spliceState (at_ (s.getRegion region).splices i 0) = 1)
    (hfound : s.findLeaf region (spliceCtx (at_ (s.getRegion region).splices i 0)) (s.spliceVaOf region i) = .leaf leaf size addr)
    (hmore : splicePtr (at_ (s.getRegion region).splices i 0) < 1024) :
    execSpliceCopyComplete region i s = .next (s.spliceBlock region i (at_ (s.getRegion region).splices i 0) leaf) := by
  have hthere : ¬ (80 ≤ region ∨ 16 ≤ i) := by omega
  simp only [execSpliceCopyComplete, if_neg hthere, hfound]
  exact if_pos ⟨hvalid, hstate, hmore⟩

theorem execSpliceCopyComplete_whole {s : State} {region i size addr : Nat} {leaf : Word} (hr : region < 80) (hi : i < 16)
    (hvalid : bit (at_ (s.getRegion region).splices i 0) 127 = true) (hstate : spliceState (at_ (s.getRegion region).splices i 0) = 1)
    (hfound : s.findLeaf region (spliceCtx (at_ (s.getRegion region).splices i 0)) (s.spliceVaOf region i) = .leaf leaf size addr)
    (hwhole : 1024 ≤ splicePtr (at_ (s.getRegion region).splices i 0)) (hfree : bit (s.getRegion region).invalStat 0 = false) :
    execSpliceCopyComplete region i s =
      .next (s.spliceCopied region i (at_ (s.getRegion region).splices i 0) (s.spliceVaOf region i) leaf addr) := by
  have hthere : ¬ (80 ≤ region ∨ 16 ≤ i) := by omega
  have hdone : ¬ splicePtr (at_ (s.getRegion region).splices i 0) < 1024 := by omega
  simp only [execSpliceCopyComplete, if_neg hthere, hfound, hdone, and_false, if_false]
  exact event_enabled (by simp only [hvalid, hstate, hfree]; rfl)

theorem execSpliceFinish_ends {s : State} {region i : Nat} (hr : region < 80) (hi : i < 16)
    (hvalid : bit (at_ (s.getRegion region).splices i 0) 127 = true) (hstate : spliceState (at_ (s.getRegion region).splices i 0) = 2)
    (hfree : bit (s.getRegion region).invalStat 0 = false) :
    execSpliceFinish region i s = .next (s.spliceFinished region i (at_ (s.getRegion region).splices i 0) (s.spliceVaOf region i)) := by
  have hthere : ¬ (80 ≤ region ∨ 16 ≤ i) := by omega
  simp only [execSpliceFinish, if_neg hthere]
  exact event_enabled (by simp only [hvalid, hstate, hfree]; rfl)

theorem execStoreTileEvacuation_step {s : State} {source spare : Psn} {e : Evac} (hsource : isTilePsn source = true)
    (hspare : isTilePsn spare = true) (he : s.evac source = some e) (htarget : e.target = spare) (hcan : s.evacCanStep e = true) :
    execStoreTileEvacuation source spare s = .next (s.evacStep e) := by
  simp [execStoreTileEvacuation, hsource, hspare, he, htarget, hcan, event]

end Sys2Proof.Laws
end

section
namespace Sys2Proof.Proofs
open Sys2Proof Sys2Proof.Machine Sys2Proof.Claims Sys2Proof.Laws

theorem translationWalks : TranslationSteps := by
  refine ⟨?hit, ?miss, ?taken, ?leaf, ?bad, ?fill, ?failure⟩
  case hit =>
    rintro s id w e _ hitem rfl hit
    rw [exec_l2TlbRequest, execL2TlbRequest_hit hitem hit]
  case miss =>
    rintro s id w _ hitem rfl hunfit hnew hroom
    have hmiss : (s.getRegion (psnRegion w.core)).l2.find? (fun e => e.covers w.ctx w.va && (!w.write || leafDirty e.leaf)) = none := by
      simp only [List.find?_eq_none]
      intro e he hserves
      simp only [Bool.and_eq_true, Bool.or_eq_true, Bool.not_eq_true'] at hserves
      obtain ⟨hcovers, huse⟩ := hserves
      obtain ⟨hwrite, hclean⟩ := hunfit e he hcovers
      simp [hwrite, hclean] at huse
    rw [exec_l2TlbRequest, execL2TlbRequest_miss hitem hmiss hroom, queueWalk_new (s := s.dropItem id) hnew]
  case taken => exact fun r a b hbusy ha hlower hb => takeWalk_last hbusy ha hlower hb
  case leaf =>
    rintro s region i k w leaf size addr _ _ _ _ _ hr hi hk hw hlost rfl rfl hfound hgranted rfl rfl rfl
    rw [exec_pageWalk, execPageWalk_one hr hi hk hw (by simp [hlost]), reported, hlost]
    exact congrArg _ (answerWalk_leaf hfound hgranted)
  case bad =>
    rintro s region i k w level cause _ _ hr hi hk hw hnotice rfl rfl hfound
    rw [exec_pageWalk, execPageWalk_one hr hi hk hw hnotice]
    exact congrArg _ (answerWalk_bad hfound)
  case fill =>
    intro s id w e hitem
    simp only [exec_tlbFillReply, execTlbFillReply, hitem]
  case failure =>
    rintro s id w level cause _ a hitem hunit haccess rfl hwait hact hserial hrun
    simp only [exec_tlbFillReply, execTlbFillReply, hitem]
    exact congrArg _ (fillFails_waiting (s := s.dropItem id) hunit haccess hwait hact hserial hrun)

theorem invalidation : Invalidation := by
  refine ⟨?free, ?busy, ?complete, ?dropped⟩
  case free =>
    rintro s region v _ _ hr hfree rfl rfl
    exact exec_tlbInval hr (invalidate_free hfree)
  case busy =>
    rintro s region v _ hr hbusy rfl
    exact exec_tlbInval hr fun _ => invalidate_busy hbusy
  case complete =>
    intro s region hr hbusy hdone
    rw [exec_tlbInvalComplete, execTlbInvalComplete, if_neg (Nat.not_le.mpr hr)]
    exact event_enabled (by rw [hbusy, List.all_eq_true.mpr hdone]; rfl)
  case dropped =>
    intro s region v e hctx hpage hsize _ he
    rw [dropTlbs_region, List.mem_filter, inScope_page hctx hpage hsize] at he
    exact absurd he.2 (by decide)

theorem splicesAndEvacuation : SplicesAndEvacuation := by
  refine ⟨?copied, ?finished, ?evacuated⟩
  case copied =>
    rintro s region i _ _ leaf size addr hr hi rfl hvalid hstate rfl hfound
    exact ⟨fun hmore => (exec_spliceCopyComplete ..).trans (execSpliceCopyComplete_block hr hi hvalid hstate hfound hmore),
      fun hwhole hfree => (exec_spliceCopyComplete ..).trans (execSpliceCopyComplete_whole hr hi hvalid hstate hfound hwhole hfree)⟩
  case finished =>
    rintro s region i _ _ leaf size addr hr hi rfl hvalid hstate hfree rfl hfound
    rw [exec_spliceFinish, execSpliceFinish_ends hr hi hvalid hstate hfree, State.spliceFinished, hfound]
  case evacuated =>
    intro s source spare e hsource hspare he htarget
    have step (hcan : s.evacCanStep e = true) : exec (.storeTileEvacuation source spare) s = .next (s.evacStep e) :=
      (exec_storeTileEvacuation ..).trans (execStoreTileEvacuation_step hsource hspare he htarget hcan)
    refine ⟨fun hcopying hmore hread => ?_, fun hcopying hwhole => ?_, fun ids hwaits hover => ?_⟩
    · have hblock : s.evacStep e = s.evacBlock e := by simp only [State.evacStep, hcopying, if_pos hmore]
      rw [step (by simp [State.evacCanStep, hcopying, hread]), hblock]
      rfl
    · have hmap : s.evacStep e = s.evacMap e := by simp [State.evacStep, hcopying, hwhole]
      rw [step (by simp [State.evacCanStep, hcopying, hwhole]), hmap]
    · rw [step (by simpa [State.evacCanStep, hwaits] using hover), State.evacStep, hwaits]

/-- Settles O36: each step by its own rule. -/
theorem translationSteps : Obligations.TranslationSteps := ⟨translationWalks, invalidation, splicesAndEvacuation⟩

end Sys2Proof.Proofs
end

section
/-! 13 R343, R349, R350: vector loads and stores, gathers and scatters. -/
namespace Sys2Proof.Laws
open Sys2Proof Sys2Proof.Machine Sys2Proof.Claims

/-- The accesses of a vector instruction, with room for them and every word of a load readable, are sent. -/
theorem send_sends {u : State} {act : Act} {o : Order} {l : List (Part × Errand)} {ps : List Part} (hact : u.core.act = some act)
    (hparts : l.map (·.1) = ps) (hroom : u.hasRoom act o ps = true)
    (hread : ∀ x ∈ l, x.2.kind ≠ .store → ∀ addr, x.1.owner = .local addr → u.spoiled (localKey u.core.psn addr) x.1.size = false) :
    u.send o l = .ok (sends u act o l) :=
  send_parts hact (hparts ▸ hroom) (spoiledPart_readable fun x hx hstore _ => hread x hx hstore)

theorem send_stores {u : State} {act : Act} {o : Order} {ps : List Part} {data : List Byte} (hact : u.core.act = some act)
    (hroom : u.hasRoom act o ps = true) :
    u.send o (ps.map (fun p => (p, storeErrand data))) = .ok (sends u act o (ps.map (fun p => (p, storeErrand data)))) :=
  send_sends hact (by simp [Function.comp_def]) hroom (List.forall_mem_map.mpr fun _ _ hstore => absurd rfl hstore)

theorem send_loads {u : State} {act : Act} {o : Order} {ps : List Part} {e : Errand} (hact : u.core.act = some act)
    (hroom : u.hasRoom act o ps = true) (hread : readable u ps) :
    u.send o (ps.map (fun p => (p, e))) = .ok (sends u act o (ps.map (fun p => (p, e)))) :=
  send_sends hact (by simp [Function.comp_def]) hroom (List.forall_mem_map.mpr fun p hp _ => hread p hp)

theorem unlessWait_ok {α : Type} {r : Except Stop α} {v : α} (h : r = .ok v) : unlessWait r = .ok () := by rw [h]; rfl

theorem answered_none {u : State} {act : Act} (hact : u.core.act = some act) (hres : act.resumed = none) : u.answered = none := by
  simp [State.answered, hact, hres]
theorem answered_some {u : State} {act : Act} {v : List Byte} (hact : u.core.act = some act) (hres : act.resumed = some v) :
    u.answered = some v := by
  simp [State.answered, hact, hres]

theorem runOk_free {u : State} {d n : Nat} (hfree : 1 < n → ∀ j, j < n → u.bound (d + j) = none)
    (hwritten : ∀ j, j < n → u.core.isPending (.v (d + j)) = false) : u.runOk d n = .ok () := by
  have hbound : ¬ (1 < n ∧ (List.range n).any (fun j => (u.bound (d + j)).isSome) = true) := by
    rintro ⟨hn, hany⟩
    obtain ⟨j, hj, hsome⟩ := List.any_eq_true.mp hany
    simp [hfree hn j (List.mem_range.mp hj)] at hsome
  have hpending : ¬ (List.range n).any (fun j => u.core.isPending (.v (d + j))) = true := by
    simpa using hwritten
  simp only [State.runOk, if_neg hbound, if_neg hpending]

theorem pmReady_written {x : Long} {u : State} (h : governorsWritten x u) : x.pmReady u = .ok () := by
  obtain ⟨hfirst, hnext⟩ := h
  by_cases hw : x.width = 8
  · simp [Long.pmReady, State.ready, hfirst, hnext hw, hw, bind, Except.bind]
  · simp [Long.pmReady, State.ready, hfirst, hw, bind, Except.bind, pure, Except.pure]

/-! VLD (R349). -/

/-- R67: a run of registers that a RESUME has answered takes its bytes. -/
theorem vldBody_answered {u : State} {len d n cap : Nat} {consume : Bool} {off : State → Int} {o : State → Order} {v : List Byte}
    (hrun : u.runOk d n = .ok ()) (hanswered : u.answered = some v) :
    vldBody len d n cap consume off o u = .ok ((u.consume (o u)).fillRun d n v) := by
  simp only [vldBody, hrun, hanswered, bind, Except.bind, pure, Except.pure]

/-- What the loads of a run pass: the checks of its one stream, CheckAccess for each register, translation, and for CONSUME a full buffer of a STORE
capability. -/
structure VldPasses (u : State) (d n cap : Nat) (consume : Bool) (off : State → Int) (as : List Nat) (ps : List Part) : Prop where
  run : u.runOk d n = .ok ()
  fresh : u.answered = none
  fits : n = 1 → unlessWait (u.vland d none 0 64 0) = .ok ()
  check : u.checkAligned (Ask.load cap) (u.c cap) 64 (runOffsets (off u) n) = .ok as
  resolve : u.resolveAll (Ask.load cap) (u.c cap).space (runPlaces as) = .parts ps
  full : consume = true → (u.c cap).space = 1 ∧ u.consumeReady (Ask.load cap) (u.c cap) (off u) (as.getD 0 0) = .ok ()

/-- How a run's parts are sent: one register starts from zero or is a stream's next vector, several start from zero each. -/
def sendRun (d n : Nat) (consume : Bool) (o : Order) (ps : List Part) (u : State) : Except Stop State :=
  if n = 1 then do
    let (l, t) ← (u.touch ps).vland d none 0 64 (BitVec.allOnes 64)
    t.send o (ps.map (fun p => (p, vectorErrand consume l)))
  else
    ((List.range n).foldl (fun t j => t.setV (d + j) 0) (u.touch ps)).send o (ps.map (fun p =>
      ({ p with place := p.place % 64 }, vectorErrand consume (.vec (d + p.place / 64) 0))))

theorem vldBody_sends {u : State} {len d n cap : Nat} {consume : Bool} {off : State → Int} {o : State → Order} {as : List Nat} {ps : List Part}
    (h : VldPasses u d n cap consume off as ps) : vldBody len d n cap consume off o u = sendRun d n consume (o u) ps u := by
  obtain ⟨hrun, hfresh, hfits, hcheck, hresolve, hfull⟩ := h
  have hcap : ¬ (consume = true ∧ (u.c cap).tag = true ∧ (u.c cap).otype = 0 ∧ (u.c cap).space ≠ 1 ∧
      (!decide ((u.c cap).space = 5 ∧ u.level = Level.graph)) = true) := fun ⟨hc, _, _, hspace, _⟩ => hspace (hfull hc).1
  simp only [vldBody, sendRun, hrun, hfresh, hcheck, bind, Except.bind, if_neg hcap, hresolve]
  cases consume with
  | false =>
    by_cases hn : n = 1
    · simp only [if_pos hn, hfits hn]
      rfl
    · simp only [if_neg hn]
      rfl
  | true =>
    by_cases hn : n = 1
    · simp only [if_pos hn, hfits hn, (hfull rfl).2]
      rfl
    · simp only [if_neg hn, (hfull rfl).2]
      rfl

theorem sendRun_one {u t : State} {act : Act} {d : Nat} {consume : Bool} {o : Order} {ps : List Part} {l : Landing}
    (hland : (u.touch ps).vland d none 0 64 (BitVec.allOnes 64) = .ok (l, t)) (hact : t.core.act = some act)
    (hroom : t.hasRoom act o ps = true) (hread : readable t ps) :
    sendRun d 1 consume o ps u = .ok (sends t act o (ps.map (fun p => (p, vectorErrand consume l)))) := by
  simp only [sendRun, if_pos, hland]
  exact send_loads hact hroom hread

theorem sendRun_several {u t : State} {act : Act} {d n : Nat} {consume : Bool} {o : Order} {ps : List Part} (hn : 1 < n)
    (ht : t = (List.range n).foldl (fun t j => t.setV (d + j) 0) (u.touch ps)) (hact : t.core.act = some act)
    (hroom : t.hasRoom act o (ps.map (fun p => { p with place := p.place % 64 })) = true) (hread : readable t ps) :
    sendRun d n consume o ps u = .ok (sends t act o (ps.map (fun p =>
      ({ p with place := p.place % 64 }, vectorErrand consume (.vec (d + p.place / 64) 0))))) := by
  simp only [sendRun, if_neg (Nat.ne_of_gt hn), ← ht]
  exact send_sends hact (by simp [Function.comp_def]) hroom (List.forall_mem_map.mpr fun p hp _ => hread p hp)

/-! VST (R349). -/

theorem vstBody_answered {u : State} {len d n cap : Nat} {off : State → Int} {o : State → Order} {v : List Byte}
    (hrun : u.runOk d n = .ok ()) (hanswered : u.answered = some v) : vstBody len d n cap off o u = .ok (u.consume (o u)) := by
  simp only [vstBody, hrun, hanswered, bind, Except.bind, pure, Except.pure]

theorem vstBody_sends {u v t : State} {act : Act} {len d n cap : Nat} {off : State → Int} {o : State → Order} {as : List Nat} {ps : List Part}
    (hrun : u.runOk d n = .ok ()) (hfresh : u.answered = none) (hpops : u.popAll [(d, none)] = .ok v)
    (hcheck : u.checkAligned (Ask.store cap) (u.c cap) 64 (runOffsets (off u) n) = .ok as)
    (hresolve : u.resolveAll (Ask.store cap) (u.c cap).space (runPlaces as) = .parts ps)
    (hpopped : (u.touch ps).popAll [(d, none)] = .ok t) (hact : t.core.act = some act) (hroom : t.hasRoom act (o u) ps = true) :
    vstBody len d n cap off o u = .ok (sends t act (o u) (ps.map (fun p =>
      (p, storeErrand ((List.range n).flatMap (fun j => leBytes 64 (t.vin (d + j)).toNat)))))) := by
  simp only [vstBody, hrun, hfresh, unlessWait_ok hpops, hcheck, hresolve, hpopped, bind, Except.bind]
  exact send_stores hact hroom

/-! VLDG and VSTS (R350). -/

theorem vldgBody_answered {x : Long} {u : State} {v : List Byte} (hready : x.pmReady u = .ok ()) (hanswered : u.answered = some v)
    (hfree : (u.consume (x.order u)).bound x.d.toNat = none) :
    vldgBody x u = .ok ((u.consume (x.order u)).setV x.d.toNat (BitVec.ofNat 512 (ofLe (slice v 0 64)))) := by
  simp only [vldgBody, hready, hanswered, bind, Except.bind, State.vout, hfree]

/-- The governed lanes' elements pass CheckAccess, aligned, and are translated to parts. -/
structure ElementsReach (x : Long) (q : Ask) (t : State) (as : List Nat) (ps : List Part) : Prop where
  check : t.checkAligned q (t.c x.a.toNat) (x.width / 8) ((gatherLanes x t).map (gatherOffset x t)) = .ok as
  resolve : t.resolveAll q (t.c x.a.toNat).space ((as.zip (gatherLanes x t)).map (fun e => (e.1, x.width / 8 * e.2, x.width / 8))) = .parts ps

/-- What a gather's register starts from: zero in the lanes it loads and, where ZERO asks for it, in every other. -/
def gatherBase (x : Long) (t : State) : VWord :=
  BitVec.ofNat 512 (packLanes x.width (lanes x.ty) (fun k =>
    if (gatherLanes x t).contains k || x.zero then 0 else laneOf x.width (t.vold x.d.toNat) k))

theorem vldgBody_sends {x : Long} {u t w : State} {act : Act} {as : List Nat} {ps : List Part} {v : Landing × State} {l : Landing}
    (hready : x.pmReady u = .ok ()) (hfresh : u.answered = none) (hpopped : u.popAll [(x.b.toNat, some 32)] = .ok t)
    (hfits : t.vland x.d.toNat (some x.width) 0 64 0 = .ok v) (hreach : ElementsReach x (askGather x.a.toNat) t as ps)
    (hland : (t.touch ps).vland x.d.toNat (some x.width) (gatherBase x t) (x.width / 8 * (gatherLanes x t).length)
      (laneMask 64 (gatherLanes x t).contains) = .ok (l, w))
    (hact : w.core.act = some act) (hroom : w.hasRoom act (x.order t) ps = true) (hread : readable w ps) :
    vldgBody x u = .ok (sends w act (x.order t) (ps.map (fun p => (p, vectorErrand false l)))) := by
  unfold gatherBase at hland
  simp only [vldgBody, hready, hfresh, hpopped, unlessWait_ok hfits, hreach.check, hreach.resolve, hland, bind, Except.bind]
  exact send_loads hact hroom hread

theorem vstsBody_answered {x : Long} {u : State} {v : List Byte} (hready : x.pmReady u = .ok ()) (hanswered : u.answered = some v) :
    vstsBody x u = .ok (u.consume (x.order u)) := by
  simp only [vstsBody, hready, hanswered, bind, Except.bind, pure, Except.pure]

theorem vstsBody_sends {x : Long} {u t : State} {act : Act} {as : List Nat} {ps kept : List Part} (hready : x.pmReady u = .ok ())
    (hfresh : u.answered = none) (hpopped : u.popAll [(x.b.toNat, some 32), (x.d.toNat, some x.width)] = .ok t) (hact : t.core.act = some act)
    (hreach : ElementsReach x (askScatter x.a.toNat) t as ps)
    (hkept : kept = ps.filter (fun p => ps.all (fun r => r.addr != p.addr || decide (r.place ≤ p.place))))
    (hroom : (t.touch ps).hasRoom act (x.order t) kept = true) :
    vstsBody x u = .ok (sends (t.touch ps) act (x.order t) (kept.map (fun p => (p, storeErrand (leBytes 64 (t.vin x.d.toNat).toNat))))) := by
  simp only [vstsBody, hready, hfresh, hpopped, hreach.check, hreach.resolve, ← hkept, bind, Except.bind]
  exact send_stores (u := t.touch ps) hact hroom

/-! The forms of VLD and VST. -/

/-- What the forms of VLD, or of VST, share at a state: their body, and that the pc tells its operands nothing. -/
structure IsRun (m : RunForm) (s : State) (body : Nat → Body') : Prop where
  settles : ∃ f len, exec m.instr s = settle f s (body len (past m.instr s))
  off : m.off (past m.instr s) = m.off s
  order : m.order (past m.instr s) = m.order s
  ok : (past m.instr s).runOk m.d m.n = .ok ()

theorem IsRun.next {m : RunForm} {s t : State} {body : Nat → Body'} (h : IsRun m s body) (hbody : ∀ len, body len (past m.instr s) = .ok t) :
    exec m.instr s = .next t := by
  obtain ⟨f, len, hrun⟩ := h.settles
  rw [hrun, hbody, settle_ok]

theorem runOk_of_runs {m : RunForm} {s : State} (h : m.runs s) : (past m.instr s).runOk m.d m.n = .ok () := by
  obtain ⟨-, hfree, hwritten⟩ := h
  exact runOk_free hfree hwritten

theorem loads_run {x : Long} {y : ShortB} {s : State} : ∀ m ∈ [runLoad x, runLoadShort y], m.runs s →
    IsRun m s (fun len => vldBody len m.d m.n m.cap m.consume m.off m.order) := by
  simp only [List.forall_mem_cons, List.not_mem_nil, false_implies, implies_true, and_true]
  exact ⟨fun h => ⟨⟨_, _, run_vld x s h.1⟩, rfl, rfl, runOk_of_runs h⟩,
    fun h => ⟨⟨_, _, run_vldL32B y s h.1⟩, rfl, rfl, runOk_of_runs h⟩⟩

theorem stores_run {x : Long} {y : ShortB} {s : State} : ∀ m ∈ [runStore x, runStoreShort y], m.runs s →
    IsRun m s (fun len => vstBody len m.d m.n m.cap m.off m.order) := by
  simp only [List.forall_mem_cons, List.not_mem_nil, false_implies, implies_true, and_true]
  exact ⟨fun h => ⟨⟨_, _, run_vst x s h.1⟩, rfl, rfl, runOk_of_runs h⟩,
    fun h => ⟨⟨_, _, run_vstL32B y s h.1⟩, rfl, rfl, runOk_of_runs h⟩⟩

end Sys2Proof.Laws
end

section
namespace Sys2Proof.Proofs
open Sys2Proof Sys2Proof.Machine Sys2Proof.Claims Sys2Proof.Laws

theorem vectorLoads : VectorLoads := by
  intro x y s act as ps m hm hruns hact hres hreach hfull
  have hrun := loads_run m hm hruns
  obtain ⟨hcheck, hresolve⟩ := hreach
  have passes (hfits : m.n = 1 → unlessWait ((past m.instr s).vland m.d none 0 64 0) = .ok ()) :
      VldPasses (past m.instr s) m.d m.n m.cap m.consume m.off as ps :=
    ⟨hrun.ok, answered_none hact hres, hfits, by rw [hrun.off]; exact hcheck, hresolve, by rw [hrun.off]; exact hfull⟩
  refine ⟨fun v l t hone hfits hland hact' hroom hread => ?_, fun t hn ht hact' hroom hread => ?_⟩
  · refine hrun.next fun len => ?_
    rw [vldBody_sends (passes fun _ => unlessWait_ok hfits), hrun.order, hone]
    exact sendRun_one hland hact' hroom hread
  · refine hrun.next fun len => ?_
    rw [vldBody_sends (passes fun hone => absurd hone (Nat.ne_of_gt hn)), hrun.order]
    exact sendRun_several hn ht hact' hroom hread

theorem vectorStores : VectorStores := by
  intro x y s act as ps v t m hm hruns hact hres hpops ⟨hcheck, hresolve⟩ hpopped hact' hroom
  have hrun := stores_run m hm hruns
  refine hrun.next fun len => ?_
  rw [← hrun.order] at hroom ⊢
  exact vstBody_sends hrun.ok (answered_none hact hres) hpops (by rw [hrun.off]; exact hcheck) hresolve hpopped hact' hroom

theorem gathersAndScatters : GathersAndScatters := by
  refine ⟨?gather, ?scatter⟩
  case gather =>
    rintro x s act t v _ as ps l w hi hgov hact hres hpopped hfits rfl hcheck hresolve hland hact' hroom hread
    rw [run_vldg x s hi, vldgBody_sends (pmReady_written hgov) (answered_none hact hres) hpopped hfits ⟨hcheck, hresolve⟩ hland hact' hroom hread,
      settle_ok]
  case scatter =>
    rintro x s act t _ as ps kept hi hgov hact hres hpopped hact' rfl hcheck hresolve hkept hroom
    rw [run_vsts x s hi, vstsBody_sends (pmReady_written hgov) (answered_none hact hres) hpopped hact' ⟨hcheck, hresolve⟩ hkept hroom, settle_ok]

theorem answeredVectorAccesses : AnsweredVectorAccesses := by
  intro x y s act v hact hv
  have answered (i : Instr) : (past i s).answered = some v := answered_some hact hv
  refine ⟨fun m hm hruns => ?_, fun m hm hruns => ?_, fun hi hgov hfree => ?_, fun hi hgov => ?_⟩
  · have hrun := loads_run m hm hruns
    exact hrun.next fun len => hrun.order ▸ vldBody_answered hrun.ok (answered _)
  · have hrun := stores_run m hm hruns
    exact hrun.next fun len => hrun.order ▸ vstBody_answered hrun.ok (answered _)
  · rw [run_vldg x s hi, vldgBody_answered (pmReady_written hgov) (answered _) hfree, settle_ok]
    rfl
  · rw [run_vsts x s hi, vstsBody_answered (pmReady_written hgov) (answered _), settle_ok]
    rfl

/-- Settles O29: each body sends what its checks give, or is over where a RESUME has answered it. -/
theorem vectorMemory : Obligations.VectorMemory := ⟨vectorLoads, vectorStores, gathersAndScatters, answeredVectorAccesses⟩

end Sys2Proof.Proofs
end

section
/-! 03 R93 to R95, 12 R315 to R322, 13 R363: what the checks of a queue handle answer, and the bodies of the instructions behind them. -/
namespace Sys2Proof.Laws
open Sys2Proof Sys2Proof.Machine Sys2Proof.Claims

theorem settle_illegal (f : Form) (s : State) (n : Nat) :
    settle f s (.error (.illegal n)) = .next (s.takeFault { code := .illegal, detail := parcelDetail f.words n }) := rfl

theorem run_body_illegal {i : Instr} {f : Form} {s : State} {n : Nat} {body : Body'} (run : exec i s = settle f s (body (past i s)))
    (hw : f.words = encode i) (hb : body (past i s) = .error (.illegal n)) :
    exec i s = .next (s.takeFault { code := .illegal, detail := parcelDetail (encode i) n }) := by rw [run, hb, settle_illegal, hw]

/-- A body ends where its first check stops. -/
theorem bind_error {α β : Type} {r : Except Stop α} {e : Stop} {k : α → Except Stop β} (h : r = .error e) : (r >>= k) = .error e := by
  rw [h]; rfl

/-! The checks of a handle and of a count (R315). -/

theorem handleOk_valid {s : State} {h : Nat} (hok : s.core.queueOk.getLsbD h = true) : s.handleOk h = .ok () := if_pos hok
theorem handleOk_invalid {s : State} {h : Nat} (hbad : s.core.queueOk.getLsbD h = false) : s.handleOk h = .error (.illegal 6) :=
  if_neg (by simp [hbad])
theorem handleIn_valid {s : State} {h : Nat} (hin : h < 20) (hok : s.core.queueOk.getLsbD h = true) : s.handleIn h = .ok () := by
  rw [State.handleIn, if_pos hin, handleOk_valid hok]
theorem handleOut_valid {s : State} {h : Nat} (hout : 20 ≤ h) (hok : s.core.queueOk.getLsbD h = true) : s.handleOut h = .ok () := by
  rw [State.handleOut, if_neg (by omega), handleOk_valid hok]

theorem handleIn_unusable {s : State} {h : Nat} (hbad : s.core.queueOk.getLsbD h = false ∨ 20 ≤ h) : s.handleIn h = .error (.illegal 6) := by
  unfold State.handleIn
  split
  · next hin => exact handleOk_invalid (hbad.resolve_right (Nat.not_le.mpr hin))
  · rfl
theorem handleOut_unusable {s : State} {h : Nat} (hbad : s.core.queueOk.getLsbD h = false ∨ h < 20) : s.handleOut h = .error (.illegal 6) := by
  unfold State.handleOut
  split
  · rfl
  · next hout => exact handleOk_invalid (hbad.resolve_right hout)

theorem countOk_ok {n : Nat} (hlow : 1 ≤ n) (hhigh : n ≤ 256) : countOk n = .ok () := if_pos ⟨hlow, hhigh⟩

/-- The limits of a slot access (R317). -/
theorem slotCheck_ok {off size slot i depth : Nat} (halign : off % size = 0) (hend : off + size ≤ slot) (hdepth : i < depth) :
    slotCheck off size slot i depth = .ok () := by
  simp [slotCheck, halign, Nat.not_lt.mpr hend, hdepth]

/-! Waits and reads (R316, R317, R319). -/

theorem hwaitfBody_ok {d h : Nat} {n : State → Nat} {s : State} (hin : h < 20) (hok : s.core.queueOk.getLsbD h = true) (hlow : 1 ≤ n s)
    (hhigh : n s ≤ 256) (hdepth : n s ≤ qDepth (s.core.queue h)) (hready : n s ≤ s.core.filled h ∨ qEnded (s.core.queue h) = true) :
    hwaitfBody d h n s = .ok (s.setP d (if n s ≤ s.core.filled h then BitVec.allOnes 32 else 0)) := by
  have hgoes : ¬ (s.core.filled h < n s ∧ (!qEnded (s.core.queue h)) = true) := by
    rintro ⟨hshort, hopen⟩
    rcases hready with hfilled | hended
    · omega
    · simp [hended] at hopen
  simp only [hwaitfBody, handleIn_valid hin hok, countOk_ok hlow hhigh, bind, Except.bind, if_neg (Nat.not_lt.mpr hdepth), if_neg hgoes,
    allLanes, decide_eq_true_eq]
  rfl

theorem hwaiteBody_ok {h : Nat} {n : State → Nat} {s : State} (hout : 20 ≤ h) (hok : s.core.queueOk.getLsbD h = true) (hlow : 1 ≤ n s)
    (hhigh : n s ≤ 256) (hdepth : n s ≤ oDepth (s.core.queue h)) (hfree : n s ≤ oFree (s.core.queue h)) : hwaiteBody h n s = .ok s := by
  simp only [hwaiteBody, handleOut_valid hout hok, countOk_ok hlow hhigh, bind, Except.bind, if_neg (Nat.not_lt.mpr hdepth),
    if_neg (Nat.not_lt.mpr hfree)]
  rfl

theorem hldBody_ok {d h off k place : Nat} {t : TyCode} {i : State → Nat} {s : State} (hin : h < 20) (hok : s.core.queueOk.getLsbD h = true)
    (halign : off % elemBytes t = 0) (hend : off + elemBytes t ≤ qSlotBytes (s.core.queue h)) (hdepth : i s < qDepth (s.core.queue h))
    (hidle : s.localBusy = false) (hshown : (s.core.presented h)[i s]? = some (k, place))
    (hread : s.spoiled (localKey s.core.psn (slotAddr (s.core.queue h) k place + off)) (elemBytes t) = false) :
    hldBody d h off t i s = .ok ((s.setG d (extend t
      (ofLe (s.bytes (localKey s.core.psn (slotAddr (s.core.queue h) k place + off)) (elemBytes t))))).noteRead
      (localKey s.core.psn (slotAddr (s.core.queue h) k place + off)) (elemBytes t)) := by
  simp only [hldBody, handleIn_valid hin hok, slotCheck_ok halign hend hdepth, bind, Except.bind, hidle, hshown, hread]
  rfl

theorem hstatBody_ok {d h : Nat} {s : State} (hok : s.core.queueOk.getLsbD h = true) :
    hstatBody d h s = .ok (s.setG d (hstatWord s.core h)) := by
  simp only [hstatBody, handleOk_valid hok]
  rfl

/-! Writers (R317, R318). -/

theorem hstBody_ok {d h off : Nat} {t : TyCode} {i : State → Nat} {s : State} (hout : 20 ≤ h) (hok : s.core.queueOk.getLsbD h = true)
    (halign : off % elemBytes t = 0) (hend : off + elemBytes t ≤ oSlotBytes (s.core.queue h)) (hdepth : i s < oDepth (s.core.queue h))
    (hidle : s.localBusy = false) (hcopy : s.core.copying h = false) (hfree : i s < oFree (s.core.queue h)) :
    hstBody d h off t i s = .ok (s.poke (localKey s.core.psn (oBase (s.core.queue h) +
      (oProd (s.core.queue h) + i s) % oDepth (s.core.queue h) * oSlotBytes (s.core.queue h) + off)) (leBytes (elemBytes t) (s.g d).toNat)) := by
  simp only [hstBody, handleOut_valid hout hok, slotCheck_ok halign hend hdepth, bind, Except.bind, hidle, hcopy,
    decide_eq_false (Nat.not_le.mpr hfree)]
  rfl

theorem hadvpBody_ok {h : Nat} {n : State → Nat} {after : State → List Nat} {s : State} (hout : 20 ≤ h)
    (hok : s.core.queueOk.getLsbD h = true) (hlow : 1 ≤ n s) (hhigh : n s ≤ 256) (hopen : oEosSent (s.core.queue h) = false)
    (hcopy : s.core.copying h = false) (hfree : n s ≤ oFree (s.core.queue h)) :
    hadvpBody h n after s = .ok (s.mapCore (fun c => { (c.setQueue h (setFld (s.core.queue h) 31 16 (oProd (s.core.queue h) + n s))) with
      staged := c.staged ++ List.replicate (n s) (h, false, after s) })) := by
  simp only [hadvpBody, handleOut_valid hout hok, countOk_ok hlow hhigh, bind, Except.bind, hopen, hcopy, if_neg (Nat.not_lt.mpr hfree)]
  rfl

theorem heosBody_ok {h : Nat} {after : State → List Nat} {s : State} (hout : 20 ≤ h) (hok : s.core.queueOk.getLsbD h = true)
    (hopen : oEosSent (s.core.queue h) = false) (hcopy : s.core.copying h = false) :
    heosBody h after s = .ok (s.mapCore (fun c => { (c.setQueue h (setBit (s.core.queue h) 81 true)) with
      staged := c.staged ++ [(h, true, after s)] })) := by
  simp only [heosBody, handleOut_valid hout hok, bind, Except.bind, hopen, hcopy]
  rfl

theorem hadvcBody_ok {h : Nat} {n : State → Nat} {s : State} (hin : h < 20) (hok : s.core.queueOk.getLsbD h = true) (hlow : 1 ≤ n s)
    (hhigh : n s ≤ 256) (hshown : n s ≤ (s.core.presented h).length) : hadvcBody h n s = .ok (advanced h (n s) s) := by
  simp only [hadvcBody, handleIn_valid hin hok, countOk_ok hlow hhigh, bind, Except.bind, if_neg (Nat.not_lt.mpr hshown), advanced,
    List.countP_eq_length_filter]
  cases ((s.core.presented h).take (n s)).getLast? <;> rfl

/-! Senders (R320 to R322, R363). -/

theorem sendBody_ok {h cap a : Nat} {off : State → Int} {after : State → List Nat} {s : State} (hout : 20 ≤ h)
    (hok : s.core.queueOk.getLsbD h = true) (hcan : s.canSend h = .ok ()) (hspace : (s.c cap).space = 0)
    (hcheck : s.checkCap { Ask.load cap with answers := false } (s.c cap) (off s) (oSlotBytes (s.core.queue h)) = .ok a)
    (halign : a % oSlotBytes (s.core.queue h) = 0) (hidle : s.localBusy = false)
    (hread : s.spoiled (localKey s.core.psn a) (oSlotBytes (s.core.queue h)) = false) :
    sendBody h cap off after s = .ok ((s.sendSlot s.core.psn h (s.localBytes s.core a (oSlotBytes (s.core.queue h))) (after s)).noteRead
      (localKey s.core.psn a) (oSlotBytes (s.core.queue h))) := by
  have hlocal : ¬ ((s.c cap).tag = true ∧ (s.c cap).otype = 0 ∧ (s.c cap).space ≠ 0 ∧
      (!decide ((s.c cap).space = 5 ∧ s.level = .graph)) = true) := fun ⟨_, _, hother, _⟩ => hother hspace
  simp only [sendBody, handleOut_valid hout hok, bind, Except.bind, if_neg hlocal, hcheck, halign, ne_eq, not_true, if_false, hcan, hidle, hread]
  rfl

theorem sendqBody_ok {h b n : Nat} {after : State → List Nat} {s u : State} (hout : 20 ≤ h) (hok : s.core.queueOk.getLsbD h = true)
    (hn : n = (oSlotBytes (s.core.queue h) + 63) / 64) (hrun : b + n ≤ 32) (hcan : s.canSend h = .ok ())
    (hwritten : ∀ k < n, s.core.isPending (.v (b + k)) = false) (hpopped : s.popAll ((List.range n).map (fun k => (b + k, none))) = .ok u) :
    sendqBody h b after s = .ok (u.sendSlot u.core.psn h (((List.range n).flatMap (fun k => leBytes 64 (u.vin (b + k)).toNat)).take
      (oSlotBytes (s.core.queue h))) (after u)) := by
  have hpending : (List.range n).any (fun k => s.core.isPending (.v (b + k))) = false := by simpa using hwritten
  simp only [sendqBody, handleOut_valid hout hok, bind, Except.bind, ← hn, if_neg (Nat.not_lt.mpr hrun), hcan, hpending, hpopped]
  rfl

theorem credBody_leaf {x : Long} {s : State} {a : Act} {tr : Tree} {l : Nat} (hact : s.core.act = some a)
    (htree : (s.getRegion (psnRegion s.core.psn)).trees.find? (fun t => t.number == x.hi.toNat % 16 && t.ctx == a.ctx) = some tr)
    (hlogical : s.logicalOf s.core.psn = some l) (hleaf : tr.leaves.contains l = true) :
    credBody x s =
      let round := ((s.core.credRound.find? (·.1 == x.hi.toNat % 16)).map (·.2)).getD 0
      .ok (((s.mapCore (fun c => { c with credRound := upsert c.credRound (·.1 == x.hi.toNat % 16) (x.hi.toNat % 16, round + 1) })).launchItem
        (.contribution (psnRegion s.core.psn) (x.hi.toNat % 16) s.core.psn round (x.c.toNat % 8) x.sub.toNat (x.c.toNat / 8 % 4) (x.c.getLsbD 5)
          (s.g x.a.toNat) (encode (.cred x)))).setPending (.g x.d.toNat) s.nextId) := by
  simp only [credBody, hact, Option.map_some, Option.getD_some, htree, hlogical, hleaf]
  rfl

end Sys2Proof.Laws
end

section
namespace Sys2Proof.Proofs
open Sys2Proof Sys2Proof.Machine Sys2Proof.Claims Sys2Proof.Laws

theorem handleWaitsAndReads : HandleWaitsAndReads := by
  refine ⟨?hwaitf, ?hwaitfShort, ?hwaite, ?hwaiteShort, ?hld, ?hstat, ?hstatShort⟩
  case hwaitf =>
    rintro x s _ _ h rfl rfl hin hok hlow hhigh hdepth hready
    exact run_body_ok (run_hwaitf x s h) (hwaitfBody_ok hin hok hlow hhigh hdepth hready)
  case hwaitfShort =>
    rintro x s _ _ h rfl rfl hin hok hlow hhigh hdepth hready
    exact run_body_ok (run_hwaitfL32B x s h) (hwaitfBody_ok hin hok hlow hhigh hdepth hready)
  case hwaite =>
    rintro x s _ _ h rfl rfl hout hok hlow hhigh hdepth hfree
    exact run_body_ok (run_hwaite x s h) (hwaiteBody_ok hout hok hlow hhigh hdepth hfree)
  case hwaiteShort =>
    rintro x s _ _ h rfl rfl hout hok hlow hhigh hdepth hfree
    exact run_body_ok (run_hwaiteL32B x s h) (hwaiteBody_ok hout hok hlow hhigh hdepth hfree)
  case hld =>
    rintro x s _ _ k place h rfl rfl hin hok halign hend hdepth hidle hshown hread
    exact run_body_ok (run_hld x s h) (hldBody_ok hin hok halign hend hdepth hidle hshown hread)
  case hstat => exact fun x s h hok => run_body_ok (run_hstat x s h) (hstatBody_ok hok)
  case hstatShort => exact fun x s h hok => run_body_ok (run_hstatL32A x s h) (hstatBody_ok hok)

theorem handleFaults : HandleFaults := by
  constructor
  · simp only [List.forall_mem_cons, List.not_mem_nil, false_implies, implies_true, and_true, Bool.true_eq_false, iff_false, iff_true, Nat.not_lt]
    exact ⟨fun x s h hbad => run_body_illegal (run_hwaitf x s h) rfl (bind_error (handleIn_unusable hbad)),
      fun x s h hbad => run_body_illegal (run_hwaite x s h) rfl (bind_error (handleOut_unusable hbad)),
      fun x s h hbad => run_body_illegal (run_hld x s h) rfl (bind_error (handleIn_unusable hbad)),
      fun x s h hbad => run_body_illegal (run_hst x s h) rfl (bind_error (handleOut_unusable hbad)),
      fun x s h hbad => run_body_illegal (run_hadvc x s h) rfl (bind_error (handleIn_unusable hbad)),
      fun x s h hbad => run_body_illegal (run_hadvp x s h) rfl (bind_error (handleOut_unusable hbad)),
      fun x s h hbad => run_body_illegal (run_heos x s h) rfl (bind_error (handleOut_unusable hbad))⟩
  · simp only [List.forall_mem_cons, List.not_mem_nil, false_implies, implies_true, and_true, Bool.true_eq_false, iff_false, iff_true, Nat.not_lt]
    exact ⟨fun x s h hbad => run_body_illegal (run_hwaitfL32B x s h) rfl (bind_error (handleIn_unusable hbad)),
      fun x s h hbad => run_body_illegal (run_hwaiteL32B x s h) rfl (bind_error (handleOut_unusable hbad)),
      fun x s h hbad => run_body_illegal (run_hadvcL32B x s h) rfl (bind_error (handleIn_unusable hbad)),
      fun x s h hbad => run_body_illegal (run_hadvpL32B x s h) rfl (bind_error (handleOut_unusable hbad))⟩

/-- Settles O15: each body behind the check of its handle, and that check where it fails. -/
theorem handleInstructions : Obligations.HandleInstructions := ⟨handleWaitsAndReads, handleFaults⟩

/-- Settles O60: each writer's body behind the checks of its handle and its count. -/
theorem handleWriters : Obligations.HandleWriters := by
  refine ⟨?hst, ?hadvp, ?hadvpShort, ?heos, ?hadvc, ?hadvcShort⟩
  case hst =>
    rintro x s _ _ h rfl rfl hout hok halign hend hdepth hidle hcopy hfree
    exact run_body_ok (run_hst x s h) (hstBody_ok hout hok halign hend hdepth hidle hcopy hfree)
  case hadvp =>
    rintro x s _ _ h rfl rfl hout hok hlow hhigh hopen hcopy hfree
    exact run_body_ok (run_hadvp x s h) (hadvpBody_ok hout hok hlow hhigh hopen hcopy hfree)
  case hadvpShort =>
    rintro x s _ _ h rfl rfl hout hok hlow hhigh hopen hcopy hfree
    exact run_body_ok (run_hadvpL32B x s h) (hadvpBody_ok hout hok hlow hhigh hopen hcopy hfree)
  case heos =>
    rintro x s _ h rfl hout hok hopen hcopy
    exact run_body_ok (run_heos x s h) (heosBody_ok hout hok hopen hcopy)
  case hadvc =>
    rintro x s _ _ h rfl rfl hin hok hlow hhigh hshown
    exact run_body_ok (run_hadvc x s h) (hadvcBody_ok hin hok hlow hhigh hshown)
  case hadvcShort =>
    rintro x s _ _ h rfl rfl hin hok hlow hhigh hshown
    exact run_body_ok (run_hadvcL32B x s h) (hadvcBody_ok hin hok hlow hhigh hshown)

/-- Settles O16: each sender's body once its handle, or its tree, lets it go. -/
theorem messageSenders : Obligations.MessageSenders := by
  refine ⟨?send, ?sendq, ?cred⟩
  case send =>
    rintro x s _ a h rfl hout hcan hok hspace hcheck halign hidle hread
    exact run_body_ok (run_send x s h) (sendBody_ok hout hok hcan hspace hcheck halign hidle hread)
  case sendq =>
    rintro x s _ n u h rfl hout hn hok hrun hcan hwritten hpopped
    exact run_body_ok (run_sendq x s h) (sendqBody_ok hout hok hn hrun hcan hwritten hpopped)
  case cred =>
    rintro x s a tr l _ h hact htree hlogical hleaf rfl
    exact run_body_ok (run_cred x s h) (credBody_leaf hact htree hlogical hleaf)

end Sys2Proof.Proofs
end

section
/-! 03 R87, R97, 12 R325 to R327, R329, R330: a copy command enters its channel, and what an instruction asks of a store tile. -/
namespace Sys2Proof.Laws
open Sys2Proof Sys2Proof.Machine Sys2Proof.Claims

/-! The pages of a command's sides (R64). -/

theorem pageStarts_none (space a : Nat) : pageStarts space a 0 = [] := if_neg fun h => h.2 rfl

theorem touchPages_none (s : State) : s.touchPages [] = s := rfl

theorem withPages_one {s : State} {length : Nat} {q : Ask} {ps : List Nat} {k : List Tlb → Body'} {e : List Tlb}
    (hscan : s.scanPages q ps = .ok e) : s.withPages length [(q, ps)] k = k e (s.touchPages ps) := by
  simp only [State.withPages, hscan, List.append_nil]

theorem withPages_two {s : State} {length : Nat} {q r : Ask} {ps qs : List Nat} {k : List Tlb → Body'} {e f : List Tlb}
    (hscan : s.scanPages q ps = .ok e) (hscan' : (s.touchPages ps).scanPages r qs = .ok f) :
    s.withPages length [(q, ps), (r, qs)] k = k (e ++ f) ((s.touchPages ps).touchPages qs) := by
  simp only [State.withPages, hscan, hscan', List.append_nil]

theorem chanRoom_ok {s : State} {chan : Nat} (hroom : (at_ s.core.copies chan { queue := [] }).queue.length < 8) : s.chanRoom chan = .ok () :=
  if_neg (Nat.not_le.mpr hroom)

/-! The copy instructions (R325 to R327). Their operands and their order read the same after a page has been touched. -/

theorem cpyBody_ok {x : Long} {s v : State} {a b : Nat} {e f : List Tlb} (hn : x.copyLength s < 2 ^ 32)
    (hread : s.checkCopy (askCopyRead x.b.toNat) (s.c x.b.toNat) 0 (x.copyLength s) = .ok a)
    (hwrite : s.checkCopy (askCopyWrite x.a.toNat) (s.c x.a.toNat) 0 (x.copyLength s) = .ok b)
    (hscan : s.scanPages (askCopyRead x.b.toNat) (pageStarts (s.c x.b.toNat).space a (x.copyLength s)) = .ok e)
    (hv : v = s.touchPages (pageStarts (s.c x.b.toNat).space a (x.copyLength s)))
    (hscan' : v.scanPages (askCopyWrite x.a.toNat) (pageStarts (s.c x.a.toNat).space b (x.copyLength s)) = .ok f)
    (hroom : x.copyLength s ≠ 0 → (at_ s.core.copies x.d.toNat { queue := [] }).queue.length < 8) :
    cpyBody x.bytes x.d.toNat x.a.toNat x.b.toNat x.copyFill x.copyLength x.order s =
      .ok (if x.copyLength s = 0 then s.leaveTokens (x.order s) []
        else (v.touchPages (pageStarts (s.c x.a.toNat).space b (x.copyLength s))).pushCopy x.d.toNat (x.order s)
          (Copy.fresh (.run (s.c x.b.toNat).space a) (.run (s.c x.a.toNat).space b) (x.copyLength s) 64 x.copyFill (e ++ f))) := by
  subst hv
  simp only [cpyBody, if_neg (Nat.not_le.mpr hn), hread, hwrite, bind, Except.bind, withPages_two hscan hscan']
  have hlength : ∀ ps qs, x.copyLength ((s.touchPages ps).touchPages qs) = x.copyLength s := fun _ _ => rfl
  by_cases hnone : x.copyLength s = 0
  · simp only [hlength, if_pos hnone]
    simp only [hnone, pageStarts_none, touchPages_none]
    rfl
  · have hroom' : ∀ ps qs, ((s.touchPages ps).touchPages qs).chanRoom x.d.toNat = .ok () := fun _ _ => chanRoom_ok (hroom hnone)
    simp only [hlength, if_neg hnone, hroom']
    rfl

theorem cpyHandleBody_ok {x : Long} {s : State} {a : Nat} {e : List Tlb} (hn : x.copyLength s < 2 ^ 32)
    (hok : s.core.queueOk.getLsbD x.a.toNat = true) (hwhole : x.copyLength s % oSlotBytes (s.core.queue x.a.toNat) = 0)
    (hread : s.checkCopy (askCopyRead x.b.toNat) (s.c x.b.toNat) 0 (x.copyLength s) = .ok a)
    (hscan : s.scanPages (askCopyRead x.b.toNat) (pageStarts (s.c x.b.toNat).space a (x.copyLength s)) = .ok e)
    (hroom : x.copyLength s ≠ 0 → (at_ s.core.copies x.d.toNat { queue := [] }).queue.length < 8) :
    cpyHandleBody x.bytes x.d.toNat x.a.toNat x.b.toNat x.copyFill x.copyLength x.order s =
      .ok (if x.copyLength s = 0 then s.leaveTokens (x.order s) []
        else (s.touchPages (pageStarts (s.c x.b.toNat).space a (x.copyLength s))).pushCopy x.d.toNat (x.order s)
          { Copy.fresh (.run (s.c x.b.toNat).space a) (.handle x.a.toNat) (x.copyLength s) (oSlotBytes (s.core.queue x.a.toNat)) x.copyFill e with
            handle := some x.a.toNat }) := by
  have hlegal : ¬ (2 ^ 32 ≤ x.copyLength s ∨ x.copyLength s % oSlotBytes (s.core.queue x.a.toNat) ≠ 0) := by omega
  simp only [cpyHandleBody, handleOk_valid hok, if_neg hlegal, hread, bind, Except.bind, withPages_one hscan]
  have hlength : ∀ ps, x.copyLength (s.touchPages ps) = x.copyLength s := fun _ => rfl
  by_cases hnone : x.copyLength s = 0
  · simp only [hlength, if_pos hnone]
    simp only [hnone, pageStarts_none, touchPages_none]
    rfl
  · have hroom' : ∀ ps, (s.touchPages ps).chanRoom x.d.toNat = .ok () := fun _ => chanRoom_ok (hroom hnone)
    simp only [hlength, if_neg hnone, hroom']
    rfl

theorem cpy4Body_into {x : Long} {s : State} {k n a : Nat} {p : Pattern} {e : List Tlb} {side : Bool} (hside : side = true)
    (hlist : s.localList (s.g x.c.toNat).toNat 8 24 = .ok k)
    (hpattern : patternOf ((s.c x.a.toNat).base / 2 ^ 19 * 2 ^ 19) (ofLe (s.bytes k 8)) (ofLe (s.bytes (k + 8) 8)) (ofLe (s.bytes (k + 16) 8)) = some p)
    (hlength : n = p.elements * 2 ^ p.elog) (hn : n < 2 ^ 32)
    (hread : s.checkCopy (askCopyRead x.b.toNat) (s.c x.b.toNat) 0 n = .ok a)
    (hwrite : s.checkPattern (askCopyWrite x.a.toNat) (s.c x.a.toNat) p = .ok ())
    (hscan : s.scanPages (askCopyRead x.b.toNat) (pageStarts (s.c x.b.toNat).space a n) = .ok e)
    (hroom : (at_ s.core.copies x.d.toNat { queue := [] }).queue.length < 8) :
    cpy4Body x.bytes x.d.toNat x.a.toNat x.b.toNat side (fun s => (s.g x.c.toNat).toNat) x.order s =
      .ok (((s.touchPages (pageStarts (s.c x.b.toNat).space a n)).pushCopy x.d.toNat (x.order s)
        (Copy.fresh (.run (s.c x.b.toNat).space a) (.pattern 1 p) n (2 ^ p.elog) false e)).noteRead k 24) := by
  subst hside
  have hroom' : ∀ ps, (s.touchPages ps).chanRoom x.d.toNat = .ok () := fun _ => chanRoom_ok hroom
  simp only [cpy4Body, hlist, bind, Except.bind, if_true, Nat.mul_zero, Nat.add_zero, Nat.mul_one, Nat.reduceMul, hpattern, ← hlength,
    if_neg (Nat.not_le.mpr hn), hread, hwrite, withPages_one hscan, hroom']
  rfl

theorem cpy4Body_from {x : Long} {s : State} {k n b : Nat} {p : Pattern} {e : List Tlb} {side : Bool} (hside : side = false)
    (hlist : s.localList (s.g x.c.toNat).toNat 8 24 = .ok k)
    (hpattern : patternOf ((s.c x.b.toNat).base / 2 ^ 19 * 2 ^ 19) (ofLe (s.bytes k 8)) (ofLe (s.bytes (k + 8) 8)) (ofLe (s.bytes (k + 16) 8)) = some p)
    (hlength : n = p.elements * 2 ^ p.elog) (hn : n < 2 ^ 32)
    (hread : s.checkPattern (askCopyRead x.b.toNat) (s.c x.b.toNat) p = .ok ())
    (hwrite : s.checkCopy (askCopyWrite x.a.toNat) (s.c x.a.toNat) 0 n = .ok b)
    (hscan : s.scanPages (askCopyWrite x.a.toNat) (pageStarts (s.c x.a.toNat).space b n) = .ok e)
    (hroom : (at_ s.core.copies x.d.toNat { queue := [] }).queue.length < 8) :
    cpy4Body x.bytes x.d.toNat x.a.toNat x.b.toNat side (fun s => (s.g x.c.toNat).toNat) x.order s =
      .ok (((s.touchPages (pageStarts (s.c x.a.toNat).space b n)).pushCopy x.d.toNat (x.order s)
        (Copy.fresh (.pattern 1 p) (.run (s.c x.a.toNat).space b) n (2 ^ p.elog) false e)).noteRead k 24) := by
  subst hside
  have hroom' : ∀ ps, (s.touchPages ps).chanRoom x.d.toNat = .ok () := fun _ => chanRoom_ok hroom
  simp only [cpy4Body, hlist, bind, Except.bind, Bool.false_eq_true, if_false, Nat.mul_zero, Nat.add_zero, Nat.mul_one, Nat.reduceMul, hpattern,
    ← hlength, if_neg (Nat.not_le.mpr hn), hread, hwrite, withPages_one hscan, hroom']
  rfl

theorem cpygBody_ok {x : Long} {s v : State} {k n elog b : Nat} {l : List Nat} {e f : List Tlb}
    (hlist : s.localList (s.g x.c.toNat).toNat 4 (4 * n) = .ok k)
    (hread : s.checkElements (askCopyRead x.b.toNat) (s.c x.b.toNat) (2 ^ elog)
      ((List.range n).map (fun i => ((ofLe (s.bytes (k + 4 * i) 4) : Nat) : Int))) true = .ok l)
    (hwrite : s.checkCopy (askCopyWrite x.a.toNat) (s.c x.a.toNat) 0 (n * 2 ^ elog) = .ok b)
    (hscan : s.scanPages (askCopyRead x.b.toNat) (l.flatMap (fun a => pageStarts (s.c x.b.toNat).space a (2 ^ elog))) = .ok e)
    (hv : v = s.touchPages (l.flatMap (fun a => pageStarts (s.c x.b.toNat).space a (2 ^ elog))))
    (hscan' : v.scanPages (askCopyWrite x.a.toNat) (pageStarts (s.c x.a.toNat).space b (n * 2 ^ elog)) = .ok f)
    (hroom : (at_ s.core.copies x.d.toNat { queue := [] }).queue.length < 8) :
    cpygBody x.bytes x.d.toNat x.a.toNat x.b.toNat elog n (fun s => (s.g x.c.toNat).toNat) x.order s =
      .ok (((v.touchPages (pageStarts (s.c x.a.toNat).space b (n * 2 ^ elog))).pushCopy x.d.toNat (x.order s)
        (Copy.fresh (.listed (s.c x.b.toNat).space l) (.run (s.c x.a.toNat).space b) (n * 2 ^ elog) (2 ^ elog) false (e ++ f))).noteRead k (4 * n)) := by
  subst hv
  have hroom' : ∀ ps qs, ((s.touchPages ps).touchPages qs).chanRoom x.d.toNat = .ok () := fun _ _ => chanRoom_ok hroom
  simp only [cpygBody, hlist, bind, Except.bind, hread, hwrite, withPages_two hscan hscan', hroom']
  rfl

/-! Store tiles (R329, R330). -/

theorem stcfgBody_ok {x : Long} {s : State} {act : Act} {a b : Nat} {t : Psn} (hact : s.core.act = some act)
    (hvalue : s.g x.c.toNat &&& ~~~ stcfgMask = 0)
    (hfirst : s.checkStore { Ask.store x.a.toNat with answers := false } (s.c x.a.toNat) (x.indexB s) 1 = .ok a) (halign : a % 65536 = 0)
    (hwhole : s.checkStore { Ask.store x.a.toNat with answers := false } (s.c x.a.toNat) (x.indexB s) 65536 = .ok b)
    (htile : s.storeTile s.core (a / 2 ^ 19) = some t) (hroom : s.hasRoom act Order.none [] = true) :
    stcfgBody x.a.toNat x.indexB (·.g x.c.toNat) s = .ok (s.tileAccess act (a / 2 ^ 19) t (a % 2 ^ 19) opStcfg (a / 65536 % 8)
      (leBytes 8 (s.g x.c.toNat).toNat) .none Order.none) := by
  simp only [stcfgBody, hvalue, hfirst, halign, hwhole, hact, htile, hroom, bind, Except.bind]
  rfl

theorem sbufsetBody_ok {x : Long} {s : State} {act : Act} {a : Nat} {t : Psn} (v : Bool) (hact : s.core.act = some act)
    (hcheck : s.checkStore { Ask.store x.a.toNat with answers := false } (s.c x.a.toNat) (x.indexB s) 1 = .ok a)
    (htile : s.storeTile s.core (a / 2 ^ 19) = some t) (hroom : s.hasRoom act Order.none [] = true) :
    sbufsetBody x.a.toNat x.indexB v s = .ok (s.tileAccess act (a / 2 ^ 19) t (a % 2 ^ 19) opSbufset v.toNat [] .none Order.none) := by
  simp only [sbufsetBody, hcheck, hact, htile, hroom, bind, Except.bind]
  rfl

theorem sbufwBody_reads {x : Long} {s : State} {act : Act} {a : Nat} {t : Psn} (v : Bool) (hact : s.core.act = some act)
    (hcheck : s.checkStore { Ask.load x.a.toNat with answers := false } (s.c x.a.toNat) (x.indexB s) 1 = .ok a)
    (htile : s.storeTile s.core (a / 2 ^ 19) = some t) (hclosed : s.stcfgOpen act t = false) (hthere : (s.getTile t).withdrawn = false)
    (hbuffer : bufferRefusal ((s.getTile t).seg (a / 65536 % 8)) a = none) :
    sbufwBody x.a.toNat x.indexB v s =
      if (at_ (s.getTile t).full (a / 65536 % 8) 0).getLsbD (bufferOf ((s.getTile t).seg (a / 65536 % 8)) a) = v then .ok s else .error .wait := by
  simp only [sbufwBody, hcheck, hact, htile, hclosed, hthere, hbuffer, bind, Except.bind]
  rfl

end Sys2Proof.Laws
end

section
namespace Sys2Proof.Proofs
open Sys2Proof Sys2Proof.Machine Sys2Proof.Claims Sys2Proof.Laws

theorem copyCommands : CopyCommands := by
  refine ⟨?cpy, ?cpyHandle, ?cpy4Into, ?cpy4From, ?cpyg⟩
  case cpy =>
    rintro x s _ v _ a b e f rfl h rfl hn hread hwrite hscan hv hscan' hroom
    exact run_body_ok (run_cpy x s h) (cpyBody_ok hn hread hwrite hscan hv hscan' hroom)
  case cpyHandle =>
    rintro x s _ _ a e rfl h rfl hn hok hwhole hread hscan hroom
    exact run_body_ok (run_cpyHandle x s h) (cpyHandleBody_ok hn hok hwhole hread hscan hroom)
  case cpy4Into =>
    rintro x s _ k p n a e rfl h hside hlist hpattern hlength hn hread hwrite hscan hroom
    exact run_body_ok (run_cpy4 x s h) (cpy4Body_into hside hlist hpattern hlength hn hread hwrite hscan hroom)
  case cpy4From =>
    rintro x s _ k p n b e rfl h hside hlist hpattern hlength hn hread hwrite hscan hroom
    exact run_body_ok (run_cpy4 x s h) (cpy4Body_from hside hlist hpattern hlength hn hread hwrite hscan hroom)
  case cpyg =>
    rintro x s _ v k _ _ l b e f rfl h rfl rfl hlist hread hwrite hscan hv hscan' hroom
    exact run_body_ok (run_cpyg x s h) (cpygBody_ok hlist hread hwrite hscan hv hscan' hroom)

theorem storeTileInstructions : StoreTileInstructions := by
  refine ⟨?stcfg, ?sbufset, ?sbufw⟩
  case stcfg =>
    rintro x s _ act a b t rfl h hact hvalue hfirst halign hwhole htile hroom
    exact run_body_ok (run_stcfg x s h) (stcfgBody_ok hact hvalue hfirst halign hwhole htile hroom)
  case sbufset =>
    rintro x s _ act a t rfl h hact hcheck htile hroom
    exact run_body_ok (run_sbufset x s h) (sbufsetBody_ok _ hact hcheck htile hroom)
  case sbufw =>
    rintro x s _ act a t rfl h hact hcheck htile hclosed hthere hbuffer
    rw [run_sbufw x s h, sbufwBody_reads _ (s := past _ s) hact hcheck htile hclosed hthere hbuffer, past_getTile]
    split <;> rfl

/-- Settles O23: each body behind its checks, with its pages found and room in its channel. -/
theorem copyAndTileInstructions : Obligations.CopyAndTileInstructions := ⟨copyCommands, storeTileInstructions⟩

end Sys2Proof.Proofs
end

section
/-! 03 R76, R92 to R95, R101 to R103, R113, 07 R184, 12 R310, 16 R416: what a queue, a counter and an inbox make of an arrival, and how a link's lane
is audited and resent. -/
namespace Sys2Proof.Laws
open Sys2Proof Sys2Proof.Machine Sys2Proof.Claims

/-! Slots of a queue (R92, R94, R113). -/

/-- A slot's bytes stand in its place of the queue, counted as filled by a producer. -/
def slotStored (s : State) (id : Nat) (m : Msg) (k place : Nat) : State :=
  let q := (s.getCore m.tile).queue m.handle
  ((s.poke (localKey m.tile (slotAddr q k place)) (slice m.payload 0 (qSlotBytes q))).modCore m.tile (fun c =>
    { (c.setQueue m.handle (setFld q 31 0 (qArrived q + 1))) with
      arrivals := c.arrivals ++ [(m.handle, k, place)]
      chans := c.chans.map (fun x => if x.handle == m.handle && x.name == m.name then { x with filled := x.filled + 1 } else x) })).finish id m

theorem slotArrives_reply {s : State} {m : Msg} (id : Nat) (hreply : m.reply = true)
    (hone : qProducers ((s.getCore m.tile).queue m.handle) = 1) :
    s.slotArrives id m = slotStored s id m noProducer
      (qArrived ((s.getCore m.tile).queue m.handle) % qDepth ((s.getCore m.tile).queue m.handle)) := by
  simp only [State.slotArrives, hreply, if_true, if_pos hone]
  rfl

theorem slotArrives_message {s : State} {m : Msg} {k : Nat} (id : Nat) (hreply : m.reply = false)
    (hproducer : (s.getCore m.tile).producerOf m.handle m.name = some k) (hmany : qProducers ((s.getCore m.tile).queue m.handle) ≠ 1) :
    s.slotArrives id m = slotStored s id m k ((((s.getCore m.tile).producers m.handle)[k]?.map (·.filled)).getD 0 %
      (qDepth ((s.getCore m.tile).queue m.handle) / qProducers ((s.getCore m.tile).queue m.handle))) := by
  simp only [State.slotArrives, hreply, Bool.false_eq_true, if_false, hproducer, Option.getD_some, if_neg hmany]
  rfl

theorem slotFree_room {s : State} {m : Msg}
    (hroom : ((s.getCore m.tile).arrivals.filter (·.1 == m.handle)).length < qDepth ((s.getCore m.tile).queue m.handle)) :
    s.slotFree m = true := decide_eq_true hroom

theorem exec_slotArrives {s : State} {id : Nat} {m : Msg} (hm : s.msg id = some m) (hstage : m.stage = .accepted) (hhandle : m.handle < 19)
    (heos : m.eos = false) (hfree : s.slotFree m = true)
    (hfirst : (if m.reply then s.replyFirst id m.tile m.chans else s.channelFirst m) = true) :
    exec (.queueSlotArrival id) s = .next (s.slotArrives id m) := by
  simp only [exec_queueSlotArrival, execQueueSlotArrival, hm]
  exact event_enabled (by simp only [hstage, hhandle, heos, hfree, hfirst]; rfl)

theorem exec_markArrives {s : State} {id : Nat} {m : Msg} (hm : s.msg id = some m) (hstage : m.stage = .accepted) (hhandle : m.handle < 19)
    (heos : m.eos = true) (hfirst : s.channelFirst m = true) : exec (.eosMarkArrival id) s = .next (s.markArrives id m) := by
  simp only [exec_eosMarkArrival, execEosMarkArrival, hm]
  exact event_enabled (by simp only [hstage, hhandle, heos, hfirst]; rfl)

/-! Staging slots (R93, R169). -/

theorem exec_sendsStaged {s : State} {core : Psn} {h : Nat} {deps : List Nat} (hcore : isGridCore core = true) (hlow : 20 ≤ h) (hhigh : h ≤ 31)
    (hstaged : (s.getCore core).staged.find? (·.1 == h) = some (h, false, deps)) (hgone : s.gone deps = true)
    (hcredit : oCredits ((s.getCore core).queue h) ≠ 0) (hlive : (s.getCore core).snuffed = false) (hruns : (s.getCore core).halting = false)
    (hread : s.canRead core (localKey core (stagedAt ((s.getCore core).queue h))) (oSlotBytes ((s.getCore core).queue h)) = true) :
    exec (.stagingSlotSend core h) s = .next (s.sendStaged core h) := by
  have hthere : ¬ ((!isGridCore core) = true ∨ h < 20 ∨ 31 < h) := by simp [hcore, hlow, hhigh]
  simp only [exec_stagingSlotSend, execStagingSlotSend, if_neg hthere, hstaged]
  exact event_enabled (by simp [hgone, hcredit, hread, hlive, hruns])

theorem sendStaged_slot {s : State} {core : Psn} {h : Nat} {deps : List Nat}
    (hstaged : (s.getCore core).staged.find? (·.1 == h) = some (h, false, deps)) :
    s.sendStaged core h = (((s.putCore { s.getCore core with staged := (s.getCore core).staged.erase (h, false, deps) }).sendSlot core h
      (s.bytes (localKey core (stagedAt ((s.getCore core).queue h))) (oSlotBytes ((s.getCore core).queue h))) []).modCore core
        (fun c => c.setQueue h (setFld (c.queue h) 15 0 (oSent ((s.getCore core).queue h) + 1)))).engineRead core
      (stagedAt ((s.getCore core).queue h)) (oSlotBytes ((s.getCore core).queue h)) := by
  simp only [State.sendStaged, hstaged, putCore_bytes]
  rfl

/-! Notifications, counter posts, fault messages and SNUFFNOTE (R184, R310, R416). -/

theorem exec_noteArrives {s : State} {id : Nat} {m : Msg} (hm : s.msg id = some m) (hstage : m.stage = .accepted) (hhandle : m.handle = 19)
    (hroom : hValid ((s.getCore m.tile).handler 19) = true → s.slotFree m = true) :
    exec (.notificationArrival id) s = .next (s.noteArrives id m) := by
  simp only [exec_notificationArrival, execNotificationArrival, hm]
  refine event_enabled ?_
  cases hvalid : hValid ((s.getCore m.tile).handler 19) with
  | false => simp [hstage, hhandle]
  | true => simp [hstage, hhandle, hroom hvalid]

theorem noteArrives_unhandled {s : State} {id : Nat} {m : Msg} (hvalid : hValid ((s.getCore m.tile).handler 19) = false)
    (hother : numAt m.payload 0 1 ≠ 1) : s.noteArrives id m = s.finish id m := by
  simp only [State.noteArrives, if_neg hother, hvalid]
  rfl

theorem noteArrives_slot {s : State} {id : Nat} {m : Msg} (hvalid : hValid ((s.getCore m.tile).handler 19) = true)
    (hother : numAt m.payload 0 1 ≠ 1) :
    let q := (s.getCore m.tile).queue 19
    let place := qArrived q % qDepth q
    s.noteArrives id m = ((s.poke (localKey m.tile (slotAddr q noProducer place)) (slice m.payload 0 (qSlotBytes q))).modCore m.tile (fun c =>
      { (c.setQueue 19 (setFld q 31 0 (qArrived q + 1))) with arrivals := c.arrivals ++ [(19, noProducer, place)] })).finish id m := by
  simp only [State.noteArrives, if_neg hother, hvalid]
  rfl

theorem exec_counterPost {s : State} {id : Nat} {m : Msg} (hm : s.msg id = some m) (hstage : m.stage = .accepted) (hhandle : m.handle = 31)
    (hcounter : numAt m.payload 8 1 % 128 < 48) : exec (.counterPostArrival id) s =
      .next ((s.modCore m.tile (·.addQ (numAt m.payload 8 1 % 128) (numAt m.payload 0 8))).finish id m) := by
  simp only [exec_counterPostArrival, execCounterPostArrival, hm, if_pos hcounter]
  exact event_enabled (by rw [hstage, hhandle]; rfl)

theorem faultMessage_handle {m : Msg} (hfault : m.isFaultMessage = true) : m.handle = 30 := by
  simp only [Msg.isFaultMessage, Bool.and_eq_true, beq_iff_eq] at hfault
  exact hfault.1

theorem exec_faultMessage {s : State} {id : Nat} {m : Msg} (hm : s.msg id = some m) (hstage : m.stage = .lantern)
    (hfault : m.isFaultMessage = true) (hroom : (s.getRegion m.region).inbox.length < 512) : exec (.faultMessageArrival id) s =
      .next ((s.modRegion m.region (fun r => { r with inbox := r.inbox ++ [m.payload] })).finish id m) := by
  have hhandle : ¬ m.handle ≠ 30 := fun hother => hother (faultMessage_handle hfault)
  have hto : m.stage = .lantern ∧ m.isFaultMessage = true := ⟨hstage, hfault⟩
  simp only [exec_faultMessageArrival, execFaultMessageArrival, hm, if_neg hhandle, if_pos hto]
  exact event_enabled (decide_eq_true hroom)

theorem exec_snuffnote {s : State} {id : Nat} {p lost : Psn} {wasMember : Bool} (hitem : s.item id = some (.snuffnote p lost wasMember))
    (hclocked : s.gated p = false) : exec (.snuffnoteArrival id) s =
      .next (if wasMember then (((s.touchCluster p).dropItem id).modCore p (·.addQ 52 1)).gangLost p lost
        else ((s.touchCluster p).dropItem id).modCore p (·.addQ 52 1)) := by
  simp only [exec_snuffnoteArrival, execSnuffnoteArrival, hitem]
  exact event_enabled (by rw [hclocked]; rfl)

/-! Links (R101 to R103). -/

theorem exec_auditStarts {s : State} {tile : Psn} {port lane : Nat} (hthere : laneExists tile port lane = true)
    (hopen : s.linkCut tile port = false) (hdue : ((s.getRouter tile).lane port lane).auditDue s.tsc.toNat = true) :
    exec (.linkAuditStart tile port lane) s = .next (s.startAudit tile port lane) := by
  simp only [exec_linkAuditStart, execLinkAuditStart, if_pos hthere]
  exact event_enabled (by rw [hopen, hdue]; rfl)

theorem exec_resyncs {s : State} {tile : Psn} {port lane : Nat} (hthere : laneExists tile port lane = true)
    (hopen : s.linkCut tile port = false) : exec (.creditCounterParityError tile port lane) s = .next (s.resync tile port lane) := by
  simp only [exec_creditCounterParityError, execCreditCounterParityError, if_pos hthere]
  exact event_enabled (by rw [hopen]; rfl)

theorem exec_drops {s : State} {tile : Psn} {port lane : Nat} (hthere : laneExists tile port lane = true) (hopen : s.linkCut tile port = false)
    (hsome : 0 < ((s.getRouter tile).lane port lane).occupancy) : exec (.flitEccDrop tile port lane) s =
      .next ((s.putRouter tile ((s.getRouter tile).setLane ((s.getRouter tile).lane port lane).drop)).startAudit tile port lane) := by
  simp only [exec_flitEccDrop, execFlitEccDrop, if_pos hthere]
  exact event_enabled (by rw [hopen, decide_eq_true hsome]; rfl)

theorem agrees_of_counts {l : Lane} (hlanded : l.sent = l.received) (hcredits : l.spent = (l.received - l.freed).toNat) : l.agrees = true := by
  simp [Lane.agrees, Lane.landed, hlanded, hcredits]

theorem exec_auditAgrees {s : State} {id port lane a b : Nat} {tile : Psn} (hitem : s.item id = some (.audit tile port lane a b))
    (hopen : (s.dropItem id).linkCut tile port = false) (hagrees : (((s.dropItem id).getRouter tile).lane port lane).agrees = true) :
    exec (.linkAuditReply id) s =
      .next ((s.dropItem id).putRouter tile (((s.dropItem id).getRouter tile).note port s.tsc.toNat none)) := by
  simp only [exec_linkAuditReply, execLinkAuditReply, hitem, hopen, hagrees]
  rfl

end Sys2Proof.Laws
end

section
namespace Sys2Proof.Proofs
open Sys2Proof Sys2Proof.Machine Sys2Proof.Claims Sys2Proof.Laws

theorem queueArrivals : QueueArrivals := by
  refine ⟨?reply, ?slot, ?mark, ?credit, ?staged, ?unhandled, ?notification, ?post, ?fault, ?snuffed, ?member⟩
  case reply =>
    rintro s id m _ _ hm hstage hhandle heos hreply rfl hone rfl hroom hfirst
    rw [exec_slotArrives hm hstage hhandle heos (slotFree_room hroom) (by rw [if_pos hreply, hfirst]), slotArrives_reply id hreply hone]
    rfl
  case slot =>
    rintro s id m _ k _ hm hstage hhandle heos hreply rfl hproducer hmany rfl hroom hfirst
    rw [exec_slotArrives hm hstage hhandle heos (slotFree_room hroom) (by rw [hreply]; exact hfirst),
      slotArrives_message id hreply hproducer hmany]
    rfl
  case mark => exact fun s id m hm hstage hhandle heos hfirst => exec_markArrives hm hstage hhandle heos hfirst
  case credit =>
    intro s id p h n hitem
    simp only [exec_creditReturn, execCreditReturn, hitem]
  case staged =>
    rintro s core h deps _ _ _ hcore hlow hhigh hstaged hgone hcredit hlive hruns rfl rfl rfl hread
    rw [exec_sendsStaged hcore hlow hhigh hstaged hgone hcredit hlive hruns hread, sendStaged_slot hstaged]
    rfl
  case unhandled =>
    intro s id m hm hstage hhandle hvalid hother
    rw [exec_noteArrives hm hstage hhandle (by simp [hvalid]), noteArrives_unhandled hvalid hother]
  case notification =>
    rintro s id m _ _ hm hstage hhandle hvalid hother rfl rfl hroom
    rw [exec_noteArrives hm hstage hhandle (fun _ => slotFree_room (by rwa [hhandle])), noteArrives_slot hvalid hother]
  case post =>
    rintro s id m _ hm hstage hhandle rfl hcounter
    exact exec_counterPost hm hstage hhandle hcounter
  case fault => exact fun s id m hm hstage hfault hroom => exec_faultMessage hm hstage hfault hroom
  case snuffed => exact fun s id p lost hitem hclocked => exec_snuffnote hitem hclocked
  case member => exact fun s id p lost hitem hclocked => exec_snuffnote hitem hclocked

theorem linkFlowControl : LinkFlowControl := by
  constructor
  · rintro s tile port lane _ hthere hopen rfl
    refine ⟨fun hdue => ?audit, ?resync, ?drop⟩
    case audit => exact exec_auditStarts hthere hopen hdue
    case resync =>
      rintro _ _ _ rfl rfl rfl
      exact exec_resyncs hthere hopen
    case drop =>
      rintro _ _ hsome rfl rfl
      exact exec_drops hthere hopen hsome
  · rintro s id tile port lane a b _ _ _ hitem rfl hopen rfl rfl hlanded hcredits
    exact exec_auditAgrees hitem hopen (agrees_of_counts hlanded hcredits)

/-- Settles O35: each arrival by the rule for its kind, and the audits of a lane by its counters. -/
theorem queueAndLinkSteps : Obligations.QueueAndLinkSteps := ⟨queueArrivals, linkFlowControl⟩

end Sys2Proof.Proofs
end

section
/-! 03 R85, R97 to R100, 12 R325, 13 R343, R344, 14 R381, R383: the steps of a copy channel, of a stream's engine and of the matrix scoreboard. -/
namespace Sys2Proof.Laws
open Sys2Proof Sys2Proof.Machine Sys2Proof.Claims

/-! Copy channels. -/

/-- The command at the head of a channel starts, its address generator claimed (R97, R99). -/
theorem exec_copyStarts {s : State} {core : Psn} {chan : Nat} {k : Copy} {rest : List Copy} (hchan : chan < 8)
    (hqueue : ((s.getCore core).channel chan).queue = k :: rest) (hnew : k.started = false) (hgone : s.gone k.deps = true) (hmemory : k.handle = none)
    (hruns : (s.getCore core).halting = false) (hroom : ∀ t, s.copyTile core k = some t → (s.getTile t).generators.length < 4) :
    exec (.copyCommandStart core chan) s = .next (match s.copyTile core k with
      | some p => (s.modCore core (fun c => c.setHead chan { k with started := true })).modTile p (fun x =>
          { x with generators := x.generators ++ [k.id] })
      | none => s.modCore core (fun c => c.setHead chan { k with started := true })) := by
  have hfree : (s.copyTile core k).all (fun t => decide ((s.getTile t).generators.length < 4)) = true := by
    simpa [Option.all_eq_true] using hroom
  simp only [exec_copyCommandStart, execCopyCommandStart, if_neg (Nat.not_le.mpr hchan), hqueue, hmemory]
  exact event_enabled (by rw [hnew, hgone, hfree, hruns]; rfl)

/-- A command that moves takes the next move of its channel. -/
theorem exec_copyMoves {s t : State} {core : Psn} {chan : Nat} {k : Copy} {rest : List Copy} (h : copyMoves s core chan k rest)
    (hstep : s.copyStep core chan k = .ok t) : exec (.copyBlockWrite core chan) s = .next t := by
  obtain ⟨hchan, hqueue, hstarted, hstopped, haccess, hruns⟩ := h
  have hgoes : ¬ ((!k.started) = true ∨ k.stopped = true ∨ (s.getCore core).halting = true ∧ (!s.midBlock core k) = true) := by
    simp [hstarted, hstopped, hruns]
  simp only [exec_copyBlockWrite, execCopyBlockWrite, if_neg (Nat.not_le.mpr hchan), hqueue, haccess, if_neg hgoes, hstep]

/-- A block read whole is written, where neither side stands in a FIFO segment. -/
theorem copyPut_block {s u : State} {core : Psn} {chan n : Nat} {k : Copy} {ps : List Part} (hwhole : k.held.length = n)
    (hparts : s.copyParts core k true n = .ok ps) (hplain : s.atFifo ps = none) (hwrite : s.copyWrite core k k.held = .ok u) :
    s.copyPut core chan k n = .ok (u.copyDone core chan k n) := by
  have hall : k.held.take n = k.held := List.take_of_length_le (Nat.le_of_eq hwhole)
  simp only [State.copyPut, hparts, hplain, hall, hwrite, bind, Except.bind]
  rfl

theorem copyStep_block {s t u : State} {core : Psn} {chan n : Nat} {k k' : Copy} {ps qs : List Part} {bs : List Byte} (hempty : k.held = [])
    (hsome : 0 < n) (hwriteSize : s.writeSize core k = n) (hreadSize : s.readSize core k = n) (hparts : s.copyParts core k false n = .ok ps)
    (hplain : s.atFifo ps = none) (hread : s.copyRead core k n = .ok (bs, t)) (hwhole : bs.length = n) (hk : k' = { k with held := bs, noted := false })
    (hparts' : t.copyParts core k' true n = .ok qs) (hplain' : t.atFifo qs = none) (hwrite : t.copyWrite core k' bs = .ok u) :
    s.copyStep core chan k = .ok (u.copyDone core chan k' n) := by
  subst hk
  have hnone : ¬ n ≤ ([] : List Byte).length := Nat.not_le.mpr hsome
  have hput : t.copyPut core chan { k with held := bs, noted := false } n = _ := copyPut_block hwhole hparts' hplain' hwrite
  simp only [State.copyStep, hwriteSize, hreadSize, hempty, if_neg hnone, hparts, hplain, hread, bind, Except.bind, List.nil_append,
    if_pos (Nat.le_of_eq hwhole.symm)]
  exact hput

theorem copyStep_fifo {s : State} {core : Psn} {chan : Nat} {k : Copy} {ps : List Part} {p : Part} (hshort : k.held.length < s.writeSize core k)
    (hparts : s.copyParts core k false (s.readSize core k) = .ok ps) (hfifo : s.atFifo ps = some p) :
    s.copyStep core chan k = .ok (s.copySend core chan k p .load []) := by
  simp only [State.copyStep, if_neg (Nat.not_le.mpr hshort), hparts, hfifo, bind, Except.bind]
  rfl

/-- A block performed: the counter follows the write pointer (R98), and the command ends with its last one. -/
theorem copyDone_block {u : State} {core : Psn} {chan n : Nat} {k : Copy} (hall : k.held.length = n) :
    u.copyDone core chan k n =
      let v := u.modCore core (fun c => (c.addQ (56 + chan) (pointerAt k.length (k.done + n) - pointerAt k.length k.done)).setHead chan
        { k with done := k.done + n, held := [], noted := false })
      if k.length ≤ k.done + n then v.endCopy core chan k else v := by
  simp only [State.copyDone, List.drop_of_length_le (Nat.le_of_eq hall)]

/-- What a tile has answered to a channel's access is taken (R85). -/
theorem exec_copyAnswered {s : State} {core : Psn} {chan id : Nat} {k : Copy} {rest : List Copy} {a : Access} (hchan : chan < 8)
    (hqueue : ((s.getCore core).channel chan).queue = k :: rest) (haccess : k.access = some id) (hitem : s.item id = some (.access a))
    (hstage : a.stage = .performed) (hreads : a.reads = true) : exec (.copyBlockWrite core chan) s =
      .next ((s.dropItem id).modCore core (fun c => c.setHead chan { k with access := none, held := k.held ++ a.reply })) := by
  simp only [exec_copyBlockWrite, execCopyBlockWrite, if_neg (Nat.not_le.mpr hchan), hqueue, haccess, State.copyAnswer, hitem, hstage, hreads]
  rfl

/-! Streams (R343, R344). -/

theorem exec_fetchesElement {s : State} {core : Psn} {slot : Nat} {st : Stream} (hslot : slot < 4)
    (hstream : at_ (s.getCore core).streams slot none = some st) (hbound : st.bound = true) (hinput : st.output = false) (hsound : st.fault = none)
    (hgone : s.gone st.deps = true) (hmore : st.position + st.fetched.length < st.total) (hruns : (s.getCore core).halting = false)
    (hfull : s.elementFull core st (st.cap.base + st.offset (st.position + st.fetched.length)).toNat = true) :
    exec (.streamElementFetch core slot) s = .next (s.fetchElement core slot st) := by
  simp only [exec_streamElementFetch, execStreamElementFetch, if_neg (Nat.not_le.mpr hslot), hstream]
  exact event_enabled (by simp [hbound, hinput, hsound, hgone, hmore, hruns, hfull])

/-- Without a predicate stream an element's bit is set (R345). -/
theorem fetchElement_plain {s t : State} {core : Psn} {slot : Nat} {st : Stream} {bs : List Byte} (hpred : st.pred = none)
    (hreach : s.reach core st st.cap false (st.cap.base + st.offset (st.position + st.fetched.length)).toNat st.bytes [] = .done bs t) :
    s.fetchElement core slot st =
      let u := t.putStream core slot { st with fetched := st.fetched ++ [(ofLe bs, true)] }
      if st.position + st.fetched.length + 1 = st.total then u.dropItem st.token else u := by
  simp only [State.fetchElement, hreach, State.elementBit, hpred]
  rfl

theorem exec_writesPush {s t : State} {core : Psn} {slot : Nat} {st : Stream} {p : Push} {rest : List Push} {bs : List Byte} (hslot : slot < 4)
    (hstream : at_ (s.getCore core).streams slot none = some st) (houtput : st.output = true) (hsound : st.fault = none) (hopen : st.closing = none)
    (hpushed : st.pushed = p :: rest) (hcome : p.missing = 0) (hgone : s.gone p.deps = true) (hmore : p.written < p.count)
    (hreach : s.reach core st st.cap true (st.cap.base + st.offset (p.start + p.written)).toNat st.bytes
      (leBytes st.bytes (laneOf (elemBits st.ty) p.data p.written)) = .done bs t) :
    exec (.streamPushWrite core slot) s = .next (t.putStream core slot (st.nextPush { p with written := p.written + 1 } rest)) := by
  have hgoes : ¬ ((!st.output) = true ∨ st.fault.isSome = true ∨ p.missing ≠ 0 ∨ (!s.gone p.deps) = true) := by
    simp [houtput, hsound, hcome, hgone]
  simp only [exec_streamPushWrite, execStreamPushWrite, if_pos hslot, hstream, hopen, hpushed, if_neg hgoes, State.writePush, if_pos hmore, hreach,
    State.afterPush]
  rfl

/-! The matrix scoreboard (R381, R383). -/

theorem exec_startsMatOp {s : State} {core : Psn} {slot : Nat} {m : MatOp} {r : MatOp × State} (hentry : (s.focus core).core.matOps[slot]? = some m)
    (hqueued : m.stage = .queued) (hgone : s.gone m.deps = true) (hruns : (s.focus core).core.halting = false)
    (hfree : ∀ e ∈ (s.focus core).core.matOps.take slot, e.busy = true ∨ e.stage = .stalled → e.blocks m = false)
    (hrun : (s.focus core).runMatOp m = .ok r) :
    exec (.scoreboardEntryStart core slot) s = .next ((r.2.startedMatOp m r.1).focus s.core.psn) := by
  have hunblocked : ((s.focus core).core.matOps.take slot).all (fun e => !((e.busy || e.stage == .stalled) && e.blocks m)) = true := by
    refine List.all_eq_true.mpr fun e he => ?_
    by_cases hbusy : e.busy = true ∨ e.stage = .stalled
    · simp [hfree e he hbusy]
    · obtain ⟨hidle, hsound⟩ := not_or.mp hbusy
      simp [hidle, hsound]
  simp only [exec_scoreboardEntryStart, execScoreboardEntryStart, hentry, hunblocked, hrun]
  exact if_neg (by simp [hqueued, hgone, hruns])

theorem exec_completesMatOp {s : State} {core : Psn} {m : MatOp} (holdest : (s.getCore core).matOps.find? (fun m =>
      m.stage == .computing || (m.stage == .writing && s.matWritten (s.getCore core) m)) = some m) :
    exec (.matrixCompletion core) s =
      .next (if m.isLong then ((s.dropItem m.id).modCore core (fun c => { c with matOps := c.matOps.erase m })).postGang m.leader
        else (s.dropItem m.id).modCore core (fun c => { c with matOps := c.matOps.erase m })) := by
  simp only [exec_matrixCompletion, execMatrixCompletion, holdest]

end Sys2Proof.Laws
end

section
namespace Sys2Proof.Proofs
open Sys2Proof Sys2Proof.Machine Sys2Proof.Claims Sys2Proof.Laws

theorem copySteps : CopySteps := by
  refine ⟨?start, ?block, ?fifo, ?answer⟩
  case start =>
    intro s core chan k rest hchan hqueue hnew hgone hmemory hruns
    refine ⟨fun hnone => ?_, fun t htile hroom => ?_⟩
    · rw [exec_copyStarts hchan hqueue hnew hgone hmemory hruns (by simp [hnone]), hnone]
    · rw [exec_copyStarts hchan hqueue hnew hgone hmemory hruns (by simpa [htile] using hroom), htile]
  case block =>
    rintro s core chan k _ rest n ps qs bs t u _ _ hmoves hempty hsome hwriteSize hreadSize hparts hplain hread hwhole rfl hparts' hplain' hwrite
      rfl rfl
    have hstep := exec_copyMoves hmoves
      (copyStep_block hempty hsome hwriteSize.symm hreadSize.symm hparts hplain hread hwhole rfl hparts' hplain' hwrite)
    rw [copyDone_block hwhole] at hstep
    refine ⟨fun hmore => ?_, fun hlast => ?_⟩
    · rw [hstep, if_neg (Nat.not_le.mpr hmore)]
    · rw [hstep, if_pos hlast]
  case fifo =>
    rintro s core chan k rest _ ps p hmoves hshort rfl hparts hfifo
    exact exec_copyMoves hmoves (copyStep_fifo hshort hparts hfifo)
  case answer =>
    exact fun s core chan k rest id a hchan hqueue haccess hitem hstage hreads =>
      exec_copyAnswered hchan hqueue haccess hitem hstage hreads

theorem streamAndMatrixSteps : Claims.EngineSteps := by
  refine ⟨?fetch, ?push, ?starts, ?completes⟩
  case fetch =>
    rintro s core slot st _ bs t hslot hstream hbound hinput hsound hgone rfl hmore hruns hfull hpred hreach
    have hstep := exec_fetchesElement hslot hstream hbound hinput hsound hgone hmore hruns hfull
    rw [fetchElement_plain hpred hreach] at hstep
    refine ⟨fun hinner => ?_, fun hlast => ?_⟩
    · rw [hstep, if_neg hinner]
    · rw [hstep, if_pos hlast]
  case push =>
    intro s core slot st p rest bs t hslot hstream houtput hsound hopen hpushed hcome hgone hmore hreach
    exact exec_writesPush hslot hstream houtput hsound hopen hpushed hcome hgone hmore hreach
  case starts =>
    rintro s core slot _ m r rfl hentry hqueued hgone hruns hfree hrun
    exact exec_startsMatOp hentry hqueued hgone hruns hfree hrun
  case completes =>
    intro s core m holdest
    refine ⟨fun hown => ?_, fun hlong => ?_⟩
    · rw [exec_completesMatOp holdest, hown]
      rfl
    · rw [exec_completesMatOp holdest, if_pos hlong]

/-- Settles O39: each engine takes the one step that its conditions leave it. -/
theorem engineSteps : Obligations.EngineSteps := ⟨copySteps, streamAndMatrixSteps⟩

end Sys2Proof.Proofs
end

section
/-! 02 R74, R75, 03 R79 to R86, 12 R333: a store tile performs an access by the mode of its segment; replies, faults and reconfigurations. -/
namespace Sys2Proof.Laws
open Sys2Proof Sys2Proof.Machine Sys2Proof.Claims

/-! An access at a tile, from what the tile makes of it. -/

theorem firstPart_inside {u : State} {a : Access} {t : Psn} {off : Nat} (howner : a.owner = .tile t off) (hinside : off % 65536 + a.size ≤ 65536) :
    u.firstPart a = none := by
  have hwhole : ¬ 65536 - off % 65536 < a.size := by omega
  simp [State.firstPart, howner, hwhole]

/-- What reaches a tile is taken up there, whether or not others wait before it. -/
theorem exec_storeAccess_reaches {s u : State} {id : Nat} {a : Access} {t : Psn} {off : Nat} (h : reachesTile s id a t off u) :
    exec (.storeAccess id) s = .next (u.performItem id a) := by
  obtain ⟨hitem, hstage, hgone, howner, hclocked, hu, -⟩ := h
  have hplace : s.arrivesAt (.access a) = some (t, a.core) := by simp [State.arrivesAt, howner]
  simp [execStoreAccess, accessEvent, hitem, hplace, event, hstage, hgone, howner, isDram, hclocked, hu]

theorem exec_storeAccess_behind {s u : State} {id : Nat} {a : Access} {t : Psn} {off : Nat} (h : reachesTile s id a t off u)
    (hbehind : u.fifoBehind id a = true) : exec (.storeAccess id) s = .next (u.waitAtFifo id a) := by
  rw [exec_storeAccess_reaches h]
  obtain ⟨-, -, -, howner, -, -, -, -, -, -, -, hinside, -⟩ := h
  simp [State.performItem, firstPart_inside howner hinside, hbehind]

/-- An access waits at its segment, behind those that wait already (R85). -/
theorem waitAtFifo_room {u : State} {id : Nat} {a : Access} {t : Psn} {off : Nat} (howner : a.owner = .tile t off) (hstage : a.stage = .sent)
    (hroom : u.fifoWaiters t (off / 65536) < 16) : u.waitAtFifo id a =
      { u.dropItem id with flight := (u.dropItem id).flight ++ [{ id, body := .access { a with stage := .fifoHeld } }] } := by
  simp [State.waitAtFifo, howner, hstage, hroom]
theorem waitAtFifo_full {u : State} {id : Nat} {a : Access} {t : Psn} {off : Nat} (howner : a.owner = .tile t off) (hstage : a.stage = .sent)
    (hfull : 16 ≤ u.fifoWaiters t (off / 65536)) : u.waitAtFifo id a = u.setItem id (.access { a with stage := .retry }) := by
  simp [State.waitAtFifo, howner, hstage, Nat.not_lt.mpr hfull, State.setStage]

theorem exec_storeAccess_done {s u v : State} {id : Nat} {a : Access} {t : Psn} {off : Nat} {bs : List Byte} (h : arrivesAtTile s id a t off u)
    (hown : u.tileOwn a t off = .done bs false v) : exec (.storeAccess id) s = .next (performed v id a bs) := by
  rw [exec_storeAccess_reaches h.1]
  obtain ⟨⟨-, -, -, howner, -, -, -, hevac, -, -, -, hinside, -⟩, hfirst⟩ := h
  simp [State.performItem, firstPart_inside howner hinside, hfirst, State.performAt, howner, State.tileAct, hevac, hown, performed]

theorem exec_storeAccess_refused {s u : State} {id : Nat} {a : Access} {t : Psn} {off : Nat} {code : Code} (h : arrivesAtTile s id a t off u)
    (hown : u.tileOwn a t off = .refused code) :
    exec (.storeAccess id) s = .next (u.setItem id (.access { a with stage := .refused, fault := some (a.refusal id code) })) := by
  rw [exec_storeAccess_reaches h.1]
  obtain ⟨⟨-, -, -, howner, -, -, -, hevac, -, -, -, hinside, -⟩, hfirst⟩ := h
  rw [performItem_refused howner hinside hfirst hevac hown]

theorem exec_storeAccess_held {s u : State} {id : Nat} {a : Access} {t : Psn} {off : Nat} (h : arrivesAtTile s id a t off u)
    (hown : u.tileOwn a t off = .held) : exec (.storeAccess id) s = .next (u.waitAtFifo id a) := by
  rw [exec_storeAccess_reaches h.1]
  obtain ⟨⟨-, -, -, howner, -, -, -, hevac, -, -, -, hinside, -⟩, hfirst⟩ := h
  simp [State.performItem, firstPart_inside howner hinside, hfirst, State.performAt, howner, State.tileAct, hevac, hown]

/-! The modes of a segment (R83). -/

theorem reads_of_load {a : Access} (hload : a.kind = .load) : a.reads = true := by rw [Access.reads, hload]; rfl
theorem reads_of_store {a : Access} (hstore : a.kind = .store) : ¬ a.reads = true := by rw [Access.reads, hstore]; decide
theorem kind_ne {a : Access} {k l : AccKind} (hkind : a.kind = k) (hk : k ≠ l) : a.kind ≠ l := hkind.symm ▸ hk

/-- What a segment's mode makes of an access inside it. -/
def modeOwn (u : State) (a : Access) (t : Psn) (off mode : Nat) : Owned :=
  match mode with
  | 0 => u.tilePlain a t off
  | 1 => u.tileOperand a t off ((u.getTile t).seg (off / 65536))
  | 2 => u.tileFifo a t off ((u.getTile t).seg (off / 65536))
  | _ => u.tileLine a t off ((u.getTile t).seg (off / 65536))

theorem tileOwn_mode {s u : State} {id : Nat} {a : Access} {t : Psn} {off mode : Nat} (h : arrivesAtTile s id a t off u)
    (hcap : ¬ (a.kind = .capStore ∧ a.tagv = true)) (hmode : segMode ((u.getTile t).seg (off / 65536)) = mode) :
    u.tileOwn a t off = modeOwn u a t off mode := by
  obtain ⟨⟨-, -, -, -, -, -, hthere, -, hop, haop, hsize, hinside, hsys⟩, -⟩ := h
  have hlast : (off + a.size - 1) / 65536 = off / 65536 := by omega
  have hopen : ¬(levelOf a.core = .graph ∧ (off / 65536 = 7 ∨ off / 65536 = 7) ∧ segSys ((u.getTile t).seg 7) = true) := by
    rw [or_self]
    rintro ⟨-, h7, hclosed⟩
    rw [h7, hclosed] at hsys
    cases hsys
  have htagged : ¬(a.kind = .capStore ∧ a.tagv = true ∧ segMode ((u.getTile t).seg (off / 65536)) ≠ 0) := fun ⟨hk, hv, _⟩ => hcap ⟨hk, hv⟩
  have hmarked : ¬(a.reads = true ∧ a.aop = consumeMark ∧ segMode ((u.getTile t).seg (off / 65536)) ≠ 1) := by
    rw [haop]
    exact fun ⟨_, hmark, _⟩ => absurd hmark (by decide)
  subst hmode
  simp only [State.tileOwn, hthere, Bool.false_eq_true, if_false, if_neg (Nat.not_le.mpr hop), hlast, if_neg hopen, ne_eq, not_true,
    if_neg htagged, if_neg hmarked]
  rfl

/-- A place of the tile that shows the memory's own bytes: it lies in a segment that no SYS bit closes. -/
def plainPlace (u : State) (t : Psn) (place : Nat) : Prop := segSys ((u.getTile t).seg (place / 65536)) = false

theorem not_sysPlace {u : State} {t : Psn} {place : Nat} (h : plainPlace u t place) :
    ¬ (place / 65536 = 7 ∧ segSys ((u.getTile t).seg 7) = true) := by
  rintro ⟨h7, hclosed⟩
  unfold plainPlace at h
  rw [h7, hclosed] at h
  cases h

theorem tilePlain_load {u : State} {a : Access} {t : Psn} {place : Nat} (hplain : plainPlace u t place) (hload : a.kind = .load)
    (hread : u.spoiled (tileKey t place) a.size = false) :
    u.tilePlain a t place = .done (u.bytes (tileKey t place) a.size) false (u.noteRead (tileKey t place) a.size) := by
  simp [State.tilePlain, hload, hread, State.tileBytes, if_neg (not_sysPlace hplain)]

theorem tilePlain_store {u : State} {a : Access} {t : Psn} {place : Nat} (hplain : plainPlace u t place) (hstore : a.kind = .store) :
    u.tilePlain a t place = .done [] false (u.poke (tileKey t place) a.data) := by
  simp [State.tilePlain, hstore, Access.takes, State.performBytes, if_neg (not_sysPlace hplain)]

/-- An OPERAND buffer is read and written as bytes within its bounds, where the access touches no full bit (R84). -/
theorem tileOperand_inside {u v : State} {a : Access} {t : Psn} {off : Nat} {cfg : Word} {bs : List Byte} {tag : Bool} (hkind : a.kind ≠ .atomic)
    (haop : a.aop = 0) (hbounds : off % 65536 + a.size ≤ segUnit cfg * segCount cfg) (hplain : u.tilePlain a t off = .done bs tag v) :
    u.tileOperand a t off cfg = .done bs tag v := by
  simp [State.tileOperand, hkind, haop, Nat.not_lt.mpr hbounds, hplain, consumeMark, fillMark]

theorem tileOperand_outside {u : State} {a : Access} {t : Psn} {off : Nat} {cfg : Word} (hkind : a.kind ≠ .atomic)
    (hbounds : segUnit cfg * segCount cfg < off % 65536 + a.size) : u.tileOperand a t off cfg = .refused .capbound := by
  simp only [State.tileOperand, if_neg hkind, if_pos hbounds]

/-- A segment is RAW, or it holds OPERAND buffers and the access stays within them: its bytes are performed as they stand. -/
def inBytes (a : Access) (off : Nat) (cfg : Word) : Prop :=
  segMode cfg = 0 ∨ (segMode cfg = 1 ∧ off % 65536 + a.size ≤ segUnit cfg * segCount cfg)

theorem tileOwn_bytes {s u v : State} {id : Nat} {a : Access} {t : Psn} {off : Nat} {bs : List Byte} (h : arrivesAtTile s id a t off u)
    (hmode : inBytes a off ((u.getTile t).seg (off / 65536))) (hcap : ¬ (a.kind = .capStore ∧ a.tagv = true)) (hkind : a.kind ≠ .atomic)
    (hplain : u.tilePlain a t off = .done bs false v) : u.tileOwn a t off = .done bs false v := by
  rcases hmode with hraw | ⟨hoperand, hbounds⟩
  · exact (tileOwn_mode h hcap hraw).trans hplain
  · refine (tileOwn_mode h hcap hoperand).trans (tileOperand_inside hkind ?_ hbounds hplain)
    obtain ⟨⟨-, -, -, -, -, -, -, -, -, haop, -, -, -⟩, -⟩ := h
    exact haop

theorem not_capStore {a : Access} {k : AccKind} (hkind : a.kind = k) (hk : k ≠ .capStore) : ¬ (a.kind = .capStore ∧ a.tagv = true) :=
  fun ⟨hcap, _⟩ => kind_ne hkind hk hcap

/-! The places of slots and lines lie in their segment (R80, R85, R86). -/

theorem place_in_segment {seg x : Nat} (h : x < 65536) : (seg * 65536 + x) / 65536 = seg := by omega

theorem fld_unit_lt (cfg : Word) : fld cfg 52 43 + 1 ≤ 1024 := Nat.mod_lt (cfg.toNat / 2 ^ 43) (by decide : 0 < 2 ^ 10)

theorem fifoPlace_lt (cfg : Word) (n : Nat) : n % fifoSlots cfg * segUnit cfg < 65536 := by
  have hslot : n % fifoSlots cfg < 1024 / (fld cfg 52 43 + 1) := Nat.mod_lt n (Nat.div_pos (fld_unit_lt cfg) (Nat.succ_pos _))
  have hrow : n % fifoSlots cfg * (fld cfg 52 43 + 1) < 1024 := calc
    n % fifoSlots cfg * (fld cfg 52 43 + 1) < 1024 / (fld cfg 52 43 + 1) * (fld cfg 52 43 + 1) :=
      Nat.mul_lt_mul_of_pos_right hslot (Nat.succ_pos _)
    _ ≤ 1024 := Nat.div_mul_le_self 1024 _
  rw [segUnit, ← Nat.mul_assoc]
  omega

theorem linePlace_lt {cfg : Word} {i b : Nat} (hmode : segMode cfg = 3) (hfits : cfgFits cfg = true) (hi : i < segCount cfg)
    (hb : b < segUnit cfg) : i * segUnit cfg + b < 65536 := by
  have hrows : (fld cfg 52 43 + 1) * segCount cfg ≤ 1024 := by simpa [cfgFits, hmode] using hfits
  have hline : (i + 1) * segUnit cfg ≤ segCount cfg * segUnit cfg := Nat.mul_le_mul_right _ hi
  have hall : segCount cfg * segUnit cfg = (fld cfg 52 43 + 1) * segCount cfg * 64 := by
    rw [segUnit, ← Nat.mul_assoc, Nat.mul_comm (segCount cfg)]
  rw [Nat.succ_mul] at hline
  omega

theorem lineIndex_lt {n : Nat} (x : Int) (hn : 0 < n) : (x % n).toNat < n := by
  have hlt : x % n < n := Int.emod_lt_of_pos x (by exact_mod_cast hn)
  omega

/-! FIFO segments (R85). -/

theorem tileFifo_pop {u v : State} {a : Access} {t : Psn} {off seg : Nat} {cfg : Word} {bs : List Byte} (hseg : seg = off / 65536)
    (hstart : off % 65536 = 0) (hsize : a.size = segUnit cfg) (hload : a.kind = .load) (hheld : fifoHeld (u.getTile t) seg ≠ 0)
    (hslot : u.tilePlain a t (seg * 65536 + (at_ (u.getTile t).head seg 0).toNat % fifoSlots cfg * segUnit cfg) = .done bs false v) :
    u.tileFifo a t off cfg = .done bs false (v.modTile t (fun x => { x with head := put x.head seg (at_ x.head seg 0 + 1) })) := by
  subst hseg
  simp only [State.tileFifo, if_neg (kind_ne hload (by decide : AccKind.load ≠ .atomic)), hstart, hsize, ne_eq, not_true, if_false,
    if_pos (reads_of_load hload), if_neg hheld, hslot]

theorem tileFifo_push {u v : State} {a : Access} {t : Psn} {off seg : Nat} {cfg : Word} {bs : List Byte} (hseg : seg = off / 65536)
    (hstart : off % 65536 = 0) (hsize : a.size = segUnit cfg) (hstore : a.kind = .store) (hroom : fifoHeld (u.getTile t) seg < fifoSlots cfg)
    (hslot : u.tilePlain a t (seg * 65536 + (at_ (u.getTile t).tail seg 0).toNat % fifoSlots cfg * segUnit cfg) = .done bs false v) :
    u.tileFifo a t off cfg = .done bs false (v.modTile t (fun x => { x with tail := put x.tail seg (at_ x.tail seg 0 + 1) })) := by
  subst hseg
  simp only [State.tileFifo, if_neg (kind_ne hstore (by decide : AccKind.store ≠ .atomic)), hstart, hsize, ne_eq, not_true, if_false,
    if_neg (reads_of_store hstore), if_neg (Nat.not_le.mpr hroom), hslot]

theorem tileFifo_empty {u : State} {a : Access} {t : Psn} {off : Nat} {cfg : Word} (hstart : off % 65536 = 0) (hsize : a.size = segUnit cfg)
    (hload : a.kind = .load) (hheld : fifoHeld (u.getTile t) (off / 65536) = 0) : u.tileFifo a t off cfg = .held := by
  simp only [State.tileFifo, if_neg (kind_ne hload (by decide : AccKind.load ≠ .atomic)), hstart, hsize, ne_eq, not_true, if_false,
    if_pos (reads_of_load hload), if_pos hheld]

/-! LINE segments (R86). -/

/-- The line that COUNT names is counted (R86). -/
def lineCounted (seg : Nat) (x : Tile) (count : Nat) : Tile :=
  { x with
    lcount := put x.lcount seg (at_ x.lcount seg 0 + 1)
    lineWrap := if count + 1 = 2 ^ 32 then x.lineWrap ||| BitVec.ofNat 8 (2 ^ seg) else x.lineWrap }

theorem tileLine_store {u v : State} {a : Access} {t : Psn} {off seg count : Nat} {cfg : Word} {bs : List Byte} (hseg : seg = off / 65536)
    (hcount : count = (at_ (u.getTile t).lcount seg 0).toNat) (hstore : a.kind = .store) (hsome : 0 < a.size)
    (hinside : off % 65536 + a.size ≤ segUnit cfg)
    (hline : u.tilePlain a t (seg * 65536 + count % segCount cfg * segUnit cfg + off % 65536 % segUnit cfg) = .done bs false v) :
    u.tileLine a t off cfg =
      .done bs false (if off % 65536 + a.size = segUnit cfg then v.modTile t (fun x => lineCounted seg x count) else v) := by
  subst hseg hcount
  have hbyte : off % 65536 % segUnit cfg = off % 65536 := Nat.mod_eq_of_lt (by omega)
  simp only [State.tileLine, if_neg (kind_ne hstore (by decide : AccKind.store ≠ .atomic)), if_neg (reads_of_store hstore),
    if_neg (Nat.not_lt.mpr hinside), hline]
  simp only [hbyte]
  rfl

/-- A line of a segment in reach of a load: line j from the newest, from its byte b on. -/
structure LineLoad (a : Access) (off : Nat) (cfg : Word) (j b : Nat) : Prop where
  load : a.kind = .load
  line : j = off % 65536 / segUnit cfg
  byte : b = off % 65536 % segUnit cfg
  there : j < segCount cfg
  inside : b + a.size ≤ segUnit cfg

theorem tileLine_absent {u : State} {a : Access} {t : Psn} {off seg j b : Nat} {cfg : Word} (h : LineLoad a off cfg j b) (hseg : seg = off / 65536)
    (hnone : (at_ (u.getTile t).lcount seg 0).toNat ≤ j) (hwrap : (u.getTile t).lineWrap.getLsbD seg = false) :
    u.tileLine a t off cfg = .done (List.replicate a.size 0) false u := by
  obtain ⟨hload, rfl, rfl, hthere, hinside⟩ := h
  subst hseg
  have hreach : ¬ (segCount cfg ≤ off % 65536 / segUnit cfg ∨ segUnit cfg < off % 65536 % segUnit cfg + a.size) := by omega
  have habsent : (at_ (u.getTile t).lcount (off / 65536) 0).toNat ≤ off % 65536 / segUnit cfg ∧
      (!(u.getTile t).lineWrap.getLsbD (off / 65536)) = true := ⟨hnone, by rw [hwrap]; rfl⟩
  simp only [State.tileLine, if_neg (kind_ne hload (by decide : AccKind.load ≠ .atomic)), if_pos (reads_of_load hload), if_neg hreach,
    if_pos habsent]

theorem tileLine_present {u : State} {a : Access} {t : Psn} {off seg j b : Nat} {cfg : Word} (h : LineLoad a off cfg j b) (hseg : seg = off / 65536)
    (hsome : j < (at_ (u.getTile t).lcount seg 0).toNat ∨ (u.getTile t).lineWrap.getLsbD seg = true) :
    u.tileLine a t off cfg = u.tilePlain a t (seg * 65536 +
      ((((at_ (u.getTile t).lcount seg 0).toNat : Int) - 1 - j) % segCount cfg).toNat * segUnit cfg + b) := by
  obtain ⟨hload, rfl, rfl, hthere, hinside⟩ := h
  subst hseg
  have hreach : ¬ (segCount cfg ≤ off % 65536 / segUnit cfg ∨ segUnit cfg < off % 65536 % segUnit cfg + a.size) := by omega
  have hheld : ¬ ((at_ (u.getTile t).lcount (off / 65536) 0).toNat ≤ off % 65536 / segUnit cfg ∧
      (!(u.getTile t).lineWrap.getLsbD (off / 65536)) = true) := by
    rintro ⟨hnone, hwrap⟩
    rcases hsome with hcounted | hwrapped
    · omega
    · rw [hwrapped] at hwrap
      cases hwrap
  simp only [State.tileLine, if_neg (kind_ne hload (by decide : AccKind.load ≠ .atomic)), if_pos (reads_of_load hload), if_neg hreach,
    if_neg hheld]

/-! Replies, GONE and owners' faults (R74, R75, R333). -/

theorem exec_replyLands {s : State} {id : Nat} {a : Access} {r : RegName} (hitem : s.item id = some (.access a)) (hstage : a.stage = .performed)
    (hunit : a.unit < 8) (hfirst : s.replyFirst id a.core a.replyChans = true) (hplain : ∀ slot token place, a.landing ≠ .push slot token place)
    (hreg : a.landing.reg = some r) (hawaits : ((s.dropItem id).getCore a.core).awaits r id = true) :
    exec (.loadStoreReply id) s = .next ((s.dropItem id).modCore a.core (·.land a.landing a.reply a.tagv id)) := by
  have hdeliver : s.deliver id a a.reply a.tagv = (s.dropItem id).modCore a.core (·.land a.landing a.reply a.tagv id) := by
    unfold State.deliver State.modCore
    split
    · next hpush => exact absurd hpush (hplain _ _ _)
    · next r' hr' _ =>
      obtain rfl : r = r' := Option.some.inj (hreg.symm.trans hr')
      exact congrArg _ (if_pos hawaits)
    · next hnone _ => exact absurd (hreg.symm.trans hnone) (by simp)
  simp only [exec_loadStoreReply, execLoadStoreReply, accessEvent, hitem, hdeliver]
  exact event_enabled (by rw [hstage, hfirst, decide_eq_true hunit]; rfl)

/-- An access of the resident activation, whose answer its core has not yet noted. -/
structure Unnoted (s : State) (id : Nat) (a : Access) : Prop where
  item : s.item id = some (.access a)
  resident : s.residentAccess a = true
  new : s.notedAccess id a = false
  unit : a.unit < 8

theorem unnoted_of_act {s : State} {id : Nat} {a : Access} {act : Act} (hitem : s.item id = some (.access a))
    (hact : (s.getCore a.core).act = some act) (hserial : act.serial = a.serial) (hnew : act.reissue.contains id = false) (hunit : a.unit < 8) :
    Unnoted s id a := by
  refine ⟨hitem, ?_, ?_, hunit⟩
  · simp only [State.residentAccess, hact, Option.any_some, hserial, beq_self_eq_true]
  · simp only [State.notedAccess, hact, Option.any_some, hnew]

theorem exec_goneNoted {s : State} {id : Nat} {a : Access} (h : Unnoted s id a) (hgone : a.stage = .gone) :
    exec (.goneReply id) s = .next ((s.setItem id (.access { a with again := true })).noteAccess id a a.goneFault) := by
  obtain ⟨hitem, hresident, hnew, hunit⟩ := h
  have hgoes : ¬ (a.stage ≠ .gone ∨ 8 ≤ a.unit) := by simp [hgone, hunit]
  simp only [exec_goneReply, execGoneReply, accessEvent, hitem, if_neg hgoes, if_pos hresident]
  exact event_enabled (by rw [hnew]; rfl)

theorem exec_refusalNoted {s : State} {id : Nat} {a : Access} {f : FaultInfo} (h : Unnoted s id a) (hrefused : a.stage = .refused)
    (hfault : a.fault = some f) : exec (.ownerFaultReply id) s = .next (s.noteAccess id a f) := by
  obtain ⟨hitem, hresident, hnew, hunit⟩ := h
  simp only [exec_ownerFaultReply, execOwnerFaultReply, accessEvent, hitem, hrefused, hfault, if_neg (Nat.not_le.mpr hunit), if_pos hresident]
  exact event_enabled (by rw [hnew]; rfl)

theorem exec_refusalOfEnded {s : State} {id : Nat} {a : Access} {f : FaultInfo} (hitem : s.item id = some (.access a))
    (hrefused : a.stage = .refused) (hfault : a.fault = some f) (hunit : a.unit < 8) (hended : (s.getCore a.core).act = none)
    (hroom : (s.getCore a.core).unsent.length < 4) : exec (.ownerFaultReply id) s =
      .next ((s.dropItem id).graphFault a.core f.code a.ctx (s.actorOn a.core) f.detail) := by
  have hgone : ¬ s.residentAccess a = true := by simp [State.residentAccess, hended]
  simp only [exec_ownerFaultReply, execOwnerFaultReply, accessEvent, hitem, hrefused, hfault, if_neg (Nat.not_le.mpr hunit), if_neg hgone]
  exact event_enabled (decide_eq_true hroom)

/-! The configuration of a segment (R80, R82). -/

theorem segment_there {t : Psn} {seg : Nat} (htile : isTilePsn t = true) (hseg : seg < 8) : ¬ ((!isTilePsn t) = true ∨ 8 ≤ seg) := by
  simp [htile, hseg]

theorem exec_segCfgWrite_tile {s : State} {t : Psn} {seg : Nat} (v : Word) (htile : isTilePsn t = true) (hseg : seg < 8) :
    exec (.segCfgWrite t seg v) s = .next (s.writeSegCfg t seg v) := by
  simp only [exec_segCfgWrite, execSegCfgWrite, if_neg (segment_there htile hseg)]

theorem writeSegCfg_fits {s : State} {t : Psn} {seg : Nat} {v : Word} (hstore : interior (psnIndex t) = true)
    (hfits : cfgFits (cfgValue seg v) = true) :
    s.writeSegCfg t seg v = s.modTile t (fun tile => { tile with reconf := tile.reconf ++ [(seg, cfgValue seg v)] }) := by
  simp [State.writeSegCfg, hstore, hfits]
theorem writeSegCfg_unfit {s : State} {t : Psn} {seg : Nat} {v : Word} (hunfit : cfgFits (cfgValue seg v) = false) :
    s.writeSegCfg t seg v = s := by
  simp [State.writeSegCfg, hunfit]

theorem exec_reconfigures {s : State} {t : Psn} {seg : Nat} {x : Nat × Word} (htile : isTilePsn t = true) (hseg : seg < 8)
    (hwaits : (s.getTile t).reconf.find? (fun x => x.1 == seg) = some x) (hevac : s.evac t = none) :
    exec (.segmentReconfigure t seg) s =
      .next ((s.modTile t (fun tile => { tile with reconf := tile.reconf.erase x })).configure t seg x.2) := by
  simp only [exec_segmentReconfigure, execSegmentReconfigure, if_neg (segment_there htile hseg), hwaits, hevac]

theorem configure_sameShape {u : State} {t : Psn} {seg : Nat} {cfg : Word} (h : cfgShape cfg = cfgShape ((u.getTile t).seg seg)) :
    u.configure t seg cfg = u.modTile t (fun tile => { tile with segCfg := put tile.segCfg seg cfg }) := if_pos h

end Sys2Proof.Laws
end

section
namespace Sys2Proof.Proofs
open Sys2Proof Sys2Proof.Machine Sys2Proof.Claims Sys2Proof.Laws

theorem tileAccesses : TileAccesses := by
  constructor
  · intro s n a t off u hreaches hbehind
    obtain ⟨-, hstage, -, howner, -⟩ := id hreaches
    rw [exec_storeAccess_behind hreaches hbehind]
    exact ⟨fun hroom => by rw [waitAtFifo_room howner hstage hroom], fun hfull => by rw [waitAtFifo_full howner hstage hfull]⟩
  · rintro s n a t off u _ _ _ harrives rfl rfl rfl
    obtain ⟨⟨-, hstage, -, howner, -, -, -, -, -, -, hsome, -, hsys⟩, -⟩ := id harrives
    have plain (x : Nat) (hx : x < 65536) : plainPlace u t (off / 65536 * 65536 + x) := by
      rwa [plainPlace, place_in_segment hx]
    refine ⟨?load, ?store, ?outside, ?pop, ?push, ?empty, ?lineStore, ?lineLoad⟩
    case load =>
      intro hmode hload hread
      exact exec_storeAccess_done harrives (tileOwn_bytes harrives hmode (not_capStore hload (by decide)) (kind_ne hload (by decide))
        (tilePlain_load hsys hload hread))
    case store =>
      intro hmode hstore
      exact exec_storeAccess_done harrives (tileOwn_bytes harrives hmode (not_capStore hstore (by decide)) (kind_ne hstore (by decide))
        (tilePlain_store hsys hstore))
    case outside =>
      intro hmode hkind hcap hbounds
      exact exec_storeAccess_refused harrives ((tileOwn_mode harrives hcap hmode).trans (tileOperand_outside hkind hbounds))
    case pop =>
      rintro _ rfl hmode hstart hsize hload hheld hread
      exact exec_storeAccess_done harrives ((tileOwn_mode harrives (not_capStore hload (by decide)) hmode).trans
        (tileFifo_pop rfl hstart hsize hload hheld (tilePlain_load (plain _ (fifoPlace_lt _ _)) hload hread)))
    case push =>
      intro hmode hstart hsize hstore hroom
      exact exec_storeAccess_done harrives ((tileOwn_mode harrives (not_capStore hstore (by decide)) hmode).trans
        (tileFifo_push rfl hstart hsize hstore hroom (tilePlain_store (plain _ (fifoPlace_lt _ _)) hstore)))
    case empty =>
      intro hmode hstart hsize hload hheld hroom
      rw [exec_storeAccess_held harrives ((tileOwn_mode harrives (not_capStore hload (by decide)) hmode).trans
        (tileFifo_empty hstart hsize hload hheld)), waitAtFifo_room howner hstage hroom]
    case lineStore =>
      rintro _ _ _ rfl rfl rfl hmode hfits hstore hinside
      have hplace := linePlace_lt hmode hfits (Nat.mod_lt (at_ (u.getTile t).lcount (off / 65536) 0).toNat (Nat.succ_pos _))
        (Nat.mod_lt (off % 65536) (Nat.lt_of_lt_of_le (by omega) hinside))
      have hline := tilePlain_store (plain _ hplace) hstore
      rw [← Nat.add_assoc] at hline
      exact exec_storeAccess_done harrives ((tileOwn_mode harrives (not_capStore hstore (by decide)) hmode).trans
        (tileLine_store rfl rfl hstore hsome hinside hline))
    case lineLoad =>
      rintro _ _ _ j b _ rfl rfl rfl hj hb rfl hmode hfits hload hthere hinside
      have hreach : LineLoad a off ((u.getTile t).seg (off / 65536)) j b := ⟨hload, hj, hb, hthere, hinside⟩
      have hown := tileOwn_mode harrives (not_capStore hload (by decide)) hmode
      refine ⟨fun hnone hwrap => exec_storeAccess_done harrives (hown.trans (tileLine_absent hreach rfl hnone hwrap)), fun hcounted hread => ?_⟩
      have hplace := linePlace_lt hmode hfits (lineIndex_lt (((at_ (u.getTile t).lcount (off / 65536) 0).toNat : Int) - 1 - j) (Nat.succ_pos _))
        (Nat.lt_of_lt_of_le (Nat.lt_add_of_pos_right hsome) hinside)
      have hline := plain _ hplace
      rw [← Nat.add_assoc] at hline
      exact exec_storeAccess_done harrives ((hown.trans (tileLine_present hreach rfl hcounted)).trans (tilePlain_load hline hload hread))

theorem accessReplies : AccessReplies := by
  refine ⟨?retry, ?reply, ?resident, ?ended, ?configured, ?unfit, ?reconfigured⟩
  case retry =>
    intro s id a hitem hstage
    simp only [exec_fifoRetry, execFifoRetry, accessEvent, hitem]
    exact event_enabled (by rw [hstage]; rfl)
  case reply =>
    exact fun s id a r hitem hstage hunit hfirst hplain hreg hawaits => exec_replyLands hitem hstage hunit hfirst hplain hreg hawaits
  case resident =>
    rintro s id a _ act hitem rfl hact hserial - hnew hunit
    have hunnoted := unnoted_of_act hitem hact hserial hnew hunit
    exact ⟨fun hgone => exec_goneNoted hunnoted hgone, fun f hrefused hfault => exec_refusalNoted hunnoted hrefused hfault⟩
  case ended =>
    exact fun s id a f hitem hrefused hfault hunit hended hroom => exec_refusalOfEnded hitem hrefused hfault hunit hended hroom
  case configured =>
    intro s t seg v htile hseg hstore hfits
    rw [exec_segCfgWrite_tile v htile hseg, writeSegCfg_fits hstore hfits]
  case unfit =>
    intro s t seg v htile hseg hunfit
    rw [exec_segCfgWrite_tile v htile hseg, writeSegCfg_unfit hunfit]
  case reconfigured =>
    rintro s t seg x _ htile hseg hwaits hevac rfl
    rw [exec_reconfigures htile hseg hwaits hevac]
    refine ⟨fun hsame => ?_, fun hother => ?_⟩
    · rw [configure_sameShape hsame]
    · rw [State.configure, if_neg hother]

/-- Settles O37: each access by the mode of its segment, and each answer by the rule for its stage. -/
theorem tileSteps : Obligations.TileSteps := ⟨tileAccesses, accessReplies⟩

end Sys2Proof.Proofs
end

section
/-! 04 R107, R108, R110, 12 R332, R334: a request is sent to the actor of its stack, and a gather's to each stack it touches. -/
namespace Sys2Proof.Laws
open Sys2Proof Sys2Proof.Machine Sys2Proof.Claims

/-- R334: an operand whose checks pass and whose page is of class 00 is used in its one part. -/
theorem withRow_part {s : State} {length cap n a : Nat} {q : Ask} {off : Int} {p : Part} {k : Part → Body'}
    (hcheck : s.checkGlobal q (s.c cap) off n = .ok a) (hresolve : s.resolve q 3 a n = .parts [p]) (hdram : isDram p.owner) :
    s.withRow length q cap off n k = k p (s.touch [p]) := by
  simp only [State.withRow, hcheck, hresolve, rowCheck, if_pos hdram, bind, Except.bind]

theorem drdBody_sends {x : Long} {s : State} {n a : Nat} {p : Part} {r : Reply}
    (hcheck : s.checkGlobal (askDram x.a.toNat 0 false) (s.c x.a.toNat) (x.indexB s) n = .ok a)
    (htarget : s.target x.sub.toNat x.d.toNat x.c.toNat n n = .ok r)
    (hresolve : s.resolve (askDram x.a.toNat 0 false) 3 a n = .parts [p]) (hdram : isDram p.owner)
    (hroom : (s.touch [p]).requestRoom (x.order s) r 1 = .ok ()) :
    drdBody x n s = .ok (((s.touch [p]).request (x.order s) p 0 .load r 0 [] [] [] .none).leaveTokens (x.order s)
      ((s.touch [p]).requestToken (x.order s) p)) := by
  have horder : x.order (s.touch [p]) = x.order s := rfl
  simp only [drdBody, hcheck, htarget, withRow_part hcheck hresolve hdram, horder, hroom, bind, Except.bind, pure, Except.pure]

theorem dwrBody_sends {x : Long} {s v y : State} {n a : Nat} {p : Part} (hpops : s.popAll [(x.c.toNat, none)] = .ok v)
    (hcheck : s.checkGlobal (askDram x.a.toNat 1 true) (s.c x.a.toNat) (x.indexB s) n = .ok a)
    (hresolve : s.resolve (askDram x.a.toNat 1 true) 3 a n = .parts [p]) (hdram : isDram p.owner)
    (hroom : (s.touch [p]).requestRoom (x.order s) Reply.unit 1 = .ok ()) (hpopped : (s.touch [p]).popAll [(x.c.toNat, none)] = .ok y) :
    dwrBody x n s = .ok ((y.request (x.order y) p 1 .store Reply.unit 0 ((leBytes 64 (y.vin x.c.toNat).toNat).take n) [] [] .none).leaveTokens
      (x.order y) (y.requestToken (x.order y) p)) := by
  have horder : x.order (s.touch [p]) = x.order s := rfl
  simp only [dwrBody, unlessWait_ok hpops, withRow_part hcheck hresolve hdram, horder, hroom, hpopped, bind, Except.bind, pure, Except.pure]

theorem dgathBody_sends {x : Long} {s : State} {n m k : Nat} {offs : List Int} {as : List Nat} {ps : List Part} {r : Reply}
    (hlist : s.localList (s.g x.b.toNat).toNat 8 (8 * m) = .ok k)
    (hoffs : offs = (List.range m).map (fun i => signedOf 64 (ofLe (s.bytes (k + 8 * i) 8))))
    (hspace : (s.c x.a.toNat).tag = true ∧ (s.c x.a.toNat).otype = 0 →
      (s.c x.a.toNat).space = 3 ∨ (s.c x.a.toNat).space = 5 ∧ s.level = .graph)
    (hcheck : s.checkElements (askDram x.a.toNat 0 false) (s.c x.a.toNat) n offs false = .ok as)
    (htarget : s.target x.sub.toNat x.d.toNat x.c.toNat n (n * m) = .ok r)
    (hparts : s.gatherParts (askDram x.a.toNat 0 false) n (as.zip offs) = .ok (.parts ps))
    (hroom : s.requestRoom (x.order s) r (ps.map (fun p => dramStack p.phys)).eraseDups.length = .ok ()) :
    dgathBody x n m s = .ok (((gatherRequests (s.touch ps) (x.order s) ps n r).2.leaveTokens (x.order s)
      (gatherRequests (s.touch ps) (x.order s) ps n r).1).noteRead k (8 * m)) := by
  subst hoffs
  have hglobal : ¬ ((s.c x.a.toNat).tag = true ∧ (s.c x.a.toNat).otype = 0 ∧ (s.c x.a.toNat).space ≠ 3 ∧
      (!decide ((s.c x.a.toNat).space = 5 ∧ s.level = .graph)) = true) := by
    rintro ⟨htag, hopen, hother, hlevel⟩
    rcases hspace ⟨htag, hopen⟩ with h | h
    · exact hother h
    · simp [h] at hlevel
  simp only [dgathBody, hlist, if_neg hglobal, hcheck, htarget, hparts, hroom, bind, Except.bind]
  rfl

end Sys2Proof.Laws
end

section
namespace Sys2Proof.Proofs
open Sys2Proof Sys2Proof.Machine Sys2Proof.Claims Sys2Proof.Laws

theorem dramAccesses : DramAccesses := by
  refine ⟨?drd, ?dwr⟩
  case drd =>
    rintro x s _ _ _ a p r rfl rfl h hcheck htarget hresolve hdram rfl hroom
    exact run_body_ok (run_drd x s h) (drdBody_sends hcheck htarget hresolve hdram hroom)
  case dwr =>
    rintro x s _ _ v _ y a p rfl rfl h hpops hcheck hresolve hdram rfl hroom hpopped
    exact run_body_ok (run_dwr x s h) (dwrBody_sends hpops hcheck hresolve hdram hroom hpopped)

theorem dramGather : DramGather := by
  rintro x s _ _ _ k offs as ps r rfl rfl rfl h hlist hoffs hspace hcheck htarget hparts hroom
  exact run_body_ok (run_dgath x s h) (dgathBody_sends hlist hoffs hspace hcheck htarget hparts hroom)

/-- Settles O24: each body behind its checks, with its pages found and room for its requests. -/
theorem dramInstructions : Obligations.DramInstructions := ⟨dramAccesses, dramGather⟩

end Sys2Proof.Proofs
end

section
/-! 04 R110 to R127: what a DRAM actor makes of a request in its turn, how the request is answered, and what becomes of lines, rows and channels. -/
namespace Sys2Proof.Laws
open Sys2Proof Sys2Proof.Machine Sys2Proof.Claims

/-! The turn of a request (R113). -/

theorem dramRequest_inTurn {s : State} {id pa op : Nat} {a : Access} (h : inTurn s id a pa op) :
    dramRequest (a.request pa) id s =
      .next ((if a.request pa = 0xF then (Answered.bad 5, s) else s.dramAct a pa).2.answerRequest id a pa
        (if a.request pa = 0xF then (Answered.bad 5, s) else s.dramAct a pa).1) := by
  obtain ⟨hitem, howner, hstage, hgone, -, hfirst⟩ := h
  have hsent : (a.stage == .held || a.stage == .sent) = true := by simpa using hstage
  simp only [dramRequest, accessEvent, hitem, howner]
  exact event_enabled (by simp [hsent, hgone, hfirst])

/-- R110: a request that breaks its limits counts as one with a reserved code. -/
theorem dramRequest_unsound {s : State} {id pa op : Nat} {a : Access} (h : inTurn s id a pa op) (hbroken : a.sound pa = false) :
    dramRequest 0xF id s = .next (s.answerRequest id a pa (Answered.bad 5)) := by
  have hreserved : a.request pa = 0xF := by simp [Access.request, hbroken]
  simpa only [hreserved, if_true] using dramRequest_inTurn h

theorem turnOf_op {s : State} {id pa op : Nat} {a : Access} (h : turnOf s id a pa op) : a.op = op := by
  obtain ⟨⟨-, -, -, -, hop, -⟩, -⟩ := h
  exact hop

/-- R110, R113: a request of a turn is performed, and answered with what the performing gives. -/
theorem dramRequest_performs {s t : State} {id pa op : Nat} {a : Access} {r : Answered} (h : turnOf s id a pa op) (hop : op ≠ 0xF)
    (hact : s.dramAct a pa = (r, t)) : dramRequest op id s = .next (t.answerRequest id a pa r) := by
  obtain ⟨hturn, hsound⟩ := h
  have hrequest : a.request pa = op := (if_pos hsound).trans (turnOf_op ⟨hturn, hsound⟩)
  simpa only [hrequest, if_neg hop, hact] using dramRequest_inTurn hturn

/-! What each request code performs (R109). -/

theorem dramAct_plain {s : State} {a : Access} {pa : Nat} (hop : a.op = 0 ∨ a.op = 1 ∨ a.op = 0xA) : s.dramAct a pa = s.plainAct a pa := by
  rcases hop with hop | hop | hop <;> simp [State.dramAct, hop]
theorem dramAct_gather {s : State} {a : Access} {pa : Nat} (hop : a.op = 2) : s.dramAct a pa = s.gatherAct a := by
  simp [State.dramAct, hop]
theorem dramAct_rowOpen {s : State} {a : Access} {pa : Nat} (hop : a.op = 3) : s.dramAct a pa = s.rowOpen a pa := by
  simp [State.dramAct, hop]
theorem dramAct_flush {s : State} {a : Access} {pa : Nat} (hop : a.op = 9) : s.dramAct a pa = (Answered.ok, s) := by
  simp [State.dramAct, hop]
theorem dramAct_line {s : State} {a : Access} {pa : Nat} (hop : a.op = 4 ∨ a.op = 5 ∨ a.op = 6 ∨ a.op = 7 ∨ a.op = 8) :
    s.dramAct a pa = s.rowAct a := by
  rcases hop with hop | hop | hop | hop | hop <;> simp [State.dramAct, hop]

/-! Reads and writes at a physical address (R110, R114). -/

theorem plainAct_load {s : State} {a : Access} {pa : Nat} (hkey : s.hasKey a.key = true) (hload : a.kind = .load)
    (hread : s.spoiled pa a.size = false) :
    s.plainAct a pa = (fine 0 (s.dramRead a.key pa a.size) false, (rowTouched s pa).noteRead pa a.size) := by
  simp [State.plainAct, hkey, hload, hread, rowTouched, fine, Answered.ok]

theorem plainAct_store {s : State} {a : Access} {pa : Nat} (hkey : s.hasKey a.key = true) (hstore : a.kind = .store)
    (hmerge : s.mergeFails a.key pa a.data.length = none) :
    s.plainAct a pa = (fine 0 [] false, ((rowTouched s pa).merged a.key pa a.data.length).dramWrite a.key pa a.data) := by
  simp [State.plainAct, hkey, Access.takes, hstore, hmerge, rowTouched, fine, Answered.ok]

/-- R110: an atomic operation answers the old value, and writes the new one where it gives one. -/
theorem plainAct_atomicWrites {s : State} {a : Access} {pa v : Nat} (hkey : s.hasKey a.key = true) (hatomic : a.kind = .atomic)
    (hread : s.spoiled pa a.size = false)
    (hnew : atomicNew a.aop (ofLe (s.dramRead a.key pa a.size)) (ofLe a.data) (ofLe a.operand2) = some v) :
    s.plainAct a pa = (fine 0 (s.dramRead a.key pa a.size) false,
      ((rowTouched s pa).noteRead pa a.size).dramWrite a.key pa (leBytes a.size v)) := by
  simp [State.plainAct, hkey, hatomic, hread, hnew, rowTouched, fine, Answered.ok]

theorem plainAct_atomicKeeps {s : State} {a : Access} {pa : Nat} (hkey : s.hasKey a.key = true) (hatomic : a.kind = .atomic)
    (hread : s.spoiled pa a.size = false)
    (hnone : atomicNew a.aop (ofLe (s.dramRead a.key pa a.size)) (ofLe a.data) (ofLe a.operand2) = none) :
    s.plainAct a pa = (fine 0 (s.dramRead a.key pa a.size) false, (rowTouched s pa).noteRead pa a.size) := by
  simp [State.plainAct, hkey, hatomic, hread, hnone, rowTouched, fine, Answered.ok]

theorem gatherAct_reads {s : State} {a : Access} (hkey : s.hasKey a.key = true) (hread : ∀ e ∈ a.gather, s.spoiled e.2 a.size = false) :
    s.gatherAct a = (fine 0 (a.gather.flatMap (fun e => s.dramRead a.key e.2 a.size)) false,
      a.gather.foldl (fun (t : State) e => (rowTouched t e.2).noteRead e.2 a.size) s) := by
  have hsound : a.gather.any (fun e => s.spoiled e.2 a.size) = false := by simpa [List.any_eq_false] using hread
  simp [State.gatherAct, hkey, hsound, rowTouched, fine, Answered.ok]

/-! ROWOPEN (R116). -/

theorem rowOpen_quota {s : State} {a : Access} {pa : Nat}
    (hfull : fld (at_ (s.getActor (dramStack pa)).quota a.ctx 0) 11 0 ≤ (s.getActor (dramStack pa)).used a.ctx) :
    s.rowOpen a pa = ({ status := 3, result := rowRefused 1, data := [], tag := false }, s) := if_pos hfull

theorem rowOpen_noSlot {s : State} {a : Access} {pa : Nat}
    (hroom : (s.getActor (dramStack pa)).used a.ctx < fld (at_ (s.getActor (dramStack pa)).quota a.ctx 0) 11 0)
    (htaken : ∀ i < 64, (s.getActor (dramStack pa)).findSlot (dramChan pa) i ≠ none) :
    s.rowOpen a pa = ({ status := 3, result := rowRefused 2, data := [], tag := false }, s) := by
  have hnone : (List.range 64).find? (fun i => ((s.getActor (dramStack pa)).findSlot (dramChan pa) i).isNone) = none := by
    simpa [List.find?_eq_none, Option.isSome_iff_ne_none] using htaken
  simp only [State.rowOpen, if_neg (Nat.not_le.mpr hroom), hnone]
  rfl

theorem rowOpen_slot {s : State} {a : Access} {pa i : Nat} {act : Actor} (hactor : act = s.getActor (dramStack pa))
    (hroom : act.used a.ctx < fld (at_ act.quota a.ctx 0) 11 0) (hi : i < 64) (hfree : act.findSlot (dramChan pa) i = none)
    (hlowest : ∀ j < i, act.findSlot (dramChan pa) j ≠ none) :
    s.rowOpen a pa = (fine (BitVec.ofNat 64 (dramStack pa * 2 ^ 11 + dramChan pa * 2 ^ 6 + i)) [] false,
      s.putActor ((act.setSlot (dramChan pa) i (makeSlot a.ctx a.name pa a.key (s.tsc.toNat + act.holdTicks))).touchRow pa)) := by
  subst hactor
  have hfind : (List.range 64).find? (fun i => ((s.getActor (dramStack pa)).findSlot (dramChan pa) i).isNone) = some i := by
    simpa [List.find?_range_eq_some, hfree, hi, Option.isSome_iff_ne_none] using hlowest
  simp only [State.rowOpen, if_neg (Nat.not_le.mpr hroom), hfind]
  rfl

/-! Requests through a line handle (R115, R117, R118). -/

/-- R115: the line that a request's handle names is found for its owner alone. -/
theorem line_owned {s : State} {a : Access} {w : BitVec 128} (h : ownsLine s a w) :
    ((s.getActor (a.handle / 2 ^ 11 % 32)).findSlot (a.handle / 2 ^ 6 % 32) (a.handle % 64)).filter
      (fun w => slotCtx w == a.ctx && slotName w == a.name) = some w := by
  obtain ⟨hfound, hctx, hname⟩ := h
  exact Option.filter_eq_some_iff.mpr ⟨hfound, by simp [hctx, hname]⟩

theorem line_unowned {s : State} {a : Access} (h : ∀ w, ¬ ownsLine s a w) :
    ((s.getActor (a.handle / 2 ^ 11 % 32)).findSlot (a.handle / 2 ^ 6 % 32) (a.handle % 64)).filter
      (fun w => slotCtx w == a.ctx && slotName w == a.name) = none := by
  refine Option.filter_eq_none_iff.mpr fun w hfound howned => h w ⟨hfound, ?_⟩
  simpa using howned

theorem rowAct_unowned {s : State} {a : Access} (h : ∀ w, ¬ ownsLine s a w) :
    s.rowAct a = (if a.op = 8 then Answered.ok else Answered.bad 2, s) := by
  simp only [State.rowAct, line_unowned h]

section
variable {s : State} {a : Access} {w : BitVec 128}

theorem rowAct_hold (h : ownsLine s a w) (hop : a.op = 4) :
    s.rowAct a = s.rowHold (a.handle / 2 ^ 6 % 32) (a.handle % 64) w (s.getActor (a.handle / 2 ^ 11 % 32)) := by
  simp only [State.rowAct, line_owned h, hop]

theorem rowAct_release (h : ownsLine s a w) (hop : a.op = 5) :
    s.rowAct a = (fine 0 [] false,
      s.putActor ((s.getActor (a.handle / 2 ^ 11 % 32)).freeSlot (a.handle / 2 ^ 6 % 32) (a.handle % 64))) := by
  simp only [State.rowAct, line_owned h, hop]
  rfl

theorem rowAct_read (h : ownsLine s a w) (hop : a.op = 6) (hkey : s.hasKey (slotKey w) = true)
    (hread : s.spoiled (slotRow w + a.addr) a.size = false) :
    s.rowAct a = (fine 0 (s.dramRead (slotKey w) (slotRow w + a.addr) a.size) false,
      (s.putActor ((s.getActor (a.handle / 2 ^ 11 % 32)).touchRow (slotRow w + a.addr))).noteRead (slotRow w + a.addr) a.size) := by
  simp only [State.rowAct, line_owned h, hop, hkey, hread]
  rfl

theorem rowAct_write (h : ownsLine s a w) (hop : a.op = 7) (hkey : s.hasKey (slotKey w) = true)
    (hmerge : s.mergeFails (slotKey w) (slotRow w + a.addr) a.data.length = none) :
    s.rowAct a = (fine 0 [] false,
      ((s.putActor ((s.getActor (a.handle / 2 ^ 11 % 32)).touchRow (slotRow w + a.addr))).merged (slotKey w) (slotRow w + a.addr)
        a.data.length).dramWrite (slotKey w) (slotRow w + a.addr) a.data) := by
  simp only [State.rowAct, line_owned h, hop, hkey, hmerge]
  rfl

theorem rowAct_status (h : ownsLine s a w) (hop : a.op = 8) :
    s.rowAct a = (fine (s.rowStat (s.getActor (a.handle / 2 ^ 11 % 32)) w) [] false, s) := by
  simp only [State.rowAct, line_owned h, hop]
  rfl

end

/-! ROWHOLD on a line of the requester (R117). -/

theorem rowHold_kept {s : State} {chan slot : Nat} {w : BitVec 128} {act : Actor} (hkept : slotKeep w = true) :
    s.rowHold chan slot w act = (fine (BitVec.ofNat 64 (act.stack * 2 ^ 11 + chan * 2 ^ 6 + slot)) [] false,
      s.putActor (act.setSlot chan slot (setFld w 115 64 (s.tsc.toNat + act.holdTicks)))) := if_pos hkept

/-- A line comes under KEEP where its subarray keeps no other row and fewer than two others of its bank keep one. -/
theorem rowHold_keeps {s : State} {chan slot : Nat} {w : BitVec 128} {act : Actor} (hdrop : slotKeep w = false)
    (hsame : ∀ r ∈ act.keptIn chan (dramBank (slotRow w)) (dramSub (slotRow w)), r = dramRow (slotRow w))
    (hbank : ((List.range 4).filter (fun sub => sub != dramSub (slotRow w) && act.keptIn chan (dramBank (slotRow w)) sub != [])).length < 2) :
    s.rowHold chan slot w act = (fine (BitVec.ofNat 64 (act.stack * 2 ^ 11 + chan * 2 ^ 6 + slot)) [] false,
      s.putActor (act.setSlot chan slot (setBit (setFld w 115 64 (s.tsc.toNat + act.holdTicks)) 62 true))) := by
  have halone : (act.keptIn chan (dramBank (slotRow w)) (dramSub (slotRow w))).filter
      (fun r => r != dramRow (slotRow w) || dramSub (slotRow w) != dramSub (slotRow w)) = [] := by
    simpa using hsame
  simp only [State.rowHold, hdrop, halone, if_neg (Nat.not_le.mpr hbank)]
  rfl

/-! Answers (R111, R112). -/

theorem answerRequest_unit {s : State} {id pa : Nat} {a : Access} {r : Answered} (hunit : a.rmode = 3) (hgood : r.status = 0 ∨ r.status = 3) :
    s.answerRequest id a pa r = s.setItem id (.access { a with stage := .performed, tagv := r.tag, reply := match a.landing with
      | .result _ => leBytes 8 r.result.toNat
      | _ => r.data }) := by
  have hqueue : a.rmode ≠ 0 := by omega
  have hdirect : ¬ (r.status = 0 ∧ a.rmode ≠ 3) := fun h => h.2 hunit
  exact (if_neg hqueue).trans ((if_neg hdirect).trans (if_pos hgood))

theorem answerRequest_direct {s : State} {id pa : Nat} {a : Access} {r : Answered} (hdirect : a.rmode = 1 ∨ a.rmode = 2)
    (hdone : r.status = 0) :
    s.answerRequest id a pa r = s.setItem id (.directWrite { a with stage := .performed, reply := r.data }) := by
  have hqueue : a.rmode ≠ 0 := by omega
  have hunit : a.rmode ≠ 3 := by omega
  exact (if_neg hqueue).trans (if_pos ⟨hdone, hunit⟩)

/-! Direct writes (R33, R111). -/

theorem directExtents_one {a : Access} (hplain : a.op ≠ 2) : a.directExtents = [(a.dest, a.reply)] := if_neg hplain

theorem exec_directLocal {s : State} {id : Nat} {a : Access} {p : Psn} (hitem : s.item id = some (.directWrite a)) (hlocal : a.rmode = 1)
    (hplain : a.op ≠ 2) (hholder : s.requester a = some p) (hlive : (s.getCore p).snuffed = false) (hclocked : s.gated p = false) :
    exec (.directWriteArrival id) s =
      .next (((((s.touchCluster p).dropItem id).poke (localKey p a.dest) a.reply)).modCore p (·.addQ a.ctr a.reply.length)) := by
  have hmode : a.rmode ≠ 2 := by omega
  simp only [exec_directWriteArrival, execDirectWriteArrival, hitem, if_neg hmode, hholder, hlive, hclocked, State.directLocal,
    directExtents_one hplain]
  rfl

/-- A run that ends where its grain does, or before, is one piece. -/
theorem pieces_one {a n grain : Nat} (h : a % grain + n ≤ grain) : pieces a n grain = [(a, 0, n)] :=
  if_pos (by omega)

/-- R111: a write inside one store tile is that tile's store of all the bytes. -/
theorem directStore_one {s u : State} {a : Access} {t : Psn} {bs : List Byte} {tag : Bool} {d : Nat} {data : List Byte}
    (hthere : (s.getRegion (psnRegion a.core)).storeAt (d / 2 ^ 19) = some t)
    (hdone : s.tileAct { a with kind := .store, op := 1, aop := 0, size := data.length, data, addr := d } t (d % 2 ^ 19) = .done bs tag u) :
    s.directStore a [(d, data)] = .done [] false u := by
  simp only [State.directStore, hthere, hdone]

theorem exec_directStore {s u : State} {id : Nat} {a : Access} {t : Psn} {bs : List Byte} {tag : Bool}
    (hitem : s.item id = some (.directWrite a)) (hstore : a.rmode = 2) (hplain : a.op ≠ 2)
    (hinside : a.dest % 2 ^ 19 + a.reply.length ≤ 2 ^ 19)
    (hthere : (s.getRegion (psnRegion a.core)).storeAt (a.dest / 2 ^ 19) = some t)
    (hdone : s.tileAct { a with kind := .store, op := 1, aop := 0, size := a.reply.length, data := a.reply, addr := a.dest } t (a.dest % 2 ^ 19) =
      .done bs tag u) :
    exec (.directWriteArrival id) s =
      .next ((u.dropItem id).modTile t (fun x => { x with sq := put x.sq a.ctr (satAdd (at_ x.sq a.ctr 0) a.reply.length) })) := by
  have hone : a.directExtents.flatMap (fun e => (pieces e.1 e.2.length (2 ^ 19)).map (fun x => (x.1, slice e.2 x.2.1 x.2.2))) =
      [(a.dest, a.reply)] := by
    simp only [directExtents_one hplain, List.flatMap_singleton, pieces_one hinside, List.map_singleton, slice_all]
  simp only [exec_directWriteArrival, execDirectWriteArrival, hitem, if_pos hstore, State.directToStore, hone, directStore_one hthere hdone, hthere]

/-! Lines and channels (R120, R121, R125). -/

theorem exec_rowLeaseExpiry_drop {s : State} {stack lchan slot : Nat} {w : BitVec 128} (hstack : stack < 32) (hchan : lchan < 32)
    (hslot : slot < 64) (hfound : (s.getActor stack).findSlot lchan slot = some w) (hdue : slotDeadline w ≤ s.tsc.toNat)
    (hnear : s.tsc.toNat < slotDeadline w + 2 ^ 51) (hdrop : slotKeep w = false) :
    exec (.rowLeaseExpiry stack lchan slot) s = .next (s.putActor ((s.getActor stack).freeSlot lchan slot)) := by
  have hunit : ¬ (32 ≤ stack ∨ 32 ≤ lchan ∨ 64 ≤ slot) := by omega
  have hexpired : s.expireSlot stack lchan slot 0 = s.putActor ((s.getActor stack).freeSlot lchan slot) := by
    simp only [State.expireSlot, hfound, hdrop]
    rfl
  simp only [exec_rowLeaseExpiry, execRowLeaseExpiry, if_neg hunit, hfound, hexpired]
  exact event_enabled (decide_eq_true (by omega))

theorem exec_bankRefresh_unit {s : State} {stack lchan bank : Nat} (hstack : stack < 32) (hchan : lchan < 32) (hbank : bank < 16) :
    exec (.bankRefresh stack lchan bank) s = .next (s.modActor stack (·.refresh lchan bank)) :=
  if_neg (by omega)

theorem exec_channelMove_marked {s : State} {stack lchan spare : Nat} {retire : Bool} {a : Actor} {old : Nat} (hstack : stack < 32)
    (hchan : lchan < 32) (hspare : spare < 34) (hactor : a = s.getActor stack) (hold : old = (at_ a.chanMap lchan 0).toNat)
    (hsource : at_ a.chanState old 0 = 2) (htarget : at_ a.chanState spare 0 = 3)
    (hasked : (if retire then s.retiringUnit (chanUnit stack old) else s.hasLease (chanUnit stack old)) = true) :
    exec (.channelMove stack lchan spare retire) s = .next (s.putActor (a.moveChannel lchan spare retire)) := by
  subst hactor hold
  have hunit : ¬ (32 ≤ stack ∨ 32 ≤ lchan ∨ 34 ≤ spare) := by omega
  simp only [exec_channelMove, execChannelMove, if_neg hunit]
  exact event_enabled (by simp only [hsource, htarget, hasked]; rfl)

end Sys2Proof.Laws
end

section
namespace Sys2Proof.Proofs
open Sys2Proof Sys2Proof.Machine Sys2Proof.Claims Sys2Proof.Laws

theorem dramRequests : DramRequests := by
  refine ⟨?drd, ?dwr, ?dgath, ?changes, ?stays, ?flush, ?reserved⟩
  case drd =>
    intro s id a pa h hkey hload hread
    rw [exec_drdRequest_turn h, plainAct_load hkey hload hread]
  case dwr =>
    intro s id a pa h hkey hstore hmerge
    exact dramRequest_performs h (by decide) ((dramAct_plain (.inr (.inl (turnOf_op h)))).trans (plainAct_store hkey hstore hmerge))
  case dgath =>
    intro s id a pa h hkey hread
    exact dramRequest_performs h (by decide) ((dramAct_gather (turnOf_op h)).trans (gatherAct_reads hkey hread))
  case changes =>
    rintro s id a pa _ v h hkey hatomic rfl hnew hread
    exact dramRequest_performs h (by decide)
      ((dramAct_plain (.inr (.inr (turnOf_op h)))).trans (plainAct_atomicWrites hkey hatomic hread hnew))
  case stays =>
    rintro s id a pa _ h hkey hatomic rfl hnone hread
    exact dramRequest_performs h (by decide)
      ((dramAct_plain (.inr (.inr (turnOf_op h)))).trans (plainAct_atomicKeeps hkey hatomic hread hnone))
  case flush =>
    intro s id a pa h
    exact dramRequest_performs h (by decide) (dramAct_flush (turnOf_op h))
  case reserved =>
    intro s id a pa op h hbroken
    exact dramRequest_unsound h hbroken

theorem rowRequests : RowRequests := by
  refine ⟨?opened, ?owned, ?unowned⟩
  case opened =>
    rintro s id a pa _ h - rfl
    have hact := dramAct_rowOpen (s := s) (pa := pa) (turnOf_op h)
    exact ⟨fun hfull => dramRequest_performs h (by decide) (hact.trans (rowOpen_quota hfull)),
      fun hroom htaken => dramRequest_performs h (by decide) (hact.trans (rowOpen_noSlot hroom htaken)),
      fun i hroom hi hfree hlowest => dramRequest_performs h (by decide) (hact.trans (rowOpen_slot rfl hroom hi hfree hlowest))⟩
  case owned =>
    rintro s id a pa w _ _ _ rfl rfl rfl hline
    refine ⟨fun h hkept => ?_, fun h hdrop hsame hbank => ?_, fun h => ?_, fun h hkey hread => ?_, fun h hkey hmerge => ?_, fun h => ?_⟩
    all_goals
      have hop := turnOf_op h
      refine dramRequest_performs h (by decide) ((dramAct_line (by omega)).trans ?_)
    · exact (rowAct_hold hline hop).trans (rowHold_kept hkept)
    · exact (rowAct_hold hline hop).trans (rowHold_keeps hdrop hsame hbank)
    · exact rowAct_release hline hop
    · exact rowAct_read hline hop hkey hread
    · exact rowAct_write hline hop hkey hmerge
    · exact rowAct_status hline hop
  case unowned =>
    intro s id a pa hnone
    refine ⟨fun h => ?_, fun h => ?_, fun h => ?_⟩
    all_goals
      have hop := turnOf_op h
      refine dramRequest_performs h (by decide) ((dramAct_line (by omega)).trans ((rowAct_unowned hnone).trans ?_))
      rw [hop]
      rfl

theorem dramReplies : DramReplies := by
  refine ⟨?unit, ?direct, ?queue, ?inLocal, ?inStore⟩
  case unit => exact fun s id a pa r hunit hgood => answerRequest_unit hunit hgood
  case direct => exact fun s id a pa r hdirect hdone => answerRequest_direct hdirect hdone
  case queue =>
    intro s id a pa r hqueue
    exact ⟨_, if_pos hqueue, rfl, rfl, rfl, rfl, rfl⟩
  case inLocal =>
    exact fun s id a p hitem hlocal hplain hholder hlive hclocked => exec_directLocal hitem hlocal hplain hholder hlive hclocked
  case inStore =>
    exact fun s id a u t tile hitem hstore hplain _ hinside hthere hdone _ => exec_directStore hitem hstore hplain hinside hthere hdone

theorem linesAndChannels : LinesAndChannels := by
  refine ⟨?expiry, ?refresh, ?move⟩
  case expiry =>
    exact fun s stack lchan slot w hstack hchan hslot hfound hdue hnear hdrop =>
      exec_rowLeaseExpiry_drop hstack hchan hslot hfound hdue hnear hdrop
  case refresh =>
    rintro s stack lchan bank _ hstack hchan hbank rfl
    exact exec_bankRefresh_unit hstack hchan hbank
  case move =>
    intro s stack lchan spare retire a old hstack hchan hspare hactor hold hsource htarget hasked
    refine ⟨_, exec_channelMove_marked hstack hchan hspare hactor hold hsource htarget hasked, rfl, ?_, rfl⟩
    rw [hold]
    rfl

/-- Settles O38: each request by what its code performs, each answer by its mode, and each line and channel by its own step. -/
theorem dramSteps : Obligations.DramSteps := ⟨dramRequests, rowRequests, dramReplies, linesAndChannels⟩

end Sys2Proof.Proofs
end

section
/-! 06 R149, 07 R179, 09 R230, R242, R243, 12 R301: what an instruction does before its own effect. -/
namespace Sys2Proof.Laws
open Sys2Proof Sys2Proof.Machine Sys2Proof.Claims

/-! Each way the issue ends before the body. -/

theorem issue_idle (f : Form) (priv : Bool) (body : Body') {s : State} (hidle : s.core.act = none) : issue f priv body s = .next s := by
  simp [issue, hidle]
theorem issue_halted (f : Form) (priv : Bool) (body : Body') {s : State} {a : Act} (hact : s.core.act = some a)
    (hhalted : a.halted.isSome) : issue f priv body s = .next s := by
  simp [issue, hact, hhalted]
/-- R243 step 3 before step 4: the window is looked at once the privilege has passed. -/
theorem issue_window {f : Form} {priv : Bool} (body : Body') {s : State} {a : Act} {n : Nat} (hact : s.core.act = some a)
    (hrun : a.halted = none) (hallowed : priv = false ∨ s.level ≠ .graph)
    (hfirst : f.gs.find? (fun n => decide (a.window ≤ n)) = some n) :
    issue f priv body s = .next (s.takeFault { code := .window, detail := capDetail 0 0xFF n }) := by
  have hpriv : ¬(priv = true ∧ s.level = .graph) := by rcases hallowed with h | h <;> simp [h]
  simp only [issue, hact, hrun, hfirst, if_neg hpriv]
  rfl

/-- Behind the privilege and the window, the guard decides before the token and the pending registers. -/
theorem issue_inWindow {f : Form} {priv : Bool} (body : Body') {s : State} {a : Act} (hact : s.core.act = some a)
    (hrun : a.halted = none) (hallowed : priv = false ∨ s.level ≠ .graph) (hwindow : ∀ n ∈ f.gs, n < a.window) :
    issue f priv body s =
      if s.core.isPending (.p f.guard) then .next s.hold
      else if s.guardRuns f = false then .next (s.advance f.length)
      else if (!f.holds && !s.gone (s.tok f.after)) || f.regs.any s.core.isPending then .next s.hold
      else settle f s (body (s.advance f.length)) := by
  have hpriv : ¬(priv = true ∧ s.level = .graph) := by rcases hallowed with h | h <;> simp [h]
  have hall : f.gs.find? (fun n => decide (a.window ≤ n)) = none := by simpa [List.find?_eq_none] using hwindow
  simp only [issue, hact, hrun, hall, if_neg hpriv]
  rfl

/-! What a relayed matrix instruction adds (R383): nothing, where its activation is no attached member or where no fault changes the activation. -/

theorem relayed_idle {s : State} (o : Out) (hidle : s.core.act = none) : relayed s o = o := by
  unfold relayed
  split
  · next hact => simp [hidle] at hact
  · rfl
theorem relayed_alone {s : State} {a : Act} (o : Out) (hact : s.core.act = some a) (halone : attachedMember a = false) : relayed s o = o := by
  cases o with
  | next t =>
    simp only [attachedMember] at halone
    simp only [relayed, hact, halone, Bool.false_eq_true, false_and, if_false]
  | fault _ => rfl
  | refused _ => rfl
theorem relayed_keepsAct {s t : State} (hkept : t.core.act = s.core.act) : relayed s (.next t) = .next t := by
  cases hact : s.core.act with
  | none => exact relayed_idle _ hact
  | some a => cases hhalted : a.halted <;> simp [relayed, hkept, hact, hhalted]

/-! From the issue of a form to exec, matrix instructions included. -/

theorem exec_keepsAct {i : Instr} {f : Form} {s t : State} (hform : formOf i = some f) (hkept : t.core.act = s.core.act)
    (hissue : ∀ body, issue f (privileged i) body s = .next t) : exec i s = .next t := by
  rcases exec_issued i f hform with ⟨body, hexec⟩ | ⟨body, hexec⟩
  · rw [hexec, hissue]
  · rw [hexec, hissue, relayed_keepsAct hkept]
theorem exec_alone {i : Instr} {f : Form} {s t : State} {a : Act} (hform : formOf i = some f) (hact : s.core.act = some a)
    (halone : attachedMember a = false) (hissue : ∀ body, issue f (privileged i) body s = .next t) : exec i s = .next t := by
  rcases exec_issued i f hform with ⟨body, hexec⟩ | ⟨body, hexec⟩
  · rw [hexec, hissue]
  · rw [hexec, hissue, relayed_alone _ hact halone]

theorem past_of_form {i : Instr} {f : Form} (s : State) (hform : formOf i = some f) : past i s = s.advance f.length := by
  simp [past, byteLength, hform]

end Sys2Proof.Laws
end

section
namespace Sys2Proof.Proofs
open Sys2Proof Sys2Proof.Machine Sys2Proof.Claims Sys2Proof.Laws

/-- Settles O48: each outcome is one end of the issue, and the relay of a matrix instruction adds nothing to it. -/
theorem issueOutcomes : Obligations.IssueOutcomes := by
  intro i f s hform
  refine ⟨?idle, ?halted, ?refused, ?waits⟩
  case idle => exact fun hidle => exec_keepsAct hform rfl fun body => issue_idle f _ body hidle
  case halted => exact fun a hact hhalted => exec_keepsAct hform rfl fun body => issue_halted f _ body hact hhalted
  case refused =>
    intro a hact hrun halone
    refine ⟨fun hpriv hlevel => exec_alone hform hact halone fun body => ?_,
      fun n hallowed hfirst => exec_alone hform hact halone fun body => issue_window body hact hrun hallowed hfirst⟩
    rw [hpriv, issue_priv f body hlevel hact hrun]
    exact settle_priv f s 3
  case waits =>
    intro a hact hrun hallowed hwindow
    refine ⟨fun hguard => ?_, fun hguard hfalse => ?_, fun hguard htrue hissue htoken => ?_, fun hguard htrue hpending => ?_⟩
    · exact exec_keepsAct hform rfl fun body => by rw [issue_inWindow body hact hrun hallowed hwindow, if_pos hguard]
    · rw [past_of_form s hform]
      exact exec_keepsAct hform rfl fun body => by simp [issue_inWindow body hact hrun hallowed hwindow, hguard, hfalse]
    · exact exec_keepsAct hform rfl fun body => by
        simp [issue_inWindow body hact hrun hallowed hwindow, hguard, htrue, hissue, htoken]
    · have hany : f.regs.any s.core.isPending = true := List.any_eq_true.mpr hpending
      exact exec_keepsAct hform rfl fun body => by simp [issue_inWindow body hact hrun hallowed hwindow, hguard, htrue, hany]

end Sys2Proof.Proofs
end

section
/-! 02 R68, 06 R153, R160, 12 R305, R308: token joins, fences and prefetches. -/
namespace Sys2Proof.Laws
open Sys2Proof Sys2Proof.Machine Sys2Proof.Claims

/-! A token read after a write. -/

theorem setTok_tok (s : State) (n : Nat) (ids : List Nat) (h0 : n ≠ 0) (h : n < 8) : (s.setTok n ids).tok n = ids := by
  simp [State.setTok, State.tok, Core.setTok, Core.getTok, h0, at_put _ _ _ _ h]
theorem setTok_tok_ne (s : State) (n m : Nat) (ids : List Nat) (h : n ≠ m) : (s.setTok n ids).tok m = s.tok m := by
  by_cases h0 : n = 0
  · simp [State.setTok, State.tok, Core.setTok, h0]
  · simp [State.setTok, State.tok, Core.setTok, Core.getTok, h0, at_put_ne _ _ _ _ _ h]
/-- R149: token 0 is the empty set. -/
theorem tok_zero (s : State) : s.tok 0 = [] := rfl

/-! FENCE (R160). -/

/-- What a FENCE holds later accesses back for: the accesses of its scope under way, and what its AFTER waits for. -/
def fenceHolds (x : Long) (s : State) (act : Act) : List Nat :=
  ((((s.accessesOf s.core.psn).filter (fun y => !y.2.engine && y.2.serial == act.serial &&
    decide (y.2.scope s.core.homeStore.toNat ≤ x.scope))).map (·.1)) ++ (x.order s).after.filter (fun i => !s.gone [i])).eraseDups

theorem exec_fence_core {x : Long} {s : State} {act : Act} (h : issues (.fence x) s = true) (hact : s.core.act = some act)
    (hcore : x.scope = 0) : exec (.fence x) s = .next ((past (.fence x) s).leaveTokens (x.order s) []) := by
  simp only [run_fence x s h, past_core_act, hact, if_pos hcore]
  rfl
theorem exec_fence_wider {x : Long} {s : State} {act : Act} (h : issues (.fence x) s = true) (hact : s.core.act = some act)
    (hwider : x.scope ≠ 0) :
    exec (.fence x) s = .next (((past (.fence x) s).mapAct (fun a =>
      { a with fences := a.fences.filter (fun f => !s.gone f.2) ++ [(x.scope, fenceHolds x s act)] })).leaveTokens (x.order s)
      (fenceHolds x s act)) := by
  simp only [run_fence x s h, past_core_act, hact, if_neg hwider]
  rfl

/-! PF (R68, R305), by what its check and its translation answer; `prefetched` is the state past it. -/

section
variable {i : Instr} {s : State} {cap len : Nat} {off : State → Int} {write : Bool} {o : State → Order}

theorem prefetchBody_answered (hanswered : (past i s).answered.isSome) :
    prefetchBody len cap off write o (past i s) = .ok (prefetched i (o (past i s)) s) := if_pos hanswered

theorem prefetchBody_refused {st : Stop}
    (hcheck : (past i s).checkCap (prefetchAsk cap write) (s.c cap) (off (past i s)) 8 = .error st) :
    prefetchBody len cap off write o (past i s) = .ok (prefetched i (o (past i s)) s) := by
  unfold prefetchAsk at hcheck
  simp only [prefetchBody, past_c, hcheck]
  split <;> rfl

variable {a : Nat} (hanswered : (past i s).answered = none)
  (hcheck : (past i s).checkCap (prefetchAsk cap write) (s.c cap) (off (past i s)) 8 = .ok a)
include hanswered hcheck

theorem prefetchBody_stopped {st : Stop} (hstop : (past i s).resolve (prefetchAsk cap write) (s.c cap).space a 8 = .stop st) :
    prefetchBody len cap off write o (past i s) = .ok (prefetched i (o (past i s)) s) := by
  unfold prefetchAsk at hcheck hstop
  simp only [prefetchBody, past_c, hanswered, hcheck, hstop]
  rfl

theorem prefetchBody_rows {act : Act} {ps rows : List Part} (hact : s.core.act = some act)
    (hparts : (past i s).resolve (prefetchAsk cap write) (s.c cap).space a 8 = .parts ps)
    (hrows : rows = ps.filter (fun p => isDram p.owner && p.pkind != 3)) (hroom : (past i s).hasRoom act Order.none rows = true) :
    prefetchBody len cap off write o (past i s) = .ok (rows.foldl (fun t p => t.launchItem (.access
      { p.access (past i s) act .load (if p.pkind = 2 then [] else (o (past i s)).after) with size := 0, engine := true }))
      ((prefetched i (o (past i s)) s).touch ps)) := by
  unfold prefetchAsk at hcheck hparts
  simp only [prefetchBody, past_c, past_core_act, hanswered, hcheck, hparts, hact, ← hrows, hroom]
  rfl
end

/-- Both forms of PF at once: the operand and the order are the same on the state past the instruction. -/
theorem prefetches_of_run {i : Instr} {f : Form} {s : State} {cap len : Nat} {off : State → Int} {write : Bool} {o : State → Order}
    (run : issues i s = true → exec i s = settle f s (prefetchBody len cap off write o (past i s)))
    (hoff : off (past i s) = off s) (ho : o (past i s) = o s) : prefetches i cap (off s) write (o s) s := by
  intro act hact hissues
  have hanswered : (past i s).answered = act.resumed := by simp [State.answered, hact]
  rw [← hoff, ← ho]
  refine ⟨fun hresumed => ?_, fun st hcheck => ?_, fun a hfresh hcheck => ?_⟩
  · exact run_body_ok (run hissues) (prefetchBody_answered (hanswered ▸ hresumed))
  · exact run_body_ok (run hissues) (prefetchBody_refused hcheck)
  · rw [hfresh] at hanswered
    exact ⟨fun st hstop => run_body_ok (run hissues) (prefetchBody_stopped hanswered hcheck hstop),
      fun ps rows hparts hrows hroom => run_body_ok (run hissues) (prefetchBody_rows hanswered hcheck hact hparts hrows hroom)⟩

end Sys2Proof.Laws
end

section
namespace Sys2Proof.Proofs
open Sys2Proof Sys2Proof.Machine Sys2Proof.Claims Sys2Proof.Laws

/-- Settles O21: OJOIN runs its body, which writes the one token; the two sets are read before the write. -/
theorem tokenJoin : Obligations.TokenJoin := by
  refine ⟨fun x s h => ⟨_, (run_ojoin x s h).trans (settle_ok _ _ _), rfl, fun i hd hrange => ?_, fun n hn => ?_, rfl, rfl⟩, tok_zero⟩
  · have hd0 : x.d.toNat ≠ 0 := fun h0 => hd (BitVec.eq_of_toNat_eq h0)
    simp [setTok_tok _ _ _ hd0 hrange, List.mem_eraseDups]
  · exact setTok_tok_ne _ _ _ _ hn.symm

theorem fences : Fences := by
  refine ⟨fun x s act => exec_fence_core, ?_⟩
  rintro x s act _ h hact hwider rfl
  exact exec_fence_wider h hact hwider

theorem prefetchForms : Prefetches :=
  fun s => ⟨fun x => prefetches_of_run (run_pf x s) rfl rfl, fun x => prefetches_of_run (run_pfL32B x s) rfl rfl⟩

/-- Settles O22: FENCE by its scope, and both forms of PF by what their check and translation answer. -/
theorem fencesAndPrefetches : Obligations.FencesAndPrefetches := ⟨fences, prefetchForms⟩

end Sys2Proof.Proofs
end

section
/-! 07 R179, 09 R237: relative operands, and the end of an instruction one of whose operands is outside the window. -/
namespace Sys2Proof.Laws
open Sys2Proof Sys2Proof.Machine Sys2Proof.Claims

theorem settle_window (f : Form) (s : State) (n : Nat) :
    settle f s (.error (.window n)) = .next (s.takeFault { code := .window, detail := capDetail 0 0xFF n }) := rfl

theorem relative_outside {s : State} {idx : Reg} {k : Int} (h : (s.g idx.toNat).toInt + k < 0 ∨ (s.window : Int) ≤ (s.g idx.toNat).toInt + k) :
    s.relative idx k = .error (.window (BitVec.ofInt 64 ((s.g idx.toNat).toInt + k)).toNat) := if_pos h
theorem relative_inside {s : State} {idx : Reg} {k : Int} {n : Nat} (hsum : (s.g idx.toNat).toInt + k = n) (hwindow : n < s.window)
    (hwritten : s.core.isPending (.g n) = false) : s.relative idx k = .ok n := by
  have hinside : ¬((n : Int) < 0 ∨ (s.window : Int) ≤ n) := by omega
  simp only [State.relative, hsum, if_neg hinside, Int.toNat_natCast, hwritten]
  rfl

/-! Where each operand of the standard layout comes from (R236, R237). -/

section
variable {x : Long} {s : State}

theorem srcA_relative (hrel : x.isRel = true) (hA : x.relA = true) :
    x.srcA s = (s.relative x.a x.kA.toInt).map (fun n => (s.g n).toNat) := by simp [Long.srcA, hrel, hA]
theorem srcB_relative (hrel : x.isRel = true) (hB : x.relB = true) :
    x.srcB s = (s.relative x.b x.kB.toInt).map (fun n => (s.g n).toNat) := by simp [Long.srcB, hrel, hB]
theorem dst_relative (hrel : x.isRel = true) (hD : x.relD = true) : x.dst s = s.relative x.d x.kD.toInt := by
  simp [Long.dst, hrel, hD]

section
variable (hrel : x.isRel = false)
include hrel

theorem srcA_register : x.srcA s = .ok (s.g x.a.toNat).toNat := by simp [Long.srcA, hrel]
theorem srcC_register : x.srcC s = .ok (s.g x.c.toNat).toNat := by simp [Long.srcC, hrel]
theorem dst_register : x.dst s = .ok x.d.toNat := by simp [Long.dst, hrel]
theorem srcB_register (hform : x.form ≠ 1) : x.srcB s = .ok (s.g x.b.toNat).toNat := by simp [Long.srcB, hrel, hform]
theorem srcB_immediate (hform : x.form = 1) (hnarrow : x.wide = false) : x.srcB s = .ok (x.hi.signExtend 64).toNat := by
  simp [Long.srcB, hrel, hform, hnarrow, imm12]
theorem srcB_literal (hform : x.form = 1) (hwide : x.wide = true) : x.srcB s = .ok (literal x.ty x.lit) := by
  simp [Long.srcB, hrel, hform, hwide]
end
end

theorem literal_signed {t : TyCode} (v : BitVec 32) (h : isSigned t = true) : literal t v = (v.signExtend 64).toNat := if_pos h
theorem literal_unsigned {t : TyCode} (v : BitVec 32) (h : isUnsigned t = true) : literal t v = v.toNat := by
  have hrange : 4 ≤ t.toNat ∧ t.toNat < 8 := of_decide_eq_true h
  have hsigned : ¬isSigned t = true := by simp [isSigned]; omega
  have hdouble : t ≠ 11 := by rintro rfl; exact absurd hrange.2 (by decide)
  rw [literal, if_neg hsigned, if_neg hdouble]

/-- The first operand outside the window stops an instruction of two sources before its result is computed. -/
theorem run2_window {x : Long} {f : Fn2} {s : State} {n : Nat}
    (h : x.srcA s = .error (.window n) ∨ (∃ a, x.srcA s = .ok a ∧ x.srcB s = .error (.window n)) ∨
      (∃ a b, x.srcA s = .ok a ∧ x.srcB s = .ok b ∧ x.dst s = .error (.window n))) : x.run2 f s = .error (.window n) := by
  rcases h with ha | ⟨a, ha, hb⟩ | ⟨a, b, ha, hb, hd⟩
  · simp only [Long.run2, ha]; rfl
  · simp only [Long.run2, ha, hb]; rfl
  · simp only [Long.run2, ha, hb, hd]; rfl

/-- Every instruction of the table of two sources runs its function on them. -/
theorem long2_runs : ∀ e ∈ long2, ∀ x s, issues (e.1 x) s = true → ∃ f, exec (e.1 x) s = settle f s (x.run2 e.2 (past (e.1 x) s)) := by
  simp only [long2, List.forall_mem_cons, List.not_mem_nil, false_implies, implies_true, and_true]
  exact ⟨fun x s h => ⟨_, run_add x s h⟩, fun x s h => ⟨_, run_sub x s h⟩, fun x s h => ⟨_, run_mul x s h⟩, fun x s h => ⟨_, run_mulh x s h⟩,
    fun x s h => ⟨_, run_mulhn x s h⟩, fun x s h => ⟨_, run_div x s h⟩, fun x s h => ⟨_, run_divn x s h⟩, fun x s h => ⟨_, run_rem x s h⟩,
    fun x s h => ⟨_, run_remn x s h⟩, fun x s h => ⟨_, run_and x s h⟩, fun x s h => ⟨_, run_andn x s h⟩, fun x s h => ⟨_, run_or x s h⟩,
    fun x s h => ⟨_, run_xor x s h⟩, fun x s h => ⟨_, run_shl x s h⟩, fun x s h => ⟨_, run_shr x s h⟩, fun x s h => ⟨_, run_sha x s h⟩,
    fun x s h => ⟨_, run_rol x s h⟩, fun x s h => ⟨_, run_rotr x s h⟩, fun x s h => ⟨_, run_min x s h⟩, fun x s h => ⟨_, run_max x s h⟩,
    fun x s h => ⟨_, run_minn x s h⟩, fun x s h => ⟨_, run_maxn x s h⟩, fun x s h => ⟨_, run_fadd x s h⟩, fun x s h => ⟨_, run_fsub x s h⟩,
    fun x s h => ⟨_, run_fmul x s h⟩, fun x s h => ⟨_, run_fdiv x s h⟩, fun x s h => ⟨_, run_fmin x s h⟩, fun x s h => ⟨_, run_fmax x s h⟩,
    fun x s h => ⟨_, run_fcpys x s h⟩⟩

end Sys2Proof.Laws
end

section
namespace Sys2Proof.Proofs
open Sys2Proof Sys2Proof.Machine Sys2Proof.Claims Sys2Proof.Laws

/-- Settles O49: the operand answers its register or WINDOW, and the body of two sources ends at the first that answers WINDOW. -/
theorem relativeOperands : Obligations.RelativeOperands := by
  refine ⟨?outside, ?inside, ?faults, ?sourceA, ?sourceB, ?destination, ?direct⟩
  case outside => exact fun s idx k h => relative_outside h
  case inside => exact fun s idx k n hsum hwindow hwritten => relative_inside hsum hwindow hwritten
  case faults =>
    intro e he x s n h hfirst
    obtain ⟨f, hrun⟩ := long2_runs e he x s h
    rw [hrun, run2_window hfirst, settle_window]
  case sourceA => exact fun x s hrel hA => srcA_relative hrel hA
  case sourceB => exact fun x s hrel hB => srcB_relative hrel hB
  case destination => exact fun x s hrel hD => dst_relative hrel hD
  case direct =>
    intro x s hrel
    refine ⟨srcA_register hrel, srcC_register hrel, dst_register hrel, srcB_register hrel, srcB_immediate hrel, ?_, ?_⟩
    · exact fun hform hwide hsigned => by rw [srcB_literal hrel hform hwide, literal_signed _ hsigned]
    · exact fun hform hwide hunsigned => by rw [srcB_literal hrel hform hwide, literal_unsigned _ hunsigned]

end Sys2Proof.Proofs
end

section
/-! 07 R181, R193 to R197, 11 R276, R278, R279: the ends of an activation's instructions, and its gang. -/
namespace Sys2Proof.Laws
open Sys2Proof Sys2Proof.Machine Sys2Proof.Claims

/-! GANG (R193, R278), outside a gang and outside diagnostic mode. -/

/-- The cores that GANG waits for: those it has asked, else the named ones that can join. -/
def askedCores (x : Long) (u : State) (a : Act) (t : Psn) : List (Nat × Psn) :=
  if a.joining = [] then (((List.range 4).filter (fun k => x.hi.toNat % 16 / 2 ^ k % 2 == 1)).filterMap (fun k =>
    (gangCore t k).map (fun p => (k, p)))).filter (fun n => u.canJoin a n.2)
  else a.joining

section
variable {x : Long} {u : State} {a : Act} (hact : u.core.act = some a) (halone : a.gang = none) (hmode : u.core.matMode = false)
include hact halone hmode

theorem gangBody_nowhere (hnone : (u.homeTile u.core).bind (fun t => gangCode t u.core.psn) = none) :
    gangBody x u = .ok (u.setG x.d.toNat (BitVec.ofNat 64 (x.hi.toNat % 16 * 16))) := by
  have hplace : (u.homeTile u.core).bind (fun t => (gangCode t u.core.psn).map (fun k => (t, k))) = none := by
    cases htile : u.homeTile u.core with
    | none => rfl
    | some t => simpa [htile] using hnone
  simp [gangBody, hact, halone, hmode, hplace]

theorem gangBody_settled {t : Psn} {own : Nat} {asked here : List (Nat × Psn)} (htile : u.homeTile u.core = some t)
    (hcode : gangCode t u.core.psn = some own) (hother : x.hi.toNat % 16 / 2 ^ own % 2 = 0)
    (hasked : asked = askedCores x u a t) (hhere : here = asked.filter (fun n => u.hasJoined u.core.psn n.2))
    (hsettled : ∀ n ∈ asked, u.hasJoined u.core.psn n.2 = true ∨ u.canJoin a n.2 = false) :
    gangBody x u = .ok ((if here = [] then u.mapAct (fun a => { a with joining := [] }) else u.formGang here).setG x.d.toNat
      (BitVec.ofNat 64 (codesMask here + (x.hi.toNat % 16 - codesMask here) * 16))) := by
  have hwaits : asked.filter (fun n => !u.hasJoined u.core.psn n.2 && u.canJoin a n.2) = [] :=
    List.filter_eq_nil_iff.mpr fun n hn => by rcases hsettled n hn with h | h <;> simp [h]
  unfold askedCores at hasked
  simp [gangBody, hact, halone, hmode, htile, hcode, hother, ← hasked, ← hhere, hwaits]
end

/-! UNGANG and REJOIN (R196, R197, R279), by the gang of the running activation. -/

/-- What UNGANG leaves: 0 outside a gang, a leader's gang dissolved and its fault word, a member out of its gang. -/
def unganged (a : Act) (d : Nat) (u : State) : State :=
  match a.gang with
  | none => u.setG d 0
  | some g => if g.position = 0
    then ((u.dissolve { g with leader := u.core.psn }).mapAct (fun a => { a with gang := none })).setG d (g.faults &&& 0xF)
    else (u.mapAct (fun a => { a with gang := none })).setG d 0

theorem ungangBody_act {u : State} {a : Act} (d : Nat) (hact : u.core.act = some a) : ungangBody d u = .ok (unganged a d u) := by
  cases hgang : a.gang with
  | none => simp [ungangBody, unganged, hact, hgang]
  | some g => by_cases hlead : g.position = 0 <;> simp [ungangBody, unganged, hact, hgang, hlead]

/-- What REJOIN k leaves: a leader's members released, a detached member waiting at it. -/
def rejoined (a : Act) (k length : Nat) (u : State) : State :=
  match a.gang with
  | none => u
  | some g => if g.position = 0 then u.releaseMembers g k
    else if g.attached then u
    else (u.mapAct (fun a => { a with gang := some { g with rejoin := some (k, length) } })).stay length

theorem rejoinBody_act {u : State} {a : Act} (k length : Nat) (hact : u.core.act = some a)
    (hsettled : ∀ g, a.gang = some g → g.position = 0 → g.members.all (u.memberSettled u.core.psn) = true) :
    rejoinBody k length u = .ok (rejoined a k length u) := by
  cases hgang : a.gang with
  | none => simp [rejoinBody, rejoined, hact, hgang]
  | some g =>
    by_cases hlead : g.position = 0
    · have hall := hsettled g hgang hlead
      simp only [rejoinBody, rejoined, hact, hgang, Option.bind, if_pos hlead, if_pos hall]
    · cases hattached : g.attached <;> simp [rejoinBody, rejoined, hact, hgang, hlead, hattached]

end Sys2Proof.Laws
end

section
namespace Sys2Proof.Proofs
open Sys2Proof Sys2Proof.Machine Sys2Proof.Claims Sys2Proof.Laws

theorem endAndNop : EndAndNop :=
  ⟨fun x s h => (run_endI x s h).trans (settle_ok _ _ _), fun x s h => (run_endL32A x s h).trans (settle_ok _ _ _),
    fun x s h => (run_nop x s h).trans (settle_ok _ _ _), fun x s h => (run_nopL32A x s h).trans (settle_ok _ _ _)⟩

theorem gangInstructions : GangInstructions := by
  refine ⟨?nowhere, ?forms, ?ungang, ?ungangShort, ?rejoin, ?rejoinShort⟩
  case nowhere => exact fun x s a h hact halone hmode hnone => run_body_ok (run_gang x s h) (gangBody_nowhere hact halone hmode hnone)
  case forms =>
    exact fun x s a t own asked here h hact halone hmode htile hcode hother hasked hhere hsettled =>
      run_body_ok (run_gang x s h) (gangBody_settled (u := past (.gang x) s) hact halone hmode htile hcode hother hasked hhere hsettled)
  case ungang => exact fun x s a h hact => run_body_ok (run_ungang x s h) (ungangBody_act _ hact)
  case ungangShort => exact fun x s a h hact => run_body_ok (run_ungangL32A x s h) (ungangBody_act _ hact)
  case rejoin => exact fun x s a h hact hsettled => run_body_ok (run_rejoin x s h) (rejoinBody_act _ _ hact hsettled)
  case rejoinShort => exact fun x s a h hact hsettled => run_body_ok (run_rejoinL32A x s h) (rejoinBody_act _ _ hact hsettled)

/-- Settles O6: END and NOP run their bodies, and GANG, UNGANG and REJOIN by the gang of the running activation. -/
theorem endNopAndGangs : Obligations.EndNopAndGangs := ⟨endAndNop, gangInstructions⟩

end Sys2Proof.Proofs
end

section
/-! 07 R185, R187, 12 R309 to R314, 03 R99: counters, the waits on them, batches, and the successor hint. -/
namespace Sys2Proof.Laws
open Sys2Proof Sys2Proof.Machine Sys2Proof.Claims

/-! Counters of the core (R185, R309). -/

theorem satAdd_toNat (a : Word) (n : Nat) : (satAdd a n).toNat = min (a.toNat + n) (2 ^ 64 - 1) := by
  unfold satAdd
  split
  · next hfits => rw [BitVec.toNat_ofNat, Nat.mod_eq_of_lt hfits]; omega
  · next hover => rw [BitVec.toNat_allOnes]; omega
theorem addQ_saturates (c : Core) {q : Nat} (n : Nat) (hq : q < 64) :
    (at_ (c.addQ q n).q q 0).toNat = min ((at_ c.q q 0).toNat + n) (2 ^ 64 - 1) := by
  rw [Core.addQ, at_put _ _ _ _ hq, satAdd_toNat]

theorem addBody_ok {q : Nat} {n : State → Nat} {u : State} (h : q < 48 ∨ u.level ≠ .graph) :
    addBody q n u = .ok (u.mapCore (·.addQ q (n u))) :=
  if_neg fun ⟨hq, hgraph⟩ => h.elim (Nat.not_lt.mpr hq) (· hgraph)

/-- An increment by its form: the counter of the core's own grows by its number. -/
theorem exec_adds {i : Instr} {f : Form} {s : State} {n : State → Nat} (d : Reg)
    (run : exec i s = settle f s (addBody d.toNat n (past i s))) (h : d.toNat < 48 ∨ s.level ≠ .graph) (hn : n (past i s) = n s) :
    ∃ t, exec i s = .next t ∧ t = (past i s).mapCore (·.addQ d.toNat (n s)) ∧
      (at_ t.core.q d.toNat 0).toNat = min ((at_ s.core.q d.toNat 0).toNat + n s) (2 ^ 64 - 1) :=
  ⟨_, run_body_ok run (hn ▸ addBody_ok h), rfl, addQ_saturates _ _ d.isLt⟩

/-! Reads and posts (R309, R310). -/

theorem qrdBody_core {d ref : Nat} {u : State} (hcore : ref < 64) : qrdBody d ref u = .ok (u.setG d (u.core.getQ ref)) := if_pos hcore
theorem qrdBody_tile {d ref : Nat} {u : State} {a : Act} {t : Psn} (hstore : 64 ≤ ref) (hact : u.core.act = some a)
    (htile : u.homeTile u.core = some t) (hroom : u.hasRoom a Order.none [] = true) :
    qrdBody d ref u = .ok ((u.setG d 0).tileAccess a 0xFF t 0 opCounterRead (ref - 64) [] (.gpr d 0 7) Order.none) := by
  simp [qrdBody, Nat.not_lt.mpr hstore, hact, htile, hroom]

theorem qpostBody_core {a ref : Nat} {n : State → Nat} {o : State → Order} {u : State} {act : Act} (hact : u.core.act = some act)
    (hallowed : ref < 48 ∨ u.level ≠ .graph) (hcore : ref < 64) (hname : fld (u.g a) 63 24 = 0) :
    qpostBody a ref n o u = .ok ((u.launchItem (.message
      { message u.core.psn (psnRegion u.core.psn) u.core.name ((u.g a).extractLsb' 0 24) 31 (postPayload (n u) true ref) with
        deps := (o u).after, acks := u.nextId })).leaveTokens (o u) [u.nextId]) := by
  have hpriv : ¬(48 ≤ ref ∧ ref < 64 ∧ u.level = .graph) := fun ⟨hq, _, hgraph⟩ => hallowed.elim (Nat.not_lt.mpr hq) (· hgraph)
  simp only [qpostBody, hact, if_neg hpriv, if_pos hcore, if_neg (not_not_intro hname)]

theorem qpostBody_tile {a ref : Nat} {n : State → Nat} {o : State → Order} {u : State} {act : Act} {t : Psn} (hact : u.core.act = some act)
    (hstore : 64 ≤ ref) (hindex : fld (u.g a) 63 8 = 0) (htile : u.storeTile u.core (fld (u.g a) 7 0) = some t)
    (hroom : u.hasRoom act (o u) [] = true) :
    qpostBody a ref n o u =
      .ok (u.tileAccess act (fld (u.g a) 7 0) t 0 opCounterPost (ref - 64) (leBytes 8 (n u)) .none (o u)) := by
  have hcore : ¬ref < 64 := Nat.not_lt.mpr hstore
  simp [qpostBody, hact, hcore, hindex, htile, hroom]

/-! WAITQ (R187, R311). -/

section
variable {len : Nat} {pairs : List (Nat × Word)} {mask : Word} {u : State} {a : Act} (hact : u.core.act = some a)
  (hunbound : u.core.bindsAny a.entry = false) (hrefs : pairs.any (fun p => decide (80 ≤ p.1)) = false)
  (hmask : maskOk mask a.window = true) (hplace : pairs.any (fun p => decide (64 ≤ p.1)) = false ∨ (u.homeTile u.core).isSome)
  (hnew : (u.homeTile u.core).bind (fun t => (u.getTile t).reservedBy u.core.psn) = none)
include hact hunbound hrefs hmask hplace hnew

/-- The checks passed and no record allocated yet: reached at issue it goes on, else it looks for a free short record. -/
theorem waitOn_checked : waitOn len pairs mask u =
    if u.allReached u.core.psn ((u.homeTile u.core).getD 0) pairs then .ok (u.mapAct (fun a => { a with waits := [] }))
    else match (u.homeTile u.core).bind (fun t => ((u.getTile t).freeShort).map (fun i => (t, i))) with
    | none => .ok ((u.mapAct (fun a => { a with waits := pairs })).stay len)
    | some (t, i) => if u.drained u.core.psn a.serial then .ok (u.leaveGang.suspend t i pairs mask false)
      else .ok (((u.modTile t (·.reserve u.core.psn i)).mapAct (fun a => { a with waits := pairs })).stay len) := by
  have hhome : ¬((u.homeTile u.core).isNone = true ∧ pairs.any (fun p => decide (64 ≤ p.1)) = true) := by
    rintro ⟨hnone, hany⟩
    rcases hplace with h | h
    · simp [h] at hany
    · simp [Option.isNone_iff_eq_none.mp hnone] at h
  have hfirst : (u.homeTile u.core).bind (fun t => ((u.getTile t).reservedBy u.core.psn).map (fun i => (t, i))) = none := by
    cases htile : u.homeTile u.core with
    | none => rfl
    | some t => simpa [htile] using hnew
  simp only [waitOn, hact, hunbound, hrefs, hmask, if_neg hhome, hfirst]
  rfl

theorem waitOn_reached (hreached : u.allReached u.core.psn ((u.homeTile u.core).getD 0) pairs = true) :
    waitOn len pairs mask u = .ok (u.mapAct (fun a => { a with waits := [] })) := by
  rw [waitOn_checked hact hunbound hrefs hmask hplace hnew, if_pos hreached]

theorem waitOn_suspends {t : Psn} {k : Nat} (hshort : u.allReached u.core.psn ((u.homeTile u.core).getD 0) pairs = false)
    (htile : u.homeTile u.core = some t) (hfree : (u.getTile t).freeShort = some k) (hdrained : u.drained u.core.psn a.serial = true) :
    waitOn len pairs mask u = .ok (u.leaveGang.suspend t k pairs mask false) := by
  rw [waitOn_checked hact hunbound hrefs hmask hplace hnew, hshort]
  simp [htile, hfree, hdrained]
end

/-- A run of bytes that meets no uncorrectable error has no part that meets one. -/
theorem spoiled_shorter {s : State} {key m n : Nat} (h : s.spoiled key n = false) (hmn : m ≤ n) : s.spoiled key m = false := by
  rw [State.spoiled, List.any_eq_false] at h ⊢
  intro e he hm
  refine h e he ?_
  simp only [wordTouched, Bool.and_eq_true, decide_eq_true_eq] at hm ⊢
  obtain ⟨hfatal, hstart, hend⟩ := hm
  exact ⟨hfatal, hstart, by omega⟩

/-- The counter that entry k of the wait descriptor at p names, and the pairs of a descriptor of n entries (R311). -/
def waitRef (u : State) (p k : Nat) : Nat := ofLe (u.bytes (localKey u.core.psn p + 8 + 16 * k) 8)
def waitPairs (u : State) (p n : Nat) : List (Nat × Word) :=
  (List.range n).map (fun k => (waitRef u p k, BitVec.ofNat 64 (ofLe (u.bytes (localKey u.core.psn p + 16 + 16 * k) 8))))

theorem waitPairs_of_refs (u : State) (p n : Nat) :
    (List.range n).map (fun k => (((List.range n).map (fun k => waitRef u p k)).getD k 0,
      BitVec.ofNat 64 (ofLe (u.bytes (localKey u.core.psn p + 16 + 16 * k) 8)))) = waitPairs u p n :=
  List.map_congr_left fun k hk => by simp [List.mem_range.mp hk]

/-- The wait descriptor behind its checks (R311). -/
theorem waitDescriptor_ok {len n p : Nat} {a mask : State → Word} {u t : State} (hp : p = (a u).toNat) (halign : p % 8 = 0)
    (hhead : p + 8 ≤ 0x18000) (hidle : u.localBusy = false) (hn : n = ofLe (u.bytes (localKey u.core.psn p) 8)) (hlow : 1 ≤ n) (hhigh : n ≤ 4)
    (hend : p + 8 + 16 * n ≤ 0x18000) (hrefs : ∀ k < n, waitRef u p k < 80)
    (hsound : u.spoiled (localKey u.core.psn p) (8 + 16 * n) = false) (hwait : waitOn len (waitPairs u p n) (mask u) u = .ok t) :
    waitDescriptor len a mask u = .ok (t.noteRead (localKey u.core.psn p) (8 + 16 * n)) := by
  have hcount : ¬(n = 0 ∨ 4 < n) := by omega
  have hany : ((List.range n).map (fun k => waitRef u p k)).any (fun r => decide (80 ≤ r)) = false := by
    simpa [List.any_eq_false] using hrefs
  have hpairs := waitPairs_of_refs u p n
  unfold waitRef at hany hpairs
  simp only [waitDescriptor, ← hp, ← hn, if_neg (not_not_intro halign), if_neg (Nat.not_lt.mpr hhead), hidle,
    spoiled_shorter hsound (Nat.le_add_right 8 _), if_neg hcount, if_neg (Nat.not_lt.mpr hend), hsound, hany, hpairs, hwait]
  rfl

/-- WAITQ with its pair in the instruction runs the wait itself; with SUB 1 it reads its descriptor first (R311). -/
theorem exec_waitq_pair {x : Long} {s t : State} (h : issues (.waitq x) s = true) (hpair : x.sub ≠ 1)
    (hwait : waitOn x.bytes [(x.hi.toNat % 128, s.g x.b.toNat)] (s.g x.c.toNat) (past (.waitq x) s) = .ok t) :
    exec (.waitq x) s = .next t := (run_waitq x s h).trans (settle_next _ _ _ _ ((if_neg hpair).trans hwait))
theorem exec_waitq_descriptor {x : Long} {s t : State} (h : issues (.waitq x) s = true) (hlist : x.sub = 1)
    (hwait : waitDescriptor x.bytes (·.g x.a.toNat) (·.g x.c.toNat) (past (.waitq x) s) = .ok t) :
    exec (.waitq x) s = .next t := (run_waitq x s h).trans (settle_next _ _ _ _ ((if_pos hlist).trans hwait))

/-! Batches, visibility and the successor hint (R99, R312 to R314). -/

theorem closeBatch_empty {u : State} (h : u.core.batch = []) :
    closeBatch u = .ok (u.mapCore (fun c => { c with batches := u.core.outstanding })) := if_pos h
theorem waitbBody_reached {len n : Nat} {u t : State} (hclosed : closeBatch u = .ok t) (hfew : t.core.outstanding.length ≤ n) :
    waitbBody len n u = .ok t := by
  simp only [waitbBody, hclosed, bind, Except.bind, if_neg (Nat.not_lt.mpr hfew)]
  rfl

/-- What SUCCHINT leaves: a graph with SUCC is marked (R394). -/
def successorHinted (p : Psn) (u : State) : State :=
  match u.graphOn p with
  | none => u
  | some g => if g.header.getLsbD 21 then u.putGraph { g with hinted := true } else u
theorem succhintBody_ok (u : State) : succhintBody u = .ok (successorHinted u.core.psn u) := by
  cases hgraph : u.graphOn u.core.psn with
  | none => simp [succhintBody, successorHinted, hgraph]
  | some g => simp [succhintBody, successorHinted, hgraph, lhSucc, bit]

end Sys2Proof.Laws
end

section
namespace Sys2Proof.Proofs
open Sys2Proof Sys2Proof.Machine Sys2Proof.Claims Sys2Proof.Laws

theorem counterIncrements : CounterIncrements := by
  refine ⟨?long, ?short, ?shortAdd⟩
  case long =>
    simp only [List.forall_mem_cons, List.not_mem_nil, false_implies, implies_true, and_true]
    exact ⟨fun x s h hallowed => exec_adds x.d (run_qinc x s h) hallowed rfl,
      fun x s h hallowed => exec_adds x.d (run_qadd x s h) hallowed rfl⟩
  case short => exact fun x s h hallowed => run_body_ok (run_qincL32A x s h) (addBody_ok hallowed)
  case shortAdd => exact fun x s h hallowed => run_body_ok (run_qaddL32B x s h) (addBody_ok hallowed)

theorem counterReadsAndWaits : CounterReadsAndWaits := by
  refine ⟨?reads, ?readsTile, ?posts, ?postsTile, ?waits, ?waitsOnList, ?batch, ?batchEmpty, ?waitb, ?waitvis, ?succhint, ?succhintShort⟩
  case reads => exact fun x s hcore h => run_body_ok (run_qrd x s hcore) (qrdBody_core h)
  case readsTile =>
    exact fun x s a t h hstore hact htile hroom => run_body_ok (run_qrd x s h) (qrdBody_tile hstore hact htile hroom)
  case posts =>
    rintro x s a _ h hact rfl hallowed hcore hname
    exact run_body_ok (run_qpost x s h) (qpostBody_core hact hallowed hcore hname)
  case postsTile =>
    rintro x s a t _ h hact rfl hstore hindex htile hroom
    exact run_body_ok (run_qpost x s h) (qpostBody_tile hact hstore hindex htile hroom)
  case waits =>
    rintro x s a _ h hact hpair rfl href hmask hunbound hplace hnew
    have hrefs : [(x.hi.toNat % 128, s.g x.b.toNat)].any (fun p => decide (80 ≤ p.1)) = false := by simpa using href
    have hhome : [(x.hi.toNat % 128, s.g x.b.toNat)].any (fun p => decide (64 ≤ p.1)) = false ∨ (s.homeTile s.core).isSome := by
      simpa using hplace
    exact ⟨fun hreached => exec_waitq_pair h hpair (waitOn_reached (u := past (.waitq x) s) hact hunbound hrefs hmask hhome hnew hreached),
      fun hshort t k htile hfree hdrained =>
        exec_waitq_pair h hpair (waitOn_suspends (u := past (.waitq x) s) hact hunbound hrefs hmask hhome hnew hshort htile hfree hdrained)⟩
  case waitsOnList =>
    exact fun x s p n t h hlist hp halign hhead hidle hn hlow hhigh hend hrefs hsound hwait =>
      exec_waitq_descriptor h hlist (waitDescriptor_ok hp halign hhead hidle hn hlow hhigh hend hrefs hsound hwait)
  case batch => exact fun x s t h hclosed => run_body_ok (run_batch x s h) hclosed
  case batchEmpty => exact fun x s h hempty => run_body_ok (run_batch x s h) (closeBatch_empty hempty)
  case waitb => exact fun x s t h hclosed hfew => run_body_ok (run_waitb x s h) (waitbBody_reached hclosed hfew)
  case waitvis => exact fun x s h hreached => run_body_ok (run_waitvis x s h) (if_pos hreached)
  case succhint => exact fun x s h => run_body_ok (run_succhint x s h) (succhintBody_ok _)
  case succhintShort => exact fun x s h => run_body_ok (run_succhintL32A x s h) (succhintBody_ok _)

/-- Settles O14: each instruction runs its body on the state past it, and the body's checks pass. -/
theorem counterInstructions : Obligations.CounterInstructions := ⟨counterIncrements, counterReadsAndWaits⟩

end Sys2Proof.Proofs
end

section
/-! 07 R177, R180 to R183, R190, R191, R193, R194: the run queue, fresh and resumed activations, and the members of a gang. -/
namespace Sys2Proof.Laws
open Sys2Proof Sys2Proof.Machine Sys2Proof.Claims

/-! Firing and starting (R177, R180, R182). -/

theorem exec_entryFire_room {s : State} {core : Psn} {e : Nat} (hcore : isGridCore core = true) (he : e < 20)
    (hfires : (s.getCore core).fireable e = true) (hroom : (s.getCore core).runq.length < 32) (hlive : (s.getCore core).live = true)
    (hgoing : (s.getCore core).halting = false) : exec (.entryFire core e) s = .next (s.fireEntry core e none) := by
  have hunit : ¬((!isGridCore core) = true ∨ 20 ≤ e) := by simpa [hcore] using he
  simp only [exec_entryFire, execEntryFire, if_neg hunit]
  exact event_enabled (by simp [hfires, hroom, hlive, hgoing])

theorem fireEntry_room {s : State} {core : Psn} {e : Nat} {c : Core} (hc : c = s.getCore core) (hroom : c.runq.length < 32) :
    s.fireEntry core e none = s.putCore (({ c with
      runq := c.runq ++ [{ level := hPrio (c.handler e), ready := s.tsc.toNat, entry := e, cont := none, start := none, promoted := s.tsc.toNat
                           filled := c.filled e, ending := c.endOwed.getLsbD e && decide (c.filled e = 0) }] } : Core).setActive e true) := by
  rw [State.fireEntry, State.modCore, ← hc, if_neg (Nat.not_le.mpr hroom)]

theorem exec_activationStart_next {s : State} {core : Psn} {r : RunEntry} (hnext : (s.getCore core).nextEntry = some r)
    (hstart : s.canStart core = true) : exec (.activationStart core) s = .next (s.startEntry core r) := by
  simp only [exec_activationStart, execActivationStart, hnext]
  exact event_enabled hstart

/-- The core that the start of a message leaves: fresh for its entry, which counts the firing (R180, R192). -/
def messageCore (s : State) (core : Psn) (r : RunEntry) (c : Core) : Core :=
  (s.freshAct { c with runq := c.runq.filter (· != r) } r.entry r.level (BitVec.ofNat 64 r.filled)
    (s.descriptorWord core (hDesc (c.handler r.entry)) 256 + BitVec.ofNat 64 (hFirings (c.handler r.entry))) none).setHandler r.entry
      (setFld (c.handler r.entry) 63 32 (hFirings (c.handler r.entry) + 1))

theorem startMessage_fired {s : State} {core : Psn} {r : RunEntry} (hmessage : r.start = none) (hentry : r.entry < 19)
    (hmore : r.ending = false) :
    s.startMessage core r = { s.putCore (messageCore s core r (s.getCore core)) with nextSerial := s.nextSerial + 1 } := by
  have hfires : ¬(r.entry = 19 ∨ r.isStart = true) := by simp [RunEntry.isStart, hmessage, Nat.ne_of_lt hentry]
  have hcounts : ¬r.isStart = true := fun h => hfires (.inr h)
  simp only [State.startMessage, messageCore, if_neg hfires, if_neg hcounts, hmessage, hmore, putCore_nextSerial]
  rfl

theorem messageCore_startsFresh (s : State) (r : RunEntry) (c : Core) (core : Psn) :
    startsFresh s { c with runq := c.runq.filter (· != r) } (messageCore s core r c) r.entry r.level (BitVec.ofNat 64 r.filled)
      (s.descriptorWord core (hDesc (c.handler r.entry)) 256 + BitVec.ofNat 64 (hFirings (c.handler r.entry))) :=
  ⟨rfl, rfl, rfl, rfl, rfl, rfl, _, rfl, rfl, rfl, rfl, rfl, rfl, rfl, rfl⟩

/-! Promotion, and the resumption of a short record (R183, R190). -/

theorem exec_runqPromotion_due {s : State} {core : Psn} {place : Nat} {r : RunEntry} (hplace : (s.getCore core).runq[place]? = some r)
    (hlevel : r.level < 3) (hdue : r.promoted + (s.getRegion (psnRegion core)).runqAge.toNat ≤ s.tsc.toNat) :
    exec (.runqPromotion core place) s = .next (s.putCore { s.getCore core with
      runq := (s.getCore core).runq.set place { r with level := r.level + 1, promoted := r.promoted + (s.getRegion (psnRegion core)).runqAge.toNat } }) := by
  simp only [exec_runqPromotion, execRunqPromotion, hplace]
  exact event_enabled (decide_eq_true ⟨hlevel, hdue⟩)

theorem exec_continuationReady_offers {s : State} {tile : Psn} {i : Nat} {r : Record} (hrecord : (s.getTile tile).record i = some r)
    (hlive : r.doomed = none) (hready : r.ready = true ∨ (r.full = none ∧ s.allReached r.src tile r.pairs = true)) :
    exec (.continuationReady tile i) s = .next (s.offer tile i) := by
  simp only [exec_continuationReady, execContinuationReady, hrecord]
  refine event_enabled ?_
  rcases hready with h | ⟨hshort, hreached⟩
  · simp [hlive, h]
  · simp [hlive, hshort, hreached]

theorem exec_continuationResume_next {s : State} {core tile : Psn} {i : Nat} {e : RunEntry} (hnext : (s.getCore core).nextEntry = some e)
    (hstart : s.canStart core = true) (hcont : e.cont = some (tile, i)) :
    exec (.continuationResume core tile i) s = .next (s.startEntry core e) := by
  simp only [exec_continuationResume, execContinuationResume, hnext]
  exact event_enabled (by simp [hstart, hcont])

@[simp] theorem putCore_getTile (s : State) (c : Core) (t : Psn) : (s.putCore c).getTile t = s.getTile t := by
  unfold State.putCore; split <;> rfl
@[simp] theorem modCore_getTile (s : State) (p : Psn) (f : Core → Core) (t : Psn) : (s.modCore p f).getTile t = s.getTile t :=
  putCore_getTile _ _ _
@[simp] theorem modCore_nextSerial (s : State) (p : Psn) (f : Core → Core) : (s.modCore p f).nextSerial = s.nextSerial :=
  putCore_nextSerial _ _
@[simp] theorem modTile_nextSerial (s : State) (p : Psn) (f : Tile → Tile) : (s.modTile p f).nextSerial = s.nextSerial := rfl

/-- A ready short record of no gang, offered to no other core: it is freed, and the core takes its registers. -/
theorem startCont_short {s : State} {core tile : Psn} {i : Nat} {e : RunEntry} {r : Record} (hrecord : (s.getTile tile).record i = some r)
    (hready : r.ready = true) (hshort : r.full = none) (halone : r.gang = none) (hoffered : r.offered = []) {u : State}
    (hu : u = (s.modCore core (fun c => { c with runq := c.runq.filter (· != e) })).modTile tile (·.dropRecord i)) :
    s.startCont core e tile i = { u.putCore (u.resumeShort (u.getCore core) r e.level) with nextSerial := s.nextSerial + 1 } := by
  have hserial : u.nextSerial = s.nextSerial := by simp [hu]
  cases r
  simp only at hready hshort halone hoffered
  subst hready hshort halone hoffered
  simp only [State.startCont, modCore_getTile, hrecord, List.foldl_nil, Option.filter_none, putCore_nextSerial, ← hu, hserial]
  rfl

/-! Conversion (R191), and the members of a gang (R193, R194). -/

theorem exec_convert_halted {s : State} {core : Psn} {act : Act} {f : FaultInfo} (hact : (s.getCore core).act = some act)
    (hhalted : act.halted = some f) (hcan : s.canConvert core = true) :
    exec (.faultedContinuationConvert core) s = .next (s.faultCore core f) := by
  simp only [exec_faultedContinuationConvert, execFaultedContinuationConvert, hact, Option.bind_some, hhalted]
  exact event_enabled hcan

theorem exec_gangMemberJoin_asked {s : State} {core : Psn} {l : Core} {a : Act} (hasked : s.askedBy core = some l) (hact : l.act = some a)
    (hfree : (s.getCore core).act = none) (hjoins : s.canJoin a core = true) (hroom : (s.getCore core).unsent.length < 4)
    (hgoing : (s.getCore core).halting = false) : exec (.gangMemberJoin core) s = .next (s.join core l a) := by
  simp only [exec_gangMemberJoin, execGangMemberJoin, hasked, hact]
  exact event_enabled (by simp [hfree, hjoins, hgoing, State.canNotice, hroom])

theorem exec_gangRelay_receives {s : State} {core : Psn} {a : Act} {g : Gang} {r : Relay} {rest : List Relay}
    (hact : (s.getCore core).act = some a) (hrun : a.halted = none) (hgang : a.gang = some g) (hattached : g.attached = true)
    (hrelayed : g.relayed = r :: rest) (hidle : g.received = none) : exec (.gangRelay core) s = .next (s.receive core) := by
  simp only [exec_gangRelay, execGangRelay, hact]
  exact event_enabled (by simp [hrun, hgang, hattached, hrelayed, hidle])

theorem receive_first {s : State} {core : Psn} {a : Act} {g : Gang} {r : Relay} {rest : List Relay}
    (hact : (s.getCore core).act = some a) (hgang : a.gang = some g) (hrelayed : g.relayed = r :: rest) :
    s.receive core = (s.putCore { s.getCore core with act := some { a with gang := some { g with received := some r, relayed := rest } } }).focus core := by
  simp only [State.receive, State.modCore, hact, Option.map_some, hgang, hrelayed, List.head?_cons, List.tail_cons]

end Sys2Proof.Laws
end

section
namespace Sys2Proof.Proofs
open Sys2Proof Sys2Proof.Machine Sys2Proof.Claims Sys2Proof.Laws

theorem runQueueSteps : RunQueueSteps := by
  refine ⟨?fires, ?starts, ?rises, ?offered, ?resumes, ?converts⟩
  case fires =>
    rintro s core e _ hcore he rfl hfires hroom hlive hgoing
    rw [exec_entryFire_room hcore he hfires hroom hlive hgoing, fireEntry_room rfl hroom]
  case starts =>
    rintro s core r _ rfl hnext hstart hcont hmessage hentry hmore
    refine ⟨messageCore s core r (s.getCore core), ?_, getCore_psn s core, messageCore_startsFresh s r _ core⟩
    rw [exec_activationStart_next hnext hstart, State.startEntry, hcont, startMessage_fired hmessage hentry hmore]
  case rises =>
    rintro s core place r _ rfl hplace hlevel hdue
    exact exec_runqPromotion_due hplace hlevel hdue
  case offered => exact fun s tile i r hrecord hlive hready => exec_continuationReady_offers hrecord hlive hready
  case resumes =>
    rintro s core tile i r e _ u rfl hnext hstart hcont hrecord hready hshort halone hoffered hu
    rw [exec_continuationResume_next hnext hstart hcont]
    simp only [State.startEntry, hcont, hrecord, hshort, hready, if_true, startCont_short hrecord hready hshort halone hoffered hu]
  case converts => exact fun s core act f hact hhalted hcan => exec_convert_halted hact hhalted hcan

theorem gangSteps : GangSteps := by
  refine ⟨?joins, ?receives⟩
  case joins =>
    rintro s core l a _ hasked hact hfree hjoins hroom hgoing rfl
    simp only [exec_gangMemberJoin_asked hasked hact hfree hjoins hroom hgoing, State.join, putCore_nextSerial]
  case receives =>
    intro s core a g r rest hact hrun hgang hattached hrelayed hidle
    rw [exec_gangRelay_receives hact hrun hgang hattached hrelayed hidle, receive_first hact hgang hrelayed]

/-- Settles O40: each step by what enables it, and by what it leaves of the core and of the record. -/
theorem activationSteps : Obligations.ActivationSteps := ⟨runQueueSteps, gangSteps⟩

end Sys2Proof.Proofs
end

section
/-! 08 R201, R205 to R220, 12 R321 to R323, 14 R393, 17 R439: the tiles, firings and control items of operand rings, the rounds of reduction trees,
and the queries of units. -/
namespace Sys2Proof.Laws
open Sys2Proof Sys2Proof.Machine Sys2Proof.Claims

/-! Registers that wait for an item. -/

@[simp] theorem dropItem_getCore (s : State) (id : Nat) (p : Psn) : (s.dropItem id).getCore p = s.getCore p := rfl

/-- An update for a register that waits, where it does wait. -/
theorem modCore_awaited {s : State} {p : Psn} {r : RegName} {id : Nat} {f : Core → Core} (hwaits : (s.getCore p).awaits r id = true) :
    s.modCore p (fun c => if c.awaits r id then f c else c) = s.modCore p f := by
  simp only [State.modCore, if_pos hwaits]

/-! Tiles on the channels (R205, R206, R209). -/

/-- A tile that has landed whole is discarded, cancels its operation or takes the slot that ARRIVE gives it. -/
theorem exec_ringTileArrival_whole {s : State} {id : Nat} {t : RingTile} {r : Ring} (hitem : s.item id = some (.ringTile t))
    (hring : s.ringAt t.region t.ring = some r) (hwhole : tileWhole s r t) : exec (.ringTileArrival id) s =
      let p := r.members.getD t.member r.origin
      let c := s.getCore p
      let done := (s.dropItem id).landTile r t
      let d := c.arrive t.header s.tsc.toNat
      if hdrOp t.header ≠ c.opnum then .next done
      else if c.wrongFormat t.header then event (s.canCancel r 3) s (done.cancelRing t.region r 3)
      else event (c.freeSlots (hdrFam t.header) != []) s ((done.poke (localKey p (slotBase d.1)) t.payload).putCore d.2) := by
  rw [tileWhole] at hwhole
  simp only [exec_ringTileArrival, execRingTileArrival, hitem, hring, hwhole, Bool.not_true, Bool.false_eq_true, if_false]

/-- A tile of the current operation takes the slot that ARRIVE gives it. -/
theorem exec_ringTileArrival_takesSlot {s : State} {id : Nat} {t : RingTile} {r : Ring} {p : Psn} (hitem : s.item id = some (.ringTile t))
    (hring : s.ringAt t.region t.ring = some r) (hp : p = r.members.getD t.member r.origin) (hcurrent : hdrOp t.header = (s.getCore p).opnum)
    (hformat : (s.getCore p).wrongFormat t.header = false) (hfree : (s.getCore p).freeSlots (hdrFam t.header) ≠ []) (hwhole : tileWhole s r t) :
    exec (.ringTileArrival id) s = .next ((((s.dropItem id).landTile r t).poke
      (localKey p (slotBase ((s.getCore p).arrive t.header s.tsc.toNat).1)) t.payload).putCore ((s.getCore p).arrive t.header s.tsc.toNat).2) := by
  simp only [exec_ringTileArrival_whole hitem hring hwhole, ← hp, if_neg (not_not_intro hcurrent), hformat, Bool.false_eq_true, if_false]
  exact event_enabled (bne_iff_ne.mpr hfree)

theorem exec_ringTileForward_member {s : State} {core : Psn} {slot : Nat} {r : Ring} (hcore : isGridCore core = true) (hslot : slot < 8)
    (hring : s.ringOf (s.getCore core) = some r) : exec (.ringTileForward core slot) s =
      let c := s.getCore core
      let h := at_ c.ringHdr slot 0
      if hdrLaps h = 0 then event (c.slotIdle slot) s (s.putCore (c.clearSlot slot))
      else event (c.slotIdle slot && r.formed && s.laneOpen core (c.ringPort (hdrFam h)) (hdrFam h).toNat tileTransfers &&
        decide (s.tilesTo (psnRegion core) r.number (c.nextMember (hdrFam h)) (hdrFam h) <
          ((s.getCore (r.members.getD (c.nextMember (hdrFam h)) r.origin)).freeSlots (hdrFam h)).length)) s (s.forwardTile r core slot) := by
  have hunit : ¬((!isGridCore core) = true ∨ 8 ≤ slot) := by simpa [hcore] using hslot
  simp only [exec_ringTileForward, execRingTileForward, if_neg hunit, hring]

/-! Firings (R210), and the release of idle tiles (R220). -/

theorem exec_ringFiring_sealed {s : State} {core : Psn} {f : Nat × Nat × Nat} {rest : List (Nat × Nat × Nat)}
    (hfirings : (s.getCore core).firings = f :: rest) (hsealed : (s.getCore core).sealed = true) (hmember : (s.getCore core).isMember = true) :
    exec (.ringFiring core) s = .next (s.fire core) := by
  simp only [exec_ringFiring, execRingFiring]
  exact event_enabled (by rw [hfirings, hsealed, hmember]; rfl)

/-- The oldest firing adds its tiles' product, fires its entry and posts to the origin. -/
theorem fire_oldest {s : State} {core : Psn} {j a b : Nat} {rest : List (Nat × Nat × Nat)} {c : Core} {m : Match} {k : Nat}
    (hc : c = s.getCore core) (hfirings : c.firings = (j, a, b) :: rest) (hm : m = c.entry j) (hk : k = ringK (mFmt m)) :
    s.fire core = (s.putCore ({ c.setEntry j (setMState (setHeld (setHeld m false false) true false) 2) with
      firings := rest
      acc := put c.acc (mAcc m) ((at_ c.acc (mAcc m) Acc.zero).addProduct (tileRows (mFmt m) k (s.slotPayload core a))
        (tileRows (mFmt m) k (s.slotPayload core b))) } : Core).settleHolds.dropCopies).launchItem
      (.done (psnRegion core) c.ringNumber (BitVec.ofNat 7 c.opnum)) := by
  subst hm hk
  simp only [State.fire, ← hc, hfirings]

theorem exec_ringIdleRelease_due {s : State} {core : Psn} {w : Bool} (hcore : isGridCore core = true)
    (hdue : (if w then (s.getCore core).oppositeAt.1 else (s.getCore core).oppositeAt.2) + (s.getRegion (psnRegion core)).ringIdle.toNat ≤
      s.tsc.toNat) :
    exec (.ringIdleRelease core w) s = .next (s.putCore ((List.range 64).foldl (fun c j =>
      if mState (c.entry j) = 1 then (if mHeld (c.entry j) w then c.setEntry j (setFld (setHeld (c.entry j) w false) 39 32 0) else c) else c)
      (s.getCore core)).settleHolds) := by
  have hunit : ¬(!isGridCore core) = true := by simp [hcore]
  simp only [exec_ringIdleRelease, execRingIdleRelease, if_neg hunit]
  exact event_enabled (decide_eq_true hdue)

/-! Relights (R211 to R213). -/

theorem exec_relightRequestSend_missed {s : State} {core : Psn} {j : Nat} {r : Ring} (hcore : isGridCore core = true) (hj : j < 64)
    (hring : s.ringOf (s.getCore core) = some r) (hmissed : mState ((s.getCore core).entry j) = 3) (hidle : (s.getCore core).queued j = false) :
    exec (.relightRequestSend core j) s = .next (s.sendRelights r core j) := by
  have hunit : ¬((!isGridCore core) = true ∨ 64 ≤ j) := by simpa [hcore] using hj
  simp only [exec_relightRequestSend, execRelightRequestSend, if_neg hunit, hring]
  exact event_enabled (by simp [hmissed, hidle])

/-- A record of the injector answers the request. -/
theorem exec_relightRequestServe_recorded {s : State} {id slot : Nat} {p q t : Psn} {fam : Bool} {tag : BitVec 16} {opnum : BitVec 7}
    {inj : BitVec 24} {ring : Ring} {w : Word} (hitem : s.item id = some (.relight p fam tag opnum inj slot))
    (hring : s.ringOf (s.getCore p) = some ring) (hcurrent : (s.getCore p).opnum = opnum.toNat) (hholder : s.holder (psnRegion p) inj = some q)
    (hrecord : (s.getCore q).inject.toList.find? (fun w => recLive w && recFam w == fam && recTag w == tag.toNat && recOp w == opnum.toNat) = some w)
    (hhome : s.homeTile (s.getCore q) = some t) (hread : s.canReadTile t (recSrc w % 2 ^ 19) 2048 = true) :
    exec (.relightRequestServe id) s = .next (s.serveRelight id p q w t slot) := by
  simp only [exec_relightRequestServe, execRelightRequestServe, hitem, hring, if_neg (not_not_intro hcurrent), hholder, Option.bind_some, hrecord,
    hhome, Option.map_some]
  exact event_enabled hread

/-- A copy of the current operation fills its reserved slot. -/
theorem exec_relitCopyArrival_reserved {s : State} {id slot : Nat} {p : Psn} {h : Word} {payload : List Byte}
    (hitem : s.item id = some (.relit p slot h payload)) (hcurrent : hdrOp h = (s.getCore p).opnum) (hreserved : (s.getCore p).slotState slot = 3)
    (hnew : (s.getCore p).ringCome.getLsbD slot = false) (hformat : (s.getCore p).wrongFormat h = false) :
    exec (.relitCopyArrival id) s = .next (((s.dropItem id).fillSlot p slot 3 h payload).modCore p (fun c =>
      (({ c with ringCome := c.ringCome ||| BitVec.ofNat 8 (2 ^ slot) } : Core).relitFires h slot).dropCopies)) := by
  have hwanted : ¬(hdrOp h ≠ (s.getCore p).opnum ∨ (s.getCore p).slotState slot ≠ 3 ∨ (s.getCore p).ringCome.getLsbD slot = true) := by
    simp [hcurrent, hreserved, hnew]
  have hright : ¬(s.getCore p).wrongFormat h = true := by simp [hformat]
  simp only [exec_relitCopyArrival, execRelitCopyArrival, hitem, if_neg hwanted, if_neg hright]

/-! Seals, posts and completion (R214 to R216), and the reply to RSTAT (R393). -/

theorem exec_ringSealPost_counts {s : State} {id region n x count : Nat} {r : Ring} {w : Word} (hitem : s.item id = some (.seal region n x count))
    (hring : s.ringAt region n = some r) (hw : w = (s.getCore r.origin).ringOp) (hopen : opSeals w ≠ r.members.length) :
    exec (.ringSealPost id) s = .next ((((s.dropItem id).modCurrent r (setOpState 1)).modCore r.origin (fun c =>
      { c with ringOp := setFld (setFld c.ringOp 54 49 (opSeals w + 1)) 48 37 (opExpect w + count) })).completeCheck r) := by
  subst hw
  simp only [exec_ringSealPost, execRingSealPost, hitem, hring]
  exact event_enabled (bne_iff_ne.mpr hopen)

theorem exec_ringDonePost_counts {s : State} {id region n : Nat} {opnum : BitVec 7} {r : Ring} (hitem : s.item id = some (.done region n opnum))
    (hring : s.ringAt region n = some r) (hcurrent : (s.getCore r.origin).opnum = opnum.toNat) :
    exec (.ringDonePost id) s = .next (((s.dropItem id).modCore r.origin (fun c =>
      { c with ringOp := setFld c.ringOp 36 25 (opDone c.ringOp + 1) })).completeCheck r) := by
  have hahead : ¬opnum.toNat = ((s.getCore r.origin).opnum + 1) % 128 := by omega
  simp only [exec_ringDonePost, execRingDonePost, hitem, hring, if_neg hahead, if_neg (not_not_intro hcurrent)]

/-- The origin goes on to an idle operation: only another member takes its state from the origin. -/
theorem exec_ringCompletion_origin {s : State} {id : Nat} {p : Psn} {r : Ring} (hitem : s.item id = some (.completion p))
    (hring : s.ringOf (s.getCore p) = some r) (horigin : r.origin = p) :
    exec (.ringCompletion id) s = .next ((s.dropItem id).modCore p (·.complete 0)) := by
  subst horigin
  simp only [exec_ringCompletion, execRingCompletion, hitem, hring, getCore_psn, ne_eq, not_true_eq_false, false_and, if_false]

theorem exec_ringOpReply_awaited {s : State} {id n : Nat} {p : Psn} {v : Word} (hitem : s.item id = some (.ringOp p n v))
    (hwaits : (s.getCore p).awaits (.g n) id = true) :
    exec (.ringOpReply id) s = .next ((s.dropItem id).modCore p (fun c => (c.setG n v).settled (.g n) id)) := by
  simp only [exec_ringOpReply, execRingOpReply, hitem]
  rw [modCore_awaited (by simpa using hwaits)]

/-! Cancellation and the re-run (R217, R218). -/

theorem cancelEvent_due {s : State} {region n reason : Nat} {r : Ring} (hring : s.ringAt region n = some r)
    (hdue : s.cancelDue region r reason = true) (hcan : s.canCancel r reason = true) :
    s.cancelEvent region n reason = .next (s.cancelRing region r reason) := by
  simp only [State.cancelEvent, hring]
  exact event_enabled (by rw [hdue, hcan]; rfl)

/-- A lease that an open operation has kept waiting for 10,000,000 ticks is a cause of its cancellation. -/
theorem cancelDue_lease {s : State} {region t : Nat} {r : Ring} (hopen : s.ringOpen r = true) (hlease : r.leaseAt = some t)
    (htime : t + 10000000 ≤ s.tsc.toNat) (hgoing : s.ringCompleting r = false) : s.cancelDue region r 1 = true := by
  have hlate : r.leaseAt.any (fun t => decide (t + 10000000 ≤ s.tsc.toNat)) = true := by
    rw [hlease, Option.any_some]
    exact decide_eq_true htime
  simp only [State.cancelDue, hgoing, hopen, hlate, Bool.not_false, Bool.true_and]

theorem exec_ringRerun_starts {s : State} {region n : Nat} {r : Ring} (hring : s.ringAt region n = some r) (hcan : s.canRerun region r = true) :
    exec (.ringRerun region n) s = .next (s.startRerun r) := by
  simp only [exec_ringRerun, execRingRerun, hring, if_pos hcan]

theorem exec_ringRerun_injects {s : State} {region n : Nat} {r : Ring} {p : Psn} (hring : s.ringAt region n = some r)
    (hstarted : s.canRerun region r = false) (hnext : r.members.find? (fun p => (s.nextReinject (s.getCore p)).isSome) = some p)
    (hcan : s.canReinject p = true) : exec (.ringRerun region n) s = .next (s.injectAgain p) := by
  have hnot : ¬s.canRerun region r = true := by simp [hstarted]
  simp only [exec_ringRerun, execRingRerun, hring, if_neg hnot, hnext]
  exact event_enabled hcan

/-! Reductions (R321 to R323) and queries (R439). -/

theorem exec_credContribution_joins {s : State} {id region n k ty op rm : Nat} {p : Psn} {sat : Bool} {v : Word} {ws : List Parcel} {t : Tree}
    {g : Graph} (hitem : s.item id = some (.contribution region n p k ty op rm sat v ws))
    (htree : (s.getRegion region).trees.find? (fun t => t.number == n && t.ctx == s.ctxOf p) = some t)
    (hnew : ∀ r ∈ t.rounds, ∀ e ∈ r.2, e.2.2 ≠ id) (hgraph : s.graphOn p = some g) (hruns : g.stat = 1) :
    exec (.credContribution id) s = .next (s.joinRound region t p k id v) := by
  have hunjoined : t.rounds.any (fun r => r.2.any (fun e => e.2.2 == id)) = false := by
    simpa only [List.any_eq_false, List.any_eq_true, beq_iff_eq, not_exists, not_and] using hnew
  simp only [exec_credContribution, execCredContribution, hitem, htree]
  exact event_enabled (by simp [hunjoined, hgraph, hruns])

theorem exec_credResult_awaited {s : State} {id reg : Nat} {p : Psn} {v : Word} (hitem : s.item id = some (.credResult p reg v none))
    (hwaits : (s.getCore p).awaits (.g reg) id = true) :
    exec (.credResult id) s = .next ((s.dropItem id).putCore (((s.getCore p).setG reg v).settled (.g reg) id)) := by
  simp only [exec_credResult, execCredResult, hitem, State.takeResult, if_pos hwaits]
  exact event_enabled rfl

/-- No unit of a region beyond the last is there to answer. -/
theorem queryAnswer_noRegion {s : State} {asker : Psn} {w : Word} (hregion : 80 ≤ fld w 22 16) : s.queryAnswer asker w = 0 := by
  have hnone : s.queried w = none := if_pos hregion
  simp only [State.queryAnswer, hnone]

theorem exec_queryAnswer_awaited {s : State} {id reg : Nat} {p : Psn} {w : Word} (hitem : s.item id = some (.answer p reg w))
    (hwaits : (s.getCore p).awaits (.g reg) id = true) :
    exec (.queryAnswer id) s = .next ((s.dropItem id).modCore p (fun c => (c.setG reg w).settled (.g reg) id)) := by
  simp only [exec_queryAnswer, execQueryAnswer, hitem]
  rw [modCore_awaited (by simpa using hwaits)]

end Sys2Proof.Laws
end

section
namespace Sys2Proof.Proofs
open Sys2Proof Sys2Proof.Machine Sys2Proof.Claims Sys2Proof.Laws

theorem ringTiles : RingTiles := by
  refine ⟨?arrives, ?discarded, ?forwards, ?fires, ?releases⟩
  case arrives =>
    rintro s id t r p _ hitem hring hp hcurrent hformat hfree rfl hwhole
    exact exec_ringTileArrival_takesSlot hitem hring hp hcurrent hformat hfree hwhole
  case discarded => exact fun s id t r hitem hring hother hwhole => (exec_ringTileArrival_whole hitem hring hwhole).trans (if_pos hother)
  case forwards =>
    rintro s core slot _ r _ _ hcore hslot rfl hring rfl rfl hidle
    rw [exec_ringTileForward_member hcore hslot hring]
    refine ⟨fun hover => ?_, fun hmore hformed hlane hroom => ?_⟩
    · exact (if_pos hover).trans (event_enabled hidle)
    · exact (if_neg hmore).trans (event_enabled (by rw [hidle, hformed, hlane, decide_eq_true hroom]; rfl))
  case fires =>
    rintro s core c j a b rest m k _ hc hfirings hsealed hmember hm hk rfl
    rw [exec_ringFiring_sealed (hc ▸ hfirings) (hc ▸ hsealed) (hc ▸ hmember), fire_oldest hc hfirings hm hk]
  case releases =>
    rintro s core w _ _ hcore rfl rfl hdue
    exact exec_ringIdleRelease_due hcore hdue

theorem ringControl : RingControl := by
  refine ⟨?asks, ?serves, ?relit, ?seals, ?posts, ?completes, ?replies⟩
  case asks => exact fun s core j r hcore hj hring hmissed hidle => exec_relightRequestSend_missed hcore hj hring hmissed hidle
  case serves =>
    intro s id p fam tag opnum inj slot ring q w t hitem hring hcurrent hholder hrecord hhome hread
    rw [exec_relightRequestServe_recorded hitem hring hcurrent hholder hrecord hhome hread, State.serveRelight]
  case relit =>
    exact fun s id p slot h payload hitem hcurrent hreserved hnew hformat => exec_relitCopyArrival_reserved hitem hcurrent hreserved hnew hformat
  case seals => exact fun s id region n x count r w hitem hring hw hopen => exec_ringSealPost_counts hitem hring hw hopen
  case posts => exact fun s id region n opnum r hitem hring hcurrent => exec_ringDonePost_counts hitem hring hcurrent
  case completes => exact fun s id p r hitem hring horigin => exec_ringCompletion_origin hitem hring horigin
  case replies => exact fun s id p n v hitem hwaits => exec_ringOpReply_awaited hitem hwaits

theorem ringCancellation : RingCancellation := by
  refine ⟨?cancels, ?expires, ?reruns⟩
  case cancels =>
    intro s region n reason r hring hdue hcan
    rw [exec_ringCancel, execRingCancel, cancelEvent_due hring hdue hcan]
  case expires =>
    intro s region n r t hring hopen hlease htime hgoing hcan
    rw [exec_ringLeaseTimeout, execRingLeaseTimeout, cancelEvent_due hring (cancelDue_lease hopen hlease htime hgoing) hcan]
  case reruns =>
    exact fun s region n r hring => ⟨exec_ringRerun_starts hring, fun p hstarted hnext hcan => exec_ringRerun_injects hring hstarted hnext hcan⟩

theorem collectivesAndQueries : CollectivesAndQueries := by
  refine ⟨?joins, ?result, ?asked, ?absent, ?answered⟩
  case joins =>
    exact fun s id region n p k ty op rm sat v ws t g hitem htree hnew hgraph hruns => exec_credContribution_joins hitem htree hnew hgraph hruns
  case result => exact fun s id p reg v hitem hwaits => exec_credResult_awaited hitem hwaits
  case asked =>
    intro s id p reg w hitem
    simp only [exec_queryRequest, execQueryRequest, hitem]
  case absent => exact fun s asker w hregion => queryAnswer_noRegion hregion
  case answered => exact fun s id p reg w hitem hwaits => exec_queryAnswer_awaited hitem hwaits

/-- Settles O41: each step of a ring, a tree or a query by what enables it, and by what it leaves. -/
theorem ringSteps : Obligations.RingSteps := ⟨ringTiles, ringControl, ringCancellation, collectivesAndQueries⟩

end Sys2Proof.Proofs
end

section
/-! 09 R222 to R229, R243: decoding and encoding are each other's inverse. -/
namespace Sys2Proof.Laws
open Sys2Proof Sys2Proof.Machine

/-! From the encoder to the decoder: a case for each constructor, its lemma of the family; the steps of other agents have no encoding. -/

theorem RoundTrip.holds (i : Instr) : RoundTrip.Statement i := by
  apply @Instr.casesOn RoundTrip.Statement i
    add addL32A addI64L32B addI32L32B addc addcL32A sub subL32A subb subbL32A mul mulL32A mulI64L32B mulI32L32B mulh mulhL32A mulhn mulhnL32A div
    divL32A divn divnL32A rem remL32A remn remnL32A and andL32A andN64L32B andn andnL32A andnN64L32B or orL32A orN64L32B xor xorL32A xorN64L32B shl
    shlL32A shlN64L32B shr shrL32A shrN64L32B sha shaL32A shaI64L32B rol rolL32A rotr rotrL32A rotrN64L32B clz clzL32A ctz ctzL32A popc popcL32A brev
    brevL32A bswap bswapL32A min minL32A minI64L32B max maxL32A maxI64L32B minn minnL32A minnN64L32B maxn maxnL32A maxnN64L32B abs absL32A bfx
    bfxN64L32B bfxI64L32B bfi sel cmp cmpEqI64L32B cmpNeI64L32B cmpLtI64L32B cmpLeI64L32B cmpGtI64L32B cmpGeI64L32B cmpLtN64L32B cmpLeN64L32B
    cmpGtN64L32B cmpGeN64L32B mov movL32A movRelSrcL32B movRelDstL32B li liI64L32B lih lihL32B fadd faddL32A fsub fsubL32A fmul fmulL32A ffma ffms
    fdiv fdivL32A fsqrt fsqrtL32A fmin fminL32A fmax fmaxL32A fabs fabsL32A fneg fnegL32A fcpys fcpysL32A fcmp fclass fclassL32A fcvt fcvti icvtf frnd
    frndL32A br brL32B brNotL32B jmp jmpL32A jmpi jmpiL32A call callL32B calli calliL32A ret retL32A loops endI endL32A nop nopL32A gang ungang
    ungangL32A rejoin rejoinL32A pand pandL32A por porL32A pxor pxorL32A pnot pnotL32A pmov pmovL32A pmovFromG pmovFromGL32A pmovToG pmovToGL32A pcnt
    pcntL32A qinc qincL32A qadd qaddL32B qrd qpost waitq waitb waitvis succhint succhintL32A hwaitf hwaitfL32B hwaite hwaiteL32B hld hst hadvc
    hadvcL32B hadvp hadvpL32B heos hstat hstatL32A send sendq cred cderive cperm cseal csealL32A cunseal cunsealL32A cbase cbaseL32A clen clenL32A
    cperms cpermsL32A ctype ctypeL32A ctag ctagL32A cclr cclrL32A cmov cmovL32A cldc cldcL32B cstc cstcL32B cchk trap trapL32B wick wickL32A wid
    widL32B who query queryL32A time timeL32A timeEnergy timeEnergyL32A sysrd syswr yield yieldL32A gate snuff nameset leaseack fresume fresumeValue
    fkill ld ldN64L32B ldI32L32B ldN32L32B ldI16L32B ldN16L32B ldI8L32B ldN8L32B st stN64L32B stN32L32B stN16L32B stN8L32B lda stl pf pfL32B aadd amin
    amax aand aor axor aswp acas aaddf fence ojoin cpy cpyHandle cpy4 cpyg batch stcfg sbufw sbufset splice drd dwr dgath flush rowopen rowhold rowrel
    rowrd rowrdv rowwr rowstat scfg sbind sunbind spredAttach spredRead spos vld vldL32B vst vstL32B vldg vsts vbcast vmov vmovmExtract vmovmInsert
    vperm vslide vadd vsub vmul vfma vmin vmax vabs vneg vdiv vsqrt vrcp vrsqrt vexp2 vlog2 vsin vcos vtanh vand vor vxor vshl vshr vsha vcmp vsel
    vcvt vpack vunpack vred vscan vdot mzero mma mmaq mmad mread mreadk macc maccMov mstat mmode rjoin rleave rmset rmclr rmclrAll rinj rdrain rstat
    relight
  all_goals
    intros
    exact round_trip_event _ rfl

/-! From the decoder to the encoder: the parcels that the length bits give are those that the encoder writes. -/

theorem length_bits (p : Parcel) : p.extractLsb' 0 2 = BitVec.ofBool (p.getLsbD 1) ++ BitVec.ofBool (p.getLsbD 0) := by
  rw [one_bit, one_bit, join p 1 0 1 1 rfl]

theorem parcelCount_short {p : Parcel} (hshort : p.getLsbD 1 = false) : parcelCount p = 1 := by
  rw [parcelCount, length_bits, hshort]
  cases p.getLsbD 0 <;> rfl

/-- What is read from some parcels: a well-formed instruction that encodes to those that count. -/
structure ReadFrom (i : Instr) (p0 p1 p2 : Parcel) : Prop where
  encodable : hasEncoding i = true
  wellFormed : wellFormed i = true
  encode : encode i = [p0, p1, p2].take (parcelCount p0)

theorem readFrom_of_encoding {i : Instr} {e : Enc} {p0 p1 p2 : Parcel} (hi : encoding i = e) (hlegal : e.legal = true) (hevent : e ≠ .event)
    (hparcels : encodeEnc e = [p0, p1, p2].take (parcelCount p0)) : ReadFrom i p0 p1 p2 := by
  have hencodable : hasEncoding i = true := by
    unfold hasEncoding
    rw [hi]
    cases e with
    | event => exact absurd rfl hevent
    | long | shortA | shortB => rfl
  exact ⟨hencodable, legal_well_formed i e hi hlegal (operands_ok i hencodable), by rw [encode, hi, hparcels]⟩

theorem decodeLong_readFrom {p0 p1 p2 : Parcel} {i : Instr} (hlong : p0.getLsbD 1 = true) (h : decodeLong p0 p1 p2 = some i) :
    ReadFrom i p0 p1 p2 := by
  obtain ⟨r, hi, hlegal, hpack⟩ := long_reads p0 p1 p2 i hlong h
  refine readFrom_of_encoding hi hlegal nofun ?_
  have hcount : parcelCount p0 = if p0.getLsbD 0 then 3 else 2 := by
    rw [← hpack, packLong0_count, packLong0_wide]
  have hwide : (unpackLong p0 p1 p2).wide = p0.getLsbD 0 := rfl
  rw [encodeEnc, hpack, packLong1_reads, hwide, hcount]
  cases hw : p0.getLsbD 0
  · rfl
  · have hlit : (unpackLong p0 p1 p2).lit = p2 := if_pos hw
    simp [hlit]

theorem decodeShortA_readFrom {p0 p1 p2 : Parcel} {i : Instr} (hlong : p0.getLsbD 1 = false) (hB : p0.getLsbD 0 = false)
    (h : decodeShortA p0 = some i) : ReadFrom i p0 p1 p2 := by
  obtain ⟨r, hi, hlegal, hpack⟩ := shortA_reads p0 i (by rw [length_bits, hlong, hB]; rfl) h
  exact readFrom_of_encoding hi hlegal nofun (by rw [encodeEnc, hpack, parcelCount_short hlong]; rfl)

theorem decodeShortB_readFrom {p0 p1 p2 : Parcel} {i : Instr} (hlong : p0.getLsbD 1 = false) (hB : p0.getLsbD 0 = true)
    (h : decodeShortB p0 = some i) : ReadFrom i p0 p1 p2 := by
  obtain ⟨r, hi, hlegal, hpack⟩ := shortB_reads p0 i (by rw [length_bits, hlong, hB]; rfl) h
  exact readFrom_of_encoding hi hlegal nofun (by rw [encodeEnc, hpack, parcelCount_short hlong]; rfl)

theorem decodeParcels_readFrom {p0 p1 p2 : Parcel} {i : Instr} (h : decodeParcels p0 p1 p2 = some i) : ReadFrom i p0 p1 p2 := by
  unfold decodeParcels at h
  split at h
  case isTrue hlong => exact decodeLong_readFrom hlong h
  case isFalse hlong =>
    have hlong : p0.getLsbD 1 = false := eq_false_of_ne_true hlong
    split at h
    case isTrue hB => exact decodeShortB_readFrom hlong hB h
    case isFalse hB => exact decodeShortA_readFrom hlong (eq_false_of_ne_true hB) h

theorem parcelCount_cases (p : Parcel) : parcelCount p = 1 ∨ parcelCount p = 2 ∨ parcelCount p = 3 := by
  unfold parcelCount
  split
  · simp
  · split <;> simp

/-- Where there are n ≤ 3 parcels, the first n of the three that the decoder looks at are theirs. -/
theorem take_looked (p0 : Parcel) (ps : List Parcel) {n : Nat} (hn : n ≤ 3) (hlen : n ≤ (p0 :: ps).length) :
    [p0, ps.getD 0 0, ps.getD 1 0].take n = (p0 :: ps).take n := by
  match n, ps with
  | 0, _ | 1, _ => rfl
  | 2, _ :: _ => rfl
  | 3, _ :: _ :: _ => rfl
  | 2, [] | 3, [] | 3, [_] => simp at hlen

end Sys2Proof.Laws
end

section
namespace Sys2Proof.Proofs
open Sys2Proof Sys2Proof.Machine Sys2Proof.Claims Sys2Proof.Laws

/-- Settles O55: the family of round trips, over every constructor. -/
theorem decodeAfterEncode : Obligations.DecodeAfterEncode := RoundTrip.holds

/-- Settles O56: what the decoder reads from the parcels it looks at is encoded by those that count, and the others stay. -/
theorem decodingIsExact : Obligations.DecodingIsExact := by
  intro ps i rest h
  cases ps with
  | nil => cases h
  | cons p0 ps =>
    by_cases hshort : (p0 :: ps).length < parcelCount p0
    · simp only [decode, if_pos hshort] at h
      cases h
    · simp only [decode, if_neg hshort, Option.map_eq_some_iff, Prod.mk.injEq] at h
      obtain ⟨_, hread, rfl, rfl⟩ := h
      have hfrom := decodeParcels_readFrom hread
      have hmost : parcelCount p0 ≤ 3 := by have := parcelCount_cases p0; omega
      refine ⟨hfrom.wellFormed, hfrom.encodable, ?_⟩
      rw [hfrom.encode, take_looked p0 ps hmost (by omega), List.take_append_drop]

end Sys2Proof.Proofs
end

section
/-! 09 R224 to R226, R230, R236, R237, 11 R264, R266 to R270: the bodies of the scalar instructions, and the rows of their tables. -/
namespace Sys2Proof.Laws
open Sys2Proof Sys2Proof.Machine Sys2Proof.Claims

/-! A body whose operands are read answers its result. -/

section
variable {x : Long} {s : State} {a b c d : Nat} (ha : x.srcA s = .ok a)
include ha

theorem run1_result {f : Fn1} (hd : x.dst s = .ok d) :
    x.run1 f s = .ok (s.setG d (extend x.opType (f x.opType x.opRm x.opSat a))) := by
  simp only [Long.run1, ha, hd]; rfl
theorem count1_result {f : TyCode → Nat → Nat} (hd : x.dst s = .ok d) :
    x.count1 f s = .ok (s.setG d (BitVec.ofNat 64 (f x.opType a))) := by
  simp only [Long.count1, ha, hd]; rfl

variable (hb : x.srcB s = .ok b)
include hb

theorem run2_result {f : Fn2} (hd : x.dst s = .ok d) :
    x.run2 f s = .ok (s.setG d (extend x.opType (f x.opType x.opRm x.opSat a b))) := by
  simp only [Long.run2, ha, hb, hd]; rfl
theorem run3_result {f : Fn3} (hc : x.srcC s = .ok c) (hd : x.dst s = .ok d) :
    x.run3 f s = .ok (s.setG d (extend x.opType (f x.opType x.opRm x.opSat a b c))) := by
  simp only [Long.run3, ha, hb, hc, hd]; rfl
theorem count2_result {f : TyCode → Nat → Nat → Nat} (hd : x.dst s = .ok d) :
    x.count2 f s = .ok (s.setG d (BitVec.ofNat 64 (f x.opType a b))) := by
  simp only [Long.count2, ha, hb, hd]; rfl
theorem compare_result : x.compare s = .ok (s.setCmp (x.d.toNat % 8) x.opType (x.d.toNat / 8) a b) := by
  simp only [Long.compare, ha, hb]; rfl
end

/-! Every row of a table runs its function on its sources; the table of two sources is `long2_runs`. -/

theorem long1_runs : ∀ e ∈ long1, ∀ x s, issues (e.1 x) s = true → ∃ f, exec (e.1 x) s = settle f s (x.run1 (e.2 x) (past (e.1 x) s)) := by
  simp only [long1, List.forall_mem_cons, List.not_mem_nil, false_implies, implies_true, and_true]
  exact ⟨fun x s h => ⟨_, run_brev x s h⟩, fun x s h => ⟨_, run_bswap x s h⟩, fun x s h => ⟨_, run_abs x s h⟩,
    fun x s h => ⟨_, run_fsqrt x s h⟩, fun x s h => ⟨_, run_fabs x s h⟩, fun x s h => ⟨_, run_fneg x s h⟩, fun x s h => ⟨_, run_frnd x s h⟩,
    fun x s h => ⟨_, run_fcvt x s h⟩, fun x s h => ⟨_, run_fcvti x s h⟩, fun x s h => ⟨_, run_icvtf x s h⟩⟩
theorem long3_runs : ∀ e ∈ long3, ∀ x s, issues (e.1 x) s = true → ∃ f, exec (e.1 x) s = settle f s (x.run3 e.2 (past (e.1 x) s)) := by
  simp only [long3, List.forall_mem_cons, List.not_mem_nil, false_implies, implies_true, and_true]
  exact ⟨fun x s h => ⟨_, run_ffma x s h⟩, fun x s h => ⟨_, run_ffms x s h⟩⟩
theorem longCount1_runs : ∀ e ∈ count1, ∀ x s, issues (e.1 x) s = true → ∃ f, exec (e.1 x) s = settle f s (x.count1 e.2 (past (e.1 x) s)) := by
  simp only [count1, List.forall_mem_cons, List.not_mem_nil, false_implies, implies_true, and_true]
  exact ⟨fun x s h => ⟨_, run_clz x s h⟩, fun x s h => ⟨_, run_ctz x s h⟩, fun x s h => ⟨_, run_popc x s h⟩,
    fun x s h => ⟨_, run_fclass x s h⟩⟩
theorem longCount2_runs : ∀ e ∈ count2, ∀ x s, issues (e.1 x) s = true → ∃ f, exec (e.1 x) s = settle f s (x.count2 e.2 (past (e.1 x) s)) := by
  simp only [count2, List.forall_mem_cons, List.not_mem_nil, false_implies, implies_true, and_true]
  exact ⟨fun x s h => ⟨_, run_addc x s h⟩, fun x s h => ⟨_, run_subb x s h⟩⟩

end Sys2Proof.Laws
end

section
namespace Sys2Proof.Proofs
open Sys2Proof Sys2Proof.Machine Sys2Proof.Claims Sys2Proof.Laws

/-- Settles O1: each row runs its function, and the body has its result once its operands are read. -/
theorem longScalarResults : Obligations.LongScalarResults := by
  refine ⟨?one, ?two, ?three, ?countOne, ?countTwo⟩
  case one =>
    intro e he x s a d h ha hd
    obtain ⟨f, hrun⟩ := long1_runs e he x s h
    exact run_body_ok hrun (run1_result ha hd)
  case two =>
    intro e he x s a b d h ha hb hd
    obtain ⟨f, hrun⟩ := long2_runs e he x s h
    exact run_body_ok hrun (run2_result ha hb hd)
  case three =>
    intro e he x s a b c d h ha hb hc hd
    obtain ⟨f, hrun⟩ := long3_runs e he x s h
    exact run_body_ok hrun (run3_result ha hb hc hd)
  case countOne =>
    intro e he x s a d h ha hd
    obtain ⟨f, hrun⟩ := longCount1_runs e he x s h
    exact run_body_ok hrun (count1_result ha hd)
  case countTwo =>
    intro e he x s a b d h ha hb hd
    obtain ⟨f, hrun⟩ := longCount2_runs e he x s h
    exact run_body_ok hrun (count2_result ha hb hd)

/-- A one-parcel body always answers: an instruction that issues has the state that its run lemma gives. -/
theorem shortScalarForms : ShortScalarResults := by
  refine ⟨?one, ?two, ?countOne, ?countTwo, ?immediate⟩
  case one =>
    simp only [short1, List.forall_mem_cons, List.not_mem_nil, false_implies, implies_true, and_true]
    exact ⟨run_brevL32A, run_bswapL32A, run_absL32A, run_fsqrtL32A, run_fabsL32A, run_fnegL32A, run_frndL32A⟩
  case two =>
    simp only [short2, List.forall_mem_cons, List.not_mem_nil, false_implies, implies_true, and_true]
    exact ⟨run_addL32A, run_subL32A, run_mulL32A, run_mulhL32A, run_mulhnL32A, run_divL32A, run_divnL32A, run_remL32A, run_remnL32A, run_andL32A,
      run_andnL32A, run_orL32A, run_xorL32A, run_shlL32A, run_shrL32A, run_shaL32A, run_rolL32A, run_rotrL32A, run_minL32A, run_maxL32A, run_minnL32A,
      run_maxnL32A, run_faddL32A, run_fsubL32A, run_fmulL32A, run_fdivL32A, run_fminL32A, run_fmaxL32A, run_fcpysL32A⟩
  case countOne =>
    simp only [shortCount1, List.forall_mem_cons, List.not_mem_nil, false_implies, implies_true, and_true]
    exact ⟨run_clzL32A, run_ctzL32A, run_popcL32A, run_fclassL32A⟩
  case countTwo =>
    simp only [shortCount2, List.forall_mem_cons, List.not_mem_nil, false_implies, implies_true, and_true]
    exact ⟨run_addcL32A, run_subbL32A⟩
  case immediate =>
    simp only [immediate2, List.forall_mem_cons, List.not_mem_nil, false_implies, implies_true, and_true]
    exact ⟨run_addI64L32B, run_addI32L32B, run_mulI64L32B, run_mulI32L32B, run_andN64L32B, run_andnN64L32B, run_orN64L32B, run_xorN64L32B,
      run_shlN64L32B, run_shrN64L32B, run_shaI64L32B, run_rotrN64L32B, run_minI64L32B, run_maxI64L32B, run_minnN64L32B, run_maxnN64L32B⟩

theorem comparisonForms : ComparisonResults := by
  refine ⟨?long, ?short⟩
  case long =>
    simp only [List.forall_mem_cons, List.not_mem_nil, false_implies, implies_true, and_true]
    exact ⟨fun x s a b h ha hb => run_body_ok (run_cmp x s h) (compare_result ha hb),
      fun x s a b h ha hb => run_body_ok (run_fcmp x s h) (compare_result ha hb)⟩
  case short =>
    simp only [comparisons, List.forall_mem_cons, List.not_mem_nil, false_implies, implies_true, and_true]
    exact ⟨run_cmpEqI64L32B, run_cmpNeI64L32B, run_cmpLtI64L32B, run_cmpLeI64L32B, run_cmpGtI64L32B, run_cmpGeI64L32B, run_cmpLtN64L32B,
      run_cmpLeN64L32B, run_cmpGtN64L32B, run_cmpGeN64L32B⟩

/-- Settles O2: the bodies of the one-parcel forms, and CMP and FCMP once their operands are read. -/
theorem shortScalarResults : Obligations.ShortScalarResults := ⟨shortScalarForms, comparisonForms⟩

end Sys2Proof.Proofs
end

section
/-! 09 R223, R226, R237, 11 R267, R268, R272 to R275: what bit fields, branches, register targets and loop counters answer. -/
namespace Sys2Proof.Laws
open Sys2Proof Sys2Proof.Machine Sys2Proof.Claims

/-! Bit fields (R268). -/

theorem fieldCheck_inside {f : Nat} (h : f % 64 + f / 64 % 64 + 1 ≤ 64) : fieldCheck f = .ok () := if_pos h
theorem fieldCheck_past {f : Nat} (h : ¬f % 64 + f / 64 % 64 + 1 ≤ 64) : fieldCheck f = .error (.illegal 6) := if_neg h

/-- A field that ends inside the register gives its result, one that runs past it the ILLEGAL of step 6. -/
theorem settle_field {i : Instr} {form : Form} (s t : State) (f : Nat) (hwords : form.words = encode i) :
    settle form s ((fieldCheck f).map (fun _ => t)) = .next (if f % 64 + f / 64 % 64 + 1 ≤ 64 then t
      else s.takeFault { code := .illegal, detail := parcelDetail (encode i) 6 }) := by
  by_cases h : f % 64 + f / 64 % 64 + 1 ≤ 64
  · rw [fieldCheck_inside h, if_pos h]; rfl
  · rw [fieldCheck_past h, if_neg h, ← hwords]; rfl

/-! Where the pc goes (R223, R272, R275). -/

section
variable {i : Instr} {form : Form} {s t : State} {pc : Word} {n : Nat} {o : Int}

theorem branch_from (hpc : t.core.regs.pc = pc + BitVec.ofNat 64 n) : t.branch n o = t.setPc (pc + BitVec.ofInt 64 (4 * o)) := by
  rw [State.branch, State.pc0, hpc, BitVec.add_sub_cancel]

theorem exec_jumps (run : exec i s = settle form s (.ok (t.branch n o))) (hpc : t.core.regs.pc = pc + BitVec.ofNat 64 n) :
    exec i s = .next (t.setPc (pc + BitVec.ofInt 64 (4 * o))) := by rw [run, settle_ok, branch_from hpc]

/-- A branch that is not taken leaves the pc where it stands, past the instruction. -/
theorem exec_branches {c : Prop} [Decidable c] (run : exec i s = settle form s (.ok (if c then t.branch n o else t)))
    (hpc : t.core.regs.pc = pc + BitVec.ofNat 64 n) :
    exec i s = .next (t.setPc (if c then pc + BitVec.ofInt 64 (4 * o) else pc + BitVec.ofNat 64 n)) := by
  rw [run, settle_ok]
  split
  · rw [branch_from hpc]
  · rw [← hpc]; rfl
theorem exec_branchesUnless {c : Prop} [Decidable c] (run : exec i s = settle form s (.ok (if c then t else t.branch n o)))
    (hpc : t.core.regs.pc = pc + BitVec.ofNat 64 n) :
    exec i s = .next (t.setPc (if c then pc + BitVec.ofNat 64 n else pc + BitVec.ofInt 64 (4 * o))) := by
  rw [← ite_not] at run ⊢
  exact exec_branches run hpc

variable {v : Word}

theorem exec_jumpsTo (run : exec i s = settle form s (t.jumpTo v)) (hparcel : v.toNat % 4 = 0) : exec i s = .next (t.setPc v) := by
  rw [run, State.jumpTo, if_neg (fun hoff => hoff hparcel), settle_ok]

/-- The fault of a target that is on no parcel is taken in the state before the instruction. -/
theorem exec_misaligned (run : exec i s = settle form s (t.jumpTo v)) (hparcel : v.toNat % 4 ≠ 0) :
    exec i s = .next (s.takeFault { code := .align, detail := capDetail 3 0xFF v.toNat }) := by
  rw [run, State.jumpTo, if_pos hparcel, settle_fault]
end

/-- R275: the counter is not zero after its decrement, unless it was 1 or is g0, which reads 0. -/
theorem counted_down (u : State) (d : Reg) :
    (u.setG d.toNat (u.g d.toNat - 1)).g d.toNat ≠ 0 ↔ d.toNat ≠ 0 ∧ d.toNat < 64 ∧ u.g d.toNat ≠ 1 := by
  have hrange : d.toNat < 64 := d.isLt
  by_cases h0 : d.toNat = 0
  · simp [h0, g_zero]
  · rw [setG_g _ _ _ h0 hrange]
    exact ⟨fun h => ⟨h0, hrange, fun h1 => h (by rw [h1]; rfl)⟩, fun ⟨_, _, hone⟩ hzero => hone (by bv_omega)⟩

end Sys2Proof.Laws
end

section
namespace Sys2Proof.Proofs
open Sys2Proof Sys2Proof.Machine Sys2Proof.Claims Sys2Proof.Laws

theorem moveAndConstantForms : MoveAndConstantResults := by
  refine ⟨?sel, ?mov, fun x s => run_movL32A x s, ?relSrc, ?relDst, ?li, fun x s => run_liI64L32B x s, ?lih, fun x s => run_lihL32B x s⟩
  case sel =>
    intro x s a b d h ha hb hd
    have hguard : (x.wide && x.form == 1) = true ↔ x.wide = true ∧ x.form = 1 := by simp
    simp only [run_sel x s h, ha, hd, hguard]
    by_cases hlit : x.wide = true ∧ x.form = 1
    · rw [if_pos hlit] at hb
      simp only [if_pos hlit, hb]
      rfl
    · rw [if_neg hlit] at hb
      simp only [if_neg hlit, hb]
      rfl
  case mov =>
    intro x s a d h ha hd
    simp only [run_mov x s h, ha, hd]
    rfl
  case relSrc =>
    intro x s n h hn
    simp only [run_movRelSrcL32B x s h, hn]
    rfl
  case relDst =>
    intro x s n h hn
    simp only [run_movRelDstL32B x s h, hn]
    rfl
  case li =>
    intro x s b h hb
    simp only [run_li x s h, hb]
    rfl
  case lih =>
    intro x s a b d h ha hb hd
    by_cases hform : x.form = 1
    · cases hwide : x.wide <;>
        simp [run_lih x s h, ha, hd, hform, hwide, bind, Except.bind, pure, Except.pure, settle_ok]
    · simp only [run_lih x s h, ha, hb, hd, hform, false_and, if_false, bind, Except.bind, pure, Except.pure, settle_ok]

theorem bitFieldForms : BitFieldResults := by
  refine ⟨?bfx, ?bfi, fun x s => run_bfxN64L32B x s, fun x s => run_bfxI64L32B x s⟩
  case bfx =>
    intro x s a f d h ha hf hd
    simp only [run_bfx x s h, ha, hf, hd]
    exact settle_field s _ f rfl
  case bfi =>
    intro x s a f d h ha hf hd
    simp only [run_bfi x s h, ha, hf, hd]
    exact settle_field s _ f rfl

/-- Settles O3: the bodies once their operands are read, and the check of a bit field. -/
theorem movesConstantsAndFields : Obligations.MovesConstantsAndFields := ⟨moveAndConstantForms, bitFieldForms⟩

theorem controlTransferForms : ControlTransfers := by
  refine ⟨?br, ?brShort, ?brNot, ?jmp, ?jmpShort, ?register, ?registerShort, ?call, ?callShort, ?calli, ?calliShort, ?loops⟩
  case br => exact fun x s h => exec_branches (run_br x s h) rfl
  case brShort => exact fun x s h => exec_branches (run_brL32B x s h) rfl
  case brNot => exact fun x s h => exec_branchesUnless (run_brNotL32B x s h) rfl
  case jmp => exact fun x s h => exec_jumps (run_jmp x s h) rfl
  case jmpShort => exact fun x s h => exec_jumps (run_jmpL32A x s h) rfl
  case register =>
    simp only [List.forall_mem_cons, List.not_mem_nil, false_implies, implies_true, and_true]
    exact ⟨fun x s h => exec_jumpsTo (run_jmpi x s h), fun x s h => exec_jumpsTo (run_ret x s h)⟩
  case registerShort =>
    simp only [List.forall_mem_cons, List.not_mem_nil, false_implies, implies_true, and_true]
    exact ⟨fun x s h => exec_jumpsTo (run_jmpiL32A x s h), fun x s h => exec_jumpsTo (run_retL32A x s h)⟩
  case call => exact fun x s h => exec_jumps (run_call x s h) (setG_pc _ _ _)
  case callShort => exact fun x s h => exec_jumps (run_callL32B x s h) (setG_pc _ _ _)
  case calli => exact fun x s h => exec_jumpsTo (run_calli x s h)
  case calliShort => exact fun x s h => exec_jumpsTo (run_calliL32A x s h)
  case loops =>
    intro x s h
    have hgoes := counted_down (past (.loops x) s) x.d
    simp only [past_g] at hgoes
    simp only [← hgoes]
    exact exec_branches (run_loops x s h) (setG_pc _ _ _)

theorem misalignedTargets : MisalignedTargetFaults := by
  simp only [MisalignedTargetFaults, List.forall_mem_cons, List.not_mem_nil, false_implies, implies_true, and_true]
  exact ⟨⟨fun x s h => exec_misaligned (run_jmpi x s h), fun x s h => exec_misaligned (run_ret x s h),
      fun x s h => exec_misaligned (run_calli x s h)⟩, fun x s h => exec_misaligned (run_jmpiL32A x s h),
    fun x s h => exec_misaligned (run_retL32A x s h), fun x s h => exec_misaligned (run_calliL32A x s h)⟩

/-- Settles O5: where each transfer goes, and a register target that is not on a parcel. -/
theorem controlTransfers : Obligations.ControlTransfers := ⟨controlTransferForms, misalignedTargets⟩

end Sys2Proof.Proofs
end

section
/-! 09 R222, R243, 02 R53, log entry 4: the parcels at the pc in LOCAL, and a step that issues the instruction they give. -/
namespace Sys2Proof.Laws
open Sys2Proof Sys2Proof.Machine Sys2Proof.Claims

/-! A parcel of code in LOCAL, where no word of memory holds an error. -/

theorem spoiled_errorFree {s : State} (key n : Nat) (h : s.upsets = []) : s.spoiled key n = false := by simp [State.spoiled, h]
theorem noteRead_errorFree {s : State} (key n : Nat) (h : s.upsets = []) : s.noteRead key n = s := by simp [State.noteRead, h]

theorem readParts_local {s : State} {a : Act} {addr n : Nat} (h : s.upsets = []) :
    s.readParts a [localPart addr n] = .ok (s.localBytes s.core addr n, s) := by
  have hread : s.readPart a (localPart addr n) = .ok (s.localBytes s.core addr n, s) := by
    simp [State.readPart, State.partBusy, State.performAt, State.performLocal, localPart, Part.access, Part.accessOf,
      spoiled_errorFree _ _ h, noteRead_errorFree _ _ h]
  simp only [State.readParts, hread, bind, Except.bind, pure, Except.pure, List.append_nil]

/-- The parcel that LOCAL holds at an address, as a core's loads see it. -/
def localParcel (s : State) (addr : Nat) : Parcel := BitVec.ofNat 32 (ofLe (s.localBytes s.core addr 4))

theorem fetchParcel_local {s : State} {pc : Word} {addr : Nat} (a : Act) (hspace : s.core.regs.fetch.space = 0) (h : s.upsets = [])
    (hcheck : s.checkCap Ask.fetch s.core.regs.fetch pc.toInt 4 = .ok addr) :
    s.fetchParcel a pc = .ok (localParcel s addr, s) := by
  have hparts : s.resolve Ask.fetch 0 addr 4 = .parts [localPart addr 4] := rfl
  have hread : (s.touchCode [localPart addr 4]).readParts a [localPart addr 4] = .ok (s.localBytes s.core addr 4, s) := readParts_local h
  simp only [State.fetchParcel, hcheck, lifted, hspace, hparts, hread, bind, Except.bind]
  rfl

/-- The fetch stops at the last parcel that the first one counts (R222). -/
theorem fetchParcels_local {s : State} {addr : Nat} (a : Act) (hspace : s.core.regs.fetch.space = 0) (herr : s.upsets = [])
    (hcheck : ∀ k ∈ [0, 4, 8], s.checkCap Ask.fetch s.core.regs.fetch (s.core.regs.pc + BitVec.ofNat 64 k).toInt 4 = .ok (addr + k)) :
    s.fetchParcels a = .ok ((List.range (parcelCount (localParcel s addr))).map (fun k => localParcel s (addr + 4 * k)), s) := by
  have hfetch : ∀ k ∈ [0, 4, 8], s.fetchParcel a (s.core.regs.pc + BitVec.ofNat 64 k) = .ok (localParcel s (addr + k), s) :=
    fun k hk => fetchParcel_local a hspace herr (hcheck k hk)
  have h0 : s.fetchParcel a s.core.regs.pc = .ok (localParcel s addr, s) := by simpa using hfetch 0 (by simp)
  have h4 : s.fetchParcel a (s.core.regs.pc + 4) = .ok (localParcel s (addr + 4), s) := hfetch 4 (by simp)
  have h8 : s.fetchParcel a (s.core.regs.pc + 8) = .ok (localParcel s (addr + 8), s) := hfetch 8 (by simp)
  simp only [State.fetchParcels, h0, bind, Except.bind]
  rcases parcelCount_cases (localParcel s addr) with hn | hn | hn
  · simp only [hn, if_true]; rfl
  · simp only [hn, h4, if_true]; rfl
  · simp only [hn, h4, h8]; rfl

/-! A step whose turn is the issue of the core in focus. -/

theorem step_issues {s t : State} {ps : List Parcel} (hturn : s.schedule = []) (hboundary : s.boundary = none) (hmay : s.mayIssue = true)
    (hready : s.core.waiting = false) (hown : s.core.act.bind Act.received = none) (hfetch : s.fetch = .words ps t) :
    step s = onNext (fun u => (s.noteProgress u).tally.elapse 1) (onNext (fun u => (s.relay u ps).issued) (runParcels ps t)) := by
  simp [step, State.advanceMachine, State.arbitrate, State.issueNext, hturn, hboundary, hmay, hready, hown, hfetch]

theorem runParcels_decoded {ps : List Parcel} {s : State} {i : Instr}
    (h : decodeParcels (ps.getD 0 0) (ps.getD 1 0) (ps.getD 2 0) = some i) : runParcels ps s = exec i s := by rw [runParcels, h]
theorem runParcels_illegal {ps : List Parcel} {s : State} (h : decodeParcels (ps.getD 0 0) (ps.getD 1 0) (ps.getD 2 0) = none) :
    runParcels ps s = .next (s.takeFault { code := .illegal, detail := parcelDetail ps 2 }) := by rw [runParcels, h]; rfl

end Sys2Proof.Laws
end

section
namespace Sys2Proof.Proofs
open Sys2Proof Sys2Proof.Machine Sys2Proof.Claims Sys2Proof.Laws

/-- Settles O57: the step issues what is fetched, which is an instruction or none, and LOCAL gives its parcels. -/
theorem stepRunsDecoded : Obligations.StepRunsDecoded := by
  refine ⟨?decoded, ?illegal, ?code⟩
  case decoded =>
    intro s ps t i u hturn hboundary hmay hready hown hfetch hdecode hexec
    rw [step_issues hturn hboundary hmay hready hown hfetch, runParcels_decoded hdecode, hexec]
    rfl
  case illegal =>
    intro s ps t hturn hboundary hmay hready hown hfetch hdecode
    rw [step_issues hturn hboundary hmay hready hown hfetch, runParcels_illegal hdecode]
    rfl
  case code =>
    rintro s a addr _ hact hspace herr hcheck rfl
    simp only [State.fetch, hact, fetchParcels_local a hspace herr hcheck]
    rfl

/-- Settles O51: g0 and p0 keep no write, so a result sent to g0 is the state past the instruction. -/
theorem hardwiredRegisters : Obligations.HardwiredRegisters := by
  refine ⟨fun s v w => ⟨g_zero s, p_zero s, setG_zero s v, setP_zero s w⟩, ?_⟩
  intro e he x s h hd
  obtain ⟨-, hresult, -⟩ := shortScalarForms
  rw [hresult e he x s h, hd]
  exact congrArg _ (setG_zero _ _)

/-- Settles O54: the decoder evaluated on each word. -/
theorem decodedWords : Obligations.DecodedWords :=
  ⟨decode_add_i32, decode_add_imm, by decide, by decide, by decide, by decide, by decide⟩

end Sys2Proof.Proofs
end

section
/-! 02 R48, R49, 11 R280, R282 to R284: predicates, capabilities derived and sealed, and the frame of the scalar instructions. -/
namespace Sys2Proof.Laws
open Sys2Proof Sys2Proof.Machine Sys2Proof.Claims

/-! Lanes set (R280). -/

theorem popN_eq_countP (n v : Nat) : popN n v = (List.range n).countP v.testBit := by
  induction n generalizing v with
  | zero => rfl
  | succ n ih =>
    have hlow : v % 2 = if v.testBit 0 = true then 1 else 0 := by
      rw [Nat.testBit_zero]
      rcases Nat.mod_two_eq_zero_or_one v with h | h <;> simp [h]
    have hnext : v.testBit ∘ Nat.succ = (v / 2).testBit := funext fun k => Nat.testBit_succ v k
    rw [popN, ih, List.range_succ_eq_map, List.countP_cons, List.countP_map, hnext, hlow, Nat.add_comm]

theorem lanesSet_eq_countP (p : PWord) : lanesSet p = (List.range 32).countP (fun k => p.getLsbD k) := popN_eq_countP 32 p.toNat

/-! A failed condition on a capability, and the parents of derivations (R48, R282). -/

/-- The fault of a failed condition is taken in the state before the instruction, whose destination it leaves. -/
theorem run_body_capStop {i : Instr} {f : Form} {s : State} {body : Body'} {code : Code} {reg off : Nat}
    (run : exec i s = settle f s (body (past i s))) (hb : body (past i s) = .error (capStop code reg off)) :
    exec i s = .next (s.takeFault { code, detail := capDetail 0 reg off }) := by
  rw [run, hb]
  exact settle_fault f s _

section
variable {p : Cap} {reg off : Nat}

theorem parentCheck_untagged (htag : p.tag = false) : parentCheck p reg off = .error (capStop .captag reg off) := by
  simp [parentCheck, htag]
theorem parentCheck_sealed (htag : p.tag = true) (hsealed : p.otype ≠ 0) : parentCheck p reg off = .error (capStop .capperm reg off) := by
  simp [parentCheck, htag, hsealed]
theorem parentCheck_parent (htag : p.tag = true) (hopen : p.otype = 0) : parentCheck p reg off = .ok () := by
  simp [parentCheck, htag, hopen]
end

section
variable {d a : Nat} {u : State}

/-- CDERIVE and CPERM end with their parent's check where it fails. -/
theorem cderiveBody_stops {o l : State → Nat} {st : Stop} (hp : parentCheck (u.c a) a (o u) = .error st) :
    cderiveBody d a o l u = .error st := by
  simp only [cderiveBody, hp]
  rfl
theorem cpermBody_stops {mask : Nat} {st : Stop} (hp : parentCheck (u.c a) a 0 = .error st) : cpermBody d a mask u = .error st := by
  simp only [cpermBody, hp]
  rfl

theorem cderiveBody_outside {o l : State → Nat} (hp : parentCheck (u.c a) a (o u) = .ok ()) (hout : (u.c a).length < o u + l u) :
    cderiveBody d a o l u = .error (capStop .capbound a (o u)) := by
  simp only [cderiveBody, hp, bind, Except.bind, if_pos hout]
  rfl
theorem cderiveBody_child {o l : State → Nat} (hp : parentCheck (u.c a) a (o u) = .ok ()) (hin : o u + l u ≤ (u.c a).length) :
    cderiveBody d a o l u = .ok (u.setC d ((u.c a).withBounds ((u.c a).base + o u) (l u))) := by
  simp only [cderiveBody, hp, bind, Except.bind, if_neg (Nat.not_lt.mpr hin)]
  rfl
theorem cpermBody_child {mask : Nat} (hp : parentCheck (u.c a) a 0 = .ok ()) :
    cpermBody d a mask u = .ok (u.setC d ((u.c a).withPerms (childPerms (u.c a).perms mask))) := by
  simp only [cpermBody, hp]
  rfl
end

/-! Seals (R283). -/

/-- CSEAL and CUNSEAL are one check in its order: each condition that fails ends in its fault, and past the last one the seal number is written. -/
theorem exec_seals {i : Instr} {f : Form} {s : State} {sealing : Bool} {a b d : Nat}
    (run : exec i s = settle f s (do
      sealCheck (s.c a) (s.c b) a b ((s.c a).otype == if sealing then 0 else (s.c b).otype)
      return (past i s).setC d ((s.c a).withOtype (if sealing then (s.c b).otype else 0)))) :
    exec i s = .next (sealed i sealing a b d s) := by
  rw [run]
  cases hkeyTag : (s.c b).tag with
  | false => simp only [sealCheck, sealed, hkeyTag]; rfl
  | true =>
  cases hkey : (s.c b).isKey with
  | false => simp only [sealCheck, sealed, hkeyTag, hkey]; rfl
  | true =>
  cases htag : (s.c a).tag with
  | false => simp only [sealCheck, sealed, hkeyTag, hkey, htag]; rfl
  | true =>
  cases hisKey : (s.c a).isKey with
  | true => simp only [sealCheck, sealed, hkeyTag, hkey, htag, hisKey]; rfl
  | false =>
  by_cases hnumber : (s.c a).otype = if sealing then 0 else (s.c b).otype
  · simp [sealCheck, sealed, hkeyTag, hkey, htag, hisKey, hnumber, bind, Except.bind, pure, Except.pure, settle_ok]
  · simp [sealCheck, sealed, hkeyTag, hkey, htag, hisKey, hnumber, bind, Except.bind, settle_fault, capStop]

/-! The frame of a result (R266, R269). -/

theorem onlyRegister_setG (i : Instr) (s : State) (d : Nat) (v : Word) : onlyRegister d s ((past i s).setG d v) := by
  refine ⟨fun n hn => setG_g_ne _ _ _ _ hn.symm, ?_, fun _ => rfl⟩
  by_cases h0 : d = 0
  · subst h0; rfl
  · simp only [State.setG, Core.setG, if_neg h0]; rfl

/-- An instruction that answers with a result in a general register changes nothing but that register. -/
theorem onlyRegister_of_result {i : Instr} {s t : State} {d : Nat} {v : Word} (hresult : exec i s = .next ((past i s).setG d v))
    (hnext : exec i s = .next t) : onlyRegister d s t := by
  cases hresult.symm.trans hnext
  exact onlyRegister_setG i s d v

end Sys2Proof.Laws
end

section
namespace Sys2Proof.Proofs
open Sys2Proof Sys2Proof.Machine Sys2Proof.Claims Sys2Proof.Laws

/-- Settles O4: each body's result, and the count of lanes set for PCNT. -/
theorem predicateResults : Obligations.PredicateResults := by
  refine ⟨?logic, ?logicShort, ?moves, ?movesShort, run_pmovFromG, run_pmovFromGL32A, run_pmovToG, run_pmovToGL32A, ?count, ?countShort⟩
  case logic =>
    simp only [List.forall_mem_cons, List.not_mem_nil, false_implies, implies_true, and_true]
    exact ⟨run_pand, run_por, run_pxor⟩
  case logicShort =>
    simp only [List.forall_mem_cons, List.not_mem_nil, false_implies, implies_true, and_true]
    exact ⟨run_pandL32A, run_porL32A, run_pxorL32A⟩
  case moves =>
    simp only [List.forall_mem_cons, List.not_mem_nil, false_implies, implies_true, and_true]
    exact ⟨run_pnot, run_pmov⟩
  case movesShort =>
    simp only [List.forall_mem_cons, List.not_mem_nil, false_implies, implies_true, and_true]
    exact ⟨run_pnotL32A, run_pmovL32A⟩
  case count =>
    intro x s h
    rw [← lanesSet_eq_countP]
    exact run_pcnt x s h
  case countShort =>
    intro x s h
    rw [← lanesSet_eq_countP]
    exact run_pcntL32A x s h

/-- Settles O7: an inspector, CCLR and CMOV always have their result. -/
theorem capabilityInspectors : Obligations.CapabilityInspectors := by
  refine ⟨?long, ?short, run_cclr, run_cclrL32A, run_cmov, run_cmovL32A⟩
  case long =>
    simp only [List.forall_mem_cons, List.not_mem_nil, false_implies, implies_true, and_true]
    exact ⟨run_cbase, run_clen, run_cperms, run_ctype, run_ctag⟩
  case short =>
    simp only [List.forall_mem_cons, List.not_mem_nil, false_implies, implies_true, and_true]
    exact ⟨run_cbaseL32A, run_clenL32A, run_cpermsL32A, run_ctypeL32A, run_ctagL32A⟩

/-- Settles O8: the parent's check, then for CDERIVE the bounds. -/
theorem capabilityDerivation : Obligations.CapabilityDerivation := by
  refine ⟨?cderive, ?cperm⟩
  case cderive =>
    rintro x s _ _ h rfl rfl
    have hrun := run_cderive x s h
    exact ⟨fun htag => run_body_capStop hrun (cderiveBody_stops (parentCheck_untagged htag)),
      fun htag hsealed => run_body_capStop hrun (cderiveBody_stops (parentCheck_sealed htag hsealed)),
      fun htag hopen hout => run_body_capStop hrun (cderiveBody_outside (parentCheck_parent htag hopen) hout),
      fun htag hopen hin => run_body_ok hrun (cderiveBody_child (parentCheck_parent htag hopen) hin)⟩
  case cperm =>
    rintro x s _ _ h rfl rfl
    have hrun := run_cperm x s h
    exact ⟨fun htag => run_body_capStop hrun (cpermBody_stops (parentCheck_untagged htag)),
      fun htag hsealed => run_body_capStop hrun (cpermBody_stops (parentCheck_sealed htag hsealed)),
      fun htag hopen => run_body_ok hrun (cpermBody_child (parentCheck_parent htag hopen))⟩

/-- Settles O9: the four forms run the one check. -/
theorem sealing : Obligations.Sealing := by
  refine ⟨?long, ?short⟩
  case long =>
    simp only [List.forall_mem_cons, List.not_mem_nil, false_implies, implies_true, and_true]
    exact ⟨fun x s h => exec_seals (run_cseal x s h), fun x s h => exec_seals (run_cunseal x s h)⟩
  case short =>
    simp only [List.forall_mem_cons, List.not_mem_nil, false_implies, implies_true, and_true]
    exact ⟨fun x s h => exec_seals (run_csealL32A x s h), fun x s h => exec_seals (run_cunsealL32A x s h)⟩

/-- Settles O12: a TRAP alone is settled on the state past it. -/
theorem trapTakesItsFault : Obligations.TrapTakesItsFault := ⟨run_trap, run_trapL32B⟩

/-- Settles O52: every scalar instruction answers with a result in its destination, and a result changes nothing else. -/
theorem scalarFrame : Obligations.ScalarFrame := by
  obtain ⟨hlong1, hlong2, hlong3, -, -⟩ := longScalarResults
  obtain ⟨hshort1, hshort2, -, -, himmediate2⟩ := shortScalarForms
  refine ⟨?one, ?two, ?three, ?shortOne, ?shortTwo, ?immediate⟩
  case one => exact fun e he x s a d t h ha hd => onlyRegister_of_result (hlong1 e he x s a d h ha hd)
  case two => exact fun e he x s a b d t h ha hb hd => onlyRegister_of_result (hlong2 e he x s a b d h ha hb hd)
  case three => exact fun e he x s a b c d t h ha hb hc hd => onlyRegister_of_result (hlong3 e he x s a b c d h ha hb hc hd)
  case shortOne => exact fun e he x s t h => onlyRegister_of_result (hshort1 e he x s h)
  case shortTwo => exact fun e he x s t h => onlyRegister_of_result (hshort2 e he x s h)
  case immediate => exact fun e he x s t h => onlyRegister_of_result (himmediate2 e he x s h)

end Sys2Proof.Proofs
end

section
/-! 11 R264, 13 R351, R356 to R360, R362: comparisons, lanes taken and given, reductions, and conversions of lanes. -/
namespace Sys2Proof.Laws
open Sys2Proof Sys2Proof.Machine Sys2Proof.Claims

/-! What a body finds: a written register, and a destination that is not bound. -/

theorem ready_written {u : State} {r : RegName} (h : u.core.isPending r = false) : u.ready r = .ok () := by simp [State.ready, h]
theorem vout_unbound {u : State} {n : Nat} (h : u.bound n = none) (size : Option Nat) (v : VWord) (gov : BitVec 64) :
    u.vout n size v gov = .ok (u.setV n v) := by simp only [State.vout, h]
theorem vold_unbound {u : State} {n : Nat} (h : u.bound n = none) : u.vold n = u.v n := by simp [State.vold, h]
theorem ite_mod (c : Prop) [Decidable c] (a b n : Nat) : (if c then a else b) % n = if c then a % n else b % n := apply_ite (· % n) c a b
theorem laneOf_mod (w : Nat) (v : VWord) (k : Nat) : laneOf w v k % 2 ^ w = laneOf w v k := Nat.mod_mod _ _

section
variable {x : Long} {u t : State}

/-! Comparisons and reductions (R356, R360, R362). -/

theorem vcmpBody_compares (hgov : governorsWritten x u) (hpair : x.width = 8 → u.core.isPending (.p (x.d.toNat % 8 + 1)) = false)
    (hpopped : u.popAll x.srcAB = .ok t) :
    vcmpBody x u = .ok (t.setPredLanes x.ty (x.d.toNat % 8) (fun k => if x.governs t k
      then elemCmp x.ty (x.d.toNat / 8) (x.va t k) (x.vb t k)
      else if x.zero then false else if x.d.toNat % 8 = 0 then false else t.predLane x.ty (x.d.toNat % 8) k)) := by
  simp only [vcmpBody, pmReady_written hgov, hpopped, bind, Except.bind, pure, Except.pure]
  by_cases hw : x.width = 8
  · simp only [if_pos hw, ready_written (hpair hw)]
  · simp only [if_neg hw]

theorem vredBody_reduces (hgov : governorsWritten x u) (hpopped : u.popAll x.srcA1 = .ok t) :
    vredBody x u = .ok (t.setG x.d.toNat (extend x.ty
      (reduceLanes x.ty x.rm x.sat (x.c.toNat % 8) (((List.range (lanes x.ty)).filter (x.governs t)).map (x.va t))))) := by
  simp only [vredBody, pmReady_written hgov, hpopped]
  rfl

theorem vdotBody_sums (hgov : governorsWritten x u) (hpopped : u.popAll x.srcAB = .ok t) :
    vdotBody x u = .ok (t.setG x.d.toNat
      (dotLanes x.ty x.rm x.sat (((List.range (lanes x.ty)).filter (x.governs t)).map (fun k => (x.va t k, x.vb t k))))) := by
  simp only [vdotBody, pmReady_written hgov, hpopped]
  rfl

/-! VMOVM (R351). -/

theorem vmovmExtractBody_takes (hpopped : u.popAll x.srcA1 = .ok t) :
    vmovmExtractBody x u = .ok (t.setG x.d.toNat (extend x.ty (laneOf x.width (t.vin x.a.toNat) x.c.toNat))) := by
  simp only [vmovmExtractBody, hpopped]
  rfl

/-- The register whose lanes are f 0, f 1 and so on, in the width of the instruction's type. -/
def laneVector (x : Long) (f : Nat → Nat) : VWord := BitVec.ofNat 512 (packLanes x.width (lanes x.ty) f)
theorem laneOf_laneVector {f : Nat → Nat} {k : Nat} (hk : k < lanes x.ty) : laneOf x.width (laneVector x f) k = f k % 2 ^ x.width :=
  lane_packed x.ty f k hk

def insertedLane (x : Long) (u : State) (k : Nat) : Nat :=
  if k = x.c.toNat then (u.g x.a.toNat).toNat else laneOf x.width (u.v x.d.toNat) k

theorem vmovmInsertBody_gives (hfree : u.bound x.d.toNat = none) :
    vmovmInsertBody x u = .ok (u.setV x.d.toNat (laneVector x (insertedLane x u))) := by
  simp only [vmovmInsertBody, vold_unbound hfree, vout_unbound hfree]
  rfl

/-! VCVT (R357). -/

/-- Lane k of VCVT's result: as it was outside PART, else converted where PM governs it. -/
def vcvtLane (x : Long) (t : State) (k : Nat) : Nat :=
  match convertedLane x k with
  | none => laneOf x.width (t.v x.d.toNat) k
  | some j => if x.governs t k
      then elemCvt x.ty (x.c.extractLsb' 0 4) x.rm x.sat (laneOf (elemBits (x.c.extractLsb' 0 4)) (t.vin x.a.toNat) j)
    else if x.zero then 0 else laneOf x.width (t.v x.d.toNat) k

theorem vcvtBody_converts (hgov : governorsWritten x u)
    (hpopped : u.popAll [(x.a.toNat, some (elemBits (x.c.extractLsb' 0 4)))] = .ok t) (hfree : t.bound x.d.toNat = none) :
    vcvtBody x u = .ok (t.setV x.d.toNat (laneVector x (vcvtLane x t))) := by
  simp only [vcvtBody, pmReady_written hgov, hpopped, bind, Except.bind, vold_unbound hfree, vout_unbound hfree]
  rfl

/-! VPACK (R358). -/

theorem vpackBody_weights (hty : x.ty = 15) (hplain : fld (u.g x.c.toNat) 63 20 = 0) (hpopped : u.popAll [(x.a.toNat, some 32)] = .ok t)
    (hfree : t.bound x.d.toNat = none) :
    vpackBody x u = .ok (t.setV x.d.toNat (overlay (t.v x.d.toNat) (packQ4g x (fld (u.g x.c.toNat) 15 0) (fld (u.g x.c.toNat) 19 16)
      (packLanes 4 16 (fun i => toQ4g x.rm (fld (u.g x.c.toNat) 15 0) (fld (u.g x.c.toNat) 19 16)
        (fpOf 10 (laneOf 32 (t.vin x.a.toNat) i))))))) := by
  simp only [vpackBody, if_pos hty, hplain, ne_eq, not_true_eq_false, if_false, hpopped, bind, Except.bind, vold_unbound hfree,
    vout_unbound hfree]

theorem vpackBody_group (hty : x.ty ≠ 15) (hpopped : u.popAll [(x.a.toNat, some (elemBits (x.c.extractLsb' 0 4)))] = .ok t)
    (hfree : t.bound x.d.toNat = none) :
    vpackBody x u = .ok (t.setV x.d.toNat (overlay (t.v x.d.toNat) (packSx x (toSx x.ty x.rm x.sat ((List.range 16).map (fun i =>
      valueOf (x.c.extractLsb' 0 4) (laneOf (elemBits (x.c.extractLsb' 0 4)) (t.vin x.a.toNat) (x.c.toNat / 16 * 16 + i)))))))) := by
  simp only [vpackBody, if_neg hty, hpopped, bind, Except.bind, vold_unbound hfree, vout_unbound hfree]

/-! VUNPACK (R359). -/

/-- The value of element i of the group named by b: of a block, or of the packed group alone. -/
def unpackedValue (x : Long) (block i : Nat) : Fp :=
  if x.flg = 1 then blockValue block (16 * x.b.toNat + i)
  else sxValue (x.c.extractLsb' 0 4) 0
    (block / 256 ^ (sxBytes (x.c.extractLsb' 0 4) * x.b.toNat) % 256 ^ sxBytes (x.c.extractLsb' 0 4)) i
/-- Lane k of VUNPACK's result: an element of the group inside PART, as it was outside. -/
def unpackedLane (x : Long) (t : State) (k : Nat) : Nat :=
  if x.c.toNat / 16 * 16 ≤ k ∧ k < x.c.toNat / 16 * 16 + 16
    then narrow x.ty x.rm (unpackedValue x (t.vin x.a.toNat).toNat (k - x.c.toNat / 16 * 16)) else laneOf x.width (t.v x.d.toNat) k

theorem vunpackBody_unpacks (hpopped : u.popAll [(x.a.toNat, some 0)] = .ok t)
    (hblock : x.flg = 1 → blockReason (t.vin x.a.toNat).toNat (x.c.extractLsb' 0 4) = none) (hfree : t.bound x.d.toNat = none) :
    vunpackBody x u = .ok (t.setV x.d.toNat (laneVector x (unpackedLane x t))) := by
  unfold unpackedLane unpackedValue
  simp only [vunpackBody, hpopped, bind, Except.bind, vold_unbound hfree, vout_unbound hfree]
  by_cases hflg : x.flg = 1
  · simp only [if_pos hflg, hblock hflg]
    rfl
  · simp only [if_neg hflg]
    rfl

end

end Sys2Proof.Laws
end

section
namespace Sys2Proof.Proofs
open Sys2Proof Sys2Proof.Machine Sys2Proof.Claims Sys2Proof.Laws

theorem vectorReductionForms : VectorReductions := by
  refine ⟨?vcmp, ?extract, ?insert, ?vred, ?vdot⟩
  case vcmp => exact fun x s t h hgov hpair hpopped => run_body_ok (run_vcmp x s h) (vcmpBody_compares hgov hpair hpopped)
  case extract => exact fun x s t h hpopped => run_body_ok (run_vmovmExtract x s h) (vmovmExtractBody_takes hpopped)
  case insert =>
    intro x s h hfree
    refine ⟨_, run_body_ok (run_vmovmInsert x s h) (vmovmInsertBody_gives (u := past _ s) hfree), fun k hk => ?_⟩
    rw [laneOf_laneVector hk, insertedLane, ite_mod, laneOf_mod]
    rfl
  case vred => exact fun x s t h hgov hpopped => run_body_ok (run_vred x s h) (vredBody_reduces hgov hpopped)
  case vdot => exact fun x s t h hgov hpopped => run_body_ok (run_vdot x s h) (vdotBody_sums hgov hpopped)

theorem vectorConversionForms : VectorConversions := by
  refine ⟨?vcvt, ?weights, ?group, ?vunpack⟩
  case vcvt =>
    rintro x s t _ h hgov rfl hpopped hfree
    refine ⟨_, run_body_ok (run_vcvt x s h) (vcvtBody_converts hgov hpopped hfree), fun k hk => ?_⟩
    rw [laneOf_laneVector hk, vcvtLane]
    cases convertedLane x k with
    | none => exact laneOf_mod _ _ _
    | some j => simp only [ite_mod, Nat.zero_mod, laneOf_mod]
  case weights =>
    exact fun x s t h hty hplain hpopped hfree =>
      run_body_ok (run_vpack x s h) (vpackBody_weights (u := past _ s) hty hplain hpopped hfree)
  case group =>
    rintro x s t _ h hty rfl hpopped hfree
    exact run_body_ok (run_vpack x s h) (vpackBody_group hty hpopped hfree)
  case vunpack =>
    rintro x s t _ _ _ h rfl hpopped rfl hblock hfree rfl
    refine ⟨_, run_body_ok (run_vunpack x s h) (vunpackBody_unpacks hpopped hblock hfree), fun k hk => ?_⟩
    rw [laneOf_laneVector hk, unpackedLane, ite_mod, laneOf_mod]
    rfl

/-- Settles O28: what each body answers, and each lane of a result read back. -/
theorem vectorReductionsAndConversions : Obligations.VectorReductionsAndConversions := ⟨vectorReductionForms, vectorConversionForms⟩

end Sys2Proof.Proofs
end

section
/-! 04 R115 to R118, 12 R332 to R335: flushes, rows opened, and requests through a line handle. -/
namespace Sys2Proof.Laws
open Sys2Proof Sys2Proof.Machine Sys2Proof.Claims

/-- An instruction whose body first waits for its vector register ends as the rest of its body does, once the register is ready. -/
theorem run_unlessWait_ok {α : Type} {i : Instr} {f : Form} {s t : State} {r : Except Stop α} {v : α} {rest : Unit → Except Stop State}
    (run : exec i s = settle f s (unlessWait r >>= rest)) (hready : r = .ok v) (hrest : rest () = .ok t) : exec i s = .next t := by
  rw [unlessWait_ok hready] at run
  exact run.trans (settle_next _ _ _ _ hrest)

/-! FLUSH and ROWOPEN (R334, R335). -/

theorem flushBody_nop {x : Long} (stack : Nat) (s : State) (hemit : x.emit = 0) : flushBody x stack s = .ok s := if_pos hemit

theorem flushBody_sends {x : Long} (stack : Nat) {s : State} (hemit : x.emit ≠ 0) (hroom : s.requestRoom (x.order s) Reply.unit 1 = .ok ()) :
    flushBody x stack s = .ok ((s.request (x.order s) (actorPart (stack * 2 ^ 10) 0) 9 .load Reply.unit 0 [] [] [] .none).leaveTokens
      (x.order s) [s.nextId]) := by
  simp only [flushBody, if_neg hemit, hroom, bind, Except.bind, pure, Except.pure]

theorem rowopenBody_sends {x : Long} {s : State} {a b : Nat} {p : Part}
    (hfirst : s.checkGlobal (askDram x.a.toNat 6 true) (s.c x.a.toNat) (x.indexB s) 1 = .ok a) (haligned : a % 1024 = 0)
    (hrow : s.checkGlobal (askDram x.a.toNat 6 true) (s.c x.a.toNat) (x.indexB s) 1024 = .ok b)
    (hresolve : s.resolve (askDram x.a.toNat 6 true) 3 b 1024 = .parts [p]) (hdram : isDram p.owner)
    (hroom : (s.touch [p]).requestRoom (x.order s) Reply.unit 1 = .ok ()) :
    rowopenBody x s = .ok (((s.touch [p]).request (x.order s) p 3 .load Reply.unit 0 [] [] [] (.result x.d.toNat)).leaveTokens (x.order s)
      ((s.touch [p]).requestToken (x.order s) p)) := by
  have horder : x.order (s.touch [p]) = x.order s := rfl
  have hplaced : ¬ a % 1024 ≠ 0 := not_not_intro haligned
  simp only [rowopenBody, hfirst, if_neg hplaced, withRow_part hrow hresolve hdram, horder, hroom, bind, Except.bind, pure, Except.pure]

/-! Requests through a line handle (R332, R335). -/

theorem handleOf_clear {v : Word} (hclear : fld v 63 16 = 0) : handleOf v = .ok (fld v 15 0) := if_neg (not_not_intro hclear)

theorem inRow_inside {off len : Nat} (hinside : off + len ≤ 1024) : inRow off len = .ok () := if_neg (Nat.not_lt.mpr hinside)

/-- The checks read the state before `use` takes its vector or its landing, and the request and its order the state after. -/
theorem rowRequest_sends {x : Long} {op len : Nat} {kind : AccKind} {off : State → Nat} {r : State → Except Stop Reply}
    {use : State → Except Stop (List Byte × Landing × State)} {s t : State} {rep : Reply} {data : List Byte} {l : Landing}
    (hclear : fld (s.g x.a.toNat) 63 16 = 0) (hinside : off s + len ≤ 1024) (hreply : r s = .ok rep)
    (hroom : s.requestRoom (x.order s) rep 1 = .ok ()) (huse : use s = .ok (data, l, t)) :
    rowRequest x op kind off len r use s = .ok (lineRequest t (x.order t) (fld (s.g x.a.toNat) 15 0) (off t) len op kind rep data l) := by
  simp only [rowRequest, handleOf_clear hclear, inRow_inside hinside, hreply, hroom, huse, bind, Except.bind, pure, Except.pure, lineRequest]

/-- A request of no bytes, as ROWHOLD, ROWREL and ROWSTAT make it, is inside any row. -/
theorem rowRequest_control {x : Long} (op : Nat) (kind : AccKind) (l : Landing) {s : State} (hclear : fld (s.g x.a.toNat) 63 16 = 0)
    (hroom : s.requestRoom (x.order s) Reply.unit 1 = .ok ()) :
    rowRequest x op kind (fun _ => 0) 0 toUnit (plainUse l) s =
      .ok (lineRequest s (x.order s) (fld (s.g x.a.toNat) 15 0) 0 0 op kind Reply.unit [] l) :=
  rowRequest_sends hclear (Nat.zero_le _) rfl hroom rfl

end Sys2Proof.Laws
end

section
namespace Sys2Proof.Proofs
open Sys2Proof Sys2Proof.Machine Sys2Proof.Claims Sys2Proof.Laws

theorem flushAndRowOpen : FlushAndRowOpen := by
  refine ⟨?nop, ?flush, ?rowopen⟩
  case nop => exact fun x s h hemit => run_body_ok (run_flush x s h) (flushBody_nop _ _ hemit)
  case flush =>
    rintro x s _ rfl h hemit hroom
    exact run_body_ok (run_flush x s h) (flushBody_sends _ hemit hroom)
  case rowopen =>
    rintro x s _ _ a b p rfl h hfirst haligned hrow hresolve hdram rfl hroom
    exact run_body_ok (run_rowopen x s h) (rowopenBody_sends hfirst haligned hrow hresolve hdram hroom)

theorem lineRequests : LineRequests := by
  refine ⟨?control, ?rowrd, ?rowrdv, ?rowwr⟩
  case control =>
    simp only [List.forall_mem_cons]
    refine ⟨?rowhold, ?rowrel, ?rowstat, fun _ hnone => absurd hnone List.not_mem_nil⟩
    case rowhold => exact fun x s h hclear hroom => run_body_ok (run_rowhold x s h) (rowRequest_control 4 .load _ hclear hroom)
    case rowrel => exact fun x s h hclear hroom => run_body_ok (run_rowrel x s h) (rowRequest_control 5 .store _ hclear hroom)
    case rowstat => exact fun x s h hclear hroom => run_body_ok (run_rowstat x s h) (rowRequest_control 8 .load _ hclear hroom)
  case rowrd =>
    rintro x s _ _ r rfl rfl h hclear hinside htarget hroom
    exact run_body_ok (run_rowrd x s h) (rowRequest_sends hclear hinside htarget hroom rfl)
  case rowrdv =>
    rintro x s _ v w rfl h hfits hclear hinside hroom hland
    exact run_unlessWait_ok (run_rowrdv x s h) hfits
      (rowRequest_sends (s := past (.rowrdv x) s) hclear hinside rfl hroom (by rw [hland]; rfl))
  case rowwr =>
    rintro x s _ _ w rfl rfl h hpopped hclear hinside hroom
    exact run_unlessWait_ok (run_rowwr x s h) hpopped
      (rowRequest_sends (s := past (.rowwr x) s) hclear hinside rfl hroom (by rw [hpopped]; rfl))

/-- Settles O25: FLUSH and ROWOPEN by their bodies, and the requests through a line handle by what they all share. -/
theorem lineInstructions : Obligations.LineInstructions := ⟨flushAndRowOpen, lineRequests⟩

end Sys2Proof.Proofs
end

section
/-! 01 R33, 02 R43, 07 R176, R183, 08 R220, 16 R425, 17 R430, 19 R454: the state after reset. -/
namespace Sys2Proof.Laws
open Sys2Proof Sys2Proof.Machine Sys2Proof.Claims

theorem at_replicate {α : Type} (n i : Nat) (x : α) : at_ (Vector.replicate n x) i x = x := by
  unfold at_
  rw [Vector.getElem?_replicate]
  split <;> rfl

/-! Every unit stands at its own reset values: none has an entry of its own yet. -/

theorem reset_getRegion (r : Nat) : State.reset.getRegion r = Region.reset r := rfl

theorem reset_getCore (p : Psn) : State.reset.getCore p = Core.reset p := by
  unfold State.getCore
  split
  · next h => rw [← h]; rfl
  · rfl

theorem reset_handler (p : Psn) {e : Nat} (he : e < 19) : (Core.reset p).handler e = handlerReset := by
  have hother : (19 : Nat) ≠ e := by omega
  have hentry := at_replicate 20 e handlerReset
  simpa only [Core.handler, Core.reset, at_, Vector.getElem?_set_ne _ hother] using hentry

theorem reset_getC (p : Psn) (n : Nat) : (Core.reset p).getC n = Cap.null := at_replicate _ n Cap.null

end Sys2Proof.Laws
end

section
namespace Sys2Proof.Proofs
open Sys2Proof Sys2Proof.Machine Sys2Proof.Claims Sys2Proof.Laws

/-- Settles O53: every unit stands at its own reset values, which are fixed words. -/
theorem resetValues : Obligations.ResetValues := by
  refine ⟨?region, ?handlers, ?caps, ?idle, rfl, rfl, rfl, by decide⟩
  case region =>
    intro r
    rw [reset_getRegion]
    exact ⟨by rfl, by rfl, rfl, rfl, rfl⟩
  case handlers =>
    intro p e he
    rw [reset_getCore, reset_handler p he]
    decide
  case caps =>
    intro p n
    rw [reset_getCore, reset_getC]
    rfl
  case idle =>
    intro p
    rw [reset_getCore]
    rfl

end Sys2Proof.Proofs
end

section
/-! 12 R313, 15 R396, R400 to R403, 16 R419 to R423: the life of a graph, and the operations on a graph as a whole. -/
namespace Sys2Proof.Laws
open Sys2Proof Sys2Proof.Machine Sys2Proof.Claims

/-! Arming, end and successors (R400 to R402, R396, R313). -/

theorem exec_graphArming_loaded {s : State} {id : Nat} {g : Graph} (hgraph : s.graphById id = some g) (hresident : g.stat = 1)
    (hnew : g.armed = false) (hall : g.unarmed = []) (hgoing : g.haltAt = none) : exec (.graphArming id) s =
      .next (match g.launcher with
        | some n => (s.armGraph g).complete n 0 (g.ctx * 2 ^ 8)
        | none => s.armGraph g) := by
  simp only [exec_graphArming, execGraphArming, hgraph]
  exact event_enabled (by simp [hresident, hnew, hall, hgoing])

theorem exec_graphEnd_ended {s : State} {id : Nat} {g : Graph} (hgraph : s.graphById id = some g) (hended : s.hasEnded g = true) :
    exec (.graphEnd id) s = .next ((s.releaseGraph g).showStat g.regionList false 0 false) := by
  simp only [exec_graphEnd, execGraphEnd, hgraph]
  exact event_enabled hended

/-- No pending graph that may load has a higher priority (R396). -/
theorem exec_successorResident_first {s : State} {id : Nat} {g : Graph} (hgraph : s.graphById id = some g) (hpending : g.stat = 0)
    (hmay : s.mayLoad g = true) (hfirst : ∀ h ∈ s.graphs, h.stat = 0 → s.mayLoad h = true → lhPrio h.header ≤ lhPrio g.header) :
    exec (.successorResident id) s = .next (s.succeed g) := by
  have hnone : s.graphs.any (fun h => h.stat == 0 && s.mayLoad h && decide (lhPrio g.header < lhPrio h.header)) = false := by
    simpa [and_imp] using hfirst
  simp only [exec_successorResident, execSuccessorResident, hgraph]
  exact event_enabled (by rw [hpending, hmay, hnone]; rfl)

theorem exec_successorCoreArming_released {s : State} {id : Nat} {g : Graph} {core : Psn} (hcore : isCorePsn core = true)
    (hgraph : s.graphById id = some g) (hresident : g.stat = 1) (hwaits : core ∈ g.unarmed) (hleft : (s.getCore core).released = true)
    (hidle : s.idleCore core = true) : exec (.successorCoreArming id core) s = .next (s.armSuccessor g core) := by
  have hunit : ¬(!isCorePsn core) = true := by simp [hcore]
  simp only [exec_successorCoreArming, execSuccessorCoreArming, if_neg hunit, hgraph]
  exact event_enabled (by simp [hresident, hwaits, hleft, hidle])

theorem exec_visibilityPost_counts {s : State} {id pred : Nat} {g : Graph} {ps : List Psn} (hgraph : s.graphById id = some g)
    (hresident : g.stat = 1) (harmed : g.armed = true) (hended : pred ∈ g.predEnded)
    (hps : ps = g.cores.filter (fun p => !g.unarmed.contains p && !g.posted.contains (pred, p))) (hsome : ps ≠ []) :
    exec (.visibilityPost id pred) s = .next ((ps.foldl (fun s p => s.modCore p (·.addQ 50 1)) s).putGraph { g with
      posted := g.posted ++ ps.map (fun p => (pred, p)) }) := by
  subst hps
  simp only [exec_visibilityPost, execVisibilityPost, hgraph]
  exact event_enabled (by rw [hresident, harmed, List.contains_iff_mem.mpr hended, bne_iff_ne.mpr hsome]; rfl)

/-- The graph that is released is no longer one of the module's (R401). -/
theorem releaseGraph_removes (s : State) (g : Graph) : ∀ h ∈ (s.releaseGraph g).graphs, h.id ≠ g.id := by
  intro h hh
  simp only [State.releaseGraph, State.noteEnd, List.mem_map, List.mem_filter] at hh
  obtain ⟨k, ⟨-, hk⟩, rfl⟩ := hh
  have hid : k.id ≠ g.id := by simpa using hk
  split <;> exact hid

/-! Whole-graph control (R419 to R423). -/

theorem graphCtlEvent_written {s : State} {op region : Nat} {v : Word} (hregion : region < 80) (hgo : bit v 63 = true) (hop : fld v 62 60 = op) :
    graphCtlEvent op region v s = .next (s.graphCtl region v) := by
  rw [graphCtlEvent, if_neg (Nat.not_le.mpr hregion)]
  exact event_enabled (by simp [hgo, hop])

/-- A write while no operation is in progress is an operation. -/
theorem graphCtl_idle {s : State} {region : Nat} {v : Word} (hgo : bit v 63 = true) (hidle : bit (s.getRegion region).graphStat 63 = false) :
    s.graphCtl region v = s.graphOp region (fld v 62 60) (fld v 36 32) (fld v 31 0) := if_pos (by simp [hgo, hidle])

/-- A write while one is in progress is ignored. -/
theorem graphCtl_busy {s : State} {region : Nat} {v : Word} (hbusy : bit (s.getRegion region).graphStat 63 = true) : s.graphCtl region v = s :=
  if_neg (by simp [hbusy])

section
variable {s : State} {region ctx : Nat} {g : Graph} (hgraph : s.graphOf region ctx = some g)
include hgraph

theorem graphOp_preempt (lead : Nat) : s.graphOp region 1 ctx lead = if g.stat = 1 ∧ g.haltAt.isNone then s.preempt g lead else s.idleOp region := by
  simp only [State.graphOp, hgraph]
theorem graphOp_resume (lead : Nat) : s.graphOp region 2 ctx lead = if g.stat = 3 ∧ s.canResume g then s.resumeGraph g else s.idleOp region := by
  simp only [State.graphOp, hgraph]
theorem graphOp_kill (lead : Nat) : s.graphOp region 3 ctx lead = s.killGraph g := by
  simp only [State.graphOp, hgraph]

end

theorem exec_graphPreemptHalt_due {s : State} {id t : Nat} {g : Graph} (hgraph : s.graphById id = some g) (hhalt : g.haltAt = some t)
    (hdue : t ≤ s.tsc.toNat) : exec (.graphPreemptHalt id) s = .next (s.haltGraph g) := by
  simp only [exec_graphPreemptHalt, execGraphPreemptHalt, hgraph, hhalt]
  exact event_enabled (decide_eq_true hdue)

theorem exec_graphPreemptQuiesce_drained {s : State} {id : Nat} {core : Psn} {g : Graph} (hcore : isCorePsn core = true)
    (hgraph : s.graphById id = some g) (hhalts : g.stat = 2) (hmine : core ∈ g.cores) (hnew : core ∉ g.halted) (hquiet : s.coreQuiet core = true) :
    exec (.graphPreemptQuiesce id core) s = .next ((s.quiesceCore core).putGraph { g with halted := g.halted ++ [core] }) := by
  have hunit : ¬(!isCorePsn core) = true := by simp [hcore]
  simp only [exec_graphPreemptQuiesce, execGraphPreemptQuiesce, if_neg hunit, hgraph]
  exact event_enabled (by simp [hhalts, hmine, hnew, hquiet])

theorem exec_contextSave_quiet {s : State} {id : Nat} {g : Graph} (hgraph : s.graphById id = some g) (hhalts : g.stat = 2)
    (hquiet : s.graphQuiet g = true) (hreads : s.canSave g = true) : exec (.contextSave id) s = .next (s.saveContext g) := by
  simp only [exec_contextSave, execContextSave, hgraph]
  exact event_enabled (by simp [hhalts, hquiet, hreads])

end Sys2Proof.Laws
end

section
namespace Sys2Proof.Proofs
open Sys2Proof Sys2Proof.Machine Sys2Proof.Claims Sys2Proof.Laws

theorem graphLifeSteps : GraphLifeSteps := by
  refine ⟨?arms, ?ends, ?loads, ?armsCore, ?posts, releaseGraph_removes⟩
  case arms =>
    intro s id g hgraph hresident hnew hall hgoing
    rw [exec_graphArming_loaded hgraph hresident hnew hall hgoing]
    exact ⟨fun hunasked => by rw [hunasked], fun n hasked => by rw [hasked]⟩
  case ends => exact fun s id g hgraph hended => exec_graphEnd_ended hgraph hended
  case loads => exact fun s id g hgraph hpending hmay hfirst => exec_successorResident_first hgraph hpending hmay hfirst
  case armsCore =>
    exact fun s id g core hcore hgraph hresident hwaits hleft hidle =>
      exec_successorCoreArming_released hcore hgraph hresident hwaits hleft hidle
  case posts =>
    exact fun s id pred g ps hgraph hresident harmed hended hps hsome => exec_visibilityPost_counts hgraph hresident harmed hended hps hsome

theorem graphControlSteps : GraphControlSteps := by
  refine ⟨?idle, ?busy, ?halts, ?quiesces, ?saves⟩
  case idle =>
    intro s region v g hregion hgo hidle hgraph
    have hwrite (op : Nat) (hop : fld v 62 60 = op) : graphCtlEvent op region v s = .next (s.graphOp region op (fld v 36 32) (fld v 31 0)) := by
      rw [graphCtlEvent_written hregion hgo hop, graphCtl_idle hgo hidle, hop]
    refine ⟨?preempt, ?preemptIdle, ?resume, ?resumeIdle, ?kill⟩
    case preempt =>
      intro hop hruns hunwarned
      rw [exec_graphPreempt, execGraphPreempt, hwrite 1 hop, graphOp_preempt hgraph, if_pos ⟨hruns, by rw [hunwarned]; rfl⟩]
    case preemptIdle =>
      intro hop hother
      rw [exec_graphPreempt, execGraphPreempt, hwrite 1 hop, graphOp_preempt hgraph, if_neg (fun h => hother h.1), State.idleOp]
    case resume =>
      intro hop hparked hplace
      rw [exec_graphResume, execGraphResume, hwrite 2 hop, graphOp_resume hgraph, if_pos ⟨hparked, hplace⟩]
    case resumeIdle =>
      intro hop hother
      rw [exec_graphResume, execGraphResume, hwrite 2 hop, graphOp_resume hgraph, if_neg (fun h => hother h.1), State.idleOp]
    case kill =>
      intro hop
      rw [exec_graphKill, execGraphKill, hwrite 3 hop, graphOp_kill hgraph]
  case busy =>
    intro s region v hregion hgo hbusy
    have hwrite (op : Nat) (hop : fld v 62 60 = op) : graphCtlEvent op region v s = .next s := by
      rw [graphCtlEvent_written hregion hgo hop, graphCtl_busy hbusy]
    exact ⟨hwrite 1, hwrite 2, hwrite 3⟩
  case halts => exact fun s id g t hgraph hhalt hdue => exec_graphPreemptHalt_due hgraph hhalt hdue
  case quiesces =>
    exact fun s id core g hcore hgraph hhalts hmine hnew hquiet => exec_graphPreemptQuiesce_drained hcore hgraph hhalts hmine hnew hquiet
  case saves => exact fun s id g hgraph hhalts hquiet hreads => exec_contextSave_quiet hgraph hhalts hquiet hreads

/-- Settles O42: each step of a graph's life and of its control by what enables it. -/
theorem graphSteps : Obligations.GraphSteps := ⟨graphLifeSteps, graphControlSteps⟩

end Sys2Proof.Proofs
end

section
/-! 15 R405 to R411: the stages of a region, and the moves of an actor from one core to another. -/
namespace Sys2Proof.Laws
open Sys2Proof Sys2Proof.Machine Sys2Proof.Claims

/-! Stages (R405 to R407). -/

theorem exec_governorSample_due {s : State} {region : Nat} (hregion : region < 80) (hdue : (s.getRegion region).governed + 4096 ≤ s.tsc.toNat) :
    exec (.governorSample region) s = .next (((((s.tiles.filter (fun t => psnRegion t.psn == region)).map (·.psn)).foldl
      (fun s t => (List.range 16).foldl (fun s n => s.governStage t n) s) s)).modRegion region (fun r => { r with governed := s.tsc.toNat })) := by
  simp only [exec_governorSample, execGovernorSample, if_neg (Nat.not_le.mpr hregion)]
  exact event_enabled (decide_eq_true hdue)

/-- CORE_i leaves for no other stage: its note holds its own place alone. -/
theorem exec_stageCoreRelease_leaves {s : State} {tile : Psn} {n : Nat} {t : Tile} {d : StageDesc} {b : Nat × Nat} (htile : isTilePsn tile = true)
    (hn : n < 16) (ht : t = s.getTile tile) (hd : d = t.stage n) (hleaves : t.stageBusy.find? (fun b => b.1 == n) = some b) (hnowhere : b.2 < 16)
    (hidle : ∀ p, s.stageCore t d b.2 = some p → hActive ((s.getCore p).handler (sgEntry d)) = false) : exec (.stageCoreRelease tile n) s =
      .next (s.putTile { t.setStage n (setBit d (12 + b.2) false) with stageBusy := t.stageBusy.filter (· != b) }) := by
  subst ht hd
  have hunit : ¬((!isTilePsn tile) = true ∨ 16 ≤ n) := by simpa [htile] using hn
  have hplace : b.2 % 16 = b.2 := Nat.mod_eq_of_lt hnowhere
  have hnext : b.2 / 16 = 0 := Nat.div_eq_of_lt hnowhere
  simp only [exec_stageCoreRelease, execStageCoreRelease, if_neg hunit, hleaves, hplace, hnext]
  exact event_enabled (by simpa [Option.all_eq_true] using hidle)

theorem exec_stageItemDelivery_delivers {s : State} {tile p : Psn} {n seg size place : Nat} {t : Tile} {d : StageDesc}
    (htile : isTilePsn tile = true) (hn : n < 16) (ht : t = s.getTile tile) (hd : d = t.stage n) (hseg : seg = sgSeg d)
    (hsize : size = segUnit (t.seg seg)) (htarget : s.stageTarget t d = some p) (hvalid : t.stageValid n = true) (hheld : fifoHeld t seg ≠ 0)
    (hfits : sgItem d + size ≤ 0x18000) (hplace : place = seg * 65536 + (at_ t.head seg 0).toNat % fifoSlots (t.seg seg) * size)
    (hreads : s.canRead p (tileKey tile place) size = true) : exec (.stageItemDelivery tile n) s =
      .next ((((s.readFor p (tileKey tile place) place size).poke (localKey p (sgItem d)) (s.bytes (tileKey tile place) size)).modTile tile
        (fun t => { t with head := put t.head seg (at_ t.head seg 0 + 1) })).fireEntry p (sgEntry d) (some 1)) := by
  subst hplace hsize hseg hd ht
  have hunit : ¬((!isTilePsn tile) = true ∨ 16 ≤ n) := by simpa [htile] using hn
  simp only [exec_stageItemDelivery, execStageItemDelivery, if_neg hunit, htarget]
  exact event_enabled (by rw [hvalid, bne_iff_ne.mpr hheld, decide_eq_true hfits, hreads]; rfl)

/-! Moves (R408, R409, R411). -/

theorem exec_moveReq_written {s : State} {region : Nat} {v : Word} (hregion : region < 80) (hgo : bit v 63 = true) :
    exec (.moveReq region v) s = .next (s.moveRequest region v) := by
  simp only [exec_moveReq, execMoveReq, if_neg (Nat.not_le.mpr hregion)]
  exact event_enabled hgo

section
variable {s : State} {region : Nat} {v : Word} (hgo : bit v 63 = true) (hidle : bit (s.getRegion region).moveStat 63 = false)
  (hnone : (s.getRegion region).move = none)
include hgo hidle hnone

theorem moveRequest_refused {n : Nat}
    (hrefused : s.moveRefusal region (fld v 36 32) (s.logicalCore (fld v 29 15)) (s.logicalCore (fld v 14 0)) = some n) :
    s.moveRequest region v = s.moveDone region n := by
  have hfree : ¬((!bit v 63) = true ∨ bit (s.getRegion region).moveStat 63 = true ∨ (s.getRegion region).move.isSome = true) := by
    simp [hgo, hidle, hnone]
  simp only [State.moveRequest, if_neg hfree, hrefused]

theorem moveRequest_begins {p q : Psn} (hfrom : s.logicalCore (fld v 29 15) = some p) (hto : s.logicalCore (fld v 14 0) = some q)
    (hallowed : s.moveRefusal region (fld v 36 32) (some p) (some q) = none) :
    s.moveRequest region v = ((s.modRegion region (fun r => { r with
      moveStat := BitVec.ofNat 64 (2 ^ 63)
      move := some { ctx := fld v 36 32, from_ := p, to_ := q, holds := (s.getCore p).holds, lease := none } })).setMoving p true).holdActor p := by
  have hfree : ¬((!bit v 63) = true ∨ bit (s.getRegion region).moveStat 63 = true ∨ (s.getRegion region).move.isSome = true) := by
    simp [hgo, hidle, hnone]
  simp only [State.moveRequest, if_neg hfree, hfrom, hto, hallowed]

end

theorem exec_moveCopy_drained {s : State} {region : Nat} {m : Move} (hregion : region < 80) (hmove : (s.getRegion region).move = some m)
    (hown : m.lease = none) (hdrained : s.actorDrained m.from_ = true) (hgoing : (s.getCore m.from_).halting = false)
    (hreads : s.canRead m.from_ (localKey m.from_ 0) 0x18000 = true) : exec (.moveCopy region) s =
      .next (((((((s.logMove region m.ctx (s.actorOn m.from_) ([m.from_].filter s.servesAny)).setMoving m.from_ false).moveActor m.from_ m.to_).modCore
        m.to_ (·.restoreHolds m.holds)).modRegion region (fun r => { r with move := none })).moveDone region 0)) := by
  simp only [exec_moveCopy, execMoveCopy, if_neg (Nat.not_le.mpr hregion), hmove]
  exact event_enabled (by simp [hown, hdrained, hgoing, hreads])

end Sys2Proof.Laws
end

section
namespace Sys2Proof.Proofs
open Sys2Proof Sys2Proof.Machine Sys2Proof.Claims Sys2Proof.Laws

theorem stageSteps : StageSteps := by
  refine ⟨?samples, ?leaves, ?delivers⟩
  case samples => exact fun s region hregion hdue => exec_governorSample_due hregion hdue
  case leaves =>
    exact fun s tile n t d b htile hn ht hd hleaves hnowhere hidle => exec_stageCoreRelease_leaves htile hn ht hd hleaves hnowhere hidle
  case delivers =>
    exact fun s tile n t d seg size p place htile hn ht hd hseg hsize htarget hvalid hheld hfits hplace hreads =>
      exec_stageItemDelivery_delivers htile hn ht hd hseg hsize htarget hvalid hheld hfits hplace hreads

theorem moveSteps : MoveSteps := by
  refine ⟨?begins, ?refused, ?copies⟩
  case begins =>
    rintro s region v p q _ hregion hgo rfl hidle hnone hfrom hto hallowed
    rw [exec_moveReq_written hregion hgo, moveRequest_begins hgo hidle hnone hfrom hto hallowed]
  case refused =>
    intro s region v n hregion hgo hidle hnone hrefused
    rw [exec_moveReq_written hregion hgo, moveRequest_refused hgo hidle hnone hrefused, State.moveDone]
  case copies =>
    exact fun s region m hregion hmove hown hdrained hgoing hreads => exec_moveCopy_drained hregion hmove hown hdrained hgoing hreads

/-- Settles O43: each step of a stage or a move by what enables it, and a request to move by what refuses it. -/
theorem stageAndMoveSteps : Obligations.StageAndMoveSteps := ⟨stageSteps, moveSteps⟩

end Sys2Proof.Proofs
end

section
/-! 17 R428 to R438: the requests, proposals and scores of test leases, the way of a lease, and retirement. -/
namespace Sys2Proof.Laws
open Sys2Proof Sys2Proof.Machine Sys2Proof.Claims

/-! Requests (R430). -/

theorem exec_leaseReq_written {s : State} {region : Nat} {w : Word} (hregion : region < 80) (hgo : bit w 63 = true) :
    exec (.leaseReq region w) s = .next (s.leaseRequest region w) := by
  simp only [exec_leaseReq, execLeaseReq, if_neg (Nat.not_le.mpr hregion)]
  exact event_enabled hgo

theorem leaseRequest_refused {s : State} {region n : Nat} {w : Word} (hgo : bit w 63 = true)
    (hrefused : s.leaseRefusal region w (s.getRegion region).leaseStart = some n) :
    s.leaseRequest region w = s.modRegion region (fun r => { r with leaseResult := BitVec.ofNat 64 (n * 2 ^ 56) }) := by
  have hwritten : ¬(!bit w 63) = true := by simp [hgo]
  simp only [State.leaseRequest, if_neg hwritten, hrefused]

theorem leaseRequest_scheduled {s t : State} {region : Nat} {w : Word} {r : Region} {u : BitVec 32} {l : Lease} (hgo : bit w 63 = true)
    (hr : r = s.getRegion region) (hu : u = w.extractLsb' 0 32) (hallowed : s.leaseRefusal region w r.leaseStart = none)
    (ht : t = (s.newLease region u 2 0 (fld w 47 32) (fld w 62 48) r.leaseStart none).modRegion region (fun x => { x with
      leaseResult := BitVec.ofNat 64 r.nextLease }))
    (hl : (t.getRegion region).leases.find? (fun l => leaseUnit l == u) = some l) :
    s.leaseRequest region w = t.scheduleLease region l r.leaseStart := by
  subst ht hu hr
  have hwritten : ¬(!bit w 63) = true := by simp [hgo]
  simp only [State.leaseRequest, if_neg hwritten, hallowed, hl]

/-! Scores and proposals (R428, R431). -/

theorem exec_scoreCtl_selected {s : State} {region : Nat} {u : BitVec 32} (hregion : region < 80) (hu : s.selected region = some u) :
    exec (.scoreCtlMismatch region) s = .next (s.addScore u 1024) ∧ exec (.scoreCtlRetire region) s = .next (s.retire u 3) := by
  simp only [exec_scoreCtlMismatch, execScoreCtlMismatch, State.scoreMismatch, exec_scoreCtlRetire, execScoreCtlRetire, State.scoreRetire,
    if_neg (Nat.not_le.mpr hregion), hu, and_self]

theorem exec_scoreCtl_unselected {s : State} {region : Nat} (hregion : region < 80) (hnone : s.selected region = none) :
    exec (.scoreCtlMismatch region) s = .next s ∧ exec (.scoreCtlRetire region) s = .next s := by
  simp only [exec_scoreCtlMismatch, execScoreCtlMismatch, State.scoreMismatch, exec_scoreCtlRetire, execScoreCtlRetire, State.scoreRetire,
    if_neg (Nat.not_le.mpr hregion), hnone, and_self]

theorem halveScores_due {s : State} {due : Nat} (hcount : due = s.tsc.toNat / 2 ^ 30 - s.module.halved) (hdue : due ≠ 0) :
    s.halveScores = { s with module := { s.module with
      halved := s.tsc.toNat / 2 ^ 30
      scores := s.module.scores.map (fun (x : BitVec 32 × BitVec 16) => if s.isRetired x.1 then x else (x.1, x.2 >>> due)) } } := by
  subst hcount
  simp only [State.halveScores, if_neg hdue]

theorem exec_sweepProposal_due {s : State} {region i : Nat} {u : BitVec 32} (hregion : region < 80) (hnext : s.sweepUnit region = some u)
    (hdue : (s.getRegion region).lastSweep + 2 ^ 20 ≤ s.tsc.toNat) (hroom : (s.getRegion region).freeLease = some i) :
    exec (.sweepProposal region) s = .next ((s.propose u 2).modRegion region (fun r => { r with lastSweep := s.tsc.toNat })) := by
  simp only [exec_sweepProposal, execSweepProposal, if_neg (Nat.not_le.mpr hregion), hnext]
  exact event_enabled (by rw [decide_eq_true hdue, hroom]; rfl)

/-! The way of a lease (R431 to R435). -/

/-- What an event does with the lease of its table entry. -/
theorem leaseEvent_held {s : State} {region e : Nat} {l : Lease} (f : Lease → Out) (hregion : region < 80) (he : e < 64)
    (hl : (s.getRegion region).lease e = some l) : leaseEvent region e s f = f l := by
  simp only [leaseEvent, if_neg (not_or.mpr ⟨Nat.not_le.mpr hregion, Nat.not_le.mpr he⟩), hl]

section
variable {s : State} {region e : Nat} {l : Lease} (hregion : region < 80) (he : e < 64) (hl : (s.getRegion region).lease e = some l)
include hregion he hl

theorem exec_leaseAckTimeout_late (hproposed : leaseState l = 0) (hlate : l.since + 2 ^ 26 ≤ s.tsc.toNat) :
    exec (.leaseAckTimeout region e) s = .next (s.scheduleLease region l (s.tsc + 1000000)) := by
  rw [exec_leaseAckTimeout, execLeaseAckTimeout, leaseEvent_held _ hregion he hl]
  exact event_enabled (by rw [hproposed, decide_eq_true hlate]; rfl)

theorem exec_leaseDeferExpiry_late (hdeferred : leaseState l = 1) (hlate : l.since + 2 ^ 30 ≤ s.tsc.toNat) :
    exec (.leaseDeferExpiry region e) s = .next (s.setLease region { (l.enter 0 s.tsc.toNat) with
      w0 := setFld (setFld l.w0 62 60 0) 57 55 (leaseDefers l + 1) }) := by
  rw [exec_leaseDeferExpiry, execLeaseDeferExpiry, leaseEvent_held _ hregion he hl]
  exact event_enabled (by rw [hdeferred, decide_eq_true hlate]; rfl)

/-- LEASE_PEND comes first where a ring runs over the unit. -/
theorem exec_leaseStart_pends {r : Ring} (hring : s.unitRing (leaseUnit l) = some r) (hdue : s.leaseDue region l = true) (hnew : r.leaseAt = none) :
    exec (.leaseStart region e) s = .next (s.pendRing region r true) := by
  rw [exec_leaseStart, execLeaseStart, leaseEvent_held _ hregion he hl]
  simp only [hring]
  exact if_pos ⟨hdue, by rw [hnew]; rfl⟩

/-- Leases start in the order of their numbers (R431). -/
theorem exec_leaseStart_begins (hring : s.unitRing (leaseUnit l) = none) (hcan : s.leaseCanStart region l = true)
    (hfirst : ∀ m ∈ (s.getRegion region).leases, leaseNumber m < leaseNumber l → s.leaseCanStart region m = false) :
    exec (.leaseStart region e) s = .next (s.beginEvacuation cancelForLease region l) := by
  have hnone : (s.getRegion region).leases.any (fun m => decide (leaseNumber m < leaseNumber l) && s.leaseCanStart region m) = false := by
    simpa using hfirst
  rw [exec_leaseStart, execLeaseStart, leaseEvent_held _ hregion he hl]
  simp only [hring]
  exact event_enabled (by rw [hcan, hnone]; rfl)

/-- A unit other than a core that is not to retire goes on to its tests; the change is announced with the spare's capacity (R435, R438). -/
theorem exec_leaseEvacuationDone_tests {t : State} (hevacuates : leaseState l = 3) (hover : s.evacuated region l = true)
    (ht : t = s.moveContents region l) (hstays : t.retiringUnit (leaseUnit l) = false) (hscore : t.score (leaseUnit l) < 32768)
    (hspared : unitKind (leaseUnit l) < 4) (hnocore : unitKind (leaseUnit l) ≠ 0) : exec (.leaseEvacuationDone region e) s =
      .next ((t.setLease region { (l.enter 4 t.tsc.toNat) with started := true }).announceUnit (leaseSubject l) 5 s.tsc.toNat
        (s.capacity (leaseUnit l)) (s.capacity (leaseSpare l))) := by
  subst ht
  have hkeeps : ((s.moveContents region l).retiringUnit (leaseUnit l) || decide (32768 ≤ (s.moveContents region l).score (leaseUnit l))) = false := by
    simpa [hstays] using hscore
  rw [exec_leaseEvacuationDone, execLeaseEvacuationDone, leaseEvent_held _ hregion he hl]
  simp only [hkeeps, if_pos hspared, hnocore, false_and, if_false, Bool.false_eq_true]
  exact event_enabled (by rw [hevacuates, hover]; rfl)

theorem exec_testPatternResult_tests (mismatch : Bool) (syn : Word) (htests : leaseState l = 4) : exec (.testPatternResult region e mismatch syn) s =
    .next (if mismatch then (s.setLease region { l with
        passed := true, failing := BitVec.ofNat 16 (fld l.w0 47 32), syndrome := syn }).addScore (leaseUnit l) 4096
      else s.setLease region { l with passed := true }) := by
  rw [exec_testPatternResult, execTestPatternResult, leaseEvent_held _ hregion he hl]
  refine (event_enabled (by rw [htests]; rfl)).trans ?_
  cases mismatch <;> rfl

theorem exec_leaseTestingEnd_over {next : Nat} (htests : leaseState l = 4)
    (hover : l.passed = true ∨ l.since + leaseDuration l * 2 ^ 20 ≤ s.tsc.toNat) (hnocore : unitKind (leaseUnit l) ≠ 0)
    (hnext : next = if s.retiringUnit (leaseUnit l) = true ∨ 32768 ≤ s.score (leaseUnit l) then 6 else 5) :
    exec (.leaseTestingEnd region e) s = .next ((s.setLease region (l.enter next s.tsc.toNat)).modRegion region (fun r => { r with
      tested := r.tested.filter (fun (x : BitVec 32 × Nat) => x.1 != leaseUnit l) ++ [(leaseUnit l, s.tsc.toNat)] })) := by
  subst hnext
  rw [exec_leaseTestingEnd, execLeaseTestingEnd, leaseEvent_held _ hregion he hl]
  simp only [if_neg hnocore, Bool.or_eq_true, decide_eq_true_eq]
  exact event_enabled (by simpa [htests] using hover)

theorem exec_leaseRestoreDone_retires (hrestores : leaseState l = 5) (hretires : s.retiringUnit (leaseUnit l) = true) :
    exec (.leaseRestoreDone region e) s = .next (s.setLease region (l.enter 6 s.tsc.toNat)) := by
  rw [exec_leaseRestoreDone, execLeaseRestoreDone, leaseEvent_held _ hregion he hl]
  exact (event_enabled (by rw [hrestores]; rfl)).trans (congrArg _ (if_pos hretires))

/-- A store tile is a spare again, and its entry free. -/
theorem exec_leaseRestoreDone_tile {t : State} (hrestores : leaseState l = 5) (hstays : s.retiringUnit (leaseUnit l) = false)
    (hkind : unitKind (leaseUnit l) = 1)
    (ht : t = (s.modRegion region (·.dropLease l.index)).modTile (unitPsn (leaseUnit l)) (fun x => { x with withdrawn := false })) :
    exec (.leaseRestoreDone region e) s = .next (t.announceUnit (leaseSubject l) 2 s.tsc.toNat (s.capacity (leaseSubject l))
      (t.capacity (leaseSubject l))) := by
  subst ht
  have hspared : (1 : Nat) < 4 := by decide
  have hkeeps : ¬s.retiringUnit (leaseUnit l) = true := by simp [hstays]
  rw [exec_leaseRestoreDone, execLeaseRestoreDone, leaseEvent_held _ hregion he hl]
  simp only [hkind, if_pos hspared, if_neg hkeeps]
  exact event_enabled (by rw [hrestores]; rfl)

end

/-! Retirement (R436, R437). What a withdrawal and its announcement do to the units, they leave the module's records alone. -/

theorem foldl_keeps_module {α : Type} {f : State → α → State} (hf : ∀ s a, (f s a).module = s.module) (l : List α) (s : State) :
    (l.foldl f s).module = s.module :=
  (List.foldl_hom State.module (g₂ := fun m _ => m) fun s a => (hf s a).symm).symm.trans (List.foldl_fixed _)

@[simp] theorem modRegion_module (s : State) (r : Nat) (f : Region → Region) : (s.modRegion r f).module = s.module := rfl
@[simp] theorem modTile_module (s : State) (p : Psn) (f : Tile → Tile) : (s.modTile p f).module = s.module := rfl
@[simp] theorem modActor_module (s : State) (n : Nat) (f : Actor → Actor) : (s.modActor n f).module = s.module := rfl
@[simp] theorem modCore_module (s : State) (p : Psn) (f : Core → Core) : (s.modCore p f).module = s.module := by
  unfold State.modCore State.putCore; split <;> rfl
@[simp] theorem pendRing_module (s : State) (region : Nat) (r : Ring) (b : Bool) : (s.pendRing region r b).module = s.module :=
  foldl_keeps_module (fun s p => modCore_module s p _) _ _
@[simp] theorem notify_module (s : State) (src : Psn) (sender : BitVec 24) (p : Psn) (payload : List Byte) :
    (s.notify src sender p payload).module = s.module := by
  unfold State.notify
  split
  · rfl
  · split <;> rfl
@[simp] theorem announceUnit_module (s : State) (u : UnitWord) (reason tsc old new : Nat) :
    (s.announceUnit u reason tsc old new).module = s.module := by
  unfold State.announceUnit
  split
  · exact foldl_keeps_module (fun s p => notify_module s _ _ p _) _ _
  · rfl
@[simp] theorem withdraw_module (s : State) (region : Nat) (u : UnitWord) : (s.withdraw region u).module = s.module := by
  have hhosted : (if unitKind u ≤ 2 then s.rehostTrees region else s).module = s.module := by split <;> rfl
  unfold State.withdraw
  rw [← hhosted]
  generalize (if unitKind u ≤ 2 then s.rehostTrees region else s) = t
  dsimp only
  split
  · exact modCore_module t _ _
  · rfl
  · rfl
  · rfl
  · split
    · exact pendRing_module t _ _ _
    · rfl
  · rfl

theorem exec_retirementCountersigned_started {s : State} {region e : Nat} {l : Lease} (hregion : region < 80) (he : e < 64)
    (hl : (s.getRegion region).lease e = some l) (hretires : leaseState l = 6) (hkey : s.module.xmssSpent = false) (hstarted : l.started = true) :
    ∃ t, exec (.retirementCountersigned region e) s = .next t ∧ t.module.recordSeq = s.module.recordSeq + 1 ∧
      leaseUnit l ∈ t.module.retired ∧ t.module.xmssIndex = s.module.xmssIndex + 1 := by
  rw [exec_retirementCountersigned, execRetirementCountersigned, leaseEvent_held _ hregion he hl]
  refine ⟨_, event_enabled (by rw [hretires, hkey]; rfl), ?_⟩
  simp [hstarted, State.regrade, State.sign]

theorem exec_retirementNoticeExpiry_over {s : State} {region i : Nat} {u : BitVec 32} {x : BitVec 32 × Nat × Nat} {t : State} {l : Lease}
    (hregion : region < 80) (hnotice : (s.getRegion region).retiring.find? (fun x => x.1 == u) = some x) (hover : x.2.1 ≤ s.tsc.toNat)
    (hfree : s.hasLease u = false) (hused : s.carries u = true) (hspared : s.cannotLeave u = false)
    (hroom : (s.getRegion region).freeLease = some i) (hready : s.leaseReady u = true) (hmoves : s.moveFree region u = true)
    (hring : s.unitRing u = none) (ht : t = s.newLease region u 3 0 0xFFFF 0 0 (some 0))
    (hl : (t.getRegion region).leases.find? (fun l => leaseUnit l == u) = some l) :
    exec (.retirementNoticeExpiry region u) s = .next (t.beginEvacuation cancelForLease region l) := by
  subst ht
  simp only [exec_retirementNoticeExpiry, execRetirementNoticeExpiry, if_neg (Nat.not_le.mpr hregion), hnotice, hl]
  exact event_enabled (by simp [hover, hfree, hused, hspared, hroom, hready, hmoves, hring])

end Sys2Proof.Laws
end

section
namespace Sys2Proof.Proofs
open Sys2Proof Sys2Proof.Machine Sys2Proof.Claims Sys2Proof.Laws

theorem leaseRequests : LeaseRequests := by
  refine ⟨?refused, ?scheduled, ?selected, ?unselected, ?halves, ?sweeps, ?late⟩
  case refused =>
    intro s region w n hregion hgo hrefused
    rw [exec_leaseReq_written hregion hgo, leaseRequest_refused hgo hrefused]
  case scheduled =>
    intro s region w r u t l hregion hgo hr hu hallowed ht hl
    rw [exec_leaseReq_written hregion hgo, leaseRequest_scheduled hgo hr hu hallowed ht hl]
  case selected => exact fun s region u hregion hu => exec_scoreCtl_selected hregion hu
  case unselected => exact fun s region hregion hnone => exec_scoreCtl_unselected hregion hnone
  case halves =>
    intro s due hcount hdue
    rw [exec_scoreHalving, execScoreHalving, halveScores_due hcount hdue]
  case sweeps => exact fun s region u i hregion hnext hdue hroom => exec_sweepProposal_due hregion hnext hdue hroom
  case late =>
    exact fun s region e l hregion he hl => ⟨exec_leaseAckTimeout_late hregion he hl, exec_leaseDeferExpiry_late hregion he hl⟩

theorem leaseWay : Claims.LeaseSteps := by
  refine ⟨?starts, ?tests, ?pattern, ?ends, ?retires, ?restores, ?recorded, ?expires⟩
  case starts =>
    exact fun s region e l hregion he hl =>
      ⟨fun r hring hdue hnew => exec_leaseStart_pends hregion he hl hring hdue hnew,
       fun hring hcan hfirst => exec_leaseStart_begins hregion he hl hring hcan hfirst⟩
  case tests =>
    exact fun s region e l t hregion he hl hevacuates hover ht hstays hscore hspared hnocore =>
      exec_leaseEvacuationDone_tests hregion he hl hevacuates hover ht hstays hscore hspared hnocore
  case pattern =>
    exact fun s region e l syn hregion he hl htests =>
      ⟨exec_testPatternResult_tests hregion he hl false syn htests, exec_testPatternResult_tests hregion he hl true syn htests⟩
  case ends =>
    exact fun s region e l next hregion he hl htests hover hnocore hnext => exec_leaseTestingEnd_over hregion he hl htests hover hnocore hnext
  case retires => exact fun s region e l hregion he hl hrestores hretires => exec_leaseRestoreDone_retires hregion he hl hrestores hretires
  case restores =>
    exact fun s region e l t hregion he hl hrestores hstays hkind ht => exec_leaseRestoreDone_tile hregion he hl hrestores hstays hkind ht
  case recorded =>
    exact fun s region e l hregion he hl hretires hkey hstarted => exec_retirementCountersigned_started hregion he hl hretires hkey hstarted
  case expires =>
    exact fun s region u x i t l hregion hnotice hover hfree hused hspared hroom hready hmoves hring ht hl =>
      exec_retirementNoticeExpiry_over hregion hnotice hover hfree hused hspared hroom hready hmoves hring ht hl

/-- Settles O45: requests and scores by what they select, and each event of a lease by the entry it acts on. -/
theorem leaseSteps : Obligations.LeaseSteps := ⟨leaseRequests, leaseWay⟩

end Sys2Proof.Proofs
end

section
/-! 15 R395, R403, 16 R419, 18 R441 to R448: the rings of the host-service cores, the requests taken from them, and the transfer engines. -/
namespace Sys2Proof.Laws
open Sys2Proof Sys2Proof.Machine Sys2Proof.Claims

/-! A write of one field of a register. -/

theorem toNat_setFld {n : Nat} (w : BitVec n) {hi lo : Nat} (v : Nat) (hlo : lo ≤ hi) : (setFld w hi lo v).toNat =
    (2 ^ lo * (2 ^ (hi + 1 - lo) * (w.toNat / 2 ^ (hi + 1)) + v % 2 ^ (hi + 1 - lo)) + w.toNat % 2 ^ lo) % 2 ^ n := by
  have hpow : 2 ^ (hi + 1) = 2 ^ lo * 2 ^ (hi + 1 - lo) := by rw [← Nat.pow_add]; congr 1; omega
  have hhigh : w.toNat / 2 ^ (hi + 1) = w.toNat / 2 ^ lo / 2 ^ (hi + 1 - lo) := by rw [hpow, Nat.div_div_eq_div_mul]
  have hlow := Nat.div_add_mod w.toNat (2 ^ lo)
  have hmid := Nat.div_add_mod (w.toNat / 2 ^ lo) (2 ^ (hi + 1 - lo))
  rw [setFld, BitVec.toNat_ofNat, hhigh]
  congr 1
  generalize w.toNat / 2 ^ lo = q at *
  generalize 2 ^ (hi + 1 - lo) = k at *
  have hq : 2 ^ lo * q = 2 ^ lo * (k * (q / k)) + q % k * 2 ^ lo := by rw [Nat.mul_comm (q % k), ← Nat.mul_add, hmid]
  have hsum : 2 ^ lo * (k * (q / k) + v % k) = 2 ^ lo * (k * (q / k)) + v % k * 2 ^ lo := by rw [Nat.mul_add, Nat.mul_comm (v % k)]
  omega

theorem getLsbD_setFld {n : Nat} (w : BitVec n) {hi lo : Nat} (v i : Nat) (hlo : lo ≤ hi) : (setFld w hi lo v).getLsbD i =
    (decide (i < n) && if lo ≤ i ∧ i ≤ hi then v.testBit (i - lo) else w.getLsbD i) := by
  have hlow : w.toNat % 2 ^ lo < 2 ^ lo := Nat.mod_lt _ (Nat.two_pow_pos lo)
  have hmid : v % 2 ^ (hi + 1 - lo) < 2 ^ (hi + 1 - lo) := Nat.mod_lt _ (Nat.two_pow_pos _)
  rw [BitVec.getLsbD, toNat_setFld w v hlo, Nat.testBit_mod_two_pow, Nat.testBit_two_pow_mul_add _ hlow, Nat.testBit_two_pow_mul_add _ hmid,
    Nat.testBit_mod_two_pow, Nat.testBit_mod_two_pow, Nat.testBit_div_two_pow, BitVec.getLsbD]
  congr 1
  rcases Nat.lt_or_ge i lo with hbelow | hfrom
  · simp [hbelow, Nat.not_le.mpr hbelow]
  · rcases Nat.lt_or_ge hi i with habove | hupto
    · have hplace : i - lo - (hi + 1 - lo) + (hi + 1) = i := by omega
      have hpast : ¬i - lo < hi + 1 - lo := by omega
      simp [Nat.not_lt.mpr hfrom, Nat.not_le.mpr habove, hpast, hplace]
    · have hin : i - lo < hi + 1 - lo := by omega
      simp [Nat.not_lt.mpr hfrom, hfrom, hupto, hin]

theorem getLsbD_bitsOf {hi lo : Nat} (i : Nat) (hlo : lo ≤ hi) : (bitsOf hi lo).getLsbD i = decide (i < 64 ∧ lo ≤ i ∧ i ≤ hi) := by
  have hmask : 2 ^ (hi + 1) - 2 ^ lo = (2 ^ (hi + 1 - lo) - 1) * 2 ^ lo := by
    rw [Nat.sub_mul, Nat.one_mul, ← Nat.pow_add]; congr 2; omega
  rw [bitsOf, BitVec.getLsbD_ofNat, hmask, Nat.testBit_mul_two_pow, Nat.testBit_two_pow_sub_one]
  rw [Bool.eq_iff_iff]
  simp only [Bool.and_eq_true, decide_eq_true_eq]
  omega

/-- A write of one writable field, whatever else of the register is writable. -/
theorem onto_field {hi lo v : Nat} (old more : Word) (hlo : lo ≤ hi) :
    WordWrite.onto { value := BitVec.ofNat 64 (v * 2 ^ lo), mask := bitsOf hi lo } old (bitsOf hi lo ||| more) = setFld old hi lo v := by
  apply BitVec.eq_of_getLsbD_eq
  intro i hi'
  rw [getLsbD_setFld old v i hlo]
  simp only [WordWrite.onto, BitVec.getLsbD_or, BitVec.getLsbD_and, BitVec.getLsbD_not, getLsbD_bitsOf i hlo, BitVec.getLsbD_ofNat,
    Nat.testBit_mul_two_pow, hi', decide_true, Bool.true_and, true_and]
  by_cases hfield : lo ≤ i ∧ i ≤ hi
  · simp [hfield]
  · simp [hfield]

theorem execRqDoorbell_moves {s : State} {n : Nat} (v : BitVec 16) (hn : n < 4) :
    exec (.rqDoorbell n v) s = .next (s.putHost n { s.getHost n with rqCtl := setFld (s.getHost n).rqCtl 63 48 v.toNat }).unpark := by
  have hnames : bit (bitsOf 63 48) 63 = true := by decide
  simp only [exec_rqDoorbell, execRqDoorbell, if_neg (Nat.not_le.mpr hn), State.writeHost, WordWrite.names, hnames, true_or, if_true,
    onto_field _ _ (show 48 ≤ 63 by decide)]

theorem execCqCtlHeadWrite_moves {s : State} {n : Nat} (v : BitVec 16) (hn : n < 4) :
    exec (.cqCtlHeadWrite n v) s = .next (s.putHost n { s.getHost n with cqCtl := setFld (s.getHost n).cqCtl 47 32 v.toNat }) := by
  have hfield := onto_field (v := v.toNat) (s.getHost n).cqCtl 0 (show 32 ≤ 47 by decide)
  have halone : bitsOf 47 32 ||| 0 = bitsOf 47 32 := BitVec.or_zero
  simp only [exec_cqCtlHeadWrite, execCqCtlHeadWrite, if_neg (Nat.not_le.mpr hn), State.writeHost, halone ▸ hfield]

/-! The steps of a request (R441, R442). -/

theorem rqStep_of_op {r : Request} (h : 1 ≤ rqOp r ∧ rqOp r ≤ 9) : rqStep r = rqOp r := if_pos h

theorem canTake_idle {s : State} {h : HostCore} (hcan : s.canTake h = true) : h.request = none := by
  simp only [State.canTake, Bool.and_eq_true] at hcan
  exact Option.isNone_iff_eq_none.mp hcan.1.1.1.1.1

/-- A request of the step's own kind is taken and started. -/
theorem hostStep_taken {s : State} {n op : Nat} {r : Request} (start go : Request → State → State) (h : requested s n op r)
    (hop : 1 ≤ op ∧ op ≤ 9) : hostStep op n start go s = .next (start r (s.takeRequest n)) := by
  obtain ⟨hn, hcan, rfl, hkind, hzeros⟩ := h
  subst hkind
  have htakes : ¬((!s.canTake (s.getHost n)) = true ∨ rqStep (s.nextRequest (s.getHost n)) ≠ rqOp (s.nextRequest (s.getHost n))) := by
    simp [hcan, rqStep_of_op hop]
  have hsound : ¬(rqOp (s.nextRequest (s.getHost n)) ≠ rqOp (s.nextRequest (s.getHost n)) ∨ (!rqZeros (s.nextRequest (s.getHost n))) = true) := by
    simp [hzeros]
  simp only [hostStep, if_neg (Nat.not_le.mpr hn), canTake_idle hcan, if_neg htakes, if_neg hsound]

/-- A reserved OP is taken by READ's step, and completes with 5 (R442). -/
theorem hostStep_reserved {s : State} {n : Nat} {r : Request} (start go : Request → State → State) (hn : n < 4)
    (hcan : s.canTake (s.getHost n) = true) (hr : r = s.nextRequest (s.getHost n)) (hop : ¬(1 ≤ rqOp r ∧ rqOp r ≤ 9)) :
    hostStep 1 n start go s = .next ((s.takeRequest n).complete n 5 0) := by
  subst hr
  have htakes : ¬((!s.canTake (s.getHost n)) = true ∨ rqStep (s.nextRequest (s.getHost n)) ≠ 1) := by simp [hcan, rqStep, if_neg hop]
  have hother : rqOp (s.nextRequest (s.getHost n)) ≠ 1 := fun h => hop (by omega)
  simp only [hostStep, if_neg (Nat.not_le.mpr hn), canTake_idle hcan, if_neg htakes, if_pos (Or.inl hother)]

theorem hostStep_underWay {s : State} {n op : Nat} {r : Request} (start go : Request → State → State) (h : underWay s n op r)
    (hop : 1 ≤ op ∧ op ≤ 9) : hostStep op n start go s = .next (go r s) := by
  obtain ⟨hn, hrequest, hkind⟩ := h
  subst hkind
  simp only [hostStep, if_neg (Nat.not_le.mpr hn), hrequest, rqStep_of_op hop, if_true]

/-- A request that is over in one step. -/
theorem hostOnce_taken {s : State} {n op : Nat} {r : Request} (f : Request → State → State) (h : requested s n op r)
    (hop : 1 ≤ op ∧ op ≤ 9) : hostOnce op n f s = .next (f r (s.takeRequest n)) := hostStep_taken f _ h hop

/-! Copies and barriers (R443, R444). -/

/-- A copy that is sound as it is taken goes on; another completes with its status. -/
theorem startCopy_status (n : Nat) (r : Request) (s : State) :
    startCopy n r s = if s.copyStatus n r = 0 then s else s.complete n (s.copyStatus n r) 0 := by
  unfold startCopy
  by_cases h : s.copyStatus n r = 0 <;> simp [h]

theorem exec_barrierForward_acknowledges {s : State} {id t origin : Nat} (hitem : s.item id = some (.barrierForward t origin []))
    (hidle : (s.getHost t).request = none) : exec (.barrierForward id) s =
      .next ((s.dropItem id).putHost origin { s.getHost origin with acks := (s.getHost origin).acks ++ [t] }) := by
  simp only [exec_barrierForward, execBarrierForward, hitem, hidle, Option.any_none, Bool.false_eq_true, false_and, if_false]

/-! Graphs and the monitor (R395, R403, R419, R447, R448). -/

theorem awaitArming_armed {s : State} {n : Nat} {g : Graph} (hgraph : s.graphs.find? (fun g => g.launcher == some n) = some g)
    (harmed : g.armed = true) : s.awaitArming n = (s.putGraph { g with launcher := none }).complete n 0 (g.ctx * 2 ^ 8) := by
  simp only [State.awaitArming, hgraph, if_pos harmed]

theorem exec_launch_places {s : State} {n st ctx : Nat} {r : Request} {t : State} (h : requested s n 4 r)
    (hwindow : (s.takeRequest n).inWindow n (rqHost r) 128 = true)
    (hlaunch : (st, ctx, t) = (s.takeRequest n).launch n (BitVec.ofNat 1024 (ofLe ((s.takeRequest n).bytes (companionKey (rqHost r)) 128)))) :
    exec (.launch n) s = .next (if st = 0 then t else t.complete n 0 (st + ctx * 2 ^ 8)) := by
  have hinside : ¬(!(s.takeRequest n).inWindow n (rqHost r) 128) = true := by simp [hwindow]
  rw [exec_launch, execLaunch, hostStep_taken _ _ h (by decide), if_neg hinside, ← hlaunch]

theorem exec_graph_busy {s : State} {n region : Nat} {r : Request} {v : Word} (h : requested s n 5 r) (hv : v = BitVec.ofNat 64 (rqArg r 24 8))
    (hregion : region = (s.takeRequest n).graphTarget n (fld v 36 32)) (hbusy : bit ((s.takeRequest n).getRegion region).graphStat 63 = true) :
    exec (.graph n) s = .next ((s.takeRequest n).complete n 4 0) := by
  subst hregion hv
  rw [exec_graph, execGraph, hostOnce_taken _ h (by decide), if_pos hbusy]

theorem exec_graph_writes {s : State} {n region : Nat} {r : Request} {v : Word} (h : requested s n 5 r) (hv : v = BitVec.ofNat 64 (rqArg r 24 8))
    (hregion : region = (s.takeRequest n).graphTarget n (fld v 36 32)) (hidle : bit ((s.takeRequest n).getRegion region).graphStat 63 = false) :
    exec (.graph n) s = .next (((s.takeRequest n).graphCtl region v).complete n 0 0) := by
  subst hregion hv
  rw [exec_graph, execGraph, hostOnce_taken _ h (by decide), if_neg (by simp [hidle])]

theorem exec_attest_signs {s : State} {n : Nat} {r : Request} {q : List Byte} {g : List Byte × State} (h : requested s n 6 r)
    (hwindow : (s.takeRequest n).inWindow n (rqHost r) 2948 = true) (hkey : (s.takeRequest n).module.xmssSpent = false)
    (hq : q = (s.takeRequest n).quote (rqArg r 24 32)) (hg : g = (s.takeRequest n).sign q) :
    exec (.attest n) s = .next ((g.2.poke (companionKey (rqHost r)) (q ++ slice g.1 0 2820)).complete n 0 2948) := by
  subst hg hq
  rw [exec_attest, execAttest, hostOnce_taken _ h (by decide), if_neg (by simp [hwindow]), if_neg (by simp [hkey])]

theorem exec_keyload_loads {s u : State} {n slot : Nat} {r : Request} {k : BitVec 512} (h : requested s n 7 r) (hu : u = s.takeRequest n)
    (hslot : slot = rqArg r 24 2) (hpos : 0 < slot) (hlast : slot < 4096) (hwindow : u.inWindow n (rqHost r) 72 = true)
    (hkey : unwrapKey u.module.kek (u.bytes (companionKey (rqHost r)) 72) = some k) (hfree : u.keyLoaded slot = false)
    (hunused : u.keyUsed slot = false) : exec (.keyload n) s =
      .next (State.complete { u with module := { u.module with keySlots := u.module.keySlots ++ [(slot, k)] } } n 0 0) := by
  subst hslot hu
  have hin : ¬(rqArg r 24 2 = 0 ∨ 4095 < rqArg r 24 2) := by omega
  rw [exec_keyload, execKeyload, hostOnce_taken _ h (by decide)]
  simp only [if_neg hin, hwindow, hkey, hfree, hunused, Bool.not_true, Bool.false_eq_true, or_self, if_false]

theorem exec_keyclr_clears {s u : State} {n slot : Nat} {r : Request} (h : requested s n 8 r) (hu : u = s.takeRequest n)
    (hslot : slot = rqArg r 24 2) (hpos : 0 < slot) (hlast : slot < 4096) (hunused : u.keyUsed slot = false) : exec (.keyclr n) s =
      .next (State.complete { u with module := { u.module with
        keySlots := u.module.keySlots.filter (fun (x : Nat × BitVec 512) => x.1 != slot) } } n 0 0) := by
  subst hslot hu
  have hin : ¬(rqArg r 24 2 = 0 ∨ 4095 < rqArg r 24 2) := by omega
  rw [exec_keyclr, execKeyclr, hostOnce_taken _ h (by decide)]
  simp only [if_neg hin, hunused, Bool.false_eq_true, if_false]

theorem exec_cancel_pending {s : State} {n : Nat} {r : Request} {g : Graph} (h : requested s n 9 r)
    (hgraph : (s.takeRequest n).graphById (rqArg r 24 2) = some g) (hpending : g.stat = 0) : exec (.cancel n) s =
      .next (State.complete { s.takeRequest n with graphs := (s.takeRequest n).graphs.filter (·.id != g.id) } n 0 0) := by
  rw [exec_cancel, execCancel, hostOnce_taken _ h (by decide)]
  simp only [hgraph, hpending, if_true]

theorem exec_cancel_unknown {s : State} {n : Nat} {r : Request} (h : requested s n 9 r)
    (hnone : (s.takeRequest n).graphById (rqArg r 24 2) = none) : exec (.cancel n) s = .next ((s.takeRequest n).complete n 5 0) := by
  rw [exec_cancel, execCancel, hostOnce_taken _ h (by decide)]
  simp only [hnone]

/-! Transfer engines (R445). -/

theorem exec_transferEngineStart_takes {s : State} {port len peer : Nat} {pa remote : BitVec 48} (hport : port < 32) (hpeer : peer < 2 ^ 20)
    (hlen : len < 2 ^ 44) (hextent : transferable pa.toNat len = true) : exec (.transferEngineStart port pa len peer remote) s =
      .next { s with
        module := { s.module with
          ports := upsert s.module.ports (fun p => p.1 == port) (port, BitVec.ofNat 64 pa.toNat, BitVec.ofNat 64 remote.toNat,
            BitVec.ofNat 64 (len * 2 ^ 20 + peer)) } } := by
  have hunit : ¬(¬(port < 32 ∨ (256 ≤ port ∧ port < 272)) ∨ 2 ^ 20 ≤ peer ∨ 2 ^ 44 ≤ len ∨ (!transferable pa.toNat len) = true) := by
    rintro (hother | hpeer' | hlen' | hrefused)
    · exact hother (.inl hport)
    · exact absurd hpeer (Nat.not_lt.mpr hpeer')
    · exact absurd hlen (Nat.not_lt.mpr hlen')
    · simp [hextent] at hrefused
  simp only [exec_transferEngineStart, execTransferEngineStart, if_neg hunit]

theorem exec_remoteTransferComplete_lands {s t : State} {port ctr : Nat} {pa : BitVec 48} {data : List Byte} {tile : Psn}
    (hport : portExists port = true) (htile : isTilePsn tile = true) (hctr : ctr < 16) (hextent : transferable pa.toNat data.length = true)
    (hlands : s.landTransfer (externalPsn (port / 256) (port % 256)) (pieces pa.toNat data.length 1024) data = some t) :
    exec (.remoteTransferComplete ⟨port, pa⟩ data tile ctr) s =
      .next (t.modTile tile (fun x => { x with sq := put x.sq ctr (satAdd (at_ x.sq ctr 0) data.length) })) := by
  have hunit : ¬((!portExists port) = true ∨ (!isTilePsn tile) = true ∨ 16 ≤ ctr ∨ (!transferable pa.toNat data.length) = true) := by
    simpa [hport, htile, hextent] using hctr
  simp only [exec_remoteTransferComplete, execRemoteTransferComplete, if_neg hunit, hlands]

end Sys2Proof.Laws
end

section
namespace Sys2Proof.Proofs
open Sys2Proof Sys2Proof.Machine Sys2Proof.Claims Sys2Proof.Laws

theorem hostRequests : HostRequests := by
  refine ⟨?rings, ?taken, ?underWay, ?forwards, ?acknowledges, ?withdraws, ?unknown, ?reserved⟩
  case rings => exact fun s n v hn => ⟨execRqDoorbell_moves v hn, execCqCtlHeadWrite_moves v hn⟩
  case taken =>
    rintro s n r _ rfl
    refine ⟨fun h => ?_, fun h => ?_⟩
    · rw [exec_read, execRead, hostStep_taken _ _ h (by decide), startCopy_status]
    · rw [exec_write, execWrite, hostStep_taken _ _ h (by decide), startCopy_status]
  case underWay =>
    refine fun s n r => ⟨fun h => ?_, fun h => ?_, fun h hall => ?_, fun h hmissing => ?_⟩
    · rw [exec_read, execRead, hostStep_underWay _ _ h (by decide)]
    · rw [exec_write, execWrite, hostStep_underWay _ _ h (by decide)]
    · rw [exec_barrier, execBarrier, hostStep_underWay _ _ h (by decide), if_pos hall]
    · rw [exec_barrier, execBarrier, hostStep_underWay _ _ h (by decide), if_neg hmissing]
  case forwards =>
    intro s n r h
    rw [exec_barrier, execBarrier, hostStep_taken _ _ h (by decide)]
  case acknowledges => exact fun s id t origin hitem hidle => exec_barrierForward_acknowledges hitem hidle
  case withdraws => exact fun s n r g h hgraph hpending => exec_cancel_pending h hgraph hpending
  case unknown => exact fun s n r h hnone => exec_cancel_unknown h hnone
  case reserved =>
    intro s n r hn hcan _ hr hop
    rw [exec_read, execRead, hostStep_reserved _ _ hn hcan hr hop]

theorem monitorAndLaunchRequests : MonitorAndLaunchRequests := by
  refine ⟨?places, ?armed, ?controls, ?attests, ?loads, ?clears, ?starts, ?lands⟩
  case places => exact fun s n r st ctx t h hwindow hlaunch => exec_launch_places h hwindow hlaunch
  case armed =>
    intro s n r g h hgraph harmed
    rw [exec_launch, execLaunch, hostStep_underWay _ _ h (by decide), awaitArming_armed hgraph harmed]
  case controls => exact fun s n r v region h hv hregion => ⟨exec_graph_busy h hv hregion, exec_graph_writes h hv hregion⟩
  case attests => exact fun s n r q g h hwindow hkey hq hg => exec_attest_signs h hwindow hkey hq hg
  case loads =>
    exact fun s n r slot k u h hu hslot hpos hlast hwindow hkey hfree hunused =>
      exec_keyload_loads h hu hslot hpos hlast hwindow hkey hfree hunused
  case clears => exact fun s n r slot u h hu hslot hpos hlast hunused => exec_keyclr_clears h hu hslot hpos hlast hunused
  case starts => exact fun s port pa len peer remote hport hpeer hlen hextent => exec_transferEngineStart_takes hport hpeer hlen hextent
  case lands =>
    exact fun s port pa data tile ctr t hport htile hctr hextent hlands => exec_remoteTransferComplete_lands hport htile hctr hextent hlands

/-- Settles O46: each request by the step that takes it or goes on with it, and the engines by the words and bytes they take. -/
theorem hostSteps : Obligations.HostSteps := ⟨hostRequests, monitorAndLaunchRequests⟩

end Sys2Proof.Proofs
end

section
/-! 19 R451, R453 to R460: power clusters, the monitor's limits, boot, park and wear. -/
namespace Sys2Proof.Laws
open Sys2Proof Sys2Proof.Machine Sys2Proof.Claims

/-! Clusters (R453 to R456). -/

theorem clusterStep_enabled {r n : Nat} {b : Bool} {s t : State} (hr : r < 80) (hn : n < 36) (h : b = true) : clusterStep r n b s t = .next t := by
  have hexists : clusterExists r n = true := decide_eq_true ⟨hr, hn⟩
  rw [clusterStep, if_pos hexists, event_enabled h]

section
variable {s : State} {r n : Nat} (hclocked : clGated (s.getCluster r n) = false)
include hclocked

/-- QUIESCE is set on a cluster not in use; on one in use the write is an event (R453). -/
theorem writePwrCtl_quiesces (hnew : clQuiesce (s.getCluster r n) = false) : s.writePwrCtl r n (some true) false =
    if s.clusterUsed r n then s.powerEvent r n 8 0 else s.modCluster r n (fun c => { c with ctl := setBit c.ctl 63 true }) := by
  simp only [State.writePwrCtl, hclocked, hnew, Bool.false_eq_true, false_and, if_false]

/-- RET_SAVE takes effect on a quiesced cluster alone (R455). -/
theorem writePwrCtl_saves : s.writePwrCtl r n none true =
    if clQuiesced (s.getCluster r n) then s.modCluster r n (fun c => { c with ctl := setBit c.ctl 62 true, saving := true }) else s := by
  simp only [State.writePwrCtl, hclocked, Bool.false_eq_true, true_and, if_false]

theorem exec_clusterQuiesced_quiet (hr : r < 80) (hn : n < 36) (hasked : clQuiesce (s.getCluster r n) = true)
    (hnew : clQuiesced (s.getCluster r n) = false) (hquiet : s.clusterQuiet r n = true) : exec (.clusterQuiesced r n) s =
      .next ((s.modCluster r n (fun c => { c with stat := setBit c.stat 63 true })).powerEvent r n 1 0) :=
  clusterStep_enabled hr hn (by rw [hasked, hnew, hclocked, hquiet]; rfl)

/-- A PWR_WAKE of a cluster that is not gated is kept for a GATE of the same instant (R296, R456). -/
theorem wakeCluster_ungated : s.wakeCluster r n 5 0 = s.modCluster r n (fun c => { c with wakeAt := some s.tsc.toNat }) := by
  simp [State.wakeCluster, hclocked]

end

/-- A wake of a gated cluster starts, and its cause is recorded. -/
theorem wakeCluster_gated {s : State} {r n : Nat} (kind : Nat) (source : Psn) (hgated : clGated (s.getCluster r n) = true)
    (hsleeps : (s.getCluster r n).wake = none) : s.wakeCluster r n kind source =
      (s.modCluster r n (fun c => { c with wake := some s.tsc.toNat })).powerEvent r n kind source := by
  have hstarts : clGated (s.getCluster r n) = true ∧ (s.getCluster r n).wake.isNone = true := ⟨hgated, by rw [hsleeps]; rfl⟩
  simp only [State.wakeCluster, if_pos hstarts]

theorem exec_clusterWakeArrival_held {s : State} {id : Nat} {b : Body} {p source : Psn} (hitem : s.item id = some b)
    (harrives : s.arrivesAt b = some (p, source)) (hgated : s.gated p = true)
    (hnew : (s.getCluster (psnRegion p) (clusterOf p)).held.contains id = false) : exec (.clusterWakeArrival id) s =
      .next ((s.modCluster (psnRegion p) (clusterOf p) (fun c => { c with held := c.held ++ [id] })).wakeCluster (psnRegion p) (clusterOf p) 6 source) := by
  simp only [exec_clusterWakeArrival, execClusterWakeArrival, hitem, Option.bind_some, harrives]
  exact event_enabled (by rw [hgated, hnew]; rfl)

/-! The limits of power and temperature (R451), park (R459) and wear (R460). -/

theorem powerLimit_above {s : State} {watts r : Nat} (habove : 25000 < watts) (hr : r = s.hottestRegion) :
    s.powerLimit watts = { s.recap (allCores r) (allTiles r) (· - 1) with
      module := { (s.recap (allCores r) (allTiles r) (· - 1)).module with underWindows := 0 } } := by
  rw [State.powerLimit, if_pos habove, ← hr]

theorem powerLimit_between {s : State} {watts : Nat} (hfrom : 23000 ≤ watts) (hupto : watts ≤ 25000) :
    s.powerLimit watts = { s with module := { s.module with underWindows := 0 } } := by
  simp only [State.powerLimit, if_neg (Nat.not_lt.mpr hupto), if_pos hfrom]

theorem park_refused {s : State} {g : Graph} (hg : g ∈ s.graphs) (hruns : g.stat = 1) : s.park = s := by
  have hbusy : s.graphs.any (fun g => g.stat == 1 || g.stat == 2 || g.stat == 4) = true := List.any_eq_true.mpr ⟨g, hg, by simp [hruns]⟩
  exact if_pos (.inl hbusy)

theorem park_idle {s : State} (hidle : ∀ g ∈ s.graphs, g.stat ≠ 1 ∧ g.stat ≠ 2 ∧ g.stat ≠ 4) (hawake : s.module.lowPower = false) :
    s.park = { s with module := { s.module with lowPower := true, pwr := setBit s.module.pwr 0 true } } := by
  have hnone : s.graphs.any (fun g => g.stat == 1 || g.stat == 2 || g.stat == 4) = false := by
    simpa only [List.any_eq_false, Bool.or_eq_true, beq_iff_eq, not_or, and_assoc] using hidle
  exact if_neg (by simp only [hnone, hawake, Bool.false_eq_true, or_self, not_false_eq_true])

theorem exec_wearHourlyUpdate_one {s : State} {u : Nat} (t : Int) (hu : u < 112) :
    exec (.wearHourlyUpdate [(u, t)]) s = .next ((s.thermal u t).addWear u (2 + hourBand t)) := by
  have hset : [(u, t)].all (fun x => decide (x.1 < 112)) = true := by simpa using hu
  rw [exec_wearHourlyUpdate, execWearHourlyUpdate, if_pos hset, List.foldl_cons, List.foldl_nil]

end Sys2Proof.Laws
end

section
namespace Sys2Proof.Proofs
open Sys2Proof Sys2Proof.Machine Sys2Proof.Claims Sys2Proof.Laws

theorem clusterSteps : ClusterSteps := by
  refine ⟨?controls, ?saves, ?wakes, ?kept, ?arrives, ?ends⟩
  case controls =>
    rintro s r n _ hr hn rfl hclocked
    refine ⟨fun hnew hused => ?_, fun hnew hunused => ?_, fun hquiet => ?_, fun hbusy => ?_, ?quiet⟩
    · rw [exec_pwrQuiesce, execPwrQuiesce, clusterStep_enabled hr hn rfl, writePwrCtl_quiesces hclocked hnew, if_pos hused]
    · rw [exec_pwrQuiesce, execPwrQuiesce, clusterStep_enabled hr hn rfl, writePwrCtl_quiesces hclocked hnew, if_neg (by simp [hunused])]
    · rw [exec_retSave, execRetSave, clusterStep_enabled hr hn rfl, writePwrCtl_saves hclocked, if_pos hquiet]
    · rw [exec_retSave, execRetSave, clusterStep_enabled hr hn rfl, writePwrCtl_saves hclocked, if_neg (by simp [hbusy])]
    case quiet => exact fun hasked hnew hquiet => exec_clusterQuiesced_quiet hclocked hr hn hasked hnew hquiet
  case saves =>
    intro s r n hr hn hsaving hreads
    exact clusterStep_enabled hr hn (by rw [hsaving, hreads]; rfl)
  case wakes =>
    rintro s r n _ hr hn rfl hgated hsleeps
    rw [exec_pwrWake, execPwrWake, clusterStep_enabled hr hn rfl, wakeCluster_gated 5 0 hgated hsleeps]
  case kept =>
    intro s r n hr hn hclocked
    rw [exec_pwrWake, execPwrWake, clusterStep_enabled hr hn rfl, wakeCluster_ungated hclocked]
  case arrives => exact fun s id b p source hitem harrives hgated hnew => exec_clusterWakeArrival_held hitem harrives hgated hnew
  case ends =>
    intro s r n t hr hn hwakes
    refine ⟨clusterStep_enabled hr hn (by rw [hwakes]; rfl), fun hlate => clusterStep_enabled hr hn ?_⟩
    rw [hwakes, Option.any_some, decide_eq_true hlate]

theorem moduleSteps : ModuleSteps := by
  refine ⟨?above, ?between, ?boots, ?booted, ?refused, ?parks, fun s => rfl, fun s u t hu => exec_wearHourlyUpdate_one t hu⟩
  case above =>
    intro s watts r habove hr
    exact congrArg Host.Outcome.next (powerLimit_above habove hr)
  case between =>
    intro s watts hfrom hupto
    exact congrArg Host.Outcome.next (powerLimit_between hfrom hupto)
  case boots => exact fun s hnew hsound => event_enabled (by rw [hnew, hsound]; rfl)
  case booted => exact fun s hdone => if_neg (by simp [hdone])
  case refused => exact fun s g hg hruns => congrArg Host.Outcome.next (park_refused hg hruns)
  case parks => exact fun s hidle hawake => congrArg Host.Outcome.next (park_idle hidle hawake)

/-- Settles O47: the steps of a cluster by what its registers allow, and the module's by what its state allows. -/
theorem powerSteps : Obligations.PowerSteps := ⟨clusterSteps, moduleSteps⟩

end Sys2Proof.Proofs
end

section
/-! 13 R337 to R339, R351 to R355, R361: the instructions that work lane by lane. -/
namespace Sys2Proof.Laws
open Sys2Proof Sys2Proof.Machine Sys2Proof.Claims

/-- Lane k of VecOp's result: what f computes where PM governs it, else zero or as it was (R339). -/
def vecOpLane (x : Long) (t : State) (f : Nat → Nat) (k : Nat) : Nat :=
  if x.governs t k then f k else if x.zero then 0 else laneOf x.width (t.vold x.d.toNat) k

theorem vecOpLane_holds (x : Long) (t : State) (f : Nat → Nat) : holdsLanes x t f (laneVector x (vecOpLane x t f)) := by
  intro k hk
  rw [laneOf_laneVector hk, vecOpLane, ite_mod, ite_mod, Nat.zero_mod, laneOf_mod]

theorem lanewise_popped {x : Long} {srcs : List (Nat × Option Nat)} {f : State → Nat → Nat} {u t : State} (hgov : governorsWritten x u)
    (hpopped : u.popAll srcs = .ok t) : x.lanewise srcs f u =
      t.vout x.d.toNat (some x.width) (laneVector x (vecOpLane x t (f t))) (laneMask (lanes x.ty) (x.governs t)) := by
  simp only [Long.lanewise, pmReady_written hgov, hpopped]
  rfl

/-- A result that `vout` takes is written into its register, or pushed into the stream bound to it. -/
theorem writesLanes_of_vout {i : Instr} {x : Long} {s t : State} {f : Nat → Nat} {g : Form} (run : exec i s =
    settle g s (t.vout x.d.toNat (some x.width) (laneVector x (vecOpLane x t f)) (laneMask (lanes x.ty) (x.governs t)))) :
    writesLanes i x s t f := by
  refine ⟨_, vecOpLane_holds x t f, fun hfree => ?_, fun st v hbound hpush => ?_⟩
  · rw [run, vout_unbound hfree, settle_ok]
  · have htaken : t.vout x.d.toNat (some x.width) (laneVector x (vecOpLane x t f)) (laneMask (lanes x.ty) (x.governs t)) = .ok v := by
      simpa only [State.vout, hbound] using hpush
    rw [run, htaken, settle_ok]

/-- Every instruction of the table runs VecOp with its sources and its lane. -/
theorem laneForms_run : ∀ e ∈ laneForms, ∀ x s, issues (e.1 x) s = true →
    ∃ g, exec (e.1 x) s = settle g s (x.lanewise (e.2.1 x) (e.2.2 x) (past (e.1 x) s)) := by
  simp only [laneForms, List.forall_mem_cons, List.not_mem_nil, false_implies, implies_true, and_true]
  exact ⟨fun x s h => ⟨_, run_vadd x s h⟩, fun x s h => ⟨_, run_vsub x s h⟩, fun x s h => ⟨_, run_vmul x s h⟩, fun x s h => ⟨_, run_vmin x s h⟩,
    fun x s h => ⟨_, run_vmax x s h⟩, fun x s h => ⟨_, run_vdiv x s h⟩, fun x s h => ⟨_, run_vand x s h⟩, fun x s h => ⟨_, run_vor x s h⟩,
    fun x s h => ⟨_, run_vxor x s h⟩, fun x s h => ⟨_, run_vshl x s h⟩, fun x s h => ⟨_, run_vshr x s h⟩, fun x s h => ⟨_, run_vsha x s h⟩,
    fun x s h => ⟨_, run_vabs x s h⟩, fun x s h => ⟨_, run_vneg x s h⟩, fun x s h => ⟨_, run_vsqrt x s h⟩, fun x s h => ⟨_, run_vrcp x s h⟩,
    fun x s h => ⟨_, run_vrsqrt x s h⟩, fun x s h => ⟨_, run_vexp2 x s h⟩, fun x s h => ⟨_, run_vlog2 x s h⟩, fun x s h => ⟨_, run_vsin x s h⟩,
    fun x s h => ⟨_, run_vcos x s h⟩, fun x s h => ⟨_, run_vtanh x s h⟩, fun x s h => ⟨_, run_vfma x s h⟩, fun x s h => ⟨_, run_vmov x s h⟩,
    fun x s h => ⟨_, run_vbcast x s h⟩, fun x s h => ⟨_, run_vperm x s h⟩, fun x s h => ⟨_, run_vslide x s h⟩,
    fun x s h => ⟨_, run_vscan x s h⟩⟩

/-- VSEL waits for its selecting predicates, then it is a VecOp. -/
theorem vselBody_ready {x : Long} {u : State} (hpair : x.width = 8 → u.core.isPending (.p (x.c.toNat + 1)) = false) :
    vselBody x u = x.lanewise x.srcAB (fun t k => if t.predLane x.ty x.c.toNat k then x.va t k else x.vb t k) u := by
  by_cases hw : x.width = 8
  · simp only [vselBody, if_pos hw, ready_written (hpair hw)]
    rfl
  · simp only [vselBody, if_neg hw]

end Sys2Proof.Laws
end

section
namespace Sys2Proof.Proofs
open Sys2Proof Sys2Proof.Machine Sys2Proof.Claims Sys2Proof.Laws

/-- Settles O27: every form is one VecOp, whose lanes are read back from what it writes. -/
theorem vectorLanes : Obligations.VectorLanes := by
  refine ⟨?forms, ?select⟩
  case forms =>
    intro e he x s t h hgov hpopped
    obtain ⟨g, hrun⟩ := laneForms_run e he x s h
    exact writesLanes_of_vout (hrun.trans (by rw [lanewise_popped hgov hpopped]))
  case select =>
    intro x s t h hgov hpair hpopped
    exact writesLanes_of_vout ((run_vsel x s h).trans (by rw [vselBody_ready (u := past _ s) hpair, lanewise_popped hgov hpopped]))

end Sys2Proof.Proofs
end

section
/-! 13 R341 to R346: the slots of streams configured, bound and unbound, their governing bits, and what a pop takes. -/
namespace Sys2Proof.Laws
open Sys2Proof Sys2Proof.Machine Sys2Proof.Claims

/-! Slots (R341, R342, R346). -/

section
variable {u : State} {d : Nat}

theorem scfgBody_configures {desc : State → Nat} {k : Nat} {w : Nat → Nat} (hkept : u.slotKept d = false) (hclosing : u.slotClosing d = false)
    (hfree : u.bound d = none) (hlist : u.localList (desc u) 8 32 = .ok k) (hw : w = fun i => ofLe (u.bytes (k + 8 * i) 8))
    (hty : isScalar (BitVec.ofNat 4 (w 0 / 2 ^ 59)) = true) (hzero : w 0 / 2 ^ 48 % 2 ^ 11 = 0) (hlast : w 3 = 0) :
    scfgBody d desc u = .ok ((u.setStream d (some (configured ((u.core.act.map (·.entry)).getD 0) (w 0) (w 1) (w 2)))).noteRead k 32) := by
  subst hw
  have hopen : ¬(u.slotKept d || u.slotClosing d) = true := by simp [hkept, hclosing]
  have hunbound : ¬(u.bound d).isSome = true := by simp [hfree]
  have hsound : ¬((!isScalar (BitVec.ofNat 4 (ofLe (u.bytes (k + 8 * 0) 8) / 2 ^ 59))) = true ∨
      ofLe (u.bytes (k + 8 * 0) 8) / 2 ^ 48 % 2 ^ 11 ≠ 0 ∨ ofLe (u.bytes (k + 8 * 3) 8) ≠ 0) := by
    rintro (hno | hno | hno)
    · rw [hty] at hno; cases hno
    · exact hno hzero
    · exact hno hlast
  simp only [scfgBody, if_neg hopen, if_neg hunbound, hlist, bind, Except.bind, pure, Except.pure, if_neg hsound]
  rfl

theorem sunbindBody_frees {o : State → Order} {act : Act} {st : Stream} (hact : u.core.act = some act) (hbound : u.bound d = some st)
    (hgone : st.output = false → u.gone (o u).after = true) : sunbindBody d o u = .ok (if st.pushed = []
      then (u.unbindSlot u.core.psn d 0 (o u).after).leaveTokens (o u) []
      else ((u.launchItem (.command u.core.psn act.serial)).unbindSlot u.core.psn d u.nextId (o u).after).leaveTokens (o u) [u.nextId]) := by
  have hfollows : ¬((!st.output) = true ∧ (!u.gone (o u).after) = true) := by
    rintro ⟨hinput, hwaits⟩
    simp [hgone (by simpa using hinput)] at hwaits
  simp only [sunbindBody, hact, hbound, if_neg hfollows]
  split <;> rfl

/-! Governing bits and the position (R345). -/

theorem spredBody_attaches {cap a : Nat} {start : State → Nat} {st : Stream} (hkept : u.slotKept d = false)
    (hslot : at_ u.core.streams d none = some st) (hfree : st.bound = false) (hnone : st.pred = none)
    (haligned : st.output = true → start u % 8 = 0)
    (hcheck : u.checkCopy (streamAsk st cap) (u.c cap) ((start u / 8 : Nat) : Int) ((start u + st.total - 1) / 8 + 1 - start u / 8) = .ok a) :
    spredBody d cap start u = .ok (u.setStream d (some { st with pred := some (u.c cap, start u) })) := by
  have hopen : ¬u.slotKept d = true := by simp [hkept]
  have hnew : ¬(st.bound = true ∨ st.pred.isSome = true) := by simp [hfree, hnone]
  have hplaced : ¬(st.output = true ∧ start u % 8 ≠ 0) := fun h => h.2 (haligned h.1)
  rw [streamAsk] at hcheck
  simp only [spredBody, if_neg hopen, hslot, if_neg hnew, if_neg hplaced, hcheck, bind, Except.bind, pure, Except.pure]

theorem spredReadBody_reads {a : Nat} {st : Stream} (hbound : u.bound a = some st) (heven : elemBits st.ty = 8 → d % 2 = 0) :
    spredReadBody d a u = .ok (u.setPredLanes st.ty d (fun k => st.live.getLsbD k)) := by
  have hpair : ¬(elemBits st.ty = 8 ∧ d % 2 = 1) := by
    rintro ⟨hbyte, hodd⟩
    have := heven hbyte
    omega
  simp only [spredReadBody, hbound, if_neg hpair]

theorem sposBody_reads {a : Nat} {st : Stream} (hbound : u.bound a = some st) :
    sposBody d a u = .ok (u.setG d (BitVec.ofNat 64 st.position)) := by
  simp only [sposBody, hbound]

end

/-! Binding (R342). -/

/-- The state in which a stream is bound: a generator of its tile is taken, and its item is in flight. -/
def bindingState (u : State) (act : Act) (tile : Option Psn) : State :=
  (match tile with
    | some t => u.modTile t (fun y => { y with generators := y.generators ++ [u.nextId] })
    | none => u).launchItem (.command u.core.psn act.serial)

theorem sbindBody_binds {u : State} {d cap lo hi : Nat} {x : Long} {act : Act} {st : Stream} {tile : Option Psn} (hact : u.core.act = some act)
    (hkept : u.slotKept d = false) (hslot : at_ u.core.streams d none = some st) (hfree : st.bound = false)
    (hgone : st.output = true → u.gone (x.order u).after = true)
    (hlo : u.checkCopy (streamAsk st cap) (u.c cap) st.reach.1 st.bytes = .ok lo)
    (hhi : u.checkCopy (streamAsk st cap) (u.c cap) st.reach.2 st.bytes = .ok hi) (haligned : lo % st.bytes = 0)
    (hsegs : (u.c cap).space = 1 → u.streamSegments lo (hi + st.bytes - 1) = true)
    (htile : tile = if (u.c cap).space = 1 then u.storeTile u.core (lo / 2 ^ 19) else none)
    (hroom : ∀ t, tile = some t → (u.getTile t).generators.length < 4) : sbindBody d cap x.order u = .ok (if st.output
      then (((bindingState u act tile).dropItem u.nextId).setStream d (some (boundStream st act (u.c cap) [] u.nextId tile))).leaveTokens (x.order u) []
      else ((bindingState u act tile).setStream d (some (boundStream st act (u.c cap) (x.order u).after u.nextId tile))).leaveTokens (x.order u)
        [u.nextId]) := by
  have hopen : ¬u.slotKept d = true := by simp [hkept]
  have hunbound : ¬st.bound = true := by simp [hfree]
  have hfollows : ¬(st.output = true ∧ (!u.gone (x.order u).after) = true) := by
    rintro ⟨houtput, hwaits⟩
    simp [hgone houtput] at hwaits
  have hplaced : ¬lo % st.bytes ≠ 0 := not_not_intro haligned
  have hinside : ¬((u.c cap).space = 1 ∧ (!u.streamSegments lo (hi + st.bytes - 1)) = true) := by
    rintro ⟨hspace, houtside⟩
    simp [hsegs hspace] at houtside
  rw [streamAsk] at hlo hhi
  simp only [sbindBody, hact, if_neg hopen, hslot, if_neg hunbound, if_neg hfollows, hlo, hhi, if_neg hplaced, if_neg hinside, ← htile, bind,
    Except.bind, pure, Except.pure]
  cases tile with
  | none =>
    by_cases houtput : st.output = true
    · simp only [if_pos houtput]
      rfl
    · simp only [if_neg houtput]
      rfl
  | some t =>
    have hfew : ¬4 ≤ (u.getTile t).generators.length := Nat.not_le.mpr (hroom t rfl)
    simp only [if_neg hfew]
    by_cases houtput : st.output = true
    · simp only [if_pos houtput]
      rfl
    · simp only [if_neg houtput]
      rfl

/-! Pops (R343). -/

theorem pop_unbound {s : State} {n : Nat} (size : Option Nat) (hfree : s.bound n = none) : s.pop n size = .ok s ∧ s.vin n = s.v n := by
  simp only [State.pop, State.vin, hfree, and_self]

/-- The stream after the next vector of elements is taken. -/
def poppedStream (st : Stream) : Stream :=
  let live (k : Nat) : Bool := ((st.fetched.take st.vl).getD k (0, false)).2
  { st with
    position := st.position + st.vl, fetched := st.fetched.drop st.vl, live := laneMask st.vl live
    head := BitVec.ofNat 512 (packLanes (elemBits st.ty) st.vl (fun k => if live k then ((st.fetched.take st.vl).getD k (0, false)).1 else 0)) }

theorem pop_bound {s : State} {n : Nat} {size : Option Nat} {st : Stream} (hbound : s.bound n = some st) (hinput : st.output = false)
    (hsize : size = none ∨ size = some (elemBits st.ty)) (hmore : st.position < st.total) (hcome : st.vl ≤ st.fetched.length)
    (hspace : st.cap.space ≠ 1) : s.pop n size = .ok (s.setStream n (some (poppedStream st))) := by
  have htyped : ¬(st.output = true ∨ (size.isSome = true ∧ size ≠ some (elemBits st.ty))) := by
    rcases hsize with rfl | rfl <;> simp [hinput]
  have hkeeps (t : State) : t.takeBuffers st st.position st.vl = t := if_pos hspace
  simp only [State.pop, hbound, if_neg htyped, if_neg (Nat.not_le.mpr hmore), if_neg (Nat.not_lt.mpr hcome), hkeeps]
  rfl

end Sys2Proof.Laws
end

section
namespace Sys2Proof.Proofs
open Sys2Proof Sys2Proof.Machine Sys2Proof.Claims Sys2Proof.Laws

theorem streamSlots : Claims.StreamInstructions := by
  refine ⟨?configures, ?binds, ?unbinds, ?attaches, ?reads, ?position⟩
  case configures =>
    rintro x s _ k w rfl h hkept hclosing hfree hlist hw hty hzero hlast
    exact run_body_ok (run_scfg x s h) (scfgBody_configures (u := past _ s) hkept hclosing hfree hlist hw hty hzero hlast)
  case binds =>
    rintro x s _ act st lo hi tile _ rfl h hact hkept hslot hfree hgone hlo hhi haligned hsegs htile hroom rfl
    exact run_body_ok (run_sbind x s h)
      (sbindBody_binds (u := past _ s) hact hkept hslot hfree hgone hlo hhi haligned hsegs htile hroom)
  case unbinds =>
    rintro x s _ act st rfl h hact hbound hgone
    exact run_body_ok (run_sunbind x s h) (sunbindBody_frees (u := past _ s) hact hbound hgone)
  case attaches =>
    rintro x s _ _ st a rfl h hkept rfl hslot hfree hnone haligned hcheck
    exact run_body_ok (run_spredAttach x s h) (spredBody_attaches (u := past _ s) hkept hslot hfree hnone haligned hcheck)
  case reads => exact fun x s st h hbound heven => run_body_ok (run_spredRead x s h) (spredReadBody_reads (u := past _ s) hbound heven)
  case position => exact fun x s st h hbound => run_body_ok (run_spos x s h) (sposBody_reads (u := past _ s) hbound)

theorem streamPops : StreamPops := by
  refine ⟨fun s n size hfree => pop_unbound size hfree, ?taken⟩
  intro s n size st hbound hinput hsize hmore hcome hspace
  exact ⟨poppedStream st, pop_bound hbound hinput hsize hmore hcome hspace, rfl, rfl, rfl, rfl⟩

/-- Settles O26: what each body answers on a slot its checks pass, and the stream a pop leaves. -/
theorem streamInstructions : Obligations.StreamInstructions := ⟨streamSlots, streamPops⟩

end Sys2Proof.Proofs
end

section
/-! 14 R366 to R381: the matrix instructions in normal mode and in diagnostic mode, and what reads or sets the mode. -/
namespace Sys2Proof.Laws
open Sys2Proof Sys2Proof.Machine Sys2Proof.Claims

/-! From the body of a matrix instruction to exec: an activation that goes on has posted no fault completion (R383). -/

theorem relayed_runs {s t : State} (hruns : runs t) : relayed s (.next t) = .next t := by
  obtain ⟨b, hb, hgoes⟩ := Option.map_eq_some_iff.mp hruns
  have hsound : b.halted.isSome = false := by simpa using hgoes
  cases hact : s.core.act with
  | none => exact relayed_idle _ hact
  | some a => simp [relayed, hact, hb, hsound]

theorem run_relayed_ok {i : Instr} {f : Form} {s t : State} {body : Body'} (run : exec i s = relayed s (settle f s (body (past i s))))
    (hb : body (past i s) = .ok t) (hruns : runs t) : exec i s = .next t := by rw [run, hb, settle_ok, relayed_runs hruns]

/-! The instruction as it issues (R366, R371, R381). -/

theorem bind_ok {α β : Type} {r : Except Stop α} {f : α → Except Stop β} {b : β} (h : (r >>= f) = .ok b) : ∃ a, r = .ok a ∧ f a = .ok b := by
  cases r with
  | error e => cases h
  | ok a => exact ⟨a, rfl, h⟩

/-- What stands of a new entry whatever its descriptors are. -/
theorem newMatOp_keeps {u : State} {a : Act} {x : Long} {op descs : Nat} {m : MatOp} (h : u.newMatOp a x op descs = .ok m) :
    m.id = 0 ∧ m.instr = x ∧ m.op = op ∧ m.stage = .queued := by
  dsimp only [State.newMatOp] at h
  split at h
  · cases h
  · split at h
    all_goals
      obtain ⟨da, -, h⟩ := bind_ok h
      split at h
      all_goals
        obtain ⟨db, -, h⟩ := bind_ok h
        cases h
        exact ⟨rfl, rfl, rfl, rfl⟩

/-- An instruction that is over at once leaves nothing in the unit. -/
theorem leaveMatOp_short {u : State} {m : MatOp} (o : Order) (hshort : m.isLong = false) : u.leaveMatOp m o = u := if_pos (by simp [hshort])

section
variable {i : Instr} {x : Long} {op descs : Nat} {s : State} {m : MatOp}

/-- A unit that takes an instruction runs it, claims its accumulator and keeps what goes on. -/
theorem matrixBody_takes {r : MatOp × State} (h : unitTakes i x op descs s m) (hrun : (past i s).matrixRun m = .ok r) :
    matrixBody x op descs (past i s) = .ok ((r.2.claimFor m).leaveMatOp r.1 (x.order s)) := by
  obtain ⟨-, hnormal, hfree, ⟨act, hact, hnew⟩, hgone⟩ := h
  have hactive : (past i s).core.act = some act := hact
  have hmode : ¬(past i s).core.matMode = true := by rw [show (past i s).core.matMode = s.core.matMode from rfl, hnormal]; decide
  have hidle : ¬(past i s).core.matOps.any (·.busy) = true := by
    rw [show (past i s).core.matOps = s.core.matOps from rfl, hfree]; decide
  have hafter : ¬(op ≠ 0x208 ∧ (!(past i s).gone m.deps) = true) := by
    rintro ⟨hop, hwaits⟩
    simp [hgone hop] at hwaits
  simp only [matrixBody, hactive, hnew, if_neg hmode, if_neg hidle, if_neg hafter, hrun, bind, Except.bind, pure, Except.pure]
  rfl

theorem unitTakes_issues (h : unitTakes i x op descs s m) : issues i s = true := h.1

theorem unitTakes_keeps (h : unitTakes i x op descs s m) : m.id = 0 ∧ m.instr = x ∧ m.op = op ∧ m.stage = .queued := by
  obtain ⟨-, -, -, ⟨act, -, hnew⟩, -⟩ := h
  exact newMatOp_keeps hnew

end

/-! What each instruction does (R372 to R378). -/

section
variable {u : State} {m : MatOp}

theorem matrixRun_zero (hop : m.op = 0x200) : u.matrixRun m = .ok ({ m with stage := .computing }, m.zero u) := by
  simp only [State.matrixRun, hop]

theorem matrixRun_product {t : State} (hop : m.op = 0x201 ∨ m.op = 0x202) (h : m.product u = .ok t) :
    u.matrixRun m = .ok ({ m with stage := .computing }, t) := by
  rcases hop with hop | hop
  · simp only [State.matrixRun, hop, h, Except.map]
  · simp only [State.matrixRun, hop, h, Except.map]

theorem matrixRun_readOut {r : MatOp × State} (hop : m.op = 0x208) (h : m.readOut u = .ok r) :
    u.matrixRun m = .ok ({ r.1 with stage := .writing }, r.2) := by
  simp only [State.matrixRun, hop, h, Except.map]

theorem matrixRun_readRow {t : State} (hop : m.op = 0x209) (h : m.readRow u = .ok t) :
    u.matrixRun m = .ok ({ m with stage := .computing }, t) := by
  simp only [State.matrixRun, hop, h, Except.map]

theorem matrixRun_macc {t : State} (hop : m.op = 0x20A) (h : m.macc u = .ok t) : u.matrixRun m = .ok ({ m with stage := .computing }, t) := by
  simp only [State.matrixRun, hop, h, Except.map]

/-- MACC (R378): formats agree, and only F64 rounds. -/
theorem macc_adds (hadds : m.instr.sub ≠ 1) (hformats : (u.core.getAcc m.instr.d.toNat).f64 = (u.core.getAcc m.instr.b.toNat).f64)
    (hround : (u.core.getAcc m.instr.d.toNat).f64 = false → m.instr.c.extractLsb' 0 2 = 0) :
    m.macc u = .ok (u.setAcc m.instr.d.toNat
      ((u.core.getAcc m.instr.d.toNat).add (u.core.getAcc m.instr.b.toNat) (m.instr.c.extractLsb' 0 2))) := by
  have hsound : ¬((u.core.getAcc m.instr.d.toNat).f64 ≠ (u.core.getAcc m.instr.b.toNat).f64 ∨
      ((!(u.core.getAcc m.instr.d.toNat).f64) = true ∧ m.rounding ≠ 0)) := by
    rintro (hother | ⟨hexact, hrounds⟩)
    · exact hother hformats
    · exact hrounds (hround (by simpa using hexact))
  simp only [MatOp.macc, if_neg hadds, if_neg hsound]
  rfl

theorem macc_copies (hmov : m.instr.sub = 1) : m.macc u = .ok (u.setAcc m.instr.d.toNat (u.core.getAcc m.instr.b.toNat)) := if_pos hmov

theorem product_adds {a b : List (List Fp)} {v : State} (hexact : (u.core.getAcc m.instr.d.toNat).f64 = false)
    (hpair : checkPair m.op m.ca m.cb m.da m.db m.k = .ok ()) (hfetch : m.fetch u = .ok (a, b, v)) :
    m.product u = .ok (v.setAcc m.instr.d.toNat ((u.core.getAcc m.instr.d.toNat).addProduct a b)) := by
  simp only [MatOp.product, hexact, hpair, hfetch, Bool.false_eq_true, if_false]
  rfl

theorem fetchF64_fetches {r : List (List Fp) × List (List Fp) × State} (hf64 : (u.core.getAcc m.instr.d.toNat).f64 = true)
    (hpair : checkPair m.op m.ca m.cb m.da m.db m.k = .ok ()) (hfetch : m.fetch u = .ok r) : m.fetchF64 u = .ok r := by
  simp only [MatOp.fetchF64, hf64, hpair, hfetch, Bool.not_true, Bool.false_eq_true, if_false]
  rfl

theorem satOk_ok {acc : Acc} {x : Long} (hsat : acc.f64 = true → x.sat = false) : satOk acc x = .ok () := by
  refine if_neg ?_
  rintro ⟨hf64, hx⟩
  rw [hsat hf64] at hx
  cases hx

section
variable {acc : Acc} (hacc : acc = u.core.getAcc m.instr.b.toNat) (hsat : acc.f64 = true → m.instr.sat = false)
include hacc hsat

/-- MREAD into memory (R376): the rows of the result are handed to their writes. -/
theorem readOut_writes {a : Act} {rows : List (List (Part × Errand))} (hact : u.core.act = some a) (hmemory : dSource m.da < 2)
    (hty : dTy m.da = 0) (hplain : dDesc m.da = false) (hrows : m.rowParts u acc 0 16 = .ok rows) :
    m.readOut u = .ok ({ m with writes := (u.writeRows a m.deps rows).1 }, (u.writeRows a m.deps rows).2) := by
  subst hacc
  have hsound : ¬(dSource m.da = 3 ∨ dTy m.da ≠ 0 ∨ dDesc m.da = true) := by
    rintro (hring | hother | hdescribed)
    · omega
    · exact hother hty
    · rw [hplain] at hdescribed; cases hdescribed
  have hnostream : ¬dSource m.da = 2 := by omega
  simp only [MatOp.readOut, hact, if_neg hsound, satOk_ok hsat, if_neg hnostream, hrows]
  rfl

theorem readOut_pushes {a : Act} {r : MatOp × State} (hact : u.core.act = some a) (hstream : dSource m.da = 2)
    (hty : dTy m.da = 0) (hplain : dDesc m.da = false) (hpush : m.pushRows u acc = .ok r) : m.readOut u = .ok r := by
  subst hacc
  have hsound : ¬(dSource m.da = 3 ∨ dTy m.da ≠ 0 ∨ dDesc m.da = true) := by
    rintro (hring | hother | hdescribed)
    · omega
    · exact hother hty
    · rw [hplain] at hdescribed; cases hdescribed
  simp only [MatOp.readOut, hact, if_neg hsound, satOk_ok hsat, if_pos hstream, hpush]
  rfl

end

end

/-! MREADK (R377). -/

/-- Lane k of a row that is read out: n elements of the accumulator, the other lanes as they were. -/
def readLane (acc : Acc) (x : Long) (lo n : Nat) (old : VWord) (k : Nat) : Nat :=
  if k < n then acc.readout x.ty x.rm x.sat (16 * x.c.toNat + (lo + k)) else laneOf x.width old k

section
variable {u v : State} {m : MatOp} {acc : Acc} (hacc : acc = u.core.getAcc m.instr.b.toNat) (hsat : acc.f64 = true → m.instr.sat = false)
  (hv : v = u.mapCore (fun c => (c.settled (.v m.instr.d.toNat) m.id).settled (.v (m.instr.d.toNat + 1)) m.id))
  (hfree : v.bound m.instr.d.toNat = none)
include hacc hsat hv hfree

theorem readRow_one (hnarrow : m.instr.width ≠ 64) :
    m.readRow u = .ok (v.setV m.instr.d.toNat (laneVector m.instr (readLane acc m.instr 0 16 (v.v m.instr.d.toNat)))) := by
  rw [Long.width] at hnarrow
  subst hacc
  simp only [MatOp.readRow, satOk_ok hsat, if_neg hnarrow, ← hv, bind, Except.bind, vold_unbound hfree, vout_unbound hfree]
  rfl

theorem readRow_two (hwide : m.instr.width = 64) (hnext : v.bound (m.instr.d.toNat + 1) = none) :
    m.readRow u = .ok ((v.setV m.instr.d.toNat (laneVector m.instr (readLane acc m.instr 0 8 0))).setV (m.instr.d.toNat + 1)
      (laneVector m.instr (readLane acc m.instr 8 8 0))) := by
  have hother (r : VWord) : (v.setV m.instr.d.toNat r).bound (m.instr.d.toNat + 1) = none := hnext
  rw [Long.width] at hwide
  subst hacc
  simp only [MatOp.readRow, satOk_ok hsat, if_pos hwide, ← hv, bind, Except.bind, vout_unbound hfree, lifted, vout_unbound (hother _)]
  rfl

end

theorem laneOf_readLane {acc : Acc} {x : Long} {lo n k : Nat} {old : VWord} (hk : k < lanes x.ty) :
    laneOf x.width (laneVector x (readLane acc x lo n old)) k =
      if k < n then acc.readout x.ty x.rm x.sat (16 * x.c.toNat + (lo + k)) % 2 ^ x.width else laneOf x.width old k := by
  rw [laneOf_laneVector hk, readLane, ite_mod, laneOf_mod]

/-! MMAD, a step at a time (R375). -/

section
variable {x : Long} {s : State} {act : Act} {m : MatOp} (hnormal : s.core.matMode = false) (hact : s.core.act = some act)
include hnormal hact

theorem mmadBody_first {a b : List (List Fp)} {u : State} (h : unitTakes (.mmad x) x 0x203 2 s m)
    (hnone : s.core.matOps.find? (fun m => m.stage == .stepping && m.serial == act.serial && m.pc == (past (.mmad x) s).pc0 8) = none)
    (hfetch : m.fetchF64 (past (.mmad x) s) = .ok (a, b, u)) : mmadBody x (past (.mmad x) s) = .ok (mmadStep x m a b u) := by
  obtain ⟨-, -, hfree, ⟨_, hact', hnew⟩, hgone⟩ := h
  cases hact.symm.trans hact'
  have hactive : (past (.mmad x) s).core.act = some act := hact
  have hmode : ¬(past (.mmad x) s).core.matMode = true := fun h => Bool.false_ne_true (hnormal.symm.trans h)
  have hnew' : (past (.mmad x) s).core.matOps.find? (fun m => m.stage == .stepping && m.serial == act.serial && m.pc == (past (.mmad x) s).pc0 8) =
    none := hnone
  have hready : ¬((past (.mmad x) s).core.matOps.any (·.busy) = true ∨ (!(past (.mmad x) s).gone m.deps) = true) := by
    rw [hgone (by decide), show (past (.mmad x) s).core.matOps = s.core.matOps from rfl, hfree]
    decide
  simp only [mmadBody, hactive, if_neg hmode, hnew', hnew, if_neg hready, hfetch, bind, Except.bind, pure, Except.pure]
  rfl

theorem mmadBody_next
    (hsome : s.core.matOps.find? (fun m => m.stage == .stepping && m.serial == act.serial && m.pc == (past (.mmad x) s).pc0 8) = some m) :
    mmadBody x (past (.mmad x) s) = .ok (mmadStep x m (m.rows.take 16) (m.rows.drop 16) (past (.mmad x) s)) := by
  have hactive : (past (.mmad x) s).core.act = some act := hact
  have hmode : ¬(past (.mmad x) s).core.matMode = true := fun h => Bool.false_ne_true (hnormal.symm.trans h)
  have hgoes : (past (.mmad x) s).core.matOps.find? (fun m => m.stage == .stepping && m.serial == act.serial && m.pc == (past (.mmad x) s).pc0 8) =
    some m := hsome
  simp only [mmadBody, hactive, if_neg hmode, hgoes]
  rfl

end

/-! Diagnostic mode (R381). -/

theorem mmadBody_diagnostic {x : Long} {u : State} (hmode : u.core.matMode = true) : mmadBody x u = matrixBody x 0x203 2 u := by
  cases hact : u.core.act with
  | none => simp only [mmadBody, matrixBody, hact]
  | some a => simp only [mmadBody, hact, if_pos hmode]

/-- An instruction enters the scoreboard, its token naming the entry, and MREADK's registers wait for it. -/
theorem matrixBody_queues {x : Long} {op descs : Nat} {u v w y : State} {act : Act} {m : MatOp} (hact : u.core.act = some act)
    (hmode : u.core.matMode = true) (hnew : u.newMatOp act x op descs = .ok m) (hroom : (u.core.matOps.filter (·.busy)).length < 4)
    (hv : v = ((u.launchItem (.command u.core.psn act.serial)).leaveTokens (x.order u) [u.nextId]).claimFor m)
    (hw : w = if op = 0x209 then v.setPending (.v x.d.toNat) u.nextId else v)
    (hy : y = if op = 0x209 ∧ elemBits x.ty = 64 then w.setPending (.v (x.d.toNat + 1)) u.nextId else w) :
    matrixBody x op descs u = .ok (y.addMatOp { m with id := u.nextId }) := by
  subst hy hw hv
  simp only [matrixBody, hact, hnew, if_pos hmode, if_neg (Nat.not_le.mpr hroom), bind, Except.bind, pure, Except.pure]

/-- Every matrix instruction runs the same body in diagnostic mode. -/
theorem diagnostic_runs : ∀ e ∈ [(Instr.mzero, 0x200, 0), (Instr.mma, 0x201, 2), (Instr.mmaq, 0x202, 2), (Instr.mmad, 0x203, 2),
    (Instr.mread, 0x208, 1), (Instr.mreadk, 0x209, 0), (Instr.macc, 0x20A, 0), (Instr.maccMov, 0x20A, 0)], ∀ x s, issues (e.1 x) s = true →
    s.core.matMode = true → ∃ f, exec (e.1 x) s = relayed s (settle f s (matrixBody x e.2.1 e.2.2 (past (e.1 x) s))) := by
  simp only [List.forall_mem_cons, List.not_mem_nil, false_implies, implies_true, and_true]
  exact ⟨fun x s h _ => ⟨_, run_mzero x s h⟩, fun x s h _ => ⟨_, run_mma x s h⟩, fun x s h _ => ⟨_, run_mmaq x s h⟩,
    fun x s h hmode => ⟨_, (run_mmad x s h).trans (by rw [mmadBody_diagnostic (u := past _ s) hmode])⟩, fun x s h _ => ⟨_, run_mread x s h⟩,
    fun x s h _ => ⟨_, run_mreadk x s h⟩, fun x s h _ => ⟨_, run_macc x s h⟩, fun x s h _ => ⟨_, run_maccMov x s h⟩⟩

/-! MSTAT and MMODE (R379, R380). -/

theorem mstatBody_samples {x : Long} {u : State} {act : Act} {acc : Acc} (hact : u.core.act = some act) (hacc : acc = u.core.getAcc x.b.toNat)
    (hunclaimed : u.accClaimed x.b.toNat = false) (hover : u.core.matMode = false → u.core.matOps.any (·.busy) = false) :
    mstatBody x u = .ok (u.setG x.d.toNat (BitVec.ofNat 64 ((act.claims.getLsbD x.b.toNat).toNat * 2 ^ 63 +
      (u.core.ringClaims.getLsbD x.b.toNat).toNat * 2 ^ 62 + acc.f64.toNat * 2 ^ 61 + u.core.matMode.toNat * 2 ^ 60 +
      (!acc.f64 && acc.nan != 0).toNat * 2 ^ 59 + (!acc.f64 && acc.pinf != 0).toNat * 2 ^ 58 + (!acc.f64 && acc.ninf != 0).toNat * 2 ^ 57 +
      (if u.core.matMode then min (u.core.matOps.filter (fun m => m.busy && m.names x.b.toNat)).length 4 else 0) * 2 ^ 46 +
      acc.progress * 2 ^ 40))) := by
  subst hacc
  have hready : ¬(u.accClaimed x.b.toNat = true ∨ ((!u.core.matMode) = true ∧ u.core.matOps.any (·.busy) = true)) := by
    rintro (hclaimed | ⟨hnormal, hbusy⟩)
    · rw [hunclaimed] at hclaimed; cases hclaimed
    · rw [hover (by simpa using hnormal)] at hbusy; cases hbusy
  simp only [mstatBody, hact, if_neg hready]
  rfl

theorem mmodeBody_sets {x : Long} {u : State} {act : Act} (hact : u.core.act = some act)
    (hallowed : x.hi.getLsbD 0 = true → u.core.diag = true ∧ act.gang = none)
    (hover : u.core.matOps.any (fun m => m.busy && m.serial == act.serial) = false) :
    mmodeBody x u = .ok ((u.mapCore (fun c => { c with matMode := x.hi.getLsbD 0 })).setG x.d.toNat (BitVec.ofNat 64 u.core.matMode.toNat)) := by
  have hpermitted : ¬(x.hi.getLsbD 0 = true ∧ (!u.core.diag) = true) := by
    rintro ⟨hdiag, hno⟩
    simp [(hallowed hdiag).1] at hno
  have halone : ¬(x.hi.getLsbD 0 = true ∧ act.gang.isSome = true) := by
    rintro ⟨hdiag, hgang⟩
    simp [(hallowed hdiag).2] at hgang
  have hidle : ¬u.core.matOps.any (fun m => m.busy && m.serial == act.serial) = true := by simp only [hover, Bool.false_eq_true, not_false_eq_true]
  simp only [mmodeBody, hact, if_neg hpermitted, if_neg halone, if_neg hidle]

/-! The words read as MZERO (R372). -/

theorem mzero_unformed {x : Long} (hexact : x.sub ≠ 0) (hf64 : x.sub ≠ 0xB) : wellFormed (.mzero x) = false := by
  have hno : Shape.mzero.ok x = false := by
    change ((x.sub == 0 || x.sub == 0xB) && x.hi == 0) = false
    rw [beq_eq_false_iff_ne.mpr hexact, beq_eq_false_iff_ne.mpr hf64, Bool.or_false, Bool.false_and]
  have hillegal : (encoding (.mzero x)).legal = false := by
    change Shape.mzero.legal x = false
    simp only [LRow.legal, hno, Bool.and_false]
  rw [wellFormed, hillegal, Bool.false_and]

end Sys2Proof.Laws
end

section
namespace Sys2Proof.Proofs
open Sys2Proof Sys2Proof.Machine Sys2Proof.Claims Sys2Proof.Laws

/-- Settles O30: the unit runs MZERO at once, its accumulator is all zeros, and only the two kinds are well formed. -/
theorem accumulatorZero : Obligations.AccumulatorZero := by
  refine ⟨?clears, ?zeros, fun x hexact hf64 => mzero_unformed hexact hf64, ?kinds⟩
  case clears =>
    rintro x s m t h rfl hruns
    obtain ⟨-, hinstr, hop, -⟩ := unitTakes_keeps h
    refine run_relayed_ok (run_mzero x s (unitTakes_issues h)) (matrixBody_takes h (matrixRun_zero hop) |>.trans ?_) hruns
    rw [leaveMatOp_short _ (by simp [MatOp.isLong, hop]), MatOp.zero, hinstr]
  case zeros =>
    rintro f _ rfl
    exact ⟨rfl, fun k => at_replicate _ k _, rfl, rfl, rfl, rfl⟩
  case kinds =>
    intro p0 p1 p2 x hread
    have hformed : wellFormed (.mzero x) = true := (decodeParcels_readFrom hread).wellFormed
    by_contra hneither
    obtain ⟨hexact, hf64⟩ := not_or.mp hneither
    rw [mzero_unformed hexact hf64] at hformed
    cases hformed

theorem accumulatorResults : AccumulatorResults := by
  refine ⟨?adds, ?copies⟩
  case adds =>
    rintro x s m t h hadds hformats hround rfl hruns
    obtain ⟨-, rfl, hop, -⟩ := unitTakes_keeps h
    have hrun := matrixRun_macc hop (macc_adds (u := past (.macc m.instr) s) hadds hformats hround)
    refine run_relayed_ok (run_macc _ s (unitTakes_issues h)) ((matrixBody_takes h hrun).trans ?_) hruns
    rw [leaveMatOp_short _ (by simp [MatOp.isLong, hop])]
    rfl
  case copies =>
    rintro x s m t h hmov rfl hruns
    obtain ⟨-, rfl, hop, -⟩ := unitTakes_keeps h
    have hrun := matrixRun_macc hop (macc_copies (u := past (.maccMov m.instr) s) hmov)
    refine run_relayed_ok (run_maccMov _ s (unitTakes_issues h)) ((matrixBody_takes h hrun).trans ?_) hruns
    rw [leaveMatOp_short _ (by simp [MatOp.isLong, hop])]
    rfl

theorem matrixProducts : MatrixProducts := by
  refine ⟨?products, ?first, ?next⟩
  case products =>
    have hproduct (i : Long → Instr) (op : Nat) (hlong : op = 0x201 ∨ op = 0x202)
        (run : ∀ x s, issues (i x) s = true → ∃ f, exec (i x) s = relayed s (settle f s (matrixBody x op 2 (past (i x) s)))) :
        ∀ x s m t a b u, unitTakes (i x) x op 2 s m → (s.core.getAcc x.d.toNat).f64 = false →
          checkPair op m.ca m.cb m.da m.db ((x.hi.toNat + 1) * 16) = .ok () → m.fetch (past (i x) s) = .ok (a, b, u) →
          t = ((u.setAcc x.d.toNat ((s.core.getAcc x.d.toNat).addProduct a b)).claimFor m).leaveMatOp { m with stage := .computing } (x.order s) →
          runs t → exec (i x) s = .next t := by
      intro x s m t a b u h hexact hpair hfetch ht hruns
      obtain ⟨-, rfl, rfl, -⟩ := unitTakes_keeps h
      obtain ⟨f, hexec⟩ := run m.instr s (unitTakes_issues h)
      have hk : m.k = (m.instr.hi.toNat + 1) * 16 := if_neg (by omega)
      have hrun := matrixRun_product hlong (product_adds (u := past (i m.instr) s) hexact (hk ▸ hpair) hfetch)
      exact run_relayed_ok hexec ((matrixBody_takes h hrun).trans (congrArg Except.ok ht.symm)) hruns
    simp only [List.forall_mem_cons, List.not_mem_nil, false_implies, implies_true, and_true]
    exact ⟨hproduct .mma 0x201 (.inl rfl) fun x s h => ⟨_, run_mma x s h⟩, hproduct .mmaq 0x202 (.inr rfl) fun x s h => ⟨_, run_mmaq x s h⟩⟩
  case first =>
    rintro x s act m _ a b u h hact hnone hf64 hpair hfetch rfl hruns
    obtain ⟨-, rfl, hop, -⟩ := unitTakes_keeps h
    have hk : m.k = m.instr.hi.toNat + 1 := if_pos hop
    have hpair' : checkPair m.op m.ca m.cb m.da m.db m.k = .ok () := by rw [hop, hk]; exact hpair
    have hfetched := fetchF64_fetches (u := past (.mmad m.instr) s) hf64 hpair' hfetch
    exact run_relayed_ok (run_mmad _ s (unitTakes_issues h)) (mmadBody_first h.2.1 hact h hnone hfetched) hruns
  case next =>
    rintro x s act m _ h hnormal hact hsome rfl hruns
    exact run_relayed_ok (run_mmad x s h) (mmadBody_next hnormal hact hsome) hruns

theorem matrixReadouts : MatrixReadouts := by
  refine ⟨?writes, ?pushes, ?row, ?rows⟩
  case writes =>
    intro x s act m t acc rows h hact hacc hsat hmemory hty hplain hrows ht hruns
    obtain ⟨-, rfl, hop, -⟩ := unitTakes_keeps h
    have hrun := matrixRun_readOut hop (readOut_writes (u := past (.mread m.instr) s) hacc hsat hact hmemory hty hplain hrows)
    exact run_relayed_ok (run_mread _ s (unitTakes_issues h)) ((matrixBody_takes h hrun).trans (congrArg Except.ok ht.symm)) hruns
  case pushes =>
    intro x s m t acc w u h hacc hsat hstream hty hplain hpush ht hruns
    obtain ⟨-, rfl, hop, -⟩ := unitTakes_keeps h
    have ⟨_, _, _, ⟨act, hact, _⟩, _⟩ := h
    have hrun := matrixRun_readOut hop (readOut_pushes (u := past (.mread m.instr) s) hacc hsat hact hstream hty hplain hpush)
    exact run_relayed_ok (run_mread _ s (unitTakes_issues h)) ((matrixBody_takes h hrun).trans (congrArg Except.ok ht.symm)) hruns
  case row =>
    intro x s m acc v h hacc hsat hnarrow hfree hv
    obtain ⟨hid, rfl, hop, -⟩ := unitTakes_keeps h
    have hv' : v = (past (.mreadk m.instr) s).mapCore
        (fun c => (c.settled (.v m.instr.d.toNat) m.id).settled (.v (m.instr.d.toNat + 1)) m.id) := by rw [hid]; exact hv
    have hbound : v.bound m.instr.d.toNat = none := by rw [hv]; exact hfree
    refine ⟨laneVector m.instr (readLane acc m.instr 0 16 (v.v m.instr.d.toNat)), fun k hk => ?_, fun hruns => ?_⟩
    · rw [laneOf_readLane hk, Nat.zero_add, hv]
      rfl
    · have hrun := matrixRun_readRow hop (readRow_one (u := past (.mreadk m.instr) s) hacc hsat hv' hbound hnarrow)
      refine run_relayed_ok (run_mreadk _ s (unitTakes_issues h)) ((matrixBody_takes h hrun).trans ?_) hruns
      rw [leaveMatOp_short _ (by simp [MatOp.isLong, hop])]
  case rows =>
    intro x s m acc v h hacc hsat hwide hfree hnext hv
    obtain ⟨hid, rfl, hop, -⟩ := unitTakes_keeps h
    have hv' : v = (past (.mreadk m.instr) s).mapCore
        (fun c => (c.settled (.v m.instr.d.toNat) m.id).settled (.v (m.instr.d.toNat + 1)) m.id) := by rw [hid]; exact hv
    have hbound : v.bound m.instr.d.toNat = none := by rw [hv]; exact hfree
    have hbound' : v.bound (m.instr.d.toNat + 1) = none := by rw [hv]; exact hnext
    have hlanes : lanes m.instr.ty = 8 := by
      rw [Long.width] at hwide
      simp [lanes, hwide]
    refine ⟨laneVector m.instr (readLane acc m.instr 0 8 0), laneVector m.instr (readLane acc m.instr 8 8 0), fun k hk => ?_, fun hruns => ?_⟩
    · have hlane (lo : Nat) := laneOf_readLane (acc := acc) (lo := lo) (n := 8) (old := 0) (hlanes ▸ hk : k < lanes m.instr.ty)
      rw [← hwide, hlane, hlane, if_pos hk, if_pos hk, Nat.zero_add]
      exact ⟨rfl, rfl⟩
    · have hrun := matrixRun_readRow hop (readRow_two (u := past (.mreadk m.instr) s) hacc hsat hv' hbound hwide hbound')
      refine run_relayed_ok (run_mreadk _ s (unitTakes_issues h)) ((matrixBody_takes h hrun).trans ?_) hruns
      rw [leaveMatOp_short _ (by simp [MatOp.isLong, hop])]

/-- Settles O31: what the unit runs for each instruction, and the lanes that MREADK reads out. -/
theorem matrixInstructions : Obligations.MatrixInstructions := ⟨accumulatorResults, matrixProducts, matrixReadouts⟩

theorem diagnosticQueue : DiagnosticQueue := by
  intro e he x s act m u v w t h hact hmode hnew hroom hu hv hw ht hruns
  obtain ⟨f, hexec⟩ := diagnostic_runs e he x s h hmode
  refine run_relayed_ok hexec (ht ▸ ?_) hruns
  subst hu
  exact matrixBody_queues (u := past (e.1 x) s) hact hmode hnew hroom rfl hv hw

theorem matrixStatus : MatrixStatus := by
  refine ⟨?samples, ?sets⟩
  case samples =>
    rintro x s act acc _ h hact hacc hunclaimed hover rfl hruns
    exact run_relayed_ok (run_mstat x s h) (mstatBody_samples (u := past _ s) hact hacc hunclaimed hover) hruns
  case sets =>
    rintro x s act _ h hact hallowed hover rfl hruns
    exact run_relayed_ok (run_mmode x s h) (mmodeBody_sets (u := past _ s) hact hallowed hover) hruns

/-- Settles O32: the entry of the scoreboard, and the two instructions that read the unit and set its mode. -/
theorem matrixModes : Obligations.MatrixModes := ⟨diagnosticQueue, matrixStatus⟩

end Sys2Proof.Proofs
end

section
/-! 14 R384 to R393: the ring instructions. -/
namespace Sys2Proof.Laws
open Sys2Proof Sys2Proof.Machine Sys2Proof.Claims

section
variable {u : State} {r : Ring}

/-- The core is ready for a ring instruction (R385). -/
theorem ringReady_member (h : ringMemberOf u r) : u.ringReady = .ok r := by
  obtain ⟨hring, hgoes, hnone⟩ := h
  have hready : ¬(2 ≤ u.core.ringState ∨ r.leavers ≠ []) := by
    rintro (hdrains | hleaves)
    · omega
    · exact hleaves hnone
  simp only [State.ringReady, hring, if_neg hready]

theorem entryNumber_names {x : Long} {j : Nat} (h : namesEntry x u j) : entryNumber x u = .ok j := by
  by_cases hsub : x.sub = 1
  · rw [namesEntry, if_pos hsub] at h
    obtain ⟨hclear, rfl⟩ := h
    simp only [entryNumber, if_pos hsub, hclear, ne_eq, not_true_eq_false, if_false]
  · rw [namesEntry, if_neg hsub] at h
    rw [entryNumber, if_neg hsub, h]

/-! The entries (R386, R387, R389). -/

section
variable (hmember : ringMemberOf u r) (hopen : u.core.sealed = false)
include hmember hopen

theorem rmsetBody_arms {x : Long} {j : Nat} {w : Word} (hnames : namesEntry x u j) (hw : w = u.g x.a.toNat) (hclear : fld w 63 46 = 0)
    (hformat : ringFormats.contains (fld w 45 42) = true) (hfree : mState (u.core.entry j) = 0) :
    rmsetBody x u = .ok (u.mapCore (·.setEntry j (BitVec.ofNat 128 (2 ^ 61 + fld w 41 40 * 2 ^ 55 + fld w 45 42 * 2 ^ 51 +
      fld w 39 32 * 2 ^ 40 + fld w 31 0 + u.core.opnum * 2 ^ 121)))) := by
  subst hw
  have hsound : ¬(u.core.sealed = true ∨ (!ringFormats.contains (fld (u.g x.a.toNat) 45 42)) = true ∨ mState (u.core.entry j) ≠ 0) := by
    rw [hopen, hformat, hfree]
    decide
  simp only [rmsetBody, entryNumber_names hnames, ringReady_member hmember, hclear, if_neg hsound, bind, Except.bind]
  rfl

theorem rmclrBody_frees {js : State → Except Stop (List Nat)} {l : List Nat} (hjs : js u = .ok l) :
    rmclrBody js u = .ok (u.mapCore (fun c => l.foldl Core.freeEntry c)) := by
  simp only [rmclrBody, hjs, ringReady_member hmember, hopen, bind, Except.bind]
  rfl

theorem rjoinBody_seals {d : Nat} (hnochange : u.core.leasePend = false) (hunclaimed : u.core.namedAccs &&& u.foreignClaims u.core = 0) :
    rjoinBody d u = .ok (((u.seal u.core.psn).mapAct (fun a => { a with claims := a.claims &&& ~~~ u.core.namedAccs })).setG d
      (BitVec.ofNat 64 (u.core.armedCount + u.core.opnum * 2 ^ 8))) := by
  have hready : ¬(u.core.leasePend = true ∨ u.core.namedAccs &&& u.foreignClaims u.core ≠ 0) := by
    rw [hnochange, hunclaimed]
    decide
  simp only [rjoinBody, ringReady_member hmember, hopen, if_neg hready, bind, Except.bind]
  rfl

end

/-! RELIGHT (R390). -/

section
variable (hmember : ringMemberOf u r) {d j : Nat} {missing : List Bool}
  (hmissing : missing = [false, true].filter (fun w => (u.core.residentAt w (mTag (u.core.entry j) w)).isNone))
include hmember hmissing

theorem relightBody_nothing (h : (mState (u.core.entry j) ≠ 1 ∧ mState (u.core.entry j) ≠ 3) ∨ missing = []) :
    relightBody d j u = .ok (u.setG d 0) := by
  by_cases hother : mState (u.core.entry j) ≠ 1 ∧ mState (u.core.entry j) ≠ 3
  · simp only [relightBody, ringReady_member hmember, if_pos hother, bind, Except.bind]
    rfl
  · have hall := hmissing.symm.trans (h.resolve_left hother)
    simp only [relightBody, ringReady_member hmember, if_neg hother, hall, if_true, bind, Except.bind]
    rfl

theorem relightBody_asks (hwaits : mState (u.core.entry j) = 1 ∨ mState (u.core.entry j) = 3) (hsome : missing ≠ [])
    (hroom : ∀ w ∈ missing, u.reservable u.core w ≠ none) :
    relightBody d j u = .ok (((missing.foldl (fun t w => t.askRelight r u.core.psn j w ((t.reservable u.core w).getD 0)) u).mapCore
      (fun c => c.setEntry j (setMState (c.entry j) 4))).setG d (BitVec.ofNat 64 missing.length)) := by
  have hlive : ¬(mState (u.core.entry j) ≠ 1 ∧ mState (u.core.entry j) ≠ 3) := by omega
  have hready : ¬missing.any (fun w => (u.reservable u.core w).isNone) = true := by
    rw [List.any_eq_true]
    rintro ⟨w, hw, hfull⟩
    exact hroom w hw (Option.isNone_iff_eq_none.mp hfull)
  simp only [relightBody, ringReady_member hmember, if_neg hlive, ← hmissing, if_neg hsome, if_neg hready, bind, Except.bind]
  rfl

end

/-- How many match entries of a member are in a state (R393). -/
def entriesIn (c : Core) (n : Nat) : Nat := ((List.range 64).filter (fun j => mState (c.entry j) == n)).length

/-! RDRAIN, RLEAVE and RSTAT (R391 to R393). -/

section
variable (hring : u.ringOf u.core = some r) {d : Nat}
include hring

theorem rdrainBody_empties (hstill : u.core.ringState = 0 ∨ 3 ≤ u.core.ringState) (hnone : u.ringCompleting r = false) :
    rdrainBody d u = .ok ((((u.dropRelights r).dropSeals (psnRegion u.core.psn) r).modMembers r (fun c => ({ (c.emptySlots.releaseRing) with
      matches_ := Vector.replicate 64 0, inject := Vector.replicate 16 0 } : Core).nextOp 0 (opCancels c.ringOp))).setG d
        (BitVec.ofNat 64 u.core.ringState)) := by
  have hready : ¬(u.core.ringState = 1 ∨ u.core.ringState = 2) := by omega
  simp only [rdrainBody, hring, if_neg hready, hnone]
  rfl

theorem rleaveBody_leaves {left : Nat} {q : Ring} (hidle : u.core.ringState = 0) (hentries : ∀ j, j < 64 → mState (u.core.entry j) = 0)
    (hrecords : ∀ q ∈ u.core.inject.toList, recLive q = false) (hstays : r.leavers.contains u.core.psn = false)
    (hq : q = { r with leavers := r.leavers ++ [u.core.psn] }) (hleft : left = r.members.length - (r.leavers.length + 1)) :
    rleaveBody d u = .ok ((if left = 0 then u.dissolveRing (psnRegion u.core.psn) q else u.putRing (psnRegion u.core.psn) q).setG d
      (BitVec.ofNat 64 left)) := by
  have hready : ¬(u.core.ringState ≠ 0 ∨ (List.range 64).any (fun j => mState (u.core.entry j) != 0) = true ∨
      u.core.inject.toList.any recLive = true ∨ r.leavers.contains u.core.psn = true) := by
    rintro (hruns | hholds | hlive | hleaves)
    · exact hruns hidle
    · obtain ⟨j, hj, hholds⟩ := List.any_eq_true.mp hholds
      simp [hentries j (List.mem_range.mp hj)] at hholds
    · obtain ⟨q, hq, hlive⟩ := List.any_eq_true.mp hlive
      simp [hrecords q hq] at hlive
    · rw [hstays] at hleaves; cases hleaves
  have hleft' : left = r.members.length - (r.leavers ++ [u.core.psn]).length := by rw [hleft, List.length_append, List.length_singleton]
  subst hq
  simp only [rleaveBody, hring, if_neg hready, ← hleft']

theorem rstatBody_membership : rstatBody d 0 u = .ok (u.setG d u.core.ringMember) := by simp only [rstatBody, hring]

theorem rstatBody_operation : rstatBody d 1 u =
    .ok ((u.launchItem (.ringOp u.core.psn d (u.getCore r.origin).ringOp)).setPending (.g d) u.nextId) := by simp only [rstatBody, hring]

theorem rstatBody_slots : rstatBody d 2 u = .ok (u.setG d u.core.ringSlotsWord) := by simp only [rstatBody, hring]

theorem rstatBody_counts : rstatBody d 3 u = .ok (u.setG d (BitVec.ofNat 64 (entriesIn u.core 1 + entriesIn u.core 2 * 2 ^ 8 +
    entriesIn u.core 3 * 2 ^ 16 + entriesIn u.core 4 * 2 ^ 24 + (u.core.inject.toList.filter recLive).length * 2 ^ 32))) := by
  simp only [rstatBody, hring, entriesIn]

end

theorem rstatBody_outside {d sel : Nat} (hnone : u.ringOf u.core = none) :
    rstatBody d sel u = .ok (u.setG d (if sel = 0 then u.core.ringMember else 0)) := by simp only [rstatBody, hnone]

/-! RINJ (R388). -/

/-- No live record of the current operation has the family and the tag. -/
theorem inject_new {c : Core} {fam : Bool} {tag : Nat}
    (h : ∀ q ∈ c.inject.toList, ¬(recLive q = true ∧ recFam q = fam ∧ recTag q = tag)) :
    ¬c.inject.toList.any (fun q => recLive q && recFam q == fam && recTag q == tag) = true := by
  rw [List.any_eq_true]
  rintro ⟨q, hq, hlive⟩
  simp only [Bool.and_eq_true, beq_iff_eq] at hlive
  obtain ⟨⟨hlive, hfam⟩, htag⟩ := hlive
  exact h q hq ⟨hlive, hfam, htag⟩

/-- The bytes of an injection lie in segments that are RAW or OPERAND. -/
theorem segs_plain {t : Tile} {a b : Nat} (ha : segMode (t.seg a) < 2) (hb : segMode (t.seg b) < 2) :
    ¬[a, b].any (fun seg => decide (2 ≤ segMode (t.seg seg))) = true := by
  simp only [List.any_cons, List.any_nil, Bool.or_false, Bool.or_eq_true, decide_eq_true_eq]
  omega

section
variable {act : Act} {v f : State} {w : Word} {cap slot place addr : Nat} {off : State → Int} {hdr : State → Word} {o : State → Order} {home : Psn}
  {rest : List Nat} {bytes : List Byte} (hact : u.core.act = some act) (hmember : ringMemberOf u r)
  /- The header word: nothing reserved is set, some laps, a format, no live record of its family and tag. -/
  (hw : w = hdr u) (hclear : fld w 63 27 = 0) (hlaps : fld w 21 16 ≠ 0) (hformat : ringFormats.contains (fld w 25 22) = true)
  (hnew : ∀ q ∈ u.core.inject.toList, ¬(recLive q = true ∧ recFam q = bit w 26 ∧ recTag q = fld w 15 0))
  /- The 2048 bytes: granted, aligned, in one plain part of the home store tile. -/
  (hcap : u.checkCap { Ask.load cap with answers := false } (u.c cap) (off u) 2048 = .ok addr) (haligned : addr % 64 = 0)
  (hspace : (u.c cap).space = 1) (htile : u.storeTile u.core (addr / 2 ^ 19) = some home) (hhome : u.homeTile u.core = some home)
  (hwhole : addr / 2 ^ 19 = (addr + 2047) / 2 ^ 19) (hseg : segMode ((u.getTile home).seg (addr % 2 ^ 19 / 65536)) < 2)
  (hseg' : segMode ((u.getTile home).seg ((addr % 2 ^ 19 + 2047) / 65536)) < 2)
  /- What it waits for: its order, the bytes, two open slots, a record. -/
  (hafter : u.gone (o u).after = true) (hfull : (u.getTile home).isFull (addr % 2 ^ 19) 2048 = true)
  (hslots : 2 ≤ u.openSlots u.core (bit w 26)) (hfree : u.core.freeSlots (bit w 26) = slot :: rest)
  (hplace : (List.range 16).find? (fun i => !recLive (at_ u.core.inject i 0)) = some place)
  (hread : u.readPart act (tileSource home addr) = .ok (bytes, v))
  (hf : f = v.fillSlot u.core.psn slot 1 (makeHdr (bit w 26) u.core.opnum (fld w 21 16) (fld w 25 22) (fld w 15 0) u.core.name) bytes)
include hact hmember hw hclear hlaps hformat hnew hcap haligned hspace htile hhome hwhole hseg hseg' hafter hfull hslots hfree hplace hread hf

theorem rinjBody_injects : rinjBody cap off hdr o u =
    .ok ((f.mapCore (fun c => { c with inject := put c.inject place (makeRec (bit w 26) c.opnum (fld w 21 16) (fld w 25 22)
      (fld w 15 0) (c.homeStore.toNat * 2 ^ 19 + addr % 2 ^ 19)) })).leaveTokens (o f) []) := by
  subst hw hf
  have hheader : ¬(fld (hdr u) 63 27 ≠ 0 ∨ fld (hdr u) 21 16 = 0) := by
    rintro (hreserved | hnone)
    · exact hreserved hclear
    · exact hlaps hnone
  have hstands : ¬((!ringFormats.contains (fld (hdr u) 25 22)) = true ∨
      u.core.inject.toList.any (fun q => recLive q && recFam q == bit (hdr u) 26 && recTag q == fld (hdr u) 15 0) = true) := by
    rintro (hother | hlive)
    · rw [hformat] at hother; cases hother
    · exact inject_new hnew hlive
  have hlies : ¬(home ≠ home ∨ addr / 2 ^ 19 ≠ (addr + 2047) / 2 ^ 19) := by
    rintro (hother | hcrosses)
    · exact hother rfl
    · exact hcrosses hwhole
  dsimp only at hcap
  rw [tileSource] at hread
  simp only [rinjBody, hact, ringReady_member hmember, if_neg hheader, if_neg hstands, hcap, haligned, hspace, htile, hhome, if_neg hlies,
    if_neg (segs_plain hseg hseg'), hafter, hfull, if_neg (Nat.not_lt.mpr hslots), hfree, hplace, hread, bind, Except.bind]
  rfl

end

end

end Sys2Proof.Laws
end

section
namespace Sys2Proof.Proofs
open Sys2Proof Sys2Proof.Machine Sys2Proof.Claims Sys2Proof.Laws

theorem ringEntries : RingEntries := by
  refine ⟨?rmset, ?rmclr, ?clearsAll, ?rjoin⟩
  case rmset =>
    intro x s r j w h hmember hopen hnames hw hclear hformat hfree
    exact run_body_ok (run_rmset x s h) (rmsetBody_arms (u := past _ s) hmember hopen hnames hw hclear hformat hfree)
  case rmclr =>
    intro x s r j h hmember hopen hnames
    have hjs : (entryNumber x (past (.rmclr x) s)).map (fun j => [j]) = .ok [j] := by
      rw [entryNumber_names (u := past (.rmclr x) s) hnames]
      rfl
    exact run_body_ok (run_rmclr x s h) (rmclrBody_frees (u := past _ s) (l := [j]) hmember hopen hjs)
  case clearsAll =>
    intro x s r h hmember hopen
    exact run_body_ok (run_rmclrAll x s h) (rmclrBody_frees (u := past _ s) hmember hopen rfl)
  case rjoin =>
    intro x s r h hmember hopen hnochange hunclaimed
    exact run_body_ok (run_rjoin x s h) (rjoinBody_seals (u := past _ s) hmember hopen hnochange hunclaimed)

theorem ringInjection : RingInjection := by
  intro x s act u v f r w addr home slot rest place bytes h hact hmember hu hw hclear hlaps hformat hnew hcap haligned hspace htile hhome hwhole
    hseg hseg' hafter hfull hslots hfree hplace hread hf
  subst hu
  have hbody := rinjBody_injects (u := past (.rinj x) s) (off := fun s => s.offset x.b.toNat 0) (hdr := fun s => s.g x.c.toNat) (o := x.order)
    hact hmember hw hclear hlaps hformat hnew hcap haligned hspace htile hhome hwhole hseg hseg' hafter hfull hslots hfree hplace hread hf
  exact run_body_ok (run_rinj x s h) hbody

theorem ringMembership : RingMembership := by
  refine ⟨?relight, ?rdrain, ?rleave, ?rstat⟩
  case relight =>
    rintro x s r _ missing _ h hmember rfl rfl hmissing
    exact ⟨fun hnothing => run_body_ok (run_relight x s h) (relightBody_nothing (u := past _ s) hmember hmissing hnothing),
      fun hwaits hsome hroom => run_body_ok (run_relight x s h) (relightBody_asks (u := past _ s) hmember hmissing hwaits hsome hroom)⟩
  case rdrain =>
    intro x s r h hring hstill hnone
    exact run_body_ok (run_rdrain x s h) (rdrainBody_empties (u := past _ s) hring hstill hnone)
  case rleave =>
    rintro x s r left q _ h rfl hring hidle hentries hrecords hstays hq hleft
    exact run_body_ok (run_rleave x s h) (rleaveBody_leaves (u := past _ s) hring hidle hentries hrecords hstays hq hleft)
  case rstat =>
    rintro x s _ h rfl
    refine ⟨fun hnone => run_body_ok (run_rstat x s h) (rstatBody_outside (u := past _ s) hnone), fun r hring => ⟨?_, ?_, ?_, ?_⟩⟩
    · intro hsel
      exact run_body_ok (run_rstat x s h) (hsel ▸ rstatBody_membership (u := past _ s) hring)
    · intro hsel
      exact run_body_ok (run_rstat x s h) (hsel ▸ rstatBody_operation (u := past _ s) hring)
    · intro hsel
      exact run_body_ok (run_rstat x s h) (hsel ▸ rstatBody_slots (u := past _ s) hring)
    · intro hsel
      exact ⟨entriesIn s.core, fun _ => rfl,
        run_body_ok (run_rstat x s h) (hsel ▸ rstatBody_counts (u := past (.rstat x) s) (d := x.d.toNat) hring)⟩

/-- Settles O33: the entries of a member, the injection of a tile, and what reads, drains and leaves a ring. -/
theorem ringInstructions : Obligations.RingInstructions := ⟨ringEntries, ringInjection, ringMembership⟩

end Sys2Proof.Proofs
end
